-- ==== Sys2Proof/Word.lean ====
section
/-! DEFINITION. The words of the module: 32-bit registers (R6), 64-bit positions and velocities (R2), bytes. -/

namespace Sys2Proof

/-- A register is 32 bit wide (R6). -/
abbrev Word := BitVec 32

/-- A position (Q48.16) or velocity (Q32.32) is 64 bit wide (R2). -/
abbrev DWord := BitVec 64

/-- One byte of a message, an image or the memory stack. -/
abbrev Byte := BitVec 8

end Sys2Proof
end

