-- ==== Sys2Proof/Input.lean ====
section
/-! DEFINITION. What reaches the block from outside besides commands: levels and conditions at its pins, copies of frames on its links. -/

namespace Sys2Proof

/-- A change at an input of the module, in force from the tick with which it is given. -/
inductive Pin where
  /-- sigma-delta data input `k` of native slot `j` -/
  | sd (t : Fin 8) (j : Fin 4) (k : Fin 3) (level : Bool)
  /-- nDF land of native slot `j` -/
  | ndf (t : Fin 8) (j : Fin 4) (level : Bool)
  /-- nQRF land of channel `q` -/
  | nqrf (t : Fin 8) (q : Fin 8) (level : Bool)
  /-- QA, QB or QZ (`k` 0 to 2) of channel `q` took a level `ago` ns before the tick -/
  | quad (t : Fin 8) (q : Fin 8) (k : Fin 3) (ago : Fin 10) (level : Bool)
  /-- probe input `p` took a level `ago` ns before the tick -/
  | probe (t : Fin 8) (p : Fin 4) (ago : Fin 10) (level : Bool)
  /-- level that the input stage of a field channel reads -/
  | field (m : Fin 4) (k : Fin 16) (level : Bool)
  /-- junction of a switch at or above 130 °C -/
  | hot (m : Fin 4) (k : Fin 16) (on : Bool)
  /-- load current of an output below the open-load limit -/
  | lowCurrent (m : Fin 4) (k : Fin 16) (on : Bool)
  /-- a switch in current limit -/
  | inLimit (m : Fin 4) (k : Fin 16) (on : Bool)
  /-- transferred supply of a field half: below its regulation limit; headroom in % -/
  | transfer (m : Fin 4) (low : Bool) (headroom : Nat)
  /-- a field half works again after a failed transfer or a reset -/
  | fieldUp (m : Fin 4)
  /-- GEN land of native slot `j` reads active although gate-enable is removed -/
  | genStuck (t : Fin 8) (j : Fin 4) (on : Bool)
  /-- a frame is arriving on a channel of a Berath port: its SOF stamp, or none -/
  | receiving (p : Fin 12) (chB : Bool) (sof : Option Nat)
  /-- signal-detect land of a channel of a Berath port -/
  | signal (p : Fin 12) (chB : Bool) (level : Bool)
  /-- tamper input -/
  | tamp (n : Fin 2) (level : Bool)
  /-- ENROL strap -/
  | enrol (level : Bool)
  /-- HS_QUAD strap -/
  | hsQuad (level : Bool)
  /-- VBAT in mV -/
  | vbat (mv : Nat)
  /-- VAUX_DC voltage in 0.1 V and input power in 0.1 W -/
  | supply (vaux power : Nat)
  deriving DecidableEq, Repr

/-- A received copy of a frame (R398, R399): on channel B?, SOF stamp in ns, every character valid with EOF at the end, header, payload, tag and CRC bytes. -/
structure RxCopy where
  chB : Bool := false
  stamp : Nat := 0
  clean : Bool := true
  bytes : List Byte := []
  deriving DecidableEq, Repr

end Sys2Proof
end

