-- ==== Sys2Proof/Syntax.lean ====
section
/-! DEFINITION. The commands of the block: one constructor for each row of the opcode table, with the row's operands. -/

namespace Sys2Proof

/-- The commands (rows of the opcode table). Tile `t`, slot or native, pulse or networked slot `j`, rate group `g`, channel `q`, port `p`, session `k`. -/
inductive Instr where
  /-- LATTICE_TICK (R49). The lattice advances by 10 ns, and the actions due at the new tick run in the order of R11. -/
  | latticeTick (pins : List Pin)
  /-- REF_LOST (R52). The reference is absent or off frequency for 20 µs; the lattice moves to the internal oscillator, REF_LOST is set and nFAULT is asserted. -/
  | refLost
  /-- SAMPLE_INSTANT (R56). A rate group reaches its sample instant; the tile latches the frame inputs and the engine starts the computation 20 ns later. -/
  | sampleInstant (t : Fin 8) (g : Fin 4)
  /-- APPLY_INSTANT (R57). A rate group reaches its apply instant; every output of a completed frame takes effect together. -/
  | applyInstant (t : Fin 8) (g : Fin 4)
  /-- FRAME_COMPLETE (R57). The self-timed computation of a frame completes and its slack is recorded. -/
  | frameComplete (t : Fin 8) (g : Fin 4)
  /-- PACE_RAMP_START (R66). The tile core supplies begin to move for a pace change, and PACE_CHANGING is set. -/
  | paceRampStart
  /-- PACE_RAMP_SETTLED (R66). The tile core supplies settle at the new nominal, and PACE_CHANGING clears. -/
  | paceRampSettled
  /-- TL_GRP_CLEAR (R71). A write of TL_GRP_CTRL.CLEAR resets MIN_SLACK and the miss COUNT of the selected groups. -/
  | tlGrpClear (t : Fin 8) (mask : BitVec 4)
  /-- SETPOINT_RECEIVED (R78). A time-stamped set-point is registered at a tile input; it is queued, replaced, or discarded as stale, repeat or overrun. -/
  | setpointReceived (t : Fin 8) (n : Fin 32)
  /-- SETPOINT_TAKES_EFFECT (R79). A queued or late set-point reaches the tick at which it takes effect and becomes the value in force. -/
  | setpointTakesEffect (t : Fin 8) (n : Fin 32)
  /-- EXTRAPOLATION_START (R80). No newer set-point has taken effect by a_n + I, so the input starts to extrapolate. -/
  | extrapolationStart (t : Fin 8) (n : Fin 32)
  /-- LATE_SETPOINT_FAULT (R82). The expiry tick of an input passes; LATE_FAULT is set and the reading axes perform their fault reactions. -/
  | lateSetpointFault (t : Fin 8) (n : Fin 32)
  /-- STAGING_WRITE (R92). A write to a register that holds SG fields places those fields in staging and makes the writer the owner of staging. -/
  | stagingWrite (k : Fin 8) (addr : Nat) (v : Word)
  /-- COMMIT (R101). CM_CTRL.COMMIT freezes staging and starts the consistency checks for the named or ASAP apply tick. -/
  | commit (k : Fin 8) (asap : Bool)
  /-- COMMIT_CHECKS_DONE (R99). The commit checks complete; the commit is accepted with an apply tick, or rejected with the first failing code. -/
  | commitChecksDone
  /-- ABORT (R103). CM_CTRL.ABORT stops a commit that is in its checks or accepted before its decision tick. -/
  | abort (k : Fin 8)
  /-- DISCARD (R91). CM_CTRL.DISCARD empties staging and ends staging ownership. -/
  | discard (k : Fin 8)
  /-- DIE_PREPARED (R104). The hub registers PREPARED from an addressed die that has loaded its shadow copies. -/
  | diePrepared (d : Fin 9)
  /-- COMMIT_DECISION (R104). At the decision tick the hub sends GO when every die has prepared, and ABORT otherwise. -/
  | commitDecision
  /-- COMMIT_APPLY (R105). At the apply tick every die holding GO switches its shadow copies into force. -/
  | commitApply
  /-- STORE (R108). CM_CTRL.STORE snapshots the parameters in force and the PERSIST partitions into the older settings copy. -/
  | store (k : Fin 8)
  /-- STORE_DONE (R109). The STORE journal writes DONE, and CM_STORE.STATE reads OK. -/
  | storeDone
  /-- IMG_INSTALL (R113). IMG_CTRL.INSTALL writes the staged image to slot A or B and verifies the copy. -/
  | imgInstall (k : Fin 8) (s : Fin 2)
  /-- IMG_NEXT (R115). IMG_CTRL.NEXT selects the slot to boot next and marks it TRIAL. -/
  | imgNext (s : Fin 2)
  /-- IMG_STAGE_SLOT (R94). IMG_CTRL.STAGE_SLOT stages an image from a slot and starts its verification. -/
  | imgStageSlot (k : Fin 8) (s : Fin 2)
  /-- IMG_CONFIRM (R114). IMG_CTRL.CONFIRM raises the anti-rollback counter to the running VERSION and clears TRIAL and TRIAL_BOOTED. -/
  | imgConfirm
  /-- IMAGE_VERIFY_DONE (R94). Verification of a staged or installed image completes; IMG_RESULT gives its code and DONE is set. -/
  | imageVerifyDone
  /-- BOOT (R117). The hub leaves reset and runs the boot sequence up to nREADY. -/
  | boot
  /-- SCHED_SEAL (R157). CE_SCHED_CTRL.SEAL locks the shadow gain-schedule bank and starts its fetch. -/
  | schedSeal (t : Fin 8) (sc : Fin 8)
  /-- SCHED_SEAL_DONE (R157). The fetched schedule bank is checked and becomes SEALED, or sets SEAL_ERR. -/
  | schedSealDone (t : Fin 8) (sc : Fin 8)
  /-- SCHED_UNSEAL (R159). CE_SCHED_CTRL.UNSEAL returns a sealed schedule shadow to EMPTY before its swap. -/
  | schedUnseal (t : Fin 8) (sc : Fin 8)
  /-- SCHED_RESELECT (R158). CE_SCHED_CTRL.RESELECT makes the next frame a schedule boundary. -/
  | schedReselect (t : Fin 8) (sc : Fin 8)
  /-- MODE_NOW (R164). A CE_MODE write with NOW requests a hand-over at the next frame of the alternatives. -/
  | modeNow (t : Fin 8) (j : Fin 16) (mode : BitVec 2)
  /-- MODE_ARM (R164). A CE_MODE write of ARMED arms a hand-over for tick CE_MODE_AT, or cancels one. -/
  | modeArm (t : Fin 8) (j : Fin 16) (armed : Bool) (mode : BitVec 2)
  /-- AX_ENABLE (R200). AX_CTRL.ENABLE on a native axis is accepted or refused, or is held pending during a shutdown. -/
  | axEnable (t : Fin 8) (j : Fin 4)
  /-- AX_DISABLE (R201). AX_CTRL.DISABLE starts the disable of a native axis according to DIS_MODE. -/
  | axDisable (t : Fin 8) (j : Fin 4)
  /-- AX_ALIGN (R202). AX_CTRL.ALIGN starts the commutation-offset alignment of a native axis. -/
  | axAlign (t : Fin 8) (j : Fin 4)
  /-- GATE_ENABLE_ASSERT (R200). At the first current-group sample instant after an accepted enable, gate-enable is asserted and precharge starts. -/
  | gateEnableAssert (t : Fin 8) (j : Fin 4)
  /-- PRECHARGE_END (R200). At the first carrier valley after PRE_T, switching starts and the axis becomes ENABLED. -/
  | prechargeEnd (t : Fin 8) (j : Fin 4)
  /-- AX_DISABLE_COMPLETE (R201). At the update point after a disable, the PWM lands go off, gate-enable is removed and the axis becomes DISABLED. -/
  | axDisableComplete (t : Fin 8) (j : Fin 4)
  /-- BRAKE_HOLD_END (R201). The brake engage time of a DIS_MODE 1 disable ends, and the axis goes on as with DIS_MODE 0. -/
  | brakeHoldEnd (t : Fin 8) (j : Fin 4)
  /-- ALIGN_COMPLETE (R202). ALIGN_T ends; the offset is written to AX_ALIGN_RES, ALIGNED is set and the axis is disabled. -/
  | alignComplete (t : Fin 8) (j : Fin 4)
  /-- UPDATE_POINT (R187). A carrier update point arrives, and the compare values loaded before it take effect. -/
  | updatePoint (t : Fin 8) (j : Fin 4)
  /-- EDGE_CALIBRATION (R189). An edge timer completes a calibration of its delay line, and EDGE_COARSE clears if it was set. -/
  | edgeCalibration (t : Fin 8) (j : Fin 4)
  /-- EDGE_COARSE (R190). An edge timer goes 1 ms without calibration; the axis places its edges on ticks. -/
  | edgeCoarse (t : Fin 8) (j : Fin 4)
  /-- DF_TRIP (R203). nDF has been active for the filter run; the stage is switched off and DF is latched. -/
  | dfTrip (t : Fin 8) (j : Fin 4)
  /-- OC_TRIP (R181). A fast-filter phase current reaches OC_LIM on an enabled axis, and the stage trips. -/
  | ocTrip (t : Fin 8) (j : Fin 4)
  /-- SD_STUCK (R180). A run of 64 identical bits on a data input in use causes an SD_STUCK trip. -/
  | sdStuck (t : Fin 8) (j : Fin 4)
  /-- SUM_TRIP (R179). The phase-current sum exceeds SUM_LIM in SUM_N consecutive frames, and the stage trips. -/
  | sumTrip (t : Fin 8) (j : Fin 4)
  /-- AX_TRIP_CLEAR (R205). A W1C write to AX_TRIP clears each written bit whose cause is absent. -/
  | axTripClear (t : Fin 8) (j : Fin 4) (mask : Word)
  /-- FAULT_HOLD_END (R207). The brake engage time after t0 passes; the permissive is removed and the axis enters STO. -/
  | faultHoldEnd (t : Fin 8) (j : Fin 4)
  /-- STEPPER_HOLD (R211). The commanded position of a stepper has been unchanged for HOLD_T, and the d reference drops to I_HOLD. -/
  | stepperHold (t : Fin 8) (j : Fin 4)
  /-- QD_COUNT (R217). An accepted A or B change is registered and counted into the raw count, h, runs and compares. -/
  | qdCount (t : Fin 8) (q : Fin 8) (ts : Nat) (a : Bool) (b : Bool)
  /-- INDEX_EVENT (R225). An accepted QZ change passes the gate; the index timestamp and position are recorded. -/
  | indexEvent (t : Fin 8) (q : Fin 8) (ts : Nat) (z : Bool)
  /-- SET_POS (R223). QD_CTRL.SET_POS sets POS_OFS so that the position equals REFVAL at the next sample instant. -/
  | setPos (t : Fin 8) (q : Fin 8)
  /-- IDX_ARM (R227). QD_CTRL.IDX_ARM arms the channel to take the reference at the next index. -/
  | idxArm (t : Fin 8) (q : Fin 8)
  /-- IDX_DISARM (R227). QD_CTRL.IDX_DISARM clears IDX_ARMED. -/
  | idxDisarm (t : Fin 8) (q : Fin 8)
  /-- ILL_LEAK (R234). An ILL_LEAK interval ends, and ILL_LEAKY decreases by 1 but not below 0. -/
  | illLeak (t : Fin 8) (q : Fin 8)
  /-- STANDSTILL (R230). STILL_T passes with no count; the channel is at standstill and its run ends. -/
  | standstill (t : Fin 8) (q : Fin 8)
  /-- PROBE_EDGE (R232). A recorded probe edge appends its timestamp and positions to the probe FIFO, or is lost on overflow. -/
  | probeEdge (t : Fin 8) (p : Fin 4) (ts : Nat) (rising : Bool)
  /-- PRB_POP (R233). QD_PRB_CTRL.POP removes the oldest probe entry. -/
  | prbPop (t : Fin 8) (p : Fin 4)
  /-- PRB_FLUSH (R233). QD_PRB_CTRL.FLUSH removes every probe entry and clears LOST. -/
  | prbFlush (t : Fin 8) (p : Fin 4)
  /-- RX_FAULT (R235). nQRF has been active for the filter run, and RX_FAULT is set. -/
  | rxFault (t : Fin 8) (q : Fin 8)
  /-- QD_FAULT_CLEAR (R239). A W1C write to QD_FAULT clears each written bit whose cause is absent. -/
  | qdFaultClear (t : Fin 8) (q : Fin 8) (mask : Word)
  /-- PG_START (R265). PG_CTRL.START swaps in the sealed shadow and starts the profile, is held during a stop, or is refused. -/
  | pgStart (t : Fin 8) (j : Fin 16)
  /-- PG_STOP (R267). PG_CTRL.STOP starts a ramped stop with PG_DECEL, or an immediate stop on a pulse axis. -/
  | pgStop (t : Fin 8) (j : Fin 16)
  /-- PG_HOME (R287). PG_CTRL.HOME starts homing on an idle, enabled axis, or sets HOMING_REFUSED. -/
  | pgHome (t : Fin 8) (j : Fin 16)
  /-- PG_SEAL (R260). PG_CTRL.SEAL locks the profile shadow bank and starts its check. -/
  | pgSeal (t : Fin 8) (j : Fin 16)
  /-- PG_SEAL_DONE (R260). The profile bank check and its first buffer load complete; the shadow is SEALED, or SEAL_ERR is set. -/
  | pgSealDone (t : Fin 8) (j : Fin 16)
  /-- PG_UNSEAL (R264). PG_CTRL.UNSEAL returns a sealed profile shadow to EMPTY before its swap. -/
  | pgUnseal (t : Fin 8) (j : Fin 16)
  /-- PREFETCH_ARRIVAL (R258). Requested profile records arrive over the spine into the generator buffer. -/
  | prefetchArrival (t : Fin 8) (j : Fin 16)
  /-- IMMEDIATE_STOP (R269). At the tick after its cause, the step generator zeroes its velocity word and discards held pulses. -/
  | immediateStop (t : Fin 8) (j : Fin 4)
  /-- PULSE_DUE (R273). The phase accumulator crosses a pulse boundary, and a pulse becomes due. -/
  | pulseDue (t : Fin 8) (j : Fin 4)
  /-- PULSE_ISSUE (R277). A due or held pulse meets its timing conditions and is issued on STEP. -/
  | pulseIssue (t : Fin 8) (j : Fin 4)
  /-- STEP_PULSE_END (R277). STEP_W ends and STEP returns to its inactive level; a pending RES change is applied. -/
  | stepPulseEnd (t : Fin 8) (j : Fin 4)
  /-- PG_AX_ENABLE (R281). PG_AX_CTRL.ENABLE enables a pulse axis at the next sample instant, or is refused. -/
  | pgAxEnable (t : Fin 8) (j : Fin 4)
  /-- PG_AX_DISABLE (R281). PG_AX_CTRL.DISABLE stops a pulse axis at once and disables it at the next sample instant. -/
  | pgAxDisable (t : Fin 8) (j : Fin 4)
  /-- HOMING_TIMEOUT (R292). HOME_TO expires before the reference, and homing ends with HOMING_TIMEOUT. -/
  | homingTimeout (t : Fin 8) (j : Fin 16)
  /-- FEED_INSTANT (R296). A pleached group reaches a feed instant; its commands take effect and F steps towards its target. -/
  | feedInstant (gr : Fin 8)
  /-- PLG_START (R299). GR_PLG_CTRL.START requests that every member start together at a feed instant. -/
  | plgStart (gr : Fin 8)
  /-- PLG_HOLD (R298). GR_PLG_CTRL.HOLD requests a hold on the path. -/
  | plgHold (gr : Fin 8)
  /-- PLG_RESUME (R298). GR_PLG_CTRL.RESUME requests a return to RUNNING. -/
  | plgResume (gr : Fin 8)
  /-- PLG_STOP (R298). GR_PLG_CTRL.STOP requests a stop of the group. -/
  | plgStop (gr : Fin 8)
  /-- PLG_FEED_WRITE (R298). A write of GR_PLG_FEED sets a new feed target from a feed instant, or is refused. -/
  | plgFeedWrite (gr : Fin 8) (v : Word)
  /-- PLG_MEMBER_EVENT (R304). The hub registers a disable, fault reaction or immediate stop of a member, and the group will stop. -/
  | plgMemberEvent (gr : Fin 8)
  /-- CLUTCH_ENGAGE (R311). GR_CLUTCH_CTRL.ENGAGE starts engagement, is held pending, or is refused. -/
  | clutchEngage (t : Fin 8) (j : Fin 16)
  /-- CLUTCH_DISENGAGE (R311). GR_CLUTCH_CTRL.DISENGAGE starts disengagement or cancels an armed engage. -/
  | clutchDisengage (t : Fin 8) (j : Fin 16)
  /-- CLUTCH_ZERO (R312). GR_CLUTCH_CTRL.ZERO sets the held offset to 0 on a disengaged, disabled axis. -/
  | clutchZero (t : Fin 8) (j : Fin 16)
  /-- REMOTE_MASTER_VALUE (R308). A remote master's position and velocity arrive at the follower's tile. -/
  | remoteMasterValue (t : Fin 8) (x : Fin 8)
  /-- CAM_SEAL (R315). GR_CAM_CTRL.SEAL locks the cam shadow bank and starts its check. -/
  | camSeal (t : Fin 8) (j : Fin 16)
  /-- CAM_SEAL_DONE (R315). The cam bank check completes; the shadow is SEALED, or SEAL_ERR is set. -/
  | camSealDone (t : Fin 8) (j : Fin 16)
  /-- CAM_UNSEAL (R315). GR_CAM_CTRL.UNSEAL returns a sealed cam shadow to EMPTY. -/
  | camUnseal (t : Fin 8) (j : Fin 16)
  /-- CAM_RESELECT (R317). GR_CAM_CTRL.RESELECT makes the next sample instant a cam boundary. -/
  | camReselect (t : Fin 8) (j : Fin 16)
  /-- CAM_FETCH_ARRIVAL (R318). Requested cam points arrive in the cam unit's buffer. -/
  | camFetchArrival (t : Fin 8) (j : Fin 16)
  /-- CMP_ARM (R321). GR_CMP_CTRL.ARM sets a compare position and may set COMPARE_BEHIND. -/
  | cmpArm (t : Fin 8) (c : Fin 4)
  /-- CMP_DISARM (R322). GR_CMP_CTRL.DISARM disarms a compare. -/
  | cmpDisarm (t : Fin 8) (c : Fin 4)
  /-- CMP_CLEAR (R322). GR_CMP_CTRL.CLEAR returns the compare land to its inactive level. -/
  | cmpClear (t : Fin 8) (c : Fin 4)
  /-- COMPARE_PULSE_END (R322). The WIDTH of a compare pulse ends, and the land returns to inactive. -/
  | comparePulseEnd (t : Fin 8) (c : Fin 4)
  /-- NX_ENABLE (R325). GR_NX_CTRL.ENABLE starts ENABLING of a networked axis, or is refused. -/
  | nxEnable (t : Fin 8) (j : Fin 8)
  /-- NX_DISABLE (R326). GR_NX_CTRL.DISABLE starts DISABLING of a networked axis. -/
  | nxDisable (t : Fin 8) (j : Fin 8)
  /-- NX_ENABLE_TIMEOUT (R325). EN_TO passes without the partner ENABLED, and the axis returns to DISABLED with EN_TIMEOUT. -/
  | nxEnableTimeout (t : Fin 8) (j : Fin 8)
  /-- NX_DISABLE_TIMEOUT (R326). OFF_TO passes without the partner disabled; the axis becomes DISABLED with OFF_TIMEOUT. -/
  | nxDisableTimeout (t : Fin 8) (j : Fin 8)
  /-- NX_FEEDBACK_RECEIVED (R323). A relayed partner feedback record is registered at the tile of its slot. -/
  | nxFeedbackReceived (t : Fin 8) (j : Fin 8)
  /-- NX_SETPOINT_AT_HUB (R48). A networked set-point reaches the hub and is queued for the next exclusive window of its port. -/
  | nxSetpointAtHub (t : Fin 8) (j : Fin 8)
  /-- NOP (R339). The sequencer executes NOP. -/
  | nop (t : Fin 8)
  /-- LD (R339). The sequencer loads a word, pair or quad from local memory. -/
  | ld (t : Fin 8)
  /-- ST (R339). The sequencer stores a word, pair or quad to local memory. -/
  | st (t : Fin 8)
  /-- MVM (R339). The sequencer copies words from memory to memory. -/
  | mvm (t : Fin 8)
  /-- LDI (R339). The sequencer loads a constant from the second instruction word. -/
  | ldi (t : Fin 8)
  /-- MOV (R339). The sequencer copies one data register to another. -/
  | mov (t : Fin 8)
  /-- MOVA (R339). The sequencer copies between register classes, including special registers. -/
  | mova (t : Fin 8)
  /-- AADD (R336). The sequencer modifies an address register without access. -/
  | aadd (t : Fin 8)
  /-- ADD (R341). The sequencer adds with saturation. -/
  | add (t : Fin 8)
  /-- SUB (R341). The sequencer subtracts with saturation. -/
  | sub (t : Fin 8)
  /-- ASH (R341). The sequencer shifts arithmetically. -/
  | ash (t : Fin 8)
  /-- AND (R339). The sequencer forms a bitwise AND. -/
  | and (t : Fin 8)
  /-- OR (R339). The sequencer forms a bitwise OR. -/
  | or (t : Fin 8)
  /-- XOR (R339). The sequencer forms a bitwise XOR. -/
  | xor (t : Fin 8)
  /-- CMP (R341). The sequencer sets flags from a 33-bit difference. -/
  | cmp (t : Fin 8)
  /-- ABS (R341). The sequencer forms a saturated magnitude. -/
  | abs (t : Fin 8)
  /-- MUL (R342). The sequencer multiplies into an accumulator. -/
  | mul (t : Fin 8)
  /-- MAC (R342). The sequencer multiplies and accumulates. -/
  | mac (t : Fin 8)
  /-- MSU (R342). The sequencer multiplies and subtracts from an accumulator. -/
  | msu (t : Fin 8)
  /-- VMAC (R339). The sequencer performs a four-lane vector multiply-accumulate. -/
  | vmac (t : Fin 8)
  /-- ACCR (R339). The sequencer reads an accumulator into a data register with shift and saturation. -/
  | accr (t : Fin 8)
  /-- ACLR (R339). The sequencer clears the selected accumulators. -/
  | aclr (t : Fin 8)
  /-- BFLY (R344). The sequencer performs a radix-2 butterfly. -/
  | bfly (t : Fin 8)
  /-- BSCALE (R345). The sequencer sets the butterfly shift from BDET and updates BEXP. -/
  | bscale (t : Fin 8)
  /-- SRCH (R346). The sequencer performs one maximum or minimum search step. -/
  | srch (t : Fin 8)
  /-- MBSNAP (R354). The sequencer snapshots the 16 mailbox IN words to local memory. -/
  | mbsnap (t : Fin 8)
  /-- MBOUT (R355). The sequencer places a value in a pending OUT word. -/
  | mbout (t : Fin 8)
  /-- MBPOST (R355). The sequencer posts the masked pending words as new OUT words together. -/
  | mbpost (t : Fin 8)
  /-- BR (R339). The sequencer branches when the condition holds. -/
  | br (t : Fin 8)
  /-- DBNZ (R339). The sequencer decrements and branches when the result is not zero. -/
  | dbnz (t : Fin 8)
  /-- CALL (R339). The sequencer pushes the return address and branches. -/
  | call (t : Fin 8)
  /-- RET (R339). The sequencer pops the return address. -/
  | ret (t : Fin 8)
  /-- RETI (R339). The sequencer returns from a handler and sets IE. -/
  | reti (t : Fin 8)
  /-- REP (R347). The sequencer repeats the next instruction n times. -/
  | rep (t : Fin 8)
  /-- WAIT (R351). The sequencer waits until any flag of its mask is set. -/
  | wait (t : Fin 8)
  /-- EVCLR (R339). The sequencer clears the masked event flags. -/
  | evclr (t : Fin 8)
  /-- SETIE (R339). The sequencer sets or clears IE. -/
  | setie (t : Fin 8)
  /-- XFER (R358). The sequencer starts a transfer channel from a descriptor. -/
  | xfer (t : Fin 8)
  /-- HALT (R339). The sequencer executes HALT and enters HALTED. -/
  | halt (t : Fin 8)
  /-- SQ_DISPATCH (R350). At an instruction boundary with IE set, the lowest enabled pending event is dispatched to its handler. -/
  | sqDispatch (t : Fin 8)
  /-- SQ_XFER_DONE (R359). A sequencer transfer completes or fails, and event 8 + c (or 13 at the inbox tile) is set. -/
  | sqXferDone (t : Fin 8) (c : Fin 4)
  /-- MAILBOX_STALE (R356). A mailbox timeout passes without a post; MB_STALE is set and the reading axes fault. -/
  | mailboxStale (t : Fin 8) (m : Fin 16)
  /-- SQ_HALT (R362). SQ_CTRL.HALT stops the sequencer at the next instruction boundary. -/
  | sqHalt (t : Fin 8)
  /-- SQ_RUN (R362). SQ_CTRL.RUN continues a halted sequencer at its PC. -/
  | sqRun (t : Fin 8)
  /-- SQ_RESET (R362). SQ_CTRL.RESET clears the registers and starts the sequencer at ENTRY. -/
  | sqReset (t : Fin 8)
  /-- SQ_CLR_STATS (R362). SQ_CTRL.CLR_STATS sets SQ_DISP_MAX to 0. -/
  | sqClrStats (t : Fin 8)
  /-- SQ_DOORBELL (R348). A write of SQ_DOORBELL stores DBELL and sets event 12. -/
  | sqDoorbell (t : Fin 8) (v : Word)
  /-- LOCAL_MEMORY_WRITE (R361). A host write to sequencer local memory takes effect, or is refused in the code area. -/
  | localMemoryWrite (t : Fin 8) (addr : BitVec 16) (v : Word)
  /-- ACQ_ROW (R365). An acquisition instant takes a row and runs the trigger sequencer. -/
  | acqRow (t : Fin 8)
  /-- BLOCK_WRITEBACK (R371). A queued acquisition block is released and written to the memory stack as class 4 traffic. -/
  | blockWriteback (t : Fin 8)
  /-- TRIGGER_TIMER_EXPIRY (R377). A trigger sequencer timer reaches its expiry tick. -/
  | triggerTimerExpiry (t : Fin 8) (i : Fin 2)
  /-- AQ_ARM (R378). AQ_HUB_CTRL.ARM arms a set of tiles at a named or ASAP arm tick. -/
  | aqArm (tiles : BitVec 8) (asap : Bool)
  /-- AQ_DISARM (R385). AQ_HUB_CTRL.DISARM starts an acquisition stop of the named tiles. -/
  | aqDisarm (tiles : BitVec 8)
  /-- AQ_FORCE (R380). AQ_HUB_CTRL.FORCE counts as a firing of the hub. -/
  | aqForce
  /-- ARM_TICK (R379). The arm tick arrives, and each tile of the set arms, holds the arm pending or refuses it. -/
  | armTick
  /-- AQ_STOP (R385). AQ_CTRL.STOP starts an acquisition stop of the tile. -/
  | aqStop (t : Fin 8)
  /-- AQ_RELEASE (R386). AQ_CTRL.RELEASE clears the FULL bit of a slot. -/
  | aqRelease (t : Fin 8) (s : Fin 16)
  /-- AQ_CLR_STATS (R383). AQ_CTRL.CLR_STATS clears MISSED and the gap counters. -/
  | aqClrStats (t : Fin 8)
  /-- FIRING_AT_HUB (R380). A firing of an armed unit is registered at the hub and merged into the held trigger. -/
  | firingAtHub (t : Fin 8)
  /-- SET_TRIGGER_SEND (R380). 1,000 ns after the held firing, the hub sends the set trigger to every tile of the set. -/
  | setTriggerSend
  /-- SET_TRIGGER_RECEIVED (R381). A tile registers a set trigger and acts by its state at the trigger tick. -/
  | setTriggerReceived (t : Fin 8)
  /-- REARM (R384). At the re-arm tick the unit becomes IDLE, or ARMED in the next slot. -/
  | rearm (t : Fin 8)
  /-- ACQ_STOP_COMPLETE (R385). An acquisition stop has written back its blocks and descriptor, and the unit becomes IDLE. -/
  | acqStopComplete (t : Fin 8)
  /-- CYCLE_START (R400). A basic cycle starts, and the star sends CYCLE_START on every active port. -/
  | cycleStart
  /-- MATRIX_START (R408). A cycle matrix starts; the counter advances, ports may enter RUN and statistics are latched. -/
  | matrixStart
  /-- REKEY (R581). REKEY_M matrices have passed in RUN, and the star starts a new key exchange. -/
  | rekey (p : Fin 12)
  /-- DOWN_WINDOW_ASSEMBLY (R426). At the assembly tick of an exclusive DOWN window the star fills and sends its SETPOINT or SAFETY frame. -/
  | downWindowAssembly (p : Fin 12)
  /-- ARBITRATING_DOWN_WINDOW (R418). An arbitrating DOWN window opens, and the star sends up to 4 queued frames. -/
  | arbitratingDownWindow (p : Fin 12)
  /-- KEY_OFFER_RETRY (R580). No valid ACCEPT arrives within 8 matrices, and the star offers again with a new nonce. -/
  | keyOfferRetry (p : Fin 12)
  /-- WINDOW_CLOSE (R411). An UP window occurrence closes; a frame still arriving is clipped and missed feedback is counted. -/
  | windowClose (p : Fin 12)
  /-- FEEDBACK_FRAME_RX (R429). A valid FEEDBACK frame is registered, and its bound records are relayed to the tiles. -/
  | feedbackFrameRx (p : Fin 12) (c : RxCopy)
  /-- SETPOINT_FRAME_RX (R431). A valid partner SETPOINT frame is registered, and its records feed the bound set-point inputs. -/
  | setpointFrameRx (p : Fin 12) (c : RxCopy)
  /-- SAFETY_FRAME_RX (R539). A valid SAFETY frame is registered, and its PDUs pass to the safety layer. -/
  | safetyFrameRx (p : Fin 12) (c : RxCopy)
  /-- DATA_FRAME_RX (R420). A valid DATA frame is registered and is forwarded or queued for the host, or dropped. -/
  | dataFrameRx (p : Fin 12) (c : RxCopy)
  /-- STARTUP_FRAME_RX (R436). A STARTUP frame from a coldstart port sets the phase of a quickset network, or is discarded. -/
  | startupFrameRx (p : Fin 12) (c : RxCopy)
  /-- JOIN_FRAME_RX (R440). A valid JOIN is registered in a spare window, and a JOIN_ACK is queued. -/
  | joinFrameRx (p : Fin 12) (c : RxCopy)
  /-- KEY_FRAME_RX (R580). A KEY frame from the partner is registered; a valid ACCEPT leads to CONFIRM. -/
  | keyFrameRx (p : Fin 12) (c : RxCopy)
  /-- CHANNEL_UP (R393). A channel receives the third clean idle set and becomes UP. -/
  | channelUp (p : Fin 12) (chB : Bool)
  /-- CHANNEL_DOWN (R393). A channel loses sync through code errors, missing K28.5 or inactive SD, and becomes DOWN. -/
  | channelDown (p : Fin 12) (chB : Bool)
  /-- QUICKSET_DECISION (R436). At the decision tick the star relays STARTUP, sets its anchor and starts the network. -/
  | quicksetDecision
  /-- QUICKSET_EXPIRED (R438). QS_WAIT passes without a decision; QS_EXPIRED is set and the star may fall back to star start. -/
  | quicksetExpired
  /-- BL_PORT_ENABLE (R446). BL_PORT_CTRL.ENABLE enables a port at the next cycle start, or is held or refused. -/
  | blPortEnable (p : Fin 12)
  /-- BL_PORT_DISABLE (R446). BL_PORT_CTRL.DISABLE starts the disable of a port with LEAVE. -/
  | blPortDisable (p : Fin 12)
  /-- BL_CLR_STATS (R415). BL_PORT_CTRL.CLR_STATS clears the counters and statistics of a port. -/
  | blClrStats (p : Fin 12)
  /-- NT_RATE_WRITE (R449). A write of NT_RATE governs the advance of network time from the next tick. -/
  | ntRateWrite (v : Word)
  /-- NT_STEP (R451). NT_CTRL.STEP steps network time by NT_STEP at the next tick and increments the epoch. -/
  | ntStep
  /-- NT_STEP_EFFECT (R459). A step of network time takes effect, and NETWORK-based units fire, re-phase or skip. -/
  | ntStepEffect
  /-- NT_CAPTURE (R454). NT_CTRL.CAPTURE latches the lattice, network time and epoch together. -/
  | ntCapture
  /-- TE_ARM (R457). NT_EV_CTRL.ARM arms a timed event unit with its configuration. -/
  | teArm (u : Fin 32)
  /-- TE_DISARM (R456). NT_EV_CTRL.DISARM stops a timed event unit. -/
  | teDisarm (u : Fin 32)
  /-- TIMED_EVENT_FIRE (R458). A timed event unit's occurrence falls due, and it fires on its land. -/
  | timedEventFire (u : Fin 32)
  /-- TEO_PULSE_END (R458). The WIDTH of a timed event pulse ends, and its land becomes inactive. -/
  | teoPulseEnd (k : Fin 8)
  /-- CAPTURE_RECORD (R460). A CAPTURE unit records a compare firing with both timestamps. -/
  | captureRecord (u : Fin 32)
  /-- PTP_RX (R462). A PTP message is received, stamped and queued as a receive record. -/
  | ptpRx (m : Fin 2) (stamp : Nat) (frame : List Byte)
  /-- PTP_TX (R463). A queued PTP frame is sent with a two-step stamp or a one-step timestamp. -/
  | ptpTx (m : Fin 2) (stamp : Nat)
  /-- PTP_TS_POP (R463). NT_PTP_TS_CTRL.POP removes the oldest egress timestamp. -/
  | ptpTsPop (m : Fin 2)
  /-- FIELD_EXCHANGE (R488). At an exchange instant each field pair swaps frames with the logic side. -/
  | fieldExchange
  /-- FIELD_FRAME_RX (R489). The frame from a field half is registered at the hub, safety engine and tiles. -/
  | fieldFrameRx (m : Fin 4) (ok : Bool)
  /-- FIELD_FRAME_APPLY (R491). The field half applies the frame from the logic side in the order of R491. -/
  | fieldFrameApply (m : Fin 4)
  /-- INPUT_ACCEPTED (R476). A run of samples completes the debounce, and a new input level is accepted. -/
  | inputAccepted (m : Fin 4) (k : Fin 16)
  /-- LINK_LOST (R492). Three exchanges pass without a valid frame; every state of the pair reads 0 with VALID clear. -/
  | linkLost (m : Fin 4)
  /-- FIELD_WD_EXPIRED (R495). The functional watchdog of a pair expires, and its outputs take the safe pattern or go off. -/
  | fieldWdExpired (m : Fin 4)
  /-- SAFETY_WD_EXPIRED (R498). The safety-section watchdog expires, and the brake channels of the pair go off. -/
  | safetyWdExpired (m : Fin 4)
  /-- WD_RELEASE (R497). FIO_CTRL.WD_RELEASE releases an expired watchdog when the exchange also refreshes it. -/
  | wdRelease (m : Fin 4)
  /-- FIO_CLR_CNT (R492). FIO_CTRL.CLR_CNT clears FIO_CNT. -/
  | fioClrCnt (m : Fin 4)
  /-- FIO_OUT_SET (R486). A write of FIO_OUT_SET sets the host command of host-sourced outputs. -/
  | fioOutSet (m : Fin 4) (mask : BitVec 16)
  /-- FIO_OUT_CLR (R486). A write of FIO_OUT_CLR clears the host command of host-sourced outputs. -/
  | fioOutClr (m : Fin 4) (mask : BitVec 16)
  /-- OVERLOAD (R482). A switch stays in current limit for 5 ms, switches off and sets OVERLOAD. -/
  | overload (m : Fin 4) (k : Fin 16)
  /-- OVERTEMP (R482). A switch junction reaches 150 °C, switches off and sets OVERTEMP. -/
  | overtemp (m : Fin 4) (k : Fin 16)
  /-- OPEN_LOAD (R500). An output is on with current below the open-load limit for 10 ms. -/
  | openLoad (m : Fin 4) (k : Fin 16)
  /-- READBACK (R500). The readback level differs from the command for 500 µs. -/
  | readback (m : Fin 4) (k : Fin 16)
  /-- LP_LOW (R468). L+ stays below 16.0 V for 1 ms, or recovers above 18.0 V for 1 ms, and LP_LOW is set or cleared. -/
  | lpLow (m : Fin 4) (low : Bool)
  /-- TRANSFER_FAIL (R469). The barrier transfer fails or the field half resets, and every output of the pair turns off. -/
  | transferFail (m : Fin 4)
  /-- FIO_DIAG_CLEAR (R502). A W1C write to FIO_DIAG clears each written bit whose cause is absent. -/
  | fioDiagClear (m : Fin 4) (k : Fin 16) (mask : Word)
  /-- SAFETY_EVALUATION (R503). The safety engine evaluates its registered inputs, faults and requests. -/
  | safetyEvaluation
  /-- SAFETY_DECISION_EFFECT (R504). Zone and connection decisions of an evaluation take effect 125 µs later, first in the tick. -/
  | safetyDecisionEffect
  /-- ENGINE_STALL (R506). No evaluation completes for 250 µs; the timer removes every permissive and sets ENGINE_FAULT. -/
  | engineStall
  /-- SAFETY_DIAG_CYCLE (R510). A periodic safety-channel diagnostic runs at its interval. -/
  | safetyDiagCycle (fail : Fin 6)
  /-- ZONE_RESET (R516). SF_ZONE_CTRL.RESET, or a valid reset pulse, resets a healthy zone's demand. -/
  | zoneReset (z : Fin 16)
  /-- ACK (R520). SF_AX_CTRL.ACK clears FLT when every fault bit of the cause reads 0, or sets ACK_REFUSED. -/
  | ack (t : Fin 8) (j : Fin 16)
  /-- STO_TEST (R521). SF_AX_CTRL.STO_TEST removes the permissive for one evaluation and checks gate-enable readback. -/
  | stoTest (t : Fin 8) (j : Fin 4)
  /-- BT_START (R526). SF_AX_CTRL.BT_START starts the brake test of an eligible axis, or sets REFUSED. -/
  | btStart (t : Fin 8) (j : Fin 4)
  /-- BRAKE_TEST_STEP (R526). A timed step of the brake test changes the test current or ends the test. -/
  | brakeTestStep (t : Fin 8) (j : Fin 4)
  /-- SF_VERIFY (R546). A write of SF_VERIFY stores the verified check and clears UNVERIFIED, or sets VERIFY_ERR. -/
  | sfVerify (v : Word)
  /-- SAFETY_PDU_RX (R540). A received safety PDU is checked and accepted, or discarded or failing the connection. -/
  | safetyPduRx (c : Fin 48)
  /-- SAFETY_CONN_EXPIRY (R541). W_T passes without an accepted PDU, and the connection fails. -/
  | safetyConnExpiry (c : Fin 48)
  /-- SAFETY_PDU_SEND (R539). SEND_P elapses on a host-path connection, and the module sends one PDU. -/
  | safetyPduSend (c : Fin 48)
  /-- GRACE_EXPIRY (R535). Grace mode reaches E_g, and the axis is commanded stopped as for a category-1 zone. -/
  | graceExpiry (t : Fin 8) (j : Fin 16)
  /-- STOP_TIMEOUT (R517). STOP_T passes before the generator is IDLE; the fault reaction begins and STOP_TIMEOUT is set. -/
  | stopTimeout (t : Fin 8) (j : Fin 16)
  /-- STO_DUE (R521). The STO test due tick arrives, and STO_DUE is set. -/
  | stoDue (t : Fin 8) (j : Fin 16)
  /-- BT_DUE (R528). The brake test due tick arrives, and BT_DUE is set. -/
  | btDue (t : Fin 8) (j : Fin 16)
  /-- NEW_CHALLENGE (R561). SEC_CTRL.NEW_CHALLENGE draws a new 128-bit challenge. -/
  | newChallenge
  /-- CHALLENGE_EXPIRY (R561). A challenge reaches 600 s and becomes invalid. -/
  | challengeExpiry
  /-- SUBMIT (R563). SEC_CTRL.SUBMIT starts the checks of the token in SEC_BUF. -/
  | submit (bank : Fin 11)
  /-- TOKEN_CHECK_DONE (R563). Token verification completes with a result code, and an accepted token acts. -/
  | tokenCheckDone
  /-- ENROL (R569). SEC_CTRL.ENROL enrols the owner roots in MANUFACTURED, or is refused. -/
  | enrol (bank : Fin 11)
  /-- ATTEST (R582). SEC_CTRL.ATTEST writes a signed attestation report into SEC_BUF. -/
  | attest (bank : Fin 11)
  /-- END_SERVICE (R568). SEC_CTRL.END_SERVICE returns the module from FIELD_SERVICE to OWNED. -/
  | endService
  /-- FIELD_SERVICE_EXPIRY (R568). The FIELD_SERVICE period ends, and the module returns to OWNED. -/
  | fieldServiceExpiry
  /-- LIFECYCLE_TRANSITION (R559). A life-cycle transition's journal completes, and the new state takes effect. -/
  | lifecycleTransition
  /-- GENERATE_IDENTITY (R548). GENERATE_IDENTITY over the test access port creates the identity key and leaves BLANK. -/
  | generateIdentity
  /-- HELLO (R573). A HELLO message opens a session handshake, and the module answers REPLY or REFUSE. -/
  | hello (p : Fin 3)
  /-- FINISH (R574). A FINISH message completes the handshake, and the session opens with its roles. -/
  | finish (p : Fin 3)
  /-- HANDSHAKE_TIMEOUT (R617). No valid FINISH arrives within 5 s, the handshake ends and REFUSE TIMEOUT is sent. -/
  | handshakeTimeout (k : Fin 8)
  /-- REQUEST (R620). A tagged REQUEST message is checked and its commands are carried out in order. -/
  | request (p : Fin 3)
  /-- PLAIN_REQUEST (R631). A PLAIN_REQUEST outside a session is carried out if it holds only permitted commands. -/
  | plainRequest (p : Fin 3)
  /-- SAFETY_MESSAGE (R536). A SAFETY session message carries one safety PDU for a host-path connection. -/
  | safetyMessage (p : Fin 3)
  /-- CLOSE (R576). A CLOSE message ends the session. -/
  | close (p : Fin 3)
  /-- SESSION_IDLE_EXPIRY (R576). IDLE_T passes without an accepted message, and the session ends. -/
  | sessionIdleExpiry (k : Fin 8)
  /-- SESSION_END (R576). SEC_SESS_CTRL.END from an OWNER session ends the session. -/
  | sessionEnd (k : Fin 8)
  /-- TAMPER_DETECT (R584). Two consecutive tamper samples read active; the event is logged and ZEROISE may erase the keys. -/
  | tamperDetect (n : Fin 2)
  /-- MARGIN_MEASURE (R589). A tile measures its rate margin every 100 ms and updates its mean. -/
  | marginMeasure (t : Fin 8) (margin : Int)
  /-- ECC_CORRECTED (R591). A memory corrects a single-bit error and counts it in the window. -/
  | eccCorrected (mem : Fin 3) (addr : Nat)
  /-- ECC_UNCORRECTABLE (R592). An uncorrectable error is logged, ECC_UE is set and the word is not delivered. -/
  | eccUncorrectable (mem : Fin 3) (addr : Nat)
  /-- HEALTH_WINDOW (R588). A new 3,600 s window starts, and every per-window counter returns to 0. -/
  | healthWindow
  /-- HOLDUP_MEASURE (R595). The supply measures its hold-up at boot and every 24 h. -/
  | holdupMeasure (tenths : Nat)
  /-- SUPPLY_FAULT (R596). A supply stays outside its limits for 10 µs; nFAULT is asserted and the affected axes fault. -/
  | supplyFault (s : Fin 9) (dev : Int)
  /-- TEMPERATURE_READ (R597). Each sensor is read every 1 ms, and warning and critical levels are judged. -/
  | temperatureRead (s : Fin 10) (v : Int)
  /-- LOG_NVM_WRITE (R600). A tail entry of the event log is written to NVM. -/
  | logNvmWrite
  /-- REPLACE_CLEAR (R587). A W1C write to HL_REPLACE clears each written cause whose condition is absent. -/
  | replaceClear (mask : Word)
  /-- LOG_SEL (R602). A write of HL_LOG_SEL selects a log entry for reading. -/
  | logSel (seq : Word)
  /-- ST_START (R604). HL_ST_CTRL.START starts a self-test of the target region, or is refused. -/
  | stStart (op : BitVec 4) (target : BitVec 4)
  /-- ST_ABORT (R607). HL_ST_CTRL.ABORT aborts the running self-test and restores its region. -/
  | stAbort
  /-- SELFTEST_SAVE_DONE (R606). The tile state is saved, and the test operation begins. -/
  | selftestSaveDone
  /-- SELFTEST_TEST_DONE (R608). The test operation ends with PASS or FAIL, and restoring begins. -/
  | selftestTestDone (pass : Bool) (detail : Word)
  /-- SELFTEST_RESTORE_DONE (R606). The tile state is restored, and frames resume at the next sample instant. -/
  | selftestRestoreDone
  /-- TAP_INSTRUCTION (R609). An IEEE 1149.1 instruction is loaded into the test access port. -/
  | tapInstruction (code : Fin 7)
  /-- CMD_READ (R618). The READ command returns N words from ADDR upwards. -/
  | cmdRead (k : Fin 8) (n : Nat) (addr : Nat)
  /-- CMD_WRITE (R619). The WRITE command writes N registers, with SG fields going to staging. -/
  | cmdWrite (k : Fin 8) (addr : Nat) (data : List Word)
  /-- CMD_STAGE (R619). The STAGE command places only the SG fields of N registers in staging. -/
  | cmdStage (k : Fin 8) (addr : Nat) (data : List Word)
  /-- CMD_COMMIT (R619). The COMMIT command writes the apply tick and commits, and returns the apply and acceptance ticks. -/
  | cmdCommit (k : Fin 8) (asap : Bool) (tick : Nat)
  /-- CMD_STORE (R619). The STORE command starts a STORE and returns the stored sequence number. -/
  | cmdStore (k : Fin 8)
  /-- CMD_XFER_READ (R624). The XFER_READ command reads bytes from a transfer target or removes a queue item. -/
  | cmdXferRead (k : Fin 8) (target : Nat) (n : Nat) (index : Nat) (ofs : Nat)
  /-- CMD_XFER_WRITE (R624). The XFER_WRITE command writes bytes to a transfer target or queue. -/
  | cmdXferWrite (k : Fin 8) (target : Nat) (last : Bool) (index : Nat) (ofs : Nat) (data : List Byte)
  /-- CMD_SETPOINT (R628). The SETPOINT command delivers a time-stamped set-point to a tile input. -/
  | cmdSetpoint (k : Fin 8) (tile : Nat) (input : Nat) (apply : Nat) (value : DWord)
  /-- PUT (R614). A serial PUT transaction delivers one message into the receive buffers. -/
  | put (msg : List Byte) (whole : Bool)
  /-- GET (R614). A serial GET transaction returns and removes the oldest waiting message. -/
  | get
  /-- STATUS (R613). A serial STATUS transaction returns RESP_READY and RX_FULL. -/
  | status
  /-- ETH_FRAME_RX (R612). An Ethernet frame is received and accepted, answered for ARP or ICMP, or discarded. -/
  | ethFrameRx (m : Fin 2) (frame : List Byte)
  /-- PHY_POLL (R610). The hub reads the PHY status over MDIO every 100 ms. -/
  | phyPoll (m : Fin 2) (link : Bool) (fast : Bool) (full : Bool)
  /-- POWER_FAIL_WARNING (R637). Both inputs are low for 50 µs; PF_WARN is set, nPFW is asserted and the warning is logged. -/
  | powerFailWarning
  /-- POWER_FAIL_CLEAR (R640). An input sustains the bus for 100 ms, and the warning clears. -/
  | powerFailClear
  /-- RAIL_RESET (R657). A rail leaves regulation; the hub enters reset and its lands go to high impedance. -/
  | railReset
  /-- REGISTER_WRITE (R7). A write to a register that has no row of its own acts on its fields according to their types. -/
  | registerWrite (k : Fin 8) (addr : Nat) (v : Word)
  /-- INVALID_COPY_RX (R399). A frame copy that fails the validity conditions is registered at the star and counted in the port's invalid-copy counters. -/
  | invalidCopyRx (p : Fin 12) (c : RxCopy)
  /-- ATTEST_DONE (R582). The attestation report is complete in SEC_BUF, SEC_RESULT.DONE is set and the BUSY condition of R563 ends. -/
  | attestDone
  /-- ENROL_CHECK_DONE (R570). Verification of the enrolment record completes; it is refused with its code, or accepted, which stores the roots and leads to OWNED. -/
  | enrolCheckDone
  /-- SELFTEST_ACCEPTED (R605). A self-test START is accepted within 100 µs of registration, and the suspension is scheduled at the next sample instant of the fastest group. -/
  | selftestAccepted
  /-- BRAKE_OPEN (R523). BRK_REL_T after a release command passes, and BRAKE_OPEN reads 1. -/
  | brakeOpen (t : Fin 8) (j : Fin 16)
  /-- FIELD_COMMAND_AT_HUB (R485). A mailbox-sourced output command from a tile is registered at the hub, for the next field exchange. -/
  | fieldCommandAtHub (m : Fin 4) (k : Fin 16)
  /-- ILLEGAL_INSTRUCTION (R340). The sequencer fetches a word whose opcode is not in the table, and it faults with ILLEGAL. -/
  | illegalInstruction (t : Fin 8)
  /-- FETCH_FAULT (R363). The program counter reaches or passes CODE_LEN, and the sequencer faults with FETCH. -/
  | fetchFault (t : Fin 8)
  /-- SUPPLY_RECOVERED (R596). A supply returns within its limits; the supply fault no longer persists, so enables are accepted again and the SUPPLY bits may be cleared. -/
  | supplyRecovered (s : Fin 9)
  /-- SUPPLY_SOURCE_CHANGE (R636). Mains or VAUX_DC is lost or returns without a power-fail warning, and MAINS_OK, VAUX_OK, SOURCE and the hold-up VALID bit change. -/
  | supplySourceChange (mains : Bool) (vaux : Bool)
  deriving DecidableEq, Repr

end Sys2Proof
end

