-- ==== Sys2Proof/Machine/Arith.lean ====
section
/-! DEFINITION. Exact arithmetic and its narrowing: truncation towards minus infinity (R1), saturation, dyadic numbers, byte order, counters that saturate. -/

namespace Sys2Proof.Machine

/-- `v * 2^k`, exact for `k ≥ 0`, truncated towards minus infinity for `k < 0` (R1, R125). -/
def shiftI (v k : Int) : Int :=
  if 0 ≤ k then v * (2 : Int) ^ k.toNat else v / (2 : Int) ^ (-k).toNat

/-- Truncation towards minus infinity of a quotient; 0 when the divisor is 0. -/
def floorDiv (n d : Int) : Int := if d < 0 then (-n) / (-d) else n / d

/-- Saturation to a signed number of `w` bits. -/
def satS (w : Nat) (v : Int) : Int :=
  let h := (2 : Int) ^ (w - 1)
  if v < -h then -h else if h ≤ v then h - 1 else v

/-- Saturation to an unsigned number of `w` bits. -/
def satU (w : Nat) (v : Int) : Int :=
  if v < 0 then 0 else if (2 : Int) ^ w ≤ v then (2 : Int) ^ w - 1 else v

/-- `sat32` of the manual's pseudocode. -/
def sat32 (v : Int) : Int := satS 32 v

/-- A signed 64-bit value that wraps (R2). -/
def wrap64 (v : Int) : DWord := BitVec.ofInt 64 v

/-- The signed 32-bit word that saturates. -/
def word32 (v : Int) : Word := BitVec.ofInt 32 (sat32 v)

/-- A two's-complement field of `w` bits read as a signed number. -/
def signed (w v : Nat) : Int := if v < 2 ^ (w - 1) then (v : Int) else (v : Int) - (2 : Int) ^ w

/-- `n + k`, saturating at `cap`: the saturating counters of the register maps. -/
def satAdd (cap n k : Nat) : Nat := min cap (n + k)

/-- Ceiling division of naturals. -/
def ceilDiv (n d : Nat) : Nat := (n + d - 1) / d

/-- A time truncated to its tick (R77). -/
def truncTick (t : Nat) : Nat := t - t % 10

/-- A time rounded up to a tick. -/
def ceilTick (t : Nat) : Nat := truncTick (t + 9)

/-- Bits [lo + w − 1 : lo] of a number. -/
def bits (v lo w : Nat) : Nat := v / 2 ^ lo % 2 ^ w

/-- Bit `i` of a number. -/
def bit (v i : Nat) : Bool := v / 2 ^ i % 2 = 1

/-- The weight of a flag in bit `i`. -/
def flag (p : Bool) (i : Nat) : Nat := if p then 2 ^ i else 0

/-- The number whose bit `i` is `f i`, for `i` below `n`. -/
def bitsOf (n : Nat) (f : Nat → Bool) : Nat := ((List.range n).map fun i => flag (f i) i).sum

/-- A little-endian number. -/
def leNat : List Byte → Nat
  | [] => 0
  | b :: r => b.toNat + 256 * leNat r

/-- The `n` bytes of a number, least significant first. -/
def leBytes : Nat → Nat → List Byte
  | 0, _ => []
  | n + 1, v => BitVec.ofNat 8 v :: leBytes n (v / 256)

/-- `n` bytes of a string from offset `o`; missing bytes read as 0. -/
def slice (bs : List Byte) (o n : Nat) : List Byte :=
  let s := (bs.drop o).take n
  s ++ List.replicate (n - s.length) 0

/-- The little-endian field of `n` bytes at offset `o`. -/
def leAt (bs : List Byte) (o n : Nat) : Nat := leNat (slice bs o n)

/-- One bit step of a reflected CRC with polynomial `poly`. -/
def crcBit (poly c : Nat) : Nat := if c % 2 = 1 then Nat.xor (c / 2) poly else c / 2

/-- One byte into a reflected CRC. -/
def crcByte (poly c : Nat) (b : Byte) : Nat :=
  (List.range 8).foldl (fun x _ => crcBit poly x) (Nat.xor c b.toNat)

/-- A reflected 32-bit CRC, initial value and final exclusive-or all ones. -/
def crcRefl (poly : Nat) (bs : List Byte) : Nat :=
  Nat.xor (bs.foldl (crcByte poly) 0xFFFFFFFF) 0xFFFFFFFF

/-- A dyadic number `m * 2^p`, exact. -/
structure Dy where
  m : Int := 0
  p : Int := 0
  deriving DecidableEq, Repr

/-- `x` in units of `2^p`, truncated towards minus infinity. -/
def dyFloor (x : Dy) (p : Int) : Int := shiftI x.m (x.p - p)

/-- The exact sum. -/
def dyAdd (x y : Dy) : Dy :=
  let p := min x.p y.p
  { m := shiftI x.m (x.p - p) + shiftI y.m (y.p - p), p := p }

/-- The exact difference. -/
def dySub (x y : Dy) : Dy := dyAdd x { y with m := -y.m }

/-- The exact product by a power of two. -/
def dyScale (x : Dy) (k : Int) : Dy := { x with p := x.p + k }

/-- The exact product. -/
def dyMul (x y : Dy) : Dy := { m := x.m * y.m, p := x.p + y.p }

/-- A Q48.16 position as an exact number. -/
def dyPos (v : DWord) : Dy := { m := v.toInt, p := -16 }

/-- A Q32.32 velocity as an exact number. -/
def dyVel (v : DWord) : Dy := { m := v.toInt, p := -32 }

/-- The integer square root, rounded down. -/
def isqrtAux : Nat → Nat → Nat → Nat
  | 0, _, r => r
  | n + 1, v, r =>
    let c := r + 2 ^ n
    if c * c ≤ v then isqrtAux n v c else isqrtAux n v r

/-- The largest `r` with `r * r ≤ v`. -/
def isqrt (v : Nat) : Nat := isqrtAux (Nat.log2 v / 2 + 1) v 0

end Sys2Proof.Machine
end

