-- ==== Sys2Proof/Machine/Tab.lean ====
section
/-! DEFINITION. Sparse tables: a list of (key, value) pairs with keys strictly rising and no value equal to what an unlisted key reads as. -/

namespace Sys2Proof.Machine

/-- A sparse table keyed by a unit number or an address. -/
abbrev Tab (α : Type) := List (Nat × α)

/-- The entry listed for a key, if any. -/
def tabFind {α : Type} : Tab α → Nat → Option α
  | [], _ => none
  | (k, v) :: r, i => if k = i then some v else tabFind r i

/-- The value at a key; an unlisted key reads as `d`. -/
def tabGet {α : Type} (d : α) (t : Tab α) (i : Nat) : α := (tabFind t i).getD d

/-- The table without an entry for `i`. -/
def tabErase {α : Type} (t : Tab α) (i : Nat) : Tab α := t.filter fun e => decide (e.1 ≠ i)

/-- The table with `v` listed at `i`, in key order. -/
def tabInsert {α : Type} : Tab α → Nat → α → Tab α
  | [], i, x => [(i, x)]
  | (k, v) :: r, i, x =>
    if i < k then (i, x) :: (k, v) :: r
    else if i = k then (i, x) :: r
    else (k, v) :: tabInsert r i x

/-- The table with `v` at `i`; a value equal to the default `d` takes no entry, so that equal tables are equal data. -/
def tabSet {α : Type} [DecidableEq α] (d : α) (t : Tab α) (i : Nat) (v : α) : Tab α :=
  if v = d then tabErase t i else tabInsert t i v

/-- The table with `f` applied to the value at `i`. -/
def tabUpd {α : Type} [DecidableEq α] (d : α) (t : Tab α) (i : Nat) (f : α → α) : Tab α :=
  tabSet d t i (f (tabGet d t i))

/-- Every key of the table lies above `i`. -/
def tabAbove {α : Type} (i : Nat) (t : Tab α) : Bool := t.all fun e => i < e.1

/-- The canonical form: keys strictly rising, no entry equal to the default. -/
def tabWf {α : Type} [DecidableEq α] (d : α) : Tab α → Bool
  | [] => true
  | (k, v) :: r => decide (v ≠ d) && tabAbove k r && tabWf d r

/-- Consecutive bytes read from a table of bytes. -/
def tabBytes (d : Byte) (t : Tab Byte) (a : Nat) : Nat → List Byte
  | 0 => []
  | n + 1 => tabGet d t a :: tabBytes d t (a + 1) n

/-- Consecutive entries written to a table. -/
def tabFill {α : Type} [DecidableEq α] (d : α) (t : Tab α) (a : Nat) : List α → Tab α
  | [] => t
  | x :: r => tabFill d (tabSet d t a x) (a + 1) r

/-- Entries at `lo` and above, below `hi`, removed: the range reads as the default. -/
def tabClear {α : Type} (t : Tab α) (lo hi : Nat) : Tab α := t.filter fun e => !(lo ≤ e.1 && e.1 < hi)

end Sys2Proof.Machine
end

