-- ==== Sys2Proof/Machine/AcqUnits.lean ====
section
/-! DEFINITION. The state of the acquisition units and of the hub's acquisition block (chapter 10). -/

namespace Sys2Proof.Machine

/-- Acquisition unit states (AQ_STATUS.STATE). -/
inductive AqSt where
  | idle | armed | triggered | rearming | stopping
  deriving DecidableEq, Repr

/-- A data block in the local buffer (R370, R371). -/
structure AqBlk where
  seq : Nat := 0
  row0 : Nat := 0
  tick0 : Nat := 0
  /-- acquisition instant of its last row -/
  lastAt : Nat := 0
  gap : Nat := 0
  /-- the rows, newest first, with their instants -/
  rows : List (Nat × List Word) := []
  part : Bool := false
  final : Bool := false
  /-- position of the trigger row in the block -/
  trig : Option Nat := none
  deriving DecidableEq, Repr

/-- A write that waits in the unit: a data block, or the descriptor with a STATE (R371, R379, R383, R385). -/
inductive AqWrite where
  | block (b : AqBlk)
  | desc (state : Nat)
  deriving DecidableEq, Repr

/-- The trigger of the record: tick, source, and when known the instant and stored index of the trigger row (R381, R382). -/
structure AqTrig where
  t : Nat := 0
  src : Nat := 0
  row : Option (Nat × Nat) := none
  pre : Nat := 0
  deriving DecidableEq, Repr

/-- The trigger sequencer (R375 to R377). -/
structure AqTs where
  st : Nat := 0
  cnt0 : Nat := 0
  cnt1 : Nat := 0
  /-- tick at which both timers started -/
  tmr : Nat := 0
  /-- timers whose expiry tick has been reached (bit i) -/
  expired : Nat := 0
  /-- events registered since the previous row: number, tick -/
  ev : List (Nat × Nat) := []
  deriving DecidableEq, Repr

/-- An acquisition unit (R365 to R388). -/
structure Aq where
  st : AqSt := .idle
  /-- state changes, newest first -/
  hist : List (Nat × AqSt) := []
  slot : Nat := 0
  /-- FULL bit of each slot -/
  full : Nat := 0
  fullFlag : Bool := false
  armRefused : Bool := false
  pendArm : Bool := false
  shortPre : Bool := false
  missed : Nat := 0
  gaps : Nat := 0
  gapRows : Nat := 0
  /-- registers latched at the arm tick, by offset (R374) -/
  lat : Tab Word := []
  armAt : Nat := 0
  /-- sample instants of GRP since row 0 of the arm -/
  smp : Nat := 0
  lastAt : Option Nat := none
  /-- index of the next row since the arm or re-arm, lost rows counted; rows stored -/
  row : Nat := 0
  stored : Nat := 0
  prev : List Word := []
  prevOk : Bool := false
  prevAt : Nat := 0
  /-- rows lost since the last stored row -/
  lost : Nat := 0
  fill : Option AqBlk := none
  q : List AqWrite := []
  /-- number of the next data block of the record -/
  seq : Nat := 0
  /-- block number, stored index of the first row and gap record of each block, newest first -/
  idx : List (Nat × Nat × Nat) := []
  trig : Option AqTrig := none
  /-- TRIG of the current or last record -/
  trigTick : Nat := 0
  sc : Nat := 0
  ts : AqTs := {}
  deriving DecidableEq, Repr

/-- The hub's acquisition block (R378 to R381, AQ_HUB_). -/
structure AqHub where
  set : Nat := 0
  refused : Nat := 0
  due : Option (Nat × Nat) := none
  held : Option (Nat × Nat) := none
  last : Option Nat := none
  src : Nat := 0
  count : Nat := 0
  /-- firings on their way to the hub: tick, source -/
  fires : List (Nat × Nat) := []
  /-- set triggers on their way to a tile: tile, tick, source -/
  trigs : List (Nat × Nat × Nat) := []
  deriving DecidableEq, Repr

end Sys2Proof.Machine
end

