-- ==== Sys2Proof/Machine/BlUnits.lean ====
section
/-! DEFINITION. The state of the Berath network: schedule tables, ports, networked bindings (chapter 11, and the port keys of chapter 15). -/

namespace Sys2Proof.Machine

/-- A window entry (R407). -/
structure BlWin where
  port : Nat := 0
  up : Bool := false
  kind : Nat := 0
  bind : Nat := 0
  ofs : Nat := 0
  len : Nat := 0
  ftype : Nat := 0
  maxlen : Nat := 0
  mask : Nat := 0
  /-- unnamed bits that are not 0 -/
  junk : Bool := false
  deriving DecidableEq, Repr

/-- A schedule table (R406); `valid` false: no table is loaded. -/
structure BlTable where
  valid : Bool := false
  cycle : Nat := 0
  matrix : Nat := 0
  guard : Nat := 0
  wins : List BlWin := []
  deriving DecidableEq, Repr

/-- Port states (BL_PORT_STATE.STATE, R433). -/
inductive BlSt where
  | off | listen | integrating | run | blocked | stopping
  deriving DecidableEq, Repr

/-- What the star has seen of one window occurrence of a port (R399, R422, R423). -/
structure BlOcc where
  win : Nat := 0
  cyc : Nat := 0
  /-- frames started on channel A and on channel B -/
  startA : Nat := 0
  startB : Nat := 0
  /-- valid copies: frame index, channel B?, payload -/
  got : List (Nat × Bool × List Byte) := []
  /-- drive records seen (R430), one bit per drive -/
  drives : Nat := 0
  deriving DecidableEq, Repr

/-- A key of a sealed port and its exchange (R578 to R581, SEC_PORT_KEY). -/
structure BlKey where
  ok : Bool := false
  key : List Byte := []
  keyId : Nat := 0
  /-- exchange in progress: OFFER sent (1), CONFIRM sent (2) -/
  kex : Nat := 0
  nonce : List Byte := []
  /-- bytes 0x00 to 0x77 of the OFFER; draw of its ephemeral key -/
  offer : List Byte := []
  eph : Nat := 0
  offerAt : Nat := 0
  /-- next key and the matrix at whose start it takes effect -/
  next : List Byte := []
  nextId : Nat := 0
  activate : Option Nat := none
  fail : Nat := 0
  /-- matrices in RUN since the key took effect -/
  used : Nat := 0
  deriving DecidableEq, Repr

/-- Start-offset and drift statistics (R414, R415). -/
structure BlOfs where
  last : Int := 0
  maxAbs : Nat := 0
  cycMax : Option Nat := none
  overRun : Nat := 0
  underRun : Nat := 0
  drift : Bool := false
  sum : Int := 0
  cnt : Nat := 0
  mean : Int := 0
  /-- start of the last matrix that had measurements -/
  meanAt : Option Nat := none
  ppb : Int := 0
  deriving DecidableEq, Repr

/-- One port of the star (R389 to R446). -/
structure BlPort where
  st : BlSt := .off
  /-- the state that a disable in progress left -/
  stopFrom : BlSt := .off
  upA : Bool := false
  upB : Bool := false
  /-- levels of the signal-detect lands; an undriven one is pulled down (R664); ticks in a row at which each was inactive, counted to 100 -/
  sdA : Bool := false
  sdB : Bool := false
  sdOffA : Nat := 0
  sdOffB : Nat := 0
  enRefused : Bool := false
  enPending : Bool := false
  enable : Bool := false
  /-- tick at which a DISABLE was registered; whether LEAVE has been sent -/
  disAt : Nat := 0
  left : Bool := false
  /-- the port may enter RUN at the first matrix start after it entered INTEGRATING at this tick (R435) -/
  intAt : Nat := 0
  runAt : Option Nat := none
  /-- a SOF was stamped in the present matrix; the port was BLOCKED for the whole of it (R417) -/
  sofSeen : Bool := false
  quiet : Bool := false
  mack : Bool := false
  /-- SOF stamp of a frame still arriving on channel A, on channel B -/
  busyA : Option Nat := none
  busyB : Option Nat := none
  occs : List BlOcc := []
  clipM : Nat := 0
  errA : Nat := 0
  errB : Nat := 0
  blockedN : Nat := 0
  clipped : Nat := 0
  diff : Nat := 0
  single : Nat := 0
  authFail : Nat := 0
  fwdDrop : Nat := 0
  spDrop : Nat := 0
  joinRefused : Nat := 0
  rxDrop : Nat := 0
  ofs : BlOfs := {}
  rxid : DWord := 0
  /-- queued for arbitrating DOWN windows: JOIN_ACK, KEY payloads, forwarded frames (source, destination, payload), host frames (FWD, destination, payload) -/
  joinAck : Option (Nat × Nat) := none
  keyq : List (List Byte) := []
  fwdq : List (Nat × Nat × List Byte) := []
  hostq : List (Bool × Nat × List Byte) := []
  /-- received frames for the star: header and payload -/
  rxq : List (List Byte) := []
  /-- the frames of the last window, with the tick of the first bit of each -/
  tx : List (Nat × List Byte) := []
  key : BlKey := {}
  deriving DecidableEq, Repr

/-- Network states (BL_NET_STATUS.STATE). -/
inductive NetSt where
  | stopped | listen | run
  deriving DecidableEq, Repr

/-- A STARTUP frame that waits for its decision tick (R436). -/
structure BlQs where
  port : Nat := 0
  stamp : Nat := 0
  frame : List Byte := []
  deriving DecidableEq, Repr

/-- The network (R405 to R445). -/
structure BlNet where
  st : NetSt := .stopped
  tables : Tab BlTable := []
  /-- mode in force -/
  mode : Nat := 0
  /-- announced mode and its apply tick (R442) -/
  next : Option (Nat × Nat) := none
  anchor : Nat := 0
  /-- value of the matrix counter at the anchor -/
  ctr0 : Nat := 0
  /-- first matrix or cycle start that the star serves -/
  from_ : Nat := 0
  qs : Option BlQs := none
  qsPort : Nat := 0
  qsExpired : Bool := false
  qsMismatch : Bool := false
  qsDone : Bool := false
  /-- tick of boot step 8 -/
  bootAt : Nat := 0
  deriving DecidableEq, Repr

/-- A SETPOINT record as sent (R401). -/
structure NxRec where
  apply : Nat := 0
  value : DWord := 0
  ctrl : Nat := 0
  deriving DecidableEq, Repr

/-- A feedback record on its way to its tile: t_f, position, speed, status (R323); the tick at which the hub relayed it. -/
structure NxRelay where
  tf : Nat := 0
  pos : DWord := 0
  vel : DWord := 0
  status : Nat := 0
  at_ : Nat := 0
  deriving DecidableEq, Repr

/-- The hub's side of a networked slot (R425 to R430, BL_NX_STAT). -/
structure BlNx where
  last : NxRec := {}
  /-- set-points registered at the hub and not yet sent: tick of registration, record -/
  newer : List (Nat × NxRec) := []
  /-- set-points on their way to the hub: tick of issue, record -/
  fly : List (Nat × NxRec) := []
  lost : Bool := true
  misses : Nat := 0
  /-- feedback records on their way to the tile -/
  relay : List NxRelay := []
  deriving DecidableEq, Repr

end Sys2Proof.Machine
end

