-- ==== Sys2Proof/Machine/FieldUnits.lean ====
section
/-! DEFINITION. The state of the field pairs and their channels (chapter 13). -/

namespace Sys2Proof.Machine

/-- A field channel at its field half (R470 to R482, R500). -/
structure FCh where
  /-- level at the pin, as its input stage reads it -/
  pin : Bool := false
  acc : Bool := false
  valid : Bool := false
  runLv : Bool := false
  run : Nat := 0
  /-- the switch -/
  sw : Bool := false
  /-- the command that the switch follows -/
  cmd : Bool := false
  /-- switched off under R482 until the bit is cleared -/
  off : Bool := false
  /-- junction at or above the level at which OVERTEMP may clear; load current below the open-load limit; still in current limit -/
  hot : Bool := false
  lowCur : Bool := false
  limit : Bool := false
  dark : Bool := false
  xshort : Bool := false
  openLoad : Bool := false
  overtemp : Bool := false
  overload : Bool := false
  readback : Bool := false
  /-- tick of its last sample -/
  smpAt : Option Nat := none
  /-- ticks since which the conditions of OVERLOAD, OPEN_LOAD and READBACK have held -/
  limAt : Option Nat := none
  lowAt : Option Nat := none
  diffAt : Option Nat := none
  /-- configuration and parameters taken by the field half (R107, R472) -/
  cfg : Word := 0
  par : Word := 1
  deriving DecidableEq, Repr

/-- A frame from the field half (R489). -/
structure FIn where
  level : Nat := 0
  valid : Nat := 0
  sw : Nat := 0
  diag : List Nat := []
  lpLow : Bool := false
  transferLow : Bool := false
  headroom : Nat := 255
  deriving DecidableEq, Repr

/-- A frame to the field half (R490). -/
structure FOut where
  brake : Nat := 0
  sAlive : Nat := 0
  cmd : Nat := 0
  alive : Nat := 0
  release : Bool := false
  /-- RE_ARM of the safety section (R525) -/
  reArm : Bool := false
  cfgs : List Word := []
  pars : List Word := []
  deriving DecidableEq, Repr

/-- A mailbox-sourced channel command on its way to the hub (R485): channel, level, its tile, its tick. -/
structure FCmd where
  ch : Nat := 0
  level : Bool := false
  tile : Nat := 0
  at_ : Nat := 0
  deriving DecidableEq, Repr

/-- One field pair (R465 to R502). -/
structure FPair where
  /-- condition of the pair's field supply and transfer at the field half -/
  lpLow : Bool := false
  transferLow : Bool := false
  /-- transfer headroom in % (R594) -/
  headroom : Nat := 255
  failed : Bool := false
  /-- what the logic half has registered -/
  regLp : Bool := false
  regTransfer : Bool := false
  level : Nat := 0
  valid : Nat := 0
  inForce : Nat := 0
  diag : List Nat := []
  regAt : Nat := 0
  levelPrev : Nat := 0
  linkLost : Bool := false
  missRow : Nat := 0
  /-- a valid frame was registered in the present exchange -/
  got : Bool := false
  crcErr : Nat := 0
  missed : Nat := 0
  /-- MISSED before the check of the present exchange -/
  missedWas : Nat := 0
  fin : Option FIn := none
  fout : Option FOut := none
  /-- functional alive count of the pair; owners that have advanced since its last advance -/
  alive : Nat := 0
  ownA : Bool := false
  ownB : Bool := false
  sAlive : Nat := 0
  /-- at the field half: count of the last refresh and its registration tick; none before the first refresh -/
  refAlive : Nat := 0
  refAt : Option Nat := none
  wdExpired : Bool := false
  relPend : Bool := false
  relRefused : Bool := false
  sRef : Nat := 0
  sAt : Option Nat := none
  swdExpired : Bool := false
  /-- host commands and mailbox commands held at the hub -/
  host : Nat := 0
  mbx : Nat := 0
  /-- mailbox commands on their way -/
  fly : List FCmd := []
  ch : Vector FCh 16 := Vector.replicate 16 {}
  deriving DecidableEq, Repr

end Sys2Proof.Machine
end

