-- ==== Sys2Proof/Machine/SeqUnits.lean ====
section
/-! DEFINITION. The state of a tile sequencer and its mailboxes (chapter 09, R334, R348, R353 to R358). -/

namespace Sys2Proof.Machine

/-- Sequencer states (SQ_STATUS.STATE). -/
inductive SqSt where
  | halted | running | waiting | fault
  deriving DecidableEq, Repr

/-- Fault causes (SQ_STATUS.FAULT_CAUSE, R363). -/
inductive SqFault where
  | illegal | repBody | stack | codeWrite | fetch | brev
  deriving DecidableEq, Repr

/-- A transfer channel (R358, R359, SQ_XFER_STAT). -/
structure Xfer where
  busy : Bool := false
  err : Nat := 0
  len : Nat := 0
  loc : Nat := 0
  part : Nat := 0
  tile : Nat := 0
  dir : Nat := 0
  ofs : Nat := 0
  /-- tick of its start -/
  at_ : Nat := 0
  deriving DecidableEq, Repr

/-- The sixteen mailboxes of a tile (R353 to R357). -/
structure Mbx where
  inW : Vector Word 16 := Vector.replicate 16 0
  pendW : Vector Word 16 := Vector.replicate 16 0
  outW : Vector Word 16 := Vector.replicate 16 0
  /-- the OUT words before the posts of tick `postAt` -/
  outPrev : Vector Word 16 := Vector.replicate 16 0
  postAt : Nat := 0
  /-- registration tick of the last post of each mailbox since boot or the last R357 -/
  posted : Tab Nat := []
  stale : BitVec 16 := 0
  deriving DecidableEq, Repr

/-- The registers of R334. -/
structure SqRegs where
  d : Vector Word 16 := Vector.replicate 16 0
  /-- accumulators in units of 2^−62, within 80 bits -/
  acc : Vector (BitVec 80) 4 := Vector.replicate 4 0
  a : Vector (BitVec 16) 16 := Vector.replicate 16 0
  o : Vector (BitVec 16) 16 := Vector.replicate 16 0
  rb : Vector (BitVec 16) 8 := Vector.replicate 8 0
  rl : Vector (BitVec 16) 8 := Vector.replicate 8 0
  bnd : Vector (BitVec 4) 16 := Vector.replicate 16 0
  bexp : BitVec 16 := 0
  bdet : BitVec 5 := 31
  bsh : BitVec 2 := 0
  mx : Word := 0
  mxi : BitVec 16 := 0
  z : Bool := false
  n : Bool := false
  v : Bool := false
  ie : Bool := false
  even : BitVec 16 := 0
  pc : BitVec 16 := 0
  epc : BitVec 16 := 0
  stack : List (BitVec 16) := []
  deriving DecidableEq, Repr

/-- A tile sequencer (R329 to R364). -/
structure Seq where
  st : SqSt := .halted
  r : SqRegs := {}
  /-- iterations of the repeated instruction still to run; whether one has run (R347) -/
  rep : Nat := 0
  repRan : Bool := false
  waitMask : BitVec 16 := 0
  /-- dispatches not yet returned from -/
  depth : Nat := 0
  /-- SQ_CTRL.HALT waits for the next instruction boundary -/
  haltReq : Bool := false
  faultPc : BitVec 16 := 0
  cause : Option SqFault := none
  evtLost : Bool := false
  sat : Bool := false
  /-- event flags that are set, with the tick of the cause -/
  ev : Tab Nat := []
  dbell : Word := 0
  dispMax : Nat := 0
  ch : Vector Xfer 4 := Vector.replicate 4 {}
  mb : Mbx := {}
  /-- local memory, by word address -/
  mem : Tab Word := []
  deriving DecidableEq, Repr

end Sys2Proof.Machine
end

