-- ==== Sys2Proof/Machine/TimeUnits.lean ====
section
/-! DEFINITION. The state of network time, of the timed event units and of PTP (chapter 12). -/

namespace Sys2Proof.Machine

/-- A timed event unit (R456 to R460). Times are in ns of the base. -/
structure Te where
  net : Bool := false
  mode : Nat := 0
  act : Nat := 0
  land_ : Nat := 0
  tile : Nat := 0
  cmp : Nat := 0
  t : Nat := 0
  per : Nat := 100
  width : Nat := 10
  /-- tick of an ARM that takes effect at the next tick -/
  arming : Option Nat := none
  armed : Bool := false
  next : Nat := 0
  fires : Nat := 0
  skipped : Nat := 0
  span : Bool := false
  overlap : Bool := false
  stepped : Bool := false
  late : Bool := false
  lat : Nat := 0
  nt : Nat := 0
  epoch : Nat := 0
  unread : Bool := false
  deriving DecidableEq, Repr

/-- A timed event land: active?, and the tick at which a pulse ends. -/
structure Teo where
  active : Bool := false
  pulseEnd : Option Nat := none
  deriving DecidableEq, Repr

/-- Network time and its stamps (R448 to R454). -/
structure Nt where
  /-- network time in units of 2^−40 ns -/
  now : Nat := 0
  epoch : Nat := 0
  /-- STEP and CAPTURE registered at a tick, in effect at the next -/
  steps : List (Nat × Int) := []
  cap : Option Nat := none
  stepErr : Bool := false
  capDone : Bool := false
  capLat : Nat := 0
  capNt : Nat := 0
  capEpoch : Nat := 0
  stepTick : Nat := 0
  stepAmt : Int := 0
  /-- compare firings on their way to CAPTURE units: unit, timestamp -/
  fly : List (Nat × Nat) := []
  deriving DecidableEq, Repr

/-- A transmit entry: frame and its requests (R463). -/
structure PtpTx where
  frame : List Byte := []
  tsReq : Bool := false
  oneStep : Bool := false
  deriving DecidableEq, Repr

/-- An entry of the timestamp FIFO (R463). -/
structure PtpTs where
  seq : Nat := 0
  type : Nat := 0
  domain : Nat := 0
  nt : Nat := 0
  epoch : Nat := 0
  deriving DecidableEq, Repr

/-- PTP on one host MAC (R461 to R463). -/
structure Ptp where
  /-- receive records, oldest first, as bytes -/
  rx : List (List Byte) := []
  ts : List PtpTs := []
  txq : List PtpTx := []
  rxOvf : Bool := false
  txOvf : Bool := false
  oneErr : Bool := false
  /-- the last frame sent on the wire -/
  sent : List Byte := []
  deriving DecidableEq, Repr

/-- Stamps of a Berath port (R464). -/
structure BlStamp where
  rxNt : Nat := 0
  rxEpoch : Nat := 0
  msLat : Nat := 0
  msNt : Nat := 0
  msEpoch : Nat := 0
  deriving DecidableEq, Repr

end Sys2Proof.Machine
end

