-- ==== Sys2Proof/Machine/Units.lean ====
section
/-! DEFINITION. The state of the units of a tile (chapters 02 and 04 to 10): one record per unit, each with its state after boot as default. -/

namespace Sys2Proof.Machine

/-- A time-stamped set-point (R78). -/
structure SpEntry where
  at_ : Nat := 0
  val : Int := 0
  deriving DecidableEq, Repr

/-- A set-point on its way to an input (R24, R28): tile × 32 + input, apply time, value; its source, whether it travels as class 5, its tick of issue. -/
structure SpFly where
  dst : Nat := 0
  apply : Nat := 0
  val : Int := 0
  src : Nat := 0
  cls5 : Bool := false
  at_ : Nat := 0
  deriving DecidableEq, Repr

/-- A late set-point and the tick at which it would take effect (R79). -/
structure SpLate where
  tick : Nat := 0
  sp : SpEntry := {}
  deriving DecidableEq, Repr

/-- One set-point input of a tile (R77 to R82, TL_SP_STATUSn). -/
structure SpIn where
  /-- set-points that have taken effect, counted to 2 -/
  cnt : Nat := 0
  /-- the set-point in force -/
  cur : SpEntry := {}
  /-- the one before it -/
  prev : SpEntry := {}
  /-- received set-points whose apply time has not come, earliest first -/
  queue : List SpEntry := []
  late : List SpLate := []
  extrapolating : Bool := false
  overrun : Bool := false
  lateFault : Bool := false
  /-- the fault has been signalled for the set-point in force -/
  signalled : Bool := false
  lateArrival : Nat := 0
  stale : Nat := 0
  deriving DecidableEq, Repr

/-- One section of the pool: its block of states (R124 to R130). `s1y` is held as Q1.63; a section without WIDE keeps its low half 0. -/
structure Sec where
  s1x : Word := 0
  s2x : Word := 0
  s1y : DWord := 0
  s2y : Word := 0
  e : Int := -32
  sat : Bool := false
  deriving DecidableEq, Repr

/-- One loop context (R135 to R143, R162 to R170; CE_LOOP_STATUS, OUTVAL, ERR). -/
structure Ctx where
  /-- the word applied at the latest apply instant of its group -/
  out : Word := 0
  errM : Word := 0
  errE : Int := -32
  limited : Bool := false
  limSeen : Bool := false
  sat : Bool := false
  ramping : Bool := false
  /-- the owning axis was enabled and frame k = 0 of the ramp has not been evaluated -/
  rampArmed : Bool := false
  /-- the ramp value, 32 fraction bits -/
  rr : Int := 0
  blending : Bool := false
  rem : Int := 0
  blendN : Nat := 0
  blendK : Nat := 0
  /-- the coefficients and scales of the registers that the last completed frame used -/
  usedRegs : List Int := []
  deriving DecidableEq, Repr

/-- The content of a gain-schedule bank (R155). -/
structure SchedBank where
  regions : Nat := 0
  sections : Nat := 0
  bounds : List Int := []
  coefs : List Int := []
  deriving DecidableEq, Repr

/-- The shadow bank of a two-bank table (R152, R157). -/
inductive Shadow where
  | empty | fetching | sealed
  deriving DecidableEq, Repr

/-- One gain schedule of a tile (R144 to R161). -/
structure Sched where
  /-- the active bank, if one is valid -/
  active : Option Nat := none
  bank : SchedBank := {}
  shadow : Shadow := .empty
  shadowBank : SchedBank := {}
  sealedAt : Nat := 0
  swaps : Nat := 0
  sealErr : Bool := false
  reselect : Option Nat := none
  region : Nat := 0
  /-- false: the next frame fixes the region without hysteresis (R147) -/
  regionKnown : Bool := false
  /-- frame number of a running transition; 0: none -/
  k : Nat := 0
  cOld : List Int := []
  /-- the coefficients supplied to the last completed frame -/
  used : List Int := []
  v : Int := 0
  deriving DecidableEq, Repr

/-- A request for a control mode and the earliest sample instant that takes it (R164). -/
structure ModeReq where
  mode : Nat := 0
  from_ : Nat := 0
  armed : Bool := false
  deriving DecidableEq, Repr

/-- The mode registers of a slot (CE_MODE; R162 to R169). -/
structure ModeS where
  active : Nat := 0
  req : Option ModeReq := none
  modeErr : Bool := false
  modeField : Nat := 0
  deriving DecidableEq, Repr

/-- The states of a native axis (AX_STATE.STATE). -/
inductive AxSt where
  | disabled | precharge | enabled | disabling | aligning | faultHold | sto
  deriving DecidableEq, Repr

/-- What the six PWM lands of a native axis do (R199, R200). -/
inductive PwmMode where
  | off | lowOn | switching
  deriving DecidableEq, Repr

/-- The three sigma-delta inputs of a native slot: the pin levels and the sampled bits, newest first (R172 to R175, R180). -/
structure SdIn where
  pin : Bool := false
  hist : List Bool := []
  deriving DecidableEq, Repr

/-- Trips of a native axis (AX_TRIP, R203 to R205). -/
structure Trips where
  df : Bool := false
  oc : Bool := false
  sum : Bool := false
  sdStuck : Bool := false
  dfLevel : Bool := false
  /-- level of the nDF land; an undriven one is pulled up (R665) -/
  ndf : Bool := true
  /-- consecutive ticks at which nDF has been active -/
  dfRun : Nat := 0
  /-- largest phase-current magnitude at the latest evaluation of the fast filter (R181) -/
  ocMag : Nat := 0
  /-- the current sum of the latest completed frame (R179) -/
  sum_ : Int := 0
  /-- consecutive frames whose current sum exceeded SUM_LIM -/
  sumRun : Nat := 0
  deriving DecidableEq, Repr

/-- Measurements and duties of a native axis (AX_MEAS_, AX_DUTYk, R187). -/
structure NatMeas where
  id : Word := 0
  iq : Word := 0
  angle : Word := 0
  vbus : Word := 0
  vbusLow : Bool := false
  vlimited : Bool := false
  /-- duties loaded at an apply instant and the tick of the load -/
  loaded : List Nat := [0, 0, 0]
  loadedAt : Nat := 0
  /-- duties in force; the high-side half-widths of the half period before the latest update point, 250 ps units -/
  duty : List Nat := [0, 0, 0]
  hPrev : List Nat := [0, 0, 0]
  /-- dead time and minimum pulse in force, 250 ps units -/
  dt : Nat := 0
  minPulse : Nat := 0
  deriving DecidableEq, Repr

/-- Stepper state of a NATIVE_STEPPER axis (R210 to R213). -/
structure StepperS where
  level : Nat := 0
  /-- target level, in force until the rule sets it again (R213) -/
  target : Nat := 0
  p : Int := 0
  q : Int := 0
  lastMove : Nat := 0
  holding : Bool := false
  deriving DecidableEq, Repr

/-- One native axis slot (chapter 05). -/
structure NatAx where
  st : AxSt := .disabled
  enRefused : Bool := false
  enPending : Bool := false
  /-- the held enable was an ALIGN -/
  pendAlign : Bool := false
  /-- an accepted enable or ALIGN that waits for its sample instant t_e: tick of registration, and whether it is an ALIGN -/
  wait : Option (Nat × Bool) := none
  te : Nat := 0
  /-- the tile enables gate-enable (R43) -/
  gate : Bool := false
  pwm : PwmMode := .off
  trips : Trips := {}
  sd0 : SdIn := {}
  sd1 : SdIn := {}
  sd2 : SdIn := {}
  meas : NatMeas := {}
  aligned : Bool := false
  alignRes : Word := 0
  edgeCoarse : Bool := false
  lastCal : Nat := 0
  /-- the references applied to the slot's d and q destinations -/
  dref : Word := 0
  qref : Word := 0
  /-- references held (R201, R207) -/
  hold : Option (Word × Word) := none
  /-- a disable or fault reaction began while the axis was ALIGNING: angle and references stay those of R202 -/
  fromAlign : Bool := false
  /-- registration tick of the disable in progress -/
  disAt : Nat := 0
  /-- the disable waits for the brake (R201, DIS_MODE 1); then the tick at which the hold ends -/
  brakeWait : Bool := false
  brakeEnd : Option Nat := none
  step : StepperS := {}
  deriving DecidableEq, Repr

/-- One registered count of a channel: its timestamp and the counts that result from it (R220, R221). -/
structure QdRec where
  ts : Nat := 0
  raw : Int := 0
  h : Int := 0
  /-- the counts before it -/
  raw0 : Int := 0
  h0 : Int := 0
  deriving DecidableEq, Repr

/-- A change of POS_OFS that waits for its sample instant (R223, R227). -/
inductive QdPend where
  /-- SET_POS registered at a tick, with the REFVAL read at the write -/
  | setPos (at_ : Nat) (ref : DWord)
  /-- an index reference registered at a tick: its timestamp, the h recorded and the REFVAL -/
  | index (at_ : Nat) (ts : Nat) (h : Int) (ref : DWord)
  deriving DecidableEq, Repr

/-- Fault bits of a quadrature channel (QD_FAULT, R234 to R239). -/
structure QdFault where
  illegal : Bool := false
  rx : Bool := false
  freeze : Bool := false
  rxLevel : Bool := false
  /-- level of the nQRF land; an undriven one is pulled up (R665) -/
  nqrf : Bool := true
  rxRun : Nat := 0
  illTotal : Nat := 0
  illLeaky : Nat := 0
  /-- tick of the last decrease of ILL_LEAKY -/
  leakAt : Nat := 0
  deriving DecidableEq, Repr

/-- Freeze prediction of a channel (R236). -/
structure QdFreeze where
  vp : Int := 0
  xp : Int := 0
  t0 : Nat := 0
  hPrev : Int := 0
  deriving DecidableEq, Repr

/-- Fallback of a channel (R240 to R245). -/
structure QdFallback where
  on : Bool := false
  /-- tick at which the fault that leads to fallback was registered -/
  due : Option Nat := none
  posLast : DWord := 0
  posF0 : DWord := 0
  /-- the sample instant s_f at which the channel went on fallback -/
  start : Nat := 0
  deriving DecidableEq, Repr

/-- The hold filter of one input land (R216). -/
structure HoldIn where
  /-- changes of the land that are not yet accepted or ignored, oldest first: time in ns and new level -/
  edges : List (Nat × Bool) := []
  /-- timestamp of the last accepted change -/
  acc : Option Nat := none
  deriving DecidableEq, Repr

/-- One quadrature channel of a tile (chapter 06). -/
structure Qd where
  inA : HoldIn := {}
  inB : HoldIn := {}
  inZ : HoldIn := {}
  a : Bool := false
  b : Bool := false
  z : Bool := false
  raw : Int := 0
  h : Int := 0
  /-- direction state d: 0, +1 or −1 -/
  d : Int := 0
  posOfs : DWord := 0
  /-- timestamps of the position counts of the run, newest first, and the direction of the run -/
  run : List Nat := []
  runDir : Int := 0
  /-- recent counts, newest first, for probes and index events -/
  recent : List QdRec := []
  /-- registration tick of the latest count, and h before the counts of that tick -/
  lastReg : Nat := 0
  hPre : Int := 0
  standstill : Bool := true
  /-- values latched at the last sample instant: position, speed, h, raw Q48.16 position -/
  posL : DWord := 0
  spdL : DWord := 0
  hL : Int := 0
  rawL : DWord := 0
  /-- what sources read: the latched values, or the substitutes of R240 -/
  posSrc : DWord := 0
  spdSrc : DWord := 0
  pend : Option QdPend := none
  /-- IDX_ARM registered at a tick, with its REFVAL -/
  armed : Option (Nat × DWord) := none
  idxSeen : Bool := false
  idxTs : Nat := 0
  idxPos : DWord := 0
  idxH : Int := 0
  flt : QdFault := {}
  frz : QdFreeze := {}
  fb : QdFallback := {}
  deriving DecidableEq, Repr

/-- One entry of a probe FIFO (R232). -/
structure PrbEntry where
  ts : Nat := 0
  pos : DWord := 0
  raw : Int := 0
  rising : Bool := false
  deriving DecidableEq, Repr

/-- One probe input (R231 to R233). -/
structure Prb where
  fifo : List PrbEntry := []
  inp : HoldIn := {}
  /-- level of the last accepted change and its timestamp; the positions at that timestamp of channels 0 to 7 and of pulse axes 0 to 3 (R289) -/
  level : Bool := false
  lastTs : Nat := 0
  at_ : Vector DWord 12 := Vector.replicate 12 0
  lost : Nat := 0
  ovf : Bool := false
  deriving DecidableEq, Repr

/-- A profile segment record (R251). -/
structure PgSeg where
  dur : Nat := 1
  brk : Bool := false
  fin : Bool := false
  p1 : DWord := 0
  v1 : DWord := 0
  deriving DecidableEq, Repr

/-- The header of a profile bank and the records buffered of it (R250, R258). -/
structure PgBank where
  count : Nat := 0
  rel : Bool := false
  /-- records buffered and not yet taken, in order -/
  buf : List PgSeg := []
  /-- index of the next record to request -/
  next : Nat := 0
  deriving DecidableEq, Repr

/-- A motion under constant acceleration to a target velocity (R266, R288). -/
structure Law where
  s0 : Nat := 0
  p0 : DWord := 0
  v0 : DWord := 0
  vt : DWord := 0
  acc : Nat := 1
  deriving DecidableEq, Repr

/-- Generator states (PG_STATE.STATE, R248). -/
inductive PgSt where
  | idle | running | stopping | homing
  deriving DecidableEq, Repr

/-- Homing states (PG_STATE.HOME_STATE, R288). -/
inductive HomeSt where
  | off | search | searchRev | backoff | creep | index | settle
  deriving DecidableEq, Repr

/-- Homing results (PG_STATE.HOME_RESULT, R293). -/
inductive HomeRes where
  | none | done | limit | limitBoth | timeout | aborted | noIndex | refused | fault
  deriving DecidableEq, Repr

/-- Homing of a slot (R282 to R293). -/
structure Homing where
  st : HomeSt := .off
  res : HomeRes := .none
  homed : Bool := false
  start : Nat := 0
  /-- the home input was active in SEARCH_REV; its level at the previous sample instant -/
  seen : Bool := false
  prev : Bool := false
  /-- POS_SRC position at entry of INDEX -/
  xEntry : DWord := 0
  /-- registration tick of the reference and the offset Δ that waits; whether the channel takes it through R227 -/
  ref : Option (Nat × DWord × Bool) := none
  /-- POS_SRC 0x00: the slot's homing offset (R291) -/
  ofs : DWord := 0
  limPos : Bool := false
  limNeg : Bool := false
  xPos : DWord := 0
  xNeg : DWord := 0
  deriving DecidableEq, Repr

/-- A homing in progress ends with a result (R293). -/
def homeEnd (r : HomeRes) (h : Homing) : Homing := if h.st = .off then h else { h with st := .off, res := r }

/-- Requests that a generator acts on at its next sample instant: the tick of each registration. -/
structure PgReq where
  start : Option Nat := none
  startPending : Bool := false
  home : Option Nat := none
  /-- ramped stop: tick, deceleration; `starve`: its only cause is starvation, which a limit stop outranks (R272) -/
  stop : Option (Nat × Nat) := none
  starve : Bool := false
  /-- disable or fault reaction of a servo axis (R268) -/
  down : Option Nat := none
  /-- an immediate stop took effect: the generator takes this position and idles (R269) -/
  toX : Option DWord := none
  deriving DecidableEq, Repr

/-- Event flags of a generator (PG_EVENT, PG_BANK, PG_STATE). -/
structure PgFlags where
  starved : Bool := false
  prefetchLate : Bool := false
  hostStop : Bool := false
  limitStop : Bool := false
  faultStop : Bool := false
  startRefused : Bool := false
  absSkipped : Bool := false
  sealErr : Bool := false
  errCode : Nat := 0
  deriving DecidableEq, Repr

/-- The record a generator runs (R253): times in units of 2^−32 tick. -/
structure PgRun where
  tau : Nat := 0
  tau0 : Nat := 0
  p0 : DWord := 0
  v0 : DWord := 0
  seg : PgSeg := {}
  idx : Nat := 0
  /-- REL: what P1 is relative to -/
  base : DWord := 0
  /-- the last record has ended with no successor (R263, R259) -/
  past : Bool := false
  deriving DecidableEq, Repr

/-- One profile generator (R246 to R268). -/
structure Gen where
  st : PgSt := .idle
  /-- the position has been taken from POS_SRC at the first sample instant (R248) -/
  ready : Bool := false
  pos : DWord := 0
  vel : DWord := 0
  run : PgRun := {}
  law : Law := {}
  active : Option Nat := none
  bank : PgBank := {}
  shadow : Shadow := .empty
  shadowBank : PgBank := {}
  sealedAt : Nat := 0
  swaps : Nat := 0
  uncertain : Bool := false
  req : PgReq := {}
  fl : PgFlags := {}
  hm : Homing := {}
  /-- records requested and not yet arrived (R258) -/
  fetch : Nat := 0
  /-- tick of the request -/
  fetchAt : Nat := 0
  deriving DecidableEq, Repr

/-- A held pulse: its counts with sign, and the level whose RES code is driven from its falling edge (R277, R280). -/
structure PulseEnt where
  q : Int := 0
  res : Option Nat := none
  deriving DecidableEq, Repr

/-- The parameters of a pulse axis (PG_PULSE_CFG, PG_RES_CFG). -/
structure PulseCfg where
  stepW : Nat := 5
  dirSetup : Nat := 20
  resSetup : Nat := 50
  /-- Q of each level, and its RES code -/
  q : List Nat := [1]
  code : List Nat := [0]
  deriving DecidableEq, Repr

/-- States of a pulse-train axis (PG_AX_STATE.STATE). -/
inductive PaSt where
  | disabled | enabled | disabling
  deriving DecidableEq, Repr

/-- One pulse-train axis: its step generator and its lands (R273 to R281). -/
structure Pulse where
  st : PaSt := .disabled
  enRefused : Bool := false
  enPending : Bool := false
  wait : Option Nat := none
  disAt : Nat := 0
  a : DWord := 0
  w : Int := 0
  x : DWord := 0
  held : List PulseEnt := []
  heldMax : Nat := 0
  rateLimit : Bool := false
  /-- tick of the last advance of the accumulator -/
  advAt : Nat := 0
  /-- tick of the last immediate stop: a word computed before it is not applied -/
  haltAt : Nat := 0
  /-- cause of an immediate stop, registered at this tick -/
  imm : Option Nat := none
  step : Bool := false
  stepSince : Nat := 0
  /-- level whose code RES shows from the falling edge -/
  resNext : Option Nat := none
  dirNeg : Bool := false
  dirSince : Nat := 0
  /-- the level whose code RES shows -/
  res : Nat := 0
  resSince : Nat := 0
  level : Nat := 0
  target : Nat := 0
  /-- recent issued edges, newest first: tick, X before and after -/
  recent : List (Nat × DWord × DWord) := []
  deriving DecidableEq, Repr

/-- Clutch states (GR_CLUTCH_STATE.STATE, R310). -/
inductive ClSt where
  | disengaged | armed | engaging | engaged | armedOff | disengaging
  deriving DecidableEq, Repr

/-- The clutch and offset of a follower unit (R306 to R313). Offsets are Q48.16, velocities Q32.32. -/
structure Clutch where
  st : ClSt := .disengaged
  o : Int := 0
  ov : Int := 0
  oh : Int := 0
  /-- the reference m_r, and c(m_r) on the cam in force when it was taken -/
  mr : Int := 0
  cr : Int := 0
  /-- master position and contribution at the previous sample instant -/
  mPrev : Int := 0
  cPrev : Int := 0
  /-- frame number and start values of a ramp -/
  k : Nat := 0
  m0 : Int := 0
  od : Int := 0
  /-- ENGAGE (true) or DISENGAGE (false) registered at a tick, not yet at its sample instant -/
  req : Option (Nat × Bool) := none
  pending : Bool := false
  zero : Option Nat := none
  down : Option Nat := none
  refused : Bool := false
  masterLost : Bool := false
  deriving DecidableEq, Repr

/-- The cam unit of a slot (R314 to R318): bank numbers, the buffered points, status. -/
structure Cam where
  active : Option Nat := none
  shadow : Shadow := .empty
  sealedAt : Nat := 0
  swaps : Nat := 0
  sealErr : Bool := false
  late : Bool := false
  starved : Bool := false
  reselect : Option Nat := none
  /-- index of the first of the 32 buffered points -/
  lo : Nat := 0
  /-- cycle and argument at the previous sample instant -/
  cyc : Int := 0
  xPrev : Int := 0
  deriving DecidableEq, Repr

/-- A follower unit (R306 to R318). -/
structure Follow where
  cl : Clutch := {}
  cam : Cam := {}
  /-- source position and velocity of the slot at its last sample instant, and that instant (R306, R308) -/
  pos : DWord := 0
  vel : DWord := 0
  at_ : Nat := 0
  /-- the source values of the sample instant before -/
  posP : DWord := 0
  velP : DWord := 0
  atP : Nat := 0
  deriving DecidableEq, Repr

/-- A compare (R319 to R322, GR_CMP_). Positions are Q48.16. -/
structure Cmp where
  armed : Bool := false
  behind : Bool := false
  c : Int := 0
  pitch : Int := 0
  count : Nat := 0
  fires : Nat := 0
  multi : Bool := false
  overlap : Bool := false
  land : Bool := false
  pulseEnd : Option Nat := none
  ts : Nat := 0
  /-- FIRE_IF_PASSED: a behind compare armed at this tick fires at the next sample instant of GRP -/
  passed : Option Nat := none
  /-- the position it last saw -/
  last : Int := 0
  /-- tick at which a firing on a count or pulse changes the land -/
  act : Option Nat := none
  deriving DecidableEq, Repr

/-- States of a networked axis (GR_NX_STATE.STATE). -/
inductive NxSt where
  | disabled | enabling | enabled | disabling | faultStop
  deriving DecidableEq, Repr

/-- A partner feedback record as relayed to a tile (R323, R324). -/
structure NxFb where
  pos : DWord := 0
  vel : DWord := 0
  t : Nat := 0
  ready : Bool := false
  enabled : Bool := false
  fault : Bool := false
  deriving DecidableEq, Repr

/-- A networked slot (R323 to R327). -/
structure Nx where
  st : NxSt := .disabled
  enRefused : Bool := false
  enPending : Bool := false
  enTimeout : Bool := false
  offTimeout : Bool := false
  /-- registration tick of the enable or disable in progress -/
  since : Nat := 0
  /-- the latest record registered at the tile -/
  fb : NxFb := {}
  /-- values latched at the last sample instant -/
  posL : DWord := 0
  spdL : DWord := 0
  pReady : Bool := false
  pEnabled : Bool := false
  pFault : Bool := false
  /-- age of the latched record, s − t_f (GR_NX_FBAGE) -/
  age : Word := 0
  deriving DecidableEq, Repr

end Sys2Proof.Machine
end

