-- ==== Sys2Proof/Machine/HubUnits.lean ====
section
/-! DEFINITION. The state of the hub: frames of a rate group, commit, images and settings, pleached groups, safety, trust, sessions, health, power (chapters 01 to 03, 08, 14 to 18). -/

namespace Sys2Proof.Machine

/-- What a networked slot's set-point is formed with (R47, R428): lead in ticks, SPK, OEXP and SPSH of the frame. -/
structure NxPar where
  lead : Nat := 0
  spk : Word := 0
  oexp : Int := 0
  spsh : Int := 0
  deriving DecidableEq, Repr

/-- What one context computes in a frame (R135 to R143): its record and sections after the frame, and the word it emits. -/
structure CtxRes where
  ctx : Nat := 0
  rec_ : Ctx := {}
  secs : List (Nat × Sec) := []
  out : Word := 0
  emits : Bool := true
  /-- its destination, and the parameters of a networked set-point, as the frame was computed with them (R76) -/
  dst : Nat := 0
  nx : NxPar := {}
  /-- the context was at frame k = 0 when the frame was sampled -/
  armed0 : Bool := false
  sched : Option (Nat × Sched) := none
  deriving DecidableEq, Repr

/-- What a native axis computes in a frame (R182 to R199). -/
structure NatRes where
  slot : Nat := 0
  meas : NatMeas := {}
  /-- new compare values, if the axis switches -/
  duties : List Nat := []
  /-- the current sum, and whether it exceeds the SUM_LIM of the frame (R179) -/
  sum : Int := 0
  sumOver : Bool := false
  /-- the stepper record after the frame -/
  step : StepperS := {}
  deriving DecidableEq, Repr

/-- The position that a pulse axis is to reach, homing offset removed (R275), and what its velocity word is formed with (R76). -/
structure PulseGoal where
  slot : Nat := 0
  pos : DWord := 0
  per : Nat := 0
  cfg : PulseCfg := {}
  deriving DecidableEq, Repr

/-- A frame between its sample and its apply instant (R56, R57). -/
structure Frame where
  sample : Nat := 0
  apply : Nat := 0
  done : Option Nat := none
  ctxs : List CtxRes := []
  nats : List NatRes := []
  pulses : List PulseGoal := []
  /-- slots and the mode that a hand-over of the frame makes active (R168) -/
  modes : List (Nat × Nat) := []
  deriving DecidableEq, Repr

/-- A rate group of a tile (R54 to R57, R71 to R74). -/
structure Grp where
  lastSample : Option Nat := none
  frames : List Frame := []
  minSlack : Nat := 0xFFFF
  lastSlack : Nat := 0xFFFF
  consec : Nat := 0
  lastCtx : Nat := 0
  count : Nat := 0
  lastMiss : Nat := 0
  deriving DecidableEq, Repr

/-- A memory partition (R88). -/
structure Part where
  id : Nat := 0
  kind : Nat := 0
  owner : Nat := 0
  persist : Bool := false
  base : Nat := 0
  size : Nat := 0
  deriving DecidableEq, Repr

/-- The running structure as far as it is not in registers: the image in force and what it declares. -/
structure Running where
  on : Bool := false
  slot : Option Nat := none
  bytes : List Byte := []
  tileSet : Nat := 0
  pace : Nat := 0
  refSrc : Nat := 0
  id : List Byte := []
  version : Nat := 0
  parts : List Part := []
  spRate : List Nat := []
  settingsSrc : Nat := 0
  settingsSeq : Nat := 0
  deriving DecidableEq, Repr

/-- Phases of a commit (CM_STATUS.STATE apart from STAGING). -/
inductive CmPh where
  | idle | checking | accepted | go
  deriving DecidableEq, Repr

/-- Staging and the commit in progress (R91 to R106). -/
structure Commit where
  owner : Option Nat := none
  /-- staged registers in order of first staging: address, word -/
  staged : List (Nat × Word) := []
  image : Option (List Byte) := none
  ph : CmPh := .idle
  asap : Bool := false
  named : Nat := 0
  regAt : Nat := 0
  apply : Nat := 0
  acceptAt : Nat := 0
  appliedAt : Nat := 0
  /-- dies addressed, dies that have registered PREPARED, as bits (hub 8) -/
  dies : Nat := 0
  prepared : Nat := 0
  /-- axes (16 × tile + slot) listed for the structural items of the accepted commit (R97) -/
  listed : List Nat := []
  /-- tiles whose acquisition ring length item the accepted commit changes (R373) -/
  rings : List Nat := []
  /-- a pace rise has begun -/
  rise : Bool := false
  item : Nat := 0
  tile : Nat := 0
  detail : Nat := 0
  code : Nat := 0
  /-- verification of an image in progress: 0 none, 1 staging, 2 install; its source bytes, target slot, LAST writer's session -/
  imgBusy : Nat := 0
  imgBytes : List Byte := []
  imgSlot : Nat := 0
  imgDone : Bool := false
  imgBad : Bool := false
  imgCode : Nat := 0
  deriving DecidableEq, Repr

/-- A settings copy (R108 to R110). -/
structure SetCopy where
  done : Bool := false
  seq : Nat := 0
  id : List Byte := []
  cfg : Tab Word := []
  /-- AES-256-GCM tag of the copy -/
  tag : List Byte := []
  /-- contents of the PERSIST partitions: byte address in the stack, byte -/
  mem : Tab Byte := []
  deriving DecidableEq, Repr

/-- A STORE in progress: target copy, sequence, snapshot (R108, R109). -/
structure StoreOp where
  copy : Nat := 0
  snap : SetCopy := {}
  /-- tick of acceptance, and whether the target copy had its DONE record -/
  at_ : Nat := 0
  hadDone : Bool := false
  deriving DecidableEq, Repr

/-- An image slot (R113 to R115). -/
structure Slot where
  bytes : List Byte := []
  valid : Bool := false
  trial : Bool := false
  trialBooted : Bool := false
  /-- an uncorrectable error lies in it (R592) -/
  damaged : Bool := false
  deriving DecidableEq, Repr

/-- Life-cycle states (R555). -/
inductive Life where
  | blank | manufactured | owned | fieldService | returned | retired
  deriving DecidableEq, Repr

/-- An event-log entry (R601). -/
structure LogEntry where
  seq : Nat := 0
  boot : Nat := 0
  lattice : Nat := 0
  rtc : Nat := 0
  code : Nat := 0
  source : Nat := 0
  count : Nat := 0
  data : Nat := 0
  deriving DecidableEq, Repr

/-- The key store (R548). -/
structure KeyStore where
  identity : Bool := false
  /-- identity public key as the 97-byte point, device certificate -/
  pub : List Byte := []
  cert : List Byte := []
  owner : List Byte := []
  recovery : List Byte := []
  secret : List Byte := []
  verified : Nat := 0
  revoked : List (List Byte) := []
  revVersion : Nat := 0
  deriving DecidableEq, Repr

/-- The hub NVM (R87, R108, R113 to R115, R548, R572, R587, R593, R599). -/
structure Nvm where
  slotA : Slot := {}
  slotB : Slot := {}
  next : Option Nat := none
  rollback : Nat := 0
  setA : SetCopy := {}
  setB : SetCopy := {}
  life : Life := .blank
  keys : KeyStore := {}
  bootCount : Nat := 0
  replace : Nat := 0
  /-- writes counted for each 64 KB block, block numbers 0 to 255 -/
  wear : Tab Nat := []
  log : List LogEntry := []
  logSeq : Nat := 0
  deriving DecidableEq, Repr

/-- The backup domain (R553, R572, R583, R584, R600, R642). -/
structure Backup where
  rtc : Nat := 0
  rtcValid : Bool := false
  /-- VBAT has been lost since the last boot -/
  lost : Bool := false
  rollback : Nat := 0
  revVersion : Nat := 0
  bootCount : Nat := 0
  tampCfg : Nat := 0
  tamp0 : Bool := false
  tamp1 : Bool := false
  tampered : Bool := false
  /-- the helper seed has been erased by ZEROISE -/
  seedGone : Bool := false
  /-- previous sample of each tamper input read its active level -/
  prev0 : Bool := false
  prev1 : Bool := false
  tail : List LogEntry := []
  /-- tail entries that have reached NVM -/
  tailSaved : Nat := 0
  deriving DecidableEq, Repr

/-- A transition that is journaling (R559). -/
structure LifeJournal where
  to_ : Life := .blank
  restart : Bool := false
  deriving DecidableEq, Repr

/-- A bank of SEC_BUF and SEC_RESULT (R558). -/
structure SecBank where
  buf : Tab Byte := []
  done : Bool := false
  action : Nat := 0
  code : Nat := 0
  deriving DecidableEq, Repr

/-- An action of SEC_CTRL in progress (R563): bank, kind, and the bytes it works on. -/
structure SecOp where
  bank : Nat := 0
  kind : Nat := 0
  bytes : List Byte := []
  deriving DecidableEq, Repr

/-- Trust outside NVM (chapter 15). -/
structure Trust where
  challenge : List Byte := []
  /-- tick at which the challenge was drawn; none: no valid challenge -/
  drawnAt : Option Nat := none
  serviceEnd : Nat := 0
  debugOpened : Bool := false
  keystoreErr : Bool := false
  vbatLost : Bool := false
  vbatOk : Bool := false
  enrolStrap : Bool := false
  op : Option SecOp := none
  journal : Option LifeJournal := none
  banks : Tab SecBank := []
  deriving DecidableEq, Repr

/-- Session states (SEC_SESS_STATE.STATE). -/
inductive SessSt where
  | closed | handshake | open_
  deriving DecidableEq, Repr

/-- One result of a command (R618). -/
structure CmdRes where
  op : Nat := 0
  status : Nat := 0
  data : List Byte := []
  deriving DecidableEq, Repr

/-- What an unfinished request waits for (R622). -/
inductive Wait where
  | none | commit | store | image
  deriving DecidableEq, Repr

/-- A request that has not been answered (R618 to R622): its results so far and its commands still to run, as bytes. -/
structure Req where
  id : Nat := 0
  count : Nat := 0
  done : List CmdRes := []
  rest : List (List Byte) := []
  wait : Wait := .none
  deriving DecidableEq, Repr

/-- A host session (R573 to R577, R628, R629). -/
structure Sess where
  st : SessSt := .closed
  port : Nat := 0
  src : Nat := 0
  roles : Nat := 0
  /-- identifiers of the chain's certificates, leaf first -/
  chain : List (List Byte) := []
  rejects : Nat := 0
  rxCtr : Nat := 0
  txCtr : Nat := 0
  lastAt : Nat := 0
  transcript : List Byte := []
  keyIn : List Byte := []
  keyOut : List Byte := []
  /-- draw of the ephemeral private key of the handshake -/
  eph : Nat := 0
  nonces : List Byte := []
  hostPoint : List Byte := []
  reqs : List Req := []
  /-- set-point credit in units of 10^−9 set-point, and the tick to which it has been refilled -/
  credit : Nat := 0
  creditAt : Nat := 0
  class5 : Nat := 0
  /-- result of the last command row, and what it still waits for -/
  last : CmdRes := {}
  lastWait : Wait := .none
  deriving DecidableEq, Repr

/-- A host port: MAC0, MAC1 or the serial host port (R610 to R614). -/
structure HPort where
  link : Bool := false
  fast : Bool := false
  full : Bool := false
  discard : Nat := 0
  /-- received messages with their source (address and UDP port as one number) -/
  rx : List (Nat × List Byte) := []
  /-- messages that wait for GET; on a MAC what has been sent since the last tick, with its destination (source number, or address for ARP and ICMP) -/
  tx : List (Nat × List Byte) := []
  rxOvf : Bool := false
  quad : Bool := false
  /-- the byte the last STATUS or the message the last GET returned -/
  out : List Byte := []
  deriving DecidableEq, Repr

/-- A zone (R513 to R518). -/
structure Zone where
  /-- demand as the evaluation decided it, and as it is in force -/
  demand : Bool := true
  inForce : Bool := true
  /-- a decision and the tick at which it takes effect (R504) -/
  due : Option (Nat × Bool) := none
  healthy : Bool := false
  bits : Nat := 0
  resetReg : Bool := false
  resetIgnored : Bool := false
  disc : Bool := false
  diffAt : Option Nat := none
  rstHigh : Option Nat := none
  deriving DecidableEq, Repr

/-- Steps of a brake test (R526). -/
inductive BtSt where
  | idle | requested | engage | pos | neg
  deriving DecidableEq, Repr

/-- A brake test (R526 to R528). -/
structure BrakeTest where
  st : BtSt := .idle
  reg : Nat := 0
  e1 : Nat := 0
  p0 : Int := 0
  /-- q reference held at e1 -/
  qh : Word := 0
  result : Nat := 0
  pass : Option Nat := none
  deriving DecidableEq, Repr

/-- Safety of one axis (R519 to R535). -/
structure SfAx where
  permit : Bool := false
  /-- a grant decided, and its tick of effect -/
  grantAt : Option Nat := none
  flt : Bool := false
  cause : Nat := 0
  ackRefused : Bool := false
  stopTimeout : Bool := false
  /-- last pass of the STO test; first grant since boot seen -/
  stoPass : Option Nat := none
  stoTest : Option Nat := none
  /-- STO_DUE, BT_DUE -/
  stoDue : Bool := false
  btDue : Bool := false
  /-- the engine commands the brake channel on, which releases the brake -/
  brkCmd : Bool := false
  brkOpen : Bool := false
  /-- tick at which the permissive is to be removed (R524) -/
  rmAt : Option Nat := none
  relAt : Option Nat := none
  engAt : Option Nat := none
  relReq : Bool := false
  /-- a brake request of a disable with DIS_MODE 1 (R201) -/
  brkReq : Option Nat := none
  /-- a fault registered for the next evaluation: cause, tick (R206) -/
  fault : Option (Nat × Nat) := none
  /-- fault reaction in progress since this tick -/
  react : Option Nat := none
  /-- commanded stop of a category-1 zone or of a grace expiry: since, and whether it is of grace -/
  stop : Option (Nat × Bool) := none
  grace : Option (Nat × Nat) := none
  graceReg : Option (Nat × Nat) := none
  graceExp : Option Nat := none
  bt : BrakeTest := {}
  deriving DecidableEq, Repr

/-- Connection states (SF_CONN_STAT.STATE). -/
inductive ConnSt where
  | off | starting | run
  deriving DecidableEq, Repr

/-- A safety connection (R536 to R543). -/
structure Conn where
  st : ConnSt := .off
  base : Bool := false
  runD1 : Nat := 0
  seq : Nat := 0
  /-- messages sent: SEQ and tick, newest first -/
  sent : List (Nat × Nat) := []
  /-- registration of the last accepted PDU -/
  accAt : Option Nat := none
  data : Word := 0
  crcErr : Nat := 0
  seqErr : Nat := 0
  late : Nat := 0
  rep : Nat := 0
  sendAt : Nat := 0
  /-- the last PDU sent -/
  pdu : List Byte := []
  /-- received PDUs not yet checked, with their registration ticks -/
  rx : List (Nat × List Byte) := []
  deriving DecidableEq, Repr

/-- The safety engine (R503 to R511, R545, R546). -/
structure Safety where
  fault : Bool := false
  cause : Nat := 0
  /-- tick at which ENGINE_FAULT was set -/
  faultAt : Nat := 0
  verifyErr : Bool := false
  unverified : Bool := false
  /-- an output stuck on against its command (R512), a failed brake test (R527): nFAULT until restart -/
  stuck : Bool := false
  btFailed : Bool := false
  /-- registration tick of a lost reference that the next evaluation acts on (R52) -/
  refDue : Option Nat := none
  /-- pairs whose safety section carries RE_ARM (R525) -/
  rearm : Nat := 0
  zones : Tab Zone := []
  axes : Tab SfAx := []
  conns : Tab Conn := []
  deriving DecidableEq, Repr

/-- States of a pleached group (R297, GR_PLG_STATUS.STATE). -/
inductive PlgSt where
  | idle | running | holding | held | stopping
  deriving DecidableEq, Repr

/-- Commands of a pleached group (R298, R299). -/
inductive PlgCmd where
  | start | hold | resume | stop | feed (f : Nat)
  deriving DecidableEq, Repr

/-- A pleached group (R294 to R305). -/
structure Plg where
  st : PlgSt := .idle
  f : Int := 0
  /-- feed target in force at the feed instants -/
  goal : Int := 0x40000000
  cmds : List (PlgCmd × Nat) := []
  refused : Bool := false
  mismatch : Bool := false
  starved : Bool := false
  memberFault : Bool := false
  limitHold : Bool := false
  /-- registration tick of an event of a member that stops the group -/
  ev : Option Nat := none
  /-- a member event is on its way to the hub -/
  evSent : Bool := false
  /-- tick at which the condition of R286 was registered in a member (R303) -/
  lim : Option Nat := none
  df : Int := 0
  sealed : Bool := false
  at_ : Nat := 0
  /-- the last feed instant, and F before it (R249, R296) -/
  fedAt : Nat := 0
  fOld : Int := 0
  /-- the last feed instant that a higher item of R305 governed, and the last sample instant at which the group starved (R302) -/
  govAt : Option Nat := none
  starveAt : Option Nat := none
  /-- STOPPING by starvation -/
  starving : Bool := false
  deriving DecidableEq, Repr

/-- Self-test states (HL_ST_STATUS.STATE). -/
inductive StSt where
  | idle | accepted | saving | running | restoring
  deriving DecidableEq, Repr

/-- The self-test engine (R603 to R609). -/
structure SelfTest where
  st : StSt := .idle
  op : Nat := 0
  target : Nat := 0
  result : Nat := 0
  refuse : Nat := 0
  detail : Word := 0
  reqAt : Option Nat := none
  /-- tick of acceptance -/
  accAt : Nat := 0
  aborting : Bool := false
  /-- frames of this tile are suspended -/
  tile : Option Nat := none
  pair : Option Nat := none
  /-- a restored tile whose frames wait for the next sample instant of its fastest group (R606) -/
  resume : Option Nat := none
  /-- instruction of the test access port (R609) -/
  tap : Nat := 0
  deriving DecidableEq, Repr

/-- Health of a tile's speed margin (R589). -/
structure Margin where
  hist : List Int := []
  mean : Int := 0
  min_ : Int := 32767
  low : Bool := false
  deriving DecidableEq, Repr

/-- Readings of a temperature sensor (R597, R598). -/
structure Temp where
  now : Int := 0
  max_ : Int := -32768
  warn : Bool := false
  crit : Bool := false
  deriving DecidableEq, Repr

/-- Barrier monitor of a pair in the current window (R594). -/
structure Barrier where
  headroom : Nat := 255
  lowNs : Nat := 0
  crc : Nat := 0
  deriving DecidableEq, Repr

/-- The last entry written for a code and source (R601): tick, occurrences suppressed since. -/
structure LogMark where
  at_ : Option Nat := none
  sup : Nat := 0
  deriving DecidableEq, Repr

/-- Health (chapter 16). -/
structure Health where
  commitFault : Bool := false
  thermCrit : Bool := false
  supply : Bool := false
  temps : Tab Temp := []
  margins : Tab Margin := []
  ecc0 : Nat × Nat := (0, 0)
  ecc1 : Nat × Nat := (0, 0)
  ecc2 : Nat × Nat := (0, 0)
  holdup : Option Nat := none
  barriers : Tab Barrier := []
  /-- EDGE_COARSE entries of each tile in the window -/
  edges : Tab Nat := []
  window : Nat := 0
  /-- supplies outside their limits: 0 to 7 tiles, 8 hub -/
  supplies : Nat := 0
  marks : Tab LogMark := []
  sel : Nat := 0
  miss : Bool := false
  suppressed : Nat := 0
  st : SelfTest := {}
  deriving DecidableEq, Repr

/-- Input supplies and their status (R636 to R641, PW_). -/
structure Power where
  pfWarn : Bool := false
  mains : Bool := false
  vauxOk : Bool := false
  source : Nat := 0
  vaux : Nat := 0
  watts : Nat := 0
  /-- VBAT in mV at the land, and as measured every 1 s -/
  vbatIn : Nat := 0
  vbat : Nat := 0
  pfTick : Nat := 0
  pfCount : Nat := 0
  deriving DecidableEq, Repr

/-- Remote master values on their way and held (R308): value, velocity, its instant. -/
structure XMaster where
  pos : DWord := 0
  vel : DWord := 0
  at_ : Nat := 0
  posP : DWord := 0
  velP : DWord := 0
  atP : Nat := 0
  deriving DecidableEq, Repr

end Sys2Proof.Machine
end

