-- ==== Sys2Proof/Machine/State.lean ====
section
/-! DEFINITION. The state of the module, its state after reset, faults and refusals. -/

namespace Sys2Proof.Machine

/-- The lattice (R49): ns since the hub left power-on reset; and whether the hub has left reset (R117). -/
structure Clock where
  lattice : Nat := 0
  up : Bool := false
  deriving DecidableEq, Repr

/-- Everything the module holds apart from the lattice and the queue of commands. Tables of tile units are keyed by
tile × units + unit; a unit that is not listed stands as its record's defaults say. -/
structure Block where
  /-- SG and RW words in force, by register address; one not listed reads as its reset word (Regs.lean) -/
  cfg : Tab Word := []
  /-- the latch of each _HI register, by its address -/
  hiLatch : Tab Word := []
  /-- time-driven actions already performed at the present tick, by number -/
  marks : List Nat := []
  /-- random draws and free values taken so far (the model's own field) -/
  draws : Nat := 0
  nv : Nvm := {}
  bk : Backup := {}
  run : Running := {}
  cm : Commit := {}
  storeOp : Option StoreOp := none
  storeSt : Nat := 0
  refLost : Bool := false
  paceNow : Nat := 0
  paceChanging : Bool := false
  /-- end of the supply movement of a pace change, and whether it returns to the running mode -/
  paceEnd : Nat := 0
  grp : Tab Grp := []
  sp : Tab SpIn := []
  /-- set-points on their way to an input, in order of issue -/
  spFly : List SpFly := []
  /-- sources served in the present round of a class on a link of the hub (R26): link, class, source -/
  turns : List (Nat × Nat × Nat) := []
  sec : Tab Sec := []
  ctx : Tab Ctx := []
  /-- words applied by each context, newest first, with their apply instants (R59) -/
  hist : Tab (List (Nat × Word)) := []
  sched : Tab Sched := []
  mode : Tab ModeS := []
  nat : Tab NatAx := []
  qd : Tab Qd := []
  prb : Tab Prb := []
  gen : Tab Gen := []
  pulse : Tab Pulse := []
  plg : Tab Plg := []
  follow : Tab Follow := []
  xm : Tab XMaster := []
  cmp : Tab Cmp := []
  nx : Tab Nx := []
  seq : Tab Seq := []
  aq : Tab Aq := []
  aqHub : AqHub := {}
  net : BlNet := {}
  bl : Tab BlPort := []
  blnx : Tab BlNx := []
  blStamp : Tab BlStamp := []
  nt : Nt := {}
  te : Tab Te := []
  teo : Tab Teo := []
  ptp : Tab Ptp := []
  fp : Tab FPair := []
  /-- GEN lands that read active although gate-enable is removed (a condition outside the block), by tile × 4 + slot -/
  genStuck : List Nat := []
  /-- levels of the tamper inputs; an undriven one is pulled to its inactive level while it is sampled (R643) -/
  tamp0 : Option Bool := none
  tamp1 : Option Bool := none
  /-- level of the HS_QUAD strap -/
  hsQuad : Bool := false
  sf : Safety := {}
  tr : Trust := {}
  sess : Tab Sess := []
  hp : Tab HPort := []
  hl : Health := {}
  pw : Power := {}
  /-- the memory stack, by byte address -/
  mem : Tab Byte := []
  /-- word addresses of the memory stack that hold an uncorrectable error (R592) -/
  badMem : List Nat := []
  deriving DecidableEq, Repr

/-- The machine: lattice, commands that wait (first in, first out), module. -/
structure State where
  clk : Clock := {}
  pending : List Instr := []
  b : Block := {}
  deriving DecidableEq, Repr

/-- The machine right after reset: nothing booted, blank NVM, lattice 0, no command waiting. -/
def State.reset : State := {}

/-- Faults: no command of this block ends a run in one; what the manual calls a fault is state. -/
inductive Fault where
  deriving DecidableEq, Repr

/-- Refusals. -/
inductive Refusal where
  /-- Raised by Dispatch.lean for a command without a meaning; safe: the run ends there. -/
  | notModelled (mnemonic : String)
  deriving DecidableEq, Repr

end Sys2Proof.Machine
end

