-- ==== Sys2Proof/Machine/Access.lean ====
section
/-! DEFINITION. Reading and updating one unit of the block: the tables of `Block`, keyed by tile × units + unit. -/

namespace Sys2Proof.Machine

/-- Unit `i` of tile `t` in the table `grp`. -/
def Block.grpAt (b : Block) (t i : Nat) : Grp := tabGet {} b.grp (t * 4 + i)

/-- The block with `f` applied to unit `i` of tile `t` in the table `grp`. -/
def Block.grpUpd (b : Block) (t i : Nat) (f : Grp → Grp) : Block := { b with grp := tabUpd {} b.grp (t * 4 + i) f }

/-- Unit `i` of tile `t` in the table `sp`. -/
def Block.spAt (b : Block) (t i : Nat) : SpIn := tabGet {} b.sp (t * 32 + i)

/-- The block with `f` applied to unit `i` of tile `t` in the table `sp`. -/
def Block.spUpd (b : Block) (t i : Nat) (f : SpIn → SpIn) : Block := { b with sp := tabUpd {} b.sp (t * 32 + i) f }

/-- Unit `i` of tile `t` in the table `sec`. -/
def Block.secAt (b : Block) (t i : Nat) : Sec := tabGet {} b.sec (t * 256 + i)

/-- The block with `f` applied to unit `i` of tile `t` in the table `sec`. -/
def Block.secUpd (b : Block) (t i : Nat) (f : Sec → Sec) : Block := { b with sec := tabUpd {} b.sec (t * 256 + i) f }

/-- Unit `i` of tile `t` in the table `ctx`. -/
def Block.ctxAt (b : Block) (t i : Nat) : Ctx := tabGet {} b.ctx (t * 32 + i)

/-- The block with `f` applied to unit `i` of tile `t` in the table `ctx`. -/
def Block.ctxUpd (b : Block) (t i : Nat) (f : Ctx → Ctx) : Block := { b with ctx := tabUpd {} b.ctx (t * 32 + i) f }

/-- Unit `i` of tile `t` in the table `hist`. -/
def Block.histAt (b : Block) (t i : Nat) : List (Nat × Word) := tabGet [] b.hist (t * 32 + i)

/-- The block with `f` applied to unit `i` of tile `t` in the table `hist`. -/
def Block.histUpd (b : Block) (t i : Nat) (f : List (Nat × Word) → List (Nat × Word)) : Block := { b with hist := tabUpd [] b.hist (t * 32 + i) f }

/-- Unit `i` of tile `t` in the table `sched`. -/
def Block.schedAt (b : Block) (t i : Nat) : Sched := tabGet {} b.sched (t * 8 + i)

/-- The block with `f` applied to unit `i` of tile `t` in the table `sched`. -/
def Block.schedUpd (b : Block) (t i : Nat) (f : Sched → Sched) : Block := { b with sched := tabUpd {} b.sched (t * 8 + i) f }

/-- Unit `i` of tile `t` in the table `mode`. -/
def Block.modeAt (b : Block) (t i : Nat) : ModeS := tabGet {} b.mode (t * 16 + i)

/-- The block with `f` applied to unit `i` of tile `t` in the table `mode`. -/
def Block.modeUpd (b : Block) (t i : Nat) (f : ModeS → ModeS) : Block := { b with mode := tabUpd {} b.mode (t * 16 + i) f }

/-- Unit `i` of tile `t` in the table `nat`. -/
def Block.natAt (b : Block) (t i : Nat) : NatAx := tabGet {} b.nat (t * 16 + i)

/-- The block with `f` applied to unit `i` of tile `t` in the table `nat`. -/
def Block.natUpd (b : Block) (t i : Nat) (f : NatAx → NatAx) : Block := { b with nat := tabUpd {} b.nat (t * 16 + i) f }

/-- Unit `i` of tile `t` in the table `qd`. -/
def Block.qdAt (b : Block) (t i : Nat) : Qd := tabGet {} b.qd (t * 8 + i)

/-- The block with `f` applied to unit `i` of tile `t` in the table `qd`. -/
def Block.qdUpd (b : Block) (t i : Nat) (f : Qd → Qd) : Block := { b with qd := tabUpd {} b.qd (t * 8 + i) f }

/-- Unit `i` of tile `t` in the table `prb`. -/
def Block.prbAt (b : Block) (t i : Nat) : Prb := tabGet {} b.prb (t * 4 + i)

/-- The block with `f` applied to unit `i` of tile `t` in the table `prb`. -/
def Block.prbUpd (b : Block) (t i : Nat) (f : Prb → Prb) : Block := { b with prb := tabUpd {} b.prb (t * 4 + i) f }

/-- Unit `i` of tile `t` in the table `gen`. -/
def Block.genAt (b : Block) (t i : Nat) : Gen := tabGet {} b.gen (t * 16 + i)

/-- The block with `f` applied to unit `i` of tile `t` in the table `gen`. -/
def Block.genUpd (b : Block) (t i : Nat) (f : Gen → Gen) : Block := { b with gen := tabUpd {} b.gen (t * 16 + i) f }

/-- Unit `i` of tile `t` in the table `pulse`. -/
def Block.pulseAt (b : Block) (t i : Nat) : Pulse := tabGet {} b.pulse (t * 4 + i)

/-- The block with `f` applied to unit `i` of tile `t` in the table `pulse`. -/
def Block.pulseUpd (b : Block) (t i : Nat) (f : Pulse → Pulse) : Block := { b with pulse := tabUpd {} b.pulse (t * 4 + i) f }

/-- Unit `i` of tile `t` in the table `follow`. -/
def Block.followAt (b : Block) (t i : Nat) : Follow := tabGet {} b.follow (t * 16 + i)

/-- The block with `f` applied to unit `i` of tile `t` in the table `follow`. -/
def Block.followUpd (b : Block) (t i : Nat) (f : Follow → Follow) : Block := { b with follow := tabUpd {} b.follow (t * 16 + i) f }

/-- Unit `i` of tile `t` in the table `xm`. -/
def Block.xmAt (b : Block) (t i : Nat) : XMaster := tabGet {} b.xm (t * 8 + i)

/-- The block with `f` applied to unit `i` of tile `t` in the table `xm`. -/
def Block.xmUpd (b : Block) (t i : Nat) (f : XMaster → XMaster) : Block := { b with xm := tabUpd {} b.xm (t * 8 + i) f }

/-- Unit `i` of tile `t` in the table `cmp`. -/
def Block.cmpAt (b : Block) (t i : Nat) : Cmp := tabGet {} b.cmp (t * 4 + i)

/-- The block with `f` applied to unit `i` of tile `t` in the table `cmp`. -/
def Block.cmpUpd (b : Block) (t i : Nat) (f : Cmp → Cmp) : Block := { b with cmp := tabUpd {} b.cmp (t * 4 + i) f }

/-- Unit `i` of tile `t` in the table `nx`. -/
def Block.nxAt (b : Block) (t i : Nat) : Nx := tabGet {} b.nx (t * 8 + i)

/-- The block with `f` applied to unit `i` of tile `t` in the table `nx`. -/
def Block.nxUpd (b : Block) (t i : Nat) (f : Nx → Nx) : Block := { b with nx := tabUpd {} b.nx (t * 8 + i) f }

/-- Entry `i` of the table `seq`. -/
def Block.seqAt (b : Block) (i : Nat) : Seq := tabGet {} b.seq i

/-- The block with `f` applied to entry `i` of the table `seq`. -/
def Block.seqUpd (b : Block) (i : Nat) (f : Seq → Seq) : Block := { b with seq := tabUpd {} b.seq i f }

/-- Entry `i` of the table `aq`. -/
def Block.aqAt (b : Block) (i : Nat) : Aq := tabGet {} b.aq i

/-- The block with `f` applied to entry `i` of the table `aq`. -/
def Block.aqUpd (b : Block) (i : Nat) (f : Aq → Aq) : Block := { b with aq := tabUpd {} b.aq i f }

/-- Entry `i` of the table `plg`. -/
def Block.plgAt (b : Block) (i : Nat) : Plg := tabGet {} b.plg i

/-- The block with `f` applied to entry `i` of the table `plg`. -/
def Block.plgUpd (b : Block) (i : Nat) (f : Plg → Plg) : Block := { b with plg := tabUpd {} b.plg i f }

/-- Entry `i` of the table `bl`. -/
def Block.blAt (b : Block) (i : Nat) : BlPort := tabGet {} b.bl i

/-- The block with `f` applied to entry `i` of the table `bl`. -/
def Block.blUpd (b : Block) (i : Nat) (f : BlPort → BlPort) : Block := { b with bl := tabUpd {} b.bl i f }

/-- Entry `i` of the table `blnx`. -/
def Block.blnxAt (b : Block) (i : Nat) : BlNx := tabGet {} b.blnx i

/-- The block with `f` applied to entry `i` of the table `blnx`. -/
def Block.blnxUpd (b : Block) (i : Nat) (f : BlNx → BlNx) : Block := { b with blnx := tabUpd {} b.blnx i f }

/-- Entry `i` of the table `blStamp`. -/
def Block.blStampAt (b : Block) (i : Nat) : BlStamp := tabGet {} b.blStamp i

/-- The block with `f` applied to entry `i` of the table `blStamp`. -/
def Block.blStampUpd (b : Block) (i : Nat) (f : BlStamp → BlStamp) : Block := { b with blStamp := tabUpd {} b.blStamp i f }

/-- Entry `i` of the table `te`. -/
def Block.teAt (b : Block) (i : Nat) : Te := tabGet {} b.te i

/-- The block with `f` applied to entry `i` of the table `te`. -/
def Block.teUpd (b : Block) (i : Nat) (f : Te → Te) : Block := { b with te := tabUpd {} b.te i f }

/-- Entry `i` of the table `teo`. -/
def Block.teoAt (b : Block) (i : Nat) : Teo := tabGet {} b.teo i

/-- The block with `f` applied to entry `i` of the table `teo`. -/
def Block.teoUpd (b : Block) (i : Nat) (f : Teo → Teo) : Block := { b with teo := tabUpd {} b.teo i f }

/-- Entry `i` of the table `ptp`. -/
def Block.ptpAt (b : Block) (i : Nat) : Ptp := tabGet {} b.ptp i

/-- The block with `f` applied to entry `i` of the table `ptp`. -/
def Block.ptpUpd (b : Block) (i : Nat) (f : Ptp → Ptp) : Block := { b with ptp := tabUpd {} b.ptp i f }

/-- Entry `i` of the table `fp`. -/
def Block.fpAt (b : Block) (i : Nat) : FPair := tabGet {} b.fp i

/-- The block with `f` applied to entry `i` of the table `fp`. -/
def Block.fpUpd (b : Block) (i : Nat) (f : FPair → FPair) : Block := { b with fp := tabUpd {} b.fp i f }

/-- Entry `i` of the table `sess`. -/
def Block.sessAt (b : Block) (i : Nat) : Sess := tabGet {} b.sess i

/-- The block with `f` applied to entry `i` of the table `sess`. -/
def Block.sessUpd (b : Block) (i : Nat) (f : Sess → Sess) : Block := { b with sess := tabUpd {} b.sess i f }

/-- Entry `i` of the table `hp`. -/
def Block.hpAt (b : Block) (i : Nat) : HPort := tabGet {} b.hp i

/-- The block with `f` applied to entry `i` of the table `hp`. -/
def Block.hpUpd (b : Block) (i : Nat) (f : HPort → HPort) : Block := { b with hp := tabUpd {} b.hp i f }

/-- Entry `i` of the table `sf.zones`. -/
def Block.zoneAt (b : Block) (i : Nat) : Zone := tabGet {} b.sf.zones i

/-- The block with `f` applied to entry `i` of the table `sf.zones`. -/
def Block.zoneUpd (b : Block) (i : Nat) (f : Zone → Zone) : Block := { b with sf := { b.sf with zones := tabUpd {} b.sf.zones i f } }

/-- Entry `i` of the table `sf.axes`. -/
def Block.sfAxAt (b : Block) (i : Nat) : SfAx := tabGet {} b.sf.axes i

/-- The block with `f` applied to entry `i` of the table `sf.axes`. -/
def Block.sfAxUpd (b : Block) (i : Nat) (f : SfAx → SfAx) : Block := { b with sf := { b.sf with axes := tabUpd {} b.sf.axes i f } }

/-- Entry `i` of the table `sf.conns`. -/
def Block.connAt (b : Block) (i : Nat) : Conn := tabGet {} b.sf.conns i

/-- The block with `f` applied to entry `i` of the table `sf.conns`. -/
def Block.connUpd (b : Block) (i : Nat) (f : Conn → Conn) : Block := { b with sf := { b.sf with conns := tabUpd {} b.sf.conns i f } }

/-- Entry `i` of the table `hl.temps`. -/
def Block.tempAt (b : Block) (i : Nat) : Temp := tabGet {} b.hl.temps i

/-- The block with `f` applied to entry `i` of the table `hl.temps`. -/
def Block.tempUpd (b : Block) (i : Nat) (f : Temp → Temp) : Block := { b with hl := { b.hl with temps := tabUpd {} b.hl.temps i f } }

/-- Entry `i` of the table `hl.margins`. -/
def Block.marginAt (b : Block) (i : Nat) : Margin := tabGet {} b.hl.margins i

/-- The block with `f` applied to entry `i` of the table `hl.margins`. -/
def Block.marginUpd (b : Block) (i : Nat) (f : Margin → Margin) : Block := { b with hl := { b.hl with margins := tabUpd {} b.hl.margins i f } }

/-- Entry `i` of the table `hl.barriers`. -/
def Block.barrierAt (b : Block) (i : Nat) : Barrier := tabGet {} b.hl.barriers i

/-- The block with `f` applied to entry `i` of the table `hl.barriers`. -/
def Block.barrierUpd (b : Block) (i : Nat) (f : Barrier → Barrier) : Block := { b with hl := { b.hl with barriers := tabUpd {} b.hl.barriers i f } }

/-- Entry `i` of the table `tr.banks`. -/
def Block.bankAt (b : Block) (i : Nat) : SecBank := tabGet {} b.tr.banks i

/-- The block with `f` applied to entry `i` of the table `tr.banks`. -/
def Block.bankUpd (b : Block) (i : Nat) (f : SecBank → SecBank) : Block := { b with tr := { b.tr with banks := tabUpd {} b.tr.banks i f } }

end Sys2Proof.Machine
end

