-- ==== Sys2Proof/Config.lean ====
section
/-! DEFINITION. What the manual leaves open: uninterpreted constants, with no value of the model's. -/

namespace Sys2Proof

/-- Error of the sine unit at an angle, in units of 2^−40; used within the bound of R194 only. -/
opaque Config.sinError : Word → Int

/-- Error of the cosine unit at an angle, in units of 2^−40. -/
opaque Config.cosError : Word → Int

/-- Bits of a data input that were sampled before the first one the model has seen (R175), by tile, slot, input and place. -/
opaque Config.sdBefore : Nat → Bool

/-- Bytes of an acquisition block after its last row (R387), by draw and offset. -/
opaque Config.blockTail : Nat → Nat → Byte

/-- Where in a group's work an abandoned frame was stopped (R72), by draw: a number taken modulo the group's contexts. -/
opaque Config.missPoint : Nat → Nat

/-! The standard cryptographic functions that the manual names; the model computes none of them. -/

/-- SHA-384. -/
opaque Config.sha384 : List Byte → List Byte

/-- ECDSA P-384: a signature r ‖ s of a digest verifies under a public point. -/
opaque Config.ecdsaOk : List Byte → List Byte → List Byte → Bool

/-- ECDSA P-384: the signature verifies under the key whose point has the given SHA-384 (R578). -/
opaque Config.ecdsaPinned : List Byte → List Byte → List Byte → Bool

/-- ECDSA P-384: a signature of a digest under the identity key, by draw. -/
opaque Config.ecdsaSign : Nat → List Byte → List Byte

/-- An ephemeral or identity P-384 point, by draw of its private key. -/
opaque Config.ecPoint : Nat → List Byte

/-- ECDH: the secret of a drawn private key and a point. -/
opaque Config.ecdh : Nat → List Byte → List Byte

/-- HKDF with SHA-384: secret, salt, info, length. -/
opaque Config.hkdf : List Byte → List Byte → List Byte → Nat → List Byte

/-- X.509: the device certificate that Genuth's manufacturing CA issued for an identity key (R548). -/
opaque Config.deviceCert : List Byte → List Byte

/-- What an NVM word address belongs to (the specification does not lay the NVM out): 1 and 2 image slots A and B, 3 and 4 settings copies SA and SB, else neither. -/
opaque Config.nvmItem : Nat → Nat

/-- Random bytes, by draw and length. -/
opaque Config.random : Nat → Nat → List Byte

/-- AES-256-GCM: a text under a key and nonce, encrypted or decrypted. -/
opaque Config.gcmText : List Byte → List Byte → List Byte → List Byte

/-- By how many matrices more than 2 ACTIVATE follows the window of a CONFIRM (R580), by draw. -/
opaque Config.activateMore : Nat → Nat

/-- AES-256-GCM: the 16-byte tag under a key and nonce of a plaintext and additional authenticated data (R404, R575). -/
opaque Config.gcmTag : List Byte → List Byte → List Byte → List Byte → List Byte

/-- The settings key of the key store (R108), by the key store's secret; the specification does not give its derivation. -/
opaque Config.settingsKey : List Byte → List Byte

/-- The nonce of a settings copy, by sequence number (not specified). -/
opaque Config.settingsNonce : Nat → List Byte

/-- The bytes of a settings copy (its layout is not specified): parameter words by address, PERSIST bytes by address. -/
opaque Config.settingsBytes : List (Nat × BitVec 32) → List (Nat × BitVec 8) → List Byte

/-- What an X.509 v3 certificate with a P-384 key says (R551 to R553). -/
structure Cert where
  /-- public key as the 97-byte uncompressed point -/
  point : List Byte := []
  /-- basicConstraints with cA set -/
  ca : Bool := false
  /-- the subject's title attribute -/
  title : Option String := none
  /-- validity period in seconds since 1970-01-01 UTC -/
  notBefore : Nat := 0
  notAfter : Nat := 0
  deriving DecidableEq, Repr

/-- X.509: the content of a DER-encoded v3 certificate with a P-384 key. -/
opaque Config.cert : List Byte → Option Cert

/-- ECDSA with SHA-384: the first certificate's signature verifies under the key of the second. -/
opaque Config.certIssued : List Byte → List Byte → Bool

/-- The certificates between the signing certificate of a signature block and a root of the given hash, and the root (R90 does not say how the module comes by them). -/
opaque Config.certPath : List Byte → List Byte → List (List Byte)

/-- SHA-384 of the Genuth vendor root, fixed in the silicon (R548). -/
opaque Config.vendorRoot : List Byte

/-- ID_REV.SILICON of the part, 0 to 15 (R116). -/
opaque Config.silicon : Nat

/-- The 64 KB blocks of the hub NVM that a write operation writes, by draw (R593; the specification does not lay the NVM out). -/
opaque Config.nvmBlocks : Nat → List Nat

/-- The place of a rejected commit's item, where the specification names none (CM_RESULT), by draw. -/
opaque Config.failItem : Nat → Nat

/-- The local oscillator of a field half that gets no frames, by the last refresh: how far its watchdog's end lies from 98 % of WD_T, used modulo 4 % of it (R495). -/
opaque Config.fieldClock : Nat → Nat

/-- The size of a class 1 packet on the spine, by kind; used within the 9 to 64 bytes of R23 only (the specification gives no further size). -/
opaque Config.pktBytes : Nat → Nat

end Sys2Proof
end

