-- ==== Sys2Proof/Machine/Acquire.lean ====
section
/-! DEFINITION. Rows, blocks, the trigger sequencer and records of an acquisition unit (chapter 10). -/

namespace Sys2Proof.Machine

/-- The row length and the layout of a latched channel set: source code, WIDE, HALF (R365, R367). -/
def aqCh (u : Aq) (c : Nat) : Nat × Bool × Bool :=
  let w := (tabGet 0 u.lat (0x40 + 4 * c)).toNat
  (bits w 0 8, bit w 15, bit w 14)

/-- Channels in use, in ascending order. -/
def aqUsed (u : Aq) : List Nat := (List.range 16).filter fun c => decide ((aqCh u c).1 ≠ 0)

/-- W of a channel set: one word a channel, two with WIDE (R365). -/
def aqWords (u : Aq) : Nat := ((aqUsed u).map fun c => if (aqCh u c).2.1 then 2 else 1).sum

/-- R, the rows of a block (R370). -/
def aqRowsPer (u : Aq) : Nat := if aqWords u = 0 then 0 else 120 / aqWords u

def aqSample (u : Aq) : Nat := (tabGet 1 u.lat 4).toNat
def aqGrp (u : Aq) : Nat := bits (aqSample u) 28 2
def aqDiv (u : Aq) : Nat := bits (aqSample u) 0 16
def aqRepeat (u : Aq) : Bool := bit (aqSample u) 31
def aqTrigEn (u : Aq) : Bool := bit (aqSample u) 30
def aqPre (u : Aq) : Nat := bits (tabGet 0 u.lat 8).toNat 0 24
def aqPost (u : Aq) : Nat := bits (tabGet 1 u.lat 12).toNat 0 24

/-- The word of a channel in a row: its position among the words before it (R375: the low word of a two-word channel). -/
def aqPos (u : Aq) (c : Nat) : Nat :=
  (((aqUsed u).filter fun k => decide (k < c)).map fun k => if (aqCh u k).2.1 then 2 else 1).sum

/-- A source value as the words of a row (R367): the value is 64 bits wide when `wide64` holds. -/
def aqPut (wide64 : Bool) (v : DWord) (wide half : Bool) : List Word :=
  if wide64 then
    if wide then [v.setWidth 32, (v >>> 32).setWidth 32]
    else if half then [(v >>> 16).setWidth 32]
    else [v.setWidth 32]
  else [v.setWidth 32]

/-- Comparator `k` on a row (R375). -/
def aqCmp (u : Aq) (row : List Word) (k : Nat) : Bool :=
  let w := (tabGet 0 u.lat (0x80 + 8 * k)).toNat
  let t := (tabGet 0 u.lat (0x84 + 8 * k)).toInt
  let p := aqPos u (bits w 24 4)
  let v := (row.getD p 0).toInt
  let o := (u.prev.getD p 0).toInt
  bit w 31 &&
    match bits w 16 2 with
    | 0 => decide (t ≤ v)
    | 1 => decide (v < t)
    | 2 => u.prevOk && decide (o < t) && decide (t ≤ v)
    | _ => u.prevOk && decide (t ≤ o) && decide (v < t)

/-- Expiry tick of timer `i` (R377). -/
def aqExpiry (u : Aq) (i : Nat) : Nat := u.ts.tmr + 1000 * bits (tabGet 1000 u.lat (0xE8 + 4 * i)).toNat 0 23

/-- The tick at which a condition became true on the row at `s`, or none (R375). -/
def aqCond (u : Aq) (row : List Word) (s code : Nat) : Option Nat :=
  let cnt (i : Nat) : Bool :=
    decide (bits (tabGet 1 u.lat (0xE0 + 4 * i)).toNat 0 16 ≤ if i = 0 then u.ts.cnt0 else u.ts.cnt1)
  if code = 1 then some s
  else if 8 ≤ code ∧ code < 16 then (if aqCmp u row (code - 8) then some s else none)
  else if 0x10 ≤ code ∧ code < 0x20 then
    (u.ts.ev.find? fun e => decide (e.1 = code - 0x10 ∧ u.prevAt ≤ e.2 ∧ e.2 < s)).map (·.2)
  else if code = 0x20 ∨ code = 0x21 then (if cnt (code - 0x20) then some s else none)
  else if code = 0x22 ∨ code = 0x23 then
    (if aqExpiry u (code - 0x22) ≤ s then some (aqExpiry u (code - 0x22)) else none)
  else none

/-- Whether a condition code is a timer. -/
def aqIsTimer (c : Nat) : Bool := decide (c = 0x22 ∨ c = 0x23)

/-- Which transition is taken: none, A (false) or B (true), with its tick (R376). -/
def aqPick (ca cb : Nat) (a b : Option Nat) : Option (Bool × Nat) :=
  match a, b with
  | none, none => none
  | some t, none => some (false, t)
  | none, some t => some (true, t)
  | some ta, some tb =>
    if aqIsTimer ca && !aqIsTimer cb then (if tb < ta then some (true, tb) else some (false, ta))
    else if aqIsTimer cb && !aqIsTimer ca then (if ta < tb then some (false, ta) else some (true, tb))
    else some (false, ta)

/-- The trigger sequencer on the row at `s` (R376): the unit after it, and the firing tick if it fires. -/
def aqTrigRow (u : Aq) (row : List Word) (s : Nat) : Aq × Option Nat :=
  let inc (i : Nat) (c : Nat) : Nat :=
    let code := bits (tabGet 1 u.lat (0xE0 + 4 * i)).toNat 26 6
    if (aqCond u row s code).isSome then satAdd 65535 c 1 else c
  let u := { u with ts := { u.ts with cnt0 := inc 0 u.ts.cnt0, cnt1 := inc 1 u.ts.cnt1 } }
  let w := (tabGet 0 u.lat (0xC0 + 4 * u.ts.st)).toNat
  let ca := bits w 26 6
  let cb := bits w 10 6
  match aqPick ca cb (aqCond u row s ca) (aqCond u row s cb) with
  | none => (u, none)
  | some (isB, t) =>
    let lo := if isB then 4 else 20
    let nxt := bits w (lo + 3) 3
    let ts := u.ts
    let ts := { ts with cnt0 := if bit w lo then 0 else ts.cnt0, cnt1 := if bit w (lo + 1) then 0 else ts.cnt1 }
    let ts := if nxt = ts.st then ts else { ts with st := nxt, tmr := s, expired := 0 }
    ({ u with ts := ts }, if bit w (lo + 2) then some t else none)

/-- A registered trigger event (R375); kept until the row after it has been evaluated. -/
def aqEvent (e now : Nat) (u : Aq) : Aq :=
  if u.st = .armed || u.st = .triggered then { u with ts := { u.ts with ev := u.ts.ev ++ [(e, now)] } } else u

/-- The state with its change recorded. -/
def aqGo (st : AqSt) (now : Nat) (u : Aq) : Aq := { u with st := st, hist := ((now, st) :: u.hist).take 8 }

/-- The state at a tick (R381). -/
def aqStAt (u : Aq) (t : Nat) : AqSt := ((u.hist.find? fun h => decide (h.1 ≤ t)).map (·.2)).getD .idle

/-- The number of local blocks that are queued (R371). -/
def aqQueued (u : Aq) : Nat := (u.q.filter fun w => match w with | AqWrite.block _ => true | AqWrite.desc _ => false).length

/-- The block in fill queued for write-back. -/
def aqClose (part final : Bool) (u : Aq) : Aq :=
  match u.fill with
  | none => u
  | some b => { u with fill := none, q := u.q ++ [.block { b with part := part, final := final }] }

/-- The record is complete at `s` (R383): the last block is closed, the descriptor follows, and the unit re-arms later. -/
def aqComplete (s : Nat) (u : Aq) : Aq :=
  let u :=
    match u.fill with
    | some b => aqClose (decide (b.rows.length < aqRowsPer u)) true u
    | none =>
      { u with q := u.q.mapIdx fun i w => match w with | AqWrite.block b => AqWrite.block (if i + 1 = u.q.length then { b with final := true } else b) | d => d }
  aqGo .rearming s { u with q := u.q ++ [.desc 2], sc := s }

/-- Post-trigger rows stored so far, the trigger row included. -/
def aqPostNow (u : Aq) : Nat :=
  match u.trig with
  | some { row := some (_, i), .. } => u.stored - i
  | _ => 0

/-- The stored row at `s` with stored index `i` becomes the trigger row (R381, R382). -/
def aqMark (s i : Nat) (u : Aq) : Aq :=
  match u.trig with
  | some tr =>
    let pre := min i (aqPre u)
    let short := decide (i < aqPre u)
    { u with trig := some { tr with row := some (s, i), pre := pre }, shortPre := short }
  | none => u

/-- A row at acquisition instant `s` (R365, R368, R371, R376): lost when no local block is free, stored otherwise. -/
def aqRow (s : Nat) (row : List Word) (u : Aq) : Aq × Option Nat :=
  let lose := u.fill.isNone && decide (16 ≤ aqQueued u)
  -- RISE and FALL are false on the first row stored after a loss
  let u := { u with prevOk := u.prevOk && (lose || decide (u.lost = 0)) }
  let ev := if aqTrigEn u then aqTrigRow u row s else (u, none)
  let fire := if u.st = .armed then ev.2 else none
  let u := ev.1
  let u := { u with ts := { u.ts with ev := u.ts.ev.filter fun e => decide (s ≤ e.2) } }
  if lose then
    let first := decide (u.lost = 0)
    ({ u with
        lost := u.lost + 1, row := u.row + 1, prev := row, prevOk := true, prevAt := s
        gapRows := satAdd 0xFFFFFFFF u.gapRows 1
        gaps := if first then satAdd 0xFFFFFFFF u.gaps 1 else u.gaps }, fire)
  else
    let i := u.stored
    let b := u.fill.getD { seq := u.seq, row0 := u.row, tick0 := s, gap := u.lost }
    let u := if u.fill.isNone then { u with seq := u.seq + 1, idx := (u.seq, i, u.lost) :: u.idx } else u
    let marks := match u.trig with | some { row := none, t := t, .. } => decide (t ≤ s) | _ => false
    let b := { b with rows := (s, row) :: b.rows, lastAt := s, trig := if marks then some b.rows.length else b.trig }
    let u := { u with fill := some b, stored := u.stored + 1, row := u.row + 1, lost := 0, prev := row, prevOk := true, prevAt := s }
    let u := if marks then aqMark s i u else u
    if u.st = .triggered && decide (aqPost u ≤ aqPostNow u) then (aqComplete s u, fire)
    else if aqRowsPer u ≤ b.rows.length then (aqClose false false u, fire)
    else (u, fire)

/-- The sample instant `s` of the unit's group (R365): the row due there, from the words `row`, and the firing tick if it fires. -/
def aqSampleAt (s : Nat) (row : List Word) (u : Aq) : Aq × Option Nat :=
  if u.st = .idle || u.st = .stopping || s < u.armAt || u.lastAt = some s then (u, none)
  else
    let due := decide (u.smp % max 1 (aqDiv u) = 0)
    let u := { u with smp := u.smp + 1, lastAt := some s }
    if due && (u.st = .armed || u.st = .triggered) then aqRow s row u else (u, none)

/-- The descriptor's place of a stored row: the data block that holds it (FIRST_BLOCK). -/
def aqBlockOf (u : Aq) (i : Nat) : Nat := ((u.idx.find? fun p => decide (p.2.1 ≤ i)).map (·.1)).getD 0

/-- The gap records of a record whose first block is `first`: rows lost before its first row are not in it. -/
def aqGapsFrom (u : Aq) (first : Nat) : List Nat := (u.idx.filter fun p => decide (first < p.1) && decide (p.2.2 ≠ 0)).map (·.2.2)

/-- A word of `n` bytes, low byte first. -/
def aqLe (n v : Nat) : List Byte := leBytes n v

/-- The bytes of a data block (R370, R387); those after the last row are free values. -/
def aqBlockBytes (u : Aq) (draw : Nat) (b : AqBlk) : List Byte :=
  let rows := b.rows.reverse
  let h := aqLe 1 1 ++ aqLe 1 rows.length ++ aqLe 2 b.seq ++ aqLe 4 b.row0 ++ aqLe 8 b.tick0 ++ aqLe 4 b.gap
    ++ aqLe 4 (flag b.trig.isSome 0 + flag b.final 1 + flag b.part 2) ++ aqLe 2 (b.trig.getD 0) ++ aqLe 2 0
  let body := (rows.flatMap (·.2)).flatMap fun (w : Word) => aqLe 4 w.toNat
  let used := h ++ aqLe 4 (crcRefl 0xEDB88320 (h ++ body)) ++ body
  let _ := u
  used ++ (List.range (512 - used.length)).map (Config.blockTail draw)

/-- The bytes of a slot descriptor with a STATE; `period` is DIV × P in ticks, `ring` the number of data blocks of the slot: FIRST_BLOCK counts
in that ring (R372). The rest of the block is free values. -/
def aqDescBytes (u : Aq) (draw period ring tile : Nat) (state : Nat) : List Byte :=
  let tr := u.trig.getD {}
  let trow := tr.row.getD (0, u.stored)
  let pre := if u.trig.isSome then tr.pre else min u.stored (aqPre u)
  let i0 := trow.2 - pre
  let first := aqBlockOf u i0
  let blocks := u.seq - first
  let gaps := aqGapsFrom u first
  let fl := flag (u.trig.isSome && tr.row.isSome && decide (tr.pre < aqPre u)) 0 + flag (!gaps.isEmpty) 1 + flag (u.trig.isSome && decide (tr.src ≠ tile ∧ tr.src ≠ 8)) 2
    + flag (u.trig.isSome && decide (tr.src = 8)) 3
  let h := aqLe 4 0x51434141 ++ aqLe 1 state ++ aqLe 1 fl ++ aqLe 1 tr.src ++ aqLe 1 (aqWords u) ++ aqLe 8 u.armAt ++ aqLe 8 tr.t
    ++ aqLe 8 trow.1 ++ aqLe 4 pre ++ aqLe 4 (aqPostNow u) ++ aqLe 4 (first % max 1 ring) ++ aqLe 4 blocks ++ aqLe 4 gaps.length ++ aqLe 4 gaps.sum
    ++ aqLe 4 period ++ aqLe 4 0 ++ ((List.range 16).flatMap fun c => aqLe 1 (aqCh u c).1)
    ++ ((List.range 16).flatMap fun c => aqLe 1 (flag (aqCh u c).2.1 0 + flag (aqCh u c).2.2 1))
  h ++ aqLe 4 (crcRefl 0xEDB88320 h) ++ (List.range 412).map (Config.blockTail draw)

/-- A record begins in `slot` at `now` (R376, R379, R384); `relatch` gives the registers at an arm tick, none at a re-arm. -/
def aqBegin (now slot : Nat) (relatch : Option (Tab Word)) (u : Aq) : Aq :=
  aqGo .armed now
    { u with
      slot := slot, lat := relatch.getD u.lat, armAt := now
      -- a sample instant at the re-arm tick itself is counted with the new record
      smp := if relatch.isSome then 0 else if u.lastAt = some now then u.smp - 1 else u.smp
      lastAt := if relatch.isSome || decide (u.lastAt = some now) then none else u.lastAt
      row := 0, stored := 0, prev := [], prevOk := false, prevAt := now, lost := 0
      fill := none, seq := 0, idx := [], trig := none, ts := { tmr := now }, q := u.q ++ [.desc 1] }

/-- The lowest slot whose FULL bit is clear (R379). -/
def aqFree (slots full : Nat) : Option Nat := (List.range slots).find? fun k => !bit full k

/-- The arm at a tile (R379). `blocked`: a commit that changes the ring is accepted and not yet applied (R373). -/
def aqArm (now slots : Nat) (blocked : Bool) (regs : Tab Word) (u : Aq) : Aq :=
  if blocked then { u with armRefused := true }
  else
    match u.st with
    | .idle =>
      match aqFree slots u.full with
      | some k => aqBegin now k (some regs) u
      | none => { u with armRefused := true, fullFlag := true }
    | .stopping => { u with pendArm := true }
    | _ => { u with armRefused := true }

/-- An acquisition stop (R385). -/
def aqStop (now : Nat) (u : Aq) : Aq :=
  match u.st with
  | .armed | .triggered =>
    let u := match u.fill with | some b => aqClose (decide (b.rows.length < aqRowsPer u)) true u | none => u
    aqGo .stopping now { u with q := u.q ++ [.desc 3] }
  | .stopping => { u with pendArm := false }
  | _ => u

/-- A set trigger registered at a tile (R381), which acts by the unit's state at its tick. -/
def aqTrigger (now t src : Nat) (u : Aq) : Aq :=
  if t < u.armAt then (if aqStAt u t = .rearming then { u with missed := satAdd 65535 u.missed 1 } else u)
  else
    match aqStAt u t with
    | .rearming => { u with missed := satAdd 65535 u.missed 1 }
    | .armed =>
      if u.trig.isSome then u
      else
        let u := { u with trig := some { t := t, src := src }, trigTick := t }
        let u := if u.st = .armed then { u with st := .triggered, hist := ((t, AqSt.triggered) :: u.hist).take 8 } else u
        -- rows stored at or after the tick: the first of them is the trigger row
        let since := ((u.fill.toList ++ (u.q.filterMap fun w => match w with | AqWrite.block b => some b | AqWrite.desc _ => none)).map
          fun b => (b.rows.filter fun r => decide (t ≤ r.1)).length).sum
        if since = 0 then u
        else
          let i := u.stored - since
          let s := ((u.fill.toList ++ (u.q.filterMap fun w => match w with | AqWrite.block b => some b | AqWrite.desc _ => none)).flatMap
            fun b => (b.rows.map (·.1)).filter fun r => decide (t ≤ r)).foldl min now
          let put (b : AqBlk) : AqBlk :=
            match b.rows.reverse.findIdx? fun r => decide (r.1 = s) with
            | some k => { b with trig := some k }
            | none => b
          let u := { u with fill := u.fill.map put, q := u.q.map fun w => match w with | AqWrite.block b => AqWrite.block (put b) | d => d }
          let u := aqMark s i u
          if u.st = .triggered && decide (aqPost u ≤ aqPostNow u) then aqComplete s u else u
    | _ => u

/-- The re-arm tick has come (R383): two microseconds have passed and every write of the record is registered. -/
def aqRearmDue (now : Nat) (u : Aq) : Bool := decide (u.st = .rearming) && decide (u.sc + 2000 ≤ now) && u.q.isEmpty

/-- Re-arm (R384). -/
def aqRearm (now slots : Nat) (u : Aq) : Aq :=
  if aqRearmDue now u then
    if aqRepeat u then
      let k := if u.slot + 1 < slots then u.slot + 1 else 0
      if bit u.full k then aqGo .idle now { u with fullFlag := true } else aqBegin now k none u
    else aqGo .idle now u
  else u

/-- The stop is complete (R385): every write is registered; a held arm takes place at this tick (R379). -/
def aqStopDone (now slots : Nat) (blocked : Bool) (regs : Tab Word) (u : Aq) : Aq :=
  if u.st = .stopping && u.q.isEmpty then
    let u := aqGo .idle now u
    if u.pendArm then aqArm now slots blocked regs { u with pendArm := false } else u
  else u

/-- A hub firing (R380). -/
def aqFire (f : Nat × Nat) (h : AqHub) : AqHub :=
  if (match h.last with | some l => decide (f.1 < l + 1000) | none => false) then h
  else
    match h.held with
    | none => { h with held := some f }
    | some g => if f.1 < g.1 ∨ (f.1 = g.1 ∧ f.2 < g.2) then { h with held := some f } else h

/-- The set trigger is sent 1,000 ns after the held firing (R380). -/
def aqSend (now : Nat) (h : AqHub) : AqHub :=
  match h.held with
  | some (t, n) =>
    if t + 1000 ≤ now then
      { h with
        held := none, last := some t, src := n, count := satAdd 65535 h.count 1
        trigs := h.trigs ++ ((List.range 8).filter fun k => bit h.set k).map fun k => (k, t, n) }
    else h
  | none => h

end Sys2Proof.Machine
end

