-- ==== Sys2Proof/Machine/Regs.lean ====
section
/-! DEFINITION. The register map: every register of the specification's register tables with its address, array dimensions, field types (R7) and documented reset word; and the accessors of the fields that software sets. -/

namespace Sys2Proof.Machine

/-- The registers of the register space, arrays counted once. -/
inductive RegId where
  | TL_LATTICE_LO | TL_LATTICE_HI | TL_STATUS | TL_PACE | TL_TILE_PHASE | TL_GRP_PERIOD | TL_GRP_APPLY | TL_GRP_SLACK | TL_GRP_MISS | TL_GRP_LASTMISS 
  | TL_GRP_CTRL | TL_SP_INTERVAL | TL_SP_HORIZON | TL_SP_STATUS | ID_REV | CM_STATUS | CM_CTRL | CM_APPLY_LO | CM_APPLY_HI | CM_RESULT | CM_ACCEPTED 
  | CM_APPLIED | CM_PEEK_ADDR | CM_PEEK_DATA | CM_PEEK_STAT | CM_STORE | IMG_SLOT_STATUS | IMG_CTRL | IMG_RESULT | IMG_ACTIVE_ID | CE_LOOP_ALLOC 
  | CE_LOOP_SRC | CE_LOOP_OUT | CE_LOOP_SCALE | CE_LOOP_LIMHI | CE_LOOP_LIMLO | CE_LOOP_KAW | CE_LOOP_RAMP | CE_LOOP_TIMING | CE_LOOP_STATUS 
  | CE_LOOP_OUTVAL | CE_LOOP_ERR_M | CE_LOOP_ERR_E | CE_SEC_COEF | CE_SEC_CFG | CE_SEC_STAT | CE_SCHED_CFG | CE_SCHED_HYST | CE_SCHED_TSTEP 
  | CE_SCHED_CTRL | CE_SCHED_STATUS | CE_SCHED_VAR | CE_MODE | CE_MODE_AT_LO | CE_MODE_AT_HI | CE_XIN | AX_SLOT_TYPE | AX_MCLK | AX_CTRL | AX_STATE 
  | AX_TRIP | AX_STATUS | AX_PWM_CFG | AX_PWM_MIN | AX_PWM_LEAD | AX_SD_CFG | AX_SD_GAIN | AX_SD_OFS | AX_OC | AX_SUM | AX_VLIM | AX_COMM | AX_COMM_CPR 
  | AX_COMM_OFS | AX_COMM_ADV | AX_DEC | AX_ALIGN_I | AX_ALIGN_T | AX_ALIGN_RES | AX_DF | AX_STEP_I | AX_STEP_HOLD | AX_STEP_THR | AX_STEP_HYS 
  | AX_STEP_STAT | AX_MEAS_ID | AX_MEAS_IQ | AX_MEAS_ANGLE | AX_MEAS_VBUS | AX_DUTY | QD_CFG | QD_ASSIGN | QD_SPD_WIN | QD_STILL | QD_ILL | QD_FRZ_CFG 
  | QD_FRZ_T | QD_FRZ_TQ | QD_FRZ_KA | QD_FB_CFG | QD_FB_NUM | QD_FB_DEN | QD_CTRL | QD_REFVAL_LO | QD_REFVAL_HI | QD_POS_LO | QD_POS_HI | QD_RAW_LO 
  | QD_RAW_HI | QD_SPEED_LO | QD_SPEED_HI | QD_STATUS | QD_FAULT | QD_ILL_CNT | QD_IDX_TS_LO | QD_IDX_TS_HI | QD_IDX_POS_LO | QD_IDX_POS_HI 
  | QD_POS_OFS_LO | QD_POS_OFS_HI | QD_PRB_CFG | QD_PRB_STAT | QD_PRB_TS_LO | QD_PRB_TS_HI | QD_PRB_POS_LO | QD_PRB_POS_HI | QD_PRB_RAW | QD_PRB_CTRL 
  | PG_CFG | PG_MIN_DUR | PG_CTRL | PG_STATE | PG_EVENT | PG_BANK | PG_SEG | PG_DECEL | PG_FB_DECEL | PG_POS_LO | PG_POS_HI | PG_VEL_LO | PG_VEL_HI 
  | PG_TAU_LO | PG_TAU_HI | PG_HOME_CFG | PG_LIM_CFG | PG_HOME_V | PG_HOME_CREEP | PG_HOME_ACC | PG_HOME_REL | PG_HOME_IDXWIN | PG_HOME_TO 
  | PG_HOME_POS_LO | PG_HOME_POS_HI | PG_PULSE_CFG | PG_RES_CFG | PG_RES_THR | PG_RES_HYS | PG_PULSE_STAT | PG_ISSUED_LO | PG_ISSUED_HI | PG_VWORD_LO 
  | PG_VWORD_HI | PG_AX_CTRL | PG_AX_STATE | GR_PLG_CFG | GR_PLG_PHASE | GR_PLG_DF_RUN | GR_PLG_DF_STOP | GR_PLG_DF_FAULT | GR_PLG_FEED | GR_PLG_CTRL 
  | GR_PLG_STATE | GR_PLG_FNOW | GR_PLG_TAU_LO | GR_PLG_TAU_HI | GR_FOLLOW | GR_GEAR_NUM | GR_GEAR_DEN | GR_CLUTCH_CFG | GR_CLUTCH_D | GR_CLUTCH_T 
  | GR_ENG_POS_LO | GR_ENG_POS_HI | GR_DIS_POS_LO | GR_DIS_POS_HI | GR_CLUTCH_CTRL | GR_CLUTCH_STATE | GR_OFS_LO | GR_OFS_HI | GR_CAM_CFG 
  | GR_CAM_MIN_DX | GR_CAM_VMAX | GR_CAM_M0_LO | GR_CAM_M0_HI | GR_CAM_CTRL | GR_CAM_STATUS | GR_NX_CTRL | GR_NX_STATE | GR_NX_CFG | GR_NX_FAULT_SP 
  | GR_NX_FBAGE | GR_XM | GR_CMP_CFG | GR_CMP_WIDTH | GR_CMP_POS_LO | GR_CMP_POS_HI | GR_CMP_PITCH_LO | GR_CMP_PITCH_HI | GR_CMP_COUNT | GR_CMP_CTRL 
  | GR_CMP_STATUS | GR_CMP_TS_LO | GR_CMP_TS_HI | GR_CMP_NEXT_LO | GR_CMP_NEXT_HI | SQ_CFG | SQ_INBOX | SQ_CTRL | SQ_STATUS | SQ_EVT | SQ_DOORBELL 
  | SQ_DISP_MAX | SQ_XFER_STAT | SQ_MB_STALE | SQ_MBIN | SQ_MBOUT | SQ_MBTO | AQ_RING | AQ_SAMPLE | AQ_PRE | AQ_POST | AQ_CH | AQ_TCMP | AQ_TTHR 
  | AQ_TSTATE | AQ_TCNT | AQ_TTMR | AQ_TFIELD | AQ_CTRL | AQ_STATUS | AQ_SLOTS | AQ_MISSED | AQ_GAPS | AQ_GAP_ROWS | AQ_ROWS | AQ_TRIG_LO | AQ_TRIG_HI 
  | AQ_TCNT_VAL | AQ_HUB_ARM_LO | AQ_HUB_ARM_HI | AQ_HUB_CTRL | AQ_HUB_STATUS | AQ_HUB_TRIG_LO | AQ_HUB_TRIG_HI | AQ_HUB_TRIGSRC | BL_NET_CFG 
  | BL_NET_PHASE | BL_MODE | BL_NET_STATUS | BL_MATRIX_LO | BL_MATRIX_HI | BL_ANCHOR_LO | BL_ANCHOR_HI | BL_PORT_CFG | BL_PORT_ID_LO | BL_PORT_ID_HI 
  | BL_PORT_FWD | BL_PORT_CTRL | BL_PORT_STATE | BL_PORT_ERR | BL_PORT_GUARD | BL_PORT_RED | BL_PORT_MISC | BL_PORT_OFS | BL_PORT_OFS_MEAN 
  | BL_PORT_DRIFT | BL_PORT_RXID_LO | BL_PORT_RXID_HI | BL_PORT_DQ | BL_NX_BIND | BL_NX_LEAD | BL_NX_SPK | BL_NX_CFG | BL_NX_TLIM_P | BL_NX_TLIM_N 
  | BL_NX_STAT | BL_SPIN | NT_NOW_LO | NT_NOW_HI | NT_FRAC | NT_RATE | NT_STEP_LO | NT_STEP_HI | NT_CTRL | NT_STATUS | NT_CAP_LAT_LO | NT_CAP_LAT_HI 
  | NT_CAP_NT_LO | NT_CAP_NT_HI | NT_LSTEP_TICK_LO | NT_LSTEP_TICK_HI | NT_LSTEP_AMT_LO | NT_LSTEP_AMT_HI | NT_CAP_EPOCH | NT_TEO_CFG | NT_EV_CFG 
  | NT_EV_T_LO | NT_EV_T_HI | NT_EV_PER | NT_EV_WIDTH | NT_EV_CTRL | NT_EV_STAT | NT_EV_LAT_LO | NT_EV_LAT_HI | NT_EV_NT_LO | NT_EV_NT_HI | NT_EV_EPOCH 
  | NT_PTP_CFG | NT_PTP_STAT | NT_PTP_TS_ID | NT_PTP_TS_LO | NT_PTP_TS_HI | NT_PTP_TS_CTRL | NT_BL_RX_LO | NT_BL_RX_HI | NT_BL_MS_LAT_LO 
  | NT_BL_MS_LAT_HI | NT_BL_MS_NT_LO | NT_BL_MS_NT_HI | NT_BL_EPOCH | FIO_STATUS | FIO_WD | FIO_SAFE | FIO_CTRL | FIO_IN | FIO_OUT_SET | FIO_OUT_CLR 
  | FIO_OUT_CMD | FIO_CNT | FIO_DIAG_SUM | FIO_CH_CFG | FIO_CH_PAR | FIO_DIAG | SF_STATUS | SF_VERIFY | SF_PAR_CHECK | SF_PAR_CRC | SF_VERIFIED 
  | SF_ZONE_CFG | SF_ZONE_IN | SF_ZONE_STAT | SF_ZONE_CTRL | SF_AX_CFG | SF_AX_TIME | SF_AX_GRACE | SF_AX_GRACE_V | SF_AX_BT | SF_AX_BT_LIM | SF_AX_STO 
  | SF_AX_STATE | SF_AX_CTRL | SF_AX_GRACE_LEFT | SF_AX_BT_STAT | SF_CONN_CFG | SF_CONN_UID | SF_CONN_WT | SF_CONN_SEND | SF_CONN_STAT | SF_CONN_RX 
  | SF_CONN_CNT | SF_CONN_SEQ | SEC_LIFECYCLE | SEC_STATUS | SEC_SERVICE_LEFT | SEC_CHALLENGE | SEC_CTRL | SEC_RESULT | SEC_ROLLBACK | SEC_REVOKE_VER 
  | SEC_BOOT_COUNT | SEC_RTC_LO | SEC_RTC_HI | SEC_TAMPER | SEC_IDLE | SEC_SESS_STATE | SEC_SESS_CERT | SEC_SESS_CTRL | SEC_PORT_CFG | SEC_PORT_STAT 
  | SEC_PEER | HL_FAULT | HL_REPLACE | HL_TEMP | HL_THERM | HL_MARGIN | HL_ECC | HL_WEAR | HL_HOLDUP | HL_BARRIER | HL_LOG_SEL | HL_LOG_STAT 
  | HL_LOG_WORD | HL_ST_CTRL | HL_ST_STATUS | HL_ST_DETAIL | HP_MAC_CFG | HP_MAC_IP | HP_MAC_ADDR_LO | HP_MAC_ADDR_HI | HP_MAC_STAT | HP_SER_STAT 
  | HP_RD_LIMIT | HP_SP_CLASS5 | PW_STATUS | PW_INPUT | PW_VBAT | PW_PF_TICK_LO | PW_PF_TICK_HI | PW_PF_COUNT
  deriving DecidableEq, Repr

/-- A register: base address, array dimensions (count, stride) in index order, masks of its SG, RW, W1C and WO bits, the word it reads when nothing has been set. -/
structure RegDef where
  base : Nat
  dims : List (Nat × Nat)
  sg : Nat
  rw : Nat
  w1c : Nat
  wo : Nat
  reset : Word
  deriving DecidableEq, Repr

/-- The definition of each register. -/
def regDef : RegId → RegDef
  | .TL_LATTICE_LO => ⟨0x10000, [], 0x0, 0x0, 0x0, 0x0, 0x0⟩
  | .TL_LATTICE_HI => ⟨0x10004, [], 0x0, 0x0, 0x0, 0x0, 0x0⟩
  | .TL_STATUS => ⟨0x10008, [], 0x0, 0x0, 0x0, 0x0, 0x0⟩
  | .TL_PACE => ⟨0x1000c, [], 0x3, 0x0, 0x0, 0x0, 0x0⟩
  | .TL_TILE_PHASE => ⟨0x10001000, [(8, 0x1000000)], 0xfffff, 0x0, 0x0, 0x0, 0x0⟩
  | .TL_GRP_PERIOD => ⟨0x10001010, [(8, 0x1000000), (4, 0x4)], 0xfffff, 0x0, 0x0, 0x0, 0x0⟩
  | .TL_GRP_APPLY => ⟨0x10001020, [(8, 0x1000000), (4, 0x4)], 0xff0fffff, 0x0, 0x0, 0x0, 0x0⟩
  | .TL_GRP_SLACK => ⟨0x10001030, [(8, 0x1000000), (4, 0x4)], 0x0, 0x0, 0x0, 0x0, 0x0⟩
  | .TL_GRP_MISS => ⟨0x10001040, [(8, 0x1000000), (4, 0x4)], 0x0, 0x0, 0x0, 0x0, 0x0⟩
  | .TL_GRP_LASTMISS => ⟨0x10001050, [(8, 0x1000000), (4, 0x4)], 0x0, 0x0, 0x0, 0x0, 0x0⟩
  | .TL_GRP_CTRL => ⟨0x10001060, [(8, 0x1000000)], 0x0, 0x0, 0x0, 0xf, 0x0⟩
  | .TL_SP_INTERVAL => ⟨0x10001100, [(8, 0x1000000), (32, 0x8)], 0xfffff, 0x0, 0x0, 0x0, 0x0⟩
  | .TL_SP_HORIZON => ⟨0x10001104, [(8, 0x1000000), (32, 0x8)], 0x7fffff, 0x0, 0x0, 0x0, 0x0⟩
  | .TL_SP_STATUS => ⟨0x10001200, [(8, 0x1000000), (32, 0x4)], 0x0, 0x0, 0x18, 0x0, 0x0⟩
  | .ID_REV => ⟨0x0, [], 0x0, 0x0, 0x0, 0x0, 0x0⟩
  | .CM_STATUS => ⟨0x20000, [], 0x0, 0x0, 0x0, 0x0, 0x0⟩
  | .CM_CTRL => ⟨0x20004, [], 0x0, 0x0, 0x0, 0x1f, 0x0⟩
  | .CM_APPLY_LO => ⟨0x20008, [], 0x0, 0xffffffff, 0x0, 0x0, 0x0⟩
  | .CM_APPLY_HI => ⟨0x2000c, [], 0x0, 0xffffffff, 0x0, 0x0, 0x0⟩
  | .CM_RESULT => ⟨0x20010, [], 0x0, 0x0, 0x0, 0x0, 0x0⟩
  | .CM_ACCEPTED => ⟨0x20014, [], 0x0, 0x0, 0x0, 0x0, 0x0⟩
  | .CM_APPLIED => ⟨0x20018, [], 0x0, 0x0, 0x0, 0x0, 0x0⟩
  | .CM_PEEK_ADDR => ⟨0x20020, [], 0x0, 0xfffffffc, 0x0, 0x0, 0x0⟩
  | .CM_PEEK_DATA => ⟨0x20024, [], 0x0, 0x0, 0x0, 0x0, 0x0⟩
  | .CM_PEEK_STAT => ⟨0x20028, [], 0x0, 0x0, 0x0, 0x0, 0x0⟩
  | .CM_STORE => ⟨0x20030, [], 0x0, 0x0, 0x0, 0x0, 0x0⟩
  | .IMG_SLOT_STATUS => ⟨0x21000, [(2, 0x4)], 0x0, 0x0, 0x0, 0x0, 0x0⟩
  | .IMG_CTRL => ⟨0x21010, [], 0x0, 0x0, 0x0, 0x13f, 0x0⟩
  | .IMG_RESULT => ⟨0x21014, [], 0x0, 0x0, 0x0, 0x0, 0x0⟩
  | .IMG_ACTIVE_ID => ⟨0x21020, [(4, 0x4)], 0x0, 0x0, 0x0, 0x0, 0x0⟩
  | .CE_LOOP_ALLOC => ⟨0x10010000, [(8, 0x1000000), (32, 0x40)], 0xcf3f1fff, 0x0, 0x0, 0x0, 0x0⟩
  | .CE_LOOP_SRC => ⟨0x10010004, [(8, 0x1000000), (32, 0x40)], 0xffffffff, 0x0, 0x0, 0x0, 0x0⟩
  | .CE_LOOP_OUT => ⟨0x10010008, [(8, 0x1000000), (32, 0x40)], 0xfff80000, 0x0, 0x0, 0x0, 0x0⟩
  | .CE_LOOP_SCALE => ⟨0x1001000c, [(8, 0x1000000), (32, 0x40)], 0xffffff03, 0x0, 0x0, 0x0, 0x0⟩
  | .CE_LOOP_LIMHI => ⟨0x10010010, [(8, 0x1000000), (32, 0x40)], 0xffffffff, 0x0, 0x0, 0x0, 0x0⟩
  | .CE_LOOP_LIMLO => ⟨0x10010014, [(8, 0x1000000), (32, 0x40)], 0xffffffff, 0x0, 0x0, 0x0, 0x0⟩
  | .CE_LOOP_KAW => ⟨0x10010018, [(8, 0x1000000), (32, 0x40)], 0xffffffff, 0x0, 0x0, 0x0, 0x0⟩
  | .CE_LOOP_RAMP => ⟨0x1001001c, [(8, 0x1000000), (32, 0x40)], 0xffffffff, 0x0, 0x0, 0x0, 0x0⟩
  | .CE_LOOP_TIMING => ⟨0x10010020, [(8, 0x1000000), (32, 0x40)], 0x1f07ffff, 0x0, 0x0, 0x0, 0x0⟩
  | .CE_LOOP_STATUS => ⟨0x10010024, [(8, 0x1000000), (32, 0x40)], 0x0, 0x0, 0x3, 0x0, 0x0⟩
  | .CE_LOOP_OUTVAL => ⟨0x10010028, [(8, 0x1000000), (32, 0x40)], 0x0, 0x0, 0x0, 0x0, 0x0⟩
  | .CE_LOOP_ERR_M => ⟨0x1001002c, [(8, 0x1000000), (32, 0x40)], 0x0, 0x0, 0x0, 0x0, 0x0⟩
  | .CE_LOOP_ERR_E => ⟨0x10010030, [(8, 0x1000000), (32, 0x40)], 0x0, 0x0, 0x0, 0x0, 0x0⟩
  | .CE_SEC_COEF => ⟨0x10011000, [(8, 0x1000000), (256, 0x20), (5, 0x4)], 0xffffffff, 0x0, 0x0, 0x0, 0x0⟩
  | .CE_SEC_CFG => ⟨0x10011014, [(8, 0x1000000), (256, 0x20)], 0x7, 0x0, 0x0, 0x0, 0x0⟩
  | .CE_SEC_STAT => ⟨0x10011018, [(8, 0x1000000), (256, 0x20)], 0x0, 0x0, 0x1, 0x0, 0x0⟩
  | .CE_SCHED_CFG => ⟨0x10013000, [(8, 0x1000000), (8, 0x20)], 0x8000003f, 0x0, 0x0, 0x0, 0x0⟩
  | .CE_SCHED_HYST => ⟨0x10013004, [(8, 0x1000000), (8, 0x20)], 0x7fffffff, 0x0, 0x0, 0x0, 0x0⟩
  | .CE_SCHED_TSTEP => ⟨0x10013008, [(8, 0x1000000), (8, 0x20)], 0xffffffff, 0x0, 0x0, 0x0, 0x80000000⟩
  | .CE_SCHED_CTRL => ⟨0x1001300c, [(8, 0x1000000), (8, 0x20)], 0x0, 0x0, 0x0, 0x7, 0x0⟩
  | .CE_SCHED_STATUS => ⟨0x10013010, [(8, 0x1000000), (8, 0x20)], 0x0, 0x0, 0x1000, 0x0, 0x0⟩
  | .CE_SCHED_VAR => ⟨0x10013014, [(8, 0x1000000), (8, 0x20)], 0x0, 0x0, 0x0, 0x0, 0x0⟩
  | .CE_MODE => ⟨0x10013400, [(8, 0x1000000), (16, 0x10)], 0x0, 0x13, 0x400, 0x8, 0x0⟩
  | .CE_MODE_AT_LO => ⟨0x10013404, [(8, 0x1000000), (16, 0x10)], 0x0, 0xffffffff, 0x0, 0x0, 0x0⟩
  | .CE_MODE_AT_HI => ⟨0x10013408, [(8, 0x1000000), (16, 0x10)], 0x0, 0xffffffff, 0x0, 0x0, 0x0⟩
  | .CE_XIN => ⟨0x10013600, [(8, 0x1000000), (8, 0x4)], 0x871f, 0x0, 0x0, 0x0, 0x0⟩
  | .AX_SLOT_TYPE => ⟨0x10020000, [(8, 0x1000000), (16, 0x4)], 0x7, 0x0, 0x0, 0x0, 0x0⟩
  | .AX_MCLK => ⟨0x10020040, [(8, 0x1000000)], 0x3, 0x0, 0x0, 0x0, 0x0⟩
  | .AX_CTRL => ⟨0x10020100, [(8, 0x1000000), (4, 0x100)], 0x0, 0x0, 0x0, 0x7, 0x0⟩
  | .AX_STATE => ⟨0x10020104, [(8, 0x1000000), (4, 0x100)], 0x0, 0x0, 0x8000, 0x0, 0x0⟩
  | .AX_TRIP => ⟨0x10020108, [(8, 0x1000000), (4, 0x100)], 0x0, 0x0, 0x1e, 0x0, 0x0⟩
  | .AX_STATUS => ⟨0x1002010c, [(8, 0x1000000), (4, 0x100)], 0x0, 0x0, 0x0, 0x0, 0x0⟩
  | .AX_PWM_CFG => ⟨0x10020110, [(8, 0x1000000), (4, 0x100)], 0xf0003fff, 0x0, 0x0, 0x0, 0x0⟩
  | .AX_PWM_MIN => ⟨0x10020114, [(8, 0x1000000), (4, 0x100)], 0xffff3fff, 0x0, 0x0, 0x0, 0x0⟩
  | .AX_PWM_LEAD => ⟨0x10020118, [(8, 0x1000000), (4, 0x100)], 0x3ffffff, 0x0, 0x0, 0x0, 0x0⟩
  | .AX_SD_CFG => ⟨0x1002011c, [(8, 0x1000000), (4, 0x100)], 0xff371f, 0x0, 0x0, 0x0, 0x10000⟩
  | .AX_SD_GAIN => ⟨0x10020120, [(8, 0x1000000), (4, 0x100), (3, 0x4)], 0xffffffff, 0x0, 0x0, 0x0, 0x0⟩
  | .AX_SD_OFS => ⟨0x1002012c, [(8, 0x1000000), (4, 0x100), (3, 0x4)], 0xffffffff, 0x0, 0x0, 0x0, 0x0⟩
  | .AX_OC => ⟨0x10020138, [(8, 0x1000000), (4, 0x100)], 0xffffffff, 0x0, 0x0, 0x0, 0x0⟩
  | .AX_SUM => ⟨0x1002013c, [(8, 0x1000000), (4, 0x100)], 0xffffffff, 0x0, 0x0, 0x0, 0x0⟩
  | .AX_VLIM => ⟨0x10020140, [(8, 0x1000000), (4, 0x100)], 0xffffffff, 0x0, 0x0, 0x0, 0x0⟩
  | .AX_COMM => ⟨0x10020144, [(8, 0x1000000), (4, 0x100)], 0xff003f07, 0x0, 0x0, 0x0, 0x0⟩
  | .AX_COMM_CPR => ⟨0x10020148, [(8, 0x1000000), (4, 0x100)], 0xffffffff, 0x0, 0x0, 0x0, 0x0⟩
  | .AX_COMM_OFS => ⟨0x1002014c, [(8, 0x1000000), (4, 0x100)], 0xffffffff, 0x0, 0x0, 0x0, 0x0⟩
  | .AX_COMM_ADV => ⟨0x10020150, [(8, 0x1000000), (4, 0x100)], 0x3ffffff, 0x0, 0x0, 0x0, 0x0⟩
  | .AX_DEC => ⟨0x10020154, [(8, 0x1000000), (4, 0x100), (3, 0x4)], 0xffffffff, 0x0, 0x0, 0x0, 0x0⟩
  | .AX_ALIGN_I => ⟨0x10020160, [(8, 0x1000000), (4, 0x100)], 0xffffffff, 0x0, 0x0, 0x0, 0x0⟩
  | .AX_ALIGN_T => ⟨0x10020164, [(8, 0x1000000), (4, 0x100)], 0x3fff, 0x0, 0x0, 0x0, 0x0⟩
  | .AX_ALIGN_RES => ⟨0x10020168, [(8, 0x1000000), (4, 0x100)], 0x0, 0x0, 0x0, 0x0, 0x0⟩
  | .AX_DF => ⟨0x1002016c, [(8, 0x1000000), (4, 0x100)], 0xff01, 0x0, 0x0, 0x0, 0x0⟩
  | .AX_STEP_I => ⟨0x10020170, [(8, 0x1000000), (4, 0x100)], 0xffffffff, 0x0, 0x0, 0x0, 0x0⟩
  | .AX_STEP_HOLD => ⟨0x10020174, [(8, 0x1000000), (4, 0x100)], 0xffff, 0x0, 0x0, 0x0, 0x0⟩
  | .AX_STEP_THR => ⟨0x10020178, [(8, 0x1000000), (4, 0x100), (4, 0x4)], 0xffffff, 0x0, 0x0, 0x0, 0x0⟩
  | .AX_STEP_HYS => ⟨0x10020188, [(8, 0x1000000), (4, 0x100)], 0xffffff, 0x0, 0x0, 0x0, 0x0⟩
  | .AX_STEP_STAT => ⟨0x1002018c, [(8, 0x1000000), (4, 0x100)], 0x0, 0x0, 0x0, 0x0, 0x0⟩
  | .AX_MEAS_ID => ⟨0x10020190, [(8, 0x1000000), (4, 0x100)], 0x0, 0x0, 0x0, 0x0, 0x0⟩
  | .AX_MEAS_IQ => ⟨0x10020194, [(8, 0x1000000), (4, 0x100)], 0x0, 0x0, 0x0, 0x0, 0x0⟩
  | .AX_MEAS_ANGLE => ⟨0x10020198, [(8, 0x1000000), (4, 0x100)], 0x0, 0x0, 0x0, 0x0, 0x0⟩
  | .AX_MEAS_VBUS => ⟨0x1002019c, [(8, 0x1000000), (4, 0x100)], 0x0, 0x0, 0x0, 0x0, 0x0⟩
  | .AX_DUTY => ⟨0x100201a0, [(8, 0x1000000), (4, 0x100), (3, 0x4)], 0x0, 0x0, 0x0, 0x0, 0x0⟩
  | .QD_CFG => ⟨0x10030000, [(8, 0x1000000), (8, 0x80)], 0xcffffcff, 0x0, 0x0, 0x0, 0x400⟩
  | .QD_ASSIGN => ⟨0x10030004, [(8, 0x1000000), (8, 0x80)], 0x10f, 0x0, 0x0, 0x0, 0x0⟩
  | .QD_SPD_WIN => ⟨0x10030008, [(8, 0x1000000), (8, 0x80)], 0xffff, 0x0, 0x0, 0x0, 0x1⟩
  | .QD_STILL => ⟨0x1003000c, [(8, 0x1000000), (8, 0x80)], 0xfffff, 0x0, 0x0, 0x0, 0x2710⟩
  | .QD_ILL => ⟨0x10030010, [(8, 0x1000000), (8, 0x80)], 0xff00ffff, 0x0, 0x0, 0x0, 0x80003e8⟩
  | .QD_FRZ_CFG => ⟨0x10030014, [(8, 0x1000000), (8, 0x80)], 0xc0ffffff, 0x0, 0x0, 0x0, 0x40000⟩
  | .QD_FRZ_T => ⟨0x10030018, [(8, 0x1000000), (8, 0x80)], 0xfffff, 0x0, 0x0, 0x0, 0x0⟩
  | .QD_FRZ_TQ => ⟨0x1003001c, [(8, 0x1000000), (8, 0x80)], 0xffffffff, 0x0, 0x0, 0x0, 0x0⟩
  | .QD_FRZ_KA => ⟨0x10030020, [(8, 0x1000000), (8, 0x80)], 0xffffffff, 0x0, 0x0, 0x0, 0x0⟩
  | .QD_FB_CFG => ⟨0x10030024, [(8, 0x1000000), (8, 0x80)], 0x80ff, 0x0, 0x0, 0x0, 0x0⟩
  | .QD_FB_NUM => ⟨0x10030028, [(8, 0x1000000), (8, 0x80)], 0xffffffff, 0x0, 0x0, 0x0, 0x1⟩
  | .QD_FB_DEN => ⟨0x1003002c, [(8, 0x1000000), (8, 0x80)], 0xffffffff, 0x0, 0x0, 0x0, 0x1⟩
  | .QD_CTRL => ⟨0x10030030, [(8, 0x1000000), (8, 0x80)], 0x0, 0x0, 0x0, 0x7, 0x0⟩
  | .QD_REFVAL_LO => ⟨0x10030034, [(8, 0x1000000), (8, 0x80)], 0x0, 0xffffffff, 0x0, 0x0, 0x0⟩
  | .QD_REFVAL_HI => ⟨0x10030038, [(8, 0x1000000), (8, 0x80)], 0x0, 0xffffffff, 0x0, 0x0, 0x0⟩
  | .QD_POS_LO => ⟨0x1003003c, [(8, 0x1000000), (8, 0x80)], 0x0, 0x0, 0x0, 0x0, 0x0⟩
  | .QD_POS_HI => ⟨0x10030040, [(8, 0x1000000), (8, 0x80)], 0x0, 0x0, 0x0, 0x0, 0x0⟩
  | .QD_RAW_LO => ⟨0x10030044, [(8, 0x1000000), (8, 0x80)], 0x0, 0x0, 0x0, 0x0, 0x0⟩
  | .QD_RAW_HI => ⟨0x10030048, [(8, 0x1000000), (8, 0x80)], 0x0, 0x0, 0x0, 0x0, 0x0⟩
  | .QD_SPEED_LO => ⟨0x1003004c, [(8, 0x1000000), (8, 0x80)], 0x0, 0x0, 0x0, 0x0, 0x0⟩
  | .QD_SPEED_HI => ⟨0x10030050, [(8, 0x1000000), (8, 0x80)], 0x0, 0x0, 0x0, 0x0, 0x0⟩
  | .QD_STATUS => ⟨0x10030054, [(8, 0x1000000), (8, 0x80)], 0x0, 0x0, 0x40, 0x0, 0x0⟩
  | .QD_FAULT => ⟨0x10030058, [(8, 0x1000000), (8, 0x80)], 0x0, 0x0, 0xe, 0x0, 0x0⟩
  | .QD_ILL_CNT => ⟨0x1003005c, [(8, 0x1000000), (8, 0x80)], 0x0, 0x0, 0x0, 0x0, 0x0⟩
  | .QD_IDX_TS_LO => ⟨0x10030060, [(8, 0x1000000), (8, 0x80)], 0x0, 0x0, 0x0, 0x0, 0x0⟩
  | .QD_IDX_TS_HI => ⟨0x10030064, [(8, 0x1000000), (8, 0x80)], 0x0, 0x0, 0x0, 0x0, 0x0⟩
  | .QD_IDX_POS_LO => ⟨0x10030068, [(8, 0x1000000), (8, 0x80)], 0x0, 0x0, 0x0, 0x0, 0x0⟩
  | .QD_IDX_POS_HI => ⟨0x1003006c, [(8, 0x1000000), (8, 0x80)], 0x0, 0x0, 0x0, 0x0, 0x0⟩
  | .QD_POS_OFS_LO => ⟨0x10030070, [(8, 0x1000000), (8, 0x80)], 0x0, 0x0, 0x0, 0x0, 0x0⟩
  | .QD_POS_OFS_HI => ⟨0x10030074, [(8, 0x1000000), (8, 0x80)], 0x0, 0x0, 0x0, 0x0, 0x0⟩
  | .QD_PRB_CFG => ⟨0x10030400, [(8, 0x1000000), (4, 0x40)], 0x8f730fff, 0x0, 0x0, 0x0, 0x10000⟩
  | .QD_PRB_STAT => ⟨0x10030404, [(8, 0x1000000), (4, 0x40)], 0x0, 0x0, 0x2, 0x0, 0x0⟩
  | .QD_PRB_TS_LO => ⟨0x10030408, [(8, 0x1000000), (4, 0x40)], 0x0, 0x0, 0x0, 0x0, 0x0⟩
  | .QD_PRB_TS_HI => ⟨0x1003040c, [(8, 0x1000000), (4, 0x40)], 0x0, 0x0, 0x0, 0x0, 0x0⟩
  | .QD_PRB_POS_LO => ⟨0x10030410, [(8, 0x1000000), (4, 0x40)], 0x0, 0x0, 0x0, 0x0, 0x0⟩
  | .QD_PRB_POS_HI => ⟨0x10030414, [(8, 0x1000000), (4, 0x40)], 0x0, 0x0, 0x0, 0x0, 0x0⟩
  | .QD_PRB_RAW => ⟨0x10030418, [(8, 0x1000000), (4, 0x40)], 0x0, 0x0, 0x0, 0x0, 0x0⟩
  | .QD_PRB_CTRL => ⟨0x1003041c, [(8, 0x1000000), (4, 0x40)], 0x0, 0x0, 0x0, 0x3, 0x0⟩
  | .PG_CFG => ⟨0x10040000, [(8, 0x1000000), (16, 0x100)], 0xb0ffff3f, 0x0, 0x0, 0x0, 0x0⟩
  | .PG_MIN_DUR => ⟨0x10040004, [(8, 0x1000000), (16, 0x100)], 0xffffffff, 0x0, 0x0, 0x0, 0xffffffff⟩
  | .PG_CTRL => ⟨0x10040008, [(8, 0x1000000), (16, 0x100)], 0x0, 0x0, 0x0, 0x1f, 0x0⟩
  | .PG_STATE => ⟨0x1004000c, [(8, 0x1000000), (16, 0x100)], 0x0, 0x0, 0x4000, 0x0, 0x0⟩
  | .PG_EVENT => ⟨0x10040010, [(8, 0x1000000), (16, 0x100)], 0x0, 0x0, 0x1f, 0x0, 0x0⟩
  | .PG_BANK => ⟨0x10040014, [(8, 0x1000000), (16, 0x100)], 0x0, 0x0, 0x3000, 0x0, 0x0⟩
  | .PG_SEG => ⟨0x10040018, [(8, 0x1000000), (16, 0x100)], 0x0, 0x0, 0x0, 0x0, 0x0⟩
  | .PG_DECEL => ⟨0x1004001c, [(8, 0x1000000), (16, 0x100)], 0xffffffff, 0x0, 0x0, 0x0, 0x0⟩
  | .PG_FB_DECEL => ⟨0x10040020, [(8, 0x1000000), (16, 0x100)], 0xffffffff, 0x0, 0x0, 0x0, 0x0⟩
  | .PG_POS_LO => ⟨0x10040024, [(8, 0x1000000), (16, 0x100)], 0x0, 0x0, 0x0, 0x0, 0x0⟩
  | .PG_POS_HI => ⟨0x10040028, [(8, 0x1000000), (16, 0x100)], 0x0, 0x0, 0x0, 0x0, 0x0⟩
  | .PG_VEL_LO => ⟨0x1004002c, [(8, 0x1000000), (16, 0x100)], 0x0, 0x0, 0x0, 0x0, 0x0⟩
  | .PG_VEL_HI => ⟨0x10040030, [(8, 0x1000000), (16, 0x100)], 0x0, 0x0, 0x0, 0x0, 0x0⟩
  | .PG_TAU_LO => ⟨0x10040034, [(8, 0x1000000), (16, 0x100)], 0x0, 0x0, 0x0, 0x0, 0x0⟩
  | .PG_TAU_HI => ⟨0x10040038, [(8, 0x1000000), (16, 0x100)], 0x0, 0x0, 0x0, 0x0, 0x0⟩
  | .PG_HOME_CFG => ⟨0x10040040, [(8, 0x1000000), (16, 0x100)], 0xf8ff00ff, 0x0, 0x0, 0x0, 0x8000000⟩
  | .PG_LIM_CFG => ⟨0x10040044, [(8, 0x1000000), (16, 0x100)], 0xc000ffff, 0x0, 0x0, 0x0, 0xc0000000⟩
  | .PG_HOME_V => ⟨0x10040048, [(8, 0x1000000), (16, 0x100)], 0xffffffff, 0x0, 0x0, 0x0, 0x0⟩
  | .PG_HOME_CREEP => ⟨0x1004004c, [(8, 0x1000000), (16, 0x100)], 0xffffffff, 0x0, 0x0, 0x0, 0x0⟩
  | .PG_HOME_ACC => ⟨0x10040050, [(8, 0x1000000), (16, 0x100)], 0xffffffff, 0x0, 0x0, 0x0, 0x0⟩
  | .PG_HOME_REL => ⟨0x10040054, [(8, 0x1000000), (16, 0x100)], 0xffffffff, 0x0, 0x0, 0x0, 0x0⟩
  | .PG_HOME_IDXWIN => ⟨0x10040058, [(8, 0x1000000), (16, 0x100)], 0xffffffff, 0x0, 0x0, 0x0, 0x0⟩
  | .PG_HOME_TO => ⟨0x1004005c, [(8, 0x1000000), (16, 0x100)], 0xfffff, 0x0, 0x0, 0x0, 0xea60⟩
  | .PG_HOME_POS_LO => ⟨0x10040060, [(8, 0x1000000), (16, 0x100)], 0xffffffff, 0x0, 0x0, 0x0, 0x0⟩
  | .PG_HOME_POS_HI => ⟨0x10040064, [(8, 0x1000000), (16, 0x100)], 0xffffffff, 0x0, 0x0, 0x0, 0x0⟩
  | .PG_PULSE_CFG => ⟨0x10040480, [(8, 0x1000000), (4, 0x100)], 0xc0ffffff, 0x0, 0x0, 0x0, 0x51432⟩
  | .PG_RES_CFG => ⟨0x10040484, [(8, 0x1000000), (4, 0x100)], 0x3ffff0ff, 0x0, 0x0, 0x0, 0x8000000⟩
  | .PG_RES_THR => ⟨0x10040488, [(8, 0x1000000), (4, 0x100), (3, 0x4)], 0xffffff, 0x0, 0x0, 0x0, 0x0⟩
  | .PG_RES_HYS => ⟨0x10040494, [(8, 0x1000000), (4, 0x100)], 0xffffff, 0x0, 0x0, 0x0, 0x0⟩
  | .PG_PULSE_STAT => ⟨0x10040498, [(8, 0x1000000), (4, 0x100)], 0x0, 0x0, 0x1, 0x0, 0x0⟩
  | .PG_ISSUED_LO => ⟨0x1004049c, [(8, 0x1000000), (4, 0x100)], 0x0, 0x0, 0x0, 0x0, 0x0⟩
  | .PG_ISSUED_HI => ⟨0x100404a0, [(8, 0x1000000), (4, 0x100)], 0x0, 0x0, 0x0, 0x0, 0x0⟩
  | .PG_VWORD_LO => ⟨0x100404a4, [(8, 0x1000000), (4, 0x100)], 0x0, 0x0, 0x0, 0x0, 0x0⟩
  | .PG_VWORD_HI => ⟨0x100404a8, [(8, 0x1000000), (4, 0x100)], 0x0, 0x0, 0x0, 0x0, 0x0⟩
  | .PG_AX_CTRL => ⟨0x100404b0, [(8, 0x1000000), (4, 0x100)], 0x0, 0x0, 0x0, 0x3, 0x0⟩
  | .PG_AX_STATE => ⟨0x100404b4, [(8, 0x1000000), (4, 0x100)], 0x0, 0x0, 0x8000, 0x0, 0x0⟩
  | .GR_PLG_CFG => ⟨0x30000, [(8, 0x40)], 0x800fffff, 0x0, 0x0, 0x0, 0x0⟩
  | .GR_PLG_PHASE => ⟨0x30004, [(8, 0x40)], 0xfffff, 0x0, 0x0, 0x0, 0x0⟩
  | .GR_PLG_DF_RUN => ⟨0x30008, [(8, 0x40)], 0xffffffff, 0x0, 0x0, 0x0, 0x40000000⟩
  | .GR_PLG_DF_STOP => ⟨0x3000c, [(8, 0x40)], 0xffffffff, 0x0, 0x0, 0x0, 0x40000000⟩
  | .GR_PLG_DF_FAULT => ⟨0x30010, [(8, 0x40)], 0xffffffff, 0x0, 0x0, 0x0, 0x40000000⟩
  | .GR_PLG_FEED => ⟨0x30014, [(8, 0x40)], 0x0, 0xffffffff, 0x0, 0x0, 0x40000000⟩
  | .GR_PLG_CTRL => ⟨0x30018, [(8, 0x40)], 0x0, 0x0, 0x0, 0xf, 0x0⟩
  | .GR_PLG_STATE => ⟨0x3001c, [(8, 0x40)], 0x0, 0x0, 0x8700, 0x0, 0x0⟩
  | .GR_PLG_FNOW => ⟨0x30020, [(8, 0x40)], 0x0, 0x0, 0x0, 0x0, 0x0⟩
  | .GR_PLG_TAU_LO => ⟨0x30024, [(8, 0x40)], 0x0, 0x0, 0x0, 0x0, 0x0⟩
  | .GR_PLG_TAU_HI => ⟨0x30028, [(8, 0x40)], 0x0, 0x0, 0x0, 0x0, 0x0⟩
  | .GR_FOLLOW => ⟨0x10050000, [(8, 0x1000000), (16, 0x80)], 0x8730ff00, 0x0, 0x0, 0x0, 0x0⟩
  | .GR_GEAR_NUM => ⟨0x10050004, [(8, 0x1000000), (16, 0x80)], 0xffffffff, 0x0, 0x0, 0x0, 0x1⟩
  | .GR_GEAR_DEN => ⟨0x10050008, [(8, 0x1000000), (16, 0x80)], 0xffffffff, 0x0, 0x0, 0x0, 0x1⟩
  | .GR_CLUTCH_CFG => ⟨0x1005000c, [(8, 0x1000000), (16, 0x80)], 0xf0000000, 0x0, 0x0, 0x0, 0x0⟩
  | .GR_CLUTCH_D => ⟨0x10050010, [(8, 0x1000000), (16, 0x80)], 0xffffffff, 0x0, 0x0, 0x0, 0x1⟩
  | .GR_CLUTCH_T => ⟨0x10050014, [(8, 0x1000000), (16, 0x80)], 0xfffff, 0x0, 0x0, 0x0, 0x1⟩
  | .GR_ENG_POS_LO => ⟨0x10050018, [(8, 0x1000000), (16, 0x80)], 0xffffffff, 0x0, 0x0, 0x0, 0x0⟩
  | .GR_ENG_POS_HI => ⟨0x1005001c, [(8, 0x1000000), (16, 0x80)], 0xffffffff, 0x0, 0x0, 0x0, 0x0⟩
  | .GR_DIS_POS_LO => ⟨0x10050020, [(8, 0x1000000), (16, 0x80)], 0xffffffff, 0x0, 0x0, 0x0, 0x0⟩
  | .GR_DIS_POS_HI => ⟨0x10050024, [(8, 0x1000000), (16, 0x80)], 0xffffffff, 0x0, 0x0, 0x0, 0x0⟩
  | .GR_CLUTCH_CTRL => ⟨0x10050028, [(8, 0x1000000), (16, 0x80)], 0x0, 0x0, 0x0, 0x7, 0x0⟩
  | .GR_CLUTCH_STATE => ⟨0x1005002c, [(8, 0x1000000), (16, 0x80)], 0x0, 0x0, 0xa000, 0x0, 0x0⟩
  | .GR_OFS_LO => ⟨0x10050030, [(8, 0x1000000), (16, 0x80)], 0x0, 0x0, 0x0, 0x0, 0x0⟩
  | .GR_OFS_HI => ⟨0x10050034, [(8, 0x1000000), (16, 0x80)], 0x0, 0x0, 0x0, 0x0, 0x0⟩
  | .GR_CAM_CFG => ⟨0x10050038, [(8, 0x1000000), (16, 0x80)], 0xffff3f, 0x0, 0x0, 0x0, 0x0⟩
  | .GR_CAM_MIN_DX => ⟨0x1005003c, [(8, 0x1000000), (16, 0x80)], 0xffffffff, 0x0, 0x0, 0x0, 0xffffffff⟩
  | .GR_CAM_VMAX => ⟨0x10050040, [(8, 0x1000000), (16, 0x80)], 0xffffffff, 0x0, 0x0, 0x0, 0xffffffff⟩
  | .GR_CAM_M0_LO => ⟨0x10050044, [(8, 0x1000000), (16, 0x80)], 0xffffffff, 0x0, 0x0, 0x0, 0x0⟩
  | .GR_CAM_M0_HI => ⟨0x10050048, [(8, 0x1000000), (16, 0x80)], 0xffffffff, 0x0, 0x0, 0x0, 0x0⟩
  | .GR_CAM_CTRL => ⟨0x1005004c, [(8, 0x1000000), (16, 0x80)], 0x0, 0x0, 0x0, 0x7, 0x0⟩
  | .GR_CAM_STATUS => ⟨0x10050050, [(8, 0x1000000), (16, 0x80)], 0x0, 0x0, 0x7000, 0x0, 0x0⟩
  | .GR_NX_CTRL => ⟨0x10050460, [(8, 0x1000000), (8, 0x80)], 0x0, 0x0, 0x0, 0x3, 0x0⟩
  | .GR_NX_STATE => ⟨0x10050464, [(8, 0x1000000), (8, 0x80)], 0x0, 0x0, 0xb000, 0x0, 0x0⟩
  | .GR_NX_CFG => ⟨0x10050468, [(8, 0x1000000), (8, 0x80)], 0xbfff3fff, 0x0, 0x0, 0x0, 0x3e803e8⟩
  | .GR_NX_FAULT_SP => ⟨0x1005046c, [(8, 0x1000000), (8, 0x80)], 0xffffffff, 0x0, 0x0, 0x0, 0x0⟩
  | .GR_NX_FBAGE => ⟨0x10050470, [(8, 0x1000000), (8, 0x80)], 0x0, 0x0, 0x0, 0x0, 0x0⟩
  | .GR_XM => ⟨0x10050800, [(8, 0x1000000), (8, 0x4)], 0x870f, 0x0, 0x0, 0x0, 0x0⟩
  | .GR_CMP_CFG => ⟨0x10050c00, [(8, 0x1000000), (4, 0x40)], 0x8fff3339, 0x0, 0x0, 0x0, 0x100⟩
  | .GR_CMP_WIDTH => ⟨0x10050c04, [(8, 0x1000000), (4, 0x40)], 0xfffff, 0x0, 0x0, 0x0, 0x1⟩
  | .GR_CMP_POS_LO => ⟨0x10050c08, [(8, 0x1000000), (4, 0x40)], 0x0, 0xffffffff, 0x0, 0x0, 0x0⟩
  | .GR_CMP_POS_HI => ⟨0x10050c0c, [(8, 0x1000000), (4, 0x40)], 0x0, 0xffffffff, 0x0, 0x0, 0x0⟩
  | .GR_CMP_PITCH_LO => ⟨0x10050c10, [(8, 0x1000000), (4, 0x40)], 0x0, 0xffffffff, 0x0, 0x0, 0x0⟩
  | .GR_CMP_PITCH_HI => ⟨0x10050c14, [(8, 0x1000000), (4, 0x40)], 0x0, 0xffffffff, 0x0, 0x0, 0x0⟩
  | .GR_CMP_COUNT => ⟨0x10050c18, [(8, 0x1000000), (4, 0x40)], 0x0, 0xffff, 0x0, 0x0, 0x0⟩
  | .GR_CMP_CTRL => ⟨0x10050c1c, [(8, 0x1000000), (4, 0x40)], 0x0, 0x0, 0x0, 0x7, 0x0⟩
  | .GR_CMP_STATUS => ⟨0x10050c20, [(8, 0x1000000), (4, 0x40)], 0x0, 0x0, 0x30, 0x0, 0x0⟩
  | .GR_CMP_TS_LO => ⟨0x10050c24, [(8, 0x1000000), (4, 0x40)], 0x0, 0x0, 0x0, 0x0, 0x0⟩
  | .GR_CMP_TS_HI => ⟨0x10050c28, [(8, 0x1000000), (4, 0x40)], 0x0, 0x0, 0x0, 0x0, 0x0⟩
  | .GR_CMP_NEXT_LO => ⟨0x10050c2c, [(8, 0x1000000), (4, 0x40)], 0x0, 0x0, 0x0, 0x0, 0x0⟩
  | .GR_CMP_NEXT_HI => ⟨0x10050c30, [(8, 0x1000000), (4, 0x40)], 0x0, 0x0, 0x0, 0x0, 0x0⟩
  | .SQ_CFG => ⟨0x10060000, [(8, 0x1000000)], 0xffffffff, 0x0, 0x0, 0x0, 0x0⟩
  | .SQ_INBOX => ⟨0x10060004, [(8, 0x1000000)], 0xffffffff, 0x0, 0x0, 0x0, 0x0⟩
  | .SQ_CTRL => ⟨0x10060008, [(8, 0x1000000)], 0x0, 0x0, 0x0, 0xf, 0x0⟩
  | .SQ_STATUS => ⟨0x1006000c, [(8, 0x1000000)], 0x0, 0x0, 0x30, 0x0, 0x0⟩
  | .SQ_EVT => ⟨0x10060010, [(8, 0x1000000)], 0x0, 0x0, 0x0, 0x0, 0x0⟩
  | .SQ_DOORBELL => ⟨0x10060014, [(8, 0x1000000)], 0x0, 0x0, 0x0, 0xffffffff, 0x0⟩
  | .SQ_DISP_MAX => ⟨0x10060018, [(8, 0x1000000)], 0x0, 0x0, 0x0, 0x0, 0x0⟩
  | .SQ_XFER_STAT => ⟨0x1006001c, [(8, 0x1000000)], 0x0, 0x0, 0x0, 0x0, 0x0⟩
  | .SQ_MB_STALE => ⟨0x10060020, [(8, 0x1000000)], 0x0, 0x0, 0x0, 0x0, 0x0⟩
  | .SQ_MBIN => ⟨0x10060100, [(8, 0x1000000), (16, 0x4)], 0x0, 0x0, 0x0, 0x0, 0x0⟩
  | .SQ_MBOUT => ⟨0x10060140, [(8, 0x1000000), (16, 0x4)], 0x0, 0x0, 0x0, 0x0, 0x0⟩
  | .SQ_MBTO => ⟨0x10060180, [(8, 0x1000000), (16, 0x4)], 0xfffff, 0x0, 0x0, 0x0, 0x0⟩
  | .AQ_RING => ⟨0x10070000, [(8, 0x1000000)], 0x8fffffff, 0x0, 0x0, 0x0, 0x0⟩
  | .AQ_SAMPLE => ⟨0x10070004, [(8, 0x1000000)], 0xf000ffff, 0x0, 0x0, 0x0, 0x1⟩
  | .AQ_PRE => ⟨0x10070008, [(8, 0x1000000)], 0xffffff, 0x0, 0x0, 0x0, 0x0⟩
  | .AQ_POST => ⟨0x1007000c, [(8, 0x1000000)], 0xffffff, 0x0, 0x0, 0x0, 0x1⟩
  | .AQ_CH => ⟨0x10070040, [(8, 0x1000000), (16, 0x4)], 0xc0ff, 0x0, 0x0, 0x0, 0x0⟩
  | .AQ_TCMP => ⟨0x10070080, [(8, 0x1000000), (8, 0x8)], 0x8f030000, 0x0, 0x0, 0x0, 0x0⟩
  | .AQ_TTHR => ⟨0x10070084, [(8, 0x1000000), (8, 0x8)], 0xffffffff, 0x0, 0x0, 0x0, 0x0⟩
  | .AQ_TSTATE => ⟨0x100700c0, [(8, 0x1000000), (8, 0x4)], 0xfff0fff0, 0x0, 0x0, 0x0, 0x0⟩
  | .AQ_TCNT => ⟨0x100700e0, [(8, 0x1000000), (2, 0x4)], 0xfc00ffff, 0x0, 0x0, 0x0, 0x1⟩
  | .AQ_TTMR => ⟨0x100700e8, [(8, 0x1000000), (2, 0x4)], 0x7fffff, 0x0, 0x0, 0x0, 0x3e8⟩
  | .AQ_TFIELD => ⟨0x100700f0, [(8, 0x1000000)], 0x7f, 0x0, 0x0, 0x0, 0x40⟩
  | .AQ_CTRL => ⟨0x10070100, [(8, 0x1000000)], 0x0, 0x0, 0x0, 0xf000e, 0x0⟩
  | .AQ_STATUS => ⟨0x10070104, [(8, 0x1000000)], 0x0, 0x0, 0x5000, 0x0, 0x0⟩
  | .AQ_SLOTS => ⟨0x10070108, [(8, 0x1000000)], 0x0, 0x0, 0x0, 0x0, 0x0⟩
  | .AQ_MISSED => ⟨0x1007010c, [(8, 0x1000000)], 0x0, 0x0, 0x0, 0x0, 0x0⟩
  | .AQ_GAPS => ⟨0x10070110, [(8, 0x1000000)], 0x0, 0x0, 0x0, 0x0, 0x0⟩
  | .AQ_GAP_ROWS => ⟨0x10070114, [(8, 0x1000000)], 0x0, 0x0, 0x0, 0x0, 0x0⟩
  | .AQ_ROWS => ⟨0x10070118, [(8, 0x1000000)], 0x0, 0x0, 0x0, 0x0, 0x0⟩
  | .AQ_TRIG_LO => ⟨0x1007011c, [(8, 0x1000000)], 0x0, 0x0, 0x0, 0x0, 0x0⟩
  | .AQ_TRIG_HI => ⟨0x10070120, [(8, 0x1000000)], 0x0, 0x0, 0x0, 0x0, 0x0⟩
  | .AQ_TCNT_VAL => ⟨0x10070124, [(8, 0x1000000)], 0x0, 0x0, 0x0, 0x0, 0x0⟩
  | .AQ_HUB_ARM_LO => ⟨0x40000, [], 0x0, 0xffffffff, 0x0, 0x0, 0x0⟩
  | .AQ_HUB_ARM_HI => ⟨0x40004, [], 0x0, 0xffffffff, 0x0, 0x0, 0x0⟩
  | .AQ_HUB_CTRL => ⟨0x40008, [], 0x0, 0x0, 0x0, 0xff000f, 0x0⟩
  | .AQ_HUB_STATUS => ⟨0x4000c, [], 0x0, 0x0, 0xff00, 0x0, 0x0⟩
  | .AQ_HUB_TRIG_LO => ⟨0x40010, [], 0x0, 0x0, 0x0, 0x0, 0x0⟩
  | .AQ_HUB_TRIG_HI => ⟨0x40014, [], 0x0, 0x0, 0x0, 0x0, 0x0⟩
  | .AQ_HUB_TRIGSRC => ⟨0x40018, [], 0x0, 0x0, 0x0, 0x0, 0x0⟩
  | .BL_NET_CFG => ⟨0x50000, [], 0xf800ffff, 0x0, 0x0, 0x0, 0x0⟩
  | .BL_NET_PHASE => ⟨0x50004, [], 0x3ffffff, 0x0, 0x0, 0x0, 0x0⟩
  | .BL_MODE => ⟨0x50008, [], 0x7, 0x0, 0x0, 0x0, 0x0⟩
  | .BL_NET_STATUS => ⟨0x5000c, [], 0x0, 0x0, 0x100, 0x0, 0x0⟩
  | .BL_MATRIX_LO => ⟨0x50010, [], 0x0, 0x0, 0x0, 0x0, 0x0⟩
  | .BL_MATRIX_HI => ⟨0x50014, [], 0x0, 0x0, 0x0, 0x0, 0x0⟩
  | .BL_ANCHOR_LO => ⟨0x50018, [], 0x0, 0x0, 0x0, 0x0, 0x0⟩
  | .BL_ANCHOR_HI => ⟨0x5001c, [], 0x0, 0x0, 0x0, 0x0, 0x0⟩
  | .BL_PORT_CFG => ⟨0x50100, [(12, 0x80)], 0xfe001fff, 0x0, 0x0, 0x0, 0x0⟩
  | .BL_PORT_ID_LO => ⟨0x50104, [(12, 0x80)], 0xffffffff, 0x0, 0x0, 0x0, 0x0⟩
  | .BL_PORT_ID_HI => ⟨0x50108, [(12, 0x80)], 0xffffffff, 0x0, 0x0, 0x0, 0x0⟩
  | .BL_PORT_FWD => ⟨0x5010c, [(12, 0x80)], 0xfff, 0x0, 0x0, 0x0, 0x0⟩
  | .BL_PORT_CTRL => ⟨0x50110, [(12, 0x80)], 0x0, 0x0, 0x0, 0x7, 0x0⟩
  | .BL_PORT_STATE => ⟨0x50114, [(12, 0x80)], 0x0, 0x0, 0x8000, 0x0, 0x0⟩
  | .BL_PORT_ERR => ⟨0x50118, [(12, 0x80)], 0x0, 0x0, 0x0, 0x0, 0x0⟩
  | .BL_PORT_GUARD => ⟨0x5011c, [(12, 0x80)], 0x0, 0x0, 0x0, 0x0, 0x0⟩
  | .BL_PORT_RED => ⟨0x50124, [(12, 0x80)], 0x0, 0x0, 0x0, 0x0, 0x0⟩
  | .BL_PORT_MISC => ⟨0x50120, [(12, 0x80)], 0x0, 0x0, 0x0, 0x0, 0x0⟩
  | .BL_PORT_OFS => ⟨0x50128, [(12, 0x80)], 0x0, 0x0, 0x0, 0x0, 0x0⟩
  | .BL_PORT_OFS_MEAN => ⟨0x5012c, [(12, 0x80)], 0x0, 0x0, 0x0, 0x0, 0x0⟩
  | .BL_PORT_DRIFT => ⟨0x50130, [(12, 0x80)], 0x0, 0x0, 0x0, 0x0, 0x0⟩
  | .BL_PORT_RXID_LO => ⟨0x50134, [(12, 0x80)], 0x0, 0x0, 0x0, 0x0, 0x0⟩
  | .BL_PORT_RXID_HI => ⟨0x50138, [(12, 0x80)], 0x0, 0x0, 0x0, 0x0, 0x0⟩
  | .BL_PORT_DQ => ⟨0x5013c, [(12, 0x80)], 0x0, 0x0, 0x0, 0x0, 0x0⟩
  | .BL_NX_BIND => ⟨0x51000, [(64, 0x20)], 0x8f70ffff, 0x0, 0x0, 0x0, 0x0⟩
  | .BL_NX_LEAD => ⟨0x51004, [(64, 0x20)], 0x7fffff, 0x0, 0x0, 0x0, 0x0⟩
  | .BL_NX_SPK => ⟨0x51008, [(64, 0x20)], 0xffffffff, 0x0, 0x0, 0x0, 0x40000000⟩
  | .BL_NX_CFG => ⟨0x5100c, [(64, 0x20)], 0x3f00ff00, 0x0, 0x0, 0x0, 0x300⟩
  | .BL_NX_TLIM_P => ⟨0x51010, [(64, 0x20)], 0xffffffff, 0x0, 0x0, 0x0, 0x7fffffff⟩
  | .BL_NX_TLIM_N => ⟨0x51014, [(64, 0x20)], 0xffffffff, 0x0, 0x0, 0x0, 0x80000000⟩
  | .BL_NX_STAT => ⟨0x51018, [(64, 0x20)], 0x0, 0x0, 0x0, 0x0, 0x0⟩
  | .BL_SPIN => ⟨0x52000, [(8, 0x80), (32, 0x4)], 0x8f7000ff, 0x0, 0x0, 0x0, 0x0⟩
  | .NT_NOW_LO => ⟨0x60000, [], 0x0, 0x0, 0x0, 0x0, 0x0⟩
  | .NT_NOW_HI => ⟨0x60004, [], 0x0, 0x0, 0x0, 0x0, 0x0⟩
  | .NT_FRAC => ⟨0x60008, [], 0x0, 0x0, 0x0, 0x0, 0x0⟩
  | .NT_RATE => ⟨0x6000c, [], 0x0, 0xffffffff, 0x0, 0x0, 0x0⟩
  | .NT_STEP_LO => ⟨0x60010, [], 0x0, 0xffffffff, 0x0, 0x0, 0x0⟩
  | .NT_STEP_HI => ⟨0x60014, [], 0x0, 0xffffffff, 0x0, 0x0, 0x0⟩
  | .NT_CTRL => ⟨0x60018, [], 0x0, 0x0, 0x0, 0x3, 0x0⟩
  | .NT_STATUS => ⟨0x6001c, [], 0x0, 0x0, 0x3, 0x0, 0x0⟩
  | .NT_CAP_LAT_LO => ⟨0x60020, [], 0x0, 0x0, 0x0, 0x0, 0x0⟩
  | .NT_CAP_LAT_HI => ⟨0x60024, [], 0x0, 0x0, 0x0, 0x0, 0x0⟩
  | .NT_CAP_NT_LO => ⟨0x60028, [], 0x0, 0x0, 0x0, 0x0, 0x0⟩
  | .NT_CAP_NT_HI => ⟨0x6002c, [], 0x0, 0x0, 0x0, 0x0, 0x0⟩
  | .NT_LSTEP_TICK_LO => ⟨0x60030, [], 0x0, 0x0, 0x0, 0x0, 0x0⟩
  | .NT_LSTEP_TICK_HI => ⟨0x60034, [], 0x0, 0x0, 0x0, 0x0, 0x0⟩
  | .NT_LSTEP_AMT_LO => ⟨0x60038, [], 0x0, 0x0, 0x0, 0x0, 0x0⟩
  | .NT_LSTEP_AMT_HI => ⟨0x6003c, [], 0x0, 0x0, 0x0, 0x0, 0x0⟩
  | .NT_CAP_EPOCH => ⟨0x60040, [], 0x0, 0x0, 0x0, 0x0, 0x0⟩
  | .NT_TEO_CFG => ⟨0x60044, [], 0xff, 0x0, 0x0, 0x0, 0x0⟩
  | .NT_EV_CFG => ⟨0x60100, [(32, 0x40)], 0x0, 0xb7077300, 0x0, 0x0, 0x0⟩
  | .NT_EV_T_LO => ⟨0x60104, [(32, 0x40)], 0x0, 0xffffffff, 0x0, 0x0, 0x0⟩
  | .NT_EV_T_HI => ⟨0x60108, [(32, 0x40)], 0x0, 0xffffffff, 0x0, 0x0, 0x0⟩
  | .NT_EV_PER => ⟨0x6010c, [(32, 0x40)], 0x0, 0xffffffff, 0x0, 0x0, 0xa⟩
  | .NT_EV_WIDTH => ⟨0x60110, [(32, 0x40)], 0x0, 0xffffffff, 0x0, 0x0, 0xa⟩
  | .NT_EV_CTRL => ⟨0x60114, [(32, 0x40)], 0x0, 0x0, 0x0, 0x3, 0x0⟩
  | .NT_EV_STAT => ⟨0x60118, [(32, 0x40)], 0x0, 0x0, 0xe, 0x0, 0x0⟩
  | .NT_EV_LAT_LO => ⟨0x6011c, [(32, 0x40)], 0x0, 0x0, 0x0, 0x0, 0x0⟩
  | .NT_EV_LAT_HI => ⟨0x60120, [(32, 0x40)], 0x0, 0x0, 0x0, 0x0, 0x0⟩
  | .NT_EV_NT_LO => ⟨0x60124, [(32, 0x40)], 0x0, 0x0, 0x0, 0x0, 0x0⟩
  | .NT_EV_NT_HI => ⟨0x60128, [(32, 0x40)], 0x0, 0x0, 0x0, 0x0, 0x0⟩
  | .NT_EV_EPOCH => ⟨0x6012c, [(32, 0x40)], 0x0, 0x0, 0x0, 0x0, 0x0⟩
  | .NT_PTP_CFG => ⟨0x60c00, [(2, 0x40)], 0x8fff0fff, 0x0, 0x0, 0x0, 0x0⟩
  | .NT_PTP_STAT => ⟨0x60c04, [(2, 0x40)], 0x0, 0x0, 0x7, 0x0, 0x0⟩
  | .NT_PTP_TS_ID => ⟨0x60c08, [(2, 0x40)], 0x0, 0x0, 0x0, 0x0, 0x0⟩
  | .NT_PTP_TS_LO => ⟨0x60c0c, [(2, 0x40)], 0x0, 0x0, 0x0, 0x0, 0x0⟩
  | .NT_PTP_TS_HI => ⟨0x60c10, [(2, 0x40)], 0x0, 0x0, 0x0, 0x0, 0x0⟩
  | .NT_PTP_TS_CTRL => ⟨0x60c14, [(2, 0x40)], 0x0, 0x0, 0x0, 0x1, 0x0⟩
  | .NT_BL_RX_LO => ⟨0x60d00, [(12, 0x20)], 0x0, 0x0, 0x0, 0x0, 0x0⟩
  | .NT_BL_RX_HI => ⟨0x60d04, [(12, 0x20)], 0x0, 0x0, 0x0, 0x0, 0x0⟩
  | .NT_BL_MS_LAT_LO => ⟨0x60d08, [(12, 0x20)], 0x0, 0x0, 0x0, 0x0, 0x0⟩
  | .NT_BL_MS_LAT_HI => ⟨0x60d0c, [(12, 0x20)], 0x0, 0x0, 0x0, 0x0, 0x0⟩
  | .NT_BL_MS_NT_LO => ⟨0x60d10, [(12, 0x20)], 0x0, 0x0, 0x0, 0x0, 0x0⟩
  | .NT_BL_MS_NT_HI => ⟨0x60d14, [(12, 0x20)], 0x0, 0x0, 0x0, 0x0, 0x0⟩
  | .NT_BL_EPOCH => ⟨0x60d18, [(12, 0x20)], 0x0, 0x0, 0x0, 0x0, 0x0⟩
  | .FIO_STATUS => ⟨0x20000000, [(4, 0x1000000)], 0x0, 0x0, 0x100, 0x0, 0x0⟩
  | .FIO_WD => ⟨0x20000004, [(4, 0x1000000)], 0x1ff, 0x0, 0x0, 0x0, 0x64⟩
  | .FIO_SAFE => ⟨0x20000008, [(4, 0x1000000)], 0xffff, 0x0, 0x0, 0x0, 0x0⟩
  | .FIO_CTRL => ⟨0x2000000c, [(4, 0x1000000)], 0x0, 0x0, 0x0, 0x3, 0x0⟩
  | .FIO_IN => ⟨0x20000010, [(4, 0x1000000)], 0x0, 0x0, 0x0, 0x0, 0x0⟩
  | .FIO_OUT_SET => ⟨0x20000014, [(4, 0x1000000)], 0x0, 0x0, 0x0, 0xffff, 0x0⟩
  | .FIO_OUT_CLR => ⟨0x20000018, [(4, 0x1000000)], 0x0, 0x0, 0x0, 0xffff, 0x0⟩
  | .FIO_OUT_CMD => ⟨0x2000001c, [(4, 0x1000000)], 0x0, 0x0, 0x0, 0x0, 0x0⟩
  | .FIO_CNT => ⟨0x20000020, [(4, 0x1000000)], 0x0, 0x0, 0x0, 0x0, 0x0⟩
  | .FIO_DIAG_SUM => ⟨0x20000024, [(4, 0x1000000)], 0x0, 0x0, 0x0, 0x0, 0x0⟩
  | .FIO_CH_CFG => ⟨0x20000100, [(4, 0x1000000), (16, 0x8)], 0xffffffff, 0x0, 0x0, 0x0, 0x0⟩
  | .FIO_CH_PAR => ⟨0x20000104, [(4, 0x1000000), (16, 0x8)], 0xe000ffff, 0x0, 0x0, 0x0, 0x1⟩
  | .FIO_DIAG => ⟨0x20000180, [(4, 0x1000000), (16, 0x4)], 0x0, 0x0, 0x3e, 0x0, 0x0⟩
  | .SF_STATUS => ⟨0x70000, [], 0x0, 0x0, 0x10, 0x0, 0x0⟩
  | .SF_VERIFY => ⟨0x70004, [], 0x0, 0x0, 0x0, 0xffffffff, 0x0⟩
  | .SF_PAR_CHECK => ⟨0x70008, [], 0xffffffff, 0x0, 0x0, 0x0, 0x0⟩
  | .SF_PAR_CRC => ⟨0x7000c, [], 0x0, 0x0, 0x0, 0x0, 0x0⟩
  | .SF_VERIFIED => ⟨0x70010, [], 0x0, 0x0, 0x0, 0x0, 0x0⟩
  | .SF_ZONE_CFG => ⟨0x70100, [(16, 0x10)], 0xf3ff00ff, 0x0, 0x0, 0x0, 0x640000⟩
  | .SF_ZONE_IN => ⟨0x70104, [(16, 0x10)], 0xffffffff, 0x0, 0x0, 0x0, 0x0⟩
  | .SF_ZONE_STAT => ⟨0x70108, [(16, 0x10)], 0x0, 0x0, 0x200, 0x0, 0x0⟩
  | .SF_ZONE_CTRL => ⟨0x7010c, [(16, 0x10)], 0x0, 0x0, 0x0, 0x1, 0x0⟩
  | .SF_AX_CFG => ⟨0x71000, [(128, 0x20)], 0xff00ffff, 0x0, 0x0, 0x0, 0x0⟩
  | .SF_AX_TIME => ⟨0x71004, [(128, 0x20)], 0x7ffffff, 0x0, 0x0, 0x0, 0x0⟩
  | .SF_AX_GRACE => ⟨0x71008, [(128, 0x20)], 0xfff07ff, 0x0, 0x0, 0x0, 0x12c0000⟩
  | .SF_AX_GRACE_V => ⟨0x7100c, [(128, 0x20)], 0xffffffff, 0x0, 0x0, 0x0, 0x0⟩
  | .SF_AX_BT => ⟨0x71010, [(128, 0x20)], 0xffff3fff, 0x0, 0x0, 0x0, 0x3e8⟩
  | .SF_AX_BT_LIM => ⟨0x71014, [(128, 0x20)], 0xffffffff, 0x0, 0x0, 0x0, 0x0⟩
  | .SF_AX_STO => ⟨0x71018, [(128, 0x20)], 0xffff, 0x0, 0x0, 0x0, 0x0⟩
  | .SF_AX_STATE => ⟨0x72000, [(128, 0x10)], 0x0, 0x0, 0xc00, 0x0, 0x0⟩
  | .SF_AX_CTRL => ⟨0x72004, [(128, 0x10)], 0x0, 0x0, 0x0, 0x7, 0x0⟩
  | .SF_AX_GRACE_LEFT => ⟨0x72008, [(128, 0x10)], 0x0, 0x0, 0x0, 0x0, 0x0⟩
  | .SF_AX_BT_STAT => ⟨0x7200c, [(128, 0x10)], 0x0, 0x0, 0x0, 0x0, 0x0⟩
  | .SF_CONN_CFG => ⟨0x73000, [(48, 0x20)], 0xfff8ffff, 0x0, 0x0, 0x0, 0x0⟩
  | .SF_CONN_UID => ⟨0x73004, [(48, 0x20)], 0xffffffff, 0x0, 0x0, 0x0, 0x0⟩
  | .SF_CONN_WT => ⟨0x73008, [(48, 0x20)], 0xfffff, 0x0, 0x0, 0x0, 0x7d0⟩
  | .SF_CONN_SEND => ⟨0x7300c, [(48, 0x20)], 0x3ff, 0x0, 0x0, 0x0, 0x4⟩
  | .SF_CONN_STAT => ⟨0x73010, [(48, 0x20)], 0x0, 0x0, 0x0, 0x0, 0x0⟩
  | .SF_CONN_RX => ⟨0x73014, [(48, 0x20)], 0x0, 0x0, 0x0, 0x0, 0x0⟩
  | .SF_CONN_CNT => ⟨0x73018, [(48, 0x20)], 0x0, 0x0, 0x0, 0x0, 0x0⟩
  | .SF_CONN_SEQ => ⟨0x7301c, [(48, 0x20)], 0x0, 0x0, 0x0, 0x0, 0x0⟩
  | .SEC_LIFECYCLE => ⟨0x80000, [], 0x0, 0x0, 0x0, 0x0, 0x0⟩
  | .SEC_STATUS => ⟨0x80004, [], 0x0, 0x0, 0x1b, 0x0, 0x0⟩
  | .SEC_SERVICE_LEFT => ⟨0x80008, [], 0x0, 0x0, 0x0, 0x0, 0x0⟩
  | .SEC_CHALLENGE => ⟨0x80010, [(4, 0x4)], 0x0, 0x0, 0x0, 0x0, 0x0⟩
  | .SEC_CTRL => ⟨0x80020, [], 0x0, 0x0, 0x0, 0x1f, 0x0⟩
  | .SEC_RESULT => ⟨0x80024, [], 0x0, 0x0, 0x0, 0x0, 0x0⟩
  | .SEC_ROLLBACK => ⟨0x80028, [], 0x0, 0x0, 0x0, 0x0, 0x0⟩
  | .SEC_REVOKE_VER => ⟨0x8002c, [], 0x0, 0x0, 0x0, 0x0, 0x0⟩
  | .SEC_BOOT_COUNT => ⟨0x80030, [], 0x0, 0x0, 0x0, 0x0, 0x0⟩
  | .SEC_RTC_LO => ⟨0x80034, [], 0x0, 0xffffffff, 0x0, 0x0, 0x0⟩
  | .SEC_RTC_HI => ⟨0x80038, [], 0x0, 0xffffffff, 0x0, 0x0, 0x0⟩
  | .SEC_TAMPER => ⟨0x8003c, [], 0x0, 0x77, 0x0, 0x0, 0x0⟩
  | .SEC_IDLE => ⟨0x80040, [], 0x0, 0xfff, 0x0, 0x0, 0x3c⟩
  | .SEC_SESS_STATE => ⟨0x80100, [(8, 0x10)], 0x0, 0x0, 0x0, 0x0, 0x0⟩
  | .SEC_SESS_CERT => ⟨0x80104, [(8, 0x10)], 0x0, 0x0, 0x0, 0x0, 0x0⟩
  | .SEC_SESS_CTRL => ⟨0x80108, [(8, 0x10)], 0x0, 0x0, 0x0, 0x1, 0x0⟩
  | .SEC_PORT_CFG => ⟨0x80200, [(12, 0x10)], 0xffffff, 0x0, 0x0, 0x0, 0x0⟩
  | .SEC_PORT_STAT => ⟨0x80204, [(12, 0x10)], 0x0, 0x0, 0x0, 0x0, 0x0⟩
  | .SEC_PEER => ⟨0x81000, [(12, 0x40), (12, 0x4)], 0xffffffff, 0x0, 0x0, 0x0, 0x0⟩
  | .HL_FAULT => ⟨0x90000, [], 0x0, 0x0, 0x6, 0x0, 0x0⟩
  | .HL_REPLACE => ⟨0x90004, [], 0x0, 0x0, 0x1ff, 0x0, 0x0⟩
  | .HL_TEMP => ⟨0x90040, [(10, 0x4)], 0x0, 0x0, 0x0, 0x0, 0x0⟩
  | .HL_THERM => ⟨0x90068, [], 0x0, 0x0, 0x0, 0x0, 0x0⟩
  | .HL_MARGIN => ⟨0x90080, [(8, 0x4)], 0x0, 0x0, 0x0, 0x0, 0x0⟩
  | .HL_ECC => ⟨0x900a0, [(3, 0x4)], 0x0, 0x0, 0x0, 0x0, 0x0⟩
  | .HL_WEAR => ⟨0x900b0, [], 0x0, 0x0, 0x0, 0x0, 0x0⟩
  | .HL_HOLDUP => ⟨0x900b4, [], 0x0, 0x0, 0x0, 0x0, 0x0⟩
  | .HL_BARRIER => ⟨0x900c0, [(4, 0x4)], 0x0, 0x0, 0x0, 0x0, 0x0⟩
  | .HL_LOG_SEL => ⟨0x90100, [], 0x0, 0xffffffff, 0x0, 0x0, 0x0⟩
  | .HL_LOG_STAT => ⟨0x90104, [], 0x0, 0x0, 0x0, 0x0, 0x0⟩
  | .HL_LOG_WORD => ⟨0x90110, [(8, 0x4)], 0x0, 0x0, 0x0, 0x0, 0x0⟩
  | .HL_ST_CTRL => ⟨0x90200, [], 0x0, 0x0, 0x0, 0xf0f03, 0x0⟩
  | .HL_ST_STATUS => ⟨0x90204, [], 0x0, 0x0, 0x0, 0x0, 0x0⟩
  | .HL_ST_DETAIL => ⟨0x90208, [], 0x0, 0x0, 0x0, 0x0, 0x0⟩
  | .HP_MAC_CFG => ⟨0xa0000, [(2, 0x40)], 0x80001f00, 0x0, 0x0, 0x0, 0x0⟩
  | .HP_MAC_IP => ⟨0xa0004, [(2, 0x40)], 0xffffffff, 0x0, 0x0, 0x0, 0x0⟩
  | .HP_MAC_ADDR_LO => ⟨0xa0008, [(2, 0x40)], 0x0, 0x0, 0x0, 0x0, 0x0⟩
  | .HP_MAC_ADDR_HI => ⟨0xa000c, [(2, 0x40)], 0x0, 0x0, 0x0, 0x0, 0x0⟩
  | .HP_MAC_STAT => ⟨0xa0010, [(2, 0x40)], 0x0, 0x0, 0x0, 0x0, 0x0⟩
  | .HP_SER_STAT => ⟨0xa0100, [], 0x0, 0x0, 0x4, 0x0, 0x0⟩
  | .HP_RD_LIMIT => ⟨0xa0104, [], 0x1ff, 0x0, 0x0, 0x0, 0x32⟩
  | .HP_SP_CLASS5 => ⟨0xa0140, [(8, 0x4)], 0x0, 0x0, 0x0, 0x0, 0x0⟩
  | .PW_STATUS => ⟨0xb0000, [], 0x0, 0x0, 0x0, 0x0, 0x0⟩
  | .PW_INPUT => ⟨0xb0004, [], 0x0, 0x0, 0x0, 0x0, 0x0⟩
  | .PW_VBAT => ⟨0xb0008, [], 0x0, 0x0, 0x0, 0x0, 0x0⟩
  | .PW_PF_TICK_LO => ⟨0xb000c, [], 0x0, 0x0, 0x0, 0x0, 0x0⟩
  | .PW_PF_TICK_HI => ⟨0xb0010, [], 0x0, 0x0, 0x0, 0x0, 0x0⟩
  | .PW_PF_COUNT => ⟨0xb0014, [], 0x0, 0x0, 0x0, 0x0, 0x0⟩

/-- The registers of 02_timing_lattice.md. -/
def regs_02 : List RegId :=
  [.TL_LATTICE_LO, .TL_LATTICE_HI, .TL_STATUS, .TL_PACE, .TL_TILE_PHASE, .TL_GRP_PERIOD, .TL_GRP_APPLY, .TL_GRP_SLACK, .TL_GRP_MISS,
   .TL_GRP_LASTMISS, .TL_GRP_CTRL, .TL_SP_INTERVAL, .TL_SP_HORIZON, .TL_SP_STATUS]

/-- The registers of 03_images_and_commit.md. -/
def regs_03 : List RegId :=
  [.ID_REV, .CM_STATUS, .CM_CTRL, .CM_APPLY_LO, .CM_APPLY_HI, .CM_RESULT, .CM_ACCEPTED, .CM_APPLIED, .CM_PEEK_ADDR, .CM_PEEK_DATA, .CM_PEEK_STAT,
   .CM_STORE, .IMG_SLOT_STATUS, .IMG_CTRL, .IMG_RESULT, .IMG_ACTIVE_ID]

/-- The registers of 04_control_engine.md. -/
def regs_04 : List RegId :=
  [.CE_LOOP_ALLOC, .CE_LOOP_SRC, .CE_LOOP_OUT, .CE_LOOP_SCALE, .CE_LOOP_LIMHI, .CE_LOOP_LIMLO, .CE_LOOP_KAW, .CE_LOOP_RAMP, .CE_LOOP_TIMING,
   .CE_LOOP_STATUS, .CE_LOOP_OUTVAL, .CE_LOOP_ERR_M, .CE_LOOP_ERR_E, .CE_SEC_COEF, .CE_SEC_CFG, .CE_SEC_STAT, .CE_SCHED_CFG, .CE_SCHED_HYST,
   .CE_SCHED_TSTEP, .CE_SCHED_CTRL, .CE_SCHED_STATUS, .CE_SCHED_VAR, .CE_MODE, .CE_MODE_AT_LO, .CE_MODE_AT_HI, .CE_XIN]

/-- The registers of 05_native_axes.md. -/
def regs_05 : List RegId :=
  [.AX_SLOT_TYPE, .AX_MCLK, .AX_CTRL, .AX_STATE, .AX_TRIP, .AX_STATUS, .AX_PWM_CFG, .AX_PWM_MIN, .AX_PWM_LEAD, .AX_SD_CFG, .AX_SD_GAIN, .AX_SD_OFS,
   .AX_OC, .AX_SUM, .AX_VLIM, .AX_COMM, .AX_COMM_CPR, .AX_COMM_OFS, .AX_COMM_ADV, .AX_DEC, .AX_ALIGN_I, .AX_ALIGN_T, .AX_ALIGN_RES, .AX_DF,
   .AX_STEP_I, .AX_STEP_HOLD, .AX_STEP_THR, .AX_STEP_HYS, .AX_STEP_STAT, .AX_MEAS_ID, .AX_MEAS_IQ, .AX_MEAS_ANGLE, .AX_MEAS_VBUS, .AX_DUTY]

/-- The registers of 06_feedback.md. -/
def regs_06 : List RegId :=
  [.QD_CFG, .QD_ASSIGN, .QD_SPD_WIN, .QD_STILL, .QD_ILL, .QD_FRZ_CFG, .QD_FRZ_T, .QD_FRZ_TQ, .QD_FRZ_KA, .QD_FB_CFG, .QD_FB_NUM, .QD_FB_DEN,
   .QD_CTRL, .QD_REFVAL_LO, .QD_REFVAL_HI, .QD_POS_LO, .QD_POS_HI, .QD_RAW_LO, .QD_RAW_HI, .QD_SPEED_LO, .QD_SPEED_HI, .QD_STATUS, .QD_FAULT,
   .QD_ILL_CNT, .QD_IDX_TS_LO, .QD_IDX_TS_HI, .QD_IDX_POS_LO, .QD_IDX_POS_HI, .QD_POS_OFS_LO, .QD_POS_OFS_HI, .QD_PRB_CFG, .QD_PRB_STAT,
   .QD_PRB_TS_LO, .QD_PRB_TS_HI, .QD_PRB_POS_LO, .QD_PRB_POS_HI, .QD_PRB_RAW, .QD_PRB_CTRL]

/-- The registers of 07_profiles_and_pulse_axes.md. -/
def regs_07 : List RegId :=
  [.PG_CFG, .PG_MIN_DUR, .PG_CTRL, .PG_STATE, .PG_EVENT, .PG_BANK, .PG_SEG, .PG_DECEL, .PG_FB_DECEL, .PG_POS_LO, .PG_POS_HI, .PG_VEL_LO, .PG_VEL_HI,
   .PG_TAU_LO, .PG_TAU_HI, .PG_HOME_CFG, .PG_LIM_CFG, .PG_HOME_V, .PG_HOME_CREEP, .PG_HOME_ACC, .PG_HOME_REL, .PG_HOME_IDXWIN, .PG_HOME_TO,
   .PG_HOME_POS_LO, .PG_HOME_POS_HI, .PG_PULSE_CFG, .PG_RES_CFG, .PG_RES_THR, .PG_RES_HYS, .PG_PULSE_STAT, .PG_ISSUED_LO, .PG_ISSUED_HI,
   .PG_VWORD_LO, .PG_VWORD_HI, .PG_AX_CTRL, .PG_AX_STATE]

/-- The registers of 08_coordinated_motion.md. -/
def regs_08 : List RegId :=
  [.GR_PLG_CFG, .GR_PLG_PHASE, .GR_PLG_DF_RUN, .GR_PLG_DF_STOP, .GR_PLG_DF_FAULT, .GR_PLG_FEED, .GR_PLG_CTRL, .GR_PLG_STATE, .GR_PLG_FNOW,
   .GR_PLG_TAU_LO, .GR_PLG_TAU_HI, .GR_FOLLOW, .GR_GEAR_NUM, .GR_GEAR_DEN, .GR_CLUTCH_CFG, .GR_CLUTCH_D, .GR_CLUTCH_T, .GR_ENG_POS_LO,
   .GR_ENG_POS_HI, .GR_DIS_POS_LO, .GR_DIS_POS_HI, .GR_CLUTCH_CTRL, .GR_CLUTCH_STATE, .GR_OFS_LO, .GR_OFS_HI, .GR_CAM_CFG, .GR_CAM_MIN_DX,
   .GR_CAM_VMAX, .GR_CAM_M0_LO, .GR_CAM_M0_HI, .GR_CAM_CTRL, .GR_CAM_STATUS, .GR_NX_CTRL, .GR_NX_STATE, .GR_NX_CFG, .GR_NX_FAULT_SP, .GR_NX_FBAGE,
   .GR_XM, .GR_CMP_CFG, .GR_CMP_WIDTH, .GR_CMP_POS_LO, .GR_CMP_POS_HI, .GR_CMP_PITCH_LO, .GR_CMP_PITCH_HI, .GR_CMP_COUNT, .GR_CMP_CTRL,
   .GR_CMP_STATUS, .GR_CMP_TS_LO, .GR_CMP_TS_HI, .GR_CMP_NEXT_LO, .GR_CMP_NEXT_HI]

/-- The registers of 09_tile_sequencer.md. -/
def regs_09 : List RegId :=
  [.SQ_CFG, .SQ_INBOX, .SQ_CTRL, .SQ_STATUS, .SQ_EVT, .SQ_DOORBELL, .SQ_DISP_MAX, .SQ_XFER_STAT, .SQ_MB_STALE, .SQ_MBIN, .SQ_MBOUT, .SQ_MBTO]

/-- The registers of 10_acquisition.md. -/
def regs_10 : List RegId :=
  [.AQ_RING, .AQ_SAMPLE, .AQ_PRE, .AQ_POST, .AQ_CH, .AQ_TCMP, .AQ_TTHR, .AQ_TSTATE, .AQ_TCNT, .AQ_TTMR, .AQ_TFIELD, .AQ_CTRL, .AQ_STATUS, .AQ_SLOTS,
   .AQ_MISSED, .AQ_GAPS, .AQ_GAP_ROWS, .AQ_ROWS, .AQ_TRIG_LO, .AQ_TRIG_HI, .AQ_TCNT_VAL, .AQ_HUB_ARM_LO, .AQ_HUB_ARM_HI, .AQ_HUB_CTRL,
   .AQ_HUB_STATUS, .AQ_HUB_TRIG_LO, .AQ_HUB_TRIG_HI, .AQ_HUB_TRIGSRC]

/-- The registers of 11_berath_link.md. -/
def regs_11 : List RegId :=
  [.BL_NET_CFG, .BL_NET_PHASE, .BL_MODE, .BL_NET_STATUS, .BL_MATRIX_LO, .BL_MATRIX_HI, .BL_ANCHOR_LO, .BL_ANCHOR_HI, .BL_PORT_CFG, .BL_PORT_ID_LO,
   .BL_PORT_ID_HI, .BL_PORT_FWD, .BL_PORT_CTRL, .BL_PORT_STATE, .BL_PORT_ERR, .BL_PORT_GUARD, .BL_PORT_RED, .BL_PORT_MISC, .BL_PORT_OFS,
   .BL_PORT_OFS_MEAN, .BL_PORT_DRIFT, .BL_PORT_RXID_LO, .BL_PORT_RXID_HI, .BL_PORT_DQ, .BL_NX_BIND, .BL_NX_LEAD, .BL_NX_SPK, .BL_NX_CFG,
   .BL_NX_TLIM_P, .BL_NX_TLIM_N, .BL_NX_STAT, .BL_SPIN]

/-- The registers of 12_network_time.md. -/
def regs_12 : List RegId :=
  [.NT_NOW_LO, .NT_NOW_HI, .NT_FRAC, .NT_RATE, .NT_STEP_LO, .NT_STEP_HI, .NT_CTRL, .NT_STATUS, .NT_CAP_LAT_LO, .NT_CAP_LAT_HI, .NT_CAP_NT_LO,
   .NT_CAP_NT_HI, .NT_LSTEP_TICK_LO, .NT_LSTEP_TICK_HI, .NT_LSTEP_AMT_LO, .NT_LSTEP_AMT_HI, .NT_CAP_EPOCH, .NT_TEO_CFG, .NT_EV_CFG, .NT_EV_T_LO,
   .NT_EV_T_HI, .NT_EV_PER, .NT_EV_WIDTH, .NT_EV_CTRL, .NT_EV_STAT, .NT_EV_LAT_LO, .NT_EV_LAT_HI, .NT_EV_NT_LO, .NT_EV_NT_HI, .NT_EV_EPOCH,
   .NT_PTP_CFG, .NT_PTP_STAT, .NT_PTP_TS_ID, .NT_PTP_TS_LO, .NT_PTP_TS_HI, .NT_PTP_TS_CTRL, .NT_BL_RX_LO, .NT_BL_RX_HI, .NT_BL_MS_LAT_LO,
   .NT_BL_MS_LAT_HI, .NT_BL_MS_NT_LO, .NT_BL_MS_NT_HI, .NT_BL_EPOCH]

/-- The registers of 13_field_io.md. -/
def regs_13 : List RegId :=
  [.FIO_STATUS, .FIO_WD, .FIO_SAFE, .FIO_CTRL, .FIO_IN, .FIO_OUT_SET, .FIO_OUT_CLR, .FIO_OUT_CMD, .FIO_CNT, .FIO_DIAG_SUM, .FIO_CH_CFG, .FIO_CH_PAR,
   .FIO_DIAG]

/-- The registers of 14_safety.md. -/
def regs_14 : List RegId :=
  [.SF_STATUS, .SF_VERIFY, .SF_PAR_CHECK, .SF_PAR_CRC, .SF_VERIFIED, .SF_ZONE_CFG, .SF_ZONE_IN, .SF_ZONE_STAT, .SF_ZONE_CTRL, .SF_AX_CFG,
   .SF_AX_TIME, .SF_AX_GRACE, .SF_AX_GRACE_V, .SF_AX_BT, .SF_AX_BT_LIM, .SF_AX_STO, .SF_AX_STATE, .SF_AX_CTRL, .SF_AX_GRACE_LEFT, .SF_AX_BT_STAT,
   .SF_CONN_CFG, .SF_CONN_UID, .SF_CONN_WT, .SF_CONN_SEND, .SF_CONN_STAT, .SF_CONN_RX, .SF_CONN_CNT, .SF_CONN_SEQ]

/-- The registers of 15_trust_and_lifecycle.md. -/
def regs_15 : List RegId :=
  [.SEC_LIFECYCLE, .SEC_STATUS, .SEC_SERVICE_LEFT, .SEC_CHALLENGE, .SEC_CTRL, .SEC_RESULT, .SEC_ROLLBACK, .SEC_REVOKE_VER, .SEC_BOOT_COUNT,
   .SEC_RTC_LO, .SEC_RTC_HI, .SEC_TAMPER, .SEC_IDLE, .SEC_SESS_STATE, .SEC_SESS_CERT, .SEC_SESS_CTRL, .SEC_PORT_CFG, .SEC_PORT_STAT, .SEC_PEER]

/-- The registers of 16_health_and_self_test.md. -/
def regs_16 : List RegId :=
  [.HL_FAULT, .HL_REPLACE, .HL_TEMP, .HL_THERM, .HL_MARGIN, .HL_ECC, .HL_WEAR, .HL_HOLDUP, .HL_BARRIER, .HL_LOG_SEL, .HL_LOG_STAT, .HL_LOG_WORD,
   .HL_ST_CTRL, .HL_ST_STATUS, .HL_ST_DETAIL]

/-- The registers of 17_host_ports_and_registers.md. -/
def regs_17 : List RegId :=
  [.HP_MAC_CFG, .HP_MAC_IP, .HP_MAC_ADDR_LO, .HP_MAC_ADDR_HI, .HP_MAC_STAT, .HP_SER_STAT, .HP_RD_LIMIT, .HP_SP_CLASS5, .PW_STATUS, .PW_INPUT,
   .PW_VBAT, .PW_PF_TICK_LO, .PW_PF_TICK_HI, .PW_PF_COUNT]

/-- Every register. -/
def allRegs : List RegId :=
  regs_02 ++ regs_03 ++ regs_04 ++ regs_05 ++ regs_06 ++ regs_07 ++ regs_08 ++ regs_09 ++ regs_10 ++ regs_11 ++ regs_12 ++ regs_13 ++ regs_14 ++ regs_15 ++ regs_16 ++ regs_17

/-- The indices at which an offset lies in an array, in index order. -/
def regIndex : List (Nat × Nat) → Nat → Option (List Nat)
  | [], 0 => some []
  | [], _ + 1 => none
  | (n, s) :: r, o => if o / s < n then (regIndex r (o % s)).map (o / s :: ·) else none

/-- The register at an address, with its indices. -/
def regAt (a : Nat) : Option (RegId × List Nat) :=
  allRegs.findSome? fun r =>
    let d := regDef r
    if a < d.base then none
    else
      match d.dims with
      | [] => if a = d.base then some (r, []) else none
      | _ => (regIndex d.dims (a - d.base)).map fun ix => (r, ix)

/-- The address of a register of an array. -/
def regAddr (r : RegId) (ix : List Nat) : Nat :=
  (regDef r).base + ((ix.zip (regDef r).dims).map fun p => p.1 * p.2.2).sum

/-- The reset word at an address: the documented reset value of every SG and RW field, 0 elsewhere. -/
def regReset (a : Nat) : Word :=
  match regAt a with
  | some (r, _) => (regDef r).reset
  | none => 0

/-- The word in force of a register. Software-set words are kept in a table by address; one not listed reads as its reset word. -/
def regWord (c : Tab Word) (reset : Word) (a : Nat) : Nat := (tabGet reset c a).toNat

/-! Fields of 02_timing_lattice.md. -/

def Fld.TL_PACE_PACE (cf : Tab Word) : Nat := bits (regWord cf 0x0 (0x1000c)) 0 2
def Fld.TL_TILE_PHASE_PHASE (cf : Tab Word) (t : Nat) : Nat := bits (regWord cf 0x0 (0x10001000 + 0x1000000 * t)) 0 20
def Fld.TL_GRP_PERIOD_PERIOD (cf : Tab Word) (t g : Nat) : Nat := bits (regWord cf 0x0 (0x10001010 + 0x1000000 * t + 0x4 * g)) 0 20
def Fld.TL_GRP_APPLY_MISS_FAULT (cf : Tab Word) (t g : Nat) : Nat := bits (regWord cf 0x0 (0x10001020 + 0x1000000 * t + 0x4 * g)) 24 8
def Fld.TL_GRP_APPLY_APPLY (cf : Tab Word) (t g : Nat) : Nat := bits (regWord cf 0x0 (0x10001020 + 0x1000000 * t + 0x4 * g)) 0 20
def Fld.TL_SP_INTERVAL_INTERVAL (cf : Tab Word) (t n : Nat) : Nat := bits (regWord cf 0x0 (0x10001100 + 0x1000000 * t + 0x8 * n)) 0 20
def Fld.TL_SP_HORIZON_HORIZON (cf : Tab Word) (t n : Nat) : Nat := bits (regWord cf 0x0 (0x10001104 + 0x1000000 * t + 0x8 * n)) 0 23

/-! Fields of 03_images_and_commit.md. -/

def Fld.CM_APPLY_LO_TICK (cf : Tab Word) : Nat := regWord cf 0x0 (0x20008)
def Fld.CM_APPLY_HI_TICK (cf : Tab Word) : Nat := regWord cf 0x0 (0x2000c)
def Fld.CM_PEEK_ADDR_ADDR (cf : Tab Word) : Nat := bits (regWord cf 0x0 (0x20020)) 2 30

/-! Fields of 04_control_engine.md. -/

def Fld.CE_LOOP_ALLOC_KIND (cf : Tab Word) (t c : Nat) : Nat := bits (regWord cf 0x0 (0x10010000 + 0x1000000 * t + 0x40 * c)) 30 2
def Fld.CE_LOOP_ALLOC_SLOT (cf : Tab Word) (t c : Nat) : Nat := bits (regWord cf 0x0 (0x10010000 + 0x1000000 * t + 0x40 * c)) 24 4
def Fld.CE_LOOP_ALLOC_GROUP (cf : Tab Word) (t c : Nat) : Nat := bits (regWord cf 0x0 (0x10010000 + 0x1000000 * t + 0x40 * c)) 20 2
def Fld.CE_LOOP_ALLOC_SCHED_EN (cf : Tab Word) (t c : Nat) : Bool := bit (regWord cf 0x0 (0x10010000 + 0x1000000 * t + 0x40 * c)) 19
def Fld.CE_LOOP_ALLOC_SCHED (cf : Tab Word) (t c : Nat) : Nat := bits (regWord cf 0x0 (0x10010000 + 0x1000000 * t + 0x40 * c)) 16 3
def Fld.CE_LOOP_ALLOC_NSEC (cf : Tab Word) (t c : Nat) : Nat := bits (regWord cf 0x0 (0x10010000 + 0x1000000 * t + 0x40 * c)) 8 5
def Fld.CE_LOOP_ALLOC_FIRST_SEC (cf : Tab Word) (t c : Nat) : Nat := bits (regWord cf 0x0 (0x10010000 + 0x1000000 * t + 0x40 * c)) 0 8
def Fld.CE_LOOP_SRC_REF_SRC (cf : Tab Word) (t c : Nat) : Nat := bits (regWord cf 0x0 (0x10010004 + 0x1000000 * t + 0x40 * c)) 24 8
def Fld.CE_LOOP_SRC_FB_SRC (cf : Tab Word) (t c : Nat) : Nat := bits (regWord cf 0x0 (0x10010004 + 0x1000000 * t + 0x40 * c)) 16 8
def Fld.CE_LOOP_SRC_FF_SRC (cf : Tab Word) (t c : Nat) : Nat := bits (regWord cf 0x0 (0x10010004 + 0x1000000 * t + 0x40 * c)) 8 8
def Fld.CE_LOOP_SRC_SV_SRC (cf : Tab Word) (t c : Nat) : Nat := bits (regWord cf 0x0 (0x10010004 + 0x1000000 * t + 0x40 * c)) 0 8
def Fld.CE_LOOP_OUT_DST (cf : Tab Word) (t c : Nat) : Nat := bits (regWord cf 0x0 (0x10010008 + 0x1000000 * t + 0x40 * c)) 24 8
def Fld.CE_LOOP_OUT_ALT (cf : Tab Word) (t c : Nat) : Bool := bit (regWord cf 0x0 (0x10010008 + 0x1000000 * t + 0x40 * c)) 23
def Fld.CE_LOOP_OUT_MODE (cf : Tab Word) (t c : Nat) : Nat := bits (regWord cf 0x0 (0x10010008 + 0x1000000 * t + 0x40 * c)) 21 2
def Fld.CE_LOOP_OUT_HO_EN (cf : Tab Word) (t c : Nat) : Bool := bit (regWord cf 0x0 (0x10010008 + 0x1000000 * t + 0x40 * c)) 20
def Fld.CE_LOOP_OUT_BUMPLESS (cf : Tab Word) (t c : Nat) : Bool := bit (regWord cf 0x0 (0x10010008 + 0x1000000 * t + 0x40 * c)) 19
def Fld.CE_LOOP_SCALE_RSCALE (cf : Tab Word) (t c : Nat) : Nat := bits (regWord cf 0x0 (0x1001000c + 0x1000000 * t + 0x40 * c)) 26 6
def Fld.CE_LOOP_SCALE_FSCALE (cf : Tab Word) (t c : Nat) : Nat := bits (regWord cf 0x0 (0x1001000c + 0x1000000 * t + 0x40 * c)) 20 6
def Fld.CE_LOOP_SCALE_FFSCALE (cf : Tab Word) (t c : Nat) : Nat := bits (regWord cf 0x0 (0x1001000c + 0x1000000 * t + 0x40 * c)) 14 6
def Fld.CE_LOOP_SCALE_OEXP (cf : Tab Word) (t c : Nat) : Nat := bits (regWord cf 0x0 (0x1001000c + 0x1000000 * t + 0x40 * c)) 8 6
def Fld.CE_LOOP_SCALE_AW (cf : Tab Word) (t c : Nat) : Nat := bits (regWord cf 0x0 (0x1001000c + 0x1000000 * t + 0x40 * c)) 0 2
def Fld.CE_LOOP_LIMHI_LIMIT (cf : Tab Word) (t c : Nat) : Nat := regWord cf 0x0 (0x10010010 + 0x1000000 * t + 0x40 * c)
def Fld.CE_LOOP_LIMLO_LIMIT (cf : Tab Word) (t c : Nat) : Nat := regWord cf 0x0 (0x10010014 + 0x1000000 * t + 0x40 * c)
def Fld.CE_LOOP_KAW_KAW (cf : Tab Word) (t c : Nat) : Nat := regWord cf 0x0 (0x10010018 + 0x1000000 * t + 0x40 * c)
def Fld.CE_LOOP_RAMP_RAMP_STEP (cf : Tab Word) (t c : Nat) : Nat := regWord cf 0x0 (0x1001001c + 0x1000000 * t + 0x40 * c)
def Fld.CE_LOOP_TIMING_RAMP_SHIFT (cf : Tab Word) (t c : Nat) : Nat := bits (regWord cf 0x0 (0x10010020 + 0x1000000 * t + 0x40 * c)) 24 5
def Fld.CE_LOOP_TIMING_BLEND (cf : Tab Word) (t c : Nat) : Nat := bits (regWord cf 0x0 (0x10010020 + 0x1000000 * t + 0x40 * c)) 0 19
def Fld.CE_SEC_COEF_MANT (cf : Tab Word) (t sn k : Nat) : Nat := regWord cf 0x0 (0x10011000 + 0x1000000 * t + 0x20 * sn + 0x4 * k)
def Fld.CE_SEC_CFG_WIDE (cf : Tab Word) (t sn : Nat) : Bool := bit (regWord cf 0x0 (0x10011014 + 0x1000000 * t + 0x20 * sn)) 2
def Fld.CE_SEC_CFG_CSHIFT (cf : Tab Word) (t sn : Nat) : Nat := bits (regWord cf 0x0 (0x10011014 + 0x1000000 * t + 0x20 * sn)) 0 2
def Fld.CE_SCHED_CFG_INTERP (cf : Tab Word) (t sc : Nat) : Bool := bit (regWord cf 0x0 (0x10013000 + 0x1000000 * t + 0x20 * sc)) 31
def Fld.CE_SCHED_CFG_VSCALE (cf : Tab Word) (t sc : Nat) : Nat := bits (regWord cf 0x0 (0x10013000 + 0x1000000 * t + 0x20 * sc)) 0 6
def Fld.CE_SCHED_HYST_HYST (cf : Tab Word) (t sc : Nat) : Nat := bits (regWord cf 0x0 (0x10013004 + 0x1000000 * t + 0x20 * sc)) 0 31
def Fld.CE_SCHED_TSTEP_TSTEP (cf : Tab Word) (t sc : Nat) : Nat := regWord cf 0x80000000 (0x10013008 + 0x1000000 * t + 0x20 * sc)
def Fld.CE_MODE_ARMED (cf : Tab Word) (t j : Nat) : Bool := bit (regWord cf 0x0 (0x10013400 + 0x1000000 * t + 0x10 * j)) 4
def Fld.CE_MODE_MODE (cf : Tab Word) (t j : Nat) : Nat := bits (regWord cf 0x0 (0x10013400 + 0x1000000 * t + 0x10 * j)) 0 2
def Fld.CE_MODE_AT_LO_TICK (cf : Tab Word) (t j : Nat) : Nat := regWord cf 0x0 (0x10013404 + 0x1000000 * t + 0x10 * j)
def Fld.CE_MODE_AT_HI_TICK (cf : Tab Word) (t j : Nat) : Nat := regWord cf 0x0 (0x10013408 + 0x1000000 * t + 0x10 * j)
def Fld.CE_XIN_EN (cf : Tab Word) (t k : Nat) : Bool := bit (regWord cf 0x0 (0x10013600 + 0x1000000 * t + 0x4 * k)) 15
def Fld.CE_XIN_TILE (cf : Tab Word) (t k : Nat) : Nat := bits (regWord cf 0x0 (0x10013600 + 0x1000000 * t + 0x4 * k)) 8 3
def Fld.CE_XIN_CTX (cf : Tab Word) (t k : Nat) : Nat := bits (regWord cf 0x0 (0x10013600 + 0x1000000 * t + 0x4 * k)) 0 5

/-! Fields of 05_native_axes.md. -/

def Fld.AX_SLOT_TYPE_TYPE (cf : Tab Word) (t j : Nat) : Nat := bits (regWord cf 0x0 (0x10020000 + 0x1000000 * t + 0x4 * j)) 0 3
def Fld.AX_MCLK_FREQ (cf : Tab Word) (t : Nat) : Bool := bit (regWord cf 0x0 (0x10020040 + 0x1000000 * t)) 1
def Fld.AX_MCLK_EN (cf : Tab Word) (t : Nat) : Bool := bit (regWord cf 0x0 (0x10020040 + 0x1000000 * t)) 0
def Fld.AX_PWM_CFG_UPDATE (cf : Tab Word) (t j : Nat) : Bool := bit (regWord cf 0x0 (0x10020110 + 0x1000000 * t + 0x100 * j)) 31
def Fld.AX_PWM_CFG_POL_H (cf : Tab Word) (t j : Nat) : Bool := bit (regWord cf 0x0 (0x10020110 + 0x1000000 * t + 0x100 * j)) 30
def Fld.AX_PWM_CFG_POL_L (cf : Tab Word) (t j : Nat) : Bool := bit (regWord cf 0x0 (0x10020110 + 0x1000000 * t + 0x100 * j)) 29
def Fld.AX_PWM_CFG_DIS_MODE (cf : Tab Word) (t j : Nat) : Bool := bit (regWord cf 0x0 (0x10020110 + 0x1000000 * t + 0x100 * j)) 28
def Fld.AX_PWM_CFG_DT (cf : Tab Word) (t j : Nat) : Nat := bits (regWord cf 0x0 (0x10020110 + 0x1000000 * t + 0x100 * j)) 0 14
def Fld.AX_PWM_MIN_PRE_T (cf : Tab Word) (t j : Nat) : Nat := bits (regWord cf 0x0 (0x10020114 + 0x1000000 * t + 0x100 * j)) 16 16
def Fld.AX_PWM_MIN_MIN_PULSE (cf : Tab Word) (t j : Nat) : Nat := bits (regWord cf 0x0 (0x10020114 + 0x1000000 * t + 0x100 * j)) 0 14
def Fld.AX_PWM_LEAD_LEAD (cf : Tab Word) (t j : Nat) : Nat := bits (regWord cf 0x0 (0x10020118 + 0x1000000 * t + 0x100 * j)) 0 26
def Fld.AX_SD_CFG_SUM_N (cf : Tab Word) (t j : Nat) : Nat := bits (regWord cf 0x10000 (0x1002011c + 0x1000000 * t + 0x100 * j)) 16 8
def Fld.AX_SD_CFG_GSHIFT (cf : Tab Word) (t j : Nat) : Nat := bits (regWord cf 0x10000 (0x1002011c + 0x1000000 * t + 0x100 * j)) 12 2
def Fld.AX_SD_CFG_OSR (cf : Tab Word) (t j : Nat) : Nat := bits (regWord cf 0x10000 (0x1002011c + 0x1000000 * t + 0x100 * j)) 8 3
def Fld.AX_SD_CFG_IN2_VBUS (cf : Tab Word) (t j : Nat) : Bool := bit (regWord cf 0x10000 (0x1002011c + 0x1000000 * t + 0x100 * j)) 4
def Fld.AX_SD_CFG_SD_DLY (cf : Tab Word) (t j : Nat) : Nat := bits (regWord cf 0x10000 (0x1002011c + 0x1000000 * t + 0x100 * j)) 0 4
def Fld.AX_SD_GAIN_VALUE (cf : Tab Word) (t j k : Nat) : Nat := regWord cf 0x0 (0x10020120 + 0x1000000 * t + 0x100 * j + 0x4 * k)
def Fld.AX_SD_OFS_VALUE (cf : Tab Word) (t j k : Nat) : Nat := regWord cf 0x0 (0x1002012c + 0x1000000 * t + 0x100 * j + 0x4 * k)
def Fld.AX_OC_LIMIT (cf : Tab Word) (t j : Nat) : Nat := regWord cf 0x0 (0x10020138 + 0x1000000 * t + 0x100 * j)
def Fld.AX_SUM_LIMIT (cf : Tab Word) (t j : Nat) : Nat := regWord cf 0x0 (0x1002013c + 0x1000000 * t + 0x100 * j)
def Fld.AX_VLIM_LIMIT (cf : Tab Word) (t j : Nat) : Nat := regWord cf 0x0 (0x10020140 + 0x1000000 * t + 0x100 * j)
def Fld.AX_COMM_POLE_PAIRS (cf : Tab Word) (t j : Nat) : Nat := bits (regWord cf 0x0 (0x10020144 + 0x1000000 * t + 0x100 * j)) 24 8
def Fld.AX_COMM_WSCALE (cf : Tab Word) (t j : Nat) : Nat := bits (regWord cf 0x0 (0x10020144 + 0x1000000 * t + 0x100 * j)) 8 6
def Fld.AX_COMM_QCH (cf : Tab Word) (t j : Nat) : Nat := bits (regWord cf 0x0 (0x10020144 + 0x1000000 * t + 0x100 * j)) 0 3
def Fld.AX_COMM_CPR_CPR (cf : Tab Word) (t j : Nat) : Nat := regWord cf 0x0 (0x10020148 + 0x1000000 * t + 0x100 * j)
def Fld.AX_COMM_OFS_OFS (cf : Tab Word) (t j : Nat) : Nat := regWord cf 0x0 (0x1002014c + 0x1000000 * t + 0x100 * j)
def Fld.AX_COMM_ADV_ADV (cf : Tab Word) (t j : Nat) : Nat := bits (regWord cf 0x0 (0x10020150 + 0x1000000 * t + 0x100 * j)) 0 26
def Fld.AX_DEC_K (cf : Tab Word) (t j k : Nat) : Nat := regWord cf 0x0 (0x10020154 + 0x1000000 * t + 0x100 * j + 0x4 * k)
def Fld.AX_ALIGN_I_ALIGN_I (cf : Tab Word) (t j : Nat) : Nat := regWord cf 0x0 (0x10020160 + 0x1000000 * t + 0x100 * j)
def Fld.AX_ALIGN_T_ALIGN_T (cf : Tab Word) (t j : Nat) : Nat := bits (regWord cf 0x0 (0x10020164 + 0x1000000 * t + 0x100 * j)) 0 14
def Fld.AX_DF_DF_FILT (cf : Tab Word) (t j : Nat) : Nat := bits (regWord cf 0x0 (0x1002016c + 0x1000000 * t + 0x100 * j)) 8 8
def Fld.AX_DF_DF_POL (cf : Tab Word) (t j : Nat) : Bool := bit (regWord cf 0x0 (0x1002016c + 0x1000000 * t + 0x100 * j)) 0
def Fld.AX_STEP_I_I_RUN (cf : Tab Word) (t j : Nat) : Nat := bits (regWord cf 0x0 (0x10020170 + 0x1000000 * t + 0x100 * j)) 16 16
def Fld.AX_STEP_I_I_HOLD (cf : Tab Word) (t j : Nat) : Nat := bits (regWord cf 0x0 (0x10020170 + 0x1000000 * t + 0x100 * j)) 0 16
def Fld.AX_STEP_HOLD_HOLD_T (cf : Tab Word) (t j : Nat) : Nat := bits (regWord cf 0x0 (0x10020174 + 0x1000000 * t + 0x100 * j)) 0 16
def Fld.AX_STEP_THR_VALUE (cf : Tab Word) (t j k : Nat) : Nat := bits (regWord cf 0x0 (0x10020178 + 0x1000000 * t + 0x100 * j + 0x4 * k)) 0 24
def Fld.AX_STEP_HYS_VALUE (cf : Tab Word) (t j : Nat) : Nat := bits (regWord cf 0x0 (0x10020188 + 0x1000000 * t + 0x100 * j)) 0 24

/-! Fields of 06_feedback.md. -/

def Fld.QD_CFG_DIR_INV (cf : Tab Word) (t ch : Nat) : Bool := bit (regWord cf 0x400 (0x10030000 + 0x1000000 * t + 0x80 * ch)) 31
def Fld.QD_CFG_HYST (cf : Tab Word) (t ch : Nat) : Bool := bit (regWord cf 0x400 (0x10030000 + 0x1000000 * t + 0x80 * ch)) 30
def Fld.QD_CFG_FILT (cf : Tab Word) (t ch : Nat) : Nat := bits (regWord cf 0x400 (0x10030000 + 0x1000000 * t + 0x80 * ch)) 16 12
def Fld.QD_CFG_RX_EN (cf : Tab Word) (t ch : Nat) : Bool := bit (regWord cf 0x400 (0x10030000 + 0x1000000 * t + 0x80 * ch)) 15
def Fld.QD_CFG_RX_POL (cf : Tab Word) (t ch : Nat) : Bool := bit (regWord cf 0x400 (0x10030000 + 0x1000000 * t + 0x80 * ch)) 14
def Fld.QD_CFG_IDX_GATE (cf : Tab Word) (t ch : Nat) : Bool := bit (regWord cf 0x400 (0x10030000 + 0x1000000 * t + 0x80 * ch)) 13
def Fld.QD_CFG_IDX_AB (cf : Tab Word) (t ch : Nat) : Nat := bits (regWord cf 0x400 (0x10030000 + 0x1000000 * t + 0x80 * ch)) 11 2
def Fld.QD_CFG_Z_POL (cf : Tab Word) (t ch : Nat) : Bool := bit (regWord cf 0x400 (0x10030000 + 0x1000000 * t + 0x80 * ch)) 10
def Fld.QD_CFG_RX_FILT (cf : Tab Word) (t ch : Nat) : Nat := bits (regWord cf 0x400 (0x10030000 + 0x1000000 * t + 0x80 * ch)) 0 8
def Fld.QD_ASSIGN_EN (cf : Tab Word) (t ch : Nat) : Bool := bit (regWord cf 0x0 (0x10030004 + 0x1000000 * t + 0x80 * ch)) 8
def Fld.QD_ASSIGN_SLOT (cf : Tab Word) (t ch : Nat) : Nat := bits (regWord cf 0x0 (0x10030004 + 0x1000000 * t + 0x80 * ch)) 0 4
def Fld.QD_SPD_WIN_SPD_WIN (cf : Tab Word) (t ch : Nat) : Nat := bits (regWord cf 0x1 (0x10030008 + 0x1000000 * t + 0x80 * ch)) 0 16
def Fld.QD_STILL_STILL_T (cf : Tab Word) (t ch : Nat) : Nat := bits (regWord cf 0x2710 (0x1003000c + 0x1000000 * t + 0x80 * ch)) 0 20
def Fld.QD_ILL_ILL_THR (cf : Tab Word) (t ch : Nat) : Nat := bits (regWord cf 0x80003e8 (0x10030010 + 0x1000000 * t + 0x80 * ch)) 24 8
def Fld.QD_ILL_ILL_LEAK (cf : Tab Word) (t ch : Nat) : Nat := bits (regWord cf 0x80003e8 (0x10030010 + 0x1000000 * t + 0x80 * ch)) 0 16
def Fld.QD_FRZ_CFG_FRZ_GRP (cf : Tab Word) (t ch : Nat) : Nat := bits (regWord cf 0x40000 (0x10030014 + 0x1000000 * t + 0x80 * ch)) 30 2
def Fld.QD_FRZ_CFG_FRZ_CNT (cf : Tab Word) (t ch : Nat) : Nat := bits (regWord cf 0x40000 (0x10030014 + 0x1000000 * t + 0x80 * ch)) 16 8
def Fld.QD_FRZ_CFG_TQ_SRC (cf : Tab Word) (t ch : Nat) : Nat := bits (regWord cf 0x40000 (0x10030014 + 0x1000000 * t + 0x80 * ch)) 8 8
def Fld.QD_FRZ_CFG_LOAD_SRC (cf : Tab Word) (t ch : Nat) : Nat := bits (regWord cf 0x40000 (0x10030014 + 0x1000000 * t + 0x80 * ch)) 0 8
def Fld.QD_FRZ_T_FRZ_T (cf : Tab Word) (t ch : Nat) : Nat := bits (regWord cf 0x0 (0x10030018 + 0x1000000 * t + 0x80 * ch)) 0 20
def Fld.QD_FRZ_TQ_FRZ_TQ (cf : Tab Word) (t ch : Nat) : Nat := regWord cf 0x0 (0x1003001c + 0x1000000 * t + 0x80 * ch)
def Fld.QD_FRZ_KA_KA (cf : Tab Word) (t ch : Nat) : Nat := regWord cf 0x0 (0x10030020 + 0x1000000 * t + 0x80 * ch)
def Fld.QD_FB_CFG_FB_EN (cf : Tab Word) (t ch : Nat) : Bool := bit (regWord cf 0x0 (0x10030024 + 0x1000000 * t + 0x80 * ch)) 15
def Fld.QD_FB_CFG_FB_SRC (cf : Tab Word) (t ch : Nat) : Nat := bits (regWord cf 0x0 (0x10030024 + 0x1000000 * t + 0x80 * ch)) 0 8
def Fld.QD_FB_NUM_VALUE (cf : Tab Word) (t ch : Nat) : Nat := regWord cf 0x1 (0x10030028 + 0x1000000 * t + 0x80 * ch)
def Fld.QD_FB_DEN_VALUE (cf : Tab Word) (t ch : Nat) : Nat := regWord cf 0x1 (0x1003002c + 0x1000000 * t + 0x80 * ch)
def Fld.QD_REFVAL_LO_VALUE (cf : Tab Word) (t ch : Nat) : Nat := regWord cf 0x0 (0x10030034 + 0x1000000 * t + 0x80 * ch)
def Fld.QD_REFVAL_HI_VALUE (cf : Tab Word) (t ch : Nat) : Nat := regWord cf 0x0 (0x10030038 + 0x1000000 * t + 0x80 * ch)
def Fld.QD_PRB_CFG_EN (cf : Tab Word) (t p : Nat) : Bool := bit (regWord cf 0x10000 (0x10030400 + 0x1000000 * t + 0x40 * p)) 31
def Fld.QD_PRB_CFG_SLOT (cf : Tab Word) (t p : Nat) : Nat := bits (regWord cf 0x10000 (0x10030400 + 0x1000000 * t + 0x40 * p)) 24 4
def Fld.QD_PRB_CFG_QCH (cf : Tab Word) (t p : Nat) : Nat := bits (regWord cf 0x10000 (0x10030400 + 0x1000000 * t + 0x40 * p)) 20 3
def Fld.QD_PRB_CFG_EDGE (cf : Tab Word) (t p : Nat) : Nat := bits (regWord cf 0x10000 (0x10030400 + 0x1000000 * t + 0x40 * p)) 16 2
def Fld.QD_PRB_CFG_FILT (cf : Tab Word) (t p : Nat) : Nat := bits (regWord cf 0x10000 (0x10030400 + 0x1000000 * t + 0x40 * p)) 0 12

/-! Fields of 07_profiles_and_pulse_axes.md. -/

def Fld.PG_CFG_EN (cf : Tab Word) (t j : Nat) : Bool := bit (regWord cf 0x0 (0x10040000 + 0x1000000 * t + 0x100 * j)) 31
def Fld.PG_CFG_GRP (cf : Tab Word) (t j : Nat) : Nat := bits (regWord cf 0x0 (0x10040000 + 0x1000000 * t + 0x100 * j)) 28 2
def Fld.PG_CFG_AREA_OFS (cf : Tab Word) (t j : Nat) : Nat := bits (regWord cf 0x0 (0x10040000 + 0x1000000 * t + 0x100 * j)) 8 16
def Fld.PG_CFG_BANK_SIZE (cf : Tab Word) (t j : Nat) : Nat := bits (regWord cf 0x0 (0x10040000 + 0x1000000 * t + 0x100 * j)) 0 6
def Fld.PG_MIN_DUR_MIN_DUR (cf : Tab Word) (t j : Nat) : Nat := regWord cf 0xffffffff (0x10040004 + 0x1000000 * t + 0x100 * j)
def Fld.PG_DECEL_DEC (cf : Tab Word) (t j : Nat) : Nat := regWord cf 0x0 (0x1004001c + 0x1000000 * t + 0x100 * j)
def Fld.PG_FB_DECEL_DEC (cf : Tab Word) (t j : Nat) : Nat := regWord cf 0x0 (0x10040020 + 0x1000000 * t + 0x100 * j)
def Fld.PG_HOME_CFG_MODE (cf : Tab Word) (t j : Nat) : Nat := bits (regWord cf 0x8000000 (0x10040040 + 0x1000000 * t + 0x100 * j)) 30 2
def Fld.PG_HOME_CFG_DIR (cf : Tab Word) (t j : Nat) : Bool := bit (regWord cf 0x8000000 (0x10040040 + 0x1000000 * t + 0x100 * j)) 29
def Fld.PG_HOME_CFG_REV_ON_LIM (cf : Tab Word) (t j : Nat) : Bool := bit (regWord cf 0x8000000 (0x10040040 + 0x1000000 * t + 0x100 * j)) 28
def Fld.PG_HOME_CFG_HOME_POL (cf : Tab Word) (t j : Nat) : Bool := bit (regWord cf 0x8000000 (0x10040040 + 0x1000000 * t + 0x100 * j)) 27
def Fld.PG_HOME_CFG_HOME_SRC (cf : Tab Word) (t j : Nat) : Nat := bits (regWord cf 0x8000000 (0x10040040 + 0x1000000 * t + 0x100 * j)) 16 8
def Fld.PG_HOME_CFG_POS_SRC (cf : Tab Word) (t j : Nat) : Nat := bits (regWord cf 0x8000000 (0x10040040 + 0x1000000 * t + 0x100 * j)) 0 8
def Fld.PG_LIM_CFG_LIMP_POL (cf : Tab Word) (t j : Nat) : Bool := bit (regWord cf 0xc0000000 (0x10040044 + 0x1000000 * t + 0x100 * j)) 31
def Fld.PG_LIM_CFG_LIMN_POL (cf : Tab Word) (t j : Nat) : Bool := bit (regWord cf 0xc0000000 (0x10040044 + 0x1000000 * t + 0x100 * j)) 30
def Fld.PG_LIM_CFG_LIMP_SRC (cf : Tab Word) (t j : Nat) : Nat := bits (regWord cf 0xc0000000 (0x10040044 + 0x1000000 * t + 0x100 * j)) 8 8
def Fld.PG_LIM_CFG_LIMN_SRC (cf : Tab Word) (t j : Nat) : Nat := bits (regWord cf 0xc0000000 (0x10040044 + 0x1000000 * t + 0x100 * j)) 0 8
def Fld.PG_HOME_V_VALUE (cf : Tab Word) (t j : Nat) : Nat := regWord cf 0x0 (0x10040048 + 0x1000000 * t + 0x100 * j)
def Fld.PG_HOME_CREEP_VALUE (cf : Tab Word) (t j : Nat) : Nat := regWord cf 0x0 (0x1004004c + 0x1000000 * t + 0x100 * j)
def Fld.PG_HOME_ACC_VALUE (cf : Tab Word) (t j : Nat) : Nat := regWord cf 0x0 (0x10040050 + 0x1000000 * t + 0x100 * j)
def Fld.PG_HOME_REL_VALUE (cf : Tab Word) (t j : Nat) : Nat := regWord cf 0x0 (0x10040054 + 0x1000000 * t + 0x100 * j)
def Fld.PG_HOME_IDXWIN_VALUE (cf : Tab Word) (t j : Nat) : Nat := regWord cf 0x0 (0x10040058 + 0x1000000 * t + 0x100 * j)
def Fld.PG_HOME_TO_HOME_TO (cf : Tab Word) (t j : Nat) : Nat := bits (regWord cf 0xea60 (0x1004005c + 0x1000000 * t + 0x100 * j)) 0 20
def Fld.PG_HOME_POS_LO_HOME_POS (cf : Tab Word) (t j : Nat) : Nat := regWord cf 0x0 (0x10040060 + 0x1000000 * t + 0x100 * j)
def Fld.PG_HOME_POS_HI_HOME_POS (cf : Tab Word) (t j : Nat) : Nat := regWord cf 0x0 (0x10040064 + 0x1000000 * t + 0x100 * j)
def Fld.PG_PULSE_CFG_DIR_POL (cf : Tab Word) (t ps : Nat) : Bool := bit (regWord cf 0x51432 (0x10040480 + 0x1000000 * t + 0x100 * ps)) 31
def Fld.PG_PULSE_CFG_STEP_POL (cf : Tab Word) (t ps : Nat) : Bool := bit (regWord cf 0x51432 (0x10040480 + 0x1000000 * t + 0x100 * ps)) 30
def Fld.PG_PULSE_CFG_STEP_W (cf : Tab Word) (t ps : Nat) : Nat := bits (regWord cf 0x51432 (0x10040480 + 0x1000000 * t + 0x100 * ps)) 16 8
def Fld.PG_PULSE_CFG_DIR_SETUP (cf : Tab Word) (t ps : Nat) : Nat := bits (regWord cf 0x51432 (0x10040480 + 0x1000000 * t + 0x100 * ps)) 8 8
def Fld.PG_PULSE_CFG_RES_SETUP (cf : Tab Word) (t ps : Nat) : Nat := bits (regWord cf 0x51432 (0x10040480 + 0x1000000 * t + 0x100 * ps)) 0 8
def Fld.PG_RES_CFG_NLEV (cf : Tab Word) (t ps : Nat) : Nat := bits (regWord cf 0x8000000 (0x10040484 + 0x1000000 * t + 0x100 * ps)) 28 2
def Fld.PG_RES_CFG_MSTEP0 (cf : Tab Word) (t ps : Nat) : Nat := bits (regWord cf 0x8000000 (0x10040484 + 0x1000000 * t + 0x100 * ps)) 24 4
def Fld.PG_RES_CFG_MSTEP1 (cf : Tab Word) (t ps : Nat) : Nat := bits (regWord cf 0x8000000 (0x10040484 + 0x1000000 * t + 0x100 * ps)) 20 4
def Fld.PG_RES_CFG_MSTEP2 (cf : Tab Word) (t ps : Nat) : Nat := bits (regWord cf 0x8000000 (0x10040484 + 0x1000000 * t + 0x100 * ps)) 16 4
def Fld.PG_RES_CFG_MSTEP3 (cf : Tab Word) (t ps : Nat) : Nat := bits (regWord cf 0x8000000 (0x10040484 + 0x1000000 * t + 0x100 * ps)) 12 4
def Fld.PG_RES_CFG_CODE0 (cf : Tab Word) (t ps : Nat) : Nat := bits (regWord cf 0x8000000 (0x10040484 + 0x1000000 * t + 0x100 * ps)) 6 2
def Fld.PG_RES_CFG_CODE1 (cf : Tab Word) (t ps : Nat) : Nat := bits (regWord cf 0x8000000 (0x10040484 + 0x1000000 * t + 0x100 * ps)) 4 2
def Fld.PG_RES_CFG_CODE2 (cf : Tab Word) (t ps : Nat) : Nat := bits (regWord cf 0x8000000 (0x10040484 + 0x1000000 * t + 0x100 * ps)) 2 2
def Fld.PG_RES_CFG_CODE3 (cf : Tab Word) (t ps : Nat) : Nat := bits (regWord cf 0x8000000 (0x10040484 + 0x1000000 * t + 0x100 * ps)) 0 2
def Fld.PG_RES_THR_VALUE (cf : Tab Word) (t ps k : Nat) : Nat := bits (regWord cf 0x0 (0x10040488 + 0x1000000 * t + 0x100 * ps + 0x4 * k)) 0 24
def Fld.PG_RES_HYS_VALUE (cf : Tab Word) (t ps : Nat) : Nat := bits (regWord cf 0x0 (0x10040494 + 0x1000000 * t + 0x100 * ps)) 0 24

/-! Fields of 08_coordinated_motion.md. -/

def Fld.GR_PLG_CFG_EN (cf : Tab Word) (pg : Nat) : Bool := bit (regWord cf 0x0 (0x30000 + 0x40 * pg)) 31
def Fld.GR_PLG_CFG_FEED_P (cf : Tab Word) (pg : Nat) : Nat := bits (regWord cf 0x0 (0x30000 + 0x40 * pg)) 0 20
def Fld.GR_PLG_PHASE_PHASE (cf : Tab Word) (pg : Nat) : Nat := bits (regWord cf 0x0 (0x30004 + 0x40 * pg)) 0 20
def Fld.GR_PLG_DF_RUN_DF (cf : Tab Word) (pg : Nat) : Nat := regWord cf 0x40000000 (0x30008 + 0x40 * pg)
def Fld.GR_PLG_DF_STOP_DF (cf : Tab Word) (pg : Nat) : Nat := regWord cf 0x40000000 (0x3000c + 0x40 * pg)
def Fld.GR_PLG_DF_FAULT_DF (cf : Tab Word) (pg : Nat) : Nat := regWord cf 0x40000000 (0x30010 + 0x40 * pg)
def Fld.GR_PLG_FEED_TARGET (cf : Tab Word) (pg : Nat) : Nat := regWord cf 0x40000000 (0x30014 + 0x40 * pg)
def Fld.GR_FOLLOW_PLG_EN (cf : Tab Word) (t j : Nat) : Bool := bit (regWord cf 0x0 (0x10050000 + 0x1000000 * t + 0x80 * j)) 31
def Fld.GR_FOLLOW_PLG (cf : Tab Word) (t j : Nat) : Nat := bits (regWord cf 0x0 (0x10050000 + 0x1000000 * t + 0x80 * j)) 24 3
def Fld.GR_FOLLOW_MODE (cf : Tab Word) (t j : Nat) : Nat := bits (regWord cf 0x0 (0x10050000 + 0x1000000 * t + 0x80 * j)) 20 2
def Fld.GR_FOLLOW_MASTER (cf : Tab Word) (t j : Nat) : Nat := bits (regWord cf 0x0 (0x10050000 + 0x1000000 * t + 0x80 * j)) 8 8
def Fld.GR_GEAR_NUM_VALUE (cf : Tab Word) (t j : Nat) : Nat := regWord cf 0x1 (0x10050004 + 0x1000000 * t + 0x80 * j)
def Fld.GR_GEAR_DEN_VALUE (cf : Tab Word) (t j : Nat) : Nat := regWord cf 0x1 (0x10050008 + 0x1000000 * t + 0x80 * j)
def Fld.GR_CLUTCH_CFG_ENG_MODE (cf : Tab Word) (t j : Nat) : Nat := bits (regWord cf 0x0 (0x1005000c + 0x1000000 * t + 0x80 * j)) 30 2
def Fld.GR_CLUTCH_CFG_DIS_MODE (cf : Tab Word) (t j : Nat) : Nat := bits (regWord cf 0x0 (0x1005000c + 0x1000000 * t + 0x80 * j)) 28 2
def Fld.GR_CLUTCH_D_D (cf : Tab Word) (t j : Nat) : Nat := regWord cf 0x1 (0x10050010 + 0x1000000 * t + 0x80 * j)
def Fld.GR_CLUTCH_T_ENG_T (cf : Tab Word) (t j : Nat) : Nat := bits (regWord cf 0x1 (0x10050014 + 0x1000000 * t + 0x80 * j)) 0 20
def Fld.GR_ENG_POS_LO_VALUE (cf : Tab Word) (t j : Nat) : Nat := regWord cf 0x0 (0x10050018 + 0x1000000 * t + 0x80 * j)
def Fld.GR_ENG_POS_HI_VALUE (cf : Tab Word) (t j : Nat) : Nat := regWord cf 0x0 (0x1005001c + 0x1000000 * t + 0x80 * j)
def Fld.GR_DIS_POS_LO_VALUE (cf : Tab Word) (t j : Nat) : Nat := regWord cf 0x0 (0x10050020 + 0x1000000 * t + 0x80 * j)
def Fld.GR_DIS_POS_HI_VALUE (cf : Tab Word) (t j : Nat) : Nat := regWord cf 0x0 (0x10050024 + 0x1000000 * t + 0x80 * j)
def Fld.GR_CAM_CFG_AREA_OFS (cf : Tab Word) (t j : Nat) : Nat := bits (regWord cf 0x0 (0x10050038 + 0x1000000 * t + 0x80 * j)) 8 16
def Fld.GR_CAM_CFG_BANK_SIZE (cf : Tab Word) (t j : Nat) : Nat := bits (regWord cf 0x0 (0x10050038 + 0x1000000 * t + 0x80 * j)) 0 6
def Fld.GR_CAM_MIN_DX_VALUE (cf : Tab Word) (t j : Nat) : Nat := regWord cf 0xffffffff (0x1005003c + 0x1000000 * t + 0x80 * j)
def Fld.GR_CAM_VMAX_VALUE (cf : Tab Word) (t j : Nat) : Nat := regWord cf 0xffffffff (0x10050040 + 0x1000000 * t + 0x80 * j)
def Fld.GR_CAM_M0_LO_M0 (cf : Tab Word) (t j : Nat) : Nat := regWord cf 0x0 (0x10050044 + 0x1000000 * t + 0x80 * j)
def Fld.GR_CAM_M0_HI_M0 (cf : Tab Word) (t j : Nat) : Nat := regWord cf 0x0 (0x10050048 + 0x1000000 * t + 0x80 * j)
def Fld.GR_NX_CFG_FB_EXTRAP (cf : Tab Word) (t nj : Nat) : Bool := bit (regWord cf 0x3e803e8 (0x10050468 + 0x1000000 * t + 0x80 * nj)) 31
def Fld.GR_NX_CFG_OFF_TO (cf : Tab Word) (t nj : Nat) : Nat := bits (regWord cf 0x3e803e8 (0x10050468 + 0x1000000 * t + 0x80 * nj)) 16 14
def Fld.GR_NX_CFG_EN_TO (cf : Tab Word) (t nj : Nat) : Nat := bits (regWord cf 0x3e803e8 (0x10050468 + 0x1000000 * t + 0x80 * nj)) 0 14
def Fld.GR_NX_FAULT_SP_VALUE (cf : Tab Word) (t nj : Nat) : Nat := regWord cf 0x0 (0x1005046c + 0x1000000 * t + 0x80 * nj)
def Fld.GR_XM_EN (cf : Tab Word) (t x : Nat) : Bool := bit (regWord cf 0x0 (0x10050800 + 0x1000000 * t + 0x4 * x)) 15
def Fld.GR_XM_TILE (cf : Tab Word) (t x : Nat) : Nat := bits (regWord cf 0x0 (0x10050800 + 0x1000000 * t + 0x4 * x)) 8 3
def Fld.GR_XM_SLOT (cf : Tab Word) (t x : Nat) : Nat := bits (regWord cf 0x0 (0x10050800 + 0x1000000 * t + 0x4 * x)) 0 4
def Fld.GR_CMP_CFG_EN (cf : Tab Word) (t cm : Nat) : Bool := bit (regWord cf 0x100 (0x10050c00 + 0x1000000 * t + 0x40 * cm)) 31
def Fld.GR_CMP_CFG_SLOT (cf : Tab Word) (t cm : Nat) : Nat := bits (regWord cf 0x100 (0x10050c00 + 0x1000000 * t + 0x40 * cm)) 24 4
def Fld.GR_CMP_CFG_SRC (cf : Tab Word) (t cm : Nat) : Nat := bits (regWord cf 0x100 (0x10050c00 + 0x1000000 * t + 0x40 * cm)) 16 8
def Fld.GR_CMP_CFG_GRP (cf : Tab Word) (t cm : Nat) : Nat := bits (regWord cf 0x100 (0x10050c00 + 0x1000000 * t + 0x40 * cm)) 12 2
def Fld.GR_CMP_CFG_DIR (cf : Tab Word) (t cm : Nat) : Nat := bits (regWord cf 0x100 (0x10050c00 + 0x1000000 * t + 0x40 * cm)) 8 2
def Fld.GR_CMP_CFG_OUT (cf : Tab Word) (t cm : Nat) : Nat := bits (regWord cf 0x100 (0x10050c00 + 0x1000000 * t + 0x40 * cm)) 4 2
def Fld.GR_CMP_CFG_FIRE_IF_PASSED (cf : Tab Word) (t cm : Nat) : Bool := bit (regWord cf 0x100 (0x10050c00 + 0x1000000 * t + 0x40 * cm)) 3
def Fld.GR_CMP_CFG_POL (cf : Tab Word) (t cm : Nat) : Bool := bit (regWord cf 0x100 (0x10050c00 + 0x1000000 * t + 0x40 * cm)) 0
def Fld.GR_CMP_WIDTH_WIDTH (cf : Tab Word) (t cm : Nat) : Nat := bits (regWord cf 0x1 (0x10050c04 + 0x1000000 * t + 0x40 * cm)) 0 20
def Fld.GR_CMP_POS_LO_VALUE (cf : Tab Word) (t cm : Nat) : Nat := regWord cf 0x0 (0x10050c08 + 0x1000000 * t + 0x40 * cm)
def Fld.GR_CMP_POS_HI_VALUE (cf : Tab Word) (t cm : Nat) : Nat := regWord cf 0x0 (0x10050c0c + 0x1000000 * t + 0x40 * cm)
def Fld.GR_CMP_PITCH_LO_VALUE (cf : Tab Word) (t cm : Nat) : Nat := regWord cf 0x0 (0x10050c10 + 0x1000000 * t + 0x40 * cm)
def Fld.GR_CMP_PITCH_HI_VALUE (cf : Tab Word) (t cm : Nat) : Nat := regWord cf 0x0 (0x10050c14 + 0x1000000 * t + 0x40 * cm)
def Fld.GR_CMP_COUNT_COUNT (cf : Tab Word) (t cm : Nat) : Nat := bits (regWord cf 0x0 (0x10050c18 + 0x1000000 * t + 0x40 * cm)) 0 16

/-! Fields of 09_tile_sequencer.md. -/

def Fld.SQ_CFG_ENTRY (cf : Tab Word) (t : Nat) : Nat := bits (regWord cf 0x0 (0x10060000 + 0x1000000 * t)) 16 16
def Fld.SQ_CFG_CODE_LEN (cf : Tab Word) (t : Nat) : Nat := bits (regWord cf 0x0 (0x10060000 + 0x1000000 * t)) 0 16
def Fld.SQ_INBOX_LEN (cf : Tab Word) (t : Nat) : Nat := bits (regWord cf 0x0 (0x10060004 + 0x1000000 * t)) 16 16
def Fld.SQ_INBOX_BASE (cf : Tab Word) (t : Nat) : Nat := bits (regWord cf 0x0 (0x10060004 + 0x1000000 * t)) 0 16
def Fld.SQ_MBTO_TO (cf : Tab Word) (t m : Nat) : Nat := bits (regWord cf 0x0 (0x10060180 + 0x1000000 * t + 0x4 * m)) 0 20

/-! Fields of 10_acquisition.md. -/

def Fld.AQ_RING_EN (cf : Tab Word) (t : Nat) : Bool := bit (regWord cf 0x0 (0x10070000 + 0x1000000 * t)) 31
def Fld.AQ_RING_SLOTS (cf : Tab Word) (t : Nat) : Nat := bits (regWord cf 0x0 (0x10070000 + 0x1000000 * t)) 24 4
def Fld.AQ_RING_SLOT_BLOCKS (cf : Tab Word) (t : Nat) : Nat := bits (regWord cf 0x0 (0x10070000 + 0x1000000 * t)) 0 24
def Fld.AQ_SAMPLE_MODE (cf : Tab Word) (t : Nat) : Bool := bit (regWord cf 0x1 (0x10070004 + 0x1000000 * t)) 31
def Fld.AQ_SAMPLE_TRIG_EN (cf : Tab Word) (t : Nat) : Bool := bit (regWord cf 0x1 (0x10070004 + 0x1000000 * t)) 30
def Fld.AQ_SAMPLE_GRP (cf : Tab Word) (t : Nat) : Nat := bits (regWord cf 0x1 (0x10070004 + 0x1000000 * t)) 28 2
def Fld.AQ_SAMPLE_DIV (cf : Tab Word) (t : Nat) : Nat := bits (regWord cf 0x1 (0x10070004 + 0x1000000 * t)) 0 16
def Fld.AQ_PRE_ROWS (cf : Tab Word) (t : Nat) : Nat := bits (regWord cf 0x0 (0x10070008 + 0x1000000 * t)) 0 24
def Fld.AQ_POST_ROWS (cf : Tab Word) (t : Nat) : Nat := bits (regWord cf 0x1 (0x1007000c + 0x1000000 * t)) 0 24
def Fld.AQ_CH_WIDE (cf : Tab Word) (t c : Nat) : Bool := bit (regWord cf 0x0 (0x10070040 + 0x1000000 * t + 0x4 * c)) 15
def Fld.AQ_CH_HALF (cf : Tab Word) (t c : Nat) : Bool := bit (regWord cf 0x0 (0x10070040 + 0x1000000 * t + 0x4 * c)) 14
def Fld.AQ_CH_SRC (cf : Tab Word) (t c : Nat) : Nat := bits (regWord cf 0x0 (0x10070040 + 0x1000000 * t + 0x4 * c)) 0 8
def Fld.AQ_TCMP_EN (cf : Tab Word) (t k : Nat) : Bool := bit (regWord cf 0x0 (0x10070080 + 0x1000000 * t + 0x8 * k)) 31
def Fld.AQ_TCMP_CH (cf : Tab Word) (t k : Nat) : Nat := bits (regWord cf 0x0 (0x10070080 + 0x1000000 * t + 0x8 * k)) 24 4
def Fld.AQ_TCMP_OP (cf : Tab Word) (t k : Nat) : Nat := bits (regWord cf 0x0 (0x10070080 + 0x1000000 * t + 0x8 * k)) 16 2
def Fld.AQ_TTHR_T (cf : Tab Word) (t k : Nat) : Nat := regWord cf 0x0 (0x10070084 + 0x1000000 * t + 0x8 * k)
def Fld.AQ_TSTATE_COND_A (cf : Tab Word) (t s : Nat) : Nat := bits (regWord cf 0x0 (0x100700c0 + 0x1000000 * t + 0x4 * s)) 26 6
def Fld.AQ_TSTATE_NEXT_A (cf : Tab Word) (t s : Nat) : Nat := bits (regWord cf 0x0 (0x100700c0 + 0x1000000 * t + 0x4 * s)) 23 3
def Fld.AQ_TSTATE_FIRE_A (cf : Tab Word) (t s : Nat) : Bool := bit (regWord cf 0x0 (0x100700c0 + 0x1000000 * t + 0x4 * s)) 22
def Fld.AQ_TSTATE_CLR_A (cf : Tab Word) (t s : Nat) : Nat := bits (regWord cf 0x0 (0x100700c0 + 0x1000000 * t + 0x4 * s)) 20 2
def Fld.AQ_TSTATE_COND_B (cf : Tab Word) (t s : Nat) : Nat := bits (regWord cf 0x0 (0x100700c0 + 0x1000000 * t + 0x4 * s)) 10 6
def Fld.AQ_TSTATE_NEXT_B (cf : Tab Word) (t s : Nat) : Nat := bits (regWord cf 0x0 (0x100700c0 + 0x1000000 * t + 0x4 * s)) 7 3
def Fld.AQ_TSTATE_FIRE_B (cf : Tab Word) (t s : Nat) : Bool := bit (regWord cf 0x0 (0x100700c0 + 0x1000000 * t + 0x4 * s)) 6
def Fld.AQ_TSTATE_CLR_B (cf : Tab Word) (t s : Nat) : Nat := bits (regWord cf 0x0 (0x100700c0 + 0x1000000 * t + 0x4 * s)) 4 2
def Fld.AQ_TCNT_INC (cf : Tab Word) (t i : Nat) : Nat := bits (regWord cf 0x1 (0x100700e0 + 0x1000000 * t + 0x4 * i)) 26 6
def Fld.AQ_TCNT_LIMIT (cf : Tab Word) (t i : Nat) : Nat := bits (regWord cf 0x1 (0x100700e0 + 0x1000000 * t + 0x4 * i)) 0 16
def Fld.AQ_TTMR_T (cf : Tab Word) (t i : Nat) : Nat := bits (regWord cf 0x3e8 (0x100700e8 + 0x1000000 * t + 0x4 * i)) 0 23
def Fld.AQ_TFIELD_POL (cf : Tab Word) (t : Nat) : Bool := bit (regWord cf 0x40 (0x100700f0 + 0x1000000 * t)) 6
def Fld.AQ_TFIELD_CH (cf : Tab Word) (t : Nat) : Nat := bits (regWord cf 0x40 (0x100700f0 + 0x1000000 * t)) 0 6
def Fld.AQ_HUB_ARM_LO_TICK (cf : Tab Word) : Nat := regWord cf 0x0 (0x40000)
def Fld.AQ_HUB_ARM_HI_TICK (cf : Tab Word) : Nat := regWord cf 0x0 (0x40004)

/-! Fields of 11_berath_link.md. -/

def Fld.BL_NET_CFG_START (cf : Tab Word) : Nat := bits (regWord cf 0x0 (0x50000)) 30 2
def Fld.BL_NET_CFG_QS_FALLBACK (cf : Tab Word) : Bool := bit (regWord cf 0x0 (0x50000)) 29
def Fld.BL_NET_CFG_JOIN (cf : Tab Word) : Bool := bit (regWord cf 0x0 (0x50000)) 28
def Fld.BL_NET_CFG_MC_AGREE (cf : Tab Word) : Bool := bit (regWord cf 0x0 (0x50000)) 27
def Fld.BL_NET_CFG_QS_WAIT (cf : Tab Word) : Nat := bits (regWord cf 0x0 (0x50000)) 0 16
def Fld.BL_NET_PHASE_PHASE (cf : Tab Word) : Nat := bits (regWord cf 0x0 (0x50004)) 0 26
def Fld.BL_MODE_MODE (cf : Tab Word) : Nat := bits (regWord cf 0x0 (0x50008)) 0 3
def Fld.BL_PORT_CFG_EN (cf : Tab Word) (p : Nat) : Bool := bit (regWord cf 0x0 (0x50100 + 0x80 * p)) 31
def Fld.BL_PORT_CFG_CHAN (cf : Tab Word) (p : Nat) : Nat := bits (regWord cf 0x0 (0x50100 + 0x80 * p)) 29 2
def Fld.BL_PORT_CFG_COLDSTART (cf : Tab Word) (p : Nat) : Bool := bit (regWord cf 0x0 (0x50100 + 0x80 * p)) 28
def Fld.BL_PORT_CFG_SEAL (cf : Tab Word) (p : Nat) : Bool := bit (regWord cf 0x0 (0x50100 + 0x80 * p)) 27
def Fld.BL_PORT_CFG_EXPECT (cf : Tab Word) (p : Nat) : Bool := bit (regWord cf 0x0 (0x50100 + 0x80 * p)) 26
def Fld.BL_PORT_CFG_SD_POL (cf : Tab Word) (p : Nat) : Bool := bit (regWord cf 0x0 (0x50100 + 0x80 * p)) 25
def Fld.BL_PORT_CFG_DLY (cf : Tab Word) (p : Nat) : Nat := bits (regWord cf 0x0 (0x50100 + 0x80 * p)) 0 13
def Fld.BL_PORT_ID_LO_ID (cf : Tab Word) (p : Nat) : Nat := regWord cf 0x0 (0x50104 + 0x80 * p)
def Fld.BL_PORT_ID_HI_ID (cf : Tab Word) (p : Nat) : Nat := regWord cf 0x0 (0x50108 + 0x80 * p)
def Fld.BL_PORT_FWD_DEST (cf : Tab Word) (p : Nat) : Nat := bits (regWord cf 0x0 (0x5010c + 0x80 * p)) 0 12
def Fld.BL_NX_BIND_EN (cf : Tab Word) (nx : Nat) : Bool := bit (regWord cf 0x0 (0x51000 + 0x20 * nx)) 31
def Fld.BL_NX_BIND_PORT (cf : Tab Word) (nx : Nat) : Nat := bits (regWord cf 0x0 (0x51000 + 0x20 * nx)) 24 4
def Fld.BL_NX_BIND_DRIVE (cf : Tab Word) (nx : Nat) : Nat := bits (regWord cf 0x0 (0x51000 + 0x20 * nx)) 20 3
def Fld.BL_NX_BIND_BIND_DN (cf : Tab Word) (nx : Nat) : Nat := bits (regWord cf 0x0 (0x51000 + 0x20 * nx)) 8 8
def Fld.BL_NX_BIND_BIND_UP (cf : Tab Word) (nx : Nat) : Nat := bits (regWord cf 0x0 (0x51000 + 0x20 * nx)) 0 8
def Fld.BL_NX_LEAD_LEAD (cf : Tab Word) (nx : Nat) : Nat := bits (regWord cf 0x0 (0x51004 + 0x20 * nx)) 0 23
def Fld.BL_NX_SPK_SPK (cf : Tab Word) (nx : Nat) : Nat := regWord cf 0x40000000 (0x51008 + 0x20 * nx)
def Fld.BL_NX_CFG_SPSH (cf : Tab Word) (nx : Nat) : Nat := bits (regWord cf 0x300 (0x5100c + 0x20 * nx)) 24 6
def Fld.BL_NX_CFG_LOSS_N (cf : Tab Word) (nx : Nat) : Nat := bits (regWord cf 0x300 (0x5100c + 0x20 * nx)) 8 8
def Fld.BL_NX_TLIM_P_TLIM (cf : Tab Word) (nx : Nat) : Nat := regWord cf 0x7fffffff (0x51010 + 0x20 * nx)
def Fld.BL_NX_TLIM_N_TLIM (cf : Tab Word) (nx : Nat) : Nat := regWord cf 0x80000000 (0x51014 + 0x20 * nx)
def Fld.BL_SPIN_EN (cf : Tab Word) (t n : Nat) : Bool := bit (regWord cf 0x0 (0x52000 + 0x80 * t + 0x4 * n)) 31
def Fld.BL_SPIN_PORT (cf : Tab Word) (t n : Nat) : Nat := bits (regWord cf 0x0 (0x52000 + 0x80 * t + 0x4 * n)) 24 4
def Fld.BL_SPIN_DRIVE (cf : Tab Word) (t n : Nat) : Nat := bits (regWord cf 0x0 (0x52000 + 0x80 * t + 0x4 * n)) 20 3
def Fld.BL_SPIN_BIND (cf : Tab Word) (t n : Nat) : Nat := bits (regWord cf 0x0 (0x52000 + 0x80 * t + 0x4 * n)) 0 8

/-! Fields of 12_network_time.md. -/

def Fld.NT_RATE_RATE (cf : Tab Word) : Nat := regWord cf 0x0 (0x6000c)
def Fld.NT_STEP_LO_AMOUNT (cf : Tab Word) : Nat := regWord cf 0x0 (0x60010)
def Fld.NT_STEP_HI_AMOUNT (cf : Tab Word) : Nat := regWord cf 0x0 (0x60014)
def Fld.NT_TEO_CFG_POL (cf : Tab Word) : Nat := bits (regWord cf 0x0 (0x60044)) 0 8
def Fld.NT_EV_CFG_BASE (cf : Tab Word) (u : Nat) : Bool := bit (regWord cf 0x0 (0x60100 + 0x40 * u)) 31
def Fld.NT_EV_CFG_MODE (cf : Tab Word) (u : Nat) : Nat := bits (regWord cf 0x0 (0x60100 + 0x40 * u)) 28 2
def Fld.NT_EV_CFG_ACT (cf : Tab Word) (u : Nat) : Nat := bits (regWord cf 0x0 (0x60100 + 0x40 * u)) 24 3
def Fld.NT_EV_CFG_LAND (cf : Tab Word) (u : Nat) : Nat := bits (regWord cf 0x0 (0x60100 + 0x40 * u)) 16 3
def Fld.NT_EV_CFG_TILE (cf : Tab Word) (u : Nat) : Nat := bits (regWord cf 0x0 (0x60100 + 0x40 * u)) 12 3
def Fld.NT_EV_CFG_CMP (cf : Tab Word) (u : Nat) : Nat := bits (regWord cf 0x0 (0x60100 + 0x40 * u)) 8 2
def Fld.NT_EV_T_LO_T (cf : Tab Word) (u : Nat) : Nat := regWord cf 0x0 (0x60104 + 0x40 * u)
def Fld.NT_EV_T_HI_T (cf : Tab Word) (u : Nat) : Nat := regWord cf 0x0 (0x60108 + 0x40 * u)
def Fld.NT_EV_PER_VALUE (cf : Tab Word) (u : Nat) : Nat := regWord cf 0xa (0x6010c + 0x40 * u)
def Fld.NT_EV_WIDTH_VALUE (cf : Tab Word) (u : Nat) : Nat := regWord cf 0xa (0x60110 + 0x40 * u)
def Fld.NT_PTP_CFG_EN (cf : Tab Word) (m : Nat) : Bool := bit (regWord cf 0x0 (0x60c00 + 0x40 * m)) 31
def Fld.NT_PTP_CFG_TXLAT (cf : Tab Word) (m : Nat) : Nat := bits (regWord cf 0x0 (0x60c00 + 0x40 * m)) 16 12
def Fld.NT_PTP_CFG_RXLAT (cf : Tab Word) (m : Nat) : Nat := bits (regWord cf 0x0 (0x60c00 + 0x40 * m)) 0 12

/-! Fields of 13_field_io.md. -/

def Fld.FIO_WD_WD_T (cf : Tab Word) (f : Nat) : Nat := bits (regWord cf 0x64 (0x20000004 + 0x1000000 * f)) 0 9
def Fld.FIO_SAFE_SAFE (cf : Tab Word) (f : Nat) : Nat := bits (regWord cf 0x0 (0x20000008 + 0x1000000 * f)) 0 16
def Fld.FIO_CH_CFG_FUNC (cf : Tab Word) (f k : Nat) : Nat := bits (regWord cf 0x0 (0x20000100 + 0x1000000 * f + 0x8 * k)) 29 3
def Fld.FIO_CH_CFG_OWNER (cf : Tab Word) (f k : Nat) : Bool := bit (regWord cf 0x0 (0x20000100 + 0x1000000 * f + 0x8 * k)) 28
def Fld.FIO_CH_CFG_GRP (cf : Tab Word) (f k : Nat) : Nat := bits (regWord cf 0x0 (0x20000100 + 0x1000000 * f + 0x8 * k)) 26 2
def Fld.FIO_CH_CFG_TS_EN (cf : Tab Word) (f k : Nat) : Bool := bit (regWord cf 0x0 (0x20000100 + 0x1000000 * f + 0x8 * k)) 25
def Fld.FIO_CH_CFG_TSRC (cf : Tab Word) (f k : Nat) : Nat := bits (regWord cf 0x0 (0x20000100 + 0x1000000 * f + 0x8 * k)) 21 4
def Fld.FIO_CH_CFG_BIT (cf : Tab Word) (f k : Nat) : Nat := bits (regWord cf 0x0 (0x20000100 + 0x1000000 * f + 0x8 * k)) 16 5
def Fld.FIO_CH_CFG_SRC (cf : Tab Word) (f k : Nat) : Nat := bits (regWord cf 0x0 (0x20000100 + 0x1000000 * f + 0x8 * k)) 8 8
def Fld.FIO_CH_CFG_ROUTE (cf : Tab Word) (f k : Nat) : Nat := bits (regWord cf 0x0 (0x20000100 + 0x1000000 * f + 0x8 * k)) 0 8
def Fld.FIO_CH_PAR_PULSED (cf : Tab Word) (f k : Nat) : Bool := bit (regWord cf 0x1 (0x20000104 + 0x1000000 * f + 0x8 * k)) 31
def Fld.FIO_CH_PAR_DARK (cf : Tab Word) (f k : Nat) : Bool := bit (regWord cf 0x1 (0x20000104 + 0x1000000 * f + 0x8 * k)) 30
def Fld.FIO_CH_PAR_OL_EN (cf : Tab Word) (f k : Nat) : Bool := bit (regWord cf 0x1 (0x20000104 + 0x1000000 * f + 0x8 * k)) 29
def Fld.FIO_CH_PAR_DEB (cf : Tab Word) (f k : Nat) : Nat := bits (regWord cf 0x1 (0x20000104 + 0x1000000 * f + 0x8 * k)) 0 16

/-! Fields of 14_safety.md. -/

def Fld.SF_PAR_CHECK_CHECK (cf : Tab Word) : Nat := regWord cf 0x0 (0x70008)
def Fld.SF_ZONE_CFG_EN (cf : Tab Word) (z : Nat) : Bool := bit (regWord cf 0x640000 (0x70100 + 0x10 * z)) 31
def Fld.SF_ZONE_CFG_CAT (cf : Tab Word) (z : Nat) : Bool := bit (regWord cf 0x640000 (0x70100 + 0x10 * z)) 30
def Fld.SF_ZONE_CFG_PAIR (cf : Tab Word) (z : Nat) : Bool := bit (regWord cf 0x640000 (0x70100 + 0x10 * z)) 29
def Fld.SF_ZONE_CFG_AUTO (cf : Tab Word) (z : Nat) : Bool := bit (regWord cf 0x640000 (0x70100 + 0x10 * z)) 28
def Fld.SF_ZONE_CFG_DISC_T (cf : Tab Word) (z : Nat) : Nat := bits (regWord cf 0x640000 (0x70100 + 0x10 * z)) 16 10
def Fld.SF_ZONE_CFG_RST_SRC (cf : Tab Word) (z : Nat) : Nat := bits (regWord cf 0x640000 (0x70100 + 0x10 * z)) 0 8
def Fld.SF_ZONE_IN_IN0 (cf : Tab Word) (z : Nat) : Nat := bits (regWord cf 0x0 (0x70104 + 0x10 * z)) 0 8
def Fld.SF_ZONE_IN_IN1 (cf : Tab Word) (z : Nat) : Nat := bits (regWord cf 0x0 (0x70104 + 0x10 * z)) 8 8
def Fld.SF_ZONE_IN_IN2 (cf : Tab Word) (z : Nat) : Nat := bits (regWord cf 0x0 (0x70104 + 0x10 * z)) 16 8
def Fld.SF_ZONE_IN_IN3 (cf : Tab Word) (z : Nat) : Nat := bits (regWord cf 0x0 (0x70104 + 0x10 * z)) 24 8
def Fld.SF_AX_CFG_BRK_EN (cf : Tab Word) (a : Nat) : Bool := bit (regWord cf 0x0 (0x71000 + 0x20 * a)) 31
def Fld.SF_AX_CFG_GRACE_BT (cf : Tab Word) (a : Nat) : Bool := bit (regWord cf 0x0 (0x71000 + 0x20 * a)) 30
def Fld.SF_AX_CFG_BRK_CH (cf : Tab Word) (a : Nat) : Nat := bits (regWord cf 0x0 (0x71000 + 0x20 * a)) 24 6
def Fld.SF_AX_CFG_ZONES (cf : Tab Word) (a : Nat) : Nat := bits (regWord cf 0x0 (0x71000 + 0x20 * a)) 0 16
def Fld.SF_AX_TIME_BRK_ENG_T (cf : Tab Word) (a : Nat) : Nat := bits (regWord cf 0x0 (0x71004 + 0x20 * a)) 16 11
def Fld.SF_AX_TIME_STOP_T (cf : Tab Word) (a : Nat) : Nat := bits (regWord cf 0x0 (0x71004 + 0x20 * a)) 0 16
def Fld.SF_AX_GRACE_GRACE_T (cf : Tab Word) (a : Nat) : Nat := bits (regWord cf 0x12c0000 (0x71008 + 0x20 * a)) 16 12
def Fld.SF_AX_GRACE_BRK_REL_T (cf : Tab Word) (a : Nat) : Nat := bits (regWord cf 0x12c0000 (0x71008 + 0x20 * a)) 0 11
def Fld.SF_AX_GRACE_V_GRACE_V (cf : Tab Word) (a : Nat) : Nat := regWord cf 0x0 (0x7100c + 0x20 * a)
def Fld.SF_AX_BT_BT_I (cf : Tab Word) (a : Nat) : Nat := bits (regWord cf 0x3e8 (0x71010 + 0x20 * a)) 16 16
def Fld.SF_AX_BT_BT_T (cf : Tab Word) (a : Nat) : Nat := bits (regWord cf 0x3e8 (0x71010 + 0x20 * a)) 0 14
def Fld.SF_AX_BT_LIM_BT_INT (cf : Tab Word) (a : Nat) : Nat := bits (regWord cf 0x0 (0x71014 + 0x20 * a)) 16 16
def Fld.SF_AX_BT_LIM_BT_TOL (cf : Tab Word) (a : Nat) : Nat := bits (regWord cf 0x0 (0x71014 + 0x20 * a)) 0 16
def Fld.SF_AX_STO_STO_INT (cf : Tab Word) (a : Nat) : Nat := bits (regWord cf 0x0 (0x71018 + 0x20 * a)) 0 16
def Fld.SF_CONN_CFG_EN (cf : Tab Word) (cn : Nat) : Bool := bit (regWord cf 0x0 (0x73000 + 0x20 * cn)) 31
def Fld.SF_CONN_CFG_PATH (cf : Tab Word) (cn : Nat) : Bool := bit (regWord cf 0x0 (0x73000 + 0x20 * cn)) 30
def Fld.SF_CONN_CFG_PORT (cf : Tab Word) (cn : Nat) : Nat := bits (regWord cf 0x0 (0x73000 + 0x20 * cn)) 26 4
def Fld.SF_CONN_CFG_SESSION (cf : Tab Word) (cn : Nat) : Nat := bits (regWord cf 0x0 (0x73000 + 0x20 * cn)) 23 3
def Fld.SF_CONN_CFG_TXSRC (cf : Tab Word) (cn : Nat) : Bool := bit (regWord cf 0x0 (0x73000 + 0x20 * cn)) 22
def Fld.SF_CONN_CFG_TILE (cf : Tab Word) (cn : Nat) : Nat := bits (regWord cf 0x0 (0x73000 + 0x20 * cn)) 19 3
def Fld.SF_CONN_CFG_BIND_DN (cf : Tab Word) (cn : Nat) : Nat := bits (regWord cf 0x0 (0x73000 + 0x20 * cn)) 8 8
def Fld.SF_CONN_CFG_BIND_UP (cf : Tab Word) (cn : Nat) : Nat := bits (regWord cf 0x0 (0x73000 + 0x20 * cn)) 0 8
def Fld.SF_CONN_UID_UID (cf : Tab Word) (cn : Nat) : Nat := regWord cf 0x0 (0x73004 + 0x20 * cn)
def Fld.SF_CONN_WT_W_T (cf : Tab Word) (cn : Nat) : Nat := bits (regWord cf 0x7d0 (0x73008 + 0x20 * cn)) 0 20
def Fld.SF_CONN_SEND_SEND_P (cf : Tab Word) (cn : Nat) : Nat := bits (regWord cf 0x4 (0x7300c + 0x20 * cn)) 0 10

/-! Fields of 15_trust_and_lifecycle.md. -/

def Fld.SEC_RTC_LO_SECONDS (cf : Tab Word) : Nat := regWord cf 0x0 (0x80034)
def Fld.SEC_RTC_HI_SECONDS (cf : Tab Word) : Nat := regWord cf 0x0 (0x80038)
def Fld.SEC_TAMPER_ACT1 (cf : Tab Word) : Bool := bit (regWord cf 0x0 (0x8003c)) 6
def Fld.SEC_TAMPER_POL1 (cf : Tab Word) : Bool := bit (regWord cf 0x0 (0x8003c)) 5
def Fld.SEC_TAMPER_EN1 (cf : Tab Word) : Bool := bit (regWord cf 0x0 (0x8003c)) 4
def Fld.SEC_TAMPER_ACT0 (cf : Tab Word) : Bool := bit (regWord cf 0x0 (0x8003c)) 2
def Fld.SEC_TAMPER_POL0 (cf : Tab Word) : Bool := bit (regWord cf 0x0 (0x8003c)) 1
def Fld.SEC_TAMPER_EN0 (cf : Tab Word) : Bool := bit (regWord cf 0x0 (0x8003c)) 0
def Fld.SEC_IDLE_IDLE_T (cf : Tab Word) : Nat := bits (regWord cf 0x3c (0x80040)) 0 12
def Fld.SEC_PORT_CFG_REKEY_M (cf : Tab Word) (p : Nat) : Nat := bits (regWord cf 0x0 (0x80200 + 0x10 * p)) 0 24
def Fld.SEC_PEER_HASH (cf : Tab Word) (p w : Nat) : Nat := regWord cf 0x0 (0x81000 + 0x40 * p + 0x4 * w)

/-! Fields of 16_health_and_self_test.md. -/

def Fld.HL_LOG_SEL_SEQ (cf : Tab Word) : Nat := regWord cf 0x0 (0x90100)

/-! Fields of 17_host_ports_and_registers.md. -/

def Fld.HP_MAC_CFG_EN (cf : Tab Word) (m : Nat) : Bool := bit (regWord cf 0x0 (0xa0000 + 0x40 * m)) 31
def Fld.HP_MAC_CFG_PHY_ADDR (cf : Tab Word) (m : Nat) : Nat := bits (regWord cf 0x0 (0xa0000 + 0x40 * m)) 8 5
def Fld.HP_MAC_IP_ADDR (cf : Tab Word) (m : Nat) : Nat := regWord cf 0x0 (0xa0004 + 0x40 * m)
def Fld.HP_RD_LIMIT_LIMIT (cf : Tab Word) : Nat := bits (regWord cf 0x32 (0xa0104)) 0 9

end Sys2Proof.Machine
end

