-- ==== Sys2Proof/Machine/Ops.lean ====
section
/-! DEFINITION. The named operations over the block that every family uses: acting on the block, powered tiles, slots and their contexts, the event log, fault reactions of axes, refusal of enables. -/

namespace Sys2Proof.Machine

/-- A command that acts on the block at the present tick; the lattice and the queue stand. -/
def onBlock (f : Nat → Block → Block) (s : State) : Host.Outcome State Fault Refusal :=
  .next { s with b := f s.clk.lattice s.b }

/-- Tile `t` is powered: an image is active and its tile set holds the tile (R34). -/
def tileOn (b : Block) (t : Nat) : Bool := b.run.on && decide (t < b.run.tileSet)

/-- Tile `t` runs: powered, and its frames are not suspended by a self-test (R605). -/
def tileLive (b : Block) (t : Nat) : Bool := tileOn b t && decide (b.hl.st.tile ≠ some t) && decide (b.hl.st.resume ≠ some t)

/-- A command that acts on tile `t`: no effect on an unpowered tile (R36) and on one under test (R605). -/
def onTile (t : Nat) (f : Nat → Block → Block) (s : State) : Host.Outcome State Fault Refusal :=
  onBlock (fun now b => if tileLive b t then f now b else b) s

/-- A command that acts on tile `t` even while its frames are suspended: a frame sampled before still completes and applies (R605). -/
def onPowered (t : Nat) (f : Nat → Block → Block) (s : State) : Host.Outcome State Fault Refusal :=
  onBlock (fun now b => if tileOn b t then f now b else b) s

/-- A command that the hub serves once it has left reset. -/
def onHub (f : Nat → Block → Block) (s : State) : Host.Outcome State Fault Refusal :=
  onBlock (fun now b => if s.clk.up then f now b else b) s

/-- A command that acts while the block runs (an image is active). -/
def onRun (f : Nat → Block → Block) (s : State) : Host.Outcome State Fault Refusal :=
  onBlock (fun now b => if b.run.on then f now b else b) s

/-- A word of a register with its reset word set: a table entry only where it differs. -/
def setReg (a : Nat) (reset v : Word) (b : Block) : Block := { b with cfg := tabSet reset b.cfg a v }

/-- The tiles that run. -/
def liveTiles (b : Block) : List Nat := (List.range 8).filter (tileLive b)

/-- `f` applied for each number below `n`, in ascending order. -/
def forN (n : Nat) (f : Nat → Block → Block) (b : Block) : Block := (List.range n).foldl (fun x i => f i x) b

/-- `f` applied for each element, in order. -/
def forL {α : Type} (l : List α) (f : α → Block → Block) (b : Block) : Block := l.foldl (fun x i => f i x) b

/-- The tick of action `a` is done once: nothing when it has been performed at this tick already. -/
def once (a : Nat) (f : Block → Block) (b : Block) : Block :=
  if b.marks.contains a then b else f { b with marks := a :: b.marks }

/-! ### Slots and contexts -/

/-- Slot types (AX_SLOT_TYPE.TYPE). -/
inductive SlotTy where
  | unused | n3ph | nstep | pulse | networked | virtual
  deriving DecidableEq, Repr

/-- The type of a slot; a code that R32 does not list for the slot, which no image can give it, counts as UNUSED. -/
def slotTy (b : Block) (t j : Nat) : SlotTy :=
  match Fld.AX_SLOT_TYPE_TYPE b.cfg t j with
  | 1 => if j < 4 then .n3ph else .unused
  | 2 => if j < 4 then .nstep else .unused
  | 3 => if 4 ≤ j && j < 8 then .pulse else .unused
  | 4 => if 8 ≤ j then .networked else .unused
  | 5 => if 8 ≤ j then .virtual else .unused
  | _ => .unused

/-- A native slot in use. -/
def isNative (b : Block) (t j : Nat) : Bool :=
  decide (j < 4) && (decide (slotTy b t j = .n3ph) || decide (slotTy b t j = .nstep))

/-- The contexts that a slot owns (R30). -/
def ctxsOf (b : Block) (t j : Nat) : List Nat :=
  (List.range 32).filter fun c => decide (Fld.CE_LOOP_ALLOC_NSEC b.cfg t c ≠ 0) && decide (Fld.CE_LOOP_ALLOC_SLOT b.cfg t c = j)

/-- The contexts in use of a rate group, ascending (R122). -/
def ctxsIn (b : Block) (t g : Nat) : List Nat :=
  (List.range 32).filter fun c => decide (Fld.CE_LOOP_ALLOC_NSEC b.cfg t c ≠ 0) && decide (Fld.CE_LOOP_ALLOC_GROUP b.cfg t c = g)

/-- A context is one of two or more alternatives of its slot (R162): ALT, and another with ALT has the same destination. -/
def alternative (b : Block) (t c : Nat) : Bool :=
  let alt := fun c => decide (Fld.CE_LOOP_ALLOC_KIND b.cfg t c = 0) && Fld.CE_LOOP_OUT_ALT b.cfg t c
  alt c && (ctxsOf b t (Fld.CE_LOOP_ALLOC_SLOT b.cfg t c)).any fun k =>
    decide (k ≠ c) && alt k && decide (Fld.CE_LOOP_OUT_DST b.cfg t k = Fld.CE_LOOP_OUT_DST b.cfg t c)

/-- The alternatives of a slot (R162). -/
def altsOf (b : Block) (t j : Nat) : List Nat := (ctxsOf b t j).filter (alternative b t)

/-- The alternative of a slot for a mode, if there is one. -/
def altOf (b : Block) (t j m : Nat) : Option Nat := (altsOf b t j).find? fun c => decide (Fld.CE_LOOP_OUT_MODE b.cfg t c = m)

/-- The alternative for a mode with the destination of context `c` (R162, R165). -/
def altBeside (b : Block) (t c m : Nat) : Option Nat :=
  (altsOf b t (Fld.CE_LOOP_ALLOC_SLOT b.cfg t c)).find? fun k =>
    decide (Fld.CE_LOOP_OUT_MODE b.cfg t k = m) && decide (Fld.CE_LOOP_OUT_DST b.cfg t k = Fld.CE_LOOP_OUT_DST b.cfg t c)

/-- A context of a slot's current loops (R132, R191): `k` is 1 for d, 2 for q. -/
def curCtx (b : Block) (t j k : Nat) : Option Nat :=
  (ctxsOf b t j).find? fun c => decide (Fld.CE_LOOP_ALLOC_KIND b.cfg t c = k)

/-- The group that holds a native axis's current loops (R182). -/
def curGroup (b : Block) (t j : Nat) : Nat :=
  match curCtx b t j 1 with
  | some c => Fld.CE_LOOP_ALLOC_GROUP b.cfg t c
  | none => 0

/-- A period of a group in ticks; 0: unused (R54). -/
def grpPeriod (b : Block) (t g : Nat) : Nat := Fld.TL_GRP_PERIOD_PERIOD b.cfg t g

/-- `now` is a sample instant of a group (R55). -/
def isSample (b : Block) (now t g : Nat) : Bool :=
  let p := grpPeriod b t g
  decide (p ≠ 0) && decide (((now : Int) - 10 * Fld.TL_TILE_PHASE_PHASE b.cfg t) % (10 * p) = 0)

/-- The fastest group in use of a tile: shortest period, lowest number (R54). -/
def fastGroup (b : Block) (t : Nat) : Option Nat :=
  (List.range 4).foldl (fun m g =>
    if grpPeriod b t g = 0 then m
    else match m with
      | none => some g
      | some h => if grpPeriod b t g < grpPeriod b t h then some g else m) none

/-- A context of the slot reads a source code in any of its four inputs (R134). -/
def readsSrc (b : Block) (t j code : Nat) : Bool :=
  (ctxsOf b t j).any fun c => decide (Fld.CE_LOOP_SRC_REF_SRC b.cfg t c = code) || decide (Fld.CE_LOOP_SRC_FB_SRC b.cfg t c = code)
    || decide (Fld.CE_LOOP_SRC_FF_SRC b.cfg t c = code) || decide (Fld.CE_LOOP_SRC_SV_SRC b.cfg t c = code)

/-- The quadrature channels assigned to a slot (R31). -/
def chansOf (b : Block) (t j : Nat) : List Nat :=
  (List.range 8).filter fun k => Fld.QD_ASSIGN_EN b.cfg t k && decide (Fld.QD_ASSIGN_SLOT b.cfg t k = j)

/-- An axis is disabled in the sense of R673: native DISABLED or STO, pulse or networked DISABLED; an enable that waits does not count. -/
def axDisabled (b : Block) (t j : Nat) : Bool :=
  match slotTy b t j with
  | .unused => true
  | .virtual => false
  | .pulse => decide ((b.pulseAt t (j - 4)).st = .disabled)
  | .networked => decide ((b.nxAt t (j - 8)).st = .disabled) || decide ((b.nxAt t (j - 8)).st = .enabling)
  | _ => decide ((b.natAt t j).st = .disabled) || decide ((b.natAt t j).st = .sto)

/-- An axis is disabled as the structural items of R96 ask for: no enable waits, and a virtual slot's generator is IDLE. -/
def axIdle (b : Block) (t j : Nat) : Bool :=
  match slotTy b t j with
  | .virtual => decide ((b.genAt t j).st = .idle)
  | .pulse => axDisabled b t j && (b.pulseAt t (j - 4)).wait.isNone
  | .networked => decide ((b.nxAt t (j - 8)).st = .disabled)
  | .unused => true
  | _ => axDisabled b t j && (b.natAt t j).wait.isNone

/-- An axis is enabled (R265, R287): its state is ENABLED; a virtual slot always. -/
def axEnabled (b : Block) (t j : Nat) : Bool :=
  match slotTy b t j with
  | .unused => false
  | .virtual => true
  | .pulse => decide ((b.pulseAt t (j - 4)).st = .enabled)
  | .networked => decide ((b.nxAt t (j - 8)).st = .enabled)
  | _ => decide ((b.natAt t j).st = .enabled)

/-- The axis of a context counts as enabled for R140 and R141. -/
def ctxEnabled (b : Block) (t j : Nat) : Bool :=
  match slotTy b t j with
  | .unused => false
  | .virtual => true
  | .pulse => !axDisabled b t j
  | _ => !axDisabled b t j

/-- The safety number of an axis, 16 × tile + slot. -/
def axNo (t j : Nat) : Nat := 16 * t + j

/-! ### The event log (R599 to R601) -/

/-- An entry reaches the NVM ring of 16,384 entries. -/
def logToNvm (e : LogEntry) (n : Nvm) : Nvm :=
  let l := n.log ++ [e]
  { n with log := l.drop (l.length - 16384) }

/-- An entry is written to the tail of 16; one that would leave it unsaved is written to NVM (R600). -/
def logAppend (e : LogEntry) (b : Block) : Block :=
  let tl := b.bk.tail ++ [e]
  if tl.length ≤ 16 then { b with bk := { b.bk with tail := tl } }
  else
    let b' := { b with bk := { b.bk with tail := tl.drop 1, tailSaved := b.bk.tailSaved - 1 } }
    if b.bk.tailSaved = 0 then { b' with nv := logToNvm (tl.headD {}) b.nv } else b'

/-- An event with its code, source die and data (R601): one entry per second for each code and source. -/
def logEvent (now code source data : Nat) (b : Block) : Block :=
  let key := code * 256 + source
  let m := tabGet ({} : LogMark) b.hl.marks key
  let recent := match m.at_ with
    | some t => decide (now < t + 1000000000)
    | none => false
  if recent then
    { b with hl := { b.hl with marks := tabSet {} b.hl.marks key { m with sup := m.sup + 1 }, suppressed := b.hl.suppressed + 1 } }
  else
    let e : LogEntry :=
      { seq := b.nv.logSeq, boot := b.nv.bootCount, lattice := now, rtc := if b.bk.rtcValid then b.bk.rtc % 2 ^ 32 else 0
        code := code, source := source, count := min 255 m.sup, data := data % 2 ^ 32 }
    logAppend e { b with nv := { b.nv with logSeq := b.nv.logSeq + 1 }
                         hl := { b.hl with marks := tabSet {} b.hl.marks key { at_ := some now, sup := 0 } } }

/-- The INSTANCE of a tile (R85). -/
def dieTile (t : Nat) : Nat := 0x10 + t

/-- Cause bits of HL_REPLACE become set, and the newly set ones are logged (R586). -/
def setReplace (now m : Nat) (b : Block) : Block :=
  let new := (BitVec.ofNat 32 m &&& ~~~BitVec.ofNat 32 b.nv.replace).toNat
  if new = 0 then b
  else logEvent now 0x0037 0 new { b with nv := { b.nv with replace := b.nv.replace + new } }

/-! ### Fault reactions -/

/-- The pleached group of a slot, if it is a member (R294). -/
def plgOf (b : Block) (t j : Nat) : Option Nat :=
  if Fld.GR_FOLLOW_PLG_EN b.cfg t j then some (Fld.GR_FOLLOW_PLG b.cfg t j) else none

/-- A disable, fault reaction or immediate stop of a member is on its way to the hub (R304). -/
def memberEvent (t j : Nat) (b : Block) : Block :=
  match plgOf b t j with
  | some g => if (b.plgAt g).st = .idle then b else b.plgUpd g fun p => { p with evSent := true }
  | none => b

/-- A registration: an earlier one that waits stands. -/
def firstOf (o : Option Nat) (now : Nat) : Option Nat :=
  match o with
  | some t => some t
  | none => some now

/-- POS_SRC when it is a channel (R283). -/
def posChan (b : Block) (t j : Nat) : Option Nat :=
  let c := Fld.PG_HOME_CFG_POS_SRC b.cfg t j
  if 0x30 ≤ c && c < 0x38 then some (c - 0x30) else none

/-- A change of a generator that may end its homing: a homing that leaves INDEX without its reference disarms the channel (R289, R293). -/
def genEnd (t j : Nat) (f : Gen → Gen) (b : Block) : Block :=
  let b' := b.genUpd t j f
  if decide ((b.genAt t j).hm.st = .index) && decide ((b'.genAt t j).hm.st ≠ .index) && (b'.genAt t j).hm.ref.isNone then
    match posChan b t j with
    | some k => b'.qdUpd t k fun q => { q with armed := none }
    | none => b'
  else b'

/-- A disable or fault reaction of a servo axis is registered: its generator and its clutch go down, a homing ends with a fault (R268, R293, R312). -/
def motionDown (now t j : Nat) (b : Block) : Block :=
  memberEvent t j
    ((genEnd t j (fun g => { g with req := { g.req with down := firstOf g.req.down now }, hm := homeEnd .fault g.hm }) b).followUpd t j
      fun f => { f with cl := { f.cl with down := firstOf f.cl.down now, pending := false } })

/-- The cause of an immediate stop of a pulse-train axis is registered (R269, R270); START and HOME requests end. -/
def immStop (now t j : Nat) (b : Block) : Block :=
  memberEvent t j (b.pulseUpd t (j - 4) fun p => { p with imm := firstOf p.imm now })

/-- An enable that is held or waits is discarded (R16). -/
def discardEnable (t j : Nat) (b : Block) : Block :=
  match slotTy b t j with
  | .pulse => b.pulseUpd t (j - 4) fun p =>
      if p.wait.isSome || p.enPending then { p with wait := none, enPending := false, enRefused := true } else p
  | .networked => b.nxUpd t (j - 8) fun n =>
      if n.enPending || decide (n.st = .enabling) then
        { n with enPending := false, enRefused := true, st := if n.st = .enabling then .disabled else n.st }
      else n
  | .n3ph | .nstep => b.natUpd t j fun a =>
      if a.wait.isSome || a.enPending then { a with wait := none, enPending := false, enRefused := true } else a
  | _ => b

/-- A homing of a pulse-train axis ends with a fault, and FAULT_STOP is set unless the generator is IDLE (R293). -/
def homingFault (t j : Nat) (b : Block) : Block :=
  genEnd t j (fun g => { g with fl := { g.fl with faultStop := g.fl.faultStop || decide (g.st ≠ .idle) }, hm := homeEnd .fault g.hm }) b

/-- An event of the trigger sequencer of a tile (R375). -/
def acqEvent (now t e : Nat) (b : Block) : Block := b.aqUpd t (aqEvent e now)

/-- The reaction of the tile when a fault of an axis is registered (R206, R268, R270, R327, R328). -/
def tileFault (now t j : Nat) (b : Block) : Block :=
  match slotTy b t j with
  | .pulse => acqEvent now t 8 <| discardEnable t j ((immStop now t j (homingFault t j b)).followUpd t j
      fun f => { f with cl := { f.cl with down := firstOf f.cl.down now, pending := false } })
  | .networked =>
    acqEvent now t 8 <| discardEnable t j (motionDown now t j
      (b.nxUpd t (j - 8) fun n => { n with st := .faultStop, since := now }))
  | .virtual => acqEvent now t 8 <| motionDown now t j (b.genUpd t j fun g => { g with fl := { g.fl with faultStop := g.fl.faultStop || decide (g.st ≠ .idle) } })
  | _ => motionDown now t j (b.genUpd t j fun g => { g with fl := { g.fl with faultStop := g.fl.faultStop || decide (g.st ≠ .idle) } })

/-- A fault reaction of the axis has been registered or runs (R529). -/
def faultRuns (b : Block) (t j : Nat) : Bool :=
  let a := b.sfAxAt (axNo t j)
  a.fault.isSome || a.react.isSome || (decide (slotTy b t j = .networked) && decide ((b.nxAt t (j - 8)).st = .faultStop))

/-- A slot is the master of follower `(t', j')` (R307). -/
def isMaster (b : Block) (t j t' j' : Nat) : Bool :=
  let m := Fld.GR_FOLLOW_MASTER b.cfg t' j'
  decide (Fld.GR_FOLLOW_MODE b.cfg t' j' ≠ 0) &&
    ((decide (t = t') && decide (m = 0x10 + j)) ||
     (decide (0xC0 ≤ m) && decide (m ≤ 0xC7) && Fld.GR_XM_EN b.cfg t' (m - 0xC0)
        && decide (Fld.GR_XM_TILE b.cfg t' (m - 0xC0) = t) && decide (Fld.GR_XM_SLOT b.cfg t' (m - 0xC0) = j)))

/-- The followers, with a clutch that is not DISENGAGED, whose master is a slot (R313). -/
def followersOf (b : Block) (t j : Nat) : List (Nat × Nat) :=
  ((List.range 128).map fun a => (a / 16, a % 16)).filter fun p =>
    tileLive b p.1 && decide ((b.followAt p.1 p.2).cl.st ≠ .disengaged) && isMaster b t j p.1 p.2

/-- A fault of an axis is registered: its cause is recorded for the safety engine's next evaluation and the tile reacts (R206, R673). A follower of the axis loses its master (R313). -/
def axFaultN : Nat → Nat → Nat → Nat → Nat → Block → Block
  | 0, _, _, _, _, b => b
  | n + 1, now, cause, t, j, b =>
    if slotTy b t j = .unused then b
    else if axDisabled b t j then discardEnable t j b
    else if faultRuns b t j then b
    else
      let b1 := tileFault now t j (b.sfAxUpd (axNo t j) fun a => { a with fault := some (cause, now) })
      forL (followersOf b1 t j) (fun p x =>
        axFaultN n now 1 p.1 p.2 (x.followUpd p.1 p.2 fun f => { f with cl := { f.cl with masterLost := true } })) b1

/-- A fault of an axis with its FLT_CAUSE (SF_AX_STATE). -/
def axFault (now cause t j : Nat) (b : Block) : Block := axFaultN 128 now cause t j b

/-- A fault of every axis of a list that is not disabled. -/
def axFaults (now cause : Nat) (l : List (Nat × Nat)) (b : Block) : Block := forL l (fun p => axFault now cause p.1 p.2) b

/-- Every axis of a tile. -/
def tileAxes (t : Nat) : List (Nat × Nat) := (List.range 16).map fun j => (t, j)

/-- Every axis of the running module. -/
def allAxes (b : Block) : List (Nat × Nat) := (List.range (16 * b.run.tileSet)).map fun a => (a / 16, a % 16)

/-- The axes that own a context reading set-point input `n` (R82). -/
def spReaders (b : Block) (t n : Nat) : List (Nat × Nat) := (tileAxes t).filter fun p => readsSrc b t p.2 (0x40 + n)

/-- The axes that own a context with a source of mailbox `m` (R356). -/
def mbReaders (b : Block) (t m : Nat) : List (Nat × Nat) := (tileAxes t).filter fun p => readsSrc b t p.2 (0x80 + m)

/-! ### Conditions that refuse an enable -/

/-- A zone of the axis holds a demand in force (R518). -/
def zoneHolds (b : Block) (a : Nat) : Bool :=
  (List.range 16).any fun z => bit (Fld.SF_AX_CFG_ZONES b.cfg a) z && Fld.SF_ZONE_CFG_EN b.cfg z && (b.zoneAt z).inForce

/-- A schedule of the slot's contexts has no active bank (R160). -/
def noTable (b : Block) (t j : Nat) : Bool :=
  (ctxsOf b t j).any fun c => Fld.CE_LOOP_ALLOC_SCHED_EN b.cfg t c && (b.schedAt t (Fld.CE_LOOP_ALLOC_SCHED b.cfg t c)).active.isNone

/-- A fault bit of a channel assigned to the slot is set (R239). -/
def qdFaulted (b : Block) (t j : Nat) : Bool :=
  (chansOf b t j).any fun k => let f := (b.qdAt t k).flt; f.illegal || f.rx || f.freeze

/-- A source of the slot's contexts bars an enable: LATE_FAULT (R82), MB_STALE (R356). -/
def srcBars (b : Block) (t j : Nat) : Bool :=
  (List.range 32).any (fun n => (b.spAt t n).lateFault && readsSrc b t j (0x40 + n)) ||
  (List.range 16).any (fun m => (b.seqAt t).mb.stale.getLsbD m && readsSrc b t j (0x80 + m))

/-- R97: a structural commit that lists the axis is accepted and has neither applied nor been aborted. -/
def commitBars (b : Block) (t j : Nat) : Bool :=
  (decide (b.cm.ph = .accepted) || decide (b.cm.ph = .go)) && b.cm.listed.contains (axNo t j)

/-- A supply fault or a critical temperature that bars enables on the tile (R596, R598): the tile's, the hub's, the baseplate's. -/
def supplyBars (b : Block) (t : Nat) : Bool :=
  bit b.hl.supplies t || bit b.hl.supplies 8 || (b.tempAt t).crit || (b.tempAt 8).crit || (b.tempAt 9).crit

/-- A self-test that has been started and has not ended. -/
def testRuns (b : Block) : Bool := b.hl.st.reqAt.isSome || decide (b.hl.st.st ≠ .idle)

/-- The axis lies in the region of the self-test that runs (R604): its tile, or the pair of its brake channel. -/
def testBars (b : Block) (t j : Nat) : Bool :=
  testRuns b &&
    (if b.hl.st.op = 7 then Fld.SF_AX_CFG_BRK_EN b.cfg (axNo t j) && decide (Fld.SF_AX_CFG_BRK_CH b.cfg (axNo t j) / 16 = b.hl.st.target)
     else decide (b.hl.st.target = t))

/-- One more draw has been taken. -/
def nextDraw (b : Block) : Block := { b with draws := b.draws + 1 }

/-- A word of the memory stack with an uncorrectable error lies in `n` bytes from `a` (R592). -/
def badIn (b : Block) (a n : Nat) : Bool := b.badMem.any fun w => decide (a < 4 * w + 4) && decide (4 * w < a + n)

/-- Bytes are written to the memory stack; a word written whole is good again. -/
def memWrite (a : Nat) (bs : List Byte) (b : Block) : Block :=
  { b with mem := tabFill 0 b.mem a bs, badMem := b.badMem.filter fun w => !(decide (a ≤ 4 * w) && decide (4 * w + 4 ≤ a + bs.length)) }

/-- A shutdown that the safety engine initiated is in progress or a zone demands (R15, R518). -/
def safetyStops (b : Block) (t j : Nat) : Bool :=
  let a := b.sfAxAt (axNo t j)
  zoneHolds b (axNo t j) || a.fault.isSome || a.react.isSome || a.stop.isSome

/-- A fault latch, an overdue test or the engine's fault bars an enable (R506, R520, R521, R528). -/
def safetyBars (b : Block) (t j : Nat) : Bool :=
  let a := b.sfAxAt (axNo t j)
  a.flt || a.stoDue || a.btDue || b.sf.fault

end Sys2Proof.Machine
end

