-- ==== Sys2Proof/Machine/Spine.lean ====
section
/-! DEFINITION. Traffic on the spine: the packets that wait on the tile links and at the memory stack's port, the priority of the classes and the turns of the sources (R21 to R28). -/

namespace Sys2Proof.Machine

/-- A packet that waits: the links it crosses, its class, its source, the tick at which it was issued. -/
structure Pkt where
  links : List Nat := []
  cls : Nat := 1
  src : Nat := 0
  at_ : Nat := 0
  deriving DecidableEq, Repr

/-- The links of R22, numbered: hub to tile `t`, tile `t` to hub, the port of the memory stack. -/
def linkDown (t : Nat) : Nat := t
def linkUp (t : Nat) : Nat := 8 + t
def linkStack : Nat := 16

/-- Sources of packets: sessions 0 to 7, Berath ports, tiles, the memory stack. -/
def srcPort (p : Nat) : Nat := 16 + p
def srcTile (t : Nat) : Nat := 32 + t
def srcStack : Nat := 48

/-- A host set-point on its way to tile `t` (R28). -/
def pktSp (e : SpFly) : Pkt :=
  { links := [linkDown (e.dst / 32)], cls := if e.cls5 then 5 else 1, src := e.src, at_ := e.at_ }

/-- A feedback record of networked slot `k` on its way to its tile (R24). -/
def pktFb (b : Block) (k at_ : Nat) : Pkt := { links := [linkDown (k / 8)], src := srcPort (Fld.BL_NX_BIND_PORT b.cfg k), at_ := at_ }

/-- A set-point of networked slot `k` on its way to the hub (R46). -/
def pktNx (k at_ : Nat) : Pkt := { links := [linkUp (k / 8)], src := srcTile (k / 8), at_ := at_ }

/-- A channel command of tile `t` on its way to the hub (R485). -/
def pktField (t at_ : Nat) : Pkt := { links := [linkUp t], src := srcTile t, at_ := at_ }

/-- Records that a generator of tile `t` has requested (R258). -/
def pktTable (t at_ : Nat) : Pkt := { links := [linkDown t, linkStack], cls := 2, src := srcStack, at_ := at_ }

/-- A transfer of tile `t` (R358). -/
def pktXfer (t : Nat) (x : Xfer) : Pkt :=
  match x.dir with
  | 0 => { links := [linkStack, linkDown t], cls := 3, src := srcTile t, at_ := x.at_ }
  | 1 => { links := [linkUp t, linkStack], cls := 3, src := srcTile t, at_ := x.at_ }
  | _ => { links := [linkUp t, linkDown x.tile], cls := 3, src := srcTile t, at_ := x.at_ }

/-- The oldest waiting write of the acquisition unit of tile `t`: a block waits from its release on, 2 µs after its last row (R371). -/
def pktAq (t : Nat) (u : Aq) : Pkt :=
  { links := [linkUp t, linkStack], cls := 4, src := srcTile t
    at_ := match u.q with
      | .block k :: _ => k.lastAt + 2000
      | _ => (u.hist.head?.map Prod.fst).getD 0 }

/-- Every packet of classes 1 to 3 and 5 that waits. -/
def spineWaits (b : Block) : List Pkt :=
  b.spFly.map pktSp
  ++ b.blnx.flatMap (fun e => e.2.relay.map (fun r => pktFb b e.1 r.at_) ++ e.2.fly.map fun f => pktNx e.1 f.1)
  ++ b.fp.flatMap (fun e => e.2.fly.map fun f => pktField f.tile f.at_)
  ++ b.gen.filterMap (fun e => if e.2.fetch = 0 then none else some (pktTable (e.1 / 16) e.2.fetchAt))
  ++ b.seq.flatMap (fun e => (e.2.ch.toList.filter (·.busy)).map (pktXfer e.1))

/-- Two packets cross one link or port. -/
def Pkt.meets (p w : Pkt) : Bool := p.links.any fun l => w.links.contains l

/-- A packet that waits goes before `p`: it is of a higher class and was issued no later (R25), or it is of the same class and source and older (R26). -/
def Pkt.before (p w : Pkt) : Bool :=
  p.meets w && (decide (w.cls < p.cls) && decide (w.at_ ≤ p.at_)
    || decide (w.cls = p.cls) && decide (w.src = p.src) && decide (w.at_ < p.at_))

/-- It is another source's turn (R26): the packet's source has been served in this round of its class on a link that leaves the hub, and an older
packet of a source not yet served in it waits there. -/
def spineTurn (b : Block) (p w : Pkt) : Bool :=
  p.links.any fun l =>
    (decide (l < 8) || decide (l = linkStack)) && w.links.contains l && decide (w.cls = p.cls) && decide (w.at_ < p.at_)
      && b.turns.contains (l, p.cls, p.src) && !b.turns.contains (l, w.cls, w.src)

/-- A packet is served: no packet that goes before it waits. -/
def spineServes (b : Block) (p : Pkt) : Bool := (spineWaits b).all fun w => !p.before w && !spineTurn b p w

/-- The sources served in the present round of a class on a link after `p` has been served: a round ends when no other source of the class waits. -/
def spineServed (b : Block) (p : Pkt) : List (Nat × Nat × Nat) :=
  p.links.foldl (fun ts l =>
    let ts := if ts.contains (l, p.cls, p.src) then ts else (l, p.cls, p.src) :: ts
    let others := (spineWaits b).any fun w => w.links.contains l && decide (w.cls = p.cls) && !ts.contains (l, w.cls, w.src)
    if others then ts else ts.filter fun e => !(decide (e.1 = l) && decide (e.2.1 = p.cls))) b.turns

/-- What the service of a packet does: `f`, when no packet goes before it. -/
def spineServe (p : Pkt) (f : Block → Block) (b : Block) : Block :=
  if spineServes b p then
    let b' := f b
    { b' with turns := spineServed b' p }
  else b

end Sys2Proof.Machine
end

