-- ==== Sys2Proof/Machine/Section.lean ====
section
/-! DEFINITION. Section and loop arithmetic of the control engine (chapter 04, R120 to R171), as functions of one context's inputs. -/

namespace Sys2Proof.Machine

/-- A value `v * 2^p` lies in [−2^en, 2^en). -/
def inExp (v p en : Int) : Bool :=
  let d := en - p
  if 0 ≤ d then -(2 : Int) ^ d.toNat ≤ v && v < (2 : Int) ^ d.toNat else v == 0

/-- The smallest exponent of at least `e` that holds every value, searched upwards over `fuel` steps. -/
def minExp : Nat → Int → List Dy → Int
  | 0, e, _ => e
  | n + 1, e, vs => if vs.all fun v => inExp v.m v.p e then e else minExp n (e + 1) vs

/-- The five coefficients of a section, Q1.31 mantissas, its shift c and its WIDE flag (R124, R129). -/
structure Coef where
  b0 : Int := 0
  b1 : Int := 0
  b2 : Int := 0
  a1 : Int := 0
  a2 : Int := 0
  c : Nat := 0
  wide : Bool := false
  deriving DecidableEq, Repr

/-- Integrator form (R128). -/
def Coef.integrator (k : Coef) : Bool := k.a1 * (2 : Int) ^ k.c == -(2 : Int) ^ 31 && k.a2 == 0

/-- A block-floating number: Q1.31 mantissa and exponent (R4). -/
structure Bf where
  m : Int := 0
  e : Int := -32
  deriving DecidableEq, Repr

/-- The exact value of a block-floating number. -/
def Bf.dy (x : Bf) : Dy := { m := x.m, p := x.e - 31 }

/-- An exact value in block-floating form at the smallest exponent of at least −32, truncated; saturated at exponent +31 (R135 step 4). The flag reports the saturation. -/
def toBf (v : Dy) : Bf × Bool :=
  let en := minExp 65 (-32) [v]
  let sat := decide (31 < en)
  let e := if sat then 31 else en
  ({ m := sat32 (dyFloor v (e - 31)), e := e }, sat)

/-- A cleared section (R130); its status bit stays. -/
def Sec.cleared (s : Sec) : Sec := { sat := s.sat }

/-- `s1y` as an exact value: 63 fraction bits at the section exponent. -/
def Sec.s1yDy (s : Sec) : Dy := { m := s.s1y.toInt, p := s.e - 63 }

/-- Write-back of a section's block: the exact output `y`, the input `x` at the aligned exponent, the states before (R125).
`y1` is the value the stored output state had. The result is the section, its output mantissa and exponent. -/
def secBack (k : Coef) (s : Sec) (y x y1 : Dy) : Sec × Bf × Bool :=
  let s1x : Dy := { m := s.s1x.toInt, p := s.e - 31 }
  let en0 := minExp 110 (-32) [y, x, s1x, y1]
  let sat := decide (31 < en0)
  let en := if sat then 31 else en0
  let q := fun (v : Dy) => sat32 (dyFloor v (en - 31))
  let ym := q y
  let y63 := if k.wide then satS 64 (dyFloor y (en - 63)) else ym * (2 : Int) ^ 32
  ({ s1x := BitVec.ofInt 32 (q x), s2x := BitVec.ofInt 32 (q s1x), s1y := BitVec.ofInt 64 y63,
     s2y := BitVec.ofInt 32 (q y1), e := en, sat := s.sat || sat }, { m := ym, e := en }, sat)

/-- The input and states of a section aligned to the larger of their exponents (R125, R126). -/
def secAlign (k : Coef) (s : Sec) (x : Bf) : Sec × Bf :=
  let ea := max s.e x.e
  let d := s.e - ea
  let s1y := if k.wide then shiftI s.s1y.toInt d else shiftI (s.s1y.toInt / (2 : Int) ^ 32) d * (2 : Int) ^ 32
  ({ s with s1x := BitVec.ofInt 32 (shiftI s.s1x.toInt d), s2x := BitVec.ofInt 32 (shiftI s.s2x.toInt d)
            s1y := BitVec.ofInt 64 s1y, s2y := BitVec.ofInt 32 (shiftI s.s2y.toInt d), e := ea },
   { m := shiftI x.m (x.e - ea), e := ea })

/-- The feed-forward part of a section's sum, `(b0 x + b1 s1x + b2 s2x) 2^c`, exact. -/
def secFir (k : Coef) (s : Sec) (x : Bf) : Dy :=
  { m := (k.b0 * x.m + k.b1 * s.s1x.toInt + k.b2 * s.s2x.toInt) * (2 : Int) ^ k.c, p := s.e - 62 }

/-- The feedback part, `−(a1 s1y + a2 s2y) 2^c`; with WIDE the exact addition of s1y (R129). -/
def secIir (k : Coef) (s : Sec) : Dy :=
  if k.wide then s.s1yDy
  else { m := -(k.a1 * (s.s1y.toInt / (2 : Int) ^ 32) + k.a2 * s.s2y.toInt) * (2 : Int) ^ k.c, p := s.e - 62 }

/-- One evaluation of a section (R125, R127, R129): the section after it, the output passed on, the exact output, saturation. -/
def secEval (k : Coef) (s : Sec) (x : Bf) : Sec × Bf × Dy × Bool :=
  let (sa, xa) := secAlign k s x
  let acc := dyAdd (secFir k sa xa) (secIir k sa)
  let (s', y, sat) := secBack k sa acc xa.dy sa.s1yDy
  (s', y, if k.wide then s'.s1yDy else y.dy, sat)

/-- A section whose stored output state is set to an exact value, rounded to its block (R137); the exponent is set again. -/
def secSetS1y (k : Coef) (s : Sec) (v : Dy) : Sec × Bool :=
  let s1x : Dy := { m := s.s1x.toInt, p := s.e - 31 }
  let s2x : Dy := { m := s.s2x.toInt, p := s.e - 31 }
  let s2y : Dy := { m := s.s2y.toInt, p := s.e - 31 }
  let en0 := minExp 110 (-32) [v, s1x, s2x, s2y]
  let sat := decide (31 < en0)
  let en := if sat then 31 else en0
  let q := fun (v : Dy) => sat32 (dyFloor v (en - 31))
  let y63 := if k.wide then satS 64 (dyFloor v (en - 63)) else q v * (2 : Int) ^ 32
  ({ s1x := BitVec.ofInt 32 (q s1x), s2x := BitVec.ofInt 32 (q s2x), s1y := BitVec.ofInt 64 y63,
     s2y := BitVec.ofInt 32 (q s2y), e := en, sat := s.sat || sat }, sat)

/-- Back-calculation in place of the last section (R165): the output becomes `y` exactly. -/
def secBackCalc (k : Coef) (s : Sec) (x : Bf) (y : Dy) : Sec × Bool :=
  let (sa, xa) := secAlign k s x
  let s1 := dySub y (secFir k sa xa)
  let (s', _, sat) := secBack k sa y xa.dy s1
  (s', sat)

/-- The sections of a chain before the last, in chain order (R122). -/
def chainEval : List (Coef × Sec) → Bf → List Sec × Bf × Bool
  | [], x => ([], x, false)
  | (k, s) :: r, x =>
    let (s', y, _, sat) := secEval k s x
    let (ss, z, sat') := chainEval r y
    (s' :: ss, z, sat || sat')

/-- The parameters of a loop that its evaluation uses (CE_LOOP_ registers). -/
structure LoopCfg where
  rscale : Int := 0
  fscale : Int := 0
  ffscale : Int := 0
  oexp : Int := 0
  aw : Nat := 0
  limHi : Int := 0
  limLo : Int := 0
  kaw : Int := 0
  delta : Int := 0
  blendFrames : Nat := 0
  bumpless : Bool := false
  hoEn : Bool := false
  alt : Bool := false
  deriving DecidableEq, Repr

/-- What a frame evaluates one loop on. -/
structure LoopIn where
  ref : Dy := {}
  fb : Dy := {}
  ff : Dy := {}
  /-- the owning axis is not disabled -/
  enabled : Bool := false
  /-- the loop's output is emitted in this frame -/
  emits : Bool := true
  /-- the emitted word of the destination, when this frame hands over to this loop with HO_EN -/
  handOver : Option Int := none
  /-- this frame hands over to this loop, with or without HO_EN -/
  incoming : Bool := false
  /-- coefficients or scales changed since the last frame (R170) -/
  changed : Bool := false
  deriving DecidableEq, Repr

/-- A value as a signed 80-bit number with 32 fraction bits, truncated and saturated (R135 step 2). -/
def toQ48 (x : Dy) (k : Int) : Int := satS 80 (dyFloor (dyScale x k) (-32))

/-- The ramp value of a frame (R141): the value used as reference, and the ramp state after the frame. -/
def rampStep (c : Ctx) (delta r f : Int) : Int × Ctx :=
  if delta = 0 then (r, { c with ramping := false, rampArmed := false })
  else if c.rampArmed then
    (f, { c with rampArmed := false, ramping := decide (f ≠ r), rr := f })
  else if c.ramping then
    let rr := c.rr + min (max (r - c.rr) (-delta)) delta
    (rr, { c with rr := rr, ramping := decide (rr ≠ r) })
  else (r, c)

/-- The blend remainder of frame `k` after the hand-over frame (R166). -/
def blendRem (c : Ctx) : Int :=
  if c.blendK < c.blendN then floorDiv (c.rem * ((c.blendN : Int) - c.blendK)) c.blendN else 0

/-- Result of one loop's frame: the context's state, its word, its sections. -/
structure LoopRes where
  ctx : Ctx := {}
  /-- the word emitted, or the limited word of an inactive alternative (R163) -/
  word : Int := 0
  secs : List Sec := []
  deriving DecidableEq, Repr

/-- The frame of a loop whose axis is disabled (R140): cleared sections are evaluated, the output word is 0. -/
def loopDisabled (c : Ctx) (ss : List (Coef × Sec)) (e : Bf) : LoopRes :=
  let (ss', _, sat) := chainEval (ss.map fun p => (p.1, p.2.cleared)) e
  { ctx := { c with errM := BitVec.ofInt 32 e.m, errE := e.e, ramping := false, rampArmed := false, blending := false
                    rem := 0, blendN := 0, blendK := 0, limited := false, sat := c.sat || sat }
    word := 0, secs := ss' }

/-- Anti-windup on the last section after a limited frame (R137). -/
def antiWindup (g : LoopCfg) (k : Coef) (s : Sec) (y ff : Dy) (u w : Int) : Sec × Bool :=
  let o := g.oexp - 31
  if u = w then (s, false)
  else if g.aw = 1 then secSetS1y k s (dySub { m := u, p := o } ff)
  else if g.aw = 2 then secSetS1y k s (dyAdd y (dyMul { m := g.kaw, p := -31 } { m := u - w, p := o }))
  else (s, false)

/-- The output stage (R136, R137): sum, limits, remainder, anti-windup. An output word that saturates sets CE_LOOP_STATUS.SAT. -/
def outStage (g : LoopCfg) (c : Ctx) (emits : Bool) (y ff : Dy) (k : Coef) (front : List Sec) (s : Sec) : LoopRes :=
  let o := g.oexp - 31
  let n := dyFloor (dyAdd y ff) o
  let w := sat32 n
  let u := min (max w g.limLo) g.limHi
  let rem := if emits then blendRem c else 0
  let (s', sat) := antiWindup g k s y ff u w
  let on := emits && decide (c.blendK < c.blendN)
  { ctx := { c with limited := decide (u ≠ w), limSeen := c.limSeen || decide (u ≠ w)
                    sat := c.sat || sat || decide (w ≠ n) || decide (sat32 (u + rem) ≠ u + rem)
                    blending := on, blendK := if on then c.blendK + 1 else c.blendK
                    blendN := if on then c.blendN else 0, rem := if on then c.rem else 0 }
    word := sat32 (u + rem), secs := front ++ [s'] }

/-- One frame of a GENERAL loop (R135 to R143, R162 to R170). -/
def loopEval (g : LoopCfg) (i : LoopIn) (c0 : Ctx) (ss : List (Coef × Sec)) : LoopRes :=
  let r := toQ48 i.ref g.rscale
  let f := toQ48 i.fb g.fscale
  let ff : Dy := { m := toQ48 i.ff g.ffscale, p := -32 }
  if !i.enabled then
    let (e, satE) := toBf { m := r - f, p := -32 }
    loopDisabled { c0 with sat := c0.sat || satE } ss e
  else
    let fresh := c0.rampArmed
    let ss := if fresh then ss.map fun p => (p.1, p.2.cleared) else ss
    let ramps := i.emits && !i.incoming
    let (rv, c1) := if ramps then rampStep c0 g.delta r f else (r, { c0 with ramping := false, rampArmed := false })
    let (e, satE) := toBf { m := rv - f, p := -32 }
    let c2 := { c1 with errM := BitVec.ofInt 32 e.m, errE := e.e, sat := c1.sat || satE }
    match ss.getLast? with
    | none => { ctx := c2, word := 0, secs := [] }
    | some (k, last) =>
      let (front, x, satF) := chainEval ss.dropLast e
      let c3 := { c2 with sat := c2.sat || satF }
      let last := if i.emits then last else { last with s1y := 0, s2y := 0 }
      let back := match i.handOver with
        | some t => some t
        | none => if g.bumpless && i.changed && i.emits && !i.incoming && !fresh then some c0.out.toInt else none
      match back with
      | some t =>
        let u0 := min (max t g.limLo) g.limHi
        let y := dySub { m := u0, p := g.oexp - 31 } ff
        let (s', sat) := secBackCalc k last x y
        let rem := t - u0
        { ctx := { c3 with limited := false, sat := c3.sat || sat, rem := rem
                           blendN := g.blendFrames, blendK := 1, blending := true }
          word := t, secs := front ++ [s'] }
      | none =>
        let (s', _, y, sat) := secEval k last x
        outStage g { c3 with sat := c3.sat || sat } i.emits y ff k front s'

end Sys2Proof.Machine
end

