-- ==== Sys2Proof/Machine/Current.lean ====
section
/-! DEFINITION. The arithmetic of native axes (chapter 05): decimation, currents, angle, transforms, circular limit, duties, edges. -/

namespace Sys2Proof.Machine

/-- The weight of the bit `k` places before the newest in a sinc3 window of ratio `r`. -/
def sinc3W (r k : Nat) : Int :=
  let c := fun (n : Int) => if n < 0 then (0 : Int) else (n + 2) * (n + 1) / 2
  c k - 3 * c ((k : Int) - r) + 3 * c ((k : Int) - 2 * r) - c ((k : Int) - 3 * r)

/-- A sampled bit as +1 or −1 (R175). -/
def sdVal (p : Bool) : Int := if p then 1 else -1

/-- A weighted sum over the newest bits. -/
def wsum (w : Nat → Int) : Nat → List Bool → Nat → Int
  | 0, _, _ => 0
  | _, [], _ => 0
  | n + 1, p :: r, k => w k * sdVal p + wsum w n r (k + 1)

/-- The decimator output of one input (R175). -/
def sinc3 (osr : Nat) (h : List Bool) : Int :=
  min (wsum (sinc3W osr) (3 * osr - 2) h 0 * (2 : Int) ^ 31 / ((osr : Int) ^ 3)) (2 ^ 31 - 1)

/-- The fast overcurrent filter: sinc2 with a ratio of 8 (R181). -/
def sinc2 (h : List Bool) : Int :=
  min (wsum (fun k => 8 - ((7 : Int) - k).natAbs) 15 h 0 * (2 : Int) ^ 31 / 64) (2 ^ 31 - 1)

/-- The scaling of R177. -/
def sdScale (d ofs gain : Int) (gshift : Nat) : Int := sat32 ((d - ofs) * gain * (2 : Int) ^ gshift / (2 : Int) ^ 31)

/-- √3 with 64 fraction bits, truncated. -/
def sqrt3 : Int := 31950697969885030203

/-- `x / √3`, truncated (R194). -/
def overSqrt3 (x : Int) : Int := floorDiv (x * (2 : Int) ^ 64) sqrt3

/-- Terms of the sine series at `x` (40 fraction bits) from term `t`, order `n`. -/
def sinSeries : Nat → Int → Int → Int → Int
  | 0, _, _, _ => 0
  | f + 1, x, t, n => t + sinSeries f x (-(t * x / (2 : Int) ^ 40 * x / (2 : Int) ^ 40) / ((n + 1) * (n + 2))) (n + 2)

/-- Sine of a quarter turn's part `a` of 2^30, 40 fraction bits. -/
def sinQuarter (a : Int) : Int :=
  let x := a * 1727108826179 / (2 : Int) ^ 30
  sinSeries 10 x x 1

/-- Sine of an angle word, before its error, 40 fraction bits. -/
def sinIdeal (th : Word) : Int :=
  let q := th.toNat / 2 ^ 30
  let a : Int := th.toNat % 2 ^ 30
  if q = 0 then sinQuarter a
  else if q = 1 then sinQuarter (2 ^ 30 - a)
  else if q = 2 then -sinQuarter a
  else -sinQuarter (2 ^ 30 - a)

/-- An error held within ±2^−24 (R194), units of 2^−40. -/
def trigBound (e : Int) : Int := max (-(2 : Int) ^ 16) (min e ((2 : Int) ^ 16))

/-- Sine as the module forms it, 40 fraction bits: within 2^−24 of the sine (R194). -/
def sinM (th : Word) : Int := sinIdeal th + trigBound (Config.sinError th)

/-- Cosine as the module forms it, 40 fraction bits. -/
def cosM (th : Word) : Int := sinIdeal (th + 0x40000000) + trigBound (Config.cosError th)

/-- A Q1.31 result of a sum of products with a sine or cosine, truncated. -/
def trigSum (a ca b cb : Int) : Int := sat32 ((a * ca + b * cb) / (2 : Int) ^ 40)

/-- θ of R192, before OFS. -/
def elecAngle (p : Int) (pp cpr : Nat) : Int :=
  let n : Int := (cpr : Int) * 2 ^ 16
  if n = 0 then 0 else (p * pp % n) * (2 : Int) ^ 32 / n

/-- The angle travelled in `d` units of 250 ps at speed `v` (R193). -/
def angleLead (v : Dy) (pp cpr d : Nat) : Int :=
  let den : Int := (cpr : Int) * 4000000000
  if den = 0 then 0 else floorDiv (v.m * pp * d * (2 : Int) ^ 32 * (if 0 ≤ v.p then (2 : Int) ^ v.p.toNat else 1))
    (den * (if 0 ≤ v.p then 1 else (2 : Int) ^ (-v.p).toNat))

/-- ωn of R196, Q1.31, saturated. -/
def speedNorm (v : Dy) (pp cpr : Nat) (ws : Int) : Int :=
  if cpr = 0 then 0
  else
    let x := dyScale { v with m := v.m * pp } (ws + 31)
    if 0 ≤ x.p then sat32 (floorDiv (x.m * (2 : Int) ^ x.p.toNat) cpr)
    else sat32 (floorDiv x.m ((cpr : Int) * (2 : Int) ^ (-x.p).toNat))

/-- The phase currents of a frame: the measured ones, the third by R179. -/
structure Phases where
  u : Int := 0
  v : Int := 0
  w : Int := 0
  three : Bool := false
  deriving DecidableEq, Repr

/-- iα and iβ (R194). DESIGN CHOICE: a result outside Q1.31 saturates (log 55). -/
def clarke (p : Phases) : Int × Int :=
  if p.three then (sat32 ((2 * p.u - p.v - p.w) / 3), sat32 (overSqrt3 (p.v - p.w)))
  else (p.u, sat32 (overSqrt3 (p.u + 2 * p.v)))

/-- id and iq of the Park transform with angle `th` (R194). DESIGN CHOICE: a result outside Q1.31 saturates (log 55). -/
def park (ia ib : Int) (th : Word) : Int × Int :=
  (trigSum ia (cosM th) ib (sinM th), trigSum (-ia) (sinM th) ib (cosM th))

/-- vα and vβ of the inverse Park transform (R198). -/
def invPark (vd vq : Int) (th : Word) : Int × Int :=
  (trigSum vd (cosM th) (-vq) (sinM th), trigSum vd (sinM th) vq (cosM th))

/-- The circular limit of R197: vd′ and vq′. -/
def circLimit (vd vq r : Int) : Int × Int :=
  let vd' := min (max vd (-r)) r
  let q : Int := isqrt (r * r - vd' * vd').toNat
  (vd', min (max vq (-q)) q)

/-- A duty as its word: clamped to 0 to 1, a duty of 1 being 0xFFFF_FFFF (R198). `x` has 64 fraction bits. -/
def dutyWord (x : Int) : Nat :=
  let w := x / (2 : Int) ^ 32
  if w < 0 then 0 else if (2 : Int) ^ 32 ≤ w then 0xFFFFFFFF else w.toNat

/-- The duties of a three-phase axis (R198); voltages Q1.31, vbus Q1.31. -/
def duties3 (va vb : Int) (vbus : Int) : List Nat :=
  let f : Int := 2 ^ 33
  let a := va * f
  let b := (-va * f + vb * sqrt3 / 2 ^ 31) / 2
  let c := (-va * f - vb * sqrt3 / 2 ^ 31) / 2
  let o := -(max a (max b c) + min a (min b c)) / 2
  let d := fun (x : Int) => dutyWord ((2 : Int) ^ 63 + floorDiv ((x + o) * (2 : Int) ^ 95) (sqrt3 * vbus))
  [d a, d b, d c]

/-- The duties of a stepper axis and whether its voltage was limited (R214). -/
def dutiesStep (va vb vlim vbus : Int) : List Nat × Bool :=
  let r := vlim * vbus / (2 : Int) ^ 31
  let sp := max va (max vb 0) - min va (min vb 0)
  let lim := decide (r < sp)
  let a := if lim then floorDiv (va * r) sp else va
  let b := if lim then floorDiv (vb * r) sp else vb
  let o2 := -(max a (max b 0) + min a (min b 0))
  let d := fun (x2 : Int) => dutyWord ((2 : Int) ^ 63 + floorDiv (x2 * (2 : Int) ^ 64) (4 * vbus))
  ([d (2 * a + o2), d (2 * b + o2), d o2], lim)

/-- The high-side on-time in one half period of a leg, in 250 ps units, after the minimum pulse (R184, R185). `half` is Tc/2. -/
def halfOn (duty half minPulse : Nat) : Nat :=
  let h := if duty = 0xFFFFFFFF then half else duty * half / 2 ^ 32
  if 0 < h && 2 * h < minPulse then 0
  else if 2 * (half - h) < minPulse then half
  else h

/-- The on-time of the high-side output in one carrier period: the commanded on-time less the dead time of its turn-on (R186). -/
def highOn (h half dt : Nat) : Nat := if h = half then 2 * half else 2 * h - dt

/-- The on-time of the low-side output in one carrier period (R184, R186). -/
def lowOn (h half dt : Nat) : Nat := if h = 0 then 2 * half else 2 * (half - h) - dt

/-- The dead time in use: rounded up to a whole tick while the edge timer is coarse (R190). -/
def deadTime (dt : Nat) (coarse : Bool) : Nat := if coarse then ceilDiv dt 40 * 40 else dt

end Sys2Proof.Machine
end

