-- ==== Sys2Proof/Machine/Link.lean ====
section
/-! DEFINITION. The Berath network: tables, windows, frames, the guardian, and the commit checks of R410 and R432 (chapter 11). -/

namespace Sys2Proof.Machine

/-- A window entry from its 24 bytes (R407). -/
def blWin (bs : List Byte) (o : Nat) : BlWin :=
  let w0 := leAt bs o 4
  let w1 := leAt bs (o + 4) 4
  let w2 := leAt bs (o + 8) 4
  let w3 := leAt bs (o + 12) 4
  { port := bits w0 28 4, up := bit w0 27, kind := bits w0 25 2, bind := bits w0 0 8
    ofs := bits w1 0 20, len := bits w2 0 20, ftype := bits w3 28 4, maxlen := bits w3 0 7
    mask := leAt bs (o + 16) 8
    junk := decide (bits w0 8 17 ≠ 0 ∨ bits w1 20 12 ≠ 0 ∨ bits w2 20 12 ≠ 0 ∨ bits w3 7 21 ≠ 0) }

/-- A schedule table from its bytes (R406). -/
def blTable (bs : List Byte) : BlTable :=
  { valid := decide (leAt bs 5 1 = 1), cycle := leAt bs 0 4, matrix := leAt bs 4 1, guard := leAt bs 6 2
    wins := (List.range (min 256 (leAt bs 8 2))).map fun k => blWin bs (16 + 24 * k) }

/-- The shape of a table's bytes: length and reserved bytes (R406). -/
def blTableShape (bs : List Byte) : Bool :=
  decide (leAt bs 8 2 ≤ 256) && decide (bs.length = 16 + 24 * leAt bs 8 2) && decide (leAt bs 10 6 = 0)

/-- ns of a basic cycle and of a matrix. -/
def blCycNs (t : BlTable) : Nat := 10 * t.cycle
def blMatNs (t : BlTable) : Nat := 10 * t.cycle * t.matrix

/-- The matrix start at or before `x`, as the number of matrices since the anchor (R408). -/
def blMatK (n : BlNet) (t : BlTable) (x : Nat) : Nat := if blMatNs t = 0 then 0 else (x - n.anchor) / blMatNs t

/-- Start of the cycle that holds `x`, its number in the matrix and the matrix counter. -/
def blCycleAt (n : BlNet) (t : BlTable) (x : Nat) : Nat × Nat × Nat :=
  if blCycNs t = 0 then (0, 0, 0)
  else
    let q := (x - n.anchor) / blCycNs t
    (n.anchor + q * blCycNs t, q % max 1 t.matrix, (n.ctr0 + q / max 1 t.matrix) % 2 ^ 48)

/-- The table of the mode in force. -/
def blNow (n : BlNet) : BlTable := tabGet {} n.tables n.mode

/-- Open and close instants of an occurrence in the cycle that starts at `cs` (R411). -/
def blOpen (t : BlTable) (w : BlWin) (cs : Nat) : Nat := cs + 10 * w.ofs - 10 * t.guard
def blClose (t : BlTable) (w : BlWin) (cs : Nat) : Nat := cs + 10 * (w.ofs + w.len + t.guard)

/-- Whether a window occurs in a cycle of the matrix (R408). -/
def blOccurs (w : BlWin) (c : Nat) : Bool := bit w.mask c

/-- The UP window occurrence of a port in which a stamp lies (R411, R412): entry number and entry. -/
def blUpAt (t : BlTable) (port cs c x : Nat) : Option (Nat × BlWin) :=
  ((List.range t.wins.length).zip t.wins).find? fun p =>
    p.2.up && decide (p.2.port = port) && blOccurs p.2 c && decide (blOpen t p.2 cs ≤ x) && decide (x < blClose t p.2 cs)

/-- Length of a frame on the line in ns (R394). -/
def blFrameNs (sealed : Bool) (words : Nat) : Nat := (if sealed then 28 + 4 * words else 16 + 4 * words) * 32

/-- Fields of a frame header (R395). -/
def fhType (bs : List Byte) : Nat := bits (leAt bs 0 1) 4 4
def fhFwd (bs : List Byte) : Bool := bit (leAt bs 0 1) 3
def fhSealed (bs : List Byte) : Bool := bit (leAt bs 0 1) 2
def fhMack (bs : List Byte) : Bool := bit (leAt bs 0 1) 1
def fhSrc (bs : List Byte) : Nat := leAt bs 1 1
def fhDst (bs : List Byte) : Nat := leAt bs 2 1
def fhLen (bs : List Byte) : Nat := leAt bs 3 1
def fhMatrix (bs : List Byte) : Nat := leAt bs 4 2
def fhFidx (bs : List Byte) : Nat := bits (leAt bs 6 1) 6 2
def fhCycle (bs : List Byte) : Nat := bits (leAt bs 6 1) 0 6
def fhWindow (bs : List Byte) : Nat := leAt bs 7 1
def fhPayload (bs : List Byte) : List Byte := slice bs 8 (4 * fhLen bs)

/-- A frame header (R395). -/
def fhMake (type : Nat) (fwd sealed : Bool) (src dst len matrix fidx cycle window : Nat) : List Byte :=
  leBytes 1 (16 * type + flag fwd 3 + flag sealed 2) ++ leBytes 1 src ++ leBytes 1 dst ++ leBytes 1 len ++ leBytes 2 (matrix % 65536)
    ++ leBytes 1 (64 * fidx + cycle) ++ leBytes 1 window

/-- The nonce of R404; `role` is 0x00, 0x01 or 0x02. -/
def blNonce (role port window b6 matrix : Nat) : List Byte :=
  leBytes 1 role ++ leBytes 1 port ++ leBytes 1 window ++ leBytes 1 b6 ++ leBytes 6 matrix ++ leBytes 2 0

/-- A complete frame: header, payload, the tag of R404 on a port that seals, and the CRC of R397. -/
def blFrame (key : Option (List Byte)) (nonce hdr payload : List Byte) : List Byte :=
  let body := hdr ++ payload
  let tag := match key with | some k => (Config.gcmTag k nonce [] body).take 12 | none => []
  body ++ tag ++ leBytes 4 (crcRefl 0xEDB88320 (body ++ tag))

/-- A copy's length, CRC and tag length agree with its header (R394, R399). -/
def blShape (bs : List Byte) : Bool :=
  let n := 8 + 4 * fhLen bs + (if fhSealed bs then 12 else 0)
  decide (fhLen bs ≤ 64) && decide (bs.length = n + 4) && decide (leAt bs n 4 = crcRefl 0xEDB88320 (bs.take n))

/-- The tag of a sealed copy verifies under a key (R404). -/
def blTagOk (key nonce bs : List Byte) : Bool :=
  let n := 8 + 4 * fhLen bs
  decide (slice bs n 12 = (Config.gcmTag key nonce [] (bs.take n)).take 12)

/-- The key under which a port seals: its key in force, on a port with SEAL set (R404). -/
def blSealKey (cf : Tab Word) (p : Nat) (pt : BlPort) : Option (List Byte) :=
  if Fld.BL_PORT_CFG_SEAL cf p && pt.key.ok then some pt.key.key else none

/-- Frame types that a partner may send in a window (R396, R419). -/
def blTypeOk (w : BlWin) (type : Nat) : Bool :=
  match w.kind with
  | 0 => decide (type = w.ftype)
  | 1 => decide (type = 5 ∨ type = 9)
  | _ => decide (type = 7)

/-- Why a copy is not taken. -/
inductive RxBad where
  | ignored | blocked | clipped | invalid | auth
  deriving DecidableEq, Repr

/-- The state of an occurrence so far. -/
def blOcc (pt : BlPort) (w cs : Nat) : BlOcc := (pt.occs.find? fun o => decide (o.win = w ∧ o.cyc = cs)).getD { win := w, cyc := cs }

/-- The port with an occurrence record replaced. -/
def blPutOcc (o : BlOcc) (pt : BlPort) : BlPort :=
  { pt with occs := o :: (pt.occs.filter fun q => !decide (q.win = o.win ∧ q.cyc = o.cyc)).take 31 }

/-- The channels of a port in use (R390, R424). -/
def blChan (cf : Tab Word) (p : Nat) (chB : Bool) : Bool :=
  Fld.BL_PORT_CFG_EN cf p && bit (Fld.BL_PORT_CFG_CHAN cf p) (if chB then 1 else 0)

/-- The state whose windows a port uses: during a disable the one it left (R446). -/
def blEff (pt : BlPort) : BlSt := if pt.st = .stopping then pt.stopFrom else pt.st

/-- What a port takes in its state (R405, R416, R419, R433, R440). -/
def blTakes (cf : Tab Word) (p : Nat) (pt : BlPort) (w : BlWin) (type : Nat) : Bool :=
  let sealedNoKey := Fld.BL_PORT_CFG_SEAL cf p && !pt.key.ok
  let spare := Fld.BL_NET_CFG_JOIN cf
  if sealedNoKey then (blEff pt = .integrating || blEff pt = .run) && decide (type = 9) && decide (w.kind = 1)
  else
    match blEff pt with
    | .run => decide (w.kind ≠ 2)
    | .integrating => if spare then decide (w.kind = 2) || (decide (type = 9) && decide (w.kind = 1)) else decide (w.kind ≠ 2)
    | .blocked => spare && decide (w.kind = 2)
    | _ => false

/-- The tick at which a copy is registered: the first at or after the end of its last character plus 40 ns (R398). -/
def blRxTick (r : RxCopy) : Nat := ceilDiv (r.stamp + 32 * (r.bytes.length + 4) + 40) 10 * 10

/-- The channel that a copy came on is in use and UP (R390, R393). -/
def rxHeard (cf : Tab Word) (p : Nat) (pt : BlPort) (chB : Bool) : Bool := blChan cf p chB && (if chB then pt.upB else pt.upA)

/-- The judgement of a received copy at `now` (R398, R399, R412, R413): its window entry when the copy is valid. -/
def blJudge (cf : Tab Word) (n : BlNet) (now p : Nat) (pt : BlPort) (r : RxCopy) : Except RxBad (Nat × BlWin × Nat) :=
  let t := blNow n
  let cyc := blCycleAt n t r.stamp
  if blRxTick r ≠ now || !rxHeard cf p pt r.chB || n.st ≠ .run || blEff pt = .off || blEff pt = .listen then .error .ignored
  else
    match blUpAt t p cyc.1 cyc.2.1 r.stamp with
    | none => .error .blocked
    | some (k, w) =>
      let bs := r.bytes
      let o := blOcc pt k cyc.1
      let started := if r.chB then o.startB else o.startA
      let sk := blSealKey cf p pt
      if blClose t w cyc.1 ≤ r.stamp + blFrameNs (fhSealed bs) (fhLen bs) then .error .clipped
      else if !r.clean || !blShape bs || !blTypeOk w (fhType bs) || fhSrc bs ≠ p || fhMatrix bs ≠ cyc.2.2 % 65536
          || fhCycle bs ≠ cyc.2.1 || fhWindow bs ≠ k || fhFidx bs ≠ started || w.maxlen < fhLen bs then .error .invalid
      else if fhSealed bs ≠ sk.isSome then .error .invalid
      else if Fld.BL_PORT_CFG_SEAL cf p && !sk.isSome && fhType bs ≠ 9 then .error .invalid
      else
        match sk with
        | some key =>
          if blTagOk key (blNonce 1 p k (leAt bs 6 1) cyc.2.2) bs then .ok (k, w, cyc.1) else .error .auth
        | none => .ok (k, w, cyc.1)

/-- Start offset of a frame that starts in an exclusive UP window with FIDX 0 (R414, R415). -/
def blMeasure (w : BlWin) (cs : Nat) (r : RxCopy) (x : BlOfs) : BlOfs :=
  if w.kind ≠ 0 || fhFidx r.bytes ≠ 0 then x
  else
    let d : Int := (r.stamp : Int) - (cs + 10 * w.ofs : Nat)
    { x with
      last := satS 16 d, maxAbs := min 65535 (max x.maxAbs d.natAbs)
      cycMax := some (max (x.cycMax.getD 0) d.natAbs), sum := x.sum + d, cnt := x.cnt + 1 }

/-- End of a cycle (R414): the runs of eight. -/
def blCycleEnd (guard : Nat) (x : BlOfs) : BlOfs :=
  match x.cycMax with
  | none => x
  | some m =>
    if guard * 5 < m then
      let k := x.overRun + 1
      { x with cycMax := none, overRun := k, underRun := 0, drift := x.drift || decide (8 ≤ k) }
    else
      let k := x.underRun + 1
      { x with cycMax := none, underRun := k, overRun := 0, drift := x.drift && decide (k < 8) }

/-- End of a matrix that started at `ms` (R415). -/
def blMatrixEnd (ms : Nat) (x : BlOfs) : BlOfs :=
  if x.cnt = 0 then x
  else
    let m := floorDiv (x.sum * 256) x.cnt
    let ppb :=
      match x.meanAt with
      | some old => if old < ms then floorDiv ((m - x.mean) * 1000000000) (256 * ((ms - old : Nat) : Int)) else x.ppb
      | none => x.ppb
    { x with sum := 0, cnt := 0, mean := m, meanAt := some ms, ppb := ppb }

/-- A copy counted at the star and recorded in its occurrence: the port after it, and whether it is the first valid copy (R422). -/
def blTake (k cs : Nat) (w : BlWin) (r : RxCopy) (pt : BlPort) : BlPort × Bool :=
  let o := blOcc pt k cs
  let fi := fhFidx r.bytes
  let pl := fhPayload r.bytes
  let other := o.got.find? fun g => decide (g.1 = fi ∧ g.2.1 ≠ r.chB)
  let o := { o with
    got := (fi, r.chB, pl) :: o.got
    startA := if r.chB then o.startA else o.startA + 1
    startB := if r.chB then o.startB + 1 else o.startB }
  let differ := match other with | some g => decide (g.2.2 ≠ pl) | none => false
  let pt := blPutOcc o { pt with sofSeen := true, ofs := blMeasure w cs r pt.ofs, diff := if differ && decide (w.kind = 0) then satAdd 65535 pt.diff 1 else pt.diff }
  (pt, other.isNone)

/-- Third clipped frame within a matrix (R416). -/
def blClip (pt : BlPort) : BlPort :=
  let c := pt.clipM + 1
  { pt with clipped := satAdd 65535 pt.clipped 1, clipM := c, st := if 3 ≤ c && (pt.st = .run || pt.st = .integrating) then .blocked else pt.st }

/-- A copy that is not taken, counted in its occurrence (R399, R414). -/
def blCount (n : BlNet) (p : Nat) (r : RxCopy) (pt : BlPort) : BlPort :=
  let t := blNow n
  let cyc := blCycleAt n t r.stamp
  match blUpAt t p cyc.1 cyc.2.1 r.stamp with
  | none => pt
  | some (k, w) =>
    let o := blOcc pt k cyc.1
    blPutOcc { o with startA := if r.chB then o.startA else o.startA + 1, startB := if r.chB then o.startB + 1 else o.startB }
      { pt with ofs := blMeasure w cyc.1 r pt.ofs }

/-- A copy that is not taken (R399, R405, R412, R413). -/
def blBad (n : BlNet) (p : Nat) (e : RxBad) (r : RxCopy) (pt : BlPort) : BlPort :=
  let inv (pt : BlPort) : BlPort :=
    if r.chB then { pt with errB := satAdd 65535 pt.errB 1 } else { pt with errA := satAdd 65535 pt.errA 1 }
  match e with
  | .ignored => pt
  | .blocked => inv { pt with sofSeen := true, blockedN := satAdd 65535 pt.blockedN 1 }
  | .clipped => inv (blClip (blCount n p r { pt with sofSeen := true }))
  | .invalid => inv (blCount n p r { pt with sofSeen := true })
  | .auth => inv (blCount n p r { pt with sofSeen := true, authFail := satAdd 65535 pt.authFail 1 })

/-- A SETPOINT record (R401). -/
def nxRecBytes (cf : Tab Word) (k : Nat) (r : NxRec) : List Byte :=
  leBytes 8 r.apply ++ leBytes 8 r.value.toNat ++ leBytes 4 (Fld.BL_NX_TLIM_P_TLIM cf k) ++ leBytes 4 (Fld.BL_NX_TLIM_N_TLIM cf k)
    ++ leBytes 1 (Fld.BL_NX_BIND_DRIVE cf k) ++ leBytes 1 r.ctrl ++ leBytes 6 0

/-- VALUE of a networked set-point from the context's emitted word (R428). -/
def nxValue (w spk : Word) (oexp spsh : Int) : DWord :=
  BitVec.ofInt 64 (satS 64 (shiftI (w.toInt * spk.toInt) (oexp - 31 + spsh + 32 - 31)))

/-- The networked slots of the module: slot j of tile n is number 8 n + j − 8. -/
def nxSlots : List Nat := List.range 64

/-- The slots bound to a port and DOWN binding point, in ascending order of DRIVE (R401, R425, R426). -/
def nxBound (cf : Tab Word) (p bind : Nat) : List Nat :=
  (List.range 8).flatMap fun d =>
    nxSlots.filter fun s => Fld.BL_NX_BIND_EN cf s && decide (Fld.BL_NX_BIND_PORT cf s = p)
      && decide (Fld.BL_NX_BIND_BIND_DN cf s = bind) && decide (Fld.BL_NX_BIND_DRIVE cf s = d)

/-- The slot bound to a port and drive (R425). -/
def nxSlotOf (cf : Tab Word) (p d : Nat) : Option Nat :=
  nxSlots.find? fun s => Fld.BL_NX_BIND_EN cf s && decide (Fld.BL_NX_BIND_PORT cf s = p)
    && decide (Fld.BL_NX_BIND_DRIVE cf s = d)

/-- At an assembly tick the newest set-point registered strictly before it becomes the slot's record (R426); the others are dropped. -/
def nxSelect (now : Nat) (x : BlNx) : BlNx × Nat :=
  let cand := x.newer.filter fun r => decide (r.1 < now)
  match cand with
  | [] => (x, 0)
  | c :: r =>
    let best := r.foldl (fun b y => if b.2.apply ≤ y.2.apply then y else b) c
    ({ x with last := best.2, newer := x.newer.filter fun r => decide (now ≤ r.1) }, r.length)

/-- CYCLE_START payload (R400). -/
def blCyclePayload (cf : Tab Word) (p matrix cycle mode : Nat) (next : Option Nat) (cs : Nat) (leave blocked : Bool) : List Byte :=
  leBytes 6 matrix ++ leBytes 1 cycle ++ leBytes 1 (mode + (match next with | some m => 8 + 16 * m | none => 0)) ++ leBytes 8 cs
    ++ leBytes 2 (Fld.BL_PORT_CFG_DLY cf p) ++ leBytes 1 (flag leave 0 + flag blocked 1 + flag (Fld.BL_PORT_CFG_SEAL cf p) 2) ++ leBytes 1 0

/-- The minimum length of a window in ticks (R410, condition 4). -/
def blMinLen (sealed : Bool) (w : BlWin) : Nat :=
  let n := if w.kind = 2 then 28 else 16 + 4 * w.maxlen
  ceilDiv ((n + if sealed then 12 else 0) * 32) 10

/-- Two windows of one port and direction overlap in a cycle in which both occur, guards included (R410, condition 3). -/
def blOverlap (g : Nat) (a b : BlWin) : Bool :=
  decide (a.port = b.port) && a.up == b.up && decide (Nat.land a.mask b.mask ≠ 0)
    && decide (a.ofs < b.ofs + b.len + 2 * g ∧ b.ofs < a.ofs + a.len + 2 * g)

/-- Every pair of a list in order satisfies `f`. -/
def allPairs {α : Type} (f : α → α → Bool) : List α → Bool
  | [] => true
  | x :: r => r.all (f x) && allPairs f r

/-- Bound points that must exist in every valid mode: port, direction UP, binding point, frame type, words of its records (R410, condition 5). -/
def blNeeds (cf : Tab Word) (safety : List (Nat × Bool × Nat × Nat)) : List (Nat × Bool × Nat × Nat × Nat) :=
  let nx := nxSlots.filter fun s => Fld.BL_NX_BIND_EN cf s
  let dn := (nx.filter fun s => decide (Fld.BL_NX_BIND_BIND_DN cf s ≠ 255)).map fun s =>
    let p := Fld.BL_NX_BIND_PORT cf s
    let b := Fld.BL_NX_BIND_BIND_DN cf s
    (p, false, b, 2, 8 * (nxBound cf p b).length)
  let up := nx.map fun s =>
    let p := Fld.BL_NX_BIND_PORT cf s
    let b := Fld.BL_NX_BIND_BIND_UP cf s
    (p, true, b, 3, 6 * (nx.filter fun q => decide (Fld.BL_NX_BIND_PORT cf q = p ∧ Fld.BL_NX_BIND_BIND_UP cf q = b)).length)
  let spins := (List.range 256).filter fun k => Fld.BL_SPIN_EN cf (k / 32) (k % 32)
  let sp := spins.map fun k =>
    let p := Fld.BL_SPIN_PORT cf (k / 32) (k % 32)
    let b := Fld.BL_SPIN_BIND cf (k / 32) (k % 32)
    let same := spins.filter fun q => decide (Fld.BL_SPIN_PORT cf (q / 32) (q % 32) = p ∧ Fld.BL_SPIN_BIND cf (q / 32) (q % 32) = b)
    (p, true, b, 2, 8 * ((same.map fun q => Fld.BL_SPIN_DRIVE cf (q / 32) (q % 32)).dedup).length)
  dn ++ up ++ sp ++ safety.map fun s => (s.1, s.2.1, s.2.2.1, 4, s.2.2.2)

/-- Conditions 1 to 5 of R410 on one valid table. -/
def blTableOk (cf : Tab Word) (needs : List (Nat × Bool × Nat × Nat × Nat)) (t : BlTable) : Bool :=
  let en (w : BlWin) : Bool := Fld.BL_PORT_CFG_EN cf w.port
  let ws := t.wins.filter en
  decide (2500 ≤ t.cycle ∧ t.cycle ≤ 1000000 ∧ 1 ≤ t.matrix ∧ t.matrix ≤ 64 ∧ 10 ≤ t.guard ∧ t.guard ≤ 500 ∧ 1 ≤ t.wins.length ∧ t.wins.length ≤ 256)
  && (t.wins.all fun w =>
    decide (w.port ≤ 11 ∧ w.kind ≤ 2 ∧ w.maxlen ≤ 64 ∧ 0 < w.mask ∧ w.mask < 2 ^ t.matrix) && !w.junk
    && (w.kind ≠ 2 || w.up) && (w.kind ≠ 0 || decide (2 ≤ w.ftype ∧ w.ftype ≤ 5 ∧ (w.up = true ∨ w.ftype ≠ 3))))
  && (ws.all fun w =>
    (if w.up then decide (t.guard ≤ w.ofs) else decide (t.guard + 170 ≤ w.ofs)) && decide (w.ofs + w.len + t.guard ≤ t.cycle)
    && decide (blMinLen (Fld.BL_PORT_CFG_SEAL cf w.port) w ≤ w.len))
  && allPairs (fun a b => !blOverlap t.guard a b) ws
  && allPairs (fun a b => a.kind ≠ 0 || b.kind ≠ 0 || a.port ≠ b.port || a.bind ≠ b.bind || (a.up == b.up && a.ftype = b.ftype && a.maxlen = b.maxlen)) ws
  && (needs.all fun q =>
    !Fld.BL_PORT_CFG_EN cf q.1 ||
    (ws.any fun w => decide (w.kind = 0 ∧ w.port = q.1 ∧ w.up = q.2.1 ∧ w.bind = q.2.2.1 ∧ w.ftype = q.2.2.2.1 ∧ q.2.2.2.2 ≤ w.maxlen)))

/-- Conditions 6 and 7 of R410 on one valid table. -/
def blFwdOk (cf : Tab Word) (t : BlTable) : Bool :=
  let has (p : Nat) (up : Bool) (kind : Nat) : Bool := t.wins.any fun w => decide (w.port = p ∧ w.up = up ∧ w.kind = kind)
  ((List.range 12).all fun p => !Fld.BL_PORT_CFG_EN cf p ||
    ((List.range 12).all fun q => !bit (Fld.BL_PORT_FWD_DEST cf p) q || has q false 1))
  && (!Fld.BL_NET_CFG_JOIN cf || (List.range 12).all fun p => !Fld.BL_PORT_CFG_EN cf p || (has p true 2 && has p false 1))

/-- The most basic cycles from one occurrence of a window to the next, through the matrix (R432). -/
def blMaxGap (w : BlWin) (matrix : Nat) : Nat :=
  ((List.range matrix).filter (blOccurs w)).foldl (fun m c =>
    let d := ((List.range matrix).find? fun k => blOccurs w ((c + k + 1) % matrix)).getD (matrix - 1) + 1
    max m d) 1

/-- A frame of the writing group, as R432 needs it: sample instant, apply offset, group period, all in ns. -/
structure LeadReq where
  period : Nat := 0
  phase : Nat := 0
  apply : Nat := 0
  lead : Nat := 0
  port : Nat := 0
  bind : Nat := 0
  deriving DecidableEq, Repr

/-- The first occurrence of a DOWN window, on the anchor `an`, whose assembly tick lies strictly after `h`; its close instant (R426, R432). -/
def blCloseAfter (t : BlTable) (w : BlWin) (an h : Nat) : Nat :=
  let q := (h - an) / blCycNs t
  let c := (List.range (t.matrix + 2)).find? fun k =>
    blOccurs w ((q + k) % t.matrix) && decide (h < an + (q + k) * blCycNs t + 10 * w.ofs - 200)
  blClose t w (an + (q + c.getD (t.matrix + 1)) * blCycNs t)

/-- R432 for a networked slot in one valid mode. -/
def blLeadOk (quickset : Bool) (anchor : Nat) (t : BlTable) (r : LeadReq) : Bool :=
  let ws := t.wins.filter fun w => decide (w.kind = 0 ∧ w.up = false ∧ w.port = r.port ∧ w.bind = r.bind)
  if quickset then
    ws.all fun w => decide (10 * r.apply + 620 + 10 * (t.cycle * blMaxGap w t.matrix + w.len + t.guard) < 10 * r.lead)
  else
    let n := if r.period = 0 then 0 else Nat.lcm (10 * r.period) (blMatNs t) / (10 * r.period)
    let base := anchor + blMatNs t
    (List.range n).all fun k =>
      let s := base + 10 * r.phase + k * 10 * r.period
      let h := s + 10 * r.apply + 420
      match (ws.map fun w => blCloseAfter t w anchor h) with
      | [] => true
      | c :: cs => decide (cs.foldl min c < s + 10 * r.lead)

/-- The last error of Berath checks (R410): every valid mode and enabled port. -/
def blCheck (cf : Tab Word) (tables : Tab BlTable) (safety : List (Nat × Bool × Nat × Nat)) (leads : List LeadReq) : Bool :=
  let valid := tables.filter fun e => e.2.valid
  let needs := blNeeds cf safety
  let quick := decide (Fld.BL_NET_CFG_START cf = 1)
  (valid.all fun e => blTableOk cf needs e.2 && blFwdOk cf e.2)
  && (valid.isEmpty && ((List.range 12).all fun p => !Fld.BL_PORT_CFG_EN cf p)
    || (valid.any fun e => decide (e.1 = Fld.BL_MODE_MODE cf)))
  && (!quick || ((List.range 12).any fun p => Fld.BL_PORT_CFG_EN cf p && Fld.BL_PORT_CFG_COLDSTART cf p))
  && (valid.all fun e => leads.all (blLeadOk quick (10 * Fld.BL_NET_PHASE_PHASE cf) e.2))

/-- Two networked slots share a port and a drive index (R425). -/
def nxClash (cf : Tab Word) : Bool :=
  let nx := nxSlots.filter fun s => Fld.BL_NX_BIND_EN cf s
  !allPairs (fun a b => Fld.BL_NX_BIND_PORT cf a ≠ Fld.BL_NX_BIND_PORT cf b
    || Fld.BL_NX_BIND_DRIVE cf a ≠ Fld.BL_NX_BIND_DRIVE cf b) nx

/-- A JOIN frame's identity against BL_PORT_ID (R440). -/
def blIdentity (cf : Tab Word) (p : Nat) (pl : List Byte) : Bool :=
  !Fld.BL_PORT_CFG_EXPECT cf p
    || (decide (leAt pl 0 4 = Fld.BL_PORT_ID_LO_ID cf p) && decide (leAt pl 6 2 = bits (Fld.BL_PORT_ID_HI_ID cf p) 16 16)
      && decide (leAt pl 4 2 = bits (Fld.BL_PORT_ID_HI_ID cf p) 0 16))

/-- BL_PORT_CTRL.CLR_STATS (R415): the counters and statistics of a port. -/
def blClear (pt : BlPort) : BlPort :=
  { pt with
    errA := 0, errB := 0, blockedN := 0, clipped := 0, diff := 0, single := 0, authFail := 0, fwdDrop := 0, spDrop := 0, joinRefused := 0, rxDrop := 0
    ofs := { drift := pt.ofs.drift, overRun := pt.ofs.overRun, underRun := pt.ofs.underRun, cycMax := pt.ofs.cycMax } }

end Sys2Proof.Machine
end

