-- ==== Sys2Proof/Machine/Operands.lean ====
section
/-! DEFINITION. Operand forms of the tile sequencer: register fields, ring and bit-reversed addressing, sizes, counts, reserved fields (R335 to R338, R340). -/

namespace Sys2Proof.Machine

/-- What the instructions of a sequencer see of their tile. -/
structure SqEnv where
  now : Nat
  codeLen : Nat
  entry : Nat
  /-- error code of R359 for a transfer descriptor, BUSY apart -/
  xferErr : Xfer → Nat

/-- A vector with the element at an index replaced. -/
def vset {α : Type} {n : Nat} (v : Vector α n) (i : Fin n) (x : α) : Vector α n := v.set i.val x i.isLt

/-- A field of the instruction word as a register number. -/
def sqFld (w lo : Nat) : Fin 16 := Fin.ofNat 16 (bits w lo 4)

/-- A 6-bit signed field. -/
def sqX (w : Nat) : Int := signed 6 (bits w 8 6)

/-- Reversal of the `b` low bits. -/
def sqRev (b x : Nat) : Nat := bitsOf b fun i => bit x (b - 1 - i)

/-- RB and RL of the ring bound to an address register; an unbound one counts as bound to a ring of length 0 (R336). -/
def sqRing (r : SqRegs) (i : Fin 16) : Nat × Nat :=
  let b := (r.bnd.get i).toNat
  if b < 8 then (0, 0)
  else
    let k : Fin 8 := Fin.ofNat 8 (b - 8)
    ((r.rb.get k).toNat, (r.rl.get k).toNat)

/-- Effective address of element `k` (R335). -/
def sqEa (r : SqRegs) (i : Fin 16) (k : Nat) : Nat :=
  let a := (r.a.get i).toNat
  match sqRing r i with
  | (_, 0) => (a + k) % 65536
  | (rb, rl) => ((rb : Int) + ((a : Int) - rb + k) % (rl : Int)).toNat % 65536

/-- A power of two 2^b with b from 1 to 16, as b. -/
def sqLog (rl : Nat) : Option Nat := (List.range 17).find? fun b => decide (1 ≤ b ∧ 2 ^ b = rl)

/-- Post-modification of address register `i` by offset register `o` under mode `am` (R336). -/
def sqPost (r : SqRegs) (i o : Fin 16) (am : Nat) : Except SqFault SqRegs :=
  let a := ((r.a.get i).toNat : Int)
  let ofs := (r.o.get o).toInt
  let rbl := sqRing r i
  let rb := (rbl.1 : Int)
  let rl := (rbl.2 : Int)
  let put (v : Int) : SqRegs := { r with a := vset r.a i (BitVec.ofInt 16 v) }
  match am with
  | 0 => .ok r
  | 1 => if rl = 0 then .ok (put (a + ofs)) else .ok (put (rb + (a - rb + ofs) % rl))
  | 2 =>
    match sqLog rbl.2 with
    | none => .error .brev
    | some b =>
      let s := sqRev b ((a - rb) % rl).toNat + sqRev b (ofs % rl).toNat
      .ok (put (rb + sqRev b (s % rbl.2)))
  | _ => .error .illegal

/-- A word of local memory. -/
def sqRead (s : Seq) (a : Nat) : Word := tabGet 0 s.mem a

/-- The words of an access of `n` elements through address register `i`. -/
def sqLoad (s : Seq) (i : Fin 16) (n : Nat) : List Word := (List.range n).map fun k => sqRead s (sqEa s.r i k)

/-- Words stored through address register `i`; a store into the code area faults (R363). -/
def sqStore (e : SqEnv) (s : Seq) (i : Fin 16) (ws : List Word) : Except SqFault Seq :=
  let as := (List.range ws.length).map (sqEa s.r i)
  if as.any fun a => decide (a < e.codeLen) then .error .codeWrite
  else .ok { s with mem := (as.zip ws).foldl (fun m p => tabSet 0 m p.1 p.2) s.mem }

/-- The number of words that a size field names; 0b11 is reserved. -/
def sqSize (sz : Nat) : Except SqFault Nat :=
  match sz with
  | 0 => .ok 1
  | 1 => .ok 2
  | 2 => .ok 4
  | _ => .error .illegal

/-- The data registers that a pair or quad names lie within D0 to D15 (R340). -/
def sqGroup (d : Fin 16) (n : Nat) : Except SqFault Unit := if d.val + n ≤ 16 then .ok () else .error .illegal

/-- An accumulator number; only four exist. -/
def sqAccNo (f : Fin 16) : Except SqFault (Fin 4) := if h : f.val < 4 then .ok ⟨f.val, h⟩ else .error .illegal

/-- The count or mask of a K-format instruction (R338). -/
def sqCount (s : Seq) (w : Nat) : Nat := if bit w 21 then (s.r.d.get (sqFld w 22)).toNat % 65536 else bits w 0 16

/-- The opcode of an instruction word. -/
def sqOpcode (w : Word) : Nat := bits w.toNat 26 6

/-- Fields named 0 are 0 (R338). -/
def sqZeroR (w : Nat) : Except SqFault Unit := if bits w 0 8 = 0 then .ok () else .error .illegal
def sqZeroM (w : Nat) : Except SqFault Unit := if bits w 0 9 = 0 then .ok () else .error .illegal
def sqZeroMM (w : Nat) : Except SqFault Unit := if bits w 0 3 = 0 then .ok () else .error .illegal
def sqZeroX (w : Nat) : Except SqFault Unit := if bits w 0 1 = 0 then .ok () else .error .illegal
def sqZeroK (w : Nat) : Except SqFault Unit := if bits w 16 5 = 0 then .ok () else .error .illegal
def sqZeroB (w : Nat) : Except SqFault Unit := if bits w 16 6 = 0 then .ok () else .error .illegal

/-- R338: the reserved codes of am and sz are illegal in every M-format instruction, used or not. -/
def sqChkM (w : Nat) : Except SqFault Nat := do
  sqZeroM w
  if bits w 12 2 = 3 then .error .illegal
  sqSize (bits w 10 2)

end Sys2Proof.Machine
end

