-- ==== Sys2Proof/Machine/Flags.lean ====
section
/-! DEFINITION. Flags of the tile sequencer: Z, N, V with saturation, block headroom (R341 to R343). -/

namespace Sys2Proof.Machine

/-- Headroom of a word (R343). -/
def sqHead (v : Word) : Nat :=
  let x := v.toInt
  ((List.range 32).filter fun k => decide (-(2 : Int) ^ (31 - k) ≤ x ∧ x < (2 : Int) ^ (31 - k))).getLast?.getD 0

/-- BDET after words written by an instruction whose `bd` bit is given (R343). -/
def sqDet (bd : Bool) (ws : List Word) (r : SqRegs) : SqRegs :=
  if bd then { r with bdet := BitVec.ofNat 5 (ws.foldl (fun m w => min m (sqHead w)) r.bdet.toNat) } else r

/-- V set, with SQ_STATUS.SAT, when `p` holds (R341, R342). -/
def sqV (p : Bool) (s : Seq) : Seq := if p then { s with r := { s.r with v := true }, sat := true } else s

/-- A result written to a data register with Z and N (R341). -/
def sqRes (s : Seq) (d : Fin 16) (v : Word) : Seq :=
  { s with r := { s.r with d := vset s.r.d d v, z := decide (v = 0), n := decide (v.toInt < 0) } }

/-- An exact result saturated into a data register; saturation sets V (R341). -/
def sqSat (s : Seq) (d : Fin 16) (v : Int) : Seq := sqV (decide (sat32 v ≠ v)) (sqRes s d (word32 v))

/-- An exact accumulator value, limited to 80 bits (R342). -/
def sqAcc (s : Seq) (k : Fin 4) (v : Int) : Seq :=
  let l := satS 80 v
  sqV (decide (l ≠ v)) { s with r := { s.r with acc := vset s.r.acc k (BitVec.ofInt 80 l) } }

end Sys2Proof.Machine
end

