-- ==== Sys2Proof/Machine/Sequencer.lean ====
section
/-! DEFINITION. The tile sequencer: events, faults, repeat, instructions, dispatch (chapter 09). -/

namespace Sys2Proof.Machine

/-- At an instruction boundary a requested HALT takes place (R362). -/
def sqBoundary (s : Seq) : Seq :=
  if s.haltReq && decide (s.rep = 0) && s.st = .running then { s with st := .halted, haltReq := false, faultPc := s.r.pc } else s

/-- An event whose cause arrives at `now`; a WAIT for it ends, which is an instruction boundary (R348, R349, R351, R362). -/
def sqEvent (k now : Nat) (s : Seq) : Seq :=
  let s := if (tabFind s.ev k).isSome then { s with evtLost := true } else { s with ev := tabInsert s.ev k now }
  if s.st = .waiting && s.waitMask.getLsbD k then sqBoundary { s with st := .running } else s

/-- The lowest event that is set and enabled (R350). -/
def sqDue (s : Seq) : Option (Nat × Nat) := s.ev.find? fun e => s.r.even.getLsbD e.1

/-- A dispatch is due: IE is 1, an enabled flag is set, and no repeat is in progress (R347, R350). -/
def sqDispatchDue (s : Seq) : Bool :=
  (s.st = .running || s.st = .waiting) && s.r.ie && decide (s.rep = 0) && (sqDue s).isSome

/-- A fault before the instruction takes effect (R363). -/
def sqFaultAt (c : SqFault) (s : Seq) : Seq :=
  { s with st := .fault, cause := some c, faultPc := s.r.pc, rep := 0, repRan := false, haltReq := false }

/-- Repetition: after an iteration the program counter moves on when no further one is due (R347). -/
def sqAdvance (n : Nat) (s : Seq) : Seq :=
  if s.rep ≤ 1 then
    sqBoundary { s with rep := 0, repRan := false, r := { s.r with pc := s.r.pc + BitVec.ofNat 16 n } }
  else { s with rep := s.rep - 1, repRan := true }

/-- Start at ENTRY with cleared registers (R334, R362, R364). -/
def sqStart (entry : Nat) (s : Seq) : Seq :=
  { s with st := .running, r := { pc := BitVec.ofNat 16 entry }, rep := 0, repRan := false, waitMask := 0, depth := 0, haltReq := false, cause := none, faultPc := 0 }

/-- The opcodes of R339's table. -/
def sqKnown (op : Nat) : Bool :=
  op ≤ 0x15 || op = 0x18 || op = 0x19 || op = 0x1A || (0x20 ≤ op && op ≤ 0x22) || (0x28 ≤ op && op ≤ 0x31) || op = 0x3F

/-- The opcodes with repeat steps (R339). -/
def sqRepeats (op : Nat) : Bool := (op ≤ 0x15 && op ≠ 4) || op = 0x18 || op = 0x1A

/-- Executes the instruction at the program counter when its opcode is `op`: the sequencer runs, no dispatch is due and the
program counter lies in the code area. `f` is the instruction's effect on the registers and memory of the tile; it leaves the
program counter, which moves on by the length `len` and by the repeat in progress. -/
def sqRun (e : SqEnv) (op len : Nat) (f : SqEnv → Nat → Seq → Except SqFault Seq) (s : Seq) : Seq :=
  if s.st = .running && !sqDispatchDue s && decide (s.r.pc.toNat < e.codeLen) then
    let w := sqRead s s.r.pc.toNat
    if sqOpcode w = op then
      match f e w.toNat s with
      | .ok s' => sqAdvance len s'
      | .error c => sqFaultAt c s
    else s
  else s

/-- As `sqRun` for an instruction that sets the program counter itself. -/
def sqRunPc (e : SqEnv) (op : Nat) (f : SqEnv → Nat → Seq → Except SqFault Seq) (s : Seq) : Seq :=
  if s.st = .running && !sqDispatchDue s && decide (s.r.pc.toNat < e.codeLen) then
    let w := sqRead s s.r.pc.toNat
    if sqOpcode w = op then
      match f e w.toNat s with
      | .ok s' => sqBoundary s'
      | .error c => sqFaultAt c s
    else s
  else s

def sqNop (_ : SqEnv) (w : Nat) (s : Seq) : Except SqFault Seq := do
  sqZeroK w
  return s

def sqLd (_ : SqEnv) (w : Nat) (s : Seq) : Except SqFault Seq := do
  let n ← sqChkM w
  let d := sqFld w 22
  sqGroup d n
  let a := sqFld w 18
  let ws := sqLoad s a n
  let r ← sqPost s.r a (sqFld w 14) (bits w 12 2)
  let dv := (ws.zip (List.range n)).foldl (fun v p => vset v (d + Fin.ofNat 16 p.2) p.1) r.d
  return { s with r := sqDet (bit w 9) ws { r with d := dv } }

def sqSt (e : SqEnv) (w : Nat) (s : Seq) : Except SqFault Seq := do
  let n ← sqChkM w
  let d := sqFld w 22
  sqGroup d n
  let a := sqFld w 18
  let ws := (List.range n).map fun k => s.r.d.get (d + Fin.ofNat 16 k)
  let s ← sqStore e s a ws
  let r ← sqPost s.r a (sqFld w 14) (bits w 12 2)
  return { s with r := sqDet (bit w 9) ws r }

def sqMvm (e : SqEnv) (w : Nat) (s : Seq) : Except SqFault Seq := do
  sqZeroMM w
  let n ← sqSize (bits w 4 2)
  if bits w 6 2 = 3 || bits w 16 2 = 3 then .error .illegal
  let ad := sqFld w 22
  let as := sqFld w 12
  let ws := sqLoad s as n
  let s ← sqStore e s ad ws
  let r ← sqPost s.r as (sqFld w 8) (bits w 6 2)
  let r ← sqPost r ad (sqFld w 18) (bits w 16 2)
  return { s with r := sqDet (bit w 3) ws r }

def sqLdi (_ : SqEnv) (w : Nat) (s : Seq) : Except SqFault Seq := do
  sqZeroK w
  return { s with r := { s.r with d := vset s.r.d (sqFld w 22) (sqRead s ((s.r.pc.toNat + 1) % 65536)) } }

def sqMov (_ : SqEnv) (w : Nat) (s : Seq) : Except SqFault Seq := do
  sqZeroR w
  return sqRes s (sqFld w 22) (s.r.d.get (sqFld w 18))

/-- The value of a register of a MOVA class, as a word. -/
def sqClassRead (s : Seq) (cls : Nat) (i : Fin 16) : Except SqFault Word :=
  let r := s.r
  let i8 : Fin 8 := Fin.ofNat 8 i.val
  match cls with
  | 0 => .ok (r.d.get i)
  | 1 => .ok ((r.a.get i).setWidth 32)
  | 2 => .ok ((r.o.get i).signExtend 32)
  | 3 => if i.val < 8 then .ok ((r.rb.get i8).setWidth 32) else .error .illegal
  | 4 => if i.val < 8 then .ok ((r.rl.get i8).setWidth 32) else .error .illegal
  | 5 =>
    match i.val with
    | 0 => .ok (r.bexp.signExtend 32)
    | 1 => .ok (r.bdet.setWidth 32)
    | 2 => .ok (r.bsh.setWidth 32)
    | 3 => .ok r.mx
    | 4 => .ok (r.mxi.setWidth 32)
    | 5 => .ok (BitVec.ofNat 32 (flag r.z 0 + flag r.n 1 + flag r.v 2 + flag r.ie 3))
    | 6 => .ok (r.even.setWidth 32)
    | 7 => .ok s.dbell
    | 8 => .ok (BitVec.ofNat 32 ((List.range 8).map fun k => (r.bnd.get (Fin.ofNat 16 k)).toNat * 16 ^ k).sum)
    | 9 => .ok (BitVec.ofNat 32 ((List.range 8).map fun k => (r.bnd.get (Fin.ofNat 16 (k + 8))).toNat * 16 ^ k).sum)
    | _ => .error .illegal
  | _ => .error .illegal

/-- The bindings of eight address registers from a word. -/
def sqBind (v : Vector (BitVec 4) 16) (base : Nat) (x : Nat) : Vector (BitVec 4) 16 :=
  (List.range 8).foldl (fun b k => vset b (Fin.ofNat 16 (base + k)) (BitVec.ofNat 4 (bits x (4 * k) 4))) v

/-- A word written to a register of a MOVA class (R339, R340); class 0 sets Z and N (R341). -/
def sqClassWrite (s : Seq) (cls : Nat) (i : Fin 16) (x : Word) : Except SqFault Seq :=
  let r := s.r
  let i8 : Fin 8 := Fin.ofNat 8 i.val
  let lo : BitVec 16 := x.setWidth 16
  match cls with
  | 0 => .ok (sqRes s i x)
  | 1 => .ok { s with r := { r with a := vset r.a i lo } }
  | 2 => .ok { s with r := { r with o := vset r.o i lo } }
  | 3 => if i.val < 8 then .ok { s with r := { r with rb := vset r.rb i8 lo } } else .error .illegal
  | 4 => if i.val < 8 then .ok { s with r := { r with rl := vset r.rl i8 lo } } else .error .illegal
  | 5 =>
    match i.val with
    | 0 => .ok { s with r := { r with bexp := lo } }
    | 1 => .ok { s with r := { r with bdet := x.setWidth 5 } }
    | 2 => if bits x.toNat 0 2 = 3 then .error .illegal else .ok { s with r := { r with bsh := x.setWidth 2 } }
    | 3 => .ok { s with r := { r with mx := x } }
    | 5 => .ok { s with r := { r with z := bit x.toNat 0, n := bit x.toNat 1, v := bit x.toNat 2, ie := bit x.toNat 3 }, sat := s.sat || bit x.toNat 2 }
    | 6 => .ok { s with r := { r with even := lo } }
    | 8 => .ok { s with r := { r with bnd := sqBind r.bnd 0 x.toNat } }
    | 9 => .ok { s with r := { r with bnd := sqBind r.bnd 8 x.toNat } }
    | _ => .error .illegal
  | _ => .error .illegal

def sqMova (_ : SqEnv) (w : Nat) (s : Seq) : Except SqFault Seq := do
  sqZeroR w
  let x ← sqClassRead s (bits w 8 3) (sqFld w 18)
  sqClassWrite s (bits w 11 3) (sqFld w 22) x

def sqAadd (_ : SqEnv) (w : Nat) (s : Seq) : Except SqFault Seq := do
  let _ ← sqChkM w
  let r ← sqPost s.r (sqFld w 18) (sqFld w 14) (bits w 12 2)
  return { s with r := r }

/-- The operands Ds and Dt. -/
def sqDs (s : Seq) (w : Nat) : Int := (s.r.d.get (sqFld w 18)).toInt
def sqDt (s : Seq) (w : Nat) : Int := (s.r.d.get (sqFld w 14)).toInt

def sqAdd (_ : SqEnv) (w : Nat) (s : Seq) : Except SqFault Seq := do
  sqZeroR w
  return sqSat s (sqFld w 22) (sqDs s w + sqDt s w)

def sqSub (_ : SqEnv) (w : Nat) (s : Seq) : Except SqFault Seq := do
  sqZeroR w
  return sqSat s (sqFld w 22) (sqDs s w - sqDt s w)

def sqAsh (_ : SqEnv) (w : Nat) (s : Seq) : Except SqFault Seq := do
  sqZeroR w
  if sqX w < -31 then .error .illegal
  return sqSat s (sqFld w 22) (shiftI (sqDs s w) (sqX w))

def sqAnd (_ : SqEnv) (w : Nat) (s : Seq) : Except SqFault Seq := do
  sqZeroR w
  return sqRes s (sqFld w 22) (s.r.d.get (sqFld w 18) &&& s.r.d.get (sqFld w 14))

def sqOr (_ : SqEnv) (w : Nat) (s : Seq) : Except SqFault Seq := do
  sqZeroR w
  return sqRes s (sqFld w 22) (s.r.d.get (sqFld w 18) ||| s.r.d.get (sqFld w 14))

def sqXor (_ : SqEnv) (w : Nat) (s : Seq) : Except SqFault Seq := do
  sqZeroR w
  return sqRes s (sqFld w 22) (s.r.d.get (sqFld w 18) ^^^ s.r.d.get (sqFld w 14))

def sqCmp (_ : SqEnv) (w : Nat) (s : Seq) : Except SqFault Seq := do
  sqZeroR w
  let x := sqDs s w - sqDt s w
  return { s with r := { s.r with z := decide (x = 0), n := decide (x < 0) } }

def sqAbs (_ : SqEnv) (w : Nat) (s : Seq) : Except SqFault Seq := do
  sqZeroR w
  return sqSat s (sqFld w 22) |sqDs s w|

def sqMul (_ : SqEnv) (w : Nat) (s : Seq) : Except SqFault Seq := do
  sqZeroR w
  let k ← sqAccNo (sqFld w 22)
  return sqAcc s k (sqDs s w * sqDt s w)

def sqMac (_ : SqEnv) (w : Nat) (s : Seq) : Except SqFault Seq := do
  sqZeroR w
  let k ← sqAccNo (sqFld w 22)
  return sqAcc s k ((s.r.acc.get k).toInt + sqDs s w * sqDt s w)

def sqMsu (_ : SqEnv) (w : Nat) (s : Seq) : Except SqFault Seq := do
  sqZeroR w
  let k ← sqAccNo (sqFld w 22)
  return sqAcc s k ((s.r.acc.get k).toInt - sqDs s w * sqDt s w)

/-- The words X and Y of a vector step as exact numbers. -/
def sqAt (ws : List Word) (k : Nat) : Int := (ws.getD k 0).toInt

def sqVmac (_ : SqEnv) (w : Nat) (s : Seq) : Except SqFault Seq := do
  sqZeroX w
  let a := sqFld w 22
  let b := sqFld w 18
  let x := sqLoad s a 4
  let y := sqLoad s b 4
  let lane (f : Nat → Int) (s : Seq) : Seq :=
    [0, 1, 2, 3].foldl (fun s k => sqAcc s (Fin.ofNat 4 k) ((s.r.acc.get (Fin.ofNat 4 k)).toInt + f k)) s
  let s ←
    match bits w 14 4 with
    | 0 => .ok (lane (fun k => sqAt x k * sqAt y k) s)
    | 1 => .ok (lane (fun k => sqAt x k * sqAt y 0) s)
    | 2 => .ok (sqAcc s 0 ((s.r.acc.get 0).toInt + ([0, 1, 2, 3].map fun k => sqAt x k * sqAt y k).sum))
    | _ => .error .illegal
  let r ← sqPost s.r a (sqFld w 10) 1
  let r ← sqPost r b (sqFld w 6) 1
  return { s with r := r }

def sqAccr (_ : SqEnv) (w : Nat) (s : Seq) : Except SqFault Seq := do
  sqZeroR w
  let k ← sqAccNo (sqFld w 18)
  if sqX w < -16 || 15 < sqX w then .error .illegal
  return sqSat s (sqFld w 22) (shiftI (s.r.acc.get k).toInt (sqX w - 31))

def sqAclr (_ : SqEnv) (w : Nat) (s : Seq) : Except SqFault Seq := do
  sqZeroK w
  let m := sqCount s w
  return { s with r := { s.r with acc := [0, 1, 2, 3].foldl (fun v k => if bit m k then vset v (Fin.ofNat 4 k) 0 else v) s.r.acc } }

/-- Radix-2 butterfly (R344). -/
def sqBfly (e : SqEnv) (w : Nat) (s : Seq) : Except SqFault Seq := do
  sqZeroX w
  let a := sqFld w 22
  let b := sqFld w 18
  let c := sqFld w 14
  let xa := sqLoad s a 2
  let xb := sqLoad s b 2
  let xw := sqLoad s c 2
  let pr := sqAt xb 0 * sqAt xw 0 - sqAt xb 1 * sqAt xw 1
  let pi := sqAt xb 0 * sqAt xw 1 + sqAt xb 1 * sqAt xw 0
  let q (v : Int) : Word := word32 (shiftI v (-(31 + s.r.bsh.toNat)))
  let m := (2 : Int) ^ 31
  let wa := [q (sqAt xa 0 * m + pr), q (sqAt xa 1 * m + pi)]
  let wb := [q (sqAt xa 0 * m - pr), q (sqAt xa 1 * m - pi)]
  let s ← sqStore e s a wa
  let s ← sqStore e s b wb
  let r ← sqPost s.r a (sqFld w 10) 1
  let r ← sqPost r b (sqFld w 6) 1
  let r ← sqPost r c (sqFld w 2) 1
  return { s with r := sqDet (bit w 1) (wa ++ wb) r }

def sqBscale (_ : SqEnv) (w : Nat) (s : Seq) : Except SqFault Seq := do
  sqZeroK w
  let h := 2 - s.r.bdet.toNat
  return { s with r := { s.r with bsh := BitVec.ofNat 2 h, bexp := s.r.bexp + BitVec.ofNat 16 h, bdet := 31 } }

/-- Search step (R346). Under REP, INIT applies to the first iteration only. -/
def sqSrch (_ : SqEnv) (w : Nat) (s : Seq) : Except SqFault Seq := do
  let _ ← sqChkM w
  let a := sqFld w 18
  let v := (sqRead s (sqEa s.r a 0)).toInt
  let mx := s.r.mx.toInt
  let ct ←
    match bits w 22 2 with
    | 0 => .ok (v, decide (mx < v))
    | 1 => .ok (v, decide (v < mx))
    | 2 => .ok (sat32 |v|, decide (mx < sat32 |v|))
    | _ => .error .illegal
  let take := ct.2 || (bit w 24 && !s.repRan)
  let r := if take then { s.r with mx := BitVec.ofInt 32 ct.1, mxi := BitVec.ofNat 16 (sqEa s.r a 0) } else s.r
  let r ← sqPost r a (sqFld w 14) (bits w 12 2)
  return { s with r := r }

def sqMbsnap (e : SqEnv) (w : Nat) (s : Seq) : Except SqFault Seq := do
  let _ ← sqChkM w
  let a := sqFld w 18
  let ws := s.mb.inW.toList
  let s ← sqStore e s a ws
  let r ← sqPost s.r a (sqFld w 14) (bits w 12 2)
  return { s with r := sqDet (bit w 9) ws r }

def sqMbout (_ : SqEnv) (w : Nat) (s : Seq) : Except SqFault Seq := do
  sqZeroR w
  return { s with mb := { s.mb with pendW := vset s.mb.pendW (sqFld w 22) (s.r.d.get (sqFld w 18)) } }

/-- Pending words of a mask become OUT words together (R355); their mailboxes are no longer stale (R356). -/
def mbPost (now : Nat) (mask : BitVec 16) (m : Mbx) : Mbx :=
  let m := if m.postAt = now then m else { m with outPrev := m.outW, postAt := now }
  let ks := (List.range 16).filter fun k => mask.getLsbD k
  { m with
    outW := ks.foldl (fun v k => vset v (Fin.ofNat 16 k) (m.pendW.get (Fin.ofNat 16 k))) m.outW
    posted := ks.foldl (fun t k => tabInsert t k now) m.posted
    stale := m.stale &&& ~~~mask }

def sqMbpost (e : SqEnv) (w : Nat) (s : Seq) : Except SqFault Seq := do
  sqZeroK w
  return { s with mb := mbPost e.now (BitVec.ofNat 16 (sqCount s w)) s.mb }

/-- The OUT word read at a sample instant: the last value posted at a tick strictly before it (R353). -/
def mbOut (now k : Nat) (m : Mbx) : Word := if m.postAt = now then m.outPrev.get (Fin.ofNat 16 k) else m.outW.get (Fin.ofNat 16 k)

/-- The conditions of BR (R339). -/
def sqCond (c : Nat) (r : SqRegs) : Except SqFault Bool :=
  match c with
  | 0 => .ok true
  | 1 => .ok r.z
  | 2 => .ok !r.z
  | 3 => .ok r.n
  | 4 => .ok !r.n
  | 5 => .ok (!r.n && !r.z)
  | 6 => .ok (r.n || r.z)
  | 7 => .ok r.v
  | _ => .error .illegal

/-- The program counter set. -/
def sqTo (s : Seq) (pc : BitVec 16) : Seq := { s with r := { s.r with pc := pc } }

/-- The branch target of the B format. -/
def sqTarget (w : Nat) : BitVec 16 := BitVec.ofNat 16 (bits w 0 16)

def sqBr (_ : SqEnv) (w : Nat) (s : Seq) : Except SqFault Seq := do
  sqZeroB w
  let c ← sqCond (bits w 22 4) s.r
  return if c then sqTo s (sqTarget w) else sqTo s (s.r.pc + 1)

def sqDbnz (_ : SqEnv) (w : Nat) (s : Seq) : Except SqFault Seq := do
  sqZeroB w
  let d := sqFld w 22
  let v := s.r.d.get d - 1
  let s := { s with r := { s.r with d := vset s.r.d d v } }
  return if v = 0 then sqTo s (s.r.pc + 1) else sqTo s (sqTarget w)

def sqCall (_ : SqEnv) (w : Nat) (s : Seq) : Except SqFault Seq := do
  sqZeroB w
  if 8 ≤ s.r.stack.length then .error .stack
  return sqTo { s with r := { s.r with stack := (s.r.pc + 1) :: s.r.stack } } (sqTarget w)

def sqRet (_ : SqEnv) (w : Nat) (s : Seq) : Except SqFault Seq := do
  sqZeroK w
  match s.r.stack with
  | [] => .error .stack
  | p :: r => return sqTo { s with r := { s.r with stack := r } } p

def sqReti (_ : SqEnv) (w : Nat) (s : Seq) : Except SqFault Seq := do
  sqZeroK w
  if s.depth = 0 then .error .illegal
  return sqTo { s with depth := s.depth - 1, r := { s.r with ie := true } } s.r.epc

/-- REP (R347): the next instruction becomes the repeated one; with a count of 0 it is skipped. -/
def sqRep (_ : SqEnv) (w : Nat) (s : Seq) : Except SqFault Seq := do
  sqZeroK w
  if !sqRepeats (sqOpcode (sqRead s ((s.r.pc.toNat + 1) % 65536))) then .error .repBody
  let n := sqCount s w
  return if n = 0 then sqTo s (s.r.pc + 2) else sqTo { s with rep := n, repRan := false } (s.r.pc + 1)

/-- WAIT (R351): completes at once when a flag of its mask is set; otherwise the sequencer waits at the next instruction. -/
def sqWait (_ : SqEnv) (w : Nat) (s : Seq) : Except SqFault Seq := do
  sqZeroK w
  let m := BitVec.ofNat 16 (sqCount s w)
  let s := sqTo s (s.r.pc + 1)
  return if s.ev.any fun e => m.getLsbD e.1 then s else { s with st := .waiting, waitMask := m }

def sqEvclr (_ : SqEnv) (w : Nat) (s : Seq) : Except SqFault Seq := do
  sqZeroK w
  let m := sqCount s w
  return { s with ev := s.ev.filter fun e => !bit m e.1 }

def sqSetie (_ : SqEnv) (w : Nat) (s : Seq) : Except SqFault Seq := do
  sqZeroK w
  return { s with r := { s.r with ie := bit w 0 } }

/-- A transfer descriptor of four words (R358). -/
def sqDesc (ws : List Word) : Xfer :=
  let w0 := (ws.getD 0 0).toNat
  let w1 := (ws.getD 1 0).toNat
  { busy := true, len := bits w0 16 16, loc := bits w0 0 16, part := bits w1 24 8, tile := bits w1 20 4, dir := bits w1 0 2, ofs := (ws.getD 2 0).toNat }

/-- XFER (R358, R359): starts the channel, or fails it with its error code and event. -/
def sqXfer (e : SqEnv) (w : Nat) (s : Seq) : Except SqFault Seq := do
  let _ ← sqChkM w
  let a := sqFld w 18
  let c : Fin 4 := Fin.ofNat 4 (bits w 22 2)
  let x := { sqDesc (sqLoad s a 4) with at_ := e.now }
  let r ← sqPost s.r a (sqFld w 14) (bits w 12 2)
  let s := { s with r := r }
  let fail (s : Seq) (x : Xfer) (code : Nat) : Seq :=
    sqEvent (8 + c.val) e.now { s with ch := vset s.ch c { x with err := code } }
  let err := e.xferErr x
  let out :=
    if (s.ch.get c).busy then fail s (s.ch.get c) 1
    else if err = 0 then { s with ch := vset s.ch c x }
    else fail s (s.ch.get c) err
  return out

/-- HALT (R339): STATE becomes HALTED; RUN goes on after it. -/
def sqHaltI (_ : SqEnv) (w : Nat) (s : Seq) : Except SqFault Seq := do
  sqZeroK w
  return { s with st := .halted, faultPc := s.r.pc, haltReq := false }

/-- Dispatch of the lowest enabled event (R350); the delay since its tick is recorded (R352). -/
def sqDispatch (now : Nat) (s : Seq) : Seq :=
  if sqDispatchDue s then
    match sqDue s with
    | some (k, t) =>
      sqBoundary { s with
        st := .running
        ev := tabErase s.ev k
        depth := s.depth + 1
        dispMax := max s.dispMax ((now - t) / 10)
        r := { s.r with epc := s.r.pc, ie := false, pc := (sqRead s k).setWidth 16 } }
    | none => s
  else s

/-- A word at the program counter whose opcode is not in the table (R340). -/
def sqIllegal (e : SqEnv) (s : Seq) : Seq :=
  if s.st = .running && !sqDispatchDue s && decide (s.r.pc.toNat < e.codeLen) && !sqKnown (sqOpcode (sqRead s s.r.pc.toNat)) then
    sqFaultAt .illegal s
  else s

/-- The program counter at or beyond CODE_LEN (R363). -/
def sqFetchFault (e : SqEnv) (s : Seq) : Seq :=
  if s.st = .running && !sqDispatchDue s && decide (e.codeLen ≤ s.r.pc.toNat) then sqFaultAt .fetch s else s

/-- SQ_CTRL.HALT (R362): at the next instruction boundary, that of the end of a WAIT or REP in progress. -/
def sqHalt (s : Seq) : Seq := if s.st = .running || s.st = .waiting then sqBoundary { s with haltReq := true } else s

/-- A tile without a sequencer program keeps its sequencer HALTED; RUN and RESET have no effect there (R333, R362). -/
def sqNoProgram (e : SqEnv) : Bool := decide (e.codeLen = 0) && decide (e.entry = 0)

/-- SQ_CTRL.RUN (R362). -/
def sqGo (e : SqEnv) (s : Seq) : Seq := if sqNoProgram e then s else if s.st = .halted then { s with st := .running } else s

/-- SQ_CTRL.RESET (R362). -/
def sqReset (e : SqEnv) (s : Seq) : Seq := if sqNoProgram e then s else sqStart e.entry s

/-- A word of which the bytes that `bs` from byte address `ofs` covers are replaced; `a` is the byte address of the word. -/
def wordSplice (a ofs : Nat) (bs : List Byte) (w : Word) : Word :=
  BitVec.ofNat 32 (leNat ((List.range 4).map fun i =>
    if ofs ≤ a + i && a + i < ofs + bs.length then bs.getD (a + i - ofs) 0 else (w >>> (8 * i)).setWidth 8))

/-- Bytes written to local memory from a byte address (R87): the other bytes of the words they lie in stand. -/
def bytesTo (ofs : Nat) (bs : List Byte) (m : Tab Word) : Tab Word :=
  (List.range ((ofs % 4 + bs.length + 3) / 4)).foldl (fun m k =>
    let i := ofs / 4 + k
    tabSet 0 m i (wordSplice (4 * i) ofs bs (tabGet 0 m i))) m

/-- Boot, and the application of a commit that changes the microcode item (R357, R362, R364): OUT and pending words 0, registers
cleared, transfer channels cancelled, start at ENTRY or HALTED without a program. `img` lists the code area and LOAD data, `stale` the
mailboxes whose timeout is not 0. -/
def sqLoadCode (e : SqEnv) (img : List (Nat × List Byte)) (stale : BitVec 16) (s : Seq) : Seq :=
  let s := { s with
    mem := img.foldl (fun m p => bytesTo p.1 p.2 m) s.mem
    ch := s.ch.map fun x => { x with busy := false }
    mb := { s.mb with pendW := Vector.replicate 16 0, outW := Vector.replicate 16 0, outPrev := Vector.replicate 16 0, posted := [], stale := stale } }
  let s := sqStart e.entry s
  if sqNoProgram e then { s with st := .halted } else s

end Sys2Proof.Machine
end

