-- ==== Sys2Proof/Machine/Schedule.lean ====
section
/-! DEFINITION. Gain schedules (chapter 04, R144 to R161): banks, regions, transitions, the two-bank scheme. -/

namespace Sys2Proof.Machine

/-- The CRC-32 of images and banks. -/
def crc32 (bs : List Byte) : Nat := crcRefl 0xEDB88320 bs

/-- The signed 32-bit word at a byte offset. -/
def s32At (bs : List Byte) (o : Nat) : Int := signed 32 (leAt bs o 4)

/-- Every element exceeds the one before it. -/
def ascending : List Int → Bool
  | a :: b :: r => decide (a < b) && ascending (b :: r)
  | _ => true

/-- The five coefficients of section `s` in region `r` of a bank. -/
def bankCoef (b : SchedBank) (r s : Nat) : List Int := (b.coefs.drop (5 * (r * b.sections + s))).take 5

/-- A gain-schedule bank read from its bytes (R155), valid under R156. `wide` says which sections need the integrator form; `cs` are their shifts. -/
def parseSchedBank (bs : List Byte) (nsec : Nat) (need : List Bool) (cs : List Nat) : Option SchedBank :=
  let rg := leAt bs 0 1
  let sc := leAt bs 1 1
  let n := 5 * rg * sc
  let b : SchedBank :=
    { regions := rg, sections := sc
      bounds := (List.range (rg - 1)).map fun i => s32At bs (8 + 4 * i)
      coefs := (List.range n).map fun i => s32At bs (0x50 + 4 * i) }
  let crcAt := 0x50 + 4 * n
  let formOk := (List.range rg).all fun r => (List.range sc).all fun s =>
    !(need.getD s false) ||
      (match bankCoef b r s with
       | [_, _, _, a1, a2] => a1 * (2 : Int) ^ cs.getD s 0 == -(2 : Int) ^ 31 && a2 == 0
       | _ => false)
  if 1 ≤ rg && rg ≤ 16 && 1 ≤ sc && sc ≤ min 16 nsec && ascending b.bounds
      && leAt bs crcAt 4 == crc32 (slice bs 0 crcAt) && formOk then some b
  else none

/-- The region that contains `v` (R147). -/
def regionOf (b : SchedBank) (v : Int) : Nat := (b.bounds.filter fun x => decide (x ≤ v)).length

/-- The region logic of one frame (R146): the region after it. -/
def regionStep (b : SchedBank) (h : Int) (i : Nat) (v : Int) : Nat :=
  let below := decide (0 < i) && decide (v < b.bounds.getD (i - 1) 0 - h)
  let above := decide (i < b.bounds.length) && decide (b.bounds.getD i 0 + h ≤ v)
  if below || above then regionOf b v else i

/-- All coefficients of a region, section by section. -/
def regionCoefs (b : SchedBank) (r : Nat) : List Int := (b.coefs.drop (5 * r * b.sections)).take (5 * b.sections)

/-- The interpolated coefficients of frame `k` of a transition (R149). -/
def interpCoefs (tstep k : Nat) (old new : List Int) : List Int :=
  let w : Int := (min (k * tstep) (2 ^ 31) : Nat)
  (List.range new.length).map fun i =>
    let c0 := old.getD i 0
    c0 + (new.getD i 0 - c0) * w / (2 : Int) ^ 31

/-- The parameters of a schedule (CE_SCHED_ registers). -/
structure SchedCfg where
  interp : Bool := false
  vscale : Int := 0
  hyst : Int := 0
  tstep : Nat := 0
  deriving DecidableEq, Repr

/-- The swap at a boundary (R158): at the sample instant `t`, with scheduling variable `v`. -/
def schedSwap (g : SchedCfg) (t : Nat) (v : Int) (s : Sched) : Sched :=
  let due := match s.reselect with
    | some r => decide (r < t)
    | none => false
  let changes := s.regionKnown && decide (regionStep s.bank g.hyst s.region v ≠ s.region)
  let s' := if due then { s with reselect := none } else s
  if s.active.isSome && (due || changes) && s.shadow == .sealed && decide (s.sealedAt < t) then
    { s' with active := s.active.map (1 - ·), bank := s.shadowBank, shadow := .empty
              swaps := satAdd 65535 s.swaps 1, regionKnown := false }
  else s'

/-- The coefficients of a frame (R146 to R151) and the schedule after it; `regs` are the register coefficients of the context's chain, in force for the sections
that the schedule did not supply before (R144, R158). The flag says that a transition is running in this frame. -/
def schedStep (g : SchedCfg) (enabled : Bool) (v : Int) (regs : List Int) (s : Sched) : Sched × List Int × Bool :=
  let j := if s.regionKnown then regionStep s.bank g.hyst s.region v else regionOf s.bank v
  let change := !s.regionKnown || decide (j ≠ s.region)
  let new := regionCoefs s.bank j
  let starts := change && g.interp && enabled && !s.used.isEmpty
  let k := if starts then 1 else if change then 0 else if s.k = 0 then 0 else s.k + 1
  let old := if starts then s.used ++ regs.drop s.used.length else s.cOld
  let cs := if k = 0 then new else interpCoefs g.tstep k old new
  let ends := decide (2 ^ 31 ≤ k * g.tstep)
  ({ s with region := j, regionKnown := true, k := if ends then 0 else k, cOld := old, used := cs, v := v }, cs, decide (k ≠ 0))

/-- SEAL (R157): the shadow is locked and fetched; no effect while FETCHING or SEALED. -/
def schedSeal (s : Sched) : Sched := if s.shadow = .empty then { s with shadow := .fetching } else s

/-- The fetched bank is checked (R156, R157, R160). DESIGN CHOICE: on a schedule with no active bank, bank 0 is the shadow that SEAL fetches, and it becomes active (log 19). -/
def schedSealDone (now : Nat) (r : Option SchedBank) (s : Sched) : Sched :=
  if s.shadow = .fetching then
    match r with
    | none => { s with shadow := .empty, sealErr := true }
    | some b =>
      match s.active with
      | none => { s with active := some 0, bank := b, shadow := .empty, regionKnown := false }
      | some _ => { s with shadow := .sealed, shadowBank := b, sealedAt := now }
  else s

/-- UNSEAL (R159): a sealed shadow that no frame has swapped in returns to EMPTY. -/
def schedUnseal (s : Sched) : Sched := if s.shadow = .sealed then { s with shadow := .empty } else s

/-- RESELECT (R158): the next frame is a boundary; with no sealed shadow nothing changes. -/
def schedReselect (now : Nat) (s : Sched) : Sched :=
  if s.shadow = .sealed then { s with reselect := some now } else s

end Sys2Proof.Machine
end

