-- ==== Sys2Proof/Machine/Follower.lean ====
section
/-! DEFINITION. Follower units: clutch, gear and cam (chapter 08, R306 to R318); compares (R319 to R322), as functions of one unit. -/

namespace Sys2Proof.Machine

/-- One cam point (R314): X and P in Q48.16, S in Q32.32. -/
structure CamPt where
  x : Int := 0
  p : Int := 0
  sl : Int := 0
  brk : Bool := false
  deriving DecidableEq, Repr

/-- A cam table: its points in order, and whether it is periodic. -/
structure CamTab where
  pts : List CamPt := []
  periodic : Bool := false
  deriving DecidableEq, Repr

/-- A cam point read from its 32 bytes. -/
def parseCamPt (bs : List Byte) : CamPt :=
  { x := signed 64 (leAt bs 0 8), p := signed 64 (leAt bs 8 8), sl := signed 64 (leAt bs 16 8), brk := bit (leAt bs 24 4) 0 }

/-- The points of a bank (R314). -/
def parseCam (bs : List Byte) : CamTab :=
  { pts := (List.range (leAt bs 0 4)).map fun i => parseCamPt (slice bs (32 + 32 * i) 32), periodic := bit (leAt bs 8 4) 0 }

/-- Adjacent points lie at least `d` apart and rise strictly. -/
def camSpaced (d : Int) : List CamPt → Bool
  | a :: b :: r => decide (a.x < b.x) && decide (d ≤ b.x - a.x) && camSpaced d (b :: r)
  | _ => true

/-- A valid cam bank (R315). -/
def camValid (bs : List Byte) (bankUnits minDx : Nat) : Bool :=
  let n := leAt bs 0 4
  let crcAt := 32 + 32 * n
  let t := parseCam bs
  let f := leAt bs 8 4
  decide (2 ≤ n) && decide (n + 2 ≤ bankUnits * 2048) && decide (leAt bs crcAt 4 = crc32 (slice bs 0 crcAt))
    && decide (f < 2) && (slice bs 12 20).all (· == 0)
    && (List.range n).all (fun i => decide (leAt (slice bs (32 + 32 * i) 32) 24 4 < 2) && decide (leAt (slice bs (32 + 32 * i) 32) 28 4 = 0))
    && camSpaced ((minDx : Int) * 65536) t.pts
    && (!t.periodic || (decide ((t.pts.headD {}).x = 0) && decide (((t.pts.getLast?).getD {}).sl = (t.pts.headD {}).sl)))

/-- The span and rise of a periodic cam (R316). -/
def camSpan (t : CamTab) : Int × Int :=
  let l := (t.pts.getLast?).getD {}
  (l.x, l.p - (t.pts.headD {}).p)

/-- The cycle and the argument within the cycle (R316). -/
def camArg (t : CamTab) (x : Int) : Int × Int :=
  if t.periodic then
    let sp := max 1 (camSpan t).1
    (x / sp, x % sp)
  else (0, x)

/-- The index of the interval that holds an argument, counted from `i`. -/
def camFind : List CamPt → Nat → Int → Option (Nat × CamPt × CamPt)
  | a :: b :: r, i, x =>
    if decide (a.x ≤ x) && (decide (x < b.x) || (r.isEmpty && decide (x = b.x))) then some (i, a, b) else camFind (b :: r) (i + 1) x
  | _, _, _ => none

/-- A cam evaluated at `x` with master velocity `v` (R316): the interval, the position and the velocity. -/
def camEval (t : CamTab) (x v : Int) : Option (Nat × Int × Int) :=
  let (n, a) := camArg t x
  match camFind t.pts 0 a with
  | none => none
  | some (i, q0, q1) =>
    let dx := q1.x - q0.x
    let dv0 := q0.sl * dx / 2 ^ 32
    let dv1 := q1.sl * dx / 2 ^ 32
    let a2 := 3 * (q1.p - q0.p) - 2 * dv0 - dv1
    let a3 := 2 * (q0.p - q1.p) + dv0 + dv1
    let u := floorDiv ((a - q0.x) * 2 ^ 32) dx
    let p := q0.p + ((a3 * u + a2 * 2 ^ 32) * u + dv0 * 2 ^ 64) * u / 2 ^ 96
    let cv := floorDiv ((dv0 * 2 ^ 64 + 2 * a2 * u * 2 ^ 32 + 3 * a3 * u * u) * v) (2 ^ 64 * dx)
    some (i, p + n * (if t.periodic then (camSpan t).2 else 0), cv)

/-- The master's motion from `a` to `b` crosses a BREAK point of the cycle (R317). -/
def camBreak (t : CamTab) (a b : Int) : Bool :=
  t.pts.any fun q => q.brk && ((decide (a < q.x) && decide (q.x ≤ b)) || (decide (q.x < a) && decide (b ≤ q.x)))

/-- What a clutch's step depends on. -/
structure ClIn where
  s : Nat := 0
  m : Int := 0
  vm : Int := 0
  /-- contribution of the master and its velocity (R309) -/
  c : Int := 0
  cv : Int := 0
  gear : Bool := true
  num : Int := 1
  den : Int := 1
  engMode : Nat := 0
  disMode : Nat := 0
  /-- N of R310; D in Q48.16 -/
  n : Nat := 1
  d : Int := 65536
  engPos : Int := 0
  disPos : Int := 0
  /-- c(ENG_POS), c(DIS_POS) -/
  cEng : Int := 0
  cDis : Int := 0
  deriving DecidableEq, Repr

/-- `m` crosses `p` between two sample instants (R310). -/
def crossed (prev m p : Int) : Bool := (decide (prev < p) && decide (p ≤ m)) || (decide (p < prev) && decide (m ≤ p))

/-- c(m_r): in GEAR mode formed with the ratio in force, in CAM mode as taken. -/
def conRef (i : ClIn) (k : Clutch) : Int := if i.gear then floorDiv (k.mr * i.num) i.den else k.cr

/-- ENGAGED values (R310). -/
def clEngaged (i : ClIn) (k : Clutch) : Clutch := { k with o := k.oh + i.c - conRef i k, ov := i.cv }

/-- A command taken at its sample instant (R310, R311); `k` holds o(s_c) and ov(s_c), so a ramp begins from them. DEDUCED: a crossing is looked for from the sample
instant after s_c (log 62). -/
def clTake (i : ClIn) (engage : Bool) (k : Clutch) : Clutch :=
  let k := { k with req := none, k := 0, m0 := i.m, od := k.o }
  if engage then
    match i.engMode with
    | 0 => clEngaged i { k with st := .engaged, mr := i.m, cr := i.c }
    | 1 => { k with st := .armed }
    | _ => { k with st := .engaging }
  else
    match i.disMode with
    | 0 => { k with st := .disengaged, oh := k.o, ov := 0 }
    | 1 => if k.st = .engaged then { k with st := .armedOff }
           else { k with st := .armedOff, oh := k.o, mr := i.m, cr := i.c, ov := i.cv }
    | _ => { k with st := .disengaging }

/-- Sign of an offset. -/
def sgn (x : Int) : Int := if x < 0 then -1 else if x = 0 then 0 else 1

/-- One sample instant of the clutch laws (R310). -/
def clLaw (i : ClIn) (k : Clutch) : Clutch :=
  match k.st with
  | .disengaged => { k with o := k.oh, ov := 0 }
  | .armed =>
    if crossed k.mPrev i.m i.engPos then clEngaged i { k with st := .engaged, mr := i.engPos, cr := i.cEng }
    else { k with o := k.oh, ov := 0 }
  | .engaged => clEngaged i k
  | .armedOff =>
    if crossed k.mPrev i.m i.disPos then
      let oh := k.oh + i.cDis - conRef i k
      { k with st := .disengaged, oh := oh, o := oh, ov := 0 }
    else clEngaged i k
  | .engaging =>
    if i.engMode = 2 || !i.gear then
      let n := k.k + 1
      let o := k.o + floorDiv ((i.c - k.cPrev) * n) i.n
      let k := { k with k := n, o := o, ov := floorDiv (i.cv * n) i.n }
      if i.n ≤ n then { k with st := .engaged, oh := o, mr := i.m, cr := i.c } else k
    else
      let dl := i.m - k.m0
      if i.d ≤ dl.natAbs then clEngaged i { k with st := .engaged, mr := k.m0 + floorDiv (sgn dl * i.d) 2, cr := 0 }
      else { k with o := k.oh + floorDiv (sgn dl * dl * dl * i.num) (2 * i.d * i.den)
                    ov := floorDiv (i.vm * dl.natAbs * i.num) (i.d * i.den) }
  | .disengaging =>
    if i.disMode = 2 || !i.gear then
      let n := k.k + 1
      let o := k.o + floorDiv ((i.c - k.cPrev) * ((i.n : Int) - n)) i.n
      let k := { k with k := n, o := o, ov := floorDiv (i.cv * ((i.n : Int) - n)) i.n }
      if i.n ≤ n then { k with st := .disengaged, oh := o, ov := 0 } else k
    else
      let dl := i.m - k.m0
      if i.d ≤ dl.natAbs then
        let oh := k.od + floorDiv (sgn dl * i.d * i.num) (2 * i.den)
        { k with st := .disengaged, oh := oh, o := oh, ov := 0 }
      else { k with o := k.od + floorDiv ((2 * i.d * dl - sgn dl * dl * dl) * i.num) (2 * i.d * i.den)
                    ov := floorDiv (i.vm * (i.d - dl.natAbs) * i.num) (i.d * i.den) }

/-- What takes effect before the law of a sample instant: ZERO (R312), a DISENGAGE registered in ARMED (R311). -/
def clBefore (i : ClIn) (k0 : Clutch) : Clutch :=
  let k := match k0.zero with
    | some t => if t < i.s then { k0 with zero := none, oh := 0 } else k0
    | none => k0
  match k.st, k.req with
  | .armed, some (t, false) => if t < i.s then { k with st := .disengaged, req := none } else k
  | _, _ => k

/-- One sample instant of a clutch (R310 to R312): the law of its state gives o(s), from which a command or a disable due goes on. -/
def clStep (i : ClIn) (k0 : Clutch) : Clutch :=
  let k := clLaw i (clBefore i k0)
  let k :=
    match k.down with
    | some t => if t < i.s then { k with down := none, st := .disengaged, oh := k.o, ov := 0, req := none, pending := false } else k
    | none => k
  let k :=
    match k.req with
    | some (t, e) => if t < i.s then clTake i e k else k
    | none => k
  let k := { k with mPrev := i.m, cPrev := i.c }
  if k.st = .disengaged && k.pending && k.req.isNone then { k with pending := false, req := some (i.s, true) } else k

/-- ENGAGE registered at `now` (R311). `cam` says that a CAM follower has no active bank. -/
def clEngage (now : Nat) (noBank : Bool) (k : Clutch) : Clutch :=
  if noBank then { k with refused := true }
  else
    match k.st with
    | .disengaged => if k.req.isSome then k else { k with req := some (now, true) }
    | .disengaging | .armedOff => { k with pending := true }
    | _ => { k with refused := true }

/-- DISENGAGE registered at `now` (R311). -/
def clDisengage (now : Nat) (k : Clutch) : Clutch :=
  match k.st with
  | .disengaged => { k with req := none }
  | .disengaging | .armedOff => { k with pending := false }
  | _ => { k with req := some (now, false) }

/-- ZERO (R312): accepted in DISENGAGED while the axis is disabled. -/
def clZero (now : Nat) (axisDisabled : Bool) (k : Clutch) : Clutch :=
  if k.st = .disengaged && axisDisabled then { k with zero := some now } else { k with refused := true }

/-- SEAL, UNSEAL and RESELECT of a cam (R315, R157 to R159). -/
def camSeal (k : Cam) : Cam := if k.shadow = .empty then { k with shadow := .fetching } else k

/-- The check of a cam bank is complete. -/
def camSealDone (now : Nat) (ok : Bool) (k : Cam) : Cam :=
  if k.shadow = .fetching then
    if ok then { k with shadow := .sealed, sealedAt := now } else { k with shadow := .empty, sealErr := true }
  else k

/-- UNSEAL of a cam. -/
def camUnseal (k : Cam) : Cam := if k.shadow = .sealed then { k with shadow := .empty } else k

/-- RESELECT of a cam. -/
def camReselect (now : Nat) (k : Cam) : Cam := if k.shadow = .sealed then { k with reselect := some now } else k

/-- The bank number a swap makes active (R152). DESIGN CHOICE: while no bank is active, bank 0 is the shadow (log 19). -/
def otherBank (a : Option Nat) : Nat :=
  match a with
  | none => 0
  | some b => 1 - b

/-- Directions that a compare counts (R320). -/
inductive CmpDir where
  | pos | neg | either
  deriving DecidableEq, Repr

/-- What a compare does on its land (R322). -/
inductive CmpOut where
  | pulse | toggle | set_
  deriving DecidableEq, Repr

/-- A compare behind its position at the ARM (R321). -/
def cmpBehind (d : CmpDir) (x c : Int) : Bool :=
  match d with
  | .pos => decide (c ≤ x)
  | .neg => decide (x ≤ c)
  | .either => decide (x = c)

/-- A crossing that the compare counts (R320): its direction. -/
def cmpCross (d : CmpDir) (a b c : Int) : Option Int :=
  if decide (a < c) && decide (c ≤ b) && decide (d ≠ .neg) then some 1
  else if decide (c < a) && decide (b ≤ c) && decide (d ≠ .pos) then some (-1)
  else none

/-- ARM (R321): reads POS, PITCH and COUNT; `x` is the present position. -/
def cmpArm (now : Nat) (d : CmpDir) (fireIfPassed : Bool) (x c pitch : Int) (count : Nat) (k : Cmp) : Cmp :=
  let b := cmpBehind d x c
  { k with armed := true, behind := b, c := c, pitch := pitch, count := count, fires := 0, last := x
           passed := if b && fireIfPassed then some now else none }

/-- The land action of a firing at tick `at_` (R322). -/
def cmpLand (o : CmpOut) (width at_ : Nat) (k : Cmp) : Cmp :=
  match o with
  | .pulse => { k with land := true, overlap := k.overlap || k.pulseEnd.isSome, pulseEnd := some (at_ + width * 1000) }
  | .toggle => { k with land := !k.land }
  | .set_ => { k with land := true }

/-- A firing in direction `dir` at position `x` with timestamp `ts` (R322), without its land action. -/
def cmpFire (dir x : Int) (ts : Nat) (k : Cmp) : Cmp :=
  let p : Int := k.pitch.natAbs
  let k1 := { k with ts := ts, passed := none, behind := false }
  if decide (p = 0) || (decide (k.count ≠ 0) && decide (k.count ≤ k.fires + 1)) then { k1 with fires := min 65535 (k.fires + 1), armed := false }
  else
    let ahead := if 0 < dir then x - k.c else k.c - x
    let n : Nat := max 1 (ahead / p + 1).toNat
    { k1 with fires := min 65535 (k.fires + n), multi := k.multi || decide (1 < n), c := k.c + (if 0 < dir then p else -p) * n }

/-- An armed compare sees the position `x` (R320). The flag says that it fired. -/
def cmpSee (d : CmpDir) (x : Int) (ts : Nat) (k : Cmp) : Cmp × Bool :=
  if k.armed then
    match cmpCross d k.last x k.c with
    | some dir => ({ cmpFire dir x ts k with last := x }, true)
    | none => ({ k with last := x }, false)
  else ({ k with last := x }, false)

/-- FIRE_IF_PASSED at a sample instant (R321). -/
def cmpPassed (d : CmpDir) (s : Nat) (k : Cmp) : Cmp × Bool :=
  match k.passed with
  | some t => if k.armed && decide (t < s) then (cmpFire (if d = .neg then -1 else 1) k.last s k, true) else (k, false)
  | none => (k, false)

/-- DISARM (R322). -/
def cmpDisarm (k : Cmp) : Cmp := { k with armed := false, passed := none }

/-- CLEAR (R322): the land returns to its inactive level. -/
def cmpClear (k : Cmp) : Cmp := { k with land := false, pulseEnd := none }

/-- The end of a compare pulse (R322). -/
def cmpPulseEnd (now : Nat) (k : Cmp) : Cmp :=
  match k.pulseEnd with
  | some t => if t ≤ now then { k with land := false, pulseEnd := none } else k
  | none => k

end Sys2Proof.Machine
end

