-- ==== Sys2Proof/Machine/Generator.lean ====
section
/-! DEFINITION. The profile generator (chapter 07, R246 to R268, R284 to R293): banks, the Hermite curve, stops, limits and homing, as functions of one generator. -/

namespace Sys2Proof.Machine

/-- A segment record read from its 32 bytes (R251). -/
def parseSeg (bs : List Byte) : PgSeg :=
  let f := leAt bs 4 4
  { dur := leAt bs 0 4, brk := bit f 0, fin := bit f 1
    p1 := BitVec.ofNat 64 (leAt bs 8 8), v1 := BitVec.ofNat 64 (leAt bs 16 8) }

/-- The check of a profile bank (R250, R255, R256, R260): its ERR_CODE, 0 when it is valid. -/
def profileErr (bs : List Byte) (bankUnits minDur : Nat) : Nat :=
  let n := leAt bs 0 4
  let crcAt := 32 + 32 * n
  let rec_ := fun i => slice bs (32 + 32 * i) 32
  let flags := leAt bs 8 4
  if n < 1 || bankUnits * 2048 - 2 < n then 1
  else if leAt bs crcAt 4 ≠ crc32 (slice bs 0 crcAt) then 2
  else if 2 ≤ flags || (slice bs 12 20).any (· ≠ 0)
      || (List.range n).any (fun i => 4 ≤ leAt (rec_ i) 4 4 || (slice (rec_ i) 24 8).any (· ≠ 0)) then 3
  else if (List.range n).any (fun i => decide (leAt (rec_ i) 0 4 < minDur)) then 4
  else if (List.range n).any (fun i => bit (leAt (rec_ i) 4 4) 1 && (decide (i + 1 ≠ n) || decide (leAt (rec_ i) 16 8 ≠ 0))) then 5
  else 0

/-- The curve of a record (R253): position and velocity at `u`, a fraction of 2^32. -/
def hermite (p0 v0 : Int) (sp1 v1 : Int) (d : Nat) (u : Int) : Int × Int :=
  let k : Int := 2 ^ 16 * 10 ^ 8
  let dv0 := floorDiv (v0 * d) k
  let dv1 := floorDiv (v1 * d) k
  let a2 := 3 * (sp1 - p0) - 2 * dv0 - dv1
  let a3 := 2 * (p0 - sp1) + dv0 + dv1
  (p0 + ((a3 * u + a2 * 2 ^ 32) * u + dv0 * 2 ^ 64) * u / 2 ^ 96,
   floorDiv (((3 * a3 * u + 2 * a2 * 2 ^ 32) * u + dv0 * 2 ^ 64) * k) (2 ^ 64 * d))

/-- The absolute end position of the record in use (R252). -/
def runP1 (r : PgRun) : DWord := r.seg.p1 + r.base

/-- Position and velocity of the record in use at its τ (R253), or its end continued: past the end of the move (R263), or past a boundary that a higher item of R305 has put off. -/
def runEval (r : PgRun) : DWord × DWord :=
  if r.past || decide (r.tau0 + r.seg.dur * 2 ^ 32 ≤ r.tau) then
    let t1 : Int := (r.tau : Int) - r.tau0 - r.seg.dur * 2 ^ 32
    (runP1 r + wrap64 (floorDiv (r.seg.v1.toInt * t1) (2 ^ 48 * 10 ^ 8)), r.seg.v1)
  else
    let u : Int := ((r.tau : Int) - r.tau0) / r.seg.dur
    let (p, v) := hermite r.p0.toInt r.v0.toInt (runP1 r).toInt r.seg.v1.toInt r.seg.dur u
    (wrap64 p, wrap64 v)

/-- The law of R266 towards a target velocity at `dt` ns after its start: position, velocity, and whether the target is reached. -/
def lawEval (l : Law) (s : Nat) : DWord × DWord × Bool :=
  let t : Int := (s : Int) - l.s0
  let a : Int := max 1 l.acc
  let v0 := l.v0.toInt
  let vt := l.vt.toInt
  let d : Int := (vt - v0).natAbs
  if d * 1000000000 ≤ a * 2 ^ 32 * t then
    let n := (v0 + vt) * d * 1000000000 + vt * (2 * a * 2 ^ 32 * t - 2 * d * 1000000000)
    (l.p0 + wrap64 (floorDiv n (2 * a * 2 ^ 32 * 1000000000 * 65536)), l.vt, true)
  else
    let n := v0 * 1000000000 + (if v0 ≤ vt then a else -a) * t * 2 ^ 32
    (l.p0 + wrap64 (floorDiv ((v0 * 1000000000 + n) * t) (2 * 10 ^ 18 * 65536)), wrap64 (floorDiv n 1000000000), false)

/-- What an advance of the segment clock met. -/
inductive MoveEv where
  | none | ended | starved | late
  deriving DecidableEq, Repr

/-- The next record of the active bank, if it is buffered (R254, R259). -/
def nextSeg (g : Gen) : Option Gen :=
  match g.bank.buf with
  | [] => none
  | x :: r =>
    let t1 := g.run.tau0 + g.run.seg.dur * 2 ^ 32
    some { g with bank := { g.bank with buf := r }
                  run := { g.run with tau0 := t1, p0 := runP1 g.run, v0 := g.run.seg.v1, seg := x, idx := g.run.idx + 1, past := false } }

/-- The swap of the banks at segment time `t1` from `p0` and `v0` (R152, R252, R261, R265). -/
def pgSwap (g : Gen) (t1 : Nat) (p0 v0 : DWord) : Gen :=
  { g with active := some (match g.active with | none => 0 | some b => 1 - b)
           bank := { g.shadowBank with buf := g.shadowBank.buf.drop 1 }, shadow := .empty
           swaps := satAdd 65535 g.swaps 1
           run := { g.run with tau0 := t1, p0 := p0, v0 := v0, seg := g.shadowBank.buf.headD {}, idx := 0, past := false
                               base := if g.shadowBank.rel then p0 else 0 } }

/-- The sealed shadow may be swapped in at sample instant `s` (R261, R262). In a member of a pleached group, `grp` says whether the group shadow was sealed before `s` and no member's is skipped (R262, R302). -/
def canSwap (g : Gen) (grp : Option Bool) (s : Nat) : Bool :=
  match grp with
  | some ok => ok && decide (g.shadow = .sealed)
  | none => decide (g.shadow = .sealed) && decide (g.sealedAt < s) && !(g.uncertain && !g.shadowBank.rel)

/-- A boundary meets a sealed REL-clear shadow while POSITION_UNCERTAIN is set (R262). -/
def absSkips (g : Gen) (s : Nat) : Bool :=
  decide (g.shadow = .sealed) && decide (g.sealedAt < s) && g.uncertain && !g.shadowBank.rel

/-- The record changes due at sample instant `s` (R254, R256, R261, R263). `allow` is false where a stop governs the instant (R272); `defer` puts a boundary, or a
record that is not buffered, off to the next sample instant (R305). -/
def moveOn : Nat → Nat → Bool → Bool → Option Bool → Gen → Gen × MoveEv
  | 0, _, _, _, _, g => (g, .none)
  | n + 1, s, allow, defer, grp, g =>
    let t1 := g.run.tau0 + g.run.seg.dur * 2 ^ 32
    if g.run.past || decide (g.run.tau < t1) then (g, .none)
    else
      let last := decide (g.run.idx + 1 = g.bank.count)
      if g.run.seg.fin && last then (g, .ended)
      else
        let bound := g.run.seg.brk || last
        if defer && (bound || g.bank.buf.isEmpty) then (g, .none)
        else
        let g := if bound && allow && absSkips g s then { g with fl := { g.fl with absSkipped := true } } else g
        if bound && allow && canSwap g grp s then
          moveOn n s allow defer grp (pgSwap g t1 (runP1 g.run) g.run.seg.v1)
        else if last then ({ g with run := { g.run with past := true } }, if allow then .starved else .none)
        else
          match nextSeg g with
          | some g' => moveOn n s allow defer grp g'
          | none => ({ g with run := { g.run with past := true } }, if allow then .late else .none)

/-- What a generator's step at a sample instant depends on beside its own state. -/
structure GenIn where
  s : Nat := 0
  /-- period in ticks; feed factor Q2.30 in force before `s` and at `s` -/
  per : Nat := 500
  feed : Nat := 2 ^ 30
  feedV : Nat := 2 ^ 30
  pulse : Bool := false
  /-- member of a pleached group: its group shadow was sealed before `s` (R302) -/
  grp : Option Bool := none
  /-- its group starves at `s` (R302), sets its members IDLE (R298), or is governed at `s` by a higher item of R305 -/
  starve : Bool := false
  rest : Bool := false
  defer : Bool := false
  /-- no limit stop in this state of the group (R303) -/
  noLimit : Bool := false
  /-- PG_FB_DECEL -/
  fbDec : Nat := 1
  /-- levels of the limit and home inputs, true when active -/
  limPos : Bool := false
  limNeg : Bool := false
  home : Bool := false
  /-- POS_SRC position when it is a channel -/
  chan : Option DWord := none
  /-- x_ref taken from a probe, when the home input is one (R289) -/
  probeRef : Option DWord := none
  mode : Nat := 0
  dirNeg : Bool := false
  revOnLim : Bool := false
  searchV : Nat := 0
  creepV : Nat := 0
  homeAcc : Nat := 1
  relDist : Nat := 0
  idxWin : Nat := 0
  homePos : DWord := 0
  deriving DecidableEq, Repr

/-- The advance of the segment clock by the feed factor of the period that ends at `s`, and the move at `s` with the factor in force there (R249, R253, R296, R297). -/
def genMove (i : GenIn) (allow : Bool) (g : Gen) : Gen × MoveEv :=
  let g := { g with run := { g.run with tau := g.run.tau + i.per * i.feed * 4 } }
  let (g, ev) := moveOn 3 i.s allow i.defer i.grp g
  if ev = .ended then ({ g with pos := runP1 g.run, vel := 0 }, ev)
  else
    let (p, v) := runEval g.run
    ({ g with pos := p, vel := wrap64 (floorDiv (v.toInt * i.feedV) (2 ^ 30)) }, ev)

/-- The generator becomes IDLE at its position (R256, R266). A pending START then acts as registered at this instant (R265). -/
def genIdle (s : Nat) (g : Gen) : Gen :=
  { g with st := .idle, vel := 0
           req := { g.req with stop := none, starve := false, startPending := false, start := if g.req.startPending then some s else g.req.start } }

/-- A ramped stop is registered: with one that waits already, the earlier tick and the larger deceleration hold (R266, R267). -/
def stopReq (now dec : Nat) (q : PgReq) : PgReq :=
  match q.stop with
  | some (t, d) => { q with stop := some (t, max d dec), starve := false }
  | none => { q with stop := some (now, dec), starve := false }

/-- A ramped stop begins, or goes on with the larger deceleration (R266, R267). -/
def genStop (s dec : Nat) (g : Gen) : Gen :=
  let dec := if g.st = .stopping then max dec g.law.acc else dec
  let g := { g with st := .stopping, law := { s0 := s, p0 := g.pos, v0 := g.vel, vt := 0, acc := dec }
                    req := { g.req with stop := none, starve := false } }
  if g.vel = 0 then genIdle s g else g

/-- The leg of a homing state with target velocity `vt` from the present values (R288). -/
def homeLeg (i : GenIn) (st : HomeSt) (vt : Int) (g : Gen) : Gen :=
  { g with law := { s0 := i.s, p0 := g.pos, v0 := g.vel, vt := wrap64 (vt * 2 ^ 32), acc := i.homeAcc }
           hm := { g.hm with st := st, seen := false } }

/-- Velocity of `v` counts/s towards DIR, or away from it. -/
def dirV (i : GenIn) (toward : Bool) (v : Nat) : Int := if i.dirNeg = toward then -(v : Int) else v

/-- Homing ends without a reference (R293): the result, and the stop of the axis type to come. -/
def homeFail (i : GenIn) (r : HomeRes) (g : Gen) : Gen :=
  { g with hm := { g.hm with st := .off, res := r }
           req := if i.pulse then g.req else stopReq i.s i.fbDec g.req }

/-- A reference registered at `s` with position `x` (R290). -/
def homeRef (s : Nat) (homePos x : DWord) (viaIndex : Bool) (g : Gen) : Gen :=
  { g with hm := { g.hm with ref := some (s, homePos - x, viaIndex) } }

/-- The POS_SRC position: the channel's, or the generator's (R283). -/
def posSrc (i : GenIn) (g : Gen) : DWord := i.chan.getD g.pos

/-- Limit latches at sample instant `s` (R284, R285): the generator, and whether each limit made an event. -/
def limitStep (i : GenIn) (arm : Bool) (g : Gen) : Gen × Bool × Bool :=
  let x := (posSrc i g).toInt
  let rel : Int := (i.relDist : Int) * 65536
  let evP := i.limPos && !g.hm.limPos
  let evN := i.limNeg && !g.hm.limNeg
  let clrP := g.hm.limPos && !i.limPos && decide (x ≤ g.hm.xPos.toInt - rel)
  let clrN := g.hm.limNeg && !i.limNeg && decide (g.hm.xNeg.toInt + rel ≤ x)
  ({ g with hm := { g.hm with limPos := (g.hm.limPos || i.limPos) && !clrP, xPos := if evP then wrap64 x else g.hm.xPos
                              limNeg := (g.hm.limNeg || i.limNeg) && !clrN, xNeg := if evN then wrap64 x else g.hm.xNeg } },
   evP && arm, evN && arm)

/-- INDEX is entered (R288, R289): its conditions hold from this sample instant on. -/
def homeIndex (i : GenIn) (g : Gen) : Gen :=
  let g' := homeLeg i .index (dirV i true i.creepV) g
  let g' := { g' with hm := { g'.hm with xEntry := posSrc i g } }
  if i.idxWin = 0 then homeFail i .noIndex g' else g'

/-- The homing conditions at a sample instant, after the leg was evaluated (R288). `pos` says that the positive limit made an event, `neg` the negative. -/
def homeStep (i : GenIn) (pos neg : Bool) (g : Gen) : Gen :=
  let anyLim := pos || neg
  let inDir := if i.dirNeg then neg else pos
  let g' := { g with hm := { g.hm with prev := i.home, seen := g.hm.seen || i.home } }
  match g.hm.st with
  | .off => g'
  | .settle =>
    if anyLim then homeFail i .limit g'
    else if g.vel = 0 then genIdle i.s { g' with hm := { g'.hm with st := .off, res := .done, homed := true }, uncertain := false } else g'
  | .search =>
    if i.home then homeLeg i .backoff (dirV i false i.creepV) g'
    else if inDir && i.revOnLim then homeLeg i .searchRev (dirV i false i.searchV) g'
    else if anyLim then homeFail i .limit g' else g'
  | .searchRev =>
    if anyLim then homeFail i .limitBoth g'
    else if g.hm.seen && !i.home then homeLeg i .creep (dirV i true i.creepV) g' else g'
  | .backoff =>
    if anyLim then homeFail i .limit g'
    else if !i.home then homeLeg i .creep (dirV i true i.creepV) g' else g'
  | .creep =>
    if anyLim then homeFail i .limit g'
    else if i.home && !g.hm.prev && g.hm.ref.isNone then
      if i.mode = 1 then homeIndex i g'
      else homeRef i.s i.homePos (i.probeRef.getD (posSrc i g)) false g'
    else g'
  | .index =>
    if anyLim then homeFail i .limit g'
    else if g.hm.ref.isNone && decide ((i.idxWin : Int) * 65536 ≤ ((posSrc i g).toInt - g.hm.xEntry.toInt).natAbs) then
      homeFail i .noIndex g'
    else g'

/-- The offset Δ of a reference takes effect (R290, R291): the position, the leg and the homing offset change by Δ. -/
def homeShift (i : GenIn) (d : DWord) (g : Gen) : Gen :=
  { g with pos := g.pos + d, law := { g.law with p0 := g.law.p0 + d }
           hm := { g.hm with ref := none, ofs := if i.chan.isNone then g.hm.ofs + d else g.hm.ofs } }

/-- The start of an accepted homing at sample instant `s` (R287); the conditions of SEARCH and INDEX are evaluated from it on (R288). -/
def homeBegin (i : GenIn) (g : Gen) : Gen :=
  let g := { g with st := .homing, hm := { g.hm with homed := false, res := .none, start := i.s, ref := none, prev := i.home, seen := i.home }
                    req := { g.req with home := none }
                    law := { s0 := i.s, p0 := g.pos, v0 := 0, vt := 0, acc := i.homeAcc } }
  if i.mode = 3 then homeRef i.s i.homePos (posSrc i g) false { g with hm := { g.hm with st := .creep } }
  else if i.mode = 2 then homeIndex i g
  else homeStep i false false (homeLeg i .search (dirV i true i.searchV) g)

/-- The offset of an index reference takes effect with its channel at `s` (R227, R290): the generator position, and a position it is to take, change by Δ, and
homing enters SETTLE. -/
def genIndexRef (s homeAcc : Nat) (g : Gen) : Gen :=
  match g.hm.ref with
  | some (_, d, true) =>
    let (p, v, _) := lawEval g.law s
    let on := decide (g.hm.st ≠ .off) && decide (g.st = .homing)
    { g with pos := g.pos + d, req := { g.req with toX := g.req.toX.map (· + d) }
             law := if on then { s0 := s, p0 := p + d, v0 := v, vt := 0, acc := homeAcc } else { g.law with p0 := g.law.p0 + d }
             hm := { g.hm with ref := none, st := if on then .settle else g.hm.st } }
  | _ => g

/-- What a generator's step asks of the rest of the tile. -/
structure GenOut where
  /-- a pulse-train axis stops at once (R270) -/
  imm : Bool := false
  /-- the POS_SRC channel takes Δ into its offset (R290) -/
  chan : Option DWord := none
  /-- the issued position changes by Δ (R291) -/
  issued : Option DWord := none
  /-- the condition of R286 holds in a member of a group (R303) -/
  limit : Bool := false
  deriving DecidableEq, Repr

/-- A registration strictly before `s`. -/
def before (s : Nat) (t : Option Nat) : Bool :=
  match t with
  | some r => decide (r < s)
  | none => false

/-- The values of R248 at the first sample instant after boot. -/
def genReady (i : GenIn) (g : Gen) : Gen := if g.ready then g else { g with ready := true, pos := i.chan.getD 0 }

/-- The motion of a generator at sample instant `s` without stop causes: state after it and what the move met. -/
def genGo (i : GenIn) (allow : Bool) (g : Gen) : Gen × MoveEv :=
  match g.st with
  | .idle => ({ g with vel := 0 }, .none)
  | .running => genMove i allow g
  | .stopping | .homing =>
    let (p, v, _) := lawEval g.law i.s
    ({ g with pos := p, vel := v }, .none)

/-- The position a generator gives for sample instant `s` with no new cause (R275). -/
def genPeek (i : GenIn) (g : Gen) : DWord := (genGo i (g.req.stop.isNone && g.req.down.isNone) g).1.pos

/-- Acting on a START registered before `s` in IDLE (R265). -/
def genBegin (s : Nat) (g : Gen) : Gen :=
  let g := { g with req := { g.req with start := none } }
  if canSwap g none s then { pgSwap g g.run.tau g.pos 0 with st := .running }
  else { g with fl := { g.fl with startRefused := true } }

/-- The reference offset due at `s`, applied (R290): the generator, whether one was due, and what it asks for; that of an index takes effect with its channel (`genIndexRef`). -/
def genRef (i : GenIn) (g : Gen) : Gen × Bool × GenOut :=
  match g.hm.ref with
  | some (t, d, via) =>
    if !via && decide (t < i.s) then
      (homeShift i d g, true, { chan := if i.chan.isNone then none else some d, issued := if i.chan.isNone then some d else none })
    else (g, false, {})
  | none => (g, false, {})

/-- An immediate stop has taken effect (R269): IDLE at the issued position. -/
def genHalt (x : DWord) (g : Gen) : Gen :=
  { g with pos := x, vel := 0, st := .idle
           req := { g.req with toX := none, stop := none, starve := false, start := none, startPending := false, home := none }
           hm := { g.hm with st := .off } }

/-- A disable or fault reaction of a servo axis (R268): IDLE at the position of this instant. -/
def genDown (i : GenIn) (g : Gen) : Gen :=
  let (g, _) := genGo i false g
  let (g, _, _) := limitStep i false g
  let g := genIdle i.s { g with req := { g.req with down := none, startPending := false, start := none, home := none } }
  { g with hm := homeEnd .fault g.hm }

/-- The velocity points towards a limit whose latch is set (R286). -/
def atLimit (g : Gen) : Bool := (g.hm.limPos && decide (0 < g.vel.toInt)) || (g.hm.limNeg && decide (g.vel.toInt < 0))

/-- A ramped stop registered before this instant (R266, R267). A limit stop of the same instant outranks a starvation (R272). -/
def genHalting (i : GenIn) (dec : Nat) (g : Gen) : Gen :=
  let run := decide (g.st = .running)
  let (g, ev) := genGo i false g
  let (g, _, _) := limitStep i false g
  let g := if run && g.req.starve && !i.noLimit && atLimit g then { g with fl := { g.fl with limitStop := true } } else g
  if g.st = .idle || ev = .ended then genIdle i.s g
  else genStop i.s dec { g with hm := { g.hm with st := .off } }

/-- The limit stop of a RUNNING generator (R286). -/
def genLimit (i : GenIn) (g : Gen) : Gen × GenOut :=
  let g := { g with fl := { g.fl with limitStop := true } }
  if i.pulse then (g, { imm := true }) else (genStop i.s i.fbDec g, {})

/-- The move of a RUNNING generator with its limits (R249 to R286): what it met, and whether it heads for a latched limit. -/
def genTravel (i : GenIn) (allow : Bool) (g : Gen) : Gen × MoveEv × Bool :=
  let (g, ev) := genGo i allow g
  let (g, _, _) := limitStep i true g
  (g, ev, atLimit g)

/-- One sample instant of a RUNNING generator (R254 to R263, R286). A limit stop outranks a swap and a starvation (R272). -/
def genRunning (i : GenIn) (g : Gen) : Gen × GenOut :=
  let (x, xe, xl) := genTravel i false g
  if xl && !i.noLimit && decide (xe ≠ .ended) then genLimit i x
  else
    let (g, ev, lim) := genTravel i true g
    let starves := if i.grp.isSome then i.starve else decide (ev = .starved) || decide (ev = .late)
    if ev = .ended || i.rest then (genIdle i.s g, { limit := lim })
    else if lim && !i.noLimit then genLimit i g
    else if starves then
      let g := { g with fl := { g.fl with starved := true, prefetchLate := g.fl.prefetchLate || decide (ev = .late) } }
      if i.pulse then (g, { imm := true, limit := lim })
      else ({ g with req := if g.req.stop.isSome then stopReq i.s i.fbDec g.req else { g.req with stop := some (i.s, i.fbDec), starve := true } }, { limit := lim })
    else (g, { limit := lim })

/-- One sample instant of a HOMING generator (R288 to R293). -/
def genHoming (i : GenIn) (shifted : Bool) (g : Gen) : Gen × Bool :=
  let on := decide (g.hm.st ≠ .off)
  let (g, _) := genGo i true g
  let (g, p, n) := limitStep i true g
  let g := if shifted && on then homeLeg i .settle 0 g else g
  let g := homeStep i p n g
  (g, i.pulse && on && decide (g.hm.st = .off) && decide (g.st = .homing))

/-- One sample instant of an IDLE generator (R265, R287): a HOME that waits sets it HOMING, and a START that waits beside it is refused. -/
def genIdling (i : GenIn) (g : Gen) : Gen :=
  let (g, _, _) := limitStep i false { g with vel := 0 }
  if before i.s g.req.home then
    let g := if before i.s g.req.start then { g with req := { g.req with start := none }, fl := { g.fl with startRefused := true } } else g
    homeBegin i g
  else if before i.s g.req.start then genBegin i.s g
  else g

/-- One sample instant of a generator that no stop governs. -/
def genOn (i : GenIn) (shifted : Bool) (o : GenOut) (g : Gen) : Gen × GenOut :=
  match g.st with
  | .idle => (genIdling i g, o)
  | .running =>
    let (g, r) := genRunning i g
    (g, { r with chan := o.chan, issued := o.issued })
  | .stopping =>
    let (g, _) := genGo i true g
    let (g, _, _) := limitStep i false g
    if (lawEval g.law i.s).2.2 then (genIdle i.s g, o) else (g, o)
  | .homing =>
    let (g, imm) := genHoming i shifted g
    (g, { o with imm := imm })

/-- One sample instant of a generator (R246 to R293, in the order of R272). A stop registered at this instant begins at the next (R266). -/
def genStep (i : GenIn) (g0 : Gen) : Gen × GenOut :=
  let (g, shifted, o) := genRef i (genReady i g0)
  match g.req.toX with
  | some x => ((limitStep i false (genHalt (match o.chan, o.issued with
      | some d, _ => x + d
      | none, some d => x + d
      | none, none => x) g)).1, o)
  | none =>
    if before i.s g.req.down then (genDown i g, o)
    else
      match g.req.stop with
      | some (t, dec) => if t < i.s then (genHalting i dec g, o) else genOn i shifted o g
      | none => genOn i shifted o g

/-- START (R265): `ok` says that the axis is enabled and nothing forbids the start. Whether the shadow is sealed in time is decided at the next sample instant. -/
def pgStart (now : Nat) (ok : Bool) (g : Gen) : Gen :=
  if g.st = .stopping && ok then { g with req := { g.req with startPending := true } }
  else if g.st = .idle && ok && (decide (g.shadow = .fetching) || decide (g.shadow = .sealed) && !(g.uncertain && !g.shadowBank.rel)) then
    { g with req := { g.req with start := some (g.req.start.getD now) } }
  else { g with fl := { g.fl with startRefused := true } }

/-- STOP of a servo axis (R267): a ramped stop with the deceleration `dec`; an abort of homing (R293). -/
def pgStop (now dec : Nat) (g : Gen) : Gen :=
  let g := { g with req := { g.req with startPending := false, start := none, home := none } }
  if g.st = .idle then g
  else
    { g with req := stopReq now dec g.req, fl := { g.fl with hostStop := true }
             hm := homeEnd .aborted g.hm }

/-- A ramped stop that a safety function commands (R517). -/
def pgSafeStop (now dec : Nat) (g : Gen) : Gen :=
  let g := { g with req := { g.req with startPending := false, start := none, home := none } }
  if g.st = .idle then g
  else { g with req := stopReq now dec g.req, fl := { g.fl with faultStop := true }
                hm := homeEnd .fault g.hm }

/-- HOME (R287): `ok` says that the axis is enabled and nothing forbids it. -/
def pgHome (now : Nat) (ok : Bool) (g : Gen) : Gen :=
  let g := { g with req := { g.req with startPending := false } }
  if g.st = .idle && ok then { g with req := { g.req with home := some (g.req.home.getD now) }, hm := { g.hm with homed := false } }
  else { g with hm := { g.hm with res := .refused } }

/-- SEAL (R260). -/
def pgSeal (g : Gen) : Gen := if g.shadow = .empty then { g with shadow := .fetching } else g

/-- The check of the bank and the load of its first 16 records are complete (R260). -/
def pgSealDone (now err : Nat) (b : PgBank) (g : Gen) : Gen :=
  if g.shadow = .fetching then
    if err = 0 then { g with shadow := .sealed, shadowBank := b, sealedAt := now }
    else { g with shadow := .empty, fl := { g.fl with sealErr := true, errCode := err } }
  else g

/-- UNSEAL (R264). -/
def pgUnseal (g : Gen) : Gen := if g.shadow = .sealed then { g with shadow := .empty } else g

/-- A homing timeout (R292): E has come and no reference was registered before it. -/
def homeTimeout (now homeTo fbDec : Nat) (pulse : Bool) (g : Gen) : Gen × Bool :=
  let due := decide (g.hm.st ≠ .off) && decide (g.hm.st ≠ .settle) && g.hm.ref.isNone && decide (g.st = .homing)
    && decide (g.hm.start + homeTo * 1000000 ≤ now)
  if due then
    ({ g with hm := { g.hm with st := .off, res := .timeout }
              req := if pulse then g.req else stopReq now fbDec g.req }, pulse)
  else (g, false)

end Sys2Proof.Machine
end

