-- ==== Sys2Proof/Machine/PulseGen.lean ====
section
/-! DEFINITION. The step generator of a pulse-train axis (chapter 07, R269 to R281), as functions of one axis. -/

namespace Sys2Proof.Machine

/-- Q of a level (R279). -/
def pulseQ (g : PulseCfg) (l : Nat) : Nat := g.q.getD l 1

/-- The largest magnitude of a velocity word (R276). -/
def pulseWmax (g : PulseCfg) (p : Pulse) : Int :=
  (min (pulseQ g p.level) (pulseQ g p.target) : Int) * 2 ^ 40 / (max 10 (2 * g.stepW) : Nat)

/-- The velocity word of a frame (R275, R276): the word, and whether it was clamped. `accA` is the accumulator at the apply instant. -/
def pulseWord (g : PulseCfg) (p : Pulse) (posNext ofs accA : DWord) (per : Nat) : Int × Bool :=
  let xt : DWord := (posNext - ofs) * 0x1000000
  let w := floorDiv (xt - accA).toInt per
  let m := pulseWmax g p
  (min (max w (-m)) m, decide (w < -m) || decide (m < w))

/-- The accumulator crosses a multiple of `m` when it moves from `a` by `w` (R273): it enters another interval [k m, (k + 1) m), so that X follows A whichever way A
comes to a multiple. -/
def crosses (a w m : Int) : Bool := decide (a / m ≠ (a + w) / m)

/-- RES follows a level without a pulse of its own: at the falling edge of the newest pulse held or active, else at once. -/
def resCarry (now : Nat) (res : Option Nat) (p : Pulse) : Pulse :=
  match res, p.held.getLast? with
  | none, _ => p
  | some l, some e => { p with held := p.held.dropLast ++ [{ e with res := some l }] }
  | some l, none => if p.step then { p with resNext := some l } else { p with res := l, resSince := now }

/-- A due pulse: it cancels a held pulse of the other sign, or is held (R277). DESIGN CHOICE: a change of RES that was to follow a cancelled pulse follows the pulse
before it (log 60). -/
def pulseDue (now : Nat) (q : Int) (res : Option Nat) (p : Pulse) : Pulse :=
  match p.held.getLast? with
  | some e =>
    if e.q * q < 0 then resCarry now (if res.isSome then res else e.res) { p with held := p.held.dropLast }
    else { p with held := p.held ++ [{ q := q, res := res }] }
  | none => { p with held := [{ q := q, res := res }] }

/-- One tick of the accumulator (R273, R280), once per tick. -/
def pulseAdvance (g : PulseCfg) (now : Nat) (p : Pulse) : Pulse :=
  if p.advAt = now then p
  else
    let a : Int := p.a.toNat
    let q := pulseQ g p.level
    let p1 := { p with a := p.a + wrap64 p.w, advAt := now }
    if crosses a p.w ((q : Int) * 2 ^ 40) then
      let full := decide (p.target ≠ p.level) && crosses a p.w (2 ^ 48)
      let res := if full then some p.target else none
      let p2 := pulseDue now (if 0 < p.w then q else -(q : Int)) res p1
      if full then { p2 with level := p.target } else p2
    else p1

/-- The end of the STEP high time (R277, R280). -/
def pulseFall (g : PulseCfg) (now : Nat) (p : Pulse) : Pulse :=
  if p.step && decide (p.stepSince + 10 * g.stepW ≤ now) then
    let p1 := { p with step := false, stepSince := now }
    match p.resNext with
    | some l => { p1 with res := l, resSince := now, resNext := none }
    | none => p1
  else p

/-- DIR changes for the next pulse to issue (R278), not while a pulse is active. -/
def pulseDir (now : Nat) (p : Pulse) : Pulse :=
  match p.held with
  | [] => p
  | e :: _ =>
    let neg := decide (e.q < 0)
    if !p.step && decide (p.dirNeg ≠ neg) then { p with dirNeg := neg, dirSince := now } else p

/-- The conditions of R277 for the oldest held pulse. -/
def pulseReady (g : PulseCfg) (now : Nat) (p : Pulse) : Bool :=
  !p.step && decide (p.stepSince + 10 * g.stepW ≤ now) && decide (p.dirSince + 10 * g.dirSetup ≤ now)
    && decide (p.resSince + 10 * g.resSetup ≤ now)

/-- HELD_MAX after the issue of a tick: a pulse issued at the tick at which it is due is never held (R277). -/
def heldCount (p : Pulse) : Pulse := { p with heldMax := max p.heldMax (min 255 p.held.length) }

/-- The issue of the oldest held pulse (R274, R277). -/
def pulseIssue (g : PulseCfg) (now : Nat) (p0 : Pulse) : Pulse :=
  let p := pulseDir now p0
  heldCount <| match p.held with
  | [] => p
  | e :: r =>
    if decide (p.dirNeg = decide (e.q < 0)) && pulseReady g now p then
      { p with held := r, step := true, stepSince := now, x := p.x + wrap64 e.q, resNext := e.res,
                recent := (now, p.x, p.x + wrap64 e.q) :: p.recent.filter fun r => decide (now ≤ r.1 + 8192) }
    else p

/-- X at a timestamp (R289): what the edges issued at or before it give. -/
def pulseXAt (ts : Nat) (p : Pulse) : DWord :=
  match p.recent.find? fun r => decide (r.1 ≤ ts) with
  | some r => r.2.2
  | none =>
    match p.recent.getLast? with
    | some r => r.2.1
    | none => p.x

/-- An immediate stop at the tick after its cause (R269). The flag says that the position becomes uncertain (R271) unless the generator was idle. -/
def pulseHalt (now : Nat) (p : Pulse) : Pulse × Bool :=
  match p.imm with
  | some t =>
    if t < now then ({ p with imm := none, w := 0, held := [], haltAt := now }, decide (p.w ≠ 0) || !p.held.isEmpty) else (p, false)
  | none => (p, false)

/-- The cause of an immediate stop, registered at `now`; an earlier one not yet in effect stands. -/
def pulseCause (now : Nat) (p : Pulse) : Pulse :=
  match p.imm with
  | some _ => p
  | none => { p with imm := some now }

end Sys2Proof.Machine
end

