-- ==== Sys2Proof/Machine/Quadrature.lean ====
section
/-! DEFINITION. Quadrature decoding, position, speed, index and probes (chapter 06, R215 to R234), as functions of one channel. -/

namespace Sys2Proof.Machine

/-- The parameters of a channel that these functions use (QD_ registers). -/
structure QdCfg where
  dirInv : Bool := false
  hyst : Bool := false
  idxGate : Bool := false
  idxA : Bool := false
  idxB : Bool := false
  zPol : Bool := true
  spdWin : Nat := 1000
  stillT : Nat := 0
  illThr : Nat := 8
  deriving DecidableEq, Repr

/-- Position of a channel, h × 2^16 + POS_OFS (R222). -/
def qdPos (q : Qd) (h : Int) : DWord := wrap64 (h * 2 ^ 16) + q.posOfs

/-- The place of a pair of levels in the Gray sequence 00, 10, 11, 01 (R215). -/
def grayPlace (a b : Bool) : Nat :=
  match a, b with
  | false, false => 0
  | true, false => 1
  | true, true => 2
  | false, true => 3

/-- The sign of the count of a change of one of A and B (R215). -/
def countSign (inv a b a' b' : Bool) : Int :=
  let up := decide ((grayPlace a b + 1) % 4 = grayPlace a' b')
  if up ≠ inv then 1 else -1

/-- Counts whose timestamps a probe or an index event may still compare with: those within 8,192 ns of the newest (FILT is at most 4,095 ns, R216). -/
def qdRecent (ts : Nat) (l : List QdRec) : List QdRec := l.filter fun r => decide (ts ≤ r.ts + 8192)

/-- Timestamps of the run that R229 can still use: those within the largest speed window of the newest, and the one before. -/
def qdRunKeep (ts : Nat) (l : List Nat) : List Nat :=
  let near := l.takeWhile fun t => decide (ts ≤ t + 65535000)
  if near.isEmpty then l.take 1 else near

/-- The changes of a land that are accepted and registered at tick `now`, in order, and those that wait; `lv` is the accepted level (R216, R217). A level that lasts
less than FILT is ignored. -/
def holdJudge (filt now : Nat) : Bool → List (Nat × Bool) → List (Nat × Bool) × List (Nat × Bool)
  | _, [] => ([], [])
  | lv, (t, l) :: r =>
    let short := match r with
      | (u, _) :: _ => decide (u < t + filt)
      | [] => false
    if decide (l = lv) || short then holdJudge filt now lv r
    else if t + filt + 10 ≤ now then
      let (d, w) := holdJudge filt now l r
      ((t, l) :: d, w)
    else ([], (t, l) :: r)

/-- `now` is the first tick at or after `ts` + FILT + 10 ns (R217). -/
def firstTick (filt ts now : Nat) : Bool := decide (ts + filt + 10 ≤ now) && decide (now < ts + filt + 20)

/-- The level that a change with timestamp `ts` ends was held for FILT (R216). -/
def heldFor (filt ts : Nat) (h : HoldIn) : Bool :=
  match h.acc with
  | some u => decide (u < ts) && decide (u + filt ≤ ts)
  | none => true

/-- No accepted change of a land has a timestamp above `ts`. -/
def notAfter (ts : Nat) (h : HoldIn) : Bool :=
  match h.acc with
  | some u => decide (u ≤ ts)
  | none => true

/-- The h that results from every count with a timestamp at or before `ts` (R225, R232). -/
def qdAtTs (q : Qd) (ts : Nat) : Int × Int :=
  match q.recent.find? fun r => decide (r.ts ≤ ts) with
  | some r => (r.raw, r.h)
  | none =>
    match q.recent.getLast? with
    | none => (q.raw, q.h)
    | some r => (r.raw0, r.h0)

/-- One count of sign `c` with timestamp `ts`, registered at tick `now` (R220, R221, R228, R230). -/
def qdCount (g : QdCfg) (now ts : Nat) (c : Int) (q : Qd) : Qd :=
  let isPos := !g.hyst || q.d == 0 || c == q.d
  let h := if isPos then q.h + c else q.h
  let ends := decide (q.runDir ≠ c)
  let run :=
    if !isPos then []
    else if ends || q.run.isEmpty then [ts]
    else ts :: qdRunKeep ts q.run
  let late := decide (ts ≤ q.idxTs) && q.idxSeen
  let dh := h - q.h
  let pend := match q.pend with
    | some (.index t u k ref) => some (.index t u (if ts ≤ u then k + dh else k) ref)
    | p => p
  let q1 := { q with raw := q.raw + c, h := h, d := c, run := run, runDir := if isPos then c else 0, lastReg := now
                     hPre := if q.lastReg = now then q.hPre else q.h
                     standstill := false, pend := pend
                     recent := { ts := ts, raw := q.raw + c, h := h, raw0 := q.raw, h0 := q.h } :: qdRecent ts q.recent }
  if late then { q1 with idxPos := q.idxPos + wrap64 (dh * 2 ^ 16), idxH := q.idxH + dh } else q1

/-- An illegal transition (R219, R234): only the counters move; ILLEGAL is set at the threshold. -/
def qdIllegal (g : QdCfg) (q : Qd) : Qd :=
  let n := satAdd 255 q.flt.illLeaky 1
  { q with flt := { q.flt with illTotal := satAdd 65535 q.flt.illTotal 1, illLeaky := n
                               illegal := q.flt.illegal || decide (g.illThr ≤ n) } }

/-- An accepted change of A, of B, or of both at one timestamp, to the levels `a'` and `b'` (R215, R217, R219). -/
def qdChange (g : QdCfg) (now ts : Nat) (a' b' : Bool) (q : Qd) : Qd :=
  let q1 :=
    if q.a = a' && q.b = b' then q
    else if q.a ≠ a' && q.b ≠ b' then qdIllegal g q
    else qdCount g now ts (countSign g.dirInv q.a q.b a' b') q
  { q1 with a := a', b := b' }

/-- The speed of R229 at sample instant `s`, Q32.32. -/
def qdSpeed (g : QdCfg) (s : Nat) (q : Qd) : DWord :=
  match q.run with
  | tn :: t1 :: rest =>
    let inWin := (t1 :: rest).takeWhile fun t => decide (tn ≤ t + g.spdWin)
    let tj := inWin.getLast?.getD t1
    let k : Int := max 1 inWin.length
    let dt : Int := max 1 ((tn : Int) - tj)
    let da : Int := max 1 ((s : Int) - tn)
    -- the smaller of k·10^9/dt and 10^9/da, exact
    let n : Int := if k * da ≤ dt then k * 1000000000 else 1000000000
    let m : Int := if k * da ≤ dt then dt else da
    wrap64 (floorDiv (q.runDir * n * 2 ^ 32) m)
  | _ => 0

/-- Standstill at tick `now` (R230): STILL_T has passed with no count. -/
def qdStandstill (g : QdCfg) (now : Nat) (q : Qd) : Qd :=
  if !q.standstill && decide (q.lastReg + g.stillT ≤ now) then { q with standstill := true, run := [], runDir := 0 } else q

/-- A decrease of ILL_LEAKY at tick `now`, once per tick (R234). -/
def qdLeak (now : Nat) (q : Qd) : Qd :=
  if q.flt.leakAt = now then q
  else { q with flt := { q.flt with illLeaky := q.flt.illLeaky - 1, leakAt := now } }

/-- The offset change that waits, taken at tick `s` with the counts as they stand (R223, R227, R221). -/
def qdTakePend (s : Nat) (q : Qd) : Qd :=
  match q.pend with
  | some (.setPos t ref) => if t < s then { q with posOfs := ref - wrap64 (q.h * 2 ^ 16), d := 0, pend := none } else q
  | some (.index t _ h ref) => if t < s then { q with posOfs := ref - wrap64 (h * 2 ^ 16), pend := none } else q
  | none => q

/-- The latching of a channel at sample instant `s` (R217, R222, R223, R229). -/
def qdSample (g : QdCfg) (s : Nat) (q : Qd) : Qd :=
  let q := qdTakePend s (qdStandstill g s q)
  let p := qdPos q q.h
  let v := qdSpeed g s q
  { q with posL := p, spdL := v, hL := q.h, rawL := wrap64 (q.raw * 2 ^ 16), posSrc := p, spdSrc := v }

/-- An accepted change of Z with timestamp `ts` to level `z'`, registered at tick `now` (R225, R227). The flag says that it was an index event. -/
def qdIndex (g : QdCfg) (now ts : Nat) (z' : Bool) (q : Qd) : Qd × Bool :=
  let q := { q with z := z' }
  let ok := decide (z' = g.zPol) && (!g.idxGate || (decide (q.a = g.idxA) && decide (q.b = g.idxB)))
  if ok then
    let (_, h) := qdAtTs q ts
    let q1 := { q with idxSeen := true, idxTs := ts, idxPos := qdPos q h, idxH := h }
    match q.armed with
    | some (t, ref) =>
      if t < now then ({ q1 with armed := none, pend := some (.index now ts h ref) }, true) else (q1, true)
    | none => (q1, true)
  else (q, false)

/-- SET_POS registered at tick `now` (R223): it cancels an armed or taken index reference and any earlier SET_POS. -/
def qdSetPos (now : Nat) (ref : DWord) (q : Qd) : Qd := { q with pend := some (.setPos now ref), armed := none }

/-- IDX_ARM registered at tick `now` (R227). -/
def qdIdxArm (now : Nat) (ref : DWord) (q : Qd) : Qd := { q with armed := some (now, ref) }

/-- IDX_DISARM (R227). -/
def qdIdxDisarm (q : Qd) : Qd := { q with armed := none }

/-- The clearing of QD_FAULT bits written as 1 (R239). -/
def qdFaultClear (g : QdCfg) (m : Nat) (q : Qd) : Qd :=
  let f := q.flt
  { q with flt := { f with illegal := f.illegal && !(bit m 1 && decide (f.illLeaky < g.illThr))
                           rx := f.rx && !(bit m 2 && !f.rxLevel)
                           freeze := f.freeze && !bit m 3 } }

/-- One tick of the nQRF filter (R235): `active` is whether the land is at its active level. -/
def qdRxTick (filt : Nat) (en active : Bool) (q : Qd) : Qd :=
  let n := if active then q.flt.rxRun + 1 else 0
  let lvl := active && (q.flt.rxLevel || decide (max filt 1 ≤ n))
  { q with flt := { q.flt with rxRun := min n 255, rxLevel := lvl, rx := q.flt.rx || (en && lvl) } }

/-- A recorded probe edge (R232, R233). -/
def prbEdge (q : Qd) (ts : Nat) (rising : Bool) (p : Prb) : Prb :=
  if p.fifo.length < 16 then
    let (raw, h) := qdAtTs q ts
    { p with fifo := p.fifo ++ [{ ts := ts, pos := qdPos q h, raw := raw, rising := rising }] }
  else { p with lost := satAdd 255 p.lost 1, ovf := true }

/-- A count whose timestamp is not later than an entry's belongs to it (R232). -/
def prbLateCount (ts : Nat) (dRaw dh : Int) (p : Prb) : Prb :=
  { p with fifo := p.fifo.map fun e =>
      if ts ≤ e.ts then { e with raw := e.raw + dRaw, pos := e.pos + wrap64 (dh * 2 ^ 16) } else e }

/-- POP (R233). -/
def prbPop (p : Prb) : Prb := { p with fifo := p.fifo.drop 1 }

/-- FLUSH (R233). -/
def prbFlush (p : Prb) : Prb := { p with fifo := [], lost := 0 }

/-- One step of the freeze prediction (R236) at sample instant `s`. `quiet` is the condition that restarts it; `tn` is Q1.31, `per` the period in ns. -/
def qdFreeze (quiet : Bool) (s : Nat) (tn ka per frzT cnt : Int) (q : Qd) : Qd :=
  if quiet then { q with frz := { vp := q.spdL.toInt, xp := 0, t0 := s, hPrev := q.hL } }
  else
    let vp := q.frz.vp + floorDiv (tn * ka * per * 2) 1000000000
    let xp := q.frz.xp + floorDiv (vp * per) (1000000000 * 65536)
    let hit := decide (frzT ≤ (s : Int) - q.frz.t0) && decide (cnt * 65536 ≤ xp.natAbs)
    { q with frz := { q.frz with vp := vp, xp := xp, hPrev := q.hL }
             flt := { q.flt with freeze := q.flt.freeze || hit } }

/-- The substitute position of a channel on fallback (R240). -/
def qdFbPos (q : Qd) (pf : DWord) (num den : Int) : DWord :=
  wrap64 (q.fb.posLast.toInt + floorDiv ((pf.toInt - q.fb.posF0.toInt) * num) den)

/-- The substitute speed of a channel on fallback (R240). -/
def qdFbSpd (sf : DWord) (num den : Int) : DWord := wrap64 (floorDiv (sf.toInt * num) den)

end Sys2Proof.Machine
end

