-- ==== Sys2Proof/Machine/Axis.lean ====
section
/-! DEFINITION. Enabling and disabling of the axis types (R14 to R16, R199 to R202, R281, R325 to R328), motion commands and clutch commands, as operations on the block. -/

namespace Sys2Proof.Machine

/-! ### What every axis type shares -/

/-- Conditions other than type and permissive that refuse an enable (R15, R82, R97, R160, R239, R356, R596). -/
def enableBarred (b : Block) (t j : Nat) : Bool :=
  safetyStops b t j || commitBars b t j || noTable b t j || qdFaulted b t j || srcBars b t j || supplyBars b t || testBars b t j || b.sf.fault || b.sf.unverified

/-- The enable of an axis takes effect: every context of it is at frame k = 0 of its ramp (R141). -/
def rampsArm (t j : Nat) (b : Block) : Block :=
  forL (ctxsOf b t j) (fun c => fun x => x.ctxUpd t c fun k => { k with rampArmed := true, ramping := false }) b

/-- A disable or fault reaction of the axis has completed: fallback ends (R245), grace mode ends with FLT set (R534). -/
def axisDone (now t j : Nat) (b : Block) : Block :=
  let b := forL (chansOf b t j) (fun k => fun x =>
    x.qdUpd t k fun q => { q with fb := { q.fb with on := false, due := none }, posSrc := q.posL, spdSrc := q.spdL }) b
  let b := b.sfAxUpd (axNo t j) fun a => { a with react := none, stop := none, graceReg := none }
  let a := b.sfAxAt (axNo t j)
  match a.grace with
  | some (_, cause) =>
    logEvent now 0x0014 0 (axNo t j * 256)
      (b.sfAxUpd (axNo t j) fun a => { a with grace := none, graceExp := none, flt := true, cause := if a.flt then a.cause else cause })
  | none => b

/-! ### Native axes -/

/-- A trip bit of AX_TRIP is set. -/
def tripped (a : NatAx) : Bool := a.trips.df || a.trips.oc || a.trips.sum || a.trips.sdStuck

/-- A native enable or ALIGN is refused (R200). -/
def natRefused (b : Block) (t j : Nat) : Bool :=
  let s := b.sfAxAt (axNo t j)
  !isNative b t j || !s.permit || tripped (b.natAt t j) || enableBarred b t j || s.stoDue || s.btDue || s.stoTest.isSome

/-- ENABLE (`align` false) or ALIGN of a native axis registered at `now` (R14, R15, R200, R202). -/
def natEnable (now t j : Nat) (align : Bool) (b : Block) : Block :=
  let a := b.natAt t j
  let refuse := b.natUpd t j fun a => { a with enRefused := true }
  match a.st with
  | .disabled =>
    if a.wait.isSome then b
    else if natRefused b t j then refuse
    else b.natUpd t j fun a => { a with wait := some (now, align) }
  | .precharge | .enabled => if align then refuse else b
  | .disabling =>
    if safetyStops b t j then refuse
    else if a.enPending then b
    else b.natUpd t j fun a => { a with enPending := true, pendAlign := align }
  | .aligning | .faultHold | .sto => refuse

/-- A brake is assigned to the axis (R522). -/
def hasBrake (b : Block) (t j : Nat) : Bool := Fld.SF_AX_CFG_BRK_EN b.cfg (axNo t j)

/-- A brake test ends with a result; the q reference goes back to the value held at e1 (R526 to R528). -/
def btEnd (t j result : Nat) (b : Block) : Block :=
  let x := (b.sfAxAt (axNo t j)).bt
  match x.st with
  | .idle => b
  | .requested => b.sfAxUpd (axNo t j) fun a => { a with bt := { a.bt with st := .idle, result := result } }
  | _ =>
    (b.sfAxUpd (axNo t j) fun a => { a with bt := { a.bt with st := .idle, result := result } }).natUpd t j
      fun a => { a with hold := a.hold.map fun h => (h.1, x.qh) }

/-- A stop that the safety engine commanded is in progress: a disable is a lower cause and changes nothing (R529). -/
def stopRuns (b : Block) (t j : Nat) : Bool := (b.sfAxAt (axNo t j)).stop.isSome

/-- A disable of a native axis begins with or without the brake path (R201). The loops of an axis that was ALIGNING run on as they did. -/
def natDown (now t j : Nat) (brake : Bool) (b : Block) : Block :=
  motionDown now t j
    ((btEnd t j 4 (b.natUpd t j fun a => { a with fromAlign := a.fromAlign || decide (a.st = .aligning), st := .disabling, disAt := now, brakeWait := brake, brakeEnd := none })).sfAxUpd (axNo t j)
      fun s => { s with relReq := false, brkReq := if brake then some now else s.brkReq })

/-- DISABLE of a native axis (R14, R200, R201). -/
def natDisable (now t j : Nat) (b : Block) : Block :=
  match (b.natAt t j).st with
  | .disabled => b.natUpd t j fun a => { a with wait := none }
  | .precharge | .enabled | .aligning => if stopRuns b t j then b else natDown now t j (Fld.AX_PWM_CFG_DIS_MODE b.cfg t j && hasBrake b t j) b
  | .disabling => b.natUpd t j fun a => { a with enPending := false }
  | .faultHold | .sto => b

/-- Update points of a native axis in units of 250 ps: the one in the tick that ends at `now`, if any (R183): its time and the sample instant it belongs to. -/
def updatePointAt (b : Block) (now t j : Nat) : Option (Int × Int) :=
  let p : Int := 10 * grpPeriod b t (curGroup b t j)
  if p = 0 then none
  else
    let ph : Int := 10 * Fld.TL_TILE_PHASE_PHASE b.cfg t
    let lead : Int := Fld.AX_PWM_LEAD_LEAD b.cfg t j
    -- the last sample instant s with 4 s − LEAD ≤ 4 now
    let s := (4 * (now : Int) + lead - 4 * ph) / (4 * p) * p + ph
    let u := 4 * s - lead
    if 4 * (now : Int) - 40 < u then some (u, s) else none

/-- The update point before sample instant `s` is a carrier valley (R183). -/
def isValley (b : Block) (t j : Nat) (s : Int) : Bool :=
  let p : Int := 10 * grpPeriod b t (curGroup b t j)
  !Fld.AX_PWM_CFG_UPDATE b.cfg t j || decide ((s - 10 * Fld.TL_TILE_PHASE_PHASE b.cfg t) % (2 * p) = 0)

/-- Half a carrier period in units of 250 ps (R183, R184). -/
def halfTc (b : Block) (t j : Nat) : Nat :=
  let p := grpPeriod b t (curGroup b t j)
  if Fld.AX_PWM_CFG_UPDATE b.cfg t j then 40 * p else 20 * p

/-- The end of precharge at the carrier valley at `u` (R200 step 3). -/
def natPrecharge (t j : Nat) (u s : Int) (b : Block) : Block :=
  let a := b.natAt t j
  if decide (a.pwm = .lowOn) && (decide (a.st = .precharge) || decide (a.st = .aligning)) && isValley b t j s
      && decide (4 * ((a.te : Int) + 1000 * Fld.AX_PWM_MIN_PRE_T b.cfg t j) ≤ u) then
    let b := b.natUpd t j fun a => { a with pwm := .switching, st := if a.st = .precharge then .enabled else a.st, meas := { a.meas with hPrev := [0, 0, 0] } }
    if a.st = .precharge then b.sfAxUpd (axNo t j) fun x => { x with relReq := true } else b
  else b

/-- Gate-enable is asserted and precharge starts (R200 steps 1 and 2), at the sample instant t_e = `now`; precharge ends at once at a valley at t_e when PRE_T is 0. -/
def natGate (now t j : Nat) (b : Block) : Block :=
  match (b.natAt t j).wait with
  | some (r, align) =>
    if decide (r < now) && isSample b now t (curGroup b t j) then
      let b := rampsArm t j (b.natUpd t j fun a =>
        { a with wait := none, te := now, gate := true, pwm := .lowOn, st := if align then .aligning else .precharge
                 hold := none, fromAlign := false, aligned := a.aligned && !align })
      match updatePointAt b now t j with
      | some (u, s) => natPrecharge t j u s b
      | none => b
    else b
  | none => b

/-- The end of a disable at an update point at `u` (R201); the pending enable is then acted on (R14). -/
def natDisabled (now t j : Nat) (u : Int) (b : Block) : Block :=
  let a := b.natAt t j
  if decide (a.st = .disabling) && !a.brakeWait && a.brakeEnd.isNone && decide (4 * (a.disAt : Int) < u) then
    let b := axisDone now t j (b.natUpd t j fun a =>
      { a with st := .disabled, gate := false, pwm := .off, hold := none, fromAlign := false, enPending := false })
    if a.enPending then natEnable now t j a.pendAlign b else b
  else b

/-- Compare values, dead time and minimum pulse taken at an update point at `u`; EDGE_COARSE clears after a calibration (R187, R190). -/
def natTake (now t j : Nat) (u : Int) (b : Block) : Block :=
  b.natUpd t j fun a =>
    let m := a.meas
    { a with meas := { m with duty := if 4 * (m.loadedAt : Int) < u then m.loaded else m.duty, hPrev := m.duty.map fun d => halfOn d (halfTc b t j) m.minPulse
                              dt := Fld.AX_PWM_CFG_DT b.cfg t j, minPulse := Fld.AX_PWM_MIN_MIN_PULSE b.cfg t j }
             edgeCoarse := a.edgeCoarse && decide (a.lastCal + 1000000 ≤ now) }

/-- Everything due at the update point of the tick that ends at `now`. -/
def natUpdatePoint (now t j : Nat) (b : Block) : Block :=
  match updatePointAt b now t j with
  | some (u, s) => natDisabled now t j u (natPrecharge t j u s (natTake now t j u b))
  | none => b

/-- The brake hold of a disable ends (R201): the axis goes on as with DIS_MODE 0. -/
def natBrakeEnd (now t j : Nat) (b : Block) : Block :=
  b.natUpd t j fun a =>
    match a.brakeEnd with
    | some e => if e ≤ now && decide (a.st = .disabling) then { a with brakeEnd := none, disAt := now } else a
    | none => a

/-- ALIGN_T ends (R202 steps 3 and 4). DESIGN CHOICE: ALIGN_T is counted from t_e (log 55). -/
def natAlignEnd (now t j : Nat) (b : Block) : Block :=
  let a := b.natAt t j
  if decide (a.st = .aligning) && decide (a.te + Fld.AX_ALIGN_T_ALIGN_T b.cfg t j * 1000000 ≤ now) then
    let raw : Word := BitVec.ofInt 32 (elecAngle (b.qdAt t (Fld.AX_COMM_QCH b.cfg t j)).rawL.toInt (Fld.AX_COMM_POLE_PAIRS b.cfg t j) (Fld.AX_COMM_CPR_CPR b.cfg t j))
    natDown now t j false (b.natUpd t j fun a => { a with alignRes := -raw, aligned := true })
  else b

/-- A power-stage trip (R203): the stage goes off, the cause is latched and signalled. -/
def stageTrip (now t j : Nat) (f : Trips → Trips) (b : Block) : Block :=
  acqEvent now t 13 <| axFault now 1 t j (b.natUpd t j fun a => { a with trips := f a.trips, pwm := .off, gate := false })

/-- One edge calibration (R189). -/
def natCalibrate (now t j : Nat) (b : Block) : Block := b.natUpd t j fun a => { a with lastCal := now }

/-- 1 ms without a calibration (R190): EDGE_COARSE, the log entry and the replacement cause (R586). -/
def natCoarse (now t j : Nat) (b : Block) : Block :=
  let a := b.natAt t j
  if isNative b t j && !a.edgeCoarse && decide (a.lastCal + 1000000 ≤ now) then
    let n := tabGet 0 b.hl.edges t + 1
    let b := logEvent now 0x0036 (dieTile t) (t * 256 + j)
      { b.natUpd t j (fun a => { a with edgeCoarse := true }) with hl := { b.hl with edges := tabSet 0 b.hl.edges t n } }
    if 3 ≤ n then setReplace now 128 b else b
  else b

/-! ### Pulse-train axes; `j` is the slot, 4 to 7 -/

/-- ENABLE of a pulse-train axis (R14, R15, R281). -/
def pulseEnable (now t j : Nat) (b : Block) : Block :=
  let p := b.pulseAt t (j - 4)
  let refuse := b.pulseUpd t (j - 4) fun p => { p with enRefused := true }
  match p.st with
  | .disabled =>
    if p.wait.isSome then b
    else if decide (slotTy b t j ≠ .pulse) || enableBarred b t j then refuse
    else b.pulseUpd t (j - 4) fun p => { p with wait := some now }
  | .enabled => b
  | .disabling =>
    if safetyStops b t j then refuse else b.pulseUpd t (j - 4) fun p => { p with enPending := true }

/-- DISABLE of a pulse-train axis (R281). -/
def pulseDisable (now t j : Nat) (b : Block) : Block :=
  match (b.pulseAt t (j - 4)).st with
  | .disabled => b.pulseUpd t (j - 4) fun p => { p with wait := none }
  | .enabled =>
    let b := homingFault t j b
    let b := b.followUpd t j fun f => { f with cl := { f.cl with down := firstOf f.cl.down now, pending := false } }
    immStop now t j (b.pulseUpd t (j - 4) fun p => { p with st := .disabling, disAt := now })
  | .disabling => b.pulseUpd t (j - 4) fun p => { p with enPending := false }

/-- Enables and disables of a pulse-train axis at a sample instant of its group (R281). -/
def pulseState (now t j : Nat) (b : Block) : Block :=
  let p := b.pulseAt t (j - 4)
  match p.st with
  | .disabled =>
    match p.wait with
    | some r =>
      if r < now then rampsArm t j (b.pulseUpd t (j - 4) fun p => { p with st := .enabled, wait := none }) else b
    | none => b
  | .disabling =>
    if p.disAt < now then
      let b := axisDone now t j (b.pulseUpd t (j - 4) fun p => { p with st := .disabled, enPending := false })
      if p.enPending then pulseEnable now t j b else b
    else b
  | .enabled => b

/-- The immediate stop due at `now` (R269, R271). -/
def pulseHaltAt (now t j : Nat) (b : Block) : Block :=
  let (p, moved) := pulseHalt now (b.pulseAt t (j - 4))
  let was := b.pulseAt t (j - 4)
  if was.imm.isSome && p.imm.isNone then
    let g := b.genAt t j
    let unc := moved || decide (g.st ≠ .idle)
    (b.pulseUpd t (j - 4) fun _ => p).genUpd t j fun g =>
      { g with req := { g.req with toX := some (wrap64 (p.x.toInt * 65536)) }, uncertain := g.uncertain || unc
               hm := if unc then { g.hm with homed := false } else g.hm }
  else b

/-! ### Networked axes; `j` is the slot, 8 to 15 -/

/-- The feedback source of the slot is lost (R430). -/
def nxLost (b : Block) (t j : Nat) : Bool := (b.blnxAt (8 * t + (j - 8))).lost

/-- ENABLE of a networked axis (R14, R15, R325). -/
def nxEnableOp (now t j : Nat) (b : Block) : Block :=
  let n := b.nxAt t (j - 8)
  let refuse := b.nxUpd t (j - 8) fun n => { n with enRefused := true }
  match n.st with
  | .disabled =>
    if decide (slotTy b t j ≠ .networked) || enableBarred b t j || !n.pReady || nxLost b t j
        || decide (Fld.BL_NX_BIND_BIND_DN b.cfg (8 * t + (j - 8)) = 0xFF) then refuse
    else b.nxUpd t (j - 8) fun n => { n with st := .enabling, since := now }
  | .enabling | .enabled => b
  | .disabling =>
    if safetyStops b t j then refuse else b.nxUpd t (j - 8) fun n => { n with enPending := true }
  | .faultStop => refuse

/-- DISABLE of a networked axis (R326). -/
def nxDisableOp (now t j : Nat) (b : Block) : Block :=
  match (b.nxAt t (j - 8)).st with
  | .enabling | .enabled =>
    if stopRuns b t j then b else motionDown now t j ((b.nxUpd t (j - 8) fun n => { n with st := .disabling, since := now }).sfAxUpd (axNo t j)
      fun s => { s with relReq := false })
  | .disabling => b.nxUpd t (j - 8) fun n => { n with enPending := false }
  | .disabled | .faultStop => b

/-- A disable or fault reaction of a networked axis completes (R326, R327). -/
def nxDone (now t j : Nat) (timeout : Bool) (b : Block) : Block :=
  let n := b.nxAt t (j - 8)
  let b := axisDone now t j (b.nxUpd t (j - 8) fun n =>
    { n with st := .disabled, enPending := false, offTimeout := n.offTimeout || timeout })
  if n.enPending && decide (n.st = .disabling) then nxEnableOp now t j b else b

/-- The latching of a networked slot at sample instant `now` and what its state does there (R323 to R327). -/
def nxSample (now t j : Nat) (b : Block) : Block :=
  let n := b.nxAt t (j - 8)
  let p := if Fld.GR_NX_CFG_FB_EXTRAP b.cfg t (j - 8) then
      n.fb.pos + wrap64 (floorDiv (n.fb.vel.toInt * ((now : Int) - n.fb.t)) (65536 * 1000000000))
    else n.fb.pos
  let b := b.nxUpd t (j - 8) fun n =>
    { n with posL := p, spdL := n.fb.vel, pReady := n.fb.ready, pEnabled := n.fb.enabled, pFault := n.fb.fault, age := BitVec.ofNat 32 (min (2 ^ 32 - 1) (now - n.fb.t)) }
  let b :=
    match n.st with
    | .enabling =>
      if n.fb.enabled && decide (n.since < now) && decide (now < n.since + Fld.GR_NX_CFG_EN_TO b.cfg t (j - 8) * 1000000) then
        rampsArm t j ((b.nxUpd t (j - 8) fun n => { n with st := .enabled }).sfAxUpd (axNo t j) fun s => { s with relReq := true })
      else b
    | .disabling | .faultStop => if !n.fb.enabled && decide (n.since < now) then nxDone now t j false b else b
    | _ => b
  if n.fb.fault then axFault now 1 t j b else b

/-- EN_TO passes (R325). -/
def nxEnExpire (now t j : Nat) (b : Block) : Block :=
  let n := b.nxAt t (j - 8)
  if decide (n.st = .enabling) && decide (n.since + Fld.GR_NX_CFG_EN_TO b.cfg t (j - 8) * 1000000 ≤ now) then
    b.nxUpd t (j - 8) fun n => { n with st := .disabled, enTimeout := true }
  else b

/-- OFF_TO passes (R326). -/
def nxOffExpire (now t j : Nat) (b : Block) : Block :=
  let n := b.nxAt t (j - 8)
  if (decide (n.st = .disabling) || decide (n.st = .faultStop))
      && decide (n.since + Fld.GR_NX_CFG_OFF_TO b.cfg t (j - 8) * 1000000 ≤ now) then nxDone now t j true b
  else b

/-! ### Motion commands -/

/-- A command of a pleached group, registered at `now` (R298). -/
def plgCommand (now g : Nat) (c : PlgCmd) (b : Block) : Block :=
  if Fld.GR_PLG_CFG_EN b.cfg g then b.plgUpd g fun p => { p with cmds := p.cmds ++ [(c, now)] } else b

/-- The slot has a profile generator (R246). -/
def hasGen (b : Block) (t j : Nat) : Bool := Fld.PG_CFG_EN b.cfg t j && decide (slotTy b t j ≠ .unused)

/-- START, HOME may act: the axis is enabled and R97 does not forbid it. -/
def moveOk (b : Block) (t j : Nat) : Bool :=
  hasGen b t j && axEnabled b t j && !(decide (slotTy b t j = .virtual) && commitBars b t j)

/-- PG_CTRL.START (R265, R300). -/
def genStart (now t j : Nat) (b : Block) : Block :=
  let member := (plgOf b t j).isSome
  b.genUpd t j fun g => if member then { g with fl := { g.fl with startRefused := true } } else Sys2Proof.Machine.pgStart now (moveOk b t j) g

/-- PG_CTRL.STOP (R267, R269, R300). -/
def genStopCmd (now t j : Nat) (b : Block) : Block :=
  match plgOf b t j with
  | some g => plgCommand now g .stop b
  | none =>
    if slotTy b t j = .pulse then
      immStop now t j (genEnd t j (fun g =>
        { g with fl := { g.fl with hostStop := true }, req := { g.req with startPending := false, start := none, home := none }
                 hm := homeEnd .aborted g.hm }) b)
    else genEnd t j (Sys2Proof.Machine.pgStop now (Fld.PG_DECEL_DEC b.cfg t j)) b

/-- PG_CTRL.HOME (R287, R300). -/
def genHome (now t j : Nat) (b : Block) : Block :=
  let idle := match plgOf b t j with
    | some g => decide ((b.plgAt g).st = .idle)
    | none => true
  b.genUpd t j fun g => Sys2Proof.Machine.pgHome now (moveOk b t j && idle) g

/-- The homing timeout at `now` (R292). -/
def genHomeTimeout (now t j : Nat) (b : Block) : Block :=
  let (g, imm) := homeTimeout now (Fld.PG_HOME_TO_HOME_TO b.cfg t j) (Fld.PG_FB_DECEL_DEC b.cfg t j) (decide (slotTy b t j = .pulse)) (b.genAt t j)
  let b := genEnd t j (fun _ => g) b
  if imm then immStop now t j b else b

/-! ### Banks in the memory stack -/

/-- The partition of a kind that a tile owns (R88). -/
def partOf (b : Block) (kind t : Nat) : Option Part := b.run.parts.find? fun p => decide (p.kind = kind) && decide (p.owner = dieTile t)

/-- First byte and size of a bank of a slot's profile (R257), of its cam (R314), of a schedule (R154). -/
def profileBank (b : Block) (t j bank : Nat) : Option (Nat × Nat) :=
  (partOf b 1 t).map fun p => ((p.base + Fld.PG_CFG_AREA_OFS b.cfg t j + bank * Fld.PG_CFG_BANK_SIZE b.cfg t j) * 65536, Fld.PG_CFG_BANK_SIZE b.cfg t j * 65536)

/-- See `profileBank`. -/
def camBank (b : Block) (t j bank : Nat) : Option (Nat × Nat) :=
  (partOf b 2 t).map fun p => ((p.base + Fld.GR_CAM_CFG_AREA_OFS b.cfg t j + bank * Fld.GR_CAM_CFG_BANK_SIZE b.cfg t j) * 65536, Fld.GR_CAM_CFG_BANK_SIZE b.cfg t j * 65536)

/-- See `profileBank`. -/
def schedBank (b : Block) (t k bank : Nat) : Option (Nat × Nat) :=
  (partOf b 3 t).map fun p => (p.base * 65536 + (2 * k + bank) * 8192, 8192)

/-- The bytes of a table bank with records of 32 bytes, as far as COUNT says (R250, R314): a COUNT out of range reads the header. -/
def bankBytes (m : Tab Byte) (r : Option (Nat × Nat)) : List Byte :=
  match r with
  | none => []
  | some (a, n) =>
    let c := leNat (tabBytes 0 m a 4)
    if c * 32 + 36 ≤ n then tabBytes 0 m a (c * 32 + 36) else tabBytes 0 m a 32

/-- The records `i` to `i + n − 1` of a profile bank. -/
def bankSegs (m : Tab Byte) (r : Option (Nat × Nat)) (i n : Nat) : List PgSeg :=
  match r with
  | none => []
  | some (a, _) => (List.range n).map fun k => parseSeg (tabBytes 0 m (a + 32 + 32 * (i + k)) 32)

/-- How many of `n` records of a bank from record `i` come before the first with an uncorrectable error (R592). -/
def goodRecs (b : Block) (r : Option (Nat × Nat)) (i n : Nat) : Nat :=
  match r with
  | none => n
  | some (a, _) => ((List.range n).takeWhile fun k => !badIn b (a + 32 + 32 * (i + k)) 32).length

/-- The timing of a bank: COUNT and, record by record, DUR and FLAGS (R301). -/
def bankTiming (m : Tab Byte) (r : Option (Nat × Nat)) : List Nat :=
  let bs := bankBytes m r
  leAt bs 0 4 :: (List.range (leAt bs 0 4)).flatMap fun i => [leAt bs (32 + 32 * i) 4, leAt bs (36 + 32 * i) 4]

/-- The members of a pleached group (R294). -/
def plgMembers (b : Block) (g : Nat) : List (Nat × Nat) := (allAxes b).filter fun p => decide (plgOf b p.1 p.2 = some g)

/-- The number of the shadow bank (R152). DESIGN CHOICE: bank 0 while no bank is active (log 19). -/
def shadowNo (active : Option Nat) : Nat := otherBank active

/-- The hub compares the shadows of a group's members (R301). -/
def plgCompare (now g : Nat) (b : Block) : Block :=
  let ms := plgMembers b g
  let sealedAll := !ms.isEmpty && ms.all fun p => decide ((b.genAt p.1 p.2).shadow = .sealed)
  let timing := fun (p : Nat × Nat) => bankTiming b.mem (profileBank b p.1 p.2 (shadowNo (b.genAt p.1 p.2).active))
  let done := ms.filter fun p => decide ((b.genAt p.1 p.2).shadow = .sealed)
  let same := match done with
    | [] => true
    | p :: r => r.all fun q => decide (timing q = timing p)
  b.plgUpd g fun x => { x with mismatch := !same, sealed := sealedAll && same
                               at_ := if sealedAll && same && !x.sealed then now else x.at_ }

/-- PG_SEAL_DONE (R260): the check of the bank and the load of its first records. An UNUSED slot has no generator that fetches (R33). -/
def genSealDone (now t j : Nat) (b : Block) : Block :=
  if hasGen b t j && decide ((b.genAt t j).shadow = .fetching) then
    let r := profileBank b t j (shadowNo (b.genAt t j).active)
    let bs := bankBytes b.mem r
    let n := leAt bs 0 4
    let err := profileErr bs (Fld.PG_CFG_BANK_SIZE b.cfg t j) (Fld.PG_MIN_DUR_MIN_DUR b.cfg t j)
    let k := goodRecs b r 0 (min n 16)
    let bank : PgBank := { count := n, rel := bit (leAt bs 8 4) 0, buf := if err = 0 then bankSegs b.mem r 0 k else [], next := k }
    let b := b.genUpd t j fun g => Sys2Proof.Machine.pgSealDone now err bank g
    match plgOf b t j with
    | some g => plgCompare now g b
    | none => b
  else b

/-- UNSEAL of a profile shadow (R264, R301). -/
def genUnseal (now t j : Nat) (b : Block) : Block :=
  let b := b.genUpd t j Sys2Proof.Machine.pgUnseal
  match plgOf b t j with
  | some g => plgCompare now g b
  | none => b

/-- A generator with fewer than 16 unread records requests the next (R258). -/
def genRequest (now : Nat) (g : Gen) : Gen :=
  if decide (g.bank.buf.length < 16) && decide (g.fetch = 0) && decide (g.bank.next < g.bank.count) && g.active.isSome then
    { g with fetch := min 16 (g.bank.count - g.bank.next), fetchAt := now }
  else g

/-- PREFETCH_ARRIVAL (R258): the requested records enter the buffer. -/
def genPrefetch (t j : Nat) (b : Block) : Block :=
  b.genUpd t j fun g =>
    if g.fetch = 0 then g
    else
      let n := goodRecs b (profileBank b t j (g.active.getD 0)) g.bank.next (min g.fetch (g.bank.count - g.bank.next))
      let rs := bankSegs b.mem (profileBank b t j (g.active.getD 0)) g.bank.next n
      { g with bank := { g.bank with buf := g.bank.buf ++ rs, next := g.bank.next + n }, fetch := 0 }

/-! ### Gain schedules: reading banks -/

/-- A gain-schedule bank read from memory and checked for the context that uses it (R155, R156). -/
def readSched (b : Block) (t k bank : Nat) : Option SchedBank :=
  match (List.range 32).find? fun c => decide (Fld.CE_LOOP_ALLOC_NSEC b.cfg t c ≠ 0) && Fld.CE_LOOP_ALLOC_SCHED_EN b.cfg t c && decide (Fld.CE_LOOP_ALLOC_SCHED b.cfg t c = k) with
  | none => none
  | some c =>
    let ns := Fld.CE_LOOP_ALLOC_NSEC b.cfg t c
    let s0 := Fld.CE_LOOP_ALLOC_FIRST_SEC b.cfg t c
    let need := (List.range ns).map fun i =>
      Fld.CE_SEC_CFG_WIDE b.cfg t (s0 + i) || (decide (i + 1 = ns) && (Fld.CE_LOOP_OUT_HO_EN b.cfg t c || Fld.CE_LOOP_OUT_BUMPLESS b.cfg t c))
    match schedBank b t k bank with
    | none => none
    | some (a, n) => if badIn b a (min n 5204) then none else parseSchedBank (tabBytes 0 b.mem a (min n 5204)) ns need ((List.range ns).map fun i => Fld.CE_SEC_CFG_CSHIFT b.cfg t (s0 + i))

/-- SCHED_SEAL_DONE (R157, R160). -/
def schedSealDoneOp (now t k : Nat) (b : Block) : Block :=
  let s := b.schedAt t k
  let r := readSched b t k (shadowNo s.active)
  b.schedUpd t k fun s => Sys2Proof.Machine.schedSealDone now r s

/-! ### Clutches and cams -/

/-- The cam in force of a slot. -/
def camOf (b : Block) (t j : Nat) : CamTab :=
  match (b.followAt t j).cam.active with
  | some k => parseCam (bankBytes b.mem (camBank b t j k))
  | none => {}

/-- Point `i` of the cam in force, or the next, has an uncorrectable error (R592). -/
def camBad (b : Block) (t j i : Nat) : Bool :=
  match camBank b t j ((b.followAt t j).cam.active.getD 0) with
  | some (a, _) => badIn b (a + 32 + 32 * i) 64
  | none => false

/-- ENGAGE (R311). -/
def clutchEngageOp (now t j : Nat) (b : Block) : Block :=
  let noBank := decide (Fld.GR_FOLLOW_MODE b.cfg t j = 2) && (b.followAt t j).cam.active.isNone
  b.followUpd t j fun f => { f with cl := clEngage now noBank f.cl }

/-- ZERO (R312). -/
def clutchZeroOp (now t j : Nat) (b : Block) : Block :=
  let dis := axDisabled b t j
  b.followUpd t j fun f => { f with cl := clZero now dis f.cl }

/-- CAM_SEAL_DONE (R315): the first bank sealed with none active becomes active at the next boundary; with no active bank, at once (R160). -/
def camSealDoneOp (now t j : Nat) (b : Block) : Block :=
  let k := (b.followAt t j).cam
  let ok := camValid (bankBytes b.mem (camBank b t j (shadowNo k.active))) (Fld.GR_CAM_CFG_BANK_SIZE b.cfg t j) (Fld.GR_CAM_MIN_DX_VALUE b.cfg t j)
  b.followUpd t j fun f =>
    let k := camSealDone now ok f.cam
    { f with cam := if k.shadow = .sealed && k.active.isNone then { k with active := some 0, shadow := .empty, lo := 0 } else k }

end Sys2Proof.Machine
end

