-- ==== Sys2Proof/Machine/Timing.lean ====
section
/-! DEFINITION. Set-point inputs (R77 to R82) and deadline misses (R71 to R74), as operations on the block. -/

namespace Sys2Proof.Machine

/-- Nominal interval of an input in ns; 0: unused. -/
def spI (b : Block) (t n : Nat) : Nat := 10 * Fld.TL_SP_INTERVAL_INTERVAL b.cfg t n

/-- The expiry tick of an input (R82). -/
def spExpiry (b : Block) (t n : Nat) (s : SpIn) : Nat := s.cur.at_ + spI b t n + 10 + 10 * Fld.TL_SP_HORIZON_HORIZON b.cfg t n

/-- A set-point takes its place in a queue, earliest first. -/
def spInsert (e : SpEntry) : List SpEntry → List SpEntry
  | [] => [e]
  | x :: r => if e.at_ < x.at_ then e :: x :: r else x :: spInsert e r

/-- A set-point registered at `now` (R77 to R79). DESIGN CHOICE: a late one is counted in LATE_ARRIVAL here, and stays counted when the comparison
at its tick discards it (log 55). -/
def spReceive (now at_ : Nat) (v : Int) (s : SpIn) : SpIn :=
  let e : SpEntry := { at_ := truncTick at_, val := v }
  if s.cnt ≠ 0 && decide (e.at_ < s.cur.at_) then { s with stale := satAdd 255 s.stale 1 }
  else if s.cnt ≠ 0 && decide (e.at_ = s.cur.at_) then s
  else if e.at_ < now then { s with lateArrival := satAdd 255 s.lateArrival 1, late := s.late ++ [{ tick := now + 10, sp := e }] }
  else if s.queue.any (fun x => decide (x.at_ = e.at_)) then { s with queue := s.queue.map fun x => if x.at_ = e.at_ then e else x }
  else if s.queue.length = 4 then { s with overrun := true }
  else { s with queue := spInsert e s.queue }

/-- A set-point takes effect (R78, R81). -/
def spForce (e : SpEntry) (s : SpIn) : SpIn :=
  { s with cnt := min 2 (s.cnt + 1), prev := s.cur, cur := e, extrapolating := false, signalled := false }

/-- The queued set-points due at `now` take effect, earliest first. -/
def spQueueDue (now : Nat) : List SpEntry → SpIn → SpIn
  | [], s => { s with queue := [] }
  | e :: r, s => if e.at_ ≤ now then spQueueDue now r (spForce e s) else { s with queue := e :: r }

/-- The late set-points due at `now` are compared again and take effect, or are discarded (R79). -/
def spLateDue (now : Nat) : List SpLate → SpIn → SpIn
  | [], s => { s with late := [] }
  | e :: r, s =>
    if now < e.tick then { s with late := e :: r }
    else if s.cnt ≠ 0 && decide (e.sp.at_ < s.cur.at_) then spLateDue now r { s with stale := satAdd 255 s.stale 1 }
    else if s.cnt ≠ 0 && decide (e.sp.at_ = s.cur.at_) then spLateDue now r s
    else spLateDue now r (spForce e.sp s)

/-- The late-set-point fault is due (R82). -/
def spFaultDue (b : Block) (now t n : Nat) (s : SpIn) : Bool :=
  s.cnt ≠ 0 && decide (spI b t n ≠ 0) && !s.signalled && decide (spExpiry b t n s ≤ now)

/-- The fault of an input at `now` (R82): LATE_FAULT, the trigger event, the fault reactions of the reading axes. -/
def spFault (now t n : Nat) (b : Block) : Block :=
  if spFaultDue b now t n (b.spAt t n) then
    axFaults now 1 (spReaders b t n) (acqEvent now t 12 (b.spUpd t n fun s => { s with lateFault := true, signalled := true }))
  else b

/-- Set-points whose tick has come take effect (R75 step 1, R79); one that does so at or after an expiry signals the fault (R82). -/
def spEffect (now t n : Nat) (b : Block) : Block :=
  let s := b.spAt t n
  let due := s.queue.any (fun e => decide (e.at_ ≤ now)) || s.late.any (fun e => decide (e.tick ≤ now))
  if due then
    let b := spFault now t n b
    spFault now t n (b.spUpd t n fun s =>
      let s := spQueueDue now s.queue s
      spLateDue now s.late s)
  else b

/-- Extrapolation at `now` with the INTERVAL in force (R80, R82). -/
def spExtrapolate (now t n : Nat) (b : Block) : Block :=
  let i := spI b t n
  b.spUpd t n fun s => { s with extrapolating := s.cnt ≠ 0 && decide (i ≠ 0) && decide (s.cur.at_ + i + 10 ≤ now) }

/-- The value of an input at tick `now`, Q32.32 (R78, R80). -/
def spValue (b : Block) (now t n : Nat) : DWord :=
  let s := b.spAt t n
  if s.cnt = 0 then 0
  else if s.cnt = 2 && decide (spI b t n ≠ 0) && decide (s.cur.at_ + spI b t n + 10 ≤ now) then
    wrap64 (satS 64 (s.cur.val + floorDiv ((s.cur.val - s.prev.val) * ((now : Int) - s.cur.at_)) ((s.cur.at_ : Int) - s.prev.at_)))
  else wrap64 s.cur.val

/-- A set-point that arrives after the frame apply step of the tick `now` is registered at the next tick, before that tick's frame apply step
(R75, R78, R79): one whose apply time is that tick takes effect there. -/
def spRegister (now t n at_ : Nat) (v : Int) (b : Block) : Block :=
  if spI b t n = 0 then b else b.spUpd t n (spReceive (now + 10) at_ v)

/-- Everything time-driven of one input at `now`. -/
def spTick (now t n : Nat) (b : Block) : Block := spExtrapolate now t n (spFault now t n (spEffect now t n b))

/-- A group holds a current loop (R73). -/
def holdsCurrent (b : Block) (t g : Nat) : Bool := (ctxsIn b t g).any fun c => decide (Fld.CE_LOOP_ALLOC_KIND b.cfg t c ≠ 0)

/-- The axes that own a loop of a group. -/
def grpAxes (b : Block) (t g : Nat) : List (Nat × Nat) :=
  (tileAxes t).filter fun p => (ctxsIn b t g).any fun c => decide (Fld.CE_LOOP_ALLOC_SLOT b.cfg t c = p.2)

/-- A context of the group in which an abandoned frame was being evaluated: which one, the spec leaves to the silicon (R72). -/
def missContext (b : Block) (t g : Nat) : Nat :=
  let cs := ctxsIn b t g
  cs.getD (Config.missPoint b.draws % max 1 cs.length) 0

/-- A deadline miss at apply instant `now` (R72 to R74). -/
def grpMiss (now t g : Nat) (b : Block) : Block :=
  let lc := missContext b t g
  let b := acqEvent now t 9 { b.grpUpd t g (fun x =>
    { x with minSlack := 0, lastSlack := 0, consec := satAdd 255 x.consec 1, lastCtx := lc, count := satAdd 65535 x.count 1
             lastMiss := now % 2 ^ 32 }) with draws := b.draws + 1 }
  let run := (b.grpAt t g).consec
  if holdsCurrent b t g then
    if 2 ≤ run then axFaults now 1 ((grpAxes b t g).filter fun p => decide (p.2 < 4) && decide (curGroup b t p.2 = g)) b else b
  else
    let m := Fld.TL_GRP_APPLY_MISS_FAULT b.cfg t g
    if decide (m ≠ 0) && decide (m ≤ run) then axFaults now 1 (grpAxes b t g) b else b

/-- The slack of a frame that completed at `done` (R71). -/
def grpSlack (now done : Nat) (x : Grp) : Grp :=
  let s := min 65535 ((now - done) / 10)
  { x with lastSlack := s, minSlack := min x.minSlack s, consec := 0 }

/-- TL_GRP_CTRL.CLEAR (R71). -/
def grpClear (t mask : Nat) (b : Block) : Block :=
  forN 4 (fun g => fun x => if bit mask g then x.grpUpd t g fun y => { y with minSlack := 0xFFFF, count := 0 } else x) b

end Sys2Proof.Machine
end

