-- ==== Sys2Proof/Machine/Frames.lean ====
section
/-! DEFINITION. The computation of a frame (R56, R57, R122 to R171, R191 to R198, R210 to R214): sources, contexts, native current blocks, hand-overs. -/

namespace Sys2Proof.Machine

/-! ### Sources (R134) -/

/-- The exponent of a context's output word: OEXP, 0 for current contexts (R195). -/
def ctxOexp (b : Block) (t c : Nat) : Int :=
  if Fld.CE_LOOP_ALLOC_KIND b.cfg t c = 0 then signed 6 (Fld.CE_LOOP_SCALE_OEXP b.cfg t c) else 0

/-- The word a context applied at or before `x` (R59). -/
def histAt (l : List (Nat × Word)) (x : Nat) : Word :=
  match l.find? fun e => decide (e.1 ≤ x) with
  | some e => e.2
  | none => 0

/-- The output word of context `c'` as context `c` reads it in a frame (R123). -/
def outWord (b : Block) (t c c' : Nat) (done : List CtxRes) : Word :=
  match done.find? fun r => decide (r.ctx = c') && decide (c' < c) with
  | some r => r.out
  | none => (b.ctxAt t c').out

/-- The value that a context reading a source at sample instant `s` obtains (R134); `done` are the results of the frame so far. -/
def srcVal (b : Block) (s t c : Nat) (done : List CtxRes) (code : Nat) : Dy :=
  let n := code % 16
  match code / 16 with
  | 1 => dyPos (b.followAt t n).pos
  | 2 => dyVel (b.followAt t n).vel
  | 3 => if n < 8 then dyPos (b.qdAt t n).posSrc else dyVel (b.qdAt t (n - 8)).spdSrc
  | 4 | 5 => dyVel (spValue b s t (code - 0x40))
  | 6 | 7 => { m := (outWord b t c (code - 0x60) done).toInt, p := ctxOexp b t (code - 0x60) - 31 }
  | 8 => { m := (mbOut s n (b.seqAt t).mb).toInt, p := -31 }
  | 9 =>
    let t' := Fld.CE_XIN_TILE b.cfg t n
    let c' := Fld.CE_XIN_CTX b.cfg t n
    if n < 8 && Fld.CE_XIN_EN b.cfg t n then
      { m := (histAt (b.histAt t' c') (s - 1000)).toInt, p := ctxOexp b t' c' - 31 }
    else {}
  | 10 => if 8 ≤ n then dyPos (b.nxAt t (n - 8)).posL else {}
  | 11 => if 8 ≤ n then dyVel (b.nxAt t (n - 8)).spdL else {}
  | _ => {}

/-! ### Coefficients -/

/-- A signed word of a register. -/
def sWord (v : Nat) : Int := signed 32 v

/-- A section's coefficients from its registers (R124). -/
def regCoef (b : Block) (t sn : Nat) : Coef :=
  let k := fun i => sWord (Fld.CE_SEC_COEF_MANT b.cfg t sn i)
  { b0 := k 0, b1 := k 1, b2 := k 2, a1 := k 3, a2 := k 4, c := Fld.CE_SEC_CFG_CSHIFT b.cfg t sn, wide := Fld.CE_SEC_CFG_WIDE b.cfg t sn }

/-- Coefficients as a list: b0, b1, b2, a1, a2. -/
def coefList (k : Coef) : List Int := [k.b0, k.b1, k.b2, k.a1, k.a2]

/-- A section's coefficients with the five of a schedule in place of the registers' (R144). -/
def withCoefs (k : Coef) (l : List Int) : Coef :=
  match l with
  | [b0, b1, b2, a1, a2] => { k with b0 := b0, b1 := b1, b2 := b2, a1 := a1, a2 := a2 }
  | _ => k

/-- The chain of a context: coefficients and states, the first ones from a schedule's coefficients `cs` (R133, R144). -/
def chainOf (b : Block) (t c : Nat) (cs : List Int) : List (Coef × Sec) :=
  (List.range (Fld.CE_LOOP_ALLOC_NSEC b.cfg t c)).map fun i =>
    let sn := Fld.CE_LOOP_ALLOC_FIRST_SEC b.cfg t c + i
    (withCoefs (regCoef b t sn) ((cs.drop (5 * i)).take 5), { b.secAt t sn with sat := false })

/-- The loop parameters of a context. -/
def loopCfg (b : Block) (t c per : Nat) : LoopCfg :=
  let s6 := signed 6
  { rscale := s6 (Fld.CE_LOOP_SCALE_RSCALE b.cfg t c), fscale := s6 (Fld.CE_LOOP_SCALE_FSCALE b.cfg t c)
    ffscale := s6 (Fld.CE_LOOP_SCALE_FFSCALE b.cfg t c), oexp := ctxOexp b t c, aw := Fld.CE_LOOP_SCALE_AW b.cfg t c
    limHi := sWord (Fld.CE_LOOP_LIMHI_LIMIT b.cfg t c), limLo := sWord (Fld.CE_LOOP_LIMLO_LIMIT b.cfg t c)
    kaw := sWord (Fld.CE_LOOP_KAW_KAW b.cfg t c)
    delta := Fld.CE_LOOP_RAMP_RAMP_STEP b.cfg t c * 2 ^ Fld.CE_LOOP_TIMING_RAMP_SHIFT b.cfg t c
    blendFrames := Fld.CE_LOOP_TIMING_BLEND b.cfg t c * 100 / max 1 per
    bumpless := Fld.CE_LOOP_OUT_BUMPLESS b.cfg t c, hoEn := Fld.CE_LOOP_OUT_HO_EN b.cfg t c, alt := alternative b t c }

/-- What R170 compares from frame to frame: scales, shifts and the coefficients in use. -/
def usedOf (g : LoopCfg) (ks : List Coef) : List Int := [g.rscale, g.fscale, g.ffscale, g.oexp] ++ ks.flatMap fun k => (k.c : Int) :: coefList k

/-- The same without the coefficients of the first `n` sections, which an interpolated transition moves (R170). -/
def usedBeside (n : Nat) (l : List Int) : List Int :=
  ((List.range l.length).zip l).filterMap fun p => if 4 ≤ p.1 && decide ((p.1 - 4) / 6 < n) && decide ((p.1 - 4) % 6 ≠ 0) then none else some p.2

/-! ### Gain schedules in a frame -/

/-- The parameters of a schedule. -/
def schedCfg (b : Block) (t k : Nat) : SchedCfg :=
  { interp := Fld.CE_SCHED_CFG_INTERP b.cfg t k, vscale := signed 6 (Fld.CE_SCHED_CFG_VSCALE b.cfg t k)
    hyst := Fld.CE_SCHED_HYST_HYST b.cfg t k, tstep := Fld.CE_SCHED_TSTEP_TSTEP b.cfg t k }

/-- A context's schedule in a frame (R145 to R158): its number, its record after the frame, the coefficients it supplies, and the number of sections that a transition moves in this frame. -/
def ctxSched (b : Block) (s t c : Nat) (done : List CtxRes) (enabled : Bool) : Option (Nat × Sched) × List Int × Nat :=
  if Fld.CE_LOOP_ALLOC_SCHED_EN b.cfg t c then
    let k := Fld.CE_LOOP_ALLOC_SCHED b.cfg t c
    let g := schedCfg b t k
    let v := sat32 (dyFloor (dyScale (srcVal b s t c done (Fld.CE_LOOP_SRC_SV_SRC b.cfg t c)) g.vscale) 0)
    let r := b.schedAt t k
    if r.active.isSome then
      let regs := (List.range (Fld.CE_LOOP_ALLOC_NSEC b.cfg t c)).flatMap fun i => coefList (regCoef b t (Fld.CE_LOOP_ALLOC_FIRST_SEC b.cfg t c + i))
      let (r', cs, moves) := schedStep g enabled v regs (schedSwap g s v r)
      (some (k, r'), cs, if moves then max r.bank.sections r'.bank.sections else 0)
    else (some (k, { r with v := v }), [], 0)
  else (none, [], 0)

/-! ### Control modes -/

/-- The request that the frame sampled at `s` takes (R164, R168). -/
def modeTaken (s : Nat) (m : ModeS) : Option ModeReq :=
  match m.req with
  | some r => if r.from_ ≤ s && decide (r.mode ≠ m.active) then some r else none
  | none => none

/-- A write of CE_MODE (R164), registered at `now`: `from_` is the earliest sample instant that takes it. -/
def modeRequest (now t j mode from_ : Nat) (armed : Bool) (b : Block) : Block :=
  if (altOf b t j mode).isNone then b.modeUpd t j fun m => { m with modeErr := true }
  else b.modeUpd t j fun m =>
    if m.active = mode then { m with req := none }
    else if armed && decide (now < from_) then { m with req := some { mode := mode, from_ := from_, armed := true } }
    else { m with req := some { mode := mode, from_ := now + 1, armed := false } }

/-! ### General contexts -/

/-- What the set-point of a networked slot is formed with, for destination code `d` of context `c` (R47, R428). -/
def nxParOf (b : Block) (t c d : Nat) : NxPar :=
  if 0x38 ≤ d && d < 0x40 then
    let k := 8 * t + (d - 0x38)
    { lead := Fld.BL_NX_LEAD_LEAD b.cfg k, spk := BitVec.ofNat 32 (Fld.BL_NX_SPK_SPK b.cfg k), oexp := ctxOexp b t c, spsh := signed 6 (Fld.BL_NX_CFG_SPSH b.cfg k) }
  else {}

/-- One GENERAL context in the frame sampled at `s`; `to_` is the mode its slot hands over to in this frame, if any. -/
def ctxFrame (b : Block) (s t c : Nat) (done : List CtxRes) : CtxRes :=
  let j := Fld.CE_LOOP_ALLOC_SLOT b.cfg t c
  let per := grpPeriod b t (Fld.CE_LOOP_ALLOC_GROUP b.cfg t c)
  let g := loopCfg b t c per
  let en := ctxEnabled b t j
  let m := b.modeAt t j
  let taken := if en then modeTaken s m else none
  let mode := Fld.CE_LOOP_OUT_MODE b.cfg t c
  let act := match taken with
    | some r => r.mode
    | none => m.active
  let emits := !g.alt || decide (mode = act)
  let incoming := g.alt && emits && taken.isSome
  let t0 := match altBeside b t c m.active with
    | some c0 => (b.ctxAt t c0).out.toInt
    | none => 0
  let (sch, cs, skip) := ctxSched b s t c done en
  let ch := chainOf b t c cs
  let used := usedOf g (ch.map (·.1))
  let c0 : Ctx := { b.ctxAt t c with sat := false, limSeen := false }
  let src := fun code => srcVal b s t c done code
  let r := loopEval g
    { ref := src (Fld.CE_LOOP_SRC_REF_SRC b.cfg t c), fb := src (Fld.CE_LOOP_SRC_FB_SRC b.cfg t c), ff := src (Fld.CE_LOOP_SRC_FF_SRC b.cfg t c)
      enabled := en, emits := emits, incoming := incoming, handOver := if incoming && g.hoEn then some t0 else none
      changed := !c0.usedRegs.isEmpty && decide (usedBeside skip used ≠ usedBeside skip c0.usedRegs) } c0 ch
  let s0 := Fld.CE_LOOP_ALLOC_FIRST_SEC b.cfg t c
  { ctx := c, rec_ := { r.ctx with usedRegs := used }, secs := ((List.range r.secs.length).zip r.secs).map fun p => (s0 + p.1, p.2)
    out := BitVec.ofInt 32 r.word, emits := emits, dst := Fld.CE_LOOP_OUT_DST b.cfg t c, nx := nxParOf b t c (Fld.CE_LOOP_OUT_DST b.cfg t c)
    armed0 := c0.rampArmed, sched := sch }

/-! ### The native current block -/

/-- Decimation ratio (AX_SD_CFG.OSR). -/
def osrOf (b : Block) (t j : Nat) : Nat := 16 * 2 ^ min 4 (Fld.AX_SD_CFG_OSR b.cfg t j)

/-- Sampled bits of data input `k`, newest first; those before the first sample are open (Config.sdBefore). -/
def sdHist (b : Block) (t j k : Nat) : List Bool :=
  let a := b.natAt t j
  let h := match k with
    | 0 => a.sd0.hist
    | 1 => a.sd1.hist
    | _ => a.sd2.hist
  h ++ (List.range (768 - h.length)).map fun i => Config.sdBefore (((4 * t + j) * 3 + k) * 768 + i)

/-- An input's value under R177, from a filter of its bits. -/
def sdValue (b : Block) (t j k : Nat) (f : List Bool → Int) : Int :=
  sdScale (f (sdHist b t j k)) (sWord (Fld.AX_SD_OFS_VALUE b.cfg t j k)) (sWord (Fld.AX_SD_GAIN_VALUE b.cfg t j k)) (Fld.AX_SD_CFG_GSHIFT b.cfg t j)

/-- The phase currents under a filter (R177, R179). -/
def phasesOf (b : Block) (t j : Nat) (f : List Bool → Int) : Phases :=
  let u := sdValue b t j 0 f
  let v := sdValue b t j 1 f
  if Fld.AX_SD_CFG_IN2_VBUS b.cfg t j then { u := u, v := v, w := -u - v }
  else { u := u, v := v, w := sdValue b t j 2 f, three := true }

/-- The bus voltage that the frame forms, Q1.31: measured, or 1.0 when SD2 carries phase W (R177). -/
def vbusMeas (b : Block) (t j : Nat) : Int :=
  if Fld.AX_SD_CFG_IN2_VBUS b.cfg t j then sdValue b t j 2 (sinc3 (osrOf b t j)) else 2 ^ 31

/-- The bus voltage in use and VBUS_LOW for a measured one (R178). -/
def vbusUsed (v : Int) : Int × Bool := (max v (2 ^ 28), decide (v < 2 ^ 30))

/-- The level rule of R213: the target level from the level in force and the target that stands. `v` is |velocity| in Q32.32 counts/s. -/
def levelTarget (nlev : Nat) (thr : Nat → Nat) (hys level target : Nat) (v : Int) : Nat :=
  let q := fun (n : Nat) => (n : Int) * 2 ^ 40
  let ks := (List.range nlev).filter fun k => decide (1 ≤ k)
  if level + 1 < nlev && decide (q (thr (level + 1)) ≤ v) then ((ks.filter fun k => decide (q (thr k) ≤ v)).getLast?).getD 0
  else if level ≠ 0 && decide (v < q (thr level) - q hys) then ((ks.find? fun k => decide (q (thr k) - q hys ≤ v))).getD 0
  else min target (nlev - 1)

/-- The stepper record after the frame at `s` (R211 to R213). -/
def stepperFrame (b : Block) (s t j : Nat) (x : StepperS) : StepperS :=
  let f := b.followAt t j
  let p := f.pos.toInt / 65536
  let thr := fun k => Fld.AX_STEP_THR_VALUE b.cfg t j (k - 1)
  let tg := levelTarget 5 thr (Fld.AX_STEP_HYS_VALUE b.cfg t j) x.level x.target (f.vel.toInt.natAbs)
  let full := decide (p % 256 = 0) || decide (p / 256 ≠ x.p / 256)
  let level := if full then tg else x.level
  let qn : Int := 4 ^ level
  let last := if p = x.p then x.lastMove else s
  { level := level, target := tg, p := p, q := p / qn * qn, lastMove := last
    holding := decide (p = x.p) && decide (last + Fld.AX_STEP_HOLD_HOLD_T b.cfg t j * 1000000 ≤ s) }

/-- A current loop up to its limits (R195 to R197): sections before the last, the last one's coefficients and state, y, the feedforward, w and the limited word. -/
structure CurStage where
  ctx : Ctx := {}
  front : List Sec := []
  k : Coef := {}
  last : Sec := {}
  y : Dy := {}
  ff : Dy := {}
  w : Int := 0
  u : Int := 0
  deriving DecidableEq, Repr

/-- The sections of a current loop evaluated on an error; `on` is false while the axis is disabled (R140). DESIGN CHOICE: the sections of a current context are
cleared while its axis is disabled and in its first enabled frame, as R140 and R141 say of general contexts (log 55). -/
def curStage (b : Block) (t c : Nat) (err ff : Int) (on : Bool) : CurStage :=
  let c0 : Ctx := { b.ctxAt t c with sat := false, limSeen := false }
  let ch := chainOf b t c []
  let ch := if !on || c0.rampArmed then ch.map fun p => (p.1, p.2.cleared) else ch
  let (e, se) := toBf { m := err, p := -31 }
  let (front, x, sf) := chainEval ch.dropLast e
  match ch.getLast? with
  | none => {}
  | some (k, s) =>
    let (s', _, y, sl) := secEval k s x
    let f : Dy := { m := ff, p := -31 }
    let n := dyFloor (dyAdd y f) (-31)
    let w := sat32 n
    let lo := sWord (Fld.CE_LOOP_LIMLO_LIMIT b.cfg t c)
    let hi := sWord (Fld.CE_LOOP_LIMHI_LIMIT b.cfg t c)
    { ctx := { c0 with errM := BitVec.ofInt 32 e.m, errE := e.e, sat := se || sf || sl || decide (w ≠ n), rampArmed := c0.rampArmed && !on }
      front := front, k := k, last := s', y := y, ff := f, w := if on then w else 0, u := if on then min (max w lo) hi else 0 }

/-- The end of a current loop's frame with its final word `u` (R137, R197). -/
def curFinish (b : Block) (t c : Nat) (x : CurStage) (u : Int) (armed0 : Bool) : CtxRes :=
  let g := loopCfg b t c 1
  let (s, sat) := antiWindup g x.k x.last x.y x.ff u x.w
  let s0 := Fld.CE_LOOP_ALLOC_FIRST_SEC b.cfg t c
  let secs := x.front ++ [s]
  { ctx := c, rec_ := { x.ctx with limited := decide (u ≠ x.w), limSeen := decide (u ≠ x.w), sat := x.ctx.sat || sat }
    secs := ((List.range secs.length).zip secs).map fun p => (s0 + p.1, p.2), out := BitVec.ofInt 32 u, armed0 := armed0 }

/-- The native current block of one axis in the frame sampled at `s` (R192 to R198, R210 to R214): what the axis takes and the results of its d and q contexts.
DESIGN CHOICE: the decoupling sums saturate to Q1.31 (log 55). -/
def natFrame (b : Block) (s t j cd cq : Nat) : NatRes × List CtxRes :=
  let a := b.natAt t j
  let step := decide (slotTy b t j = .nstep)
  let on := !axDisabled b t j
  let ph := phasesOf b t j (sinc3 (osrOf b t j))
  let vm := vbusMeas b t j
  let (vbus, low) := vbusUsed vm
  let q := b.qdAt t (Fld.AX_COMM_QCH b.cfg t j)
  let pp := Fld.AX_COMM_POLE_PAIRS b.cfg t j
  let cpr := Fld.AX_COMM_CPR_CPR b.cfg t j
  let v := dyVel q.spdL
  let st := if step then stepperFrame b s t j a.step else a.step
  let raw : Word := BitVec.ofInt 32 (elecAngle q.rawL.toInt pp cpr)
  let th : Word := if step then BitVec.ofInt 32 (st.q * 2 ^ 22) else raw + BitVec.ofNat 32 (Fld.AX_COMM_OFS_OFS b.cfg t j)
  let align := decide (a.st = .aligning) || a.fromAlign || (a.wait.map (·.2)).getD false
  let thm : Word := if align then 0 else if step then th else th - BitVec.ofInt 32 (angleLead v pp cpr (Fld.AX_PWM_LEAD_LEAD b.cfg t j))
  let tho : Word := if align then 0 else if step then th else th + BitVec.ofInt 32 (angleLead v pp cpr (Fld.AX_COMM_ADV_ADV b.cfg t j))
  let (ia, ib) := if step then (ph.u, ph.v) else clarke ph
  let (id, iq) := park ia ib thm
  let (rd, rq) := match a.hold with
    | some (d, q) => (d.toInt, q.toInt)
    | none =>
      if align then (sWord (Fld.AX_ALIGN_I_ALIGN_I b.cfg t j), 0)
      else if step then ((if st.holding then Fld.AX_STEP_I_I_HOLD b.cfg t j else Fld.AX_STEP_I_I_RUN b.cfg t j : Nat) * (2 : Int) ^ 15, a.qref.toInt)
      else (a.dref.toInt, a.qref.toInt)
  let wn := speedNorm v pp cpr (signed 6 (Fld.AX_COMM_WSCALE b.cfg t j))
  let dec := fun k => sWord (Fld.AX_DEC_K b.cfg t j k)
  let ffd := if step then 0 else sat32 (-(dec 1 * wn * iq) / (2 : Int) ^ 62)
  let ffq := if step then 0 else sat32 ((dec 0 * wn * id + dec 2 * wn * 2 ^ 31) / (2 : Int) ^ 62)
  let sum := if ph.three then ph.u + ph.v + ph.w else 0
  let xd := curStage b t cd (rd - id) ffd on
  let xq := curStage b t cq (rq - iq) ffq on
  let r := sWord (Fld.AX_VLIM_LIMIT b.cfg t j) * vbus / 2 ^ 31
  let (vd, vq) := circLimit xd.u xq.u r
  let (va, vb) := invPark vd vq tho
  let (du, lim) := if step then dutiesStep va vb (sWord (Fld.AX_VLIM_LIMIT b.cfg t j)) vbus else (duties3 va vb vbus, false)
  ({ slot := j
     meas := { id := BitVec.ofInt 32 id, iq := BitVec.ofInt 32 iq, angle := th, vbus := word32 vm
               vbusLow := low, vlimited := lim || decide (vd ≠ xd.u) || decide (vq ≠ xq.u) }
     duties := du, sum := sum
     sumOver := decide (Fld.AX_SUM_LIMIT b.cfg t j ≠ 0) && decide ((Fld.AX_SUM_LIMIT b.cfg t j : Int) < sum.natAbs), step := st },
   [curFinish b t cd xd vd (b.ctxAt t cd).rampArmed, curFinish b t cq xq vq (b.ctxAt t cq).rampArmed])

/-! ### Pulse-train axes in a frame -/

/-- Pulse parameters of a slot. -/
def pulseCfg (b : Block) (t j : Nat) : PulseCfg :=
  let p := j - 4
  let ms := [Fld.PG_RES_CFG_MSTEP0 b.cfg t p, Fld.PG_RES_CFG_MSTEP1 b.cfg t p, Fld.PG_RES_CFG_MSTEP2 b.cfg t p, Fld.PG_RES_CFG_MSTEP3 b.cfg t p]
  { stepW := Fld.PG_PULSE_CFG_STEP_W b.cfg t p, dirSetup := Fld.PG_PULSE_CFG_DIR_SETUP b.cfg t p, resSetup := Fld.PG_PULSE_CFG_RES_SETUP b.cfg t p
    q := ms.map fun m => 2 ^ (8 - min 8 m)
    code := [Fld.PG_RES_CFG_CODE0 b.cfg t p, Fld.PG_RES_CFG_CODE1 b.cfg t p, Fld.PG_RES_CFG_CODE2 b.cfg t p, Fld.PG_RES_CFG_CODE3 b.cfg t p] }

/-- The target level of a pulse axis at a sample instant (R280). -/
def pulseLevel (b : Block) (t j : Nat) (p : Pulse) : Pulse :=
  let thr := fun k => Fld.PG_RES_THR_VALUE b.cfg t (j - 4) (k - 1)
  { p with target := levelTarget (Fld.PG_RES_CFG_NLEV b.cfg t (j - 4) + 1) thr (Fld.PG_RES_HYS_VALUE b.cfg t (j - 4)) p.level p.target
             ((b.followAt t j).vel.toInt.natAbs) }

end Sys2Proof.Machine
end

