-- ==== Sys2Proof/Machine/NetTime.lean ====
section
/-! DEFINITION. Network time, timed event units, PTP stamps (chapter 12). -/

namespace Sys2Proof.Machine

/-- Integer part of network time in ns. -/
def ntNs (n : Nt) : Nat := n.now / 2 ^ 40

/-- The advance into the next tick (R448, R449). -/
def ntAdvance (rate : Int) (n : Nt) : Nt :=
  { n with now := ((n.now : Int) + 10 * ((2 : Int) ^ 40 + rate)).toNat % 2 ^ 104 }

/-- One step of network time at `now` (R451): the new record, and whether a step took effect. -/
def ntStep (now : Nat) (amt : Int) (n : Nt) : Nt × Bool :=
  let v := (ntNs n : Int) + amt
  if amt = 0 then (n, false)
  else if v < 0 ∨ (2 : Int) ^ 64 ≤ v then ({ n with stepErr := true }, false)
  else ({ n with now := v.toNat * 2 ^ 40 + n.now % 2 ^ 40, epoch := (n.epoch + 1) % 65536, stepTick := now, stepAmt := amt }, true)

/-- The steps registered before `now` take effect. -/
def ntSteps (now : Nat) (n : Nt) : Nt × Bool :=
  let due := n.steps.filter fun s => decide (s.1 < now)
  due.foldl (fun r s => let q := ntStep now s.2 r.1; (q.1, r.2 || q.2)) ({ n with steps := n.steps.filter fun s => decide (now ≤ s.1) }, false)

/-- A capture registered before `now` latches (R454). -/
def ntCapture (now : Nat) (n : Nt) : Nt :=
  match n.cap with
  | some t => if t < now then { n with cap := none, capDone := true, capLat := now, capNt := ntNs n, capEpoch := n.epoch } else n
  | none => n

/-- Conversion of a lattice stamp `s` at registration tick `r` (R453): network time, and STEP_SPAN. -/
def ntConvert (n : Nt) (s r : Nat) : Nat × Bool :=
  (((ntNs n : Int) - ((r : Int) - s)).toNat % 2 ^ 64, decide (s < n.stepTick ∧ n.stepTick ≤ r))

/-- Base value of a unit at `now` (R457). -/
def teBase (n : Nt) (now : Nat) (u : Te) : Nat := if u.net then ntNs n else now

/-- The smallest `t + k * per` that is at least `b` (R457). -/
def teNext (t per b : Nat) : Nat := if b ≤ t then t else t + ceilDiv (b - t) (max 1 per) * max 1 per

/-- A firing recorded (R458). -/
def teRecord (n : Nt) (now : Nat) (u : Te) : Te :=
  { u with fires := satAdd 65535 u.fires 1, lat := now, nt := ntNs n, epoch := n.epoch }

/-- The action of a firing on a land (R458): the land, and OVERLAP. DESIGN CHOICE: TOGGLE, SET and CLEAR end a pulse that is active on the land (log 64). -/
def teAct (now : Nat) (u : Te) (l : Teo) : Teo × Bool :=
  match u.act with
  | 1 => ({ active := true, pulseEnd := some (now + 10 * u.width) }, l.active && l.pulseEnd.isSome)
  | 2 => ({ active := !l.active, pulseEnd := none }, false)
  | 3 => ({ active := true, pulseEnd := none }, false)
  | 4 => ({ active := false, pulseEnd := none }, false)
  | _ => (l, false)

/-- An ARM registered before `now` takes effect (R457): the unit, and whether it is late. -/
def teArmed (n : Nt) (now : Nat) (u : Te) : Te :=
  match u.arming with
  | some a =>
    if a < now then
      let b := teBase n now u
      match u.mode with
      | 0 => { u with arming := none, armed := true, next := u.t, late := u.late || decide (u.t < b) }
      | 1 => { u with arming := none, armed := true, next := teNext u.t u.per b }
      | _ => { u with arming := none, armed := true }
    else u
  | none => u

/-- A step takes effect at this tick for a unit with BASE = NETWORK (R459). -/
def teStepped (n : Nt) (u : Te) : Te :=
  if u.net && u.armed then
    match u.mode with
    | 0 => if u.next ≤ ntNs n then { u with stepped := true } else u
    | 1 =>
      let nx := teNext u.t u.per (ntNs n + 1)
      { u with next := nx, skipped := satAdd 255 u.skipped ((nx - u.next) / max 1 u.per) }
    | _ => u
  else u

/-- Whether the unit's occurrence is due (R457). -/
def teDue (n : Nt) (now : Nat) (u : Te) : Bool := u.armed && decide (u.mode < 2) && decide (u.next ≤ teBase n now u)

/-- The unit after its firing (R457, R458). -/
def teFired (n : Nt) (now : Nat) (u : Te) : Te :=
  let u := teRecord n now u
  if u.mode = 0 then { u with armed := false } else { u with next := u.next + max 1 u.per }

/-- ARM with the configuration in force (R456); a MODE of 3 is refused. -/
def teArm (now : Nat) (c : Te) (u : Te) : Te :=
  if c.mode = 3 then u
  else
    { c with
      arming := some now, armed := false, overlap := u.overlap, stepped := u.stepped, late := u.late, span := u.span
      lat := u.lat, nt := u.nt, epoch := u.epoch, unread := u.unread }

/-- A capture of a compare firing with timestamp `s` (R460). -/
def teCapture (n : Nt) (now s : Nat) (u : Te) : Te :=
  let c := ntConvert n s now
  { u with fires := satAdd 65535 u.fires 1, lat := s, nt := c.1, epoch := n.epoch, span := c.2, overlap := u.overlap || u.unread, unread := true }

/-- Offset of the Ethertype in a frame with at most one tag, and the Ethertype (R461). -/
def ethType (f : List Byte) : Nat × Nat :=
  let be (o : Nat) : Nat := 256 * leAt f o 1 + leAt f (o + 1) 1
  if be 12 = 0x8100 then (16, be 16) else (12, be 12)

/-- A big-endian field. -/
def beAt (f : List Byte) (o n : Nat) : Nat := leNat (slice f o n).reverse

/-- The `n` bytes of a number, most significant first. -/
def beBytes (n v : Nat) : List Byte := (leBytes n v).reverse

/-- Transport and offset of a PTP message in a frame (R461): 0 Ethernet, 1 IPv4, 2 IPv6. -/
def ptpAt (f : List Byte) : Option (Nat × Nat) :=
  let e := ethType f
  let o := e.1 + 2
  let at_ : Option (Nat × Nat) :=
    if e.2 = 0x88F7 then some (0, o)
    else if e.2 = 0x0800 then
      let u := o + 4 * (leAt f o 1 % 16)
      if leAt f (o + 9) 1 = 17 ∧ (beAt f (u + 2) 2 = 319 ∨ beAt f (u + 2) 2 = 320) then some (1, u + 8) else none
    else if e.2 = 0x86DD then
      let u := o + 40
      if leAt f (o + 6) 1 = 17 ∧ (beAt f (u + 2) 2 = 319 ∨ beAt f (u + 2) 2 = 320) then some (2, u + 8) else none
    else none
  match at_ with
  | some (tr, p) => if leAt f (p + 1) 1 % 16 = 2 ∧ leAt f (p + 1) 1 / 16 ≤ 1 then some (tr, p) else none
  | none => none

/-- messageType of a PTP message; the first four types are event messages (R461). -/
def ptpType (f : List Byte) (p : Nat) : Nat := leAt f p 1 % 16

/-- A receive record (R462). DEDUCED: a general message carries no stamp, so NT and EPOCH are 0 in its record like LAT (log 64). -/
def ptpRecord (n : Nt) (now s : Nat) (f : List Byte) (tr p : Nat) : List Byte :=
  let ev := decide (ptpType f p < 4)
  let c := ntConvert n s now
  let z (v : Nat) : Nat := if ev then v else 0
  leBytes 8 (z s) ++ leBytes 8 (z c.1) ++ leBytes 2 (z n.epoch) ++ leBytes 2 f.length ++ leBytes 4 (flag ev 0 + flag (ev && c.2) 1 + 4 * tr) ++ f

/-- Bytes of a frame replaced from an offset. -/
def putBytes (f : List Byte) (o : Nat) (bs : List Byte) : List Byte := f.take o ++ bs ++ f.drop (o + bs.length)

/-- The one-step timestamp written into a Sync message (R463); `frac` is the fraction of the nanosecond in units of 2^−16. -/
def ptpOneStep (f : List Byte) (tr p nt frac : Nat) : List Byte :=
  let corr := (beAt f (p + 8) 8 + frac) % 2 ^ 64
  let flg := leAt f (p + 6) 1
  let f := putBytes f (p + 34) (beBytes 6 (nt / 1000000000) ++ beBytes 4 (nt % 1000000000))
  let f := putBytes f (p + 8) (beBytes 8 corr)
  let f := putBytes f (p + 6) (beBytes 1 (if bit flg 1 then flg - 2 else flg))
  if tr = 1 then putBytes f (p - 2) (beBytes 2 0) else f

/-- Transmission of the oldest queued frame with egress stamp `s` (R463). A frame that ONE_STEP discards has no egress stamp. DESIGN CHOICE: the FIFO entry of a frame
with TS_REQ that is no PTP message is formed from the same offsets, counted from the frame's start (log 64). -/
def ptpSend (n : Nt) (now s : Nat) (x : Ptp) : Ptp :=
  match x.txq with
  | [] => x
  | e :: r =>
    let x := { x with txq := r }
    let c := ntConvert n s now
    let out : Option (List Byte) :=
      if e.oneStep then
        match ptpAt e.frame with
        | some (tr, p) => if ptpType e.frame p = 0 ∧ tr ≤ 1 then some (ptpOneStep e.frame tr p c.1 (n.now % 2 ^ 40 / 2 ^ 24)) else none
        | none => none
      else some e.frame
    let x : Ptp := match out with
      | some f => { x with sent := f }
      | none => { x with oneErr := true }
    if e.tsReq && out.isSome then
      if 16 ≤ x.ts.length then { x with txOvf := true }
      else
        let p := match ptpAt e.frame with | some (_, p) => p | none => 0
        { x with ts := x.ts ++ [{ seq := beAt e.frame (p + 30) 2, type := ptpType e.frame p, domain := leAt e.frame (p + 4) 1, nt := c.1, epoch := n.epoch }] }
    else x

/-- A received frame on a MAC with PTP recognition (R461, R462); `s` is the stamp with RXLAT subtracted. -/
def ptpReceive (n : Nt) (now s : Nat) (f : List Byte) (x : Ptp) : Ptp :=
  match ptpAt f with
  | some (tr, p) => if 32 ≤ x.rx.length then { x with rxOvf := true } else { x with rx := x.rx ++ [ptpRecord n now s f tr p] }
  | none => x

end Sys2Proof.Machine
end

