-- ==== Sys2Proof/Machine/Motion.lean ====
section
/-! DEFINITION. What a tile latches at its sample instants: channels, networked slots, generators, followers, compares; pleached groups (R56, R217 to R245, R246 to R293, R294 to R322). -/

namespace Sys2Proof.Machine

/-- A 64-bit value from its high and low words. -/
def dwOf (hi lo : Nat) : DWord := BitVec.ofNat 64 (hi * 2 ^ 32 + lo)

/-! ### Channels -/

/-- The parameters of a quadrature channel. -/
def qdCfg (b : Block) (t k : Nat) : QdCfg :=
  let ab := Fld.QD_CFG_IDX_AB b.cfg t k
  { dirInv := Fld.QD_CFG_DIR_INV b.cfg t k, hyst := Fld.QD_CFG_HYST b.cfg t k, idxGate := Fld.QD_CFG_IDX_GATE b.cfg t k
    idxA := bit ab 1, idxB := bit ab 0, zPol := Fld.QD_CFG_Z_POL b.cfg t k, spdWin := 1000 * Fld.QD_SPD_WIN_SPD_WIN b.cfg t k
    stillT := 1000 * Fld.QD_STILL_STILL_T b.cfg t k, illThr := Fld.QD_ILL_ILL_THR b.cfg t k }

/-- The axis a channel is assigned to (R31). -/
def chanSlot (b : Block) (t k : Nat) : Option Nat := if Fld.QD_ASSIGN_EN b.cfg t k then some (Fld.QD_ASSIGN_SLOT b.cfg t k) else none

/-- Channels of a tile on fallback with channel `k` as their source (R244). -/
def fallbackUsers (b : Block) (t src : Nat) : List Nat :=
  (List.range 8).filter fun q => (b.qdAt t q).fb.on && decide (Fld.QD_FB_CFG_FB_SRC b.cfg t q = src)

/-- A feedback fault of a fallback source: the axes on fallback fault (R244). -/
def fallbackLost (now t src : Nat) (b : Block) : Block :=
  forL (fallbackUsers b t src) (fun q x =>
    match chanSlot x t q with
    | some j => axFault now 1 t j x
    | none => x) b

/-- A QD_FAULT bit of a channel has been set at `now` (R238, R240, R242, R244). -/
def chanFault (now t k : Nat) (b : Block) : Block :=
  let b := fallbackLost now t (0x30 + k) b
  match chanSlot b t k with
  | none => b
  | some j =>
    let q := b.qdAt t k
    let comm := decide (slotTy b t j = .n3ph) && decide (Fld.AX_COMM_QCH b.cfg t j = k)
    if !axDisabled b t j && Fld.QD_FB_CFG_FB_EN b.cfg t k && !comm then
      if q.fb.on then b else b.qdUpd t k fun q => { q with fb := { q.fb with due := firstOf q.fb.due now } }
    else axFault now 1 t j b

/-- Position and speed of a fallback source at a sample instant (R240). -/
def fallbackSrc (b : Block) (t src : Nat) : DWord × DWord :=
  if src < 0x38 then ((b.qdAt t (src - 0x30)).posSrc, (b.qdAt t (src - 0x30)).spdSrc)
  else ((b.nxAt t (src - 0xA8)).posL, (b.nxAt t (src - 0xA8)).spdL)

/-- A channel goes on fallback at sample instant `s`; `old` is the position latched before (R240, R243). -/
def fallbackStart (s t k : Nat) (old : DWord) (b : Block) : Block :=
  let q := b.qdAt t k
  if !q.fb.on && before s q.fb.due then
    let b := b.qdUpd t k fun q => { q with fb := { on := true, due := none, posLast := old, posF0 := 0, start := s } }
    match chanSlot b t k with
    | some j => b.sfAxUpd (axNo t j) fun a => { a with graceReg := match a.graceReg with
        | some g => some g
        | none => if a.grace.isSome then none else some (s, 1) }
    | none => b
  else b

/-- What sources read of a channel on fallback at sample instant `s` (R240). -/
def fallbackRead (s t k : Nat) (b : Block) : Block :=
  if (b.qdAt t k).fb.on then
    let (pf, sf) := fallbackSrc b t (Fld.QD_FB_CFG_FB_SRC b.cfg t k)
    let num := sWord (Fld.QD_FB_NUM_VALUE b.cfg t k)
    let den : Int := Fld.QD_FB_DEN_VALUE b.cfg t k
    b.qdUpd t k fun q =>
      let q := if q.fb.start = s then { q with fb := { q.fb with posF0 := pf } } else q
      { q with posSrc := qdFbPos q pf num den, spdSrc := qdFbSpd sf num den }
  else b

/-- Fallback of the channels `ks` at sample instant `s`: a source that is itself on fallback gives what every source of it reads, so the substitution is repeated
until a chain of channels is through. -/
def fallbackAll (s t : Nat) (ks : List Nat) (old b : Block) : Block :=
  let b := forL ks (fun k => fallbackStart s t k (old.qdAt t k).posL) b
  if ks.any fun k => (b.qdAt t k).fb.on then forN 8 (fun _ => forL ks (fallbackRead s t)) b else b

/-- The offset of an index reference has taken effect in channel `k`: in the generators that home on it the position changes with it (R227, R290). -/
def indexShift (s t k : Nat) (b : Block) : Block :=
  forN 16 (fun j x =>
    match (x.genAt t j).hm.ref with
    | some (_, d, true) =>
      if posChan x t j = some k then
        (x.genUpd t j (genIndexRef s (Fld.PG_HOME_ACC_VALUE x.cfg t j))).followUpd t j fun f => { f with pos := f.pos + d }
      else x
    | _ => x) b

/-- A channel is latched at sample instant `s`; an index reference due there takes effect with it (R217, R227). -/
def chanSample (s t k : Nat) (b : Block) : Block :=
  let due := match (b.qdAt t k).pend with
    | some (.index r _ _ _) => decide (r < s)
    | _ => false
  let b := b.qdUpd t k (qdSample (qdCfg b t k) s)
  if due then indexShift s t k b else b

/-- A torque word of freeze detection (R236). -/
def torqueWord (b : Block) (s t j code : Nat) : Int :=
  if code = 1 then (b.natAt t j).meas.iq.toInt
  else if 0x40 ≤ code && code < 0x60 then sat32 ((spValue b s t (code - 0x40)).toInt / 2)
  else if 0x60 ≤ code && code < 0x80 then (b.ctxAt t (code - 0x60)).out.toInt
  else if 0x80 ≤ code && code < 0x90 then (mbOut s (code - 0x80) (b.seqAt t).mb).toInt
  else 0

/-- Freeze detection of a channel at a sample instant of FRZ_GRP (R236). -/
def chanFreeze (s t k : Nat) (b : Block) : Block :=
  let g := Fld.QD_FRZ_CFG_FRZ_GRP b.cfg t k
  let tq := Fld.QD_FRZ_CFG_TQ_SRC b.cfg t k
  match chanSlot b t k with
  | none => b
  | some j =>
    if isSample b s t g && decide (tq ≠ 0) && decide (Fld.QD_FRZ_T_FRZ_T b.cfg t k ≠ 0) then
      let q := b.qdAt t k
      let a := b.sfAxAt (axNo t j)
      let tn := torqueWord b s t j tq - torqueWord b s t j (Fld.QD_FRZ_CFG_LOAD_SRC b.cfg t k)
      let quiet := decide (q.hL ≠ q.frz.hPrev) || decide ((tn.natAbs : Int) ≤ Fld.QD_FRZ_TQ_FRZ_TQ b.cfg t k) || !axEnabled b t j
        || (hasBrake b t j && !a.brkCmd) || q.fb.on
      let b' := b.qdUpd t k (qdFreeze quiet s tn (Fld.QD_FRZ_KA_KA b.cfg t k) (10 * grpPeriod b t g) (1000 * Fld.QD_FRZ_T_FRZ_T b.cfg t k) (Fld.QD_FRZ_CFG_FRZ_CNT b.cfg t k))
      if (b'.qdAt t k).flt.freeze && !q.flt.freeze then chanFault s t k b' else b'
    else b

/-- The latching of every channel in use of a tile at sample instant `s`, then the substitutions of fallback. -/
def chansSample (s t : Nat) (b : Block) : Block :=
  let ks := (List.range 8).filter fun k => Fld.QD_ASSIGN_EN b.cfg t k
  let old := b
  let b := forL ks (chanSample s t) b
  let b := forN 8 (fun i x => if slotTy x t (8 + i) = .networked then nxSample s t (8 + i) x else x) b
  let b := fallbackAll s t ks old b
  forL ks (fun k => chanFreeze s t k) b

/-! ### Pleached groups -/

/-- A feed instant of a group (R295). -/
def isFeed (b : Block) (now g : Nat) : Bool :=
  let p := Fld.GR_PLG_CFG_FEED_P b.cfg g
  Fld.GR_PLG_CFG_EN b.cfg g && decide (p ≠ 0) && decide (((now : Int) - 10 * Fld.GR_PLG_PHASE_PHASE b.cfg g) % (10 * p) = 0)

/-- Every member of a group is IDLE. -/
def plgIdle (b : Block) (g : Nat) : Bool := (plgMembers b g).all fun p => decide ((b.genAt p.1 p.2).st = .idle)

/-- The conditions of a group START at feed instant `f` (R299). -/
def plgStartOk (b : Block) (f g : Nat) : Bool :=
  let p := b.plgAt g
  let ms := plgMembers b g
  decide (p.st = .idle) && p.sealed && decide (p.at_ < f) && !ms.isEmpty && ms.all fun m =>
    let x := b.genAt m.1 m.2
    decide (x.st = .idle) && axEnabled b m.1 m.2 && decide (x.shadow = .sealed) && !(x.uncertain && !x.shadowBank.rel)
      && !(decide (slotTy b m.1 m.2 = .virtual) && commitBars b m.1 m.2)

/-- A member's limit latch is set and its curve velocity points towards that limit (R303). -/
def plgLimited (b : Block) (g : Nat) : Bool :=
  (plgMembers b g).any fun m =>
    let x := b.genAt m.1 m.2
    let v := (runEval x.run).2.toInt
    (x.hm.limPos && decide (0 < v)) || (x.hm.limNeg && decide (v < 0))

/-- One step of F towards a target (R296). -/
def feedStep (f target df : Int) : Int := f + min (max (target - f) (-df)) df

/-- The command that governs a feed instant (R298): the last one due, but nothing replaces a STOP. -/
def plgDue (now : Nat) (l : List (PlgCmd × Nat)) : Option PlgCmd :=
  let due := l.filter fun c => decide (c.2 + 10000 ≤ now)
  match due.find? fun c => decide (c.1 = .stop) with
  | some _ => some .stop
  | none => due.getLast?.map (·.1)

/-- A group's START takes effect: every member is to swap at `now` with one segment clock (R299). -/
def plgBegin (now g : Nat) (b : Block) : Block :=
  let ms := plgMembers b g
  let tau := match ms with
    | m :: _ => (b.genAt m.1 m.2).run.tau
    | [] => 0
  let f : Int := Fld.GR_PLG_FEED_TARGET b.cfg g
  let b := forL ms (fun m x => x.genUpd m.1 m.2 fun y =>
    { y with req := { y.req with start := some (now - 10) }, run := { y.run with tau := tau } }) b
  b.plgUpd g fun p => { p with st := .running, goal := f, f := f, ev := none, evSent := false, lim := none, starving := false }

/-- The state of a group that a command or event gives at feed instant `now`, before F moves (R298, R303 to R305). The flag says that START has set F. -/
def plgTransit (now g : Nat) (b : Block) : Block × Bool :=
  let p := b.plgAt g
  let cmd := plgDue now p.cmds
  let b := b.plgUpd g fun p => { p with cmds := p.cmds.filter fun c => decide (now < c.2 + 10000) }
  let on := decide (p.st = .running) || decide (p.st = .holding) || decide (p.st = .held)
  let dfStop : Int := Fld.GR_PLG_DF_STOP_DF b.cfg g
  let dfFault : Int := Fld.GR_PLG_DF_FAULT_DF b.cfg g
  let gov := some now
  if decide (p.st ≠ .idle) && before now p.ev then
    (b.plgUpd g fun p => { p with st := .stopping, df := dfFault, memberFault := true, ev := none, lim := none, govAt := gov }, false)
  else if decide (cmd = some .stop) && on then
    (b.plgUpd g fun p => { p with st := .stopping, df := dfStop, lim := none, govAt := gov }, false)
  else if on && before now p.lim then
    (b.plgUpd g fun p => { p with st := .holding, df := dfFault, limitHold := true, lim := none, govAt := gov }, false)
  else
    match cmd with
    | some .hold => (if p.st = .running then b.plgUpd g fun p => { p with st := .holding, df := dfStop, govAt := gov } else b, false)
    | some .resume =>
      if decide (p.st = .holding) || decide (p.st = .held) then
        if plgLimited b g then (b.plgUpd g fun p => { p with refused := true }, false)
        else (b.plgUpd g fun p => { p with st := .running, goal := Fld.GR_PLG_FEED_TARGET b.cfg g, lim := none, govAt := gov }, false)
      else (b, false)
    | some (.feed f) => (b.plgUpd g fun p => { p with goal := f, govAt := if on then gov else p.govAt }, false)
    | some .start =>
      if plgStartOk b now g then (plgBegin now g b, true) else (b.plgUpd g fun p => { p with refused := true }, false)
    | _ => (b, false)

/-- A feed instant (R296, R298). Members of a group in STOPPING become IDLE at their sample instant at which F reaches 0 (`genRunning`). -/
def plgFeed (now g : Nat) (b : Block) : Block :=
  let (b, started) := plgTransit now g (b.plgUpd g fun p => { p with fedAt := now, fOld := p.f })
  let p := b.plgAt g
  let b := if started then b
    else match p.st with
      | .running => b.plgUpd g fun p => { p with f := feedStep p.f p.goal (Fld.GR_PLG_DF_RUN_DF b.cfg g) }
      | .holding | .stopping => b.plgUpd g fun p => { p with f := feedStep p.f 0 p.df }
      | .held => b.plgUpd g fun p => { p with f := 0 }
      | .idle => b
  let p := b.plgAt g
  if p.f = 0 then
    match p.st with
    | .holding => b.plgUpd g fun p => { p with st := .held }
    | _ => b
  else b

/-- The end of a group's run (R298, R302): every member IDLE, at the END of its move or after the group's stop; a member that was disabled or stopped leads to
STOPPING first (R304). The group shadow is sealed only while every member's is (R301). -/
def plgAfter (g : Nat) (b : Block) : Block :=
  let p := b.plgAt g
  let ends := decide (p.st = .running) && p.ev.isNone && !p.evSent || decide (p.st = .stopping) && (decide (p.f = 0) || p.starving)
  let b := if p.sealed && !((plgMembers b g).all fun m => decide ((b.genAt m.1 m.2).shadow = .sealed)) then b.plgUpd g fun p => { p with sealed := false } else b
  if ends && plgIdle b g && !((plgMembers b g).any fun m => (b.genAt m.1 m.2).req.start.isSome) then
    b.plgUpd g fun p => { p with st := .idle, f := 0, lim := none, ev := none, evSent := false, starving := false }
  else b

/-! ### Generators -/

/-- State of field channel `c` as a tile reads it at `s`: the latest exchange registered before (R40, R56, R489); one not routed to the tile reads 0. -/
def fieldAt (b : Block) (s t c : Nat) : Bool :=
  let p := tabGet ({} : FPair) b.fp (c / 16)
  bit (Fld.FIO_CH_CFG_ROUTE b.cfg (c / 16) (c % 16)) t && bit (if p.regAt = s then p.levelPrev else p.level) (c % 16)

/-- A limit or home input is active at `s` (R282). -/
def inputActive (b : Block) (s t code : Nat) (pol : Bool) : Bool :=
  if 0x10 ≤ code && code < 0x14 then decide ((b.prbAt t (code - 0x10)).level = pol)
  else if 0x40 ≤ code && code < 0x80 then decide (fieldAt b s t (code - 0x40) = pol)
  else false

/-- The homing reference position of a slot. -/
def homePos (b : Block) (t j : Nat) : DWord := dwOf (Fld.PG_HOME_POS_HI_HOME_POS b.cfg t j) (Fld.PG_HOME_POS_LO_HOME_POS b.cfg t j)

/-- x_ref when the home input is a probe (R289). -/
def probeRef (b : Block) (t j : Nat) : Option DWord :=
  let c := Fld.PG_HOME_CFG_HOME_SRC b.cfg t j
  if 0x10 ≤ c && c < 0x14 then
    let at_ := (b.prbAt t (c - 0x10)).at_.toList
    match posChan b t j with
    | some k => some (at_.getD k 0)
    | none => if slotTy b t j = .pulse then some (at_.getD (4 + j) 0) else none
  else none

/-- The group shadow was sealed strictly before `s`, and no member skips a REL-clear bank with POSITION_UNCERTAIN set: then every member swaps, else none (R262, R302). -/
def plgMaySwap (b : Block) (s g : Nat) : Bool :=
  (b.plgAt g).sealed && decide ((b.plgAt g).at_ < s) &&
    (plgMembers b g).all fun m => !((b.genAt m.1 m.2).uncertain && !(b.genAt m.1 m.2).shadowBank.rel)

/-- What a generator's step depends on at `s`. -/
def genIn (b : Block) (s t j : Nat) : GenIn :=
  let plg := (plgOf b t j).map fun g => b.plgAt g
  { s := s, per := grpPeriod b t (Fld.PG_CFG_GRP b.cfg t j)
    feed := match plg with
      | some p => if p.fedAt = s then p.fOld.toNat else p.f.toNat
      | none => 2 ^ 30
    feedV := match plg with
      | some p => p.f.toNat
      | none => 2 ^ 30
    pulse := decide (slotTy b t j = .pulse)
    grp := (plgOf b t j).map fun g => plgMaySwap b s g
    starve := match plg with
      | some p => decide (p.starveAt = some s)
      | none => false
    rest := match plg with
      | some p => decide (p.st = .stopping) && decide (p.f = 0)
      | none => false
    defer := match plg with
      | some p => decide (p.govAt = some s)
      | none => false
    noLimit := match plg with
      | some p => decide (p.st = .running) || decide (p.st = .holding) || decide (p.st = .held)
      | none => false
    fbDec := Fld.PG_FB_DECEL_DEC b.cfg t j
    limPos := inputActive b s t (Fld.PG_LIM_CFG_LIMP_SRC b.cfg t j) (Fld.PG_LIM_CFG_LIMP_POL b.cfg t j)
    limNeg := inputActive b s t (Fld.PG_LIM_CFG_LIMN_SRC b.cfg t j) (Fld.PG_LIM_CFG_LIMN_POL b.cfg t j)
    home := inputActive b s t (Fld.PG_HOME_CFG_HOME_SRC b.cfg t j) (Fld.PG_HOME_CFG_HOME_POL b.cfg t j)
    chan := (posChan b t j).map fun k => (b.qdAt t k).posSrc
    probeRef := probeRef b t j, mode := Fld.PG_HOME_CFG_MODE b.cfg t j, dirNeg := Fld.PG_HOME_CFG_DIR b.cfg t j
    revOnLim := Fld.PG_HOME_CFG_REV_ON_LIM b.cfg t j, searchV := Fld.PG_HOME_V_VALUE b.cfg t j, creepV := Fld.PG_HOME_CREEP_VALUE b.cfg t j
    homeAcc := Fld.PG_HOME_ACC_VALUE b.cfg t j, relDist := Fld.PG_HOME_REL_VALUE b.cfg t j, idxWin := Fld.PG_HOME_IDXWIN_VALUE b.cfg t j
    homePos := homePos b t j }

/-- A group starves at sample instant `now` of its members (R259, R263, R302): one of them meets the end of its bank with no swap, or a record that is not buffered.
Then every member stops. -/
def plgStarve (now g : Nat) (b : Block) : Block :=
  let p := b.plgAt g
  let meets := (plgMembers b g).any fun m =>
    let x := b.genAt m.1 m.2
    decide (x.st = .running) && tileLive b m.1 && isSample b now m.1 (Fld.PG_CFG_GRP b.cfg m.1 m.2) && x.req.stop.isNone && x.req.down.isNone && x.req.toX.isNone &&
      let ev := (genMove (genIn b now m.1 m.2) true x).2
      decide (ev = .starved) || decide (ev = .late)
  if decide (p.st ≠ .idle) && meets then
    b.plgUpd g fun p =>
      { p with st := .stopping, starved := true, starving := true, starveAt := some now
               df := if p.st = .stopping then p.df else Fld.GR_PLG_DF_STOP_DF b.cfg g }
  else b

/-- Every feed instant due at `now` and the starvation of a group, once. -/
def feedAll (now : Nat) (b : Block) : Block :=
  let b := forN 8 (fun g x => if isFeed x now g then once (100 + g) (plgFeed now g) x else x) b
  forN 8 (fun g x => if Fld.GR_PLG_CFG_EN x.cfg g && decide ((x.plgAt g).st ≠ .idle) then once (110 + g) (plgStarve now g) x else x) b

/-- What a generator's step asks of the rest: channel offset, issued position, immediate stop, its pleached group. -/
def genEffects (s t j : Nat) (o : GenOut) (b : Block) : Block :=
  let b := match o.chan, posChan b t j with
    | some d, some k => b.qdUpd t k fun q => { q with posOfs := q.posOfs + d, posL := q.posL + d, posSrc := q.posSrc + d }
    | _, _ => b
  let b := match o.issued with
    | some d => if slotTy b t j = .pulse then b.pulseUpd t (j - 4) fun p => { p with x := p.x + wrap64 (d.toInt / 65536) } else b
    | none => b
  let b := match plgOf b t j with
    | some g =>
      if o.limit then b.plgUpd g fun p =>
        if decide (p.st = .running) || decide (p.st = .holding) || decide (p.st = .held) then { p with lim := firstOf p.lim s } else p
      else b
    | none => b
  if o.imm then immStop s t j b else b

/-- A generator at its sample instant; entering INDEX arms the channel (R289). -/
def genSample (s t j : Nat) (b : Block) : Block :=
  let g0 := b.genAt t j
  let (g, o) := genStep (genIn b s t j) g0
  let b := genEffects s t j o (genEnd t j (fun _ => genRequest s g) b)
  if decide (g.hm.st = .index) && decide (g0.hm.st ≠ .index) then
    match posChan b t j with
    | some k => b.qdUpd t k (qdIdxArm s (homePos b t j))
    | none => b
  else b

/-! ### Followers -/

/-- The newest value of a remote master's slot that is at most `x` old enough (R308): position, velocity, instant. -/
def remoteAt (f : Follow) (x : Nat) : DWord × DWord × Nat := if f.at_ ≤ x then (f.pos, f.vel, f.at_) else (f.posP, f.velP, f.atP)

/-- A value of remote master `x` arrives at the follower's tile (R308): one not newer changes nothing. -/
def xmArrive (t x : Nat) (v : DWord × DWord × Nat) (b : Block) : Block :=
  b.xmUpd t x fun m =>
    if m.at_ < v.2.2 then { pos := v.1, vel := v.2.1, at_ := v.2.2, posP := m.pos, velP := m.vel, atP := m.at_ } else m

/-- A remote master's latest value is sent to the tile (R308). -/
def xmDeliver (x t : Nat) (lim : Option Nat) (b : Block) : Block :=
  let f := b.followAt (Fld.GR_XM_TILE b.cfg t x) (Fld.GR_XM_SLOT b.cfg t x)
  if Fld.GR_XM_EN b.cfg t x then
    xmArrive t x (match lim with
      | some y => remoteAt f y
      | none => (f.pos, f.vel, f.at_)) b
  else b

/-- The master of a follower at `s`: position, velocity, and whether it is lost (R307, R308, R313). -/
def masterAt (b : Block) (s t j : Nat) : Int × Int × Bool :=
  let m := Fld.GR_FOLLOW_MASTER b.cfg t j
  let n := m % 16
  if 0x10 ≤ m && m < 0x20 then ((b.followAt t n).pos.toInt, (b.followAt t n).vel.toInt, faultRuns b t n)
  else if 0x30 ≤ m && m < 0x38 then
    let q := b.qdAt t n
    (q.posSrc.toInt, q.spdSrc.toInt, (q.flt.illegal || q.flt.rx || q.flt.freeze) && !q.fb.on)
  else if 0xA8 ≤ m && m < 0xB0 then ((b.nxAt t (n - 8)).posL.toInt, (b.nxAt t (n - 8)).spdL.toInt, nxLost b t n)
  else
    let x := b.xmAt t (n % 8)
    let (p, v, a) := if x.at_ + 1000 ≤ s then (x.pos, x.vel, x.at_) else (x.posP, x.velP, x.atP)
    (p.toInt + floorDiv (v.toInt * ((s : Int) - a)) (65536 * 1000000000), v.toInt,
     faultRuns b (Fld.GR_XM_TILE b.cfg t (n % 8)) (Fld.GR_XM_SLOT b.cfg t (n % 8)))

/-- The number of points of a cam and the window of the buffer (R318): interval `i` and its end lie in it. -/
def camBuffered (k : Cam) (n i : Nat) : Bool := decide (n ≤ 32) || decide ((i + n - k.lo % n) % n + 1 < 32)

/-- A window of 32 points with interval `i`, ahead in the direction of travel. -/
def camWindow (n i : Nat) (back periodic : Bool) (k : Cam) : Cam :=
  let lo := if back then (if periodic then (i + 2 + n - 32 % n) % n else i - 30) else i
  let lo := if periodic then lo else min lo (n - 32)
  { k with lo := lo }

/-- The points that the unit has asked for arrive (R318). -/
def camFetch (t j : Nat) (b : Block) : Block :=
  let tab := camOf b t j
  let n := tab.pts.length
  let f := b.followAt t j
  match camFind tab.pts 0 f.cam.xPrev with
  | some (i, _, _) => b.followUpd t j fun f => { f with cam := camWindow n i (decide (f.velP.toInt < 0)) tab.periodic f.cam }
  | none => b

/-- A cam at a boundary of its master's motion (R317): cycle change, BREAK crossed, RESELECT registered before `s`. -/
def camBoundary (tab : CamTab) (k : Cam) (s : Nat) (x : Int) : Bool :=
  let (cyc, a) := camArg tab x
  before s k.reselect || decide (cyc ≠ k.cyc) || camBreak tab k.xPrev a

/-- One sample instant of a follower unit with its master (R306 to R318). The flag says that the loss of the master is a fault. -/
def followStep (b : Block) (s t j : Nat) : Follow × Bool :=
  let f := b.followAt t j
  let g := b.genAt t j
  let per := max 1 (grpPeriod b t (Fld.PG_CFG_GRP b.cfg t j))
  let cam := decide (Fld.GR_FOLLOW_MODE b.cfg t j = 2)
  let (m, vm, lost) := masterAt b s t j
  let m0 := (dwOf (Fld.GR_CAM_M0_HI_M0 b.cfg t j) (Fld.GR_CAM_M0_LO_M0 b.cfg t j)).toInt
  let num := sWord (Fld.GR_GEAR_NUM_VALUE b.cfg t j)
  let den : Int := max 1 (Fld.GR_GEAR_DEN_VALUE b.cfg t j)
  let eng := (dwOf (Fld.GR_ENG_POS_HI_VALUE b.cfg t j) (Fld.GR_ENG_POS_LO_VALUE b.cfg t j)).toInt
  let dis := (dwOf (Fld.GR_DIS_POS_HI_VALUE b.cfg t j) (Fld.GR_DIS_POS_LO_VALUE b.cfg t j)).toInt
  let tab := if cam then camOf b t j else {}
  let c := fun (x : Int) => if cam then ((camEval tab (x - m0) vm).map fun r => (r.2.1, r.2.2)).getD (0, 0)
    else (floorDiv (x * num) den, floorDiv (vm * num) den)
  let active := decide (f.cl.st ≠ .disengaged)
  let ev := camEval tab (m - m0) vm
  let late := match ev with
    | some (i, _, _) => !camBuffered f.cam tab.pts.length i || camBad b t j i
    | none => false
  let bound := cam && f.cam.active.isSome && decide (f.cam.shadow = .sealed) && decide (f.cam.sealedAt < s) && camBoundary tab f.cam s (m - m0)
  -- a boundary with a sealed shadow swaps and does not starve (R152, R153)
  let starves := cam && active && (late || ev.isNone) && !bound
  let i : ClIn :=
    { s := s, m := m, vm := vm, c := (c m).1, cv := (c m).2, gear := !cam, num := num, den := den
      engMode := Fld.GR_CLUTCH_CFG_ENG_MODE b.cfg t j, disMode := Fld.GR_CLUTCH_CFG_DIS_MODE b.cfg t j
      n := max 1 (Fld.GR_CLUTCH_T_ENG_T b.cfg t j * 100000 / per), d := (Fld.GR_CLUTCH_D_D b.cfg t j : Int) * 65536
      engPos := eng, disPos := dis, cEng := (c eng).1, cDis := (c dis).1 }
  let k := if starves then { f.cl with st := .disengaged, oh := f.cl.o, ov := 0, req := none, pending := false, mPrev := m, cPrev := i.c }
    else if bound && ev.isNone && active then { f.cl with mPrev := m }
    else clStep i f.cl
  let cs : Cam := { f.cam with late := f.cam.late || (starves && late), starved := f.cam.starved || starves }
  -- R317: the swap, with the offset re-based on the new bank
  let swap := bound
  let cs := if before s cs.reselect then { cs with reselect := none } else cs
  let cs := if swap then { cs with active := cs.active.map (1 - ·), shadow := .empty, swaps := satAdd 65535 cs.swaps 1 } else cs
  let tab' := if swap then parseCam (bankBytes b.mem (camBank b t j (cs.active.getD 0))) else tab
  let ev' := camEval tab' (m - m0) vm
  let cs := if swap then (match ev' with
      | some (i, _, _) => camWindow tab'.pts.length i (decide (vm < 0)) tab'.periodic cs
      | none => cs) else cs
  let c' := (ev'.map fun r => r.2.1).getD 0
  let k := if swap then { k with oh := k.o, mr := m, cr := c', cPrev := c' } else k
  let (cyc, a) := camArg tab' (m - m0)
  ({ f with cl := { k with masterLost := k.masterLost || (active && lost) }, cam := { cs with cyc := cyc, xPrev := a }
            pos := wrap64 (satS 64 (g.pos.toInt + k.o)), vel := wrap64 (satS 64 (g.vel.toInt + k.ov))
            posP := f.pos, velP := f.vel, at_ := s, atP := f.at_ }, active && lost)

/-- The source values of a slot at its generator's sample instant (R247, R306). -/
def followSample (s t j : Nat) (b : Block) : Block :=
  if Fld.GR_FOLLOW_MODE b.cfg t j = 0 then
    let g := b.genAt t j
    b.followUpd t j fun f => { f with pos := g.pos, vel := g.vel, at_ := s, posP := f.pos, velP := f.vel, atP := f.at_ }
  else
    let m := Fld.GR_FOLLOW_MASTER b.cfg t j
    let b := if 0xC0 ≤ m then xmDeliver (m - 0xC0) t (some (s - 1000)) b else b
    let (f, lost) := followStep b s t j
    let b := b.followUpd t j fun _ => f
    if lost then axFault s 1 t j b else b

/-! ### Compares (R319 to R322) -/

/-- The directions a compare counts. -/
def cmpDirOf (b : Block) (t c : Nat) : CmpDir :=
  match Fld.GR_CMP_CFG_DIR b.cfg t c with
  | 2 => .neg
  | 3 => .either
  | _ => .pos

/-- What a compare does on its land. -/
def cmpOutOf (b : Block) (t c : Nat) : CmpOut :=
  match Fld.GR_CMP_CFG_OUT b.cfg t c with
  | 1 => .toggle
  | 2 => .set_
  | _ => .pulse

/-- A firing is reported to the acquisition unit and to the CAPTURE units of its compare (R375, R460). -/
def cmpReport (now t c : Nat) (b : Block) : Block :=
  let us := (List.range 32).filter fun u => let x := b.teAt u; x.armed && decide (x.mode = 2) && decide (x.tile = t) && decide (x.cmp = c)
  let b := acqEvent now t c b
  { b with nt := { b.nt with fly := b.nt.fly ++ us.map fun u => (u, (b.cmpAt t c).ts) } }

/-- A compare sees a position on a count or pulse registered at `now`; a firing changes the land at the next tick (R319). -/
def cmpCount (now t c : Nat) (x : Int) (ts : Nat) (b : Block) : Block :=
  let (k, fired) := cmpSee (cmpDirOf b t c) x ts (b.cmpAt t c)
  let b := b.cmpUpd t c fun _ => if fired then { k with act := some (now + 10) } else k
  if fired then cmpReport now t c b else b

/-- The land action of a firing on a count or pulse (R319). -/
def cmpActDue (now t c : Nat) (b : Block) : Block :=
  let o := cmpOutOf b t c
  let w := Fld.GR_CMP_WIDTH_WIDTH b.cfg t c
  b.cmpUpd t c fun k =>
    match k.act with
    | some a => if a ≤ now then { cmpLand o w now k with act := none } else k
    | none => k

/-- A compare at a sample instant of its group: a sample-instant source, and FIRE_IF_PASSED (R319, R321). -/
def cmpSample (s t c : Nat) (b : Block) : Block :=
  if Fld.GR_CMP_CFG_EN b.cfg t c && isSample b s t (Fld.GR_CMP_CFG_GRP b.cfg t c) then
    let d := cmpDirOf b t c
    let o := cmpOutOf b t c
    let w := Fld.GR_CMP_WIDTH_WIDTH b.cfg t c
    let j := Fld.GR_CMP_CFG_SLOT b.cfg t c
    let (k, p) := cmpPassed d s (b.cmpAt t c)
    let (k, q) := if decide (Fld.GR_CMP_CFG_SRC b.cfg t c = 0) && decide (slotTy b t j ≠ .pulse) then cmpSee d (b.followAt t j).pos.toInt s k else (k, false)
    let b := b.cmpUpd t c fun _ => if p || q then cmpLand o w s k else k
    if p || q then cmpReport s t c b else b
  else b

/-- The compares of a channel see a count (R319). -/
def cmpChannel (now t k ts : Nat) (b : Block) : Block :=
  forN 4 (fun c x => if Fld.GR_CMP_CFG_EN x.cfg t c && decide (Fld.GR_CMP_CFG_SRC x.cfg t c = 0x30 + k) then
      cmpCount now t c (qdPos (x.qdAt t k) (x.qdAt t k).h).toInt ts x else x) b

/-- The compares of a pulse slot see an issued pulse (R319). -/
def cmpPulse (now t j : Nat) (b : Block) : Block :=
  forN 4 (fun c x => if Fld.GR_CMP_CFG_EN x.cfg t c && decide (Fld.GR_CMP_CFG_SRC x.cfg t c = 0) && decide (Fld.GR_CMP_CFG_SLOT x.cfg t c = j) then
      cmpCount now t c ((x.pulseAt t (j - 4)).x.toInt * 65536) now x else x) b

/-- The present position of a compare at an ARM registered at `now`: from the counts or pulses registered before that tick, or the value last latched (R321). -/
def cmpPresent (b : Block) (now t c : Nat) : Int :=
  let src := Fld.GR_CMP_CFG_SRC b.cfg t c
  let j := Fld.GR_CMP_CFG_SLOT b.cfg t c
  if 0x30 ≤ src then
    let q := b.qdAt t (src - 0x30)
    (qdPos q (if q.lastReg = now then q.hPre else q.h)).toInt
  else if slotTy b t j = .pulse then (pulseXAt (now - 1) (b.pulseAt t (j - 4))).toInt * 65536
  else (b.followAt t j).pos.toInt

/-- Where the compare stands after the counts or pulses of the ARM's own tick, and the timestamp of the last of them, if there are any. -/
def cmpSince (b : Block) (now t c : Nat) : Option (Int × Nat) :=
  let src := Fld.GR_CMP_CFG_SRC b.cfg t c
  let j := Fld.GR_CMP_CFG_SLOT b.cfg t c
  if 0x30 ≤ src then
    let q := b.qdAt t (src - 0x30)
    if q.lastReg = now then q.recent.head?.map fun r => ((qdPos q q.h).toInt, r.ts) else none
  else if slotTy b t j = .pulse then
    let p := b.pulseAt t (j - 4)
    match p.recent.head? with
    | some r => if r.1 = now then some (p.x.toInt * 65536, now) else none
    | none => none
  else none

/-- ARM (R321): counts and pulses of its own tick come after it. -/
def cmpArmOp (now t c : Nat) (b : Block) : Block :=
  let x := cmpPresent b now t c
  let pos := (dwOf (Fld.GR_CMP_POS_HI_VALUE b.cfg t c) (Fld.GR_CMP_POS_LO_VALUE b.cfg t c)).toInt
  let pitch := (dwOf (Fld.GR_CMP_PITCH_HI_VALUE b.cfg t c) (Fld.GR_CMP_PITCH_LO_VALUE b.cfg t c)).toInt
  if Fld.GR_CMP_CFG_EN b.cfg t c then
    let b' := b.cmpUpd t c (cmpArm now (cmpDirOf b t c) (Fld.GR_CMP_CFG_FIRE_IF_PASSED b.cfg t c) x pos pitch (Fld.GR_CMP_COUNT_COUNT b.cfg t c))
    match cmpSince b now t c with
    | some (y, ts) => cmpCount now t c y ts b'
    | none => b'
  else b

/-! ### Everything a tile latches -/

/-- Slots of a tile whose generator is clocked by a group due at `s`. -/
def gensDue (b : Block) (s t : Nat) : List Nat := (List.range 16).filter fun j => hasGen b t j && isSample b s t (Fld.PG_CFG_GRP b.cfg t j)

/-- A requested mode of a disabled axis becomes active at a sample instant of its alternatives (R169). DESIGN CHOICE: an armed request waits for its tick T on a
disabled axis too (log 55). -/
def modeSample (s t j : Nat) (b : Block) : Block :=
  match altsOf b t j with
  | [] => b
  | c :: _ =>
    if isSample b s t (Fld.CE_LOOP_ALLOC_GROUP b.cfg t c) && !ctxEnabled b t j then
      b.modeUpd t j fun m =>
        match modeTaken s m with
        | some r => { m with active := r.mode, req := none }
        | none => m
    else b

/-- The inputs of a tile at sample instant `s` (R56, R75 step 3): channels, enables, generators, followers, compares. -/
def latchTile (s t : Nat) (b : Block) : Block :=
  let b := chansSample s t (feedAll s b)
  let b := forN 4 (fun j => natGate s t j) b
  let js := gensDue b s t
  let b := forL (js.filter fun j => decide (slotTy b t j = .pulse)) (fun j => pulseState s t j) b
  let b := forL js (fun j => genSample s t j) b
  let b := forL (js.filter fun j => decide (Fld.GR_FOLLOW_MODE b.cfg t j = 0)) (fun j => followSample s t j) b
  let b := forL (js.filter fun j => decide (Fld.GR_FOLLOW_MODE b.cfg t j ≠ 0)) (fun j => followSample s t j) b
  let b := forL (js.filter fun j => decide (slotTy b t j = .pulse)) (fun j x => x.pulseUpd t (j - 4) (pulseLevel x t j)) b
  let b := forN 4 (fun c => cmpSample s t c) b
  forN 16 (fun j => modeSample s t j) b

end Sys2Proof.Machine
end

