-- ==== Sys2Proof/Machine/Tile.lean ====
section
/-! DEFINITION. Rate groups: the frame from its sample instant through its completion to its apply instant (R55 to R60, R71 to R75, R168). -/

namespace Sys2Proof.Machine

/-! ### The sample instant -/

/-- The native axes in use whose current loops a group holds, with their d and q contexts (R191). -/
def natsIn (b : Block) (t g : Nat) : List (Nat × Nat × Nat) :=
  (List.range 4).filterMap fun j =>
    if isNative b t j && decide (curGroup b t j = g) then
      match curCtx b t j 1, curCtx b t j 2 with
      | some d, some q => some (j, d, q)
      | _, _ => none
    else none

/-- The results of a group's native current blocks and of their contexts. -/
def natResults (b : Block) (s t g : Nat) : List (NatRes × List CtxRes) := (natsIn b t g).map fun n => natFrame b s t n.1 n.2.1 n.2.2

/-- The results of every context of a group, in ascending context number (R122). -/
def ctxResults (b : Block) (s t g : Nat) (nats : List CtxRes) : List CtxRes :=
  (ctxsIn b t g).foldl (fun done c =>
    if Fld.CE_LOOP_ALLOC_KIND b.cfg t c = 0 then done ++ [ctxFrame b s t c done] else done) nats

/-- Hand-overs that the frame performs (R164, R168): slots of enabled axes whose alternatives lie in the group. -/
def handOvers (b : Block) (s t g : Nat) : List (Nat × Nat) :=
  (List.range 16).filterMap fun j =>
    if ctxEnabled b t j && (altsOf b t j).any fun c => decide (Fld.CE_LOOP_ALLOC_GROUP b.cfg t c = g) then
      (modeTaken s (b.modeAt t j)).map fun r => (j, r.mode)
    else none

/-- pos_next of a follower (R306): its source position at the sample instant plus its source velocity times the period of `ns` ns, truncated. -/
def followNext (f : Follow) (ns : Nat) : DWord := wrap64 (f.pos.toInt + floorDiv (f.vel.toInt * ns) (65536 * 1000000000))

/-- The positions that the pulse axes of a group are to reach one period after `s` (R275, R306), and what their words are formed with. -/
def pulseGoals (b : Block) (s t g : Nat) : List PulseGoal :=
  (List.range 4).filterMap fun i =>
    let j := 4 + i
    if hasGen b t j && decide (slotTy b t j = .pulse) && decide (Fld.PG_CFG_GRP b.cfg t j = g) then
      let x := b.genAt t j
      let per := grpPeriod b t g
      let next := if Fld.GR_FOLLOW_MODE b.cfg t j = 0 then genPeek (genIn b (s + 10 * per) t j) x else followNext (b.followAt t j) (10 * per)
      some { slot := j, pos := next - x.hm.ofs, per := per, cfg := pulseCfg b t j }
    else none

/-- The apply offset of a group in ticks (R57). -/
def applyOfs (b : Block) (t g : Nat) : Nat := Fld.TL_GRP_APPLY_APPLY b.cfg t g

/-- The frame of a group sampled at `s` (R56): what its computation will yield. -/
def frameOf (b : Block) (s t g : Nat) : Frame :=
  let ns := natResults b s t g
  let cs := ctxResults b s t g (ns.flatMap (·.2))
  { sample := s, apply := s + 10 * applyOfs b t g, ctxs := cs, nats := ns.map (·.1), pulses := pulseGoals b s t g, modes := handOvers b s t g }

/-- The suspension of a tile at the first sample instant of its fastest group after acceptance (R605). -/
def stSuspend (now t : Nat) (b : Block) : Block :=
  let st := b.hl.st
  if decide (st.st = .accepted) && decide (st.target = t) && decide (st.accAt < now) then
    match fastGroup b t with
    | some g => if isSample b now t g then { b with hl := { b.hl with st := { st with st := .saving, tile := some t } } } else b
    | none => b
  else b

/-- The frames of a restored tile resume at `now` (R606). -/
def stResumes (now t : Nat) (b : Block) : Bool :=
  decide (b.hl.st.resume = some t) && ((fastGroup b t).elim true fun g => isSample b now t g)

/-- The frames of a restored tile resume when they are due (R606). -/
def stResume (now t : Nat) (b : Block) : Block := if stResumes now t b then { b with hl := { b.hl with st := { b.hl.st with resume := none } } } else b

/-- A sample instant of a group (R55, R56): the tile latches its inputs once for all groups due, and the frame begins. -/
def sampleGroup (s t g : Nat) (b : Block) : Block :=
  let b := stSuspend s t b
  if tileLive b t && isSample b s t g && decide ((b.grpAt t g).lastSample ≠ some s) then
    let b := once (1000 + t) (latchTile s t) b
    let fr := frameOf b s t g
    (b.grpUpd t g fun x => { x with lastSample := some s, frames := x.frames ++ [fr] }).seqUpd t (sqEvent g s)
  else b

/-! ### Completion -/

/-- A context's record after a completed frame: flags of the present that a reader has not cleared stay, a ramp armed after the sample stays armed. -/
def ctxMerge (r : CtxRes) (cur : Ctx) : Ctx :=
  { r.rec_ with out := cur.out, sat := cur.sat || r.rec_.sat, limSeen := cur.limSeen || r.rec_.limSeen
                rampArmed := r.rec_.rampArmed || (cur.rampArmed && !r.armed0) }

/-- A schedule's record after a completed frame sampled at `s`; commands registered since then stand (R157 to R159). -/
def schedMerge (s : Nat) (r cur : Sched) : Sched :=
  if cur.active.isSome && r.active.isSome && decide (r.active ≠ cur.active) then
    { r with shadow := .empty, shadowBank := {}, sealErr := cur.sealErr, reselect := none }
  else
    { r with active := cur.active, bank := if cur.active.isSome && r.active.isNone then cur.bank else r.bank
             shadow := cur.shadow, shadowBank := cur.shadowBank, sealedAt := cur.sealedAt, swaps := cur.swaps, sealErr := cur.sealErr
             reselect := if before s cur.reselect then none else cur.reselect }

/-- One context's results come into force in the engine. -/
def ctxCommit (s t : Nat) (r : CtxRes) (b : Block) : Block :=
  let b := b.ctxUpd t r.ctx (ctxMerge r)
  let b := forL r.secs (fun p x => x.secUpd t p.1 fun y => { p.2 with sat := y.sat || p.2.sat }) b
  match r.sched with
  | some (k, x) => b.schedUpd t k (schedMerge s x)
  | none => b

/-- The current sum of a completed frame (R179): the run of frames above SUM_LIM. -/
def sumCount (r : NatRes) (tr : Trips) : Trips :=
  { tr with sum_ := r.sum, sumRun := if r.sumOver then tr.sumRun + 1 else 0 }

/-- A native axis's measurements of a completed frame; duties are loaded at the apply instant. -/
def natCommit (t : Nat) (r : NatRes) (b : Block) : Block :=
  b.natUpd t r.slot fun a =>
    let m := a.meas
    { a with meas := { r.meas with loaded := m.loaded, loadedAt := m.loadedAt, duty := m.duty, hPrev := m.hPrev, dt := m.dt, minPulse := m.minPulse }
             trips := sumCount r a.trips, step := r.step }

/-- A hand-over has completed (R168): a later request for the mode now active does nothing. -/
def modeCommit (s t : Nat) (m : Nat × Nat) (b : Block) : Block :=
  b.modeUpd t m.1 fun x =>
    { x with active := m.2
             req := match x.req with
               | some r => if s < r.from_ && decide (r.mode ≠ m.2) then some r else none
               | none => none }

/-- FRAME_COMPLETE at `now` (R57, R71): the oldest frame of the group that has not completed. -/
def completeFrame (now t g : Nat) (b : Block) : Block :=
  match (b.grpAt t g).frames.find? fun f => f.done.isNone with
  | some f =>
    if f.sample < now then
      let b := forL f.ctxs (fun r => ctxCommit f.sample t r) b
      let b := forL f.nats (fun r => natCommit t r) b
      let b := forL f.modes (fun m => modeCommit f.sample t m) b
      b.grpUpd t g fun x => { x with frames := x.frames.map fun y => if y.sample = f.sample then { y with done := some now } else y }
    else b
  | none => b

/-! ### The apply instant -/

/-- The CTRL bits of a networked slot's set-point (R325 to R327). -/
def nxCtrl (st : NxSt) : Nat :=
  match st with
  | .enabling | .enabled => 1
  | .faultStop => 2
  | _ => 0

/-- The set-point of a networked slot at an apply instant of its context (R46, R47, R326 to R328, R428), with the parameters of its frame (R76). -/
def nxEmit (b : Block) (t j sample : Nat) (p : NxPar) (w : Word) : NxRec :=
  let st := (b.nxAt t (j - 8)).st
  let u : Word :=
    match st with
    | .faultStop => BitVec.ofNat 32 (Fld.GR_NX_FAULT_SP_VALUE b.cfg t (j - 8))
    | .enabled => w
    | _ => 0
  { apply := sample + 10 * p.lead
    value := nxValue u p.spk p.oexp p.spsh
    ctrl := nxCtrl st }

/-- The word of a context's frame, or the one it repeats, reaches the destination of that frame (R76, R138). -/
def ctxDest (now sample t : Nat) (r : CtxRes) (w : Word) (b : Block) : Block :=
  let d := r.dst
  if 0x10 ≤ d && d < 0x14 then b.natUpd t (d - 0x10) fun a => if a.hold.isSome then a else { a with qref := w }
  else if 0x14 ≤ d && d < 0x18 then b.natUpd t (d - 0x14) fun a => if a.hold.isSome then a else { a with dref := w }
  else if 0x38 ≤ d && d < 0x40 then
    b.blnxUpd (8 * t + (d - 0x38)) fun x => { x with fly := x.fly ++ [(now, nxEmit b t (d - 0x30) sample r.nx w)] }
  else if 0x40 ≤ d && d < 0x50 then
    b.seqUpd t fun s => { s with mb := { s.mb with inW := vset s.mb.inW (Fin.ofNat 16 (d - 0x40)) w } }
  else b

/-- The words a context has applied, newest first, as far back as R59 looks. -/
def histPush (now : Nat) (w : Word) (l : List (Nat × Word)) : List (Nat × Word) :=
  let l := l.filter fun e => decide (e.1 ≠ now)
  let keep := (l.filter fun e => decide (now < e.1 + 2000)) ++ (l.filter fun e => decide (e.1 + 2000 ≤ now)).take 1
  (now, w) :: keep

/-- One context's word is applied (R57, R136, R163). -/
def ctxApply (now sample t : Nat) (r : CtxRes) (b : Block) : Block :=
  let b := (b.ctxUpd t r.ctx fun x => { x with out := r.out }).histUpd t r.ctx (histPush now r.out)
  if r.emits then ctxDest now sample t r r.out b else b

/-- Compare values of a native axis are loaded (R57, R187). -/
def natLoad (now t : Nat) (r : NatRes) (b : Block) : Block :=
  b.natUpd t r.slot fun a => { a with meas := { a.meas with loaded := r.duties, loadedAt := now } }

/-- The velocity word of a pulse axis is formed and applied (R275, R276); a word computed before an immediate stop is not. -/
def pulseApply (sample t : Nat) (p : PulseGoal) (b : Block) : Block :=
  b.pulseUpd t (p.slot - 4) fun x =>
    if sample ≤ x.haltAt && decide (x.haltAt ≠ 0) || decide (x.st ≠ .enabled) then x
    else
      let (w, lim) := pulseWord p.cfg x p.pos 0 x.a p.per
      { x with w := w, rateLimit := x.rateLimit || lim }

/-- The owner tiles of a field pair (R38). -/
def ownersOf (b : Block) (m : Nat) : List Nat :=
  match b.run.tileSet with
  | 2 => [m / 2]
  | 4 => [m]
  | 8 => [2 * m, 2 * m + 1]
  | _ => []

/-- The pairs owned by a tile count its alive advance (R494). -/
def tileAlive (t : Nat) (b : Block) : Block :=
  forN 4 (fun m x =>
    let own := ownersOf x m
    if own.contains t then
      x.fpUpd m fun p =>
        match own with
        | [_, u] =>
          let a := p.ownA || decide (t ≠ u)
          let c := p.ownB || decide (t = u)
          if a && c then { p with alive := (p.alive + 1) % 256, ownA := false, ownB := false } else { p with ownA := a, ownB := c }
        | _ => { p with alive := (p.alive + 1) % 256 }
    else x) b

/-- The tile that an OUT channel is assigned to (R486). -/
def outTile (b : Block) (m k : Nat) : Option Nat :=
  match ownersOf b m with
  | [u] => some u
  | [u, v] => some (if Fld.FIO_CH_CFG_OWNER b.cfg m k then v else u)
  | _ => none

/-- The commands of mailbox-sourced outputs leave the tile at an apply instant of their group (R484, R485). -/
def fieldSend (now t g : Nat) (b : Block) : Block :=
  forN 4 (fun m x => x.fpUpd m fun p =>
    let ks := (List.range 16).filter fun k => decide (Fld.FIO_CH_CFG_FUNC b.cfg m k = 3) && decide (0x80 ≤ Fld.FIO_CH_CFG_SRC b.cfg m k) && decide (outTile b m k = some t)
      && decide (Fld.FIO_CH_CFG_GRP b.cfg m k = g)
    { p with fly := p.fly ++ ks.map fun k =>
        { ch := k, level := bit (mbOut now (Fld.FIO_CH_CFG_SRC b.cfg m k % 16) (b.seqAt t).mb).toNat (Fld.FIO_CH_CFG_BIT b.cfg m k), tile := t, at_ := now } }) b

/-- The context emits its output: no alternative, or the active one (R163). -/
def ctxEmits (b : Block) (t c : Nat) : Bool :=
  !alternative b t c || decide (Fld.CE_LOOP_OUT_MODE b.cfg t c = (b.modeAt t (Fld.CE_LOOP_ALLOC_SLOT b.cfg t c)).active)

/-- The repeated set-points of a frame that missed (R72): the previous value, stamped with this frame's apply time. -/
def nxRepeat (now t : Nat) (f : Frame) (b : Block) : Block :=
  forL f.ctxs (fun r x =>
    if 0x38 ≤ r.dst && r.dst < 0x40 && ctxEmits x t r.ctx then ctxDest now f.sample t r (x.ctxAt t r.ctx).out x else x) b

/-- An apply instant of a group (R57, R71 to R75): the frame due at `now`. -/
def applyGroup (now t g : Nat) (b : Block) : Block :=
  match (b.grpAt t g).frames.find? fun f => decide (f.apply = now) with
  | some f =>
    if tileOn b t then
      let b := (b.grpUpd t g fun x => { x with frames := x.frames.filter fun y => decide (y.apply ≠ now) }).seqUpd t (sqEvent (4 + g) now)
      match f.done with
      | some d =>
        if d < now then
          let b := forL f.ctxs (fun r => ctxApply now f.sample t r) b
          let b := forL f.nats (fun r => natLoad now t r) b
          let b := forL f.pulses (fun p => pulseApply f.sample t p) b
          let b := fieldSend now t g (b.grpUpd t g (grpSlack now d))
          if fastGroup b t = some g && tileLive b t then tileAlive t b else b
        else nxRepeat now t f (grpMiss now t g b)
      | none => nxRepeat now t f (grpMiss now t g b)
    else b
  | none => b

end Sys2Proof.Machine
end

