-- ==== Sys2Proof/Machine/AcquisitionRows.lean ====
section
/-! DEFINITION. Commands of the acquisition units and of the hub's acquisition block (chapter 10). -/

namespace Sys2Proof.Machine

/-! ### Rows -/

/-- The value of an acquisition source at instant `s`, and whether it is 64 bit wide (R366). -/
def aqVal (b : Block) (s t code : Nat) : DWord × Bool :=
  let n := code % 16
  let w32 := fun (w : Word) => ((w.setWidth 64 : DWord), false)
  let field := fun (lo : Nat) => w32 (BitVec.ofNat 32 (bitsOf 32 fun c => fieldAt b s t (lo + c)))
  match code / 16 with
  | 1 => ((b.followAt t n).pos, true)
  | 2 => ((b.followAt t n).vel, true)
  | 3 => if n < 8 then ((b.qdAt t n).posSrc, true) else ((b.qdAt t (n - 8)).spdSrc, true)
  | 4 | 5 => (spValue b s t (code - 0x40), true)
  | 6 | 7 => w32 (b.ctxAt t (code - 0x60)).out
  | 8 => w32 (mbOut s n (b.seqAt t).mb)
  | 9 => if n < 8 && Fld.CE_XIN_EN b.cfg t n then w32 (histAt (b.histAt (Fld.CE_XIN_TILE b.cfg t n) (Fld.CE_XIN_CTX b.cfg t n)) (s - 1000)) else w32 0
  | 10 => ((b.nxAt t (n - 8)).posL, true)
  | 11 => ((b.nxAt t (n - 8)).spdL, true)
  | 13 =>
    let m := (b.natAt t (n % 4)).meas
    match n / 4 with
    | 0 => w32 m.id
    | 1 => w32 m.iq
    | 2 => w32 m.vbus
    | _ => w32 m.angle
  | 14 =>
    if n = 0 then field 0
    else if n = 1 then field 32
    else if n < 8 then w32 (BitVec.ofNat 32 (b.grpAt t (n - 4)).lastSlack)
    else ((b.pulseAt t (n - 8)).x, true)
  | _ => w32 0

/-- The words of a row at instant `s` (R365, R367). -/
def aqRowOf (b : Block) (s t : Nat) : List Word :=
  let u := b.aqAt t
  (aqUsed u).flatMap fun c =>
    let (src, wide, half) := aqCh u c
    let (v, w64) := aqVal b s t src
    aqPut w64 v wide half

/-- The row due at a sample instant of the unit's group (R365); its firing goes to the hub if the tile is in the armed set (R380). -/
def aqRowAt (now t : Nat) (b : Block) : Block :=
  let u := b.aqAt t
  if isSample b now t (aqGrp u) then
    let (u', fire) := aqSampleAt now (aqRowOf b now t) u
    let b := b.aqUpd t fun _ => u'
    match fire with
    | some f => if bit b.aqHub.set t then { b with aqHub := { b.aqHub with fires := b.aqHub.fires ++ [(f, t)] } } else b
    | none => b
  else b

/-- ACQ_ROW (R365). -/
def execAcqRow (t : Fin 8) (s : State) : Host.Outcome State Fault Refusal := onTile t (fun now => aqRowAt now t) s

/-! ### Writes to the memory stack -/

/-- The byte address of block `k` of a slot: 0 the descriptor, the data ring above it (R369, R372, R387). -/
def aqBlockAddr (b : Block) (t slot k : Nat) : Option Nat :=
  (partOf b 4 t).map fun p => p.base * 65536 + (slot * Fld.AQ_RING_SLOT_BLOCKS b.cfg t + k) * 512

/-- ROW_PERIOD of a unit in ticks (R387). -/
def aqPeriod (b : Block) (t : Nat) : Nat := aqDiv (b.aqAt t) * grpPeriod b t (aqGrp (b.aqAt t))

/-- The bytes of a write go to the acquisition partition. -/
def aqPutMem (addr : Option Nat) (bs : List Byte) (b : Block) : Block :=
  match addr with
  | some a => nextDraw (memWrite a bs b)
  | none => b

/-- The oldest waiting write of a unit is done, a block no earlier than 2 µs after its last row; the descriptor that ends a record sets the
slot's FULL bit (R371, R383, R385). -/
def aqWrite (now t : Nat) (b : Block) : Block :=
  let u := b.aqAt t
  match u.q with
  | [] => b
  | .block k :: r =>
    if k.lastAt + 2000 ≤ now then
      aqPutMem (aqBlockAddr b t u.slot (1 + k.seq % max 1 (Fld.AQ_RING_SLOT_BLOCKS b.cfg t - 1))) (aqBlockBytes u b.draws k)
        (b.aqUpd t fun u => { u with q := r })
    else b
  | .desc st :: r =>
    aqPutMem (aqBlockAddr b t u.slot 0) (aqDescBytes u b.draws (aqPeriod b t) (Fld.AQ_RING_SLOT_BLOCKS b.cfg t - 1) t st)
      (b.aqUpd t fun u => { u with q := r, full := if st = 1 || bit u.full u.slot then u.full else u.full + 2 ^ u.slot })

/-- The oldest waiting write of a unit, when no packet of a higher class goes before it (R25). -/
def aqWriteback (now t : Nat) (b : Block) : Block := spineServe (pktAq t (b.aqAt t)) (aqWrite now t) b

/-- BLOCK_WRITEBACK (R371). -/
def execBlockWriteback (t : Fin 8) (s : State) : Host.Outcome State Fault Refusal := onTile t (fun now => aqWriteback now t) s

/-! ### Timers, arms, stops -/

/-- TRIGGER_TIMER_EXPIRY (R377): the timer's expiry tick has come. -/
def aqTimer (now t i : Nat) (b : Block) : Block :=
  b.aqUpd t fun u =>
    if (decide (u.st = .armed) || decide (u.st = .triggered)) && decide (aqExpiry u i ≤ now) && !bit u.ts.expired i then
      { u with ts := { u.ts with expired := u.ts.expired + 2 ^ i } }
    else u

/-- TRIGGER_TIMER_EXPIRY (R377). -/
def execTriggerTimerExpiry (t : Fin 8) (i : Fin 2) (s : State) : Host.Outcome State Fault Refusal := onTile t (fun now => aqTimer now t i) s

/-- AQ_HUB_CTRL.ARM (R378). -/
def aqArmOp (now tiles : Nat) (asap : Bool) (b : Block) : Block :=
  let first := now + 10000
  let tick := truncTick (Fld.AQ_HUB_ARM_HI_TICK b.cfg * 2 ^ 32 + Fld.AQ_HUB_ARM_LO_TICK b.cfg)
  if !asap && decide (tick < first) then { b with aqHub := { b.aqHub with refused := tiles } }
  else
    let ok := bitsOf 8 fun t => bit tiles t && tileOn b t && Fld.AQ_RING_EN b.cfg t
    { b with aqHub := { b.aqHub with refused := tiles - ok, set := ok, due := some (if asap then first else tick, ok) } }

/-- AQ_ARM (R378). -/
def execAqArm (tiles : BitVec 8) (asap : Bool) (s : State) : Host.Outcome State Fault Refusal :=
  onRun (fun now => aqArmOp now tiles.toNat asap) s

/-- AQ_DISARM (R385): it follows the row of the present tick, so the stop is registered at the next. -/
def execAqDisarm (tiles : BitVec 8) (s : State) : Host.Outcome State Fault Refusal :=
  onRun (fun now b => forL ((liveTiles b).filter fun t => tiles.getLsbD t) (fun t x => x.aqUpd t (Sys2Proof.Machine.aqStop (now + 10))) b) s

/-- AQ_FORCE (R380). -/
def execAqForce (s : State) : Host.Outcome State Fault Refusal :=
  onRun (fun now b => { b with aqHub := aqFire (now, 8) b.aqHub }) s

/-- The acquisition registers of a tile, by offset, as an arm latches them (R374). -/
def aqRegs (b : Block) (t : Nat) : Tab Word :=
  let base := 0x10070000 + 0x1000000 * t
  (b.cfg.filter fun e => decide (base ≤ e.1) && decide (e.1 < base + 0x100)).map fun e => (e.1 - base, e.2)

/-- A commit that changes the ring length item of a tile is accepted (R373). -/
def aqBlocked (b : Block) (t : Nat) : Bool :=
  (decide (b.cm.ph = .accepted) || decide (b.cm.ph = .go)) && b.cm.rings.contains t

/-- The slots of a unit: AQ_RING.SLOTS holds their number less one (R369). -/
def aqSlots (b : Block) (t : Nat) : Nat := Fld.AQ_RING_SLOTS b.cfg t + 1

/-- The arm tick (R379). -/
def aqArmTick (now : Nat) (b : Block) : Block :=
  match b.aqHub.due with
  | some (a, ts) =>
    if a ≤ now then
      forL ((liveTiles b).filter fun t => bit ts t)
        (fun t x => x.aqUpd t (Sys2Proof.Machine.aqArm now (aqSlots x t) (aqBlocked x t) (aqRegs x t)))
        { b with aqHub := { b.aqHub with due := none } }
    else b
  | none => b

/-- ARM_TICK (R379). -/
def execArmTick (s : State) : Host.Outcome State Fault Refusal := onRun (fun now b => forL (liveTiles b) (aqRowAt now) (aqArmTick now b)) s

/-- AQ_STOP (R385): it follows the row of the present tick, so the stop is registered at the next. -/
def execAqStop (t : Fin 8) (s : State) : Host.Outcome State Fault Refusal :=
  onTile t (fun now b => b.aqUpd t (Sys2Proof.Machine.aqStop (now + 10))) s

/-- AQ_CTRL.RELEASE (R386). -/
def aqReleaseOp (t k : Nat) (b : Block) : Block :=
  b.aqUpd t fun u =>
    if (decide (u.st ≠ .idle) && decide (u.slot = k)) || !bit u.full k then u else { u with full := u.full - 2 ^ k }

/-- AQ_RELEASE (R386). -/
def execAqRelease (t : Fin 8) (s : Fin 16) (st : State) : Host.Outcome State Fault Refusal := onTile t (fun _ => aqReleaseOp t s) st

/-- AQ_CTRL.CLR_STATS (R383). -/
def aqClrOp (t : Nat) (b : Block) : Block := b.aqUpd t fun u => { u with missed := 0, gaps := 0, gapRows := 0 }

/-- AQ_CLR_STATS. -/
def execAqClrStats (t : Fin 8) (s : State) : Host.Outcome State Fault Refusal := onTile t (fun _ => aqClrOp t) s

/-! ### Firings and set triggers -/

/-- A firing of a tile is registered at the hub (R380). -/
def aqFireAtHub (t : Nat) (b : Block) : Block :=
  match b.aqHub.fires.find? fun f => decide (f.2 = t) with
  | some f => { b with aqHub := aqFire f { b.aqHub with fires := b.aqHub.fires.erase f } }
  | none => b

/-- FIRING_AT_HUB (R380). -/
def execFiringAtHub (t : Fin 8) (s : State) : Host.Outcome State Fault Refusal := onRun (fun _ => aqFireAtHub t) s

/-- SET_TRIGGER_SEND (R380). -/
def execSetTriggerSend (s : State) : Host.Outcome State Fault Refusal :=
  onRun (fun now b => { b with aqHub := aqSend now b.aqHub }) s

/-- A set trigger is registered at a tile (R381). -/
def aqTrigAt (now t : Nat) (b : Block) : Block :=
  match b.aqHub.trigs.find? fun f => decide (f.1 = t) with
  | some f => { b with aqHub := { b.aqHub with trigs := b.aqHub.trigs.erase f } }.aqUpd t (aqTrigger now f.2.1 f.2.2)
  | none => b

/-- SET_TRIGGER_RECEIVED (R381). -/
def execSetTriggerReceived (t : Fin 8) (s : State) : Host.Outcome State Fault Refusal := onTile t (fun now => aqTrigAt now t) s

/-- The re-arm tick of a unit (R383, R384). -/
def aqRearmAt (now t : Nat) (b : Block) : Block := b.aqUpd t (aqRearm now (aqSlots b t))

/-- REARM (R384). -/
def execRearm (t : Fin 8) (s : State) : Host.Outcome State Fault Refusal := onTile t (fun now b => aqRowAt now t (aqRearmAt now t b)) s

/-- A stop that has written everything completes (R385). -/
def aqStopAt (now t : Nat) (b : Block) : Block := b.aqUpd t (aqStopDone now (aqSlots b t) (aqBlocked b t) (aqRegs b t))

/-- ACQ_STOP_COMPLETE (R385). -/
def execAcqStopComplete (t : Fin 8) (s : State) : Host.Outcome State Fault Refusal := onTile t (fun now b => aqRowAt now t (aqStopAt now t b)) s

end Sys2Proof.Machine
end

