-- ==== Sys2Proof/Machine/Field.lean ====
section
/-! DEFINITION. Sampling, debounce, the exchange, the watchdogs and diagnostics of the field pairs (chapter 13). -/

namespace Sys2Proof.Machine

/-- The functions of a channel (R470). -/
inductive FFunc where
  | unused | inT1 | inT3 | out | brake | testSrc
  deriving DecidableEq, Repr

/-- The function that a channel's configuration word names. -/
def fFunc (cfg : Word) : FFunc :=
  match bits cfg.toNat 29 3 with
  | 1 => .inT1
  | 2 => .inT3
  | 3 => .out
  | 4 => .brake
  | 5 => .testSrc
  | _ => .unused

/-- An input function. -/
def fIsIn (cfg : Word) : Bool := fFunc cfg = .inT1 || fFunc cfg = .inT3

/-- An output function. -/
def fIsOut (cfg : Word) : Bool := fFunc cfg = .out || fFunc cfg = .brake || fFunc cfg = .testSrc

def fPulsed (par : Word) : Bool := bit par.toNat 31
def fDark (par : Word) : Bool := bit par.toNat 30
def fOlEn (par : Word) : Bool := bit par.toNat 29
def fDeb (par : Word) : Nat := bits par.toNat 0 16

/-- Sampling interval s of a channel in ns (R474, R478). -/
def fStep (cfg par : Word) : Nat := if fIsIn cfg && fPulsed par then max 1 (fDeb par / 4) * 1000 else 1000

/-- Samples of a debounce run (R476). -/
def fRun (cfg par : Word) : Nat := fDeb par * 1000 / fStep cfg par + 1

/-- One sample of a channel at `now` (R474, R476): a run that is long enough is accepted. -/
def fSample (now : Nat) (c : FCh) : FCh :=
  if fFunc c.cfg = .unused || decide (c.smpAt = some now) then c
  else if now % fStep c.cfg c.par ≠ 0 then c
  else
    let n := if c.pin = c.runLv then c.run + 1 else 1
    let c := { c with smpAt := some now, runLv := c.pin, run := min n (fRun c.cfg c.par) }
    if fRun c.cfg c.par ≤ n then { c with acc := c.pin, valid := true } else c

/-- A dark sample (R477): s/2 after every bright sample whose index is a multiple of 8. -/
def fDarkSample (now : Nat) (c : FCh) : FCh :=
  let s := fStep c.cfg c.par
  if fIsIn c.cfg && fPulsed c.par && fDark c.par && decide (now % (8 * s) = s / 2) then
    { c with dark := c.pin, xshort := c.xshort || c.pin }
  else c

/-- The fields of a parameter word whose change restarts the debounce: PULSED, DARK, DEB (R472). -/
def fDebWord (par : Word) : Word := par &&& 0xC000FFFF

/-- A new configuration taken by the field half (R472). -/
def fTake (cfg par : Word) (c : FCh) : FCh :=
  let c :=
    if bits c.cfg.toNat 29 3 ≠ bits cfg.toNat 29 3 then
      { c with cfg := cfg, par := par, sw := false, cmd := false, acc := false, valid := false, run := 0, dark := false }
    else c
  if fDebWord c.par ≠ fDebWord par then { c with cfg := cfg, par := par, run := 0 } else { c with cfg := cfg, par := par }

/-- Diagnostic bits of a channel, as FIO_DIAG lays them out. -/
def fDiag (c : FCh) : Nat :=
  flag c.xshort 5 + flag c.openLoad 4 + flag c.overtemp 3 + flag c.overload 2 + flag c.readback 1 + flag c.acc 0

/-- The state of a channel as it leaves the field half. -/
def fState (c : FCh) : Bool := c.acc && fFunc c.cfg ≠ .unused

/-- The frame from the field half (R489). -/
def fInFrame (p : FPair) : FIn :=
  { level := bitsOf 16 fun k => fState (p.ch.get (Fin.ofNat 16 k))
    valid := bitsOf 16 fun k => (p.ch.get (Fin.ofNat 16 k)).valid
    sw := bitsOf 16 fun k => (p.ch.get (Fin.ofNat 16 k)).sw
    diag := p.ch.toList.map fDiag
    lpLow := p.lpLow, transferLow := p.transferLow, headroom := p.headroom }

/-- A frame of the field half at the logic side (R489, R492). It is registered at or before x_k + 2.00 µs; at that tick itself the exchange does not count as missed. -/
def fRegister (now : Nat) (ok : Bool) (p : FPair) : FPair :=
  match p.fin with
  | none => p
  | some f =>
    if now % 20000 < 500 ∨ 2500 < now % 20000 then p
    else if ok then
      { p with
        fin := none, got := true, missRow := 0, linkLost := false
        missed := if now % 20000 = 2500 then p.missedWas else p.missed
        levelPrev := if p.regAt = now then p.levelPrev else p.level
        regAt := now, level := f.level, valid := f.valid, inForce := f.sw, diag := f.diag, regLp := f.lpLow, regTransfer := f.transferLow }
    else { p with fin := none, crcErr := satAdd 65535 p.crcErr 1 }

/-- At x_k + 2.00 µs: an exchange with no valid frame, and LINK_LOST at the third in a row (R492). -/
def fMissCheck (now : Nat) (p : FPair) : FPair :=
  let p := { p with missedWas := p.missed }
  if p.got then p
  else
    let n := p.missRow + 1
    let p := { p with missRow := min n 3, missed := satAdd 65535 p.missed 1 }
    if 3 ≤ n then { p with linkLost := true, levelPrev := if p.regAt = now then p.levelPrev else p.level, regAt := now, level := 0, valid := 0 } else p

/-- The functional watchdog's expiry tick (R495): exact while frames arrive; of a pair that gets none, within 2 % of WD_T of it, where the specification
leaves the local oscillator open. -/
def fWdEnd (wdMs t : Nat) (p : FPair) : Nat :=
  if p.failed then t + 980000 * wdMs + Config.fieldClock t % (40000 * wdMs + 1) else t + 1000000 * wdMs

/-- The functional watchdog has expired at `now` (R495). -/
def fWdDue (wdMs now : Nat) (p : FPair) : Bool :=
  match p.refAt with
  | some t => !p.wdExpired && decide (fWdEnd wdMs t p ≤ now)
  | none => false

/-- A switch set by its command; a channel off under R482 stays off. -/
def fDrive (on : Bool) (c : FCh) : FCh := { c with cmd := on, sw := on && !c.off }

/-- The channels with `f` applied to each, given its number. -/
def fMap (f : Nat → FCh → FCh) (p : FPair) : FPair := { p with ch := p.ch.mapIdx fun k c => f k c }

/-- Expiry of the functional watchdog (R496): `safe` gives the levels of the OUT channels, 0 in the eight-tile set. -/
def fWdExpire (safe : Nat) (p : FPair) : FPair :=
  fMap (fun k c =>
    match fFunc c.cfg with
    | .out => fDrive (bit safe k) c
    | .testSrc => fDrive false c
    | _ => c) { p with wdExpired := true }

/-- The safety-section watchdog is due (R498). -/
def fSwdDue (now : Nat) (p : FPair) : Bool :=
  match p.sAt with
  | some t => !p.swdExpired && decide (t + 100000 ≤ now)
  | none => false

/-- Expiry of the safety-section watchdog (R498). -/
def fSwdExpire (p : FPair) : FPair :=
  fMap (fun _ c => if fFunc c.cfg = .brake then fDrive false c else c) { p with swdExpired := true }

/-- Steps 1 and 2 of a frame at the field half (R491): the safety-section watchdog and the brake commands. -/
def fSafety (now : Nat) (f : FOut) (p : FPair) : FPair :=
  let adv := f.sAlive ≠ p.sRef
  let p := if fSwdDue now p then fSwdExpire p else p
  let p := if (adv && !p.swdExpired) || f.reArm then { p with swdExpired := p.swdExpired && !f.reArm, sRef := f.sAlive, sAt := some now } else p
  if p.swdExpired then p else fMap (fun k c => if fFunc c.cfg = .brake then fDrive (bit f.brake k) c else c) p

/-- Step 3 of a frame (R491, R494 to R497): the functional watchdog, and a release. -/
def fFunctional (now wdMs safe : Nat) (f : FOut) (p : FPair) : FPair :=
  let fresh := decide (f.alive ≠ p.refAlive)
  let p := if fWdDue wdMs now p then fWdExpire safe p else p
  let p := { p with relRefused := p.relRefused || (f.release && p.wdExpired && !fresh), wdExpired := p.wdExpired && !(f.release && fresh) }
  if fresh && !p.wdExpired then { p with refAt := some now, refAlive := f.alive } else p

/-- Step 4 of a frame (R491): the commit items. -/
def fConfig (f : FOut) (p : FPair) : FPair := fMap (fun k c => fTake (f.cfgs.getD k c.cfg) (f.pars.getD k c.par) c) p

/-- Step 5 of a frame (R491): the functional commands, from the first refresh on and while the watchdog has not expired. -/
def fCommands (f : FOut) (p : FPair) : FPair :=
  if p.wdExpired || p.refAt.isNone then p else fMap (fun k c => if fFunc c.cfg = .out then fDrive (bit f.cmd k) c else c) p

/-- The field half applies a frame in the order of R491. `safe` is what the functional outputs take on expiry. -/
def fApply (now wdMs safe : Nat) (p : FPair) : FPair :=
  match p.fout with
  | none => p
  | some f =>
    let p := { p with fout := none }
    if p.failed then p else fCommands f (fConfig f (fFunctional now wdMs safe f (fSafety now f p)))

/-- A release that an exchange cannot carry to the field half is refused (R497). -/
def fRelLost (asked : Bool) (p : FPair) : FPair := { p with relRefused := p.relRefused || asked && p.wdExpired }

/-- Transfer failure or reset of the field half (R469): every output off. -/
def fFail (p : FPair) : FPair :=
  let p := fRelLost (p.fout.any (·.release)) p
  fMap (fun _ c => { c with sw := false, cmd := false }) { p with failed := true, transferLow := true, fout := none }

/-- A pair after a reset of its field half, or at boot (R479, R497, R469). -/
def fBoot (p : FPair) : FPair :=
  fMap (fun _ c => { c with acc := false, valid := false, run := 0, sw := false, cmd := false })
    { p with refAt := none, wdExpired := false, sAt := none, swdExpired := false, failed := false }

/-- Since when a condition has held. -/
def fSince (now : Nat) (p : Bool) (o : Option Nat) : Option Nat := if p then some (o.getD now) else none

/-- A condition has held for `n` ns. -/
def fHeld (now n : Nat) (o : Option Nat) : Bool :=
  match o with
  | some t => decide (t + n ≤ now)
  | none => false

/-- OPEN_LOAD is monitored: an output that is commanded on, with OL_EN (R500). -/
def fOlWatched (c : FCh) : Bool := c.cmd && fOlEn c.par && (decide (fFunc c.cfg = .out) || decide (fFunc c.cfg = .brake))

/-- READBACK is monitored: an output without OVERLOAD or OVERTEMP (R500). -/
def fRbWatched (c : FCh) : Bool := fIsOut c.cfg && !c.overload && !c.overtemp

/-- The conditions of the timed diagnostics as they stand at `now` (R482, R500). -/
def fConditions (now : Nat) (c : FCh) : FCh :=
  { c with limAt := fSince now (c.sw && c.limit) c.limAt
           lowAt := fSince now (fOlWatched c && c.lowCur) c.lowAt
           diffAt := fSince now (fRbWatched c && c.valid && decide (c.acc ≠ c.cmd)) c.diffAt }

/-- OVERLOAD: a switch that has been in current limit for 5 ms switches off (R482). -/
def fOverloadNow (c : FCh) : FCh := if c.sw && !c.overload then { c with overload := true, off := true, sw := false, limAt := none } else c

/-- OVERLOAD after 5 ms in current limit. -/
def fOverload (now : Nat) (c : FCh) : FCh := if fHeld now 5000000 c.limAt then fOverloadNow c else c

/-- OVERTEMP: the junction reaches 150 °C (R482). -/
def fOvertemp (c : FCh) : FCh := if fIsOut c.cfg then { c with overtemp := true, off := true, sw := false, hot := true } else c

/-- OPEN_LOAD: 10 ms of low current (R500). -/
def fOpenLoad (now : Nat) (c : FCh) : FCh := { c with openLoad := c.openLoad || fHeld now 10000000 c.lowAt }

/-- READBACK: 500 µs of difference (R500). -/
def fReadback (now : Nat) (c : FCh) : FCh := { c with readback := c.readback || fHeld now 500000 c.diffAt }

/-- A run of samples has completed: the level at the pin is accepted (R476). -/
def fAccept (c : FCh) : FCh :=
  if fFunc c.cfg = .unused then c else { c with acc := c.pin, valid := true, runLv := c.pin, run := fRun c.cfg c.par }

/-- The timed diagnostics of a channel at a tick. -/
def fTimed (now : Nat) (c : FCh) : FCh := fReadback now (fOpenLoad now (fOverload now (fConditions now c)))

/-- A cleared diagnostic: each written bit whose cause is absent (R502). `rb` says that the readback level differs from the command now. -/
def fDiagClear (m : Nat) (rb : Bool) (c : FCh) : FCh :=
  let ot := c.overtemp && !(bit m 3 && !c.hot)
  let ol := c.overload && !(bit m 2 && !c.limit)
  { c with
    xshort := c.xshort && !(bit m 5 && !c.dark)
    openLoad := c.openLoad && !(bit m 4 && !(c.lowCur && fOlWatched c))
    overtemp := ot, overload := ol
    readback := c.readback && !(bit m 1 && !rb)
    off := c.off && (ot || ol) }

/-- A TEST_SRC channel is on for 20 µs before each bright sample of the inputs that name it (R475). -/
def fTestOn (now s : Nat) : Bool := now % s = 0 || decide (s ≤ now % s + 20000)

end Sys2Proof.Machine
end

