-- ==== Sys2Proof/Machine/FieldRows.lean ====
section
/-! DEFINITION. Commands of the field pairs (chapter 13). -/

namespace Sys2Proof.Machine

/-- The levels that functional outputs take at expiry: SAFE, and off in the eight-tile set (R496). -/
def safeOf (b : Block) (m : Nat) : Nat := if b.run.tileSet = 8 then 0 else Fld.FIO_SAFE_SAFE b.cfg m

/-- The brake channels of a pair that the safety engine commands released (R490, R522). -/
def brakeBits (b : Block) (m : Nat) : Nat :=
  bitsOf 16 fun k => (List.range 128).any fun a => Fld.SF_AX_CFG_BRK_EN b.cfg a && decide (Fld.SF_AX_CFG_BRK_CH b.cfg a = 16 * m + k) && (b.sfAxAt a).brkCmd

/-- The functional command of a channel held at the hub (R484). -/
def funcCmd (b : Block) (m k : Nat) : Bool :=
  if Fld.FIO_CH_CFG_SRC b.cfg m k = 0 then bit (b.fpAt m).host k else bit (b.fpAt m).mbx k

/-- A configuration or parameter word of a field channel in force at the hub. -/
def fieldWord (b : Block) (par : Bool) (m k : Nat) : Word :=
  if par then tabGet (regReset (regAddr .FIO_CH_PAR [m, k])) b.cfg (regAddr .FIO_CH_PAR [m, k])
  else tabGet (regReset (regAddr .FIO_CH_CFG [m, k])) b.cfg (regAddr .FIO_CH_CFG [m, k])

/-- The frame to a field half (R490); the safety section's count stops while the engine's timer has expired (R506). -/
def foutOf (b : Block) (m : Nat) : FOut :=
  let p := b.fpAt m
  { brake := brakeBits b m, sAlive := p.sAlive, cmd := bitsOf 16 (funcCmd b m), alive := p.alive, release := p.relPend, reArm := bit b.sf.rearm m
    cfgs := (List.range 16).map (fieldWord b false m), pars := (List.range 16).map (fieldWord b true m) }

/-- The timer of the evaluations has expired (R506): a stall, or 250 µs since the last evaluation before an ENGINE_FAULT, after which none completes. -/
def evalTimerOut (now : Nat) (b : Block) : Bool :=
  b.sf.fault && (decide (b.sf.cause = 1) || decide (b.sf.faultAt / 125000 * 125000 + 250000 ≤ now))

/-- One exchange instant (R488 to R490). -/
def exchange (now : Nat) (b : Block) : Block :=
  forN 4 (fun m x =>
    let x := x.fpUpd m fun p => { p with sAlive := if evalTimerOut now x then p.sAlive else (p.sAlive + 1) % 256 }
    let o := foutOf x m
    x.fpUpd m fun p =>
      if p.failed then { fRelLost p.relPend p with got := false, fin := none, fout := none, relPend := false }
      else { p with got := false, fin := some (fInFrame p), fout := some o, relPend := false }) b

/-- `now` is an exchange instant. -/
def isExchange (now : Nat) : Bool := decide (now % 20000 = 500)

/-- The exchange of the present tick, once. -/
def exchangeAt (now : Nat) (b : Block) : Block := if isExchange now then once 300 (exchange now) b else b

/-- FIELD_EXCHANGE (R488). -/
def execFieldExchange (s : State) : Host.Outcome State Fault Refusal := onRun exchangeAt s

/-- Levels of a pair have changed at the logic side: event 11 of the tiles whose TFIELD names a changed channel (R375). -/
def tfieldEvents (now m old : Nat) (b : Block) : Block :=
  let new := (b.fpAt m).level
  forL (liveTiles b) (fun t x =>
    let w := (tabGet (0x40 : Word) (x.aqAt t).lat 0xF0).toNat
    let c := bits w 0 6
    if decide (c / 16 = m) && bit (Fld.FIO_CH_CFG_ROUTE x.cfg m (c % 16)) t && decide (bit old (c % 16) ≠ bit new (c % 16))
        && decide (bit new (c % 16) = bit w 6) then acqEvent now t 11 x
    else x) b

/-- The conditions of R594 hold for a pair in the current window. -/
def barrierHolds (x : Barrier) : Bool := decide (x.headroom < 10) || decide (1000000000 ≤ x.lowNs) || decide (100 < x.crc)

/-- The barrier monitor of a pair takes a report (R594): what comes to hold is logged and requests replacement. -/
def barrierUpd (now m : Nat) (f : Barrier → Barrier) (b : Block) : Block :=
  let x := b.barrierAt m
  let y := f x
  let b := b.barrierUpd m fun _ => y
  if barrierHolds y && !barrierHolds x then setReplace now 16 (logEvent now 0x0034 0 (256 * m + y.headroom) b) else b

/-- A frame from a field half at the logic side (R489, R492, R594); a pair under test reads 0 (R605).
A frame outside the time of its registration is none. -/
def fieldRx (now m : Nat) (ok : Bool) (b : Block) : Block :=
  let old := (b.fpAt m).level
  match (b.fpAt m).fin with
  | none => b
  | some f =>
    if now % 20000 < 500 ∨ 2500 < now % 20000 then b else
    let b := tfieldEvents now m old (b.fpUpd m fun p =>
      let p := fRegister now ok p
      if b.hl.st.pair = some m then { p with level := 0, valid := 0 } else p)
    barrierUpd now m (fun x => if ok then { x with headroom := min x.headroom f.headroom } else { x with crc := satAdd 4095 x.crc 1 }) b

/-- FIELD_FRAME_RX (R489): the frame of the last exchange, with its CRC valid or not. -/
def execFieldFrameRx (m : Fin 4) (ok : Bool) (s : State) : Host.Outcome State Fault Refusal := onRun (fun now => fieldRx now m ok) s

/-- What expiry of the functional watchdog does besides the outputs: the log entry (R496). -/
def fieldWdLog (now m : Nat) (was : Bool) (b : Block) : Block :=
  if (b.fpAt m).wdExpired && !was then logEvent now 0x0042 0 m b else b

/-- FIELD_FRAME_APPLY (R491). -/
def fieldApply (now m : Nat) (b : Block) : Block :=
  let was := (b.fpAt m).wdExpired
  fieldWdLog now m was (b.fpUpd m (fApply now (Fld.FIO_WD_WD_T b.cfg m) (safeOf b m)))

/-- FIELD_FRAME_APPLY (R491): at 2 µs after the exchange. -/
def execFieldFrameApply (m : Fin 4) (s : State) : Host.Outcome State Fault Refusal :=
  onRun (fun now b => if decide (now % 20000 = 2500) then fieldApply now m b else b) s

/-- INPUT_ACCEPTED (R476): the run of samples of a channel completes. -/
def execInputAccepted (m : Fin 4) (k : Fin 16) (s : State) : Host.Outcome State Fault Refusal :=
  onRun (fun _ b => b.fpUpd m fun p => { p with ch := vset p.ch k (fAccept (p.ch.get k)) }) s

/-- The check for a valid frame 2 µs after an exchange (R492), once. -/
def linkCheck (now m : Nat) (b : Block) : Block :=
  if decide (now % 20000 = 2500) then
    once (310 + m) (fun x =>
      let old := (x.fpAt m).level
      tfieldEvents now m old (x.fpUpd m (fMissCheck now))) b
  else b

/-- LINK_LOST (R492). -/
def execLinkLost (m : Fin 4) (s : State) : Host.Outcome State Fault Refusal := onRun (fun now => linkCheck now m) s

/-- The functional watchdog at `now` (R495, R496). -/
def fieldWd (now m : Nat) (b : Block) : Block :=
  let p := b.fpAt m
  if fWdDue (Fld.FIO_WD_WD_T b.cfg m) now p then fieldWdLog now m false (b.fpUpd m (fWdExpire (safeOf b m))) else b

/-- FIELD_WD_EXPIRED (R495). -/
def execFieldWdExpired (m : Fin 4) (s : State) : Host.Outcome State Fault Refusal := onRun (fun now => fieldWd now m) s

/-- The safety-section watchdog at `now` (R498). -/
def fieldSwd (now m : Nat) (b : Block) : Block := b.fpUpd m fun p => if fSwdDue now p then fSwdExpire p else p

/-- SAFETY_WD_EXPIRED (R498). -/
def execSafetyWdExpired (m : Fin 4) (s : State) : Host.Outcome State Fault Refusal := onRun (fun now => fieldSwd now m) s

/-- FIO_CTRL.WD_RELEASE (R497). -/
def wdReleaseOp (m : Nat) (b : Block) : Block := b.fpUpd m fun p => { p with relPend := true }

/-- WD_RELEASE (R497). -/
def execWdRelease (m : Fin 4) (s : State) : Host.Outcome State Fault Refusal := onRun (fun _ => wdReleaseOp m) s

/-- FIO_CTRL.CLR_CNT (R492). -/
def fioClrOp (m : Nat) (b : Block) : Block := b.fpUpd m fun p => { p with crcErr := 0, missed := 0 }

/-- FIO_CLR_CNT (R492). -/
def execFioClrCnt (m : Fin 4) (s : State) : Host.Outcome State Fault Refusal := onRun (fun _ => fioClrOp m) s

/-- FIO_OUT_SET (`v` true) and FIO_OUT_CLR (R484, R486): bits of channels whose SRC is not 0x00 are ignored. -/
def fioOutOp (m mask : Nat) (v : Bool) (b : Block) : Block :=
  let mine := fun k => bit mask k && decide (Fld.FIO_CH_CFG_SRC b.cfg m k = 0)
  b.fpUpd m fun p => { p with host := bitsOf 16 fun k => if mine k then v else bit p.host k }

/-- FIO_OUT_SET (R486). -/
def execFioOutSet (m : Fin 4) (mask : BitVec 16) (s : State) : Host.Outcome State Fault Refusal := onRun (fun _ => fioOutOp m mask.toNat true) s

/-- FIO_OUT_CLR (R486). -/
def execFioOutClr (m : Fin 4) (mask : BitVec 16) (s : State) : Host.Outcome State Fault Refusal := onRun (fun _ => fioOutOp m mask.toNat false) s

/-- One channel of a pair changed. -/
def fieldCh (m : Nat) (k : Fin 16) (f : FCh → FCh) (b : Block) : Block := b.fpUpd m fun p => { p with ch := vset p.ch k (f (p.ch.get k)) }

/-- OVERLOAD (R482): the switch has been in current limit for 5 ms. -/
def execOverload (m : Fin 4) (k : Fin 16) (s : State) : Host.Outcome State Fault Refusal :=
  onRun (fun _ => fieldCh m k fOverloadNow) s

/-- OVERTEMP (R482). -/
def execOvertemp (m : Fin 4) (k : Fin 16) (s : State) : Host.Outcome State Fault Refusal := onRun (fun _ => fieldCh m k fOvertemp) s

/-- OPEN_LOAD (R500): an output that is on has had low current for 10 ms. -/
def execOpenLoad (m : Fin 4) (k : Fin 16) (s : State) : Host.Outcome State Fault Refusal :=
  onRun (fun _ => fieldCh m k fun c => { c with openLoad := c.openLoad || fOlWatched c }) s

/-- READBACK (R500): the readback level has differed from the command for 500 µs. -/
def execReadback (m : Fin 4) (k : Fin 16) (s : State) : Host.Outcome State Fault Refusal :=
  onRun (fun _ => fieldCh m k fun c => { c with readback := c.readback || fRbWatched c }) s

/-- LP_LOW (R468). -/
def execLpLow (m : Fin 4) (low : Bool) (s : State) : Host.Outcome State Fault Refusal :=
  onRun (fun _ b => b.fpUpd m fun p => { p with lpLow := low }) s

/-- TRANSFER_FAIL (R469). -/
def execTransferFail (m : Fin 4) (s : State) : Host.Outcome State Fault Refusal := onRun (fun _ b => b.fpUpd m fFail) s

/-- FIO_DIAG_CLEAR (R502). -/
def fioDiagOp (m : Nat) (k : Fin 16) (mask : Nat) (b : Block) : Block := fieldCh m k (fun c => fDiagClear mask (decide (c.acc ≠ c.cmd)) c) b

/-- FIO_DIAG_CLEAR (R502). -/
def execFioDiagClear (m : Fin 4) (k : Fin 16) (mask : Word) (s : State) : Host.Outcome State Fault Refusal :=
  onRun (fun _ => fioDiagOp m k mask.toNat) s

/-- A mailbox command on its way to the hub is registered (R485). -/
def fieldAtHub (m k : Nat) (b : Block) : Block :=
  match (b.fpAt m).fly.find? fun f => decide (f.ch = k) with
  | some f => spineServe (pktField f.tile f.at_) (fun b => b.fpUpd m fun p => { p with fly := p.fly.erase f, mbx := bitsOf 16 fun i => if i = k then f.level else bit p.mbx i }) b
  | none => b

/-- FIELD_COMMAND_AT_HUB (R485). -/
def execFieldCommandAtHub (m : Fin 4) (k : Fin 16) (s : State) : Host.Outcome State Fault Refusal := onRun (fun _ => fieldAtHub m k) s

/-! ### What happens at a tick -/

/-- TEST_SRC channels of a pair follow the windows of the inputs that name them (R475), unless the functional watchdog holds them off. -/
def testDrive (now : Nat) (p : FPair) : FPair :=
  fMap (fun k c =>
    if fFunc c.cfg = .testSrc then
      let lit := !p.wdExpired && p.refAt.isSome && !p.failed && (List.range 16).any fun i =>
        let d := p.ch.get (Fin.ofNat 16 i)
        fIsIn d.cfg && fPulsed d.par && bit d.cfg.toNat 25 && decide (bits d.cfg.toNat 21 4 = k) && fTestOn now (fStep d.cfg d.par)
      fDrive lit c
    else c) p

/-- The samples, the timed diagnostics and the watchdogs of a pair at a tick. -/
def fieldTick (now m : Nat) (b : Block) : Block :=
  let b := b.fpUpd m fun p => fMap (fun _ c => fTimed now (fDarkSample now (fSample now c))) (testDrive now p)
  let b := fieldSwd now m (fieldWd now m b)
  let b := if (b.fpAt m).regTransfer then barrierUpd now m (fun x => { x with lowNs := x.lowNs + 10 }) b else b
  if b.hl.st.pair = some m then b.fpUpd m (fMap fun _ c => { c with cmd := false, sw := false }) else b

end Sys2Proof.Machine
end

