-- ==== Sys2Proof/Machine/Native.lean ====
section
/-! DEFINITION. Commands of native axes (chapter 05): enabling, disabling, aligning, update points, power-stage trips. -/

namespace Sys2Proof.Machine

/-! ### Trips -/

/-- The period of MCLK in ns (R172). -/
def mclkNs (b : Block) (t : Nat) : Nat := if Fld.AX_MCLK_FREQ b.cfg t then 50 else 100

/-- `now` is a rising edge of MCLK (R172). -/
def mclkEdge (b : Block) (now t : Nat) : Bool := tileOn b t && Fld.AX_MCLK_EN b.cfg t && decide (now % mclkNs b t = 0)

/-- The data inputs sample after an edge of MCLK (R173): an instant `5 d` ns after an edge at which bit times fall; `x` in ns. -/
def sdSampled (b : Block) (x t j : Nat) : Bool :=
  let d := 5 * Fld.AX_SD_CFG_SD_DLY b.cfg t j
  tileOn b t && Fld.AX_MCLK_EN b.cfg t && decide (d ≤ x) && decide ((x - d) % mclkNs b t = 0)

/-- One sampled bit of each data input, newest first, as far back as the longest window (R175). -/
def sdPush (i : SdIn) : SdIn := { i with hist := (i.pin :: i.hist).take 768 }

/-- The data inputs of a native slot sample at `x` ns (R173). -/
def sdSampleAt (x t j : Nat) (b : Block) : Block :=
  if isNative b t j && sdSampled b x t j then
    b.natUpd t j fun a => { a with sd0 := sdPush a.sd0, sd1 := sdPush a.sd1, sd2 := sdPush a.sd2 }
  else b

/-- The latest 64 bits of an input are identical (R180). -/
def sdSame (h : List Bool) : Bool :=
  decide (64 ≤ h.length) && ((h.take 64).all (· == true) || (h.take 64).all (· == false))

/-- A data input in use is stuck (R180): every input of a native slot is in use. -/
def sdIsStuck (a : NatAx) : Bool := sdSame a.sd0.hist || sdSame a.sd1.hist || sdSame a.sd2.hist

/-- The largest phase-current magnitude of the fast filter (R181). DESIGN CHOICE: the third current that R179 computes from two measured ones counts too (log 55). -/
def ocMagnitude (b : Block) (t j : Nat) : Nat :=
  let p := phasesOf b t j sinc2
  max p.u.natAbs (max p.v.natAbs p.w.natAbs)

/-- A fast-filter phase current has reached OC_LIM while gate-enable is asserted (R181). -/
def ocTrip (now t j : Nat) (b : Block) : Block :=
  if isNative b t j && (b.natAt t j).gate && !(b.natAt t j).trips.oc then stageTrip now t j (fun r => { r with oc := true }) b else b

/-- The evaluation of the fast filter at a rising edge of MCLK (R181). -/
def ocCheck (now t j : Nat) (b : Block) : Block :=
  if isNative b t j && mclkEdge b now t then
    let m := ocMagnitude b t j
    let b := b.natUpd t j fun a => { a with trips := { a.trips with ocMag := m } }
    if Fld.AX_OC_LIMIT b.cfg t j ≤ m then ocTrip now t j b else b
  else b

/-- A run of 64 identical bits has stood on a data input in use (R180). -/
def stuckTrip (now t j : Nat) (b : Block) : Block :=
  if isNative b t j && !(b.natAt t j).trips.sdStuck then stageTrip now t j (fun r => { r with sdStuck := true }) b else b

/-- The check for such a run. -/
def stuckCheck (now t j : Nat) (b : Block) : Block := if sdIsStuck (b.natAt t j) then stuckTrip now t j b else b

/-- SUM_TRIP (R179). -/
def sumCheck (now t j : Nat) (b : Block) : Block :=
  let a := b.natAt t j
  if isNative b t j && !Fld.AX_SD_CFG_IN2_VBUS b.cfg t j && decide (Fld.AX_SUM_LIMIT b.cfg t j ≠ 0)
      && decide (max 1 (Fld.AX_SD_CFG_SUM_N b.cfg t j) ≤ a.trips.sumRun) && !a.trips.sum then
    stageTrip now t j (fun r => { r with sum := true }) b
  else b

/-- One tick of the nDF filter (R203). -/
def dfTick (t j : Nat) (b : Block) : Block :=
  if isNative b t j then
    b.natUpd t j fun a =>
      if a.trips.ndf = Fld.AX_DF_DF_POL b.cfg t j then
        let n := min 256 (a.trips.dfRun + 1)
        { a with trips := { a.trips with dfRun := n, dfLevel := a.trips.dfLevel || decide (max 1 (Fld.AX_DF_DF_FILT b.cfg t j) ≤ n) } }
      else { a with trips := { a.trips with dfRun := 0, dfLevel := false } }
  else b

/-- nDF has been active for the filter run (R203). -/
def dfTrip (now t j : Nat) (b : Block) : Block :=
  if isNative b t j && !(b.natAt t j).trips.df then stageTrip now t j (fun r => { r with df := true, dfLevel := true }) b else b

/-- The check of the filtered level. -/
def dfCheck (now t j : Nat) (b : Block) : Block := if (b.natAt t j).trips.dfLevel then dfTrip now t j b else b

/-- The bits of AX_TRIP whose cause is present (R205), as a mask. -/
def tripCauses (b : Block) (t j : Nat) : Nat :=
  let a := b.natAt t j
  flag a.trips.dfLevel 1 + flag (decide (Fld.AX_OC_LIMIT b.cfg t j ≤ a.trips.ocMag)) 2 + flag (decide (Fld.AX_SUM_LIMIT b.cfg t j ≠ 0) && decide (Fld.AX_SUM_LIMIT b.cfg t j < a.trips.sum_.natAbs)) 3 + flag (sdIsStuck a) 4

/-- A W1C write of AX_TRIP (R205). -/
def tripClear (t j m : Nat) (b : Block) : Block :=
  let c := tripCauses b t j
  let clr := fun i => bit m i && !bit c i
  b.natUpd t j fun a =>
    { a with trips := { a.trips with df := a.trips.df && !clr 1, oc := a.trips.oc && !clr 2, sum := a.trips.sum && !clr 3, sdStuck := a.trips.sdStuck && !clr 4 } }

/-! ### Commands -/

/-- AX_ENABLE (R14, R15, R200). -/
def execAxEnable (t : Fin 8) (j : Fin 4) (s : State) : Host.Outcome State Fault Refusal :=
  onTile t (fun now => natEnable now t j false) s

/-- AX_DISABLE (R201). -/
def execAxDisable (t : Fin 8) (j : Fin 4) (s : State) : Host.Outcome State Fault Refusal :=
  onTile t (fun now => natDisable now t j) s

/-- AX_ALIGN (R202). -/
def execAxAlign (t : Fin 8) (j : Fin 4) (s : State) : Host.Outcome State Fault Refusal :=
  onTile t (fun now => natEnable now t j true) s

/-- GATE_ENABLE_ASSERT (R200). -/
def execGateEnableAssert (t : Fin 8) (j : Fin 4) (s : State) : Host.Outcome State Fault Refusal :=
  onTile t (fun now => natGate now t j) s

/-- What `f` does at the update point of a native axis in the tick that ends at `now`, if there is one (R183). -/
def atUpdatePoint (now t j : Nat) (f : Int → Int → Block → Block) (b : Block) : Block :=
  match updatePointAt b now t j with
  | some (u, s) => f u s b
  | none => b

/-- PRECHARGE_END (R200). -/
def execPrechargeEnd (t : Fin 8) (j : Fin 4) (s : State) : Host.Outcome State Fault Refusal :=
  onTile t (fun now => atUpdatePoint now t j (natPrecharge t j)) s

/-- AX_DISABLE_COMPLETE (R201). -/
def execAxDisableComplete (t : Fin 8) (j : Fin 4) (s : State) : Host.Outcome State Fault Refusal :=
  onTile t (fun now => atUpdatePoint now t j (fun u _ => natDisabled now t j u)) s

/-- BRAKE_HOLD_END (R201). -/
def execBrakeHoldEnd (t : Fin 8) (j : Fin 4) (s : State) : Host.Outcome State Fault Refusal :=
  onTile t (fun now => natBrakeEnd now t j) s

/-- ALIGN_COMPLETE (R202). -/
def execAlignComplete (t : Fin 8) (j : Fin 4) (s : State) : Host.Outcome State Fault Refusal :=
  onTile t (fun now => natAlignEnd now t j) s

/-- UPDATE_POINT (R183, R187, R200, R201). -/
def execUpdatePoint (t : Fin 8) (j : Fin 4) (s : State) : Host.Outcome State Fault Refusal :=
  onTile t (fun now => natUpdatePoint now t j) s

/-- EDGE_CALIBRATION (R189). -/
def execEdgeCalibration (t : Fin 8) (j : Fin 4) (s : State) : Host.Outcome State Fault Refusal :=
  onTile t (fun now => natCalibrate now t j) s

/-- EDGE_COARSE (R190). -/
def execEdgeCoarse (t : Fin 8) (j : Fin 4) (s : State) : Host.Outcome State Fault Refusal :=
  onTile t (fun now => natCoarse now t j) s

/-- DF_TRIP (R203). -/
def execDfTrip (t : Fin 8) (j : Fin 4) (s : State) : Host.Outcome State Fault Refusal :=
  onTile t (fun now => dfTrip now t j) s

/-- OC_TRIP (R181). -/
def execOcTrip (t : Fin 8) (j : Fin 4) (s : State) : Host.Outcome State Fault Refusal :=
  onTile t (fun now => ocTrip now t j) s

/-- SD_STUCK (R180). -/
def execSdStuck (t : Fin 8) (j : Fin 4) (s : State) : Host.Outcome State Fault Refusal :=
  onTile t (fun now => stuckTrip now t j) s

/-- SUM_TRIP (R179). -/
def execSumTrip (t : Fin 8) (j : Fin 4) (s : State) : Host.Outcome State Fault Refusal :=
  onTile t (fun now => sumCheck now t j) s

/-- AX_TRIP_CLEAR (R205). -/
def execAxTripClear (t : Fin 8) (j : Fin 4) (mask : Word) (s : State) : Host.Outcome State Fault Refusal :=
  onTile t (fun _ => tripClear t j mask.toNat) s

/-- The d reference drops to I_HOLD when the commanded position has not changed for HOLD_T (R211). -/
def stepperHold (now t j : Nat) (b : Block) : Block :=
  if decide (j < 4) && decide (slotTy b t j = .nstep) then
    b.natUpd t j fun a =>
      { a with step := { a.step with holding := decide (a.step.lastMove + Fld.AX_STEP_HOLD_HOLD_T b.cfg t j * 1000000 ≤ now) } }
  else b

/-- STEPPER_HOLD (R211). -/
def execStepperHold (t : Fin 8) (j : Fin 4) (s : State) : Host.Outcome State Fault Refusal :=
  onTile t (fun now => stepperHold now t j) s

end Sys2Proof.Machine
end

