-- ==== Sys2Proof/Machine/Safe.lean ====
section
/-! DEFINITION. The safety engine: zones, permissives, brakes, fault reactions, stops, grace mode, tests (chapter 14). -/

namespace Sys2Proof.Machine

/-- The period of the evaluations in ns (R503). -/
def evalNs : Nat := 125000

/-- The brake channel of an axis: pair and channel (R522). -/
def brakeOf (b : Block) (a : Nat) : Option (Nat × Nat) :=
  if Fld.SF_AX_CFG_BRK_EN b.cfg a then some (Fld.SF_AX_CFG_BRK_CH b.cfg a / 16, Fld.SF_AX_CFG_BRK_CH b.cfg a % 16) else none

/-- The brake engage time in ns (R524). -/
def engNs (b : Block) (a : Nat) : Nat := Fld.SF_AX_TIME_BRK_ENG_T b.cfg a * 1000000

/-- The axes of the running module by their safety number 16 × tile + slot. -/
def sfAxes (b : Block) : List Nat := (List.range (16 * b.run.tileSet)).filter fun a => decide (slotTy b (a / 16) (a % 16) ≠ .unused)

/-! ### Permissives and brakes -/

/-- The GEN land of a native axis reads active although gate-enable is removed (R510, R512). -/
def genReads (b : Block) (t j : Nat) : Bool := b.genStuck.contains (4 * t + j) && !(b.natAt t j).gate

/-- The engine removes the permissive of an axis at `now` (R45, R519, R521): gate-enable goes inactive, and the readback passes the STO test or finds GEN_STUCK. -/
def permitOff (now a : Nat) (b : Block) : Block :=
  let t := a / 16
  let j := a % 16
  let was := (b.sfAxAt a).permit
  let b := b.sfAxUpd a fun x => { x with permit := false, grantAt := none, rmAt := none }
  if isNative b t j then
    let b := b.natUpd t j fun n => { n with gate := false, pwm := .off }
    if genReads b t j then axFault now 7 t j { b with sf := { b.sf with stuck := true } }
    else if was then b.sfAxUpd a fun x => { x with stoPass := some now, stoDue := false }
    else b
  else b

/-- The brake of an axis is commanded engaged at `now`. -/
def brakeEngage (now a : Nat) (b : Block) : Block :=
  b.sfAxUpd a fun x => { x with brkCmd := false, brkOpen := false, relAt := none, engAt := some now }

/-- The brake of an axis is commanded released at `now` (R523). -/
def brakeRelease (now a : Nat) (b : Block) : Block := b.sfAxUpd a fun x => { x with brkCmd := true, relAt := some now }

/-- The d and q references in force of a native axis (R202, R207, R211). -/
def natRefs (b : Block) (t j : Nat) : Word × Word :=
  let a := b.natAt t j
  match a.hold with
  | some h => h
  | none =>
    if a.st = .aligning || a.fromAlign then (BitVec.ofNat 32 (Fld.AX_ALIGN_I_ALIGN_I b.cfg t j), 0)
    else if slotTy b t j = .nstep then
      (BitVec.ofInt 32 ((if a.step.holding then Fld.AX_STEP_I_I_HOLD b.cfg t j else Fld.AX_STEP_I_I_RUN b.cfg t j : Nat) * (2 : Int) ^ 15), a.qref)
    else (a.dref, a.qref)

/-- The references of a native axis are held from now on; those held first stand (R207, R529). -/
def natHold (t j : Nat) (b : Block) : Block :=
  let r := natRefs b t j
  b.natUpd t j fun a => { a with hold := some r }

/-! ### Fault reactions -/

/-- The end of a native fault reaction (R207 step 3): the permissive goes, the state becomes STO. -/
def faultEnd (now a : Nat) (b : Block) : Block :=
  let t := a / 16
  let j := a % 16
  let b := b.natUpd t j fun n => { n with st := .sto, hold := none, fromAlign := false, brakeWait := false, brakeEnd := none }
  axisDone now t j (permitOff now a b)

/-- What the reaction of a native axis does at t0 = `now`; `took` says that the brake was commanded engaged by a lower cause (R207, R529). -/
def natReact (now a : Nat) (took : Bool) (b : Block) : Block :=
  let t := a / 16
  let j := a % 16
  let b := acqEvent now t 8 (natHold t j b)
  let b := b.natUpd t j fun n => { n with fromAlign := n.fromAlign || decide (n.st = .aligning), st := .faultHold, brakeWait := false, brakeEnd := none }
  match brakeOf b a with
  | none => faultEnd now a b
  | some _ =>
    let b := if took then b else brakeEngage now a b
    let e := ((b.sfAxAt a).engAt.getD now) + engNs b a
    if e ≤ now then faultEnd now a b else b.sfAxUpd a fun x => { x with rmAt := some e }

/-- What the reaction of a networked axis does at t0 besides the tile's part (R327, R523, R543). -/
def nxReact (now a : Nat) (b : Block) : Block :=
  match brakeOf b a with
  | none => permitOff now a b
  | some _ =>
    let b := brakeEngage now a b
    if engNs b a = 0 then permitOff now a b else b.sfAxUpd a fun x => { x with rmAt := some (now + engNs b a) }

/-- The followers of a master axis whose fault reaction the engine begins lose their master (R313). -/
def mastersLost (now t j : Nat) (b : Block) : Block :=
  forL (followersOf b t j) (fun p x => axFault now 1 p.1 p.2 (x.followUpd p.1 p.2 fun f => { f with cl := { f.cl with masterLost := true } })) b

/-- A fault reaction begins at `now` (R207, R270, R327, R328, R517, R520, R673). Cause 0: a zone, which sets no fault latch (R518). -/
def beginReact (now cause a : Nat) (b : Block) : Block :=
  let t := a / 16
  let j := a % 16
  let x := b.sfAxAt a
  if slotTy b t j = .unused then b
  else if axDisabled b t j then discardEnable t j (b.sfAxUpd a fun x => { x with fault := none, stop := none })
  else if x.react.isSome then b.sfAxUpd a fun x => { x with fault := none }
  else
    let took := !x.brkCmd && x.engAt.isSome && (x.stop.isSome || decide (x.bt.st ≠ .idle) || (isNative b t j && decide ((b.natAt t j).st = .disabling)))
    let b := logEvent now 0x0013 0 (a * 256 + cause) (btEnd t j 4 b)
    let b := if x.fault.isNone then mastersLost now t j (tileFault now t j b) else b
    let b := discardEnable t j b
    let b := b.sfAxUpd a fun x =>
      { x with react := some now, fault := none, stop := none, relReq := false, brkReq := none, stoTest := none
               flt := x.flt || decide (cause ≠ 0), cause := if cause = 0 then x.cause else if x.flt then x.cause else cause }
    match slotTy b t j with
    | .n3ph | .nstep => natReact now a took b
    | .networked => nxReact now a b
    | _ => b

/-- Reactions of pulse-train and virtual axes complete once their stop has taken effect (R270, R328). -/
def reactDone (now a : Nat) (b : Block) : Block :=
  let t := a / 16
  let j := a % 16
  if (b.sfAxAt a).react.isSome then
    match slotTy b t j with
    | .pulse => if (b.pulseAt t (j - 4)).imm.isNone then axisDone now t j b else b
    | .virtual => if (b.genAt t j).req.down.isNone then axisDone now t j b else b
    | _ => b
  else b

/-- The removal of a permissive that is due (R207, R524, R543). -/
def permitDue (now a : Nat) (b : Block) : Block :=
  match (b.sfAxAt a).rmAt with
  | some e =>
    if e ≤ now then
      if isNative b (a / 16) (a % 16) && decide ((b.natAt (a / 16) (a % 16)).st = .faultHold) then faultEnd now a b else permitOff now a b
    else b
  | none => b

/-- The engine commands an axis stopped (R517, R535): a servo axis ramps, a pulse-train axis performs its reaction at once. -/
def beginStop (now : Nat) (grace : Bool) (a : Nat) (b : Block) : Block :=
  let t := a / 16
  let j := a % 16
  let x := b.sfAxAt a
  if slotTy b t j = .unused then b
  else if axDisabled b t j then discardEnable t j b
  else if slotTy b t j = .pulse then beginReact now (if grace then 4 else 0) a b
  else if x.react.isSome then b
  else
    let stands := match x.stop with
      | some (_, g) => grace || !g
      | none => false
    if stands then b
    else
      let b := discardEnable t j (btEnd t j 4 b)
      genEnd t j (pgSafeStop now (Fld.PG_FB_DECEL_DEC b.cfg t j)) (b.sfAxUpd a fun x => { x with stop := some (now, grace) })

/-! ### Tests and grace mode -/

/-- The due tick of a periodic test with an interval in hours; 0: none (R521, R528). -/
def testDue (pass : Option Nat) (hours : Nat) : Option Nat :=
  match pass with
  | some p => if hours = 0 then none else some (p + hours * 3600000000000)
  | none => none

/-- The due tick of the STO test (R521). -/
def stoDueAt (b : Block) (a : Nat) : Option Nat := testDue (b.sfAxAt a).stoPass (Fld.SF_AX_STO_STO_INT b.cfg a)

/-- The due tick of the brake test (R528). -/
def btDueAt (b : Block) (a : Nat) : Option Nat := testDue (b.sfAxAt a).bt.pass (Fld.SF_AX_BT_LIM_BT_INT b.cfg a)

/-- A time that exists and has been reached. -/
def reached (now : Nat) (o : Option Nat) : Bool :=
  match o with
  | some t => decide (t ≤ now)
  | none => false

/-- STO_DUE from its due tick on (R521); an interval of 0 sets no due tick. -/
def stoDueTick (now a : Nat) (b : Block) : Block :=
  let d := reached now (stoDueAt b a)
  if d = (b.sfAxAt a).stoDue then b else b.sfAxUpd a fun x => { x with stoDue := d }

/-- BT_DUE from its due tick on (R528); an interval of 0 sets no due tick. -/
def btDueTick (now a : Nat) (b : Block) : Block :=
  let d := reached now (btDueAt b a)
  if d = (b.sfAxAt a).btDue then b else b.sfAxUpd a fun x => { x with btDue := d }

/-- BRAKE_OPEN at BRK_REL_T after the release command (R523). -/
def brakeOpenTick (now a : Nat) (b : Block) : Block :=
  b.sfAxUpd a fun x =>
    { x with brkOpen := x.brkOpen || (x.brkCmd && reached now (x.relAt.map (· + Fld.SF_AX_GRACE_BRK_REL_T b.cfg a * 1000000))) }

/-- Grace mode is entered at `now` with the cause that led to it (R243, R527, R534, R535). -/
def graceEnter (now cause a : Nat) (b : Block) : Block :=
  let lo := fun (m : Nat) (o : Option Nat) => match o with
    | some t => min m t
    | none => m
  let e := max now (lo (lo (now + Fld.SF_AX_GRACE_GRACE_T b.cfg a * 1000000000) (stoDueAt b a)) (btDueAt b a))
  logEvent now 0x0014 0 (a * 256 + 1) (b.sfAxUpd a fun x => { x with grace := some (now, cause), graceReg := none, graceExp := some e })

/-- The speed of an axis's position channel, Q32.32 (R534). -/
def axSpeed (b : Block) (t j : Nat) : Int :=
  let p := Fld.PG_HOME_CFG_POS_SRC b.cfg t j
  if 0x30 ≤ p && p < 0x38 then (b.qdAt t (p - 0x30)).spdSrc.toInt
  else if isNative b t j then (b.qdAt t (Fld.AX_COMM_QCH b.cfg t j)).spdSrc.toInt
  else match chansOf b t j with
    | k :: _ => (b.qdAt t k).spdSrc.toInt
    | [] => 0

/-- Grace mode that was registered before this evaluation is entered (R243, R504). -/
def graceTake (now a : Nat) (b : Block) : Block :=
  let x := b.sfAxAt a
  match x.graceReg with
  | some (r, c) => if r < now && x.grace.isNone && x.react.isNone && !axDisabled b (a / 16) (a % 16) then graceEnter now c a b else b
  | none => b

/-- The checks of grace mode (R534, R535): the speed, and the expiry. -/
def graceCheck (now a : Nat) (b : Block) : Block :=
  let x := b.sfAxAt a
  if x.grace.isNone || x.react.isSome then b
  else if (Fld.SF_AX_GRACE_V_GRACE_V b.cfg a : Int) * 2 ^ 32 < (axSpeed b (a / 16) (a % 16)).natAbs then beginReact now 3 a b
  else
    match x.graceExp with
    | some e => if e < now then beginStop now true a b else b
    | none => b

/-- Grace mode at an evaluation. -/
def graceEval (now a : Nat) (b : Block) : Block := graceCheck now a (graceTake now a b)

/-- The position of the brake test, Q48.16 (R526). -/
def btPos (b : Block) (t j : Nat) : Int :=
  let q := b.qdAt t (Fld.AX_COMM_QCH b.cfg t j)
  (qdPos q q.h).toInt

/-- The q reference of the brake test: the held one with the test current added, saturated (R526). -/
def btRef (b : Block) (a : Nat) (sign : Int) (b' : Block) : Block :=
  let i := sign * (Fld.SF_AX_BT_BT_I b.cfg a * (2 : Int) ^ 15)
  let q := word32 ((b.sfAxAt a).bt.qh.toInt + i)
  b'.natUpd (a / 16) (a % 16) fun n => { n with hold := n.hold.map fun h => (h.1, q) }

/-- The references of a native axis follow its contexts again. -/
def natUnhold (t j : Nat) (b : Block) : Block := b.natUpd t j fun n => { n with hold := none }

/-- The brake test fails at `now` (R527); a fault reaction that follows counts from the engage command of the test (R529). -/
def btFail (now a : Nat) (b : Block) : Block :=
  let t := a / 16
  let j := a % 16
  let b := { b with sf := { b.sf with btFailed := true } }
  if Fld.SF_AX_CFG_GRACE_BT b.cfg a then graceEnter now 8 a (natUnhold t j (btEnd t j 2 b))
  else (beginReact now 8 a b).sfAxUpd a fun x => { x with bt := { x.bt with st := .idle, result := 2 } }

/-- A brake test at an evaluation (R526, R527). -/
def btEval (now a : Nat) (b : Block) : Block :=
  let x := b.sfAxAt a
  let t := a / 16
  let j := a % 16
  let e2 := x.bt.e1 + engNs b a
  let e3 := e2 + Fld.SF_AX_BT_BT_T b.cfg a * 1000000
  let e4 := e3 + Fld.SF_AX_BT_BT_T b.cfg a * 1000000
  let moved := decide ((Fld.SF_AX_BT_LIM_BT_TOL b.cfg a : Int) * 65536 < (btPos b t j - x.bt.p0).natAbs)
  match x.bt.st with
  | .idle => b
  | .requested =>
    if x.bt.reg < now then
      if x.stop.isSome then btEnd t j 4 b
      else
      let b := natHold t j b
      brakeEngage now a (b.sfAxUpd a fun x => { x with bt := { x.bt with st := .engage, e1 := now, result := 5, qh := ((b.natAt t j).hold.getD (0, 0)).2 } })
    else b
  | .engage =>
    if e2 ≤ now then btRef b a 1 (b.sfAxUpd a fun x => { x with bt := { x.bt with st := .pos, p0 := btPos b t j } }) else b
  | .pos =>
    if moved then btFail now a b
    else if e3 ≤ now then btRef b a (-1) (b.sfAxUpd a fun x => { x with bt := { x.bt with st := .neg } })
    else b
  | .neg =>
    if e4 ≤ now then
      natUnhold t j ((btEnd t j 1 b).sfAxUpd a fun x => { x with bt := { x.bt with pass := some now }, btDue := false })
    else if moved then btFail now a b
    else b

/-! ### Zones -/

/-- A source of a zone at an evaluation: its level and whether it is valid (R503, R513, R514). -/
def zoneSrc (b : Block) (now z code : Nat) : Bool :=
  if 0x40 ≤ code && code < 0x80 then
    let p := b.fpAt ((code - 0x40) / 16)
    let k := (code - 0x40) % 16
    bit (if p.regAt < now then p.level else p.levelPrev) k && bit p.valid k
  else if 0x80 ≤ code && code < 0xB0 then
    let c := b.connAt (code - 0x80)
    decide (c.st = .run) && c.data.getLsbD z
  else false

/-- A field channel's state is valid at the engine. -/
def chanValid (b : Block) (code : Nat) : Bool := bit (b.fpAt ((code - 0x40) / 16)).valid ((code - 0x40) % 16)

/-- The source codes of a zone. -/
def zoneSrcs (b : Block) (z : Nat) : List Nat := [Fld.SF_ZONE_IN_IN0 b.cfg z, Fld.SF_ZONE_IN_IN1 b.cfg z, Fld.SF_ZONE_IN_IN2 b.cfg z, Fld.SF_ZONE_IN_IN3 b.cfg z]

/-- The dark test of a source channel has failed (R477, R510). -/
def srcShort (b : Block) (code : Nat) : Bool :=
  decide (0x40 ≤ code) && decide (code < 0x80) && bit ((b.fpAt ((code - 0x40) / 16)).diag.getD ((code - 0x40) % 16) 0) 5

/-- The reset pulse of a zone at an evaluation (R516): the zone, and whether a reset is registered. A channel that is not valid has accepted no level. -/
def zonePulse (now : Nat) (valid lv : Bool) (z : Zone) : Zone × Bool :=
  if !valid then ({ z with rstHigh := none }, false)
  else if lv then ({ z with rstHigh := some (z.rstHigh.getD now) }, false)
  else
    match z.rstHigh with
    | none => (z, false)
    | some r =>
      let ok := decide (r + 100000000 ≤ now) && decide (now ≤ r + 2000000000)
      ({ z with rstHigh := none, resetIgnored := z.resetIgnored || !ok }, ok)

/-- What an evaluation decides about a zone in use (R514 to R516). -/
def zoneDecide (now z : Nat) (b : Block) (x : Zone) : Zone :=
  let cs := zoneSrcs b z
  let lv := fun i => zoneSrc b now z (cs.getD i 0)
  let all := (List.range 4).all fun i => decide (cs.getD i 0 = 0) || lv i
  let rst := Fld.SF_ZONE_CFG_RST_SRC b.cfg z
  let differ := Fld.SF_ZONE_CFG_PAIR b.cfg z && decide (lv 0 ≠ lv 1)
  let at_ := if differ then some (x.diffAt.getD now) else none
  let disc := Fld.SF_ZONE_CFG_PAIR b.cfg z && (x.disc || (differ && reached now (at_.map (· + Fld.SF_ZONE_CFG_DISC_T b.cfg z * 1000000)))) && !(!lv 0 && !lv 1)
  let ok := all && !disc && !(cs.any (srcShort b))
  let r := if rst = 0 then (x, false) else zonePulse now (chanValid b rst) (zoneSrc b now z rst) x
  let asked := x.resetReg || r.2
  let d := if !ok then true else if Fld.SF_ZONE_CFG_AUTO b.cfg z || asked then false else x.demand
  { x with
    disc := disc, diffAt := at_, healthy := ok, demand := d
    bits := bitsOf 4 fun i => decide (cs.getD i 0 ≠ 0) && lv i
    rstHigh := r.1.rstHigh
    resetReg := false, resetIgnored := r.1.resetIgnored || (asked && !ok)
    due := if d = x.demand then x.due else some (now + evalNs, d) }

/-- One zone at an evaluation. -/
def zoneEval (now z : Nat) (b : Block) : Block :=
  if Fld.SF_ZONE_CFG_EN b.cfg z then b.zoneUpd z (zoneDecide now z b) else b

/-- The axes of a zone. -/
def zoneAxes (b : Block) (z : Nat) : List Nat := (sfAxes b).filter fun a => bit (Fld.SF_AX_CFG_ZONES b.cfg a) z

/-- A decision about a zone takes effect at `now` (R504, R517). -/
def zoneEffect (now z : Nat) (b : Block) : Block :=
  let x := b.zoneAt z
  match x.due with
  | some (e, d) =>
    if e ≤ now then
      let b := b.zoneUpd z fun x => { x with due := none, inForce := d }
      if d && !x.inForce then
        if Fld.SF_ZONE_CFG_CAT b.cfg z then forL (zoneAxes b z) (fun a => beginStop now false a) b
        else forL (zoneAxes b z) (fun a => beginReact now 0 a) b
      else b
    else b
  | none => b

/-- A grant takes effect (R519, R521): a native axis in STO becomes DISABLED. -/
def grantEffect (now a : Nat) (b : Block) : Block :=
  if reached now (b.sfAxAt a).grantAt then
    let b := b.sfAxUpd a fun x => { x with permit := true, grantAt := none, stoTest := none, stoPass := firstOf x.stoPass now }
    if isNative b (a / 16) (a % 16) then
      b.natUpd (a / 16) (a % 16) fun n => { n with st := if n.st = .sto then .disabled else n.st }
    else b
  else b

/-- The decisions of the last evaluation take effect (R504). -/
def decisionEffect (now : Nat) (b : Block) : Block :=
  if b.sf.fault then b else forL (sfAxes b) (grantEffect now) (forN 16 (zoneEffect now) b)

/-! ### The evaluation -/

/-- The engine would grant the permissive of an axis (R519). -/
def grantable (b : Block) (a : Nat) : Bool :=
  let x := b.sfAxAt a
  !b.sf.fault && !x.flt && x.react.isNone && x.stop.isNone && x.stoTest.isNone && x.fault.isNone && !b.sf.unverified
    && !((List.range 16).any fun z => bit (Fld.SF_AX_CFG_ZONES b.cfg a) z && Fld.SF_ZONE_CFG_EN b.cfg z && ((b.zoneAt z).demand || (b.zoneAt z).inForce && (b.zoneAt z).due.isNone))

/-- The permissive of a native or networked axis at an evaluation (R519). -/
def permitEval (now a : Nat) (b : Block) : Block :=
  let x := b.sfAxAt a
  let t := a / 16
  let j := a % 16
  let nat := isNative b t j
  if !nat && decide (slotTy b t j ≠ .networked) then b
  else if x.permit then
    if (zoneHolds b a || x.flt) && x.rmAt.isNone && x.stop.isNone && (!nat || axDisabled b t j) then discardEnable t j (permitOff now a b) else b
  else if x.grantAt.isNone && (!nat || axDisabled b t j) && grantable b a then b.sfAxUpd a fun x => { x with grantAt := some (now + evalNs) }
  else b

/-- The STO test that was accepted before this evaluation (R521). -/
def stoTestEval (now a : Nat) (b : Block) : Block :=
  let x := b.sfAxAt a
  match x.stoTest with
  | some r =>
    if x.permit then
      if r < now then (permitOff now a b).sfAxUpd a fun x => { x with grantAt := some (now + evalNs) } else b
    else if x.grantAt.isNone then b.sfAxUpd a fun x => { x with stoTest := none }
    else b
  | none => b

/-- The brake request of a disable with DIS_MODE 1 that was registered before this evaluation (R201, R504). -/
def brakeAsked (now a : Nat) (b : Block) : Block :=
  if reached now ((b.sfAxAt a).brkReq.map (· + 1)) then
    let b := brakeEngage now a (b.sfAxUpd a fun x => { x with brkReq := none, rmAt := some (now + engNs b a) })
    (natHold (a / 16) (a % 16) b).natUpd (a / 16) (a % 16) fun n => { n with brakeWait := false, brakeEnd := some (now + engNs b a) }
  else b

/-- The engine commands the brake channel on, which releases the brake (R523). -/
def brakeWant (b : Block) (a : Nat) : Bool :=
  let x := b.sfAxAt a
  let may := if isNative b (a / 16) (a % 16) then x.permit else !x.flt && x.fault.isNone && (x.stop.isSome || !zoneHolds b a)
  x.relReq && may && x.react.isNone && (decide (x.bt.st = .idle) || decide (x.bt.st = .requested))

/-- The brake command of an axis at an evaluation (R201, R523). -/
def brakeEval (now a : Nat) (b : Block) : Block :=
  match brakeOf b a with
  | none => b
  | some _ =>
    let b := brakeAsked now a b
    if (b.sfAxAt a).brkCmd then (if brakeWant b a then b else brakeEngage now a b)
    else if brakeWant b a && (b.sfAxAt a).stop.isNone then brakeRelease now a b
    else b

/-- Diagnostics of an axis at an evaluation (R492, R501, R510, R512, R525; any diagnostic bit of the brake channel, and a lost link before SWD_EXPIRED, see the log): FLT_CAUSE of the first that has failed, and whether an output is stuck on. -/
def axDiag (b : Block) (a : Nat) : Nat × Bool :=
  let t := a / 16
  let j := a % 16
  let gen := isNative b t j && genReads b t j
  let lostIn := (List.range 16).any fun z => bit (Fld.SF_AX_CFG_ZONES b.cfg a) z && Fld.SF_ZONE_CFG_EN b.cfg z &&
    (zoneSrcs b z).any fun c => decide (0x40 ≤ c) && decide (c < 0x80) && (b.fpAt ((c - 0x40) / 16)).linkLost
  match brakeOf b a with
  | none => (if gen then 7 else if lostIn then 9 else 0, gen)
  | some (m, k) =>
    let p := b.fpAt m
    let d := p.diag.getD k 0
    let on := bit p.level k && bit p.valid k && !(b.sfAxAt a).brkCmd
    (if gen then 7 else if d / 2 ≠ 0 then 5 else if lostIn || p.linkLost then 9 else if p.swdExpired then 6 else 0, gen || (bit d 1 && on))

/-- A stop that the engine commanded, at an evaluation (R517). -/
def stopEval (now a : Nat) (b : Block) : Block :=
  match (b.sfAxAt a).stop with
  | some (t0, g) =>
    if t0 + Fld.SF_AX_TIME_STOP_T b.cfg a * 1000000 ≤ now then
      beginReact now (if g then 4 else 2) a (b.sfAxUpd a fun x => { x with stopTimeout := true })
    else if decide (t0 < now) && decide ((b.genAt (a / 16) (a % 16)).st = .idle) then beginReact now (if g then 4 else 0) a b
    else b
  | none => b

/-- What a failed diagnostic of an axis does (R510, R512). -/
def diagEval (now a : Nat) (b : Block) : Block :=
  let d := axDiag b a
  let b := if d.2 then { b with sf := { b.sf with stuck := true } } else b
  if d.1 = 0 then b else beginReact now d.1 a b

/-- The fault of an axis that was registered before this evaluation (R206, R504). -/
def faultEval (now a : Nat) (b : Block) : Block :=
  match (b.sfAxAt a).fault with
  | some (c, r) => if r < now then beginReact now c a b else b
  | none => b

/-- One axis at an evaluation (R503, R529): higher causes first. -/
def axEval (now a : Nat) (b : Block) : Block :=
  permitEval now a (stoTestEval now a (brakeEval now a (btEval now a (stopEval now a (graceEval now a (faultEval now a (diagEval now a b)))))))

/-- RE_ARM of each pair (R525); a disabled axis performs no fault reaction and is none of the axes waited for (R673). -/
def rearmEval (b : Block) : Block :=
  let free := fun m => (sfAxes b).all fun a => match brakeOf b a with
    | some (p, _) => decide (p ≠ m) || ((!(b.sfAxAt a).permit || axDisabled b (a / 16) (a % 16)) && (b.sfAxAt a).react.isNone)
    | none => true
  { b with sf := { b.sf with rearm := bitsOf 4 fun m => (b.fpAt m).swdExpired && (bit b.sf.rearm m || free m) } }

/-- A lost reference that was registered before this evaluation: the fault reaction of every enabled axis (R52); the waiting enable of a disabled one is discarded (R673). -/
def refEval (now : Nat) (b : Block) : Block :=
  match b.sf.refDue with
  | some r =>
    if r < now then
      forL (sfAxes b) (beginReact now 1) b
    else b
  | none => b

/-- One evaluation (R503). -/
def evaluate (now : Nat) (b : Block) : Block :=
  if b.sf.fault then b
  else
    let due := b.sf.refDue.filter fun r => decide (now ≤ r)
    let b := rearmEval (forL (sfAxes b) (axEval now) (forN 16 (zoneEval now) (refEval now b)))
    { b with sf := { b.sf with refDue := due } }

/-- The evaluation of the present tick, once. -/
def evaluateAt (now : Nat) (b : Block) : Block := if now % evalNs = 0 then once 400 (evaluate now) b else b

/-- ENGINE_FAULT is set at `now` with ENGINE_CAUSE (R506, R511); every native and networked axis loses its permissive, and an enable that waits or is pending is discarded (R16). -/
def engineFault (now cause : Nat) (b : Block) : Block :=
  if b.sf.fault then b
  else
    let b := logEvent now 0x0012 0 cause { b with sf := { b.sf with fault := true, cause := cause, faultAt := now } }
    forL (sfAxes b) (fun a x =>
      let t := a / 16
      let j := a % 16
      let x := (brakeEngage now a x).sfAxUpd a fun y => { y with relReq := false, brkReq := none, stoTest := none, fault := none }
      if isNative x t j then
        let x := discardEnable t j x
        if axDisabled x t j then permitOff now a x
        else
          let x := logEvent now 0x0013 0 (a * 256 + 10) (btEnd t j 4 x)
          faultEnd now a (mastersLost now t j <| tileFault now t j (acqEvent now t 8 (x.sfAxUpd a fun y => { y with flt := true, cause := 10, react := some now })))
      else if slotTy x t j = .networked then permitOff now a (discardEnable t j x)
      else permitOff now a x) b

/-! ### Requests -/

/-- SF_ZONE_CTRL.RESET (R515, R516). -/
def zoneResetOp (z : Nat) (b : Block) : Block :=
  if Fld.SF_ZONE_CFG_RST_SRC b.cfg z ≠ 0 then b
  else b.zoneUpd z fun x => if x.healthy then { x with resetReg := true } else { x with resetIgnored := true }

/-- Every fault bit that ACK asks for reads 0 (R520). -/
def ackFree (b : Block) (a : Nat) : Bool :=
  let t := a / 16
  let j := a % 16
  let brk := match brakeOf b a with
    | some (m, k) => decide (((b.fpAt m).diag.getD k 0) / 2 = 0)
    | none => true
  !(isNative b t j && tripped (b.natAt t j)) && !qdFaulted b t j && !srcBars b t j && brk

/-- SF_AX_CTRL.ACK (R520). -/
def ackOp (a : Nat) (b : Block) : Block :=
  b.sfAxUpd a fun x => if ackFree b a then { x with flt := false, cause := 0 } else { x with ackRefused := true }

/-- SF_AX_CTRL.STO_TEST (R521). -/
def stoTestOp (now a : Nat) (b : Block) : Block :=
  if isNative b (a / 16) (a % 16) && decide ((b.natAt (a / 16) (a % 16)).st = .disabled) && (b.natAt (a / 16) (a % 16)).wait.isNone
      && (b.sfAxAt a).permit && (b.sfAxAt a).stoTest.isNone then
    b.sfAxUpd a fun x => { x with stoTest := some now }
  else b

/-- SF_AX_CTRL.BT_START (R526). -/
def btStartOp (now a : Nat) (b : Block) : Block :=
  let t := a / 16
  let j := a % 16
  let x := b.sfAxAt a
  if x.bt.st ≠ .idle then b
  else if decide (slotTy b t j = .n3ph) && isNative b t j && (brakeOf b a).isSome && decide ((b.natAt t j).st = .enabled) && decide ((b.genAt t j).st = .idle)
      && !zoneHolds b a && x.grace.isNone && !x.flt then
    b.sfAxUpd a fun x => { x with bt := { x.bt with st := .requested, reg := now } }
  else b.sfAxUpd a fun x => { x with bt := { x.bt with result := 3 } }

/-! ### Parameters -/

/-- The SF_ registers with SG fields other than SF_PAR_CHECK, ascending (R545). -/
def sfParAddrs : List Nat :=
  ((List.range 16).flatMap fun z => [0x70100 + 16 * z, 0x70104 + 16 * z])
    ++ ((List.range 128).flatMap fun a => (List.range 7).map fun k => 0x71000 + 32 * a + 4 * k)
    ++ ((List.range 48).flatMap fun c => (List.range 4).map fun k => 0x73000 + 32 * c + 4 * k)

/-- A register's SG fields in force, other bits 0. -/
def sgWord (cf : Tab Word) (a : Nat) : Word :=
  match regAt a with
  | some (r, _) => tabGet (regDef r).reset cf a &&& BitVec.ofNat 32 (regDef r).sg
  | none => 0

/-- The CRC-32C of the safety layer and the parameter check (R538). -/
def crc32c (bs : List Byte) : Nat := crcRefl 0x82F63B78 bs

/-- The parameter check of a set of registers (R545). -/
def parCrc (cf : Tab Word) : Nat := crc32c (sfParAddrs.flatMap fun a => leBytes 4 a ++ leBytes 4 (sgWord cf a).toNat)

/-- UNVERIFIED after boot or a commit (R546). -/
def verifyPars (b : Block) : Block := { b with sf := { b.sf with unverified := decide (parCrc b.cfg ≠ b.nv.keys.verified) } }

/-- A write of SF_VERIFY (R546). -/
def sfVerifyOp (v : Nat) (b : Block) : Block :=
  if v = parCrc b.cfg then
    { b with nv := { b.nv with keys := { b.nv.keys with verified := v } }, sf := { b.sf with unverified := false } }
  else { b with sf := { b.sf with verifyErr := true } }

/-! ### Connections -/

/-- W_T in ns (R541). -/
def connWt (b : Block) (c : Nat) : Nat := Fld.SF_CONN_WT_W_T b.cfg c * 1000

/-- A connection fails, or begins (R541, R542). -/
def connStart (c : Conn) : Conn := { c with st := .starting, base := false, runD1 := 0, data := 0, accAt := none }

/-- EN of a connection (R542). -/
def connNorm (c : Nat) (b : Block) : Block :=
  if Fld.SF_CONN_CFG_EN b.cfg c then (if (b.connAt c).st = .off then b.connUpd c connStart else b)
  else if (b.connAt c).st = .off then b
  else b.connUpd c fun x => { x with st := .off, base := false, runD1 := 0, data := 0, accAt := none, rx := [] }

/-- Data of a PDU in force: 0 when FAIL_SAFE is set (R540). -/
def pduData (p : List Byte) : Word := if bit (leAt p 1 1) 0 then 0 else BitVec.ofNat 32 (leAt p 12 4)

/-- CHECK, VERSION and CONN of a PDU (R538, R540). -/
def pduOk (uid c : Nat) (p : List Byte) : Bool :=
  decide (p.length = 20) && decide (crc32c (leBytes 4 uid ++ p.take 16) = leAt p 16 4) && decide (leAt p 0 1 = 1) && decide (leAt p 2 2 = c)

/-- A PDU registered at `r` on connection `c` (R540, R542). -/
def connPdu (b : Block) (c r : Nat) (p : List Byte) (x : Conn) : Conn :=
  if x.st = .off then x
  else if !pduOk (Fld.SF_CONN_UID_UID b.cfg c) c p then { x with crcErr := satAdd 65535 x.crcErr 1 }
  else
    let s := leAt p 4 4
    let d := (s + 2 ^ 32 - x.seq) % 2 ^ 32
    let inTime := x.sent.any fun m => decide (m.1 = leAt p 8 4) && decide (r ≤ m.2 + connWt b c)
    if x.st = .starting && !x.base then { x with base := true, seq := s, runD1 := 0 }
    else if x.st = .starting && d ≠ 1 then
      let x := if d = 0 then { x with rep := satAdd 65535 x.rep 1 } else if d ≤ 3 then x else { x with seqErr := satAdd 255 x.seqErr 1 }
      connStart x
    else if d = 0 then { x with rep := satAdd 65535 x.rep 1 }
    else if 3 < d then connStart { x with seqErr := satAdd 255 x.seqErr 1 }
    else if !inTime then { x with late := satAdd 65535 x.late 1 }
    else
      let n := min 2 (x.runD1 + 1)
      { x with seq := s, accAt := some r, data := pduData p, runD1 := n, st := if n = 2 then .run else x.st }

/-- The received PDUs of a connection are checked (R540). -/
def connRx (c : Nat) (b : Block) : Block :=
  b.connUpd c fun x => x.rx.foldl (fun y m => connPdu b c m.1 m.2 y) { x with rx := [] }

/-- The expiry of a connection (R541). -/
def connExpire (now c : Nat) (b : Block) : Block :=
  b.connUpd c fun x => if decide (x.st ≠ .off) && reached now (x.accAt.map (· + connWt b c)) then connStart x else x

/-- The DATA that a connection sends (R543). -/
def connTxData (b : Block) (c : Nat) : Nat :=
  if Fld.SF_CONN_CFG_TXSRC b.cfg c then
    bitsOf 16 fun j =>
      let t := Fld.SF_CONN_CFG_TILE b.cfg c
      (isNative b t j || decide (slotTy b t j = .networked)) && (b.sfAxAt (axNo t j)).permit
  else bitsOf 16 fun z => !(Fld.SF_ZONE_CFG_EN b.cfg z && (b.zoneAt z).inForce)

/-- A PDU is formed at `now` (R537, R539). -/
def connForm (now c : Nat) (b : Block) : Block :=
  let x := b.connAt c
  let s := (x.sent.head?.map fun m => (m.1 + 1) % 2 ^ 32).getD 1
  let body := leBytes 1 1 ++ leBytes 1 (flag (decide (x.st ≠ .run) || b.sf.fault) 0) ++ leBytes 2 c ++ leBytes 4 s ++ leBytes 4 x.seq ++ leBytes 4 (connTxData b c)
  let p := body ++ leBytes 4 (crc32c (leBytes 4 (Fld.SF_CONN_UID_UID b.cfg c) ++ body))
  b.connUpd c fun x => { x with pdu := p, sendAt := now, sent := ((s, now) :: x.sent).filter fun m => decide (m.1 = s) || decide (now ≤ m.2 + connWt b c) }

/-- A PDU is delivered to its connection: received at `now` over a path that the connection uses (R536). -/
def connDeliver (now : Nat) (uses : Nat → Bool) (p : List Byte) (b : Block) : Block :=
  let c := leAt p 2 2
  if decide (c < 48) && Fld.SF_CONN_CFG_EN b.cfg c && uses c then b.connUpd c fun x => { x with rx := x.rx ++ [(now, p)] } else b

/-- A connection that is OFF and not in use. -/
def connIdle (b : Block) (c : Nat) : Bool := decide ((b.connAt c).st = .off) && !Fld.SF_CONN_CFG_EN b.cfg c

/-- What the safety engine does at a tick: received messages, timed removals, due ticks, decisions, the evaluation; an expiry of a connection at this tick
is registered at it, so that the evaluation of the tick does not see it (R503, R504). -/
def safetyTick (now : Nat) (b : Block) : Block :=
  let b := forN 48 (fun c x => if connIdle x c then x else connRx c (connNorm c x)) b
  let b := forL (sfAxes b) (fun a x => brakeOpenTick now a (btDueTick now a (stoDueTick now a (reactDone now a (permitDue now a x))))) b
  forN 48 (fun c x => if connIdle x c then x else connExpire now c x) (evaluateAt now (decisionEffect now b))

end Sys2Proof.Machine
end

