-- ==== Sys2Proof/Machine/Berath.lean ====
section
/-! DEFINITION. The star and its ports: start, cycles and matrices, windows, received frames, keys (chapter 11, R578 to R581). -/

namespace Sys2Proof.Machine

/-! ### Values the module draws -/

/-- `n` random bytes of the present draw. -/
def drawBytes (b : Block) (n : Nat) : List Byte := slice (Config.random b.draws n) 0 n

/-- The DEVICE_ID: SHA-384 of the identity public key. -/
def deviceId (b : Block) : List Byte := slice (Config.sha384 b.nv.keys.pub) 0 48

/-! ### Port states -/

/-- A channel of the port is UP (R393, R433). -/
def blUp (pt : BlPort) : Bool := pt.upA || pt.upB

/-- The feedback source of networked slot `k` (8 × tile + slot − 8) is lost (R430): R244, R313, R325, R327. -/
def nxLose (now k : Nat) (b : Block) : Block :=
  if (b.blnxAt k).lost then b
  else axFault now 1 (k / 8) (8 + k % 8) (fallbackLost now (k / 8) (0xA8 + k % 8) (b.blnxUpd k fun x => { x with lost := true }))

/-- The networked slots bound to a port. -/
def nxOfPort (b : Block) (p : Nat) : List Nat := nxSlots.filter fun k => Fld.BL_NX_BIND_EN b.cfg k && decide (Fld.BL_NX_BIND_PORT b.cfg k = p)

/-- A port has a new state: leaving RUN loses the feedback of its slots (R430). -/
def blSet (now p : Nat) (f : BlPort → BlPort) (b : Block) : Block :=
  let was := blEff (b.blAt p)
  let b := b.blUpd p f
  if was = .run && blEff (b.blAt p) ≠ .run then forL (nxOfPort b p) (nxLose now) b else b

/-- A new OFFER of a sealed port (R579, R580); its signature is drawn. -/
def keyOffer (p : Nat) (b : Block) : Block :=
  let k := (b.blAt p).key
  let id := (if k.nextId = 0 then k.keyId else k.nextId) % 255 + 1
  let nonce := drawBytes b 16
  let head := leBytes 1 1 ++ leBytes 1 id ++ leBytes 2 0 ++ nonce ++ slice (Config.ecPoint b.draws) 0 97 ++ leBytes 3 0
  let sig := slice (Config.ecdsaSign b.draws (Config.sha384 (leBytes 1 p ++ deviceId b ++ head))) 0 96
  nextDraw (b.blUpd p fun pt =>
    { pt with keyq := [head ++ sig], key := { pt.key with kex := 1, nonce := nonce, offer := head, eph := b.draws, offerAt := 0, nextId := id, activate := none } })

/-- A port enters INTEGRATING at `now` (R433, R581): any key in force is discarded, and a sealed port starts the key exchange. -/
def blIntegrate (now p : Nat) (b : Block) : Block :=
  let b := blSet now p (fun pt =>
    { pt with st := .integrating, intAt := now, runAt := none, joinAck := none, quiet := false
              key := { pt.key with ok := false, key := [], keyId := 0, kex := 0, next := [], nextId := pt.key.nextId, activate := none, used := 0 } }) b
  if Fld.BL_PORT_CFG_SEAL b.cfg p then keyOffer p b else b

/-- A port enters RUN, if its key allows (R405). -/
def blRun (p : Nat) (b : Block) : Block :=
  if Fld.BL_PORT_CFG_SEAL b.cfg p && !(b.blAt p).key.ok then b
  else b.blUpd p fun pt => if pt.st = .integrating then { pt with st := .run, runAt := none, key := { pt.key with used := 0 } } else pt

/-- The ports with a channel UP leave LISTEN when the network runs (R433). -/
def blJoinAll (now : Nat) (b : Block) : Block :=
  forN 12 (fun p x => if decide ((x.blAt p).st = .listen) && blUp (x.blAt p) then blIntegrate now p x else x) b

/-- The first matrix start at or after `x` with the anchor of BL_NET_PHASE (R409). -/
def blFirst (b : Block) (x : Nat) : Nat :=
  let a := 10 * Fld.BL_NET_PHASE_PHASE b.cfg
  let m := blMatNs (blNow b.net)
  if x ≤ a || decide (m = 0) then a else a + ceilDiv (x - a) m * m

/-- Star-master start at `now` (R409, R434, R438). -/
def starStart (now : Nat) (b : Block) : Block :=
  { b with net := { b.net with anchor := 10 * Fld.BL_NET_PHASE_PHASE b.cfg, ctr0 := 0, from_ := blFirst b now, st := .listen, qsDone := true } }

/-- The network at boot step 8 (R117, R409, R433, R436). -/
def blBoot (now : Nat) (b : Block) : Block :=
  let any := (List.range 12).any fun p => Fld.BL_PORT_CFG_EN b.cfg p
  let b := { b with net := { b.net with mode := Fld.BL_MODE_MODE b.cfg, bootAt := now, st := if any then .listen else .stopped } }
  let b := forN 12 (fun p x => x.blUpd p fun pt => { pt with st := if Fld.BL_PORT_CFG_EN x.cfg p then .listen else .off }) b
  if any && decide (Fld.BL_NET_CFG_START b.cfg = 0) then starStart now b else b

/-- The network runs from its first matrix or cycle start (R409). -/
def blGo (now : Nat) (b : Block) : Block :=
  if decide (b.net.st = .listen) && b.net.qsDone && decide (b.net.from_ ≤ now) then
    blJoinAll now { b with net := { b.net with st := .run } }
  else b

/-! ### Cycles and matrices -/

/-- `now` is a cycle start, and a matrix start (R408). -/
def isCycle (b : Block) (now : Nat) : Bool :=
  let n := blCycNs (blNow b.net)
  decide (b.net.st = .run) && decide (n ≠ 0) && decide (b.net.from_ ≤ now) && decide (b.net.anchor ≤ now) && decide ((now - b.net.anchor) % n = 0)

/-- See `isCycle`. -/
def isMatrix (b : Block) (now : Nat) : Bool := isCycle b now && decide ((now - b.net.anchor) % blMatNs (blNow b.net) = 0)

/-- The port has an exclusive UP window (R435). -/
def hasUpWin (b : Block) (p : Nat) : Bool := (blNow b.net).wins.any fun w => decide (w.port = p ∧ w.up = true ∧ w.kind = 0)

/-- The key of a port at the start of matrix `m` (R580): the new key takes effect at ACTIVATE. -/
def keyMatrix (m : Nat) (pt : BlPort) : BlPort :=
  let k := pt.key
  match k.activate with
  | some a =>
    if a ≤ m then { pt with key := { k with ok := true, key := k.next, keyId := k.nextId, kex := 0, next := [], activate := none, used := 0 } } else pt
  | none => { pt with key := { k with used := if pt.st = .run then k.used + 1 else k.used } }

/-- REKEY at a matrix start (R581). -/
def rekeyOp (p : Nat) (b : Block) : Block :=
  let pt := b.blAt p
  let r := Fld.SEC_PORT_CFG_REKEY_M b.cfg p
  if Fld.BL_PORT_CFG_SEAL b.cfg p && pt.key.ok && decide (pt.key.kex = 0) && decide (pt.st = .run) && decide (r ≠ 0) && decide (r ≤ pt.key.used) then
    (keyOffer p b).blUpd p fun x => { x with key := { x.key with used := 0 } }
  else b

/-- One port at a matrix start (R415 to R417, R435, R440, R580). -/
def portMatrix (now p : Nat) (b : Block) : Block :=
  let m := (blCycleAt b.net (blNow b.net) now).2.2
  let b := b.blUpd p fun pt => keyMatrix m { pt with ofs := blMatrixEnd (now - blMatNs (blNow b.net)) pt.ofs, clipM := 0 }
  let pt := b.blAt p
  let back := decide (pt.st = .blocked) && pt.quiet && !pt.sofSeen
  let b := b.blUpd p fun pt => { pt with quiet := decide (pt.st = .blocked), sofSeen := false }
  let b := if back then blIntegrate now p b else b
  let pt := b.blAt p
  let b :=
    if decide (pt.st = .integrating) && decide (pt.intAt < now) then
      if reached now pt.runAt then blRun p b
      else if !Fld.BL_NET_CFG_JOIN b.cfg && !hasUpWin b p then blRun p b
      else b
    else b
  rekeyOp p b

/-- A matrix starts (R408). -/
def matrixStart (now : Nat) (b : Block) : Block :=
  let ann := match b.net.next with
    | some (_, t) => decide (now + blMatNs (blNow b.net) = t)
    | none => false
  forN 12 (fun p x =>
    let x := x.blStampUpd p fun y => { y with msLat := now, msNt := ntNs x.nt, msEpoch := x.nt.epoch }
    portMatrix now p (if ann then x.blUpd p fun pt => { pt with mack := false } else x)) b

/-- The matrix start of the present tick, once. -/
def matrixAt (now : Nat) (b : Block) : Block := if isMatrix b now then once 321 (matrixStart now) b else b

/-- The mode that CYCLE_START announces (R442). -/
def blAnnounces (b : Block) (now : Nat) : Option Nat :=
  match b.net.next with
  | some (m, t) => if t ≤ now + blMatNs (blNow b.net) && decide (now < t) then some m else none
  | none => none

/-- CYCLE_START of a port (R400, R404). -/
def blSendCycle (now p : Nat) (leave : Bool) (b : Block) : Block :=
  let c := blCycleAt b.net (blNow b.net) now
  b.blUpd p fun pt =>
    let key := blSealKey b.cfg p pt
    let pl := blCyclePayload b.cfg p c.2.2 c.2.1 b.net.mode (blAnnounces b now) now leave (decide (pt.st = .blocked))
    let h := fhMake 1 false key.isSome 0x80 p 5 c.2.2 0 c.2.1 0
    { pt with tx := [(now, blFrame key (blNonce 2 p 0 (leAt h 6 1) c.2.2) h pl)] }

/-- One port at a cycle start (R400, R414, R446). -/
def portCycle (now p : Nat) (b : Block) : Block :=
  let was := (b.blAt p).ofs.drift
  let b := b.blUpd p fun pt => { pt with ofs := blCycleEnd (blNow b.net).guard pt.ofs }
  let b := if (b.blAt p).ofs.drift && !was then logEvent now 0x0041 0 p b else b
  let pt := b.blAt p
  match pt.st with
  | .stopping =>
    if pt.left then
      let b := forL (nxOfPort b p) (nxLose now) (blSet now p (fun x => { x with st := .off, left := false, tx := [], enable := x.enPending, enPending := false }) b)
      b
    else if pt.disAt < now then blSendCycle now p true (b.blUpd p fun x => { x with left := true })
    else blSendCycle now p false b
  | .off =>
    if pt.enable then
      let b := b.blUpd p fun x => { x with enable := false, st := .listen }
      if blUp pt then blSendCycle now p false (blIntegrate now p b) else b
    else b
  | .listen => b
  | _ => blSendCycle now p false b

/-- The cycle start of the present tick, once, after a matrix start that falls on it (R400). -/
def cycleAt (now : Nat) (b : Block) : Block :=
  let b := matrixAt now b
  if isCycle b now then once 320 (forN 12 (portCycle now)) b else b

/-! ### DOWN windows -/

/-- The DOWN window of a port whose assembly tick is `now` (R426): entry, window, cycle start, cycle, matrix counter. -/
def blDownAt (b : Block) (now p : Nat) (kind : Nat → Bool) : Option (Nat × BlWin × Nat × Nat × Nat) :=
  let t := blNow b.net
  if b.net.st ≠ .run || now < b.net.from_ then none
  else
    let c := blCycleAt b.net t now
    (((List.range t.wins.length).zip t.wins).find? fun e =>
      !e.2.up && decide (e.2.port = p) && kind e.2.kind && blOccurs e.2 c.2.1 && decide (c.1 + 10 * e.2.ofs = now + 200)).map fun e => (e.1, e.2, c.1, c.2.1, c.2.2)

/-- A frame of the star in a window: type, FWD, SRC, DST, FIDX, payload (R395, R404). -/
def blDownFrame (b : Block) (p k cyc mat fidx type : Nat) (fwd : Bool) (src dst : Nat) (pl : List Byte) : List Byte :=
  let key := blSealKey b.cfg p (b.blAt p)
  let h := fhMake type fwd key.isSome src dst (pl.length / 4) mat fidx cyc k
  blFrame key (blNonce 0 p k (leAt h 6 1) mat) h pl

/-- The SETPOINT frame of a window (R426, R427). -/
def spFrame (now p k : Nat) (w : BlWin) (cs cyc mat : Nat) (b : Block) : Block :=
  let ss := nxBound b.cfg p w.bind
  let b := forL ss (fun s x =>
    let r := nxSelect now (x.blnxAt s)
    (x.blnxUpd s fun _ => r.1).blUpd p fun pt => { pt with spDrop := satAdd 255 pt.spDrop r.2 }) b
  let pl := ss.flatMap fun s => nxRecBytes b.cfg s (b.blnxAt s).last
  b.blUpd p fun pt => { pt with tx := [(cs + 10 * w.ofs, blDownFrame b p k cyc mat 0 2 false 0x80 p pl)] }

/-- The connections that send in a binding point, ascending (R536, R539). -/
def connsOf (b : Block) (p bind : Nat) : List Nat :=
  (List.range 48).filter fun c => Fld.SF_CONN_CFG_EN b.cfg c && !Fld.SF_CONN_CFG_PATH b.cfg c && decide (Fld.SF_CONN_CFG_PORT b.cfg c = p)
    && decide (Fld.SF_CONN_CFG_BIND_DN b.cfg c = bind)

/-- The SAFETY frame of a window (R539): one PDU of each connection, formed at the assembly tick. -/
def sfFrame (now p k : Nat) (w : BlWin) (cs cyc mat : Nat) (b : Block) : Block :=
  let cs' := connsOf b p w.bind
  let b := forL cs' (connForm now) b
  let pl := cs'.flatMap fun c => (b.connAt c).pdu
  b.blUpd p fun pt => { pt with tx := [(cs + 10 * w.ofs, blDownFrame b p k cyc mat 0 4 false 0x80 p pl)] }

/-- DOWN_WINDOW_ASSEMBLY (R405, R426, R427, R539): a port in RUN or BLOCKED; a sealed port only with its key. -/
def downAssembly (now p : Nat) (b : Block) : Block :=
  let pt := b.blAt p
  if !(decide (blEff pt = .run) || decide (blEff pt = .blocked)) || (Fld.BL_PORT_CFG_SEAL b.cfg p && !pt.key.ok) then b
  else
    match blDownAt b now p (· == 0) with
    | some (k, w, cs, cyc, mat) =>
      if w.ftype = 2 then once (330 + p) (spFrame now p k w cs cyc mat) b
      else if w.ftype = 4 then once (330 + p) (sfFrame now p k w cs cyc mat) b
      else b
    | none => b

/-- What waits for an arbitrating window: type, FWD, SRC, DST, payload (R418). -/
structure DownItem where
  type : Nat := 5
  fwd : Bool := false
  /-- the item is a host frame -/
  host : Bool := false
  src : Nat := 0x80
  dst : Nat := 0
  pl : List Byte := []
  deriving DecidableEq, Repr

/-- A JOIN_ACK payload (R403). -/
def joinAckBytes (result run : Nat) : List Byte := leBytes 1 result ++ leBytes 3 0 ++ leBytes 6 run ++ leBytes 2 0

/-- A KEY payload as it leaves in a window of matrix `mat`: ACTIVATE of a CONFIRM is filled in (R579). -/
def keyBytes (pl : List Byte) (act : Nat) : List Byte := if leAt pl 0 1 = 3 then pl.take 0x78 ++ leBytes 6 act ++ pl.drop 0x7E else pl

/-- The queue of a port in the order of R418; `run` is the RUN_MATRIX of a JOIN_ACK, `act` the ACTIVATE of a CONFIRM. -/
def downQueue (b : Block) (now p run act : Nat) : List DownItem :=
  let pt := b.blAt p
  let ack := match pt.joinAck with
    | some (r, res) => if r < now then [({ type := 8, dst := p, pl := joinAckBytes (if res ≠ 0 then res else if pt.st = .integrating then 0 else 2) run } : DownItem)] else []
    | none => []
  let data := decide (blEff pt ≠ .integrating)
  ack ++ pt.keyq.map (fun k => { type := 9, dst := p, pl := keyBytes k act })
    ++ (if data then pt.fwdq.map fun f => { type := 5, fwd := true, src := f.1, dst := f.2.1, pl := f.2.2 } else [])
    ++ (if data then pt.hostq.map fun f => { type := 5, fwd := f.1, host := true, src := 0x80, dst := f.2.1, pl := f.2.2 } else [])

/-- How many of the first four items fit into a slot, in order, back to back (R392, R418). -/
def downFit (sealed_ : Bool) : Nat → Nat → List DownItem → Nat
  | 0, _, _ => 0
  | _, _, [] => 0
  | n + 1, room, i :: r =>
    let d := blFrameNs sealed_ (i.pl.length / 4)
    if d ≤ room then 1 + downFit sealed_ n (room - d - 128) r else 0

/-- The frames of an arbitrating window from a start tick. -/
def downFrames (b : Block) (p k cyc mat : Nat) : Nat → Nat → List DownItem → List (Nat × List Byte)
  | _, _, [] => []
  | x, i, q :: r =>
    (x, blDownFrame b p k cyc mat i q.type q.fwd q.src q.dst q.pl)
      :: downFrames b p k cyc mat (x + blFrameNs (blSealKey b.cfg p (b.blAt p)).isSome (q.pl.length / 4) + 128) (i + 1) r

/-- The port after items of its queue have been sent (R440, R580). -/
def downSent (run act mat : Nat) (items : List DownItem) (pt : BlPort) : BlPort :=
  items.foldl (fun x i =>
    if i.type = 8 then { x with joinAck := none, runAt := if leAt i.pl 0 1 = 0 then some run else x.runAt }
    else if i.type = 9 then
      let k := x.key
      { x with keyq := x.keyq.drop 1
               key := if leAt i.pl 0 1 = 1 then { k with offerAt := mat } else if leAt i.pl 0 1 = 3 then { k with activate := some act, kex := 2 } else k }
    else if i.host then { x with hostq := x.hostq.drop 1 } else { x with fwdq := x.fwdq.drop 1 }) pt

/-- ARBITRATING_DOWN_WINDOW (R418), at the window's assembly tick. -/
def arbAssembly (now p : Nat) (b : Block) : Block :=
  let st := blEff (b.blAt p)
  if !(decide (st = .run) || decide (st = .blocked) || decide (st = .integrating)) then b
  else
    match blDownAt b now p (· == 1) with
    | some (k, w, cs, cyc, mat) =>
      once (350 + p) (fun b =>
        let t := blNow b.net
        let slotEnd := cs + 10 * (w.ofs + w.len)
        let runTick := b.net.anchor + ((slotEnd - b.net.anchor) / max 1 (blMatNs t) + 1) * blMatNs t
        let act := mat + 2 + Config.activateMore b.draws
        let sealed_ := Fld.BL_PORT_CFG_SEAL b.cfg p && !(b.blAt p).key.ok
        let q := (downQueue b now p (blCycleAt b.net t runTick).2.2 act).filter fun i => !sealed_ || decide (i.type = 9)
        let n := downFit (blSealKey b.cfg p (b.blAt p)).isSome 4 (10 * w.len) q
        let items := q.take n
        let fs := downFrames b p k cyc mat (cs + 10 * w.ofs) 0 items
        nextDraw (b.blUpd p fun pt => { downSent runTick act mat items pt with tx := fs })) b
    | none => b

/-! ### UP windows -/

/-- The UP occurrences of a port that close at `now`: entry, window, cycle start. -/
def blClosing (b : Block) (now p : Nat) : List (Nat × BlWin × Nat) :=
  let t := blNow b.net
  if b.net.st ≠ .run || decide (blCycNs t = 0) then []
  else
    ((List.range t.wins.length).zip t.wins).filterMap fun e =>
      let d := 10 * (e.2.ofs + e.2.len + t.guard)
      let cs := now - d
      if e.2.up && decide (e.2.port = p) && decide (b.net.from_ + d ≤ now) && decide (b.net.anchor + d ≤ now) && decide ((cs - b.net.anchor) % blCycNs t = 0)
          && blOccurs e.2 (blCycleAt b.net t cs).2.1 then some (e.1, e.2, cs) else none

/-- A frame of channel `chB` that still arrives at the close tick is clipped (R413, R416). -/
def clipArriving (now p : Nat) (chB : Bool) (opens : Nat) (b : Block) : Block :=
  let pt := b.blAt p
  let late := match (if chB then pt.busyB else pt.busyA) with
    | some x => decide (opens ≤ x) && decide (x < now)
    | none => false
  if late && blChan b.cfg p chB then
    blSet now p (fun x =>
      let y := blClip { x with sofSeen := true }
      if chB then { y with busyB := none, errB := satAdd 65535 y.errB 1 } else { y with busyA := none, errA := satAdd 65535 y.errA 1 }) b
  else b

/-- One missed feedback occurrence of a slot (R430). -/
def nxMiss (now k : Nat) (b : Block) : Block :=
  let n := min 255 ((b.blnxAt k).misses + 1)
  let b := b.blnxUpd k fun x => { x with misses := n }
  if Fld.BL_NX_CFG_LOSS_N b.cfg k ≤ n then nxLose now k b else b

/-- An UP occurrence closes (R413, R423, R430). -/
def closeOcc (now p : Nat) (e : Nat × BlWin × Nat) (b : Block) : Block :=
  let w := e.2.1
  let o := blOcc (b.blAt p) e.1 e.2.2
  let opens := blOpen (blNow b.net) w e.2.2
  let b := clipArriving now p true opens (clipArriving now p false opens b)
  let lone := decide (w.kind = 0) && decide (Fld.BL_PORT_CFG_CHAN b.cfg p = 3) && !o.got.isEmpty
    && (o.got.all (fun g => g.2.1) || o.got.all fun g => !g.2.1)
  let b := b.blUpd p fun pt =>
    { pt with single := if lone then satAdd 65535 pt.single 1 else pt.single
              occs := pt.occs.filter fun q => !decide (q.win = e.1 ∧ q.cyc = e.2.2) }
  if decide (w.kind = 0) && decide (w.ftype = 3) then
    forL ((nxOfPort b p).filter fun k => decide (Fld.BL_NX_BIND_BIND_UP b.cfg k = w.bind) && !bit o.drives (Fld.BL_NX_BIND_DRIVE b.cfg k)) (nxMiss now) b
  else b

/-- WINDOW_CLOSE: every occurrence of a port that closes at `now`, once. -/
def windowClose (now p : Nat) (b : Block) : Block :=
  match blClosing b now p with
  | [] => b
  | es => once (370 + p) (forL es (closeOcc now p)) b

/-! ### Received frames -/

/-- The port when a copy has come to its end on its channel. -/
def rxEnded (r : RxCopy) (x : BlPort) : BlPort := if r.chB then { x with busyB := none } else { x with busyA := none }

/-- A copy that is not taken (R399, R405, R412, R413). -/
def rxBad (now p : Nat) (e : RxBad) (r : RxCopy) (b : Block) : Block := blSet now p (fun x => blBad b.net p e r (rxEnded r x)) b

/-- A copy reaches the star: it is judged and counted; `act` is what the first valid copy does (R399, R412, R413, R422, R439). -/
def blReceive (now p : Nat) (r : RxCopy) (act : BlWin → Nat → Block → Block) (b : Block) : Block :=
  let pt := b.blAt p
  match blJudge b.cfg b.net now p pt r with
  | .error e => rxBad now p e r b
  | .ok (k, w, cs) =>
    if blTakes b.cfg p pt w (fhType r.bytes) then
      let x := blTake k cs w r (rxEnded r pt)
      let b := b.blUpd p fun _ => { x.1 with mack := x.1.mack || (fhMack r.bytes && (blAnnounces b now).isSome) }
      let b := if decide (pt.st = .integrating) && decide (w.kind = 0) && !Fld.BL_NET_CFG_JOIN b.cfg then blRun p b else b
      if x.2 then act w cs b else b
    else b.blUpd p fun x => { rxEnded r x with sofSeen := true }

/-- A command for one frame type acts on copies of that type only. -/
def blRxType (type : Nat) (now p : Nat) (r : RxCopy) (act : BlWin → Nat → Block → Block) (b : Block) : Block :=
  if fhType r.bytes = type then blReceive now p r act b else b

/-- The records of a FEEDBACK payload (R402, R429, R430). -/
def feedbackRecs (now p : Nat) (bs : List Byte) (w : BlWin) (cs : Nat) (b : Block) : Block :=
  let pl := fhPayload bs
  let k := fhWindow bs
  (List.range (fhLen bs / 6)).foldl (fun x i =>
    let o := 24 * i
    let d := leAt pl (o + 22) 1
    let seen := (List.range i).any fun q => decide (leAt pl (24 * q + 22) 1 = d)
    if seen || decide (8 ≤ d) then x
    else
      match nxSlotOf x.cfg p d with
      | none => x
      | some s =>
        let tf := ((cs : Int) + signed 32 (leAt pl (o + 16) 4)).toNat
        let x := x.blnxUpd s fun y =>
          { y with lost := false, misses := 0
                   relay := y.relay ++ [{ tf := tf, pos := BitVec.ofNat 64 (leAt pl o 8), vel := BitVec.ofNat 64 (leAt pl (o + 8) 8), status := leAt pl (o + 23) 1, at_ := now }] }
        if w.bind = Fld.BL_NX_BIND_BIND_UP x.cfg s then
          x.blUpd p fun pt =>
            let oc := blOcc pt k cs
            blPutOcc { oc with drives := if bit oc.drives d then oc.drives else oc.drives + 2 ^ d } pt
        else x) b

/-- FEEDBACK_FRAME_RX (R429). -/
def feedbackRx (now p : Nat) (r : RxCopy) : Block → Block := blRxType 3 now p r (feedbackRecs now p r.bytes)

/-- The records of a partner's SETPOINT payload: to the inputs bound to them (R431). -/
def setpointRecs (now p : Nat) (bs : List Byte) (w : BlWin) (b : Block) : Block :=
  let pl := fhPayload bs
  (List.range (fhLen bs / 8)).foldl (fun x i =>
    let o := 32 * i
    let ins := (List.range 256).filter fun n =>
      Fld.BL_SPIN_EN x.cfg (n / 32) (n % 32) && decide (Fld.BL_SPIN_PORT x.cfg (n / 32) (n % 32) = p)
        && decide (Fld.BL_SPIN_DRIVE x.cfg (n / 32) (n % 32) = leAt pl (o + 24) 1) && decide (Fld.BL_SPIN_BIND x.cfg (n / 32) (n % 32) = w.bind)
    { x with spFly := x.spFly ++ ins.map fun n => { dst := n, apply := leAt pl o 8, val := (BitVec.ofNat 64 (leAt pl (o + 8) 8)).toInt, src := 16 + p, at_ := now } }) b

/-- SETPOINT_FRAME_RX (R431). -/
def setpointRx (now p : Nat) (r : RxCopy) : Block → Block := blRxType 2 now p r fun w _ => setpointRecs now p r.bytes w

/-- SAFETY_FRAME_RX (R536, R539). -/
def safetyRx (now p : Nat) (r : RxCopy) : Block → Block :=
  blRxType 4 now p r fun w _ b =>
    (List.range (fhLen r.bytes / 5)).foldl (fun x i =>
      connDeliver now (fun c => !Fld.SF_CONN_CFG_PATH x.cfg c && decide (Fld.SF_CONN_CFG_PORT x.cfg c = p) && decide (Fld.SF_CONN_CFG_BIND_UP x.cfg c = w.bind))
        (slice (fhPayload r.bytes) (20 * i) 20) x) b

/-- A DATA frame is forwarded to port `q` (R420, R421). -/
def forwardTo (src dst : Nat) (pl : List Byte) (q : Nat) (b : Block) : Block :=
  b.blUpd q fun pt =>
    if pt.fwdq.length + pt.hostq.length < 8 then { pt with fwdq := pt.fwdq ++ [(src, dst, pl)] } else { pt with fwdDrop := satAdd 255 pt.fwdDrop 1 }

/-- A valid DATA frame (R420, R421). -/
def dataTake (p : Nat) (bs : List Byte) (b : Block) : Block :=
  let d := fhDst bs
  let pl := fhPayload bs
  let ok := fun q => decide (q ≠ p) && bit (Fld.BL_PORT_FWD_DEST b.cfg p) q
  if fhFwd bs then
    let qs := (List.range 12).filter fun q => ok q && (decide (d = q) || decide (d = 0xFF))
    if qs.isEmpty then b.blUpd p fun pt => { pt with fwdDrop := satAdd 255 pt.fwdDrop 1 }
    else forL qs (forwardTo p d pl) b
  else if d = 0x80 then
    b.blUpd p fun pt => if pt.rxq.length < 16 then { pt with rxq := pt.rxq ++ [slice bs 0 8 ++ pl] } else { pt with rxDrop := satAdd 255 pt.rxDrop 1 }
  else b.blUpd p fun pt => { pt with fwdDrop := satAdd 255 pt.fwdDrop 1 }

/-- The stamp of a DATA frame, converted (R453, R464). -/
def dataStamp (now p stamp : Nat) (b : Block) : Block :=
  b.blStampUpd p fun y => { y with rxNt := (ntConvert b.nt stamp now).1, rxEpoch := b.nt.epoch }

/-- DATA_FRAME_RX (R420, R464). -/
def dataRx (now p : Nat) (r : RxCopy) : Block → Block := blRxType 5 now p r fun _ _ b => dataStamp now p r.stamp (dataTake p r.bytes b)

/-- JOIN_FRAME_RX (R440, R441). -/
def joinRx (now p : Nat) (r : RxCopy) : Block → Block :=
  blRxType 7 now p r fun _ _ b =>
    let pl := fhPayload r.bytes
    let ok := blIdentity b.cfg p pl
    b.blUpd p fun pt =>
      { pt with rxid := BitVec.ofNat 64 (leAt pl 0 4 + 2 ^ 32 * (leAt pl 4 2 + 65536 * leAt pl 6 2))
                joinAck := some (now, if ok then 0 else 1), joinRefused := if ok then pt.joinRefused else satAdd 255 pt.joinRefused 1 }

/-- The pinned key of a port (R578). -/
def peerHash (b : Block) (p : Nat) : List Byte := (List.range 12).flatMap fun w => leBytes 4 (Fld.SEC_PEER_HASH b.cfg p w)

/-- A KEY payload from a partner (R579, R580): a valid ACCEPT leads to a CONFIRM. -/
def keyTake (p : Nat) (pl : List Byte) (b : Block) : Block :=
  let k := (b.blAt p).key
  if leAt pl 0 1 ≠ 2 || leAt pl 1 1 ≠ k.nextId || k.kex ≠ 1 || pl.length ≠ 216 then b
  else
    let msg := leBytes 1 p ++ deviceId b ++ k.offer ++ pl.take 0x78
    if !Config.ecdsaPinned (peerHash b p) (Config.sha384 msg) (slice pl 0x78 96) then
      b.blUpd p fun pt => { pt with key := { pt.key with fail := satAdd 65535 pt.key.fail 1 } }
    else
      let sec := Config.ecdh k.eph (slice pl 0x14 97)
      let key := slice (Config.hkdf sec (k.nonce ++ slice pl 4 16) (leBytes 1 p ++ leBytes 1 k.nextId) 32) 0 32
      let conf := leBytes 1 3 ++ leBytes 1 k.nextId ++ leBytes 2 0 ++ slice (Config.sha384 (key ++ leBytes 1 k.nextId)) 0 16 ++ List.replicate 196 0
      b.blUpd p fun pt => { pt with keyq := [conf], key := { pt.key with kex := 2, next := key } }

/-- KEY_FRAME_RX (R580). -/
def keyRx (now p : Nat) (r : RxCopy) : Block → Block := blRxType 9 now p r fun _ _ => keyTake p (fhPayload r.bytes)

/-- KEY_OFFER_RETRY (R580, R581): 8 matrices after the OFFER was sent. -/
def keyRetry (now p : Nat) (b : Block) : Block :=
  let k := (b.blAt p).key
  let m := (blCycleAt b.net (blNow b.net) now).2.2
  if Fld.BL_PORT_CFG_SEAL b.cfg p && decide (k.kex = 1) && (b.blAt p).keyq.isEmpty && decide (b.net.st = .run) && decide (k.offerAt + 8 ≤ m) then
    keyOffer p (b.blUpd p fun pt => { pt with key := { pt.key with nextId := pt.key.keyId, fail := if k.ok then satAdd 65535 k.fail 1 else k.fail } })
  else b

/-- STARTUP_FRAME_RX (R436, R437). -/
def startupRx (now p : Nat) (r : RxCopy) (b : Block) : Block :=
  let bs := r.bytes
  let n := b.net
  let ok := r.clean && blShape bs && decide (fhType bs = 6) && decide (fhLen bs = 5) && decide (fhSrc bs = p) && !fhSealed bs
    && decide (blRxTick r = now) && !Fld.BL_PORT_CFG_SEAL b.cfg p && rxHeard b.cfg p (b.blAt p) r.chB && Fld.BL_PORT_CFG_COLDSTART b.cfg p
  if decide (n.st ≠ .listen) || n.qsDone || !ok then b
  else if bits (leAt (fhPayload bs) 7 1) 0 3 ≠ Fld.BL_MODE_MODE b.cfg then { b with net := { n with qsMismatch := true } }
  else
    match n.qs with
    | none => { b with net := { n with qs := some { port := p, stamp := r.stamp, frame := bs } } }
    | some q =>
      if decide (q.stamp / 10 = r.stamp / 10) && decide (p < q.port) then { b with net := { n with qs := some { port := p, stamp := r.stamp, frame := bs } } } else b

/-- QUICKSET_DECISION (R436). -/
def quicksetDecide (now : Nat) (b : Block) : Block :=
  match b.net.qs with
  | none => b
  | some q =>
    if decide (truncTick q.stamp + 1300 ≤ now) && !b.net.qsDone then
      let pl := fhPayload q.frame
      let t := blNow b.net
      let c0 := truncTick (q.stamp - Fld.BL_PORT_CFG_DLY b.cfg q.port)
      let b := { b with net := { b.net with anchor := c0 - blCycNs t * leAt pl 6 1, ctr0 := leAt pl 0 6, from_ := c0 + blCycNs t, st := .run, qs := none, qsDone := true, qsPort := q.port } }
      let b := forN 12 (fun p x =>
        if decide (p ≠ q.port) && Fld.BL_PORT_CFG_EN x.cfg p && decide ((x.blAt p).st ≠ .off) then x.blUpd p fun pt => { pt with tx := [(now, q.frame)] } else x) b
      blJoinAll now b
    else b

/-- QUICKSET_EXPIRED (R438). -/
def quicksetExpire (now : Nat) (b : Block) : Block :=
  let n := b.net
  if decide (n.st = .listen) && decide (Fld.BL_NET_CFG_START b.cfg = 1) && !n.qsDone && !n.qsExpired && decide (n.bootAt + Fld.BL_NET_CFG_QS_WAIT b.cfg * 1000000 ≤ now) then
    let b := { b with net := { n with qsExpired := true } }
    if Fld.BL_NET_CFG_QS_FALLBACK b.cfg then starStart now { b with net := { b.net with qs := none } } else b
  else b

/-! ### Ports and channels -/

/-- CHANNEL_UP (R393, R433). -/
def channelUp (now p : Nat) (chB : Bool) (b : Block) : Block :=
  if !blChan b.cfg p chB then b
  else
    let b := b.blUpd p fun pt => if chB then { pt with upB := true } else { pt with upA := true }
    if decide ((b.blAt p).st = .listen) && decide (b.net.st = .run) then blIntegrate now p b else b

/-- CHANNEL_DOWN (R393, R433). -/
def channelDown (now p : Nat) (chB : Bool) (b : Block) : Block :=
  let b := b.blUpd p fun pt => if chB then { pt with upB := false } else { pt with upA := false }
  let pt := b.blAt p
  if !blUp pt && (decide (pt.st = .integrating) || decide (pt.st = .run) || decide (pt.st = .blocked)) then
    blSet now p (fun x => { x with st := .listen }) b
  else b

/-- BL_PORT_CTRL.ENABLE (R446). -/
def portEnable (p : Nat) (b : Block) : Block :=
  b.blUpd p fun pt =>
    if !Fld.BL_PORT_CFG_EN b.cfg p then { pt with enRefused := true }
    else match pt.st with
      | .stopping => { pt with enPending := true }
      | .off => { pt with enable := true }
      | _ => pt

/-- BL_PORT_CTRL.DISABLE (R446). -/
def portDisable (now p : Nat) (b : Block) : Block :=
  b.blUpd p fun pt =>
    match pt.st with
    | .off => { pt with enable := false }
    | .stopping => { pt with enPending := false }
    | st => { pt with st := .stopping, stopFrom := st, disAt := now, left := false }

/-- One tick of the signal-detect lands of a port (R389, R390, R393): a channel in use whose land is inactive at every tick of 1 µs becomes DOWN. -/
def signalTick (now p : Nat) (b : Block) : Block :=
  let one := fun (chB : Bool) (b : Block) =>
    if !blChan b.cfg p chB then b
    else
      let pt := b.blAt p
      let off := decide ((if chB then pt.sdB else pt.sdA) ≠ Fld.BL_PORT_CFG_SD_POL b.cfg p)
      let n := if off then min 100 ((if chB then pt.sdOffB else pt.sdOffA) + 1) else 0
      if decide (n = (if chB then pt.sdOffB else pt.sdOffA)) && !(off && (if chB then pt.upB else pt.upA)) then b
      else
        let b := b.blUpd p fun x => if chB then { x with sdOffB := n } else { x with sdOffA := n }
        if decide (n = 100) && (if chB then pt.upB else pt.upA) then channelDown now p chB b else b
  one true (one false b)

/-- What the network does at a tick. -/
def berathTick (now : Nat) (b : Block) : Block :=
  let b := cycleAt now (blGo now (quicksetDecide now (quicksetExpire now (forN 12 (signalTick now) b))))
  forN 12 (fun p x =>
    if decide ((x.blAt p).st = .off) then x else keyRetry now p (arbAssembly now p (downAssembly now p (windowClose now p x)))) b

end Sys2Proof.Machine
end

