-- ==== Sys2Proof/Machine/BerathRows.lean ====
section
/-! DEFINITION. Commands of the Berath network (chapter 11 and the port keys of chapter 15). -/

namespace Sys2Proof.Machine

/-- A copy that fails a condition of validity is counted, and nothing else (R399). -/
def invalidRx (now p : Nat) (r : RxCopy) (b : Block) : Block :=
  match blJudge b.cfg b.net now p (b.blAt p) r with
  | .error e => rxBad now p e r b
  | .ok _ => b

/-- CYCLE_START (R400). -/
def execCycleStart (s : State) : Host.Outcome State Fault Refusal := onRun (fun now => cycleAt now) s

/-- MATRIX_START (R408). -/
def execMatrixStart (s : State) : Host.Outcome State Fault Refusal := onRun (fun now => matrixAt now) s

/-- REKEY (R581). -/
def execRekey (p : Fin 12) (s : State) : Host.Outcome State Fault Refusal := onRun (fun _ => rekeyOp p) s

/-- DOWN_WINDOW_ASSEMBLY (R426). -/
def execDownWindowAssembly (p : Fin 12) (s : State) : Host.Outcome State Fault Refusal := onRun (fun now => downAssembly now p) s

/-- ARBITRATING_DOWN_WINDOW (R418). -/
def execArbitratingDownWindow (p : Fin 12) (s : State) : Host.Outcome State Fault Refusal := onRun (fun now => arbAssembly now p) s

/-- KEY_OFFER_RETRY (R580). -/
def execKeyOfferRetry (p : Fin 12) (s : State) : Host.Outcome State Fault Refusal := onRun (fun now => keyRetry now p) s

/-- WINDOW_CLOSE (R411, R413). -/
def execWindowClose (p : Fin 12) (s : State) : Host.Outcome State Fault Refusal := onRun (fun now => windowClose now p) s

/-- FEEDBACK_FRAME_RX (R429). -/
def execFeedbackFrameRx (p : Fin 12) (c : RxCopy) (s : State) : Host.Outcome State Fault Refusal := onRun (fun now => feedbackRx now p c) s

/-- SETPOINT_FRAME_RX (R431). -/
def execSetpointFrameRx (p : Fin 12) (c : RxCopy) (s : State) : Host.Outcome State Fault Refusal := onRun (fun now => setpointRx now p c) s

/-- SAFETY_FRAME_RX (R539). -/
def execSafetyFrameRx (p : Fin 12) (c : RxCopy) (s : State) : Host.Outcome State Fault Refusal := onRun (fun now => safetyRx now p c) s

/-- DATA_FRAME_RX (R420). -/
def execDataFrameRx (p : Fin 12) (c : RxCopy) (s : State) : Host.Outcome State Fault Refusal := onRun (fun now => dataRx now p c) s

/-- STARTUP_FRAME_RX (R436). -/
def execStartupFrameRx (p : Fin 12) (c : RxCopy) (s : State) : Host.Outcome State Fault Refusal := onRun (fun now => startupRx now p c) s

/-- JOIN_FRAME_RX (R440). -/
def execJoinFrameRx (p : Fin 12) (c : RxCopy) (s : State) : Host.Outcome State Fault Refusal := onRun (fun now => joinRx now p c) s

/-- KEY_FRAME_RX (R580). -/
def execKeyFrameRx (p : Fin 12) (c : RxCopy) (s : State) : Host.Outcome State Fault Refusal := onRun (fun now => keyRx now p c) s

/-- INVALID_COPY_RX (R399): a copy that the star does not take, of whatever type it claims to be. -/
def execInvalidCopyRx (p : Fin 12) (c : RxCopy) (s : State) : Host.Outcome State Fault Refusal := onRun (fun now => invalidRx now p c) s

/-- CHANNEL_UP (R393). -/
def execChannelUp (p : Fin 12) (chB : Bool) (s : State) : Host.Outcome State Fault Refusal := onRun (fun now => channelUp now p chB) s

/-- CHANNEL_DOWN (R393). -/
def execChannelDown (p : Fin 12) (chB : Bool) (s : State) : Host.Outcome State Fault Refusal := onRun (fun now => channelDown now p chB) s

/-- QUICKSET_DECISION (R436). -/
def execQuicksetDecision (s : State) : Host.Outcome State Fault Refusal := onRun (fun now => quicksetDecide now) s

/-- QUICKSET_EXPIRED (R438). -/
def execQuicksetExpired (s : State) : Host.Outcome State Fault Refusal := onRun (fun now => quicksetExpire now) s

/-- BL_PORT_ENABLE (R446). -/
def execBlPortEnable (p : Fin 12) (s : State) : Host.Outcome State Fault Refusal := onRun (fun _ => portEnable p) s

/-- BL_PORT_DISABLE (R446). -/
def execBlPortDisable (p : Fin 12) (s : State) : Host.Outcome State Fault Refusal := onRun (fun now => portDisable now p) s

/-- BL_CLR_STATS (R415). -/
def execBlClrStats (p : Fin 12) (s : State) : Host.Outcome State Fault Refusal := onRun (fun _ b => b.blUpd p blClear) s

end Sys2Proof.Machine
end

