-- ==== Sys2Proof/Machine/Channels.lean ====
section
/-! DEFINITION. Commands of quadrature channels and probes (chapter 06). -/

namespace Sys2Proof.Machine

/-- A channel in use (R31). -/
def chanUsed (b : Block) (t q : Nat) : Bool := Fld.QD_ASSIGN_EN b.cfg t q

/-- The probes in use of a channel. -/
def probesOf (b : Block) (t q : Nat) : List Nat :=
  (List.range 4).filter fun p => Fld.QD_PRB_CFG_EN b.cfg t p && decide (Fld.QD_PRB_CFG_QCH b.cfg t p = q)

/-- A count moves the probe entries whose timestamps it does not follow (R232). -/
def probesCount (t q ts : Nat) (dRaw dh : Int) (b : Block) : Block :=
  let b := forL (probesOf b t q) (fun p x => x.prbUpd t p (prbLateCount ts dRaw dh)) b
  forN 4 (fun p x => if Fld.QD_PRB_CFG_EN x.cfg t p then x.prbUpd t p fun y =>
      if ts ≤ y.lastTs then { y with at_ := vset y.at_ (Fin.ofNat 12 q) ((y.at_.toList.getD q 0) + wrap64 (dh * 2 ^ 16)) } else y
    else x) b

/-- The channel after an accepted change of A or B, with the timestamps of its lands' last changes. -/
def qdTake (g : QdCfg) (now ts : Nat) (lvA lvB : Bool) (x : Qd) : Qd :=
  let y := qdChange g now ts lvA lvB x
  { y with inA := if lvA = x.a then y.inA else { y.inA with acc := some ts }, inB := if lvB = x.b then y.inB else { y.inB with acc := some ts } }

/-- An accepted change of A or B of a channel in use is registered at `now` (R215, R217 to R221, R234). -/
def qdAccept (now t q ts : Nat) (lvA lvB : Bool) (b : Block) : Block :=
  let x := b.qdAt t q
  let y := qdTake (qdCfg b t q) now ts lvA lvB x
  let b := b.qdUpd t q fun _ => y
  let b := if y.flt.illegal && !x.flt.illegal then chanFault now t q b else b
  if y.raw = x.raw then b
  else cmpChannel now t q ts (probesCount t q ts (y.raw - x.raw) (y.h - x.h) b)

/-- A change of A or B with timestamp `ts` to the levels given can be accepted by the filter and registered at `now` (R216, R217): `now` is its first tick, each land
that changes held its level for FILT, and no change of the channel's lands has been registered with that or a later timestamp. -/
def qdAdmits (b : Block) (now t q ts : Nat) (lvA lvB : Bool) : Bool :=
  let x := b.qdAt t q
  let f := Fld.QD_CFG_FILT b.cfg t q
  chanUsed b t q && firstTick f ts now && (decide (lvA = x.a) || heldFor f ts x.inA) && (decide (lvB = x.b) || heldFor f ts x.inB)
    && heldFor 0 ts x.inA && heldFor 0 ts x.inB && heldFor 0 ts x.inZ

/-- QD_COUNT: an accepted change of A or B given as such. -/
def qdChangeOp (now t q ts : Nat) (lvA lvB : Bool) (b : Block) : Block :=
  if qdAdmits b now t q ts lvA lvB then qdAccept now t q ts lvA lvB b else b

/-- QD_COUNT (R217). -/
def execQdCount (t : Fin 8) (q : Fin 8) (ts : Nat) (a : Bool) (b : Bool) (s : State) : Host.Outcome State Fault Refusal :=
  onTile t (fun now => qdChangeOp now t q ts a b) s

/-- The slots in homing state INDEX whose POS_SRC is a channel (R289). -/
def indexSlots (b : Block) (t q : Nat) : List Nat :=
  (List.range 16).filter fun j => decide ((b.genAt t j).hm.st = .index) && decide (posChan b t j = some q)

/-- An accepted change of Z of a channel in use is registered at `now` (R225, R227, R289). -/
def qdIndexAccept (now t q ts : Nat) (z : Bool) (b : Block) : Block :=
  let x := b.qdAt t q
  let (y, ev) := qdIndex (qdCfg b t q) now ts z x
  let b := b.qdUpd t q fun _ => { y with inZ := { y.inZ with acc := some ts } }
  if ev && x.armed.isSome && y.armed.isNone then
    forL (indexSlots b t q) (fun j w => w.genUpd t j (homeRef now (homePos w t j) y.idxPos true)) b
  else b

/-- A change of Z with timestamp `ts` can be accepted by the filter and registered at `now` (R216, R217, R225): the levels of A and B that stand are those at `ts`. -/
def zAdmits (b : Block) (now t q ts : Nat) (z : Bool) : Bool :=
  let x := b.qdAt t q
  let f := Fld.QD_CFG_FILT b.cfg t q
  chanUsed b t q && firstTick f ts now && decide (z ≠ x.z) && heldFor f ts x.inZ && notAfter ts x.inA && notAfter ts x.inB

/-- INDEX_EVENT: an accepted change of Z given as such. -/
def qdIndexOp (now t q ts : Nat) (z : Bool) (b : Block) : Block :=
  if zAdmits b now t q ts z then qdIndexAccept now t q ts z b else b

/-- INDEX_EVENT (R225). -/
def execIndexEvent (t : Fin 8) (q : Fin 8) (ts : Nat) (z : Bool) (s : State) : Host.Outcome State Fault Refusal :=
  onTile t (fun now => qdIndexOp now t q ts z) s

/-- REFVAL of a channel. -/
def refVal (b : Block) (t q : Nat) : DWord := dwOf (Fld.QD_REFVAL_HI_VALUE b.cfg t q) (Fld.QD_REFVAL_LO_VALUE b.cfg t q)

/-- SET_POS, IDX_ARM and IDX_DISARM of QD_CTRL, one bit each. -/
def setPosOp (now t q : Nat) (b : Block) : Block := if chanUsed b t q then b.qdUpd t q (qdSetPos now (refVal b t q)) else b

/-- See `setPosOp`. -/
def idxArmOp (now t q : Nat) (b : Block) : Block := if chanUsed b t q then b.qdUpd t q (qdIdxArm now (refVal b t q)) else b

/-- See `setPosOp`. -/
def idxDisarmOp (t q : Nat) (b : Block) : Block := b.qdUpd t q qdIdxDisarm

/-- SET_POS (R223). -/
def execSetPos (t : Fin 8) (q : Fin 8) (s : State) : Host.Outcome State Fault Refusal :=
  onTile t (fun now => setPosOp now t q) s

/-- IDX_ARM (R227). -/
def execIdxArm (t : Fin 8) (q : Fin 8) (s : State) : Host.Outcome State Fault Refusal :=
  onTile t (fun now => idxArmOp now t q) s

/-- IDX_DISARM (R227). -/
def execIdxDisarm (t : Fin 8) (q : Fin 8) (s : State) : Host.Outcome State Fault Refusal :=
  onTile t (fun _ => idxDisarmOp t q) s

/-- The decrease of ILL_LEAKY at a multiple of ILL_LEAK (R234). -/
def leakOp (now t q : Nat) (b : Block) : Block :=
  let p := Fld.QD_ILL_ILL_LEAK b.cfg t q * 1000
  if chanUsed b t q && decide (p ≠ 0) && decide (now % p = 0) then b.qdUpd t q (qdLeak now) else b

/-- ILL_LEAK (R234). -/
def execIllLeak (t : Fin 8) (q : Fin 8) (s : State) : Host.Outcome State Fault Refusal :=
  onTile t (fun now => leakOp now t q) s

/-- STILL_T has passed with no count (R230). -/
def stillOp (now t q : Nat) (b : Block) : Block := b.qdUpd t q (qdStandstill (qdCfg b t q) now)

/-- STANDSTILL (R230). -/
def execStandstill (t : Fin 8) (q : Fin 8) (s : State) : Host.Outcome State Fault Refusal :=
  onTile t (fun now => stillOp now t q) s

/-- The positions at timestamp `ts` of the channels and of the pulse axes of a tile, Q48.16 (R232, R289). -/
def positionsAt (b : Block) (t ts : Nat) : Vector DWord 12 :=
  Vector.ofFn fun i =>
    if i.val < 8 then let q := b.qdAt t i; qdPos q (qdAtTs q ts).2
    else wrap64 ((pulseXAt ts (b.pulseAt t (i - 8))).toInt * 65536)

/-- An accepted change of a probe in use is registered at `now` (R232, R233): the FIFO takes the edges that EDGE selects, and an edge it takes is an event of the
trigger sequencer (R375). -/
def prbAccept (now t p ts : Nat) (rising : Bool) (b : Block) : Block :=
  let q := b.qdAt t (Fld.QD_PRB_CFG_QCH b.cfg t p)
  let at_ := positionsAt b t ts
  let full := decide (16 ≤ (b.prbAt t p).fifo.length)
  let b := b.prbUpd t p fun y => { y with level := rising, lastTs := ts, at_ := at_, inp := { y.inp with acc := some ts } }
  if bit (Fld.QD_PRB_CFG_EDGE b.cfg t p) (if rising then 0 else 1) then
    let b := b.prbUpd t p (prbEdge q ts rising)
    if full then b else acqEvent now t (4 + p) b
  else b

/-- PROBE_EDGE: an accepted change of a probe given as such; the filter can accept it and register it at `now` (R216, R217). -/
def prbEdgeOp (now t p ts : Nat) (rising : Bool) (b : Block) : Block :=
  let f := Fld.QD_PRB_CFG_FILT b.cfg t p
  let y := b.prbAt t p
  if Fld.QD_PRB_CFG_EN b.cfg t p && firstTick f ts now && decide (rising ≠ y.level) && heldFor f ts y.inp then prbAccept now t p ts rising b else b

/-- A number put in its place in an ascending list, once. -/
def insertUp (n : Nat) : List Nat → List Nat
  | [] => [n]
  | m :: r => if n < m then n :: m :: r else if n = m then m :: r else m :: insertUp n r

/-- The changes of a channel's lands that are registered at tick `now` (R216, R217), in the order of their timestamps, A and B before Z. -/
def chanInputs (now t q : Nat) (b : Block) : Block :=
  let x := b.qdAt t q
  if x.inA.edges.isEmpty && x.inB.edges.isEmpty && x.inZ.edges.isEmpty then b
  else
    let f := Fld.QD_CFG_FILT b.cfg t q
    let (da, wa) := holdJudge f now x.a x.inA.edges
    let (db, wb) := holdJudge f now x.b x.inB.edges
    let (dz, wz) := holdJudge f now x.z x.inZ.edges
    let b := b.qdUpd t q fun y => { y with inA := { y.inA with edges := wa }, inB := { y.inB with edges := wb }, inZ := { y.inZ with edges := wz } }
    let times := (da ++ db ++ dz).foldl (fun l e => insertUp e.1 l) []
    let at_ := fun (l : List (Nat × Bool)) (ts : Nat) => (l.find? fun e => decide (e.1 = ts)).map (·.2)
    forL times (fun ts b =>
      if chanUsed b t q then
        let y := b.qdAt t q
        let b := if (at_ da ts).isSome || (at_ db ts).isSome then qdAccept now t q ts ((at_ da ts).getD y.a) ((at_ db ts).getD y.b) b else b
        match at_ dz ts with
        | some z => qdIndexAccept now t q ts z b
        | none => b
      else b.qdUpd t q fun y => { y with a := (at_ da ts).getD y.a, b := (at_ db ts).getD y.b, z := (at_ dz ts).getD y.z }) b

/-- The changes of a probe that are registered at tick `now` (R216, R217). -/
def probeInputs (now t p : Nat) (b : Block) : Block :=
  let x := b.prbAt t p
  if x.inp.edges.isEmpty then b
  else
    let (d, w) := holdJudge (Fld.QD_PRB_CFG_FILT b.cfg t p) now x.level x.inp.edges
    let b := b.prbUpd t p fun y => { y with inp := { y.inp with edges := w } }
    forL d (fun e b => if Fld.QD_PRB_CFG_EN b.cfg t p then prbAccept now t p e.1 e.2 b else b.prbUpd t p fun y => { y with level := e.2 }) b

/-- The filtered inputs of a tile at a tick: what is registered belongs to the next frame (R217). -/
def tileInputs (now t : Nat) (b : Block) : Block := forN 4 (fun p => probeInputs now t p) (forN 8 (fun q => chanInputs now t q) b)

/-- PROBE_EDGE (R232). -/
def execProbeEdge (t : Fin 8) (p : Fin 4) (ts : Nat) (rising : Bool) (s : State) : Host.Outcome State Fault Refusal :=
  onTile t (fun now => prbEdgeOp now t p ts rising) s

/-- PRB_POP (R233). -/
def execPrbPop (t : Fin 8) (p : Fin 4) (s : State) : Host.Outcome State Fault Refusal :=
  onTile t (fun _ b => b.prbUpd t p prbPop) s

/-- PRB_FLUSH (R233). -/
def execPrbFlush (t : Fin 8) (p : Fin 4) (s : State) : Host.Outcome State Fault Refusal :=
  onTile t (fun _ b => b.prbUpd t p prbFlush) s

/-- One tick of the nQRF filter of a channel (R235). -/
def rxTick (t q : Nat) (b : Block) : Block :=
  if chanUsed b t q then
    b.qdUpd t q fun x => qdRxTick (Fld.QD_CFG_RX_FILT b.cfg t q) false (decide (x.flt.nqrf = Fld.QD_CFG_RX_POL b.cfg t q)) x
  else b

/-- nQRF of a monitored channel has been active for the filter run: RX_FAULT sets (R235, R238). -/
def rxTrip (now t q : Nat) (b : Block) : Block :=
  if chanUsed b t q && Fld.QD_CFG_RX_EN b.cfg t q && !(b.qdAt t q).flt.rx then
    chanFault now t q (b.qdUpd t q fun x => { x with flt := { x.flt with rx := true, rxLevel := true } })
  else b

/-- The check of the filtered level. -/
def rxCheck (now t q : Nat) (b : Block) : Block := if (b.qdAt t q).flt.rxLevel then rxTrip now t q b else b

/-- RX_FAULT (R235). -/
def execRxFault (t : Fin 8) (q : Fin 8) (s : State) : Host.Outcome State Fault Refusal :=
  onTile t (fun now => rxTrip now t q) s

/-- QD_FAULT_CLEAR (R239). -/
def execQdFaultClear (t : Fin 8) (q : Fin 8) (mask : Word) (s : State) : Host.Outcome State Fault Refusal :=
  onTile t (fun _ b => b.qdUpd t q (qdFaultClear (qdCfg b t q) mask.toNat)) s

end Sys2Proof.Machine
end

