-- ==== Sys2Proof/Machine/Certs.lean ====
section
/-! DEFINITION. Certificate chains, roles, signature blocks (R90, R551 to R554, R564). -/

namespace Sys2Proof.Machine

/-- Role bits of SEC_SESS_STATE.ROLES. -/
def roleObserve : Nat := 1
def roleOperate : Nat := 2
def roleConfigure : Nat := 4
def roleSafety : Nat := 8
def roleOwner : Nat := 16

/-- The bit of a role name. -/
def roleBit (w : List Char) : Nat :=
  if w = "OBSERVE".toList then roleObserve
  else if w = "OPERATE".toList then roleOperate
  else if w = "CONFIGURE".toList then roleConfigure
  else if w = "SAFETY".toList then roleSafety
  else if w = "OWNER".toList then roleOwner
  else 0

/-- The words of a text between '+' signs. -/
def plusWords : List Char → List (List Char)
  | [] => [[]]
  | c :: r =>
    let ws := plusWords r
    if c = '+' then [] :: ws else (c :: ws.headD []) :: ws.drop 1

/-- The union of two role sets. -/
def roleOr (a b : Nat) : Nat := (BitVec.ofNat 5 a ||| BitVec.ofNat 5 b).toNat

/-- The intersection of two role sets. -/
def roleAnd (a b : Nat) : Nat := (BitVec.ofNat 5 a &&& BitVec.ofNat 5 b).toNat

/-- The roles that a title attribute names (R552): none when it is no role string. -/
def rolesOf (title : Option String) : Option Nat :=
  match title with
  | none => none
  | some s =>
    let l := s.toList
    let pre := "OCX-ROLES:".toList
    if l.take pre.length = pre then some ((plusWords (l.drop pre.length)).foldl (fun m w => roleOr m (roleBit w)) 0) else none

/-- The identifier of a certificate (R553). -/
def certId (der : List Byte) : List Byte := slice (Config.sha384 der) 0 16

/-- SHA-384 as 48 bytes. -/
def hash48 (bs : List Byte) : List Byte := slice (Config.sha384 bs) 0 48

/-- Each certificate is signed by the next, and the last by itself. -/
def issuedChain : List (List Byte) → Bool
  | [] => false
  | [r] => Config.certIssued r r
  | a :: b :: l => Config.certIssued a b && issuedChain (b :: l)

/-- Why a chain is refused. -/
inductive ChainBad where
  | chain | revoked
  deriving DecidableEq, Repr

/-- The judgement of a chain, leaf first and root last, against a root hash (R551, R553). -/
def chainJudge (b : Block) (root : List Byte) (chain : List (List Byte)) : Except ChainBad Unit :=
  let certs := chain.map Config.cert
  let timely (c : Option Cert) := match c with
    | some c => !b.bk.rtcValid || (decide (c.notBefore ≤ b.bk.rtc) && decide (b.bk.rtc ≤ c.notAfter))
    | none => false
  let isCa (c : Option Cert) := match c with
    | some c => c.ca
    | none => false
  if 2 ≤ chain.length && chain.length ≤ 4 && certs.all Option.isSome && certs.all timely && (certs.drop 1).all isCa
      && issuedChain chain && decide (hash48 (chain.getLastD []) = root) && !root.isEmpty then
    if chain.any fun c => b.nv.keys.revoked.contains (certId c) then .error .revoked else .ok ()
  else .error .chain

/-- The roles of a chain (R552). -/
def chainRoles (chain : List (List Byte)) : Nat :=
  let titleOf (c : List Byte) := (Config.cert c).bind fun x => rolesOf x.title
  let leaf := ((chain.head?).bind titleOf).getD 0
  ((chain.drop 1).dropLast).foldl (fun m c => match titleOf c with | some r => roleAnd m r | none => m) leaf

/-- A signature block (R90) at an offset: certificate, signature, end offset; none when it does not fit in `n` bytes. -/
def sigBlock (bs : List Byte) (o n : Nat) : Option (List Byte × List Byte × Nat) :=
  let len := leAt bs o 4
  let pad := (len + 3) / 4 * 4
  let e := o + 4 + pad + 96
  if o + 4 ≤ n && e ≤ n && decide (leNat (slice bs (o + 4 + len) (pad - len)) = 0) then
    some (slice bs (o + 4) len, slice bs (o + 4 + pad) 96, e)
  else none

/-- The signature of a digest verifies under a certificate's key. -/
def certSigned (cert digest sig : List Byte) : Bool :=
  match Config.cert cert with
  | some c => Config.ecdsaOk c.point digest sig
  | none => false

/-- The chain of a signing certificate to a root. -/
def signerChain (cert root : List Byte) : List (List Byte) := cert :: Config.certPath cert root

end Sys2Proof.Machine
end

