-- ==== Sys2Proof/Machine/Images.lean ====
section
/-! DEFINITION. Topiary images (R83 to R90): header, directory, sections, verification; which bits of a register are structural (R83, R96). -/

namespace Sys2Proof.Machine

/-- Rejection codes of R99. -/
def codeFormat : Nat := 0x01
def codeSignature : Nat := 0x02
def codeRollback : Nat := 0x03
def codeDevice : Nat := 0x04
def codeLifecycle : Nat := 0x05
def codeRole : Nat := 0x06
def codeBusy : Nat := 0x07
def codeStagingFull : Nat := 0x08
def codeAddress : Nat := 0x09
def codeRange : Nat := 0x0A

/-- A directory entry (R85). -/
structure DirEnt where
  type : Nat
  inst : Nat
  ofs : Nat
  len : Nat
  deriving DecidableEq, Repr

/-- A LOAD record (R86, R87). -/
structure LoadRec where
  inst : Nat := 0
  target : Nat := 0
  part : Nat := 0
  ofs : Nat := 0
  data : List Byte := []
  deriving DecidableEq, Repr

/-- A parsed image. -/
structure Img where
  tileSet : Nat := 0
  pace : Nat := 0
  refSrc : Nat := 0
  device : Nat := 0
  minSilicon : Nat := 0
  version : Nat := 0
  id : List Byte := []
  /-- REGS and SAFETY records in directory and record order: instance, address, word -/
  regs : List (Nat × Nat × Word) := []
  safetyOk : Bool := true
  defaults : List (Nat × Nat × Word) := []
  loads : List LoadRec := []
  parts : List Part := []
  spRate : List Nat := []
  /-- length of the signed part -/
  signed : Nat := 0
  deriving DecidableEq, Repr

/-- {ADDR, VALUE} records of a body of `n` pairs. -/
def pairRecs (bs : List Byte) : Nat → Nat → List (Nat × Word)
  | 0, _ => []
  | n + 1, o => (leAt bs o 4, BitVec.ofNat 32 (leAt bs (o + 4) 4)) :: pairRecs bs n (o + 8)

/-- The records of a LOAD section; none on a length error. -/
def loadRecs (inst : Nat) (bs : List Byte) : Nat → Nat → Option (List LoadRec)
  | 0, _ => none
  | n + 1, o =>
    if bs.length ≤ o then if bs.length = o then some [] else none
    else if bs.length < o + 12 then none
    else
      let len := leAt bs (o + 8) 4
      let pad := (len + 3) / 4 * 4
      if bs.length < o + 12 + pad || leAt bs (o + 3) 1 ≠ 0 || leNat (slice bs (o + 12 + len) (pad - len)) ≠ 0 then none
      else
        (loadRecs inst bs n (o + 12 + pad)).map fun r =>
          { inst := inst, target := leAt bs o 2, part := leAt bs (o + 2) 1, ofs := leAt bs (o + 4) 4, data := slice bs (o + 12) len } :: r

/-- An INSTANCE value (R85). -/
def instOk (i : Nat) : Bool := i = 0 || (0x10 ≤ i && i ≤ 0x17) || (0x20 ≤ i && i ≤ 0x23) || i = 0xFF

/-- A PARTITIONS record (R88); none on a value outside its encodings. -/
def partRec (bs : List Byte) (o : Nat) : Option Part :=
  let kind := leAt bs (o + 1) 1
  let owner := leAt bs (o + 2) 1
  let fl := leAt bs (o + 3) 1
  if 1 ≤ kind && kind ≤ 6 && instOk owner && fl ≤ 1 && leAt bs (o + 12) 4 = 0 then
    some { id := leAt bs o 1, kind := kind, owner := owner, persist := decide (fl = 1), base := leAt bs (o + 4) 4, size := leAt bs (o + 8) 4 }
  else none

/-- A list of optional values, none when one is missing. -/
def allSome {α : Type} : List (Option α) → Option (List α)
  | [] => some []
  | none :: _ => none
  | some x :: r => (allSome r).map (x :: ·)

/-- Instances that a section type allows (R86). -/
def typeInstOk (type inst : Nat) : Bool :=
  let die := inst = 0 || (0x10 ≤ inst && inst ≤ 0x17)
  match type with
  | 1 => die || (0x20 ≤ inst && inst ≤ 0x23)
  | 2 => die
  | 3 => decide (inst = 0xFF)
  | 4 => decide (inst = 0)
  | 5 => die || (0x20 ≤ inst && inst ≤ 0x23)
  | 6 => decide (inst = 0xFF)
  | _ => false

/-- One section added to an image; none: FORMAT. A SAFETY record that names no SF_ register is kept outside every instance, so that the ADDRESS check refuses it. -/
def addSection (e : DirEnt) (bs : List Byte) (i : Img) : Option Img :=
  let recs := pairRecs bs (bs.length / 8) 0
  match e.type with
  | 1 => if bs.length % 8 = 0 then some { i with regs := i.regs ++ recs.map fun r => (e.inst, r.1, r.2) } else none
  | 2 => (loadRecs e.inst bs (bs.length + 1) 0).map fun l => { i with loads := i.loads ++ l }
  | 3 =>
    if bs.length % 16 = 0 then
      (allSome ((List.range (bs.length / 16)).map fun k => partRec bs (16 * k))).map fun l => { i with parts := i.parts ++ l }
    else none
  | 4 =>
    if bs.length % 8 = 4 then
      some { i with regs := i.regs ++ recs.map fun r => (if 0x70000 ≤ r.1 ∧ r.1 < 0x80000 then e.inst else 0xFF, r.1, r.2)
                    safetyOk := i.safetyOk && decide (leAt bs (bs.length - 4) 4 = crc32c (bs.take (bs.length - 4))) }
    else none
  | 5 => if bs.length % 8 = 0 then some { i with defaults := i.defaults ++ recs.map fun r => (e.inst, r.1, r.2) } else none
  | 6 =>
    if bs.length = 64 && (List.range 8).all fun k => leAt bs (8 * k) 1 < 8 && leAt bs (8 * k + 1) 3 = 0 then
      some { i with spRate := (List.range 8).map fun s =>
              (((List.range 8).find? fun k => leAt bs (8 * k) 1 = s).map fun k => leAt bs (8 * k + 4) 4).getD 0 }
    else none
  | _ => none

/-- Bytes of a LOAD target (R87, R333, R406): a LOAD record past its end is a FORMAT error. -/
def loadFits (i : Img) (l : LoadRec) : Bool :=
  match l.target with
  | 1 => decide (0x10 ≤ l.inst ∧ l.ofs + l.data.length ≤ 262144)
  | 2 => decide (l.inst = 0 ∧ l.part < 8 ∧ l.ofs + l.data.length ≤ 16 + 24 * 256)
  | 3 =>
    match i.parts.find? fun p => decide (p.id = l.part) with
    | some p => decide (l.ofs + l.data.length ≤ p.size * 65536)
    | none => false
  | _ => false

/-- The sections of a directory, in order. -/
def addSections (bs : List Byte) : List DirEnt → Nat → Img → Option Img
  | [], _, i => some i
  | e :: r, low, i =>
    let body := slice bs e.ofs e.len
    if e.ofs % 4 = 0 && e.len % 4 = 0 && low ≤ e.ofs && e.ofs + e.len ≤ i.signed && typeInstOk e.type e.inst then
      match addSection e body i with
      | some i' => addSections bs r (e.ofs + e.len) i'
      | none => none
    else none

/-- The image that bytes hold, if its FORMAT is right (R84 to R88, code FORMAT of R99). DESIGN CHOICE: reserved header bytes (0x0B, 0x16, 0x17,
0x3C to 0x7F) are not checked: a value other than 0 there makes no image malformed (log 55). -/
def parseImg (raw : List Byte) : Option Img :=
  let len := leAt raw 0x0C 4
  let bs := raw.take len
  let n := leAt bs 0x14 2
  let sig := leAt bs 0x1C 4
  let dirEnd := 0x80 + 16 * n
  let dir := (List.range n).map fun k =>
    let o := 0x80 + 16 * k
    ({ type := leAt bs o 2, inst := leAt bs (o + 2) 1, ofs := leAt bs (o + 4) 4, len := leAt bs (o + 8) 4 } : DirEnt)
  let dirOk := (List.range n).all fun k =>
    let o := 0x80 + 16 * k
    decide (leAt bs (o + 3) 1 = 0) && decide (leAt bs (o + 12) 4 = crc32 (slice bs (leAt bs (o + 4) 4) (leAt bs (o + 8) 4)))
  let ts := leAt bs 5 1
  if decide (0x80 ≤ raw.length) && decide (leAt bs 0 4 = 0x59525054) && decide (leAt bs 4 1 = 1) && decide (leAt bs 0x38 4 = crc32 (slice bs 0 0x38))
      && decide (len ≤ raw.length) && decide (len % 4 = 0) && decide (1 ≤ n) && decide (n ≤ 1024) && decide (leAt bs 0x18 4 = 0x80)
      && decide (dirEnd ≤ sig) && decide (sig ≤ len) && decide (ts = 2 ∨ ts = 4 ∨ ts = 8) && decide (leAt bs 6 1 ≤ 2) && decide (leAt bs 7 1 ≤ 1)
      && (match sigBlock bs sig len with | some (_, _, e) => decide (e = len) | none => false) && dirOk then
    let i0 : Img :=
      { tileSet := ts, pace := leAt bs 6 1, refSrc := leAt bs 7 1, device := leAt bs 8 2, minSilicon := leAt bs 0x0A 1
        version := leAt bs 0x10 4, id := slice bs 0x20 16, spRate := List.replicate 8 0, signed := sig }
    match addSections bs dir dirEnd i0 with
    | some i => if i.loads.all (loadFits i) then some i else none
    | none => none
  else none

/-- The signing certificate is one that may sign images (R554). -/
def signerOk (b : Block) (cert digest sig : List Byte) : Bool :=
  let chain := signerChain cert b.nv.keys.owner
  certSigned cert digest sig
    && (match chainJudge b b.nv.keys.owner chain with | .ok _ => true | .error _ => false)
    && decide (roleAnd (chainRoles chain) (roleConfigure + roleSafety) = roleConfigure + roleSafety)

/-- Verification of an image (R94, R99, R113, R117 step 3): its code and content. -/
def verifyImg (b : Block) (raw : List Byte) : Nat × Option Img :=
  match parseImg raw with
  | none => (codeFormat, none)
  | some i =>
    match sigBlock raw i.signed raw.length with
    | none => (codeFormat, none)
    | some (cert, sig, _) =>
      if !signerOk b cert (Config.sha384 (raw.take i.signed)) sig then (codeSignature, none)
      else if i.version < b.nv.rollback then (codeRollback, none)
      else if i.device ≠ 0x60 || Config.silicon % 16 < i.minSilicon then (codeDevice, none)
      else (0, some i)

/-! ### Structural fields -/

/-- The structural items of R96 that registers hold. -/
inductive Item where
  | slotType | context | period | assign | land | field | safety | berath | parts | code | ring
  deriving DecidableEq, Repr

/-- The structural bits of a register, by item (R83, R96); the SG bits of no item are parameters. -/
def structBits (r : RegId) : List (Item × Nat) :=
  match r with
  | .AX_SLOT_TYPE | .AX_MCLK | .AX_PWM_LEAD | .AX_COMM_CPR | .GR_PLG_CFG | .GR_PLG_PHASE => [(.slotType, (regDef r).sg)]
  | .AX_PWM_CFG => [(.slotType, 0xE0000000)]
  | .AX_SD_CFG => [(.slotType, 0x71F)]
  | .AX_COMM => [(.slotType, 0xFF000000), (.assign, 0x7)]
  | .AX_DF => [(.slotType, 0x1)]
  | .PG_CFG => [(.slotType, 0xB0000000), (.parts, 0xFFFF3F)]
  | .GR_FOLLOW => [(.slotType, 0x87000000), (.context, 0x30FF00)]
  | .CE_LOOP_ALLOC | .CE_LOOP_SRC | .CE_LOOP_OUT | .CE_XIN | .GR_XM => [(.context, (regDef r).sg)]
  | .TL_TILE_PHASE | .TL_GRP_PERIOD => [(.period, (regDef r).sg)]
  | .QD_ASSIGN => [(.assign, (regDef r).sg)]
  | .QD_PRB_CFG => [(.assign, 0x8F700000)]
  | .GR_CMP_CFG => [(.assign, 0x8FFF3000), (.land, 0x1)]
  | .PG_PULSE_CFG => [(.land, 0xC0000000)]
  | .PG_RES_CFG => [(.land, 0xFF)]
  | .NT_TEO_CFG => [(.land, (regDef r).sg)]
  | .GR_CAM_CFG => [(.parts, 0xFFFF3F)]
  | .SQ_CFG | .SQ_INBOX => [(.code, (regDef r).sg)]
  | .AQ_RING => [(.ring, (regDef r).sg)]
  | .BL_NET_CFG | .BL_NET_PHASE | .BL_NX_BIND | .BL_SPIN | .SEC_PEER => [(.berath, (regDef r).sg)]
  | .BL_PORT_CFG => [(.berath, 0xFA001FFF)]
  | .FIO_CH_CFG => [(.field, (regDef r).sg)]
  | .SF_PAR_CHECK | .SF_ZONE_CFG | .SF_ZONE_IN | .SF_AX_CFG | .SF_AX_TIME | .SF_AX_GRACE | .SF_AX_GRACE_V | .SF_AX_BT | .SF_AX_BT_LIM | .SF_AX_STO
  | .SF_CONN_CFG | .SF_CONN_UID | .SF_CONN_WT | .SF_CONN_SEND => [(.safety, (regDef r).sg)]
  | _ => []

/-- All structural bits of a register. -/
def structMask (r : RegId) : Nat := ((structBits r).map Prod.snd).sum

/-- A register of the SF_ map (ROLE SAFETY). -/
def isSafetyAddr (a : Nat) : Bool := decide (0x70000 ≤ a ∧ a < 0x80000)

/-- Bits of `old` outside the mask, bits of `new` inside it. -/
def mergeBits (mask : Nat) (old new : Word) : Word :=
  (old &&& ~~~BitVec.ofNat 32 mask) ||| (new &&& BitVec.ofNat 32 mask)

/-- A word of the register tables with the bits of a mask replaced; an address without a register stands. -/
def putBits (mask : RegId → Nat) (cf : Tab Word) (a : Nat) (v : Word) : Tab Word :=
  match regAt a with
  | some (r, _) => let d := (regDef r).reset; tabSet d cf a (mergeBits (mask r) (tabGet d cf a) v)
  | none => cf

/-- The die of a register address (R85): its INSTANCE. -/
def addrInst (a : Nat) : Nat :=
  if 0x10000000 ≤ a && a < 0x18000000 then 0x10 + (a - 0x10000000) / 0x1000000
  else if 0x20000000 ≤ a && a < 0x24000000 then 0x20 + (a - 0x20000000) / 0x1000000
  else 0

end Sys2Proof.Machine
end

