-- ==== Sys2Proof/Machine/Ranges.lean ====
section
/-! DEFINITION. The documented ranges of the SG fields (RANGE of R99), and the ADDRESS check of records. -/

namespace Sys2Proof.Machine

/-- A field with a documented range narrower than its width: lowest bit, width, smallest and largest value. -/
abbrev FieldRange := Nat × Nat × Nat × Nat

/-- The ranges of the timing, control-engine and native-axis registers. PERIOD and APPLY are judged with GROUP, TYPE with SLOT_TYPE. -/
def rangesA (r : RegId) : List FieldRange :=
  match r with
  | .TL_PACE => [(0, 2, 0, 2)]
  | .TL_TILE_PHASE => [(0, 20, 0, 999999)]
  | .TL_SP_INTERVAL => [(0, 20, 0, 1000000)]
  | .TL_SP_HORIZON => [(0, 23, 0, 5000000)]
  | .CE_LOOP_ALLOC => [(30, 2, 0, 2), (8, 5, 0, 16)]
  | .CE_LOOP_SCALE => [(0, 2, 0, 2)]
  | .CE_LOOP_KAW => [(0, 32, 0, 0x7FFFFFFF)]
  | .CE_LOOP_TIMING => [(0, 19, 0, 500000)]
  | .CE_SCHED_TSTEP => [(0, 32, 1, 0x80000000)]
  | .AX_PWM_MIN => [(16, 16, 0, 10000)]
  | .AX_SD_CFG => [(16, 8, 1, 255), (8, 3, 0, 4)]
  | .AX_OC | .AX_SUM | .AX_VLIM => [(0, 32, 0, 0x7FFFFFFF)]
  | .AX_COMM => [(24, 8, 1, 64)]
  | .AX_COMM_CPR => [(0, 32, 4, 0x7FFFFFFF)]
  | .AX_ALIGN_T => [(0, 14, 1, 10000)]
  | .QD_SPD_WIN => [(0, 16, 1, 65535)]
  | .QD_STILL => [(0, 20, 1, 1000000)]
  | .QD_ILL => [(24, 8, 1, 255), (0, 16, 1, 65535)]
  | .QD_FRZ_CFG => [(16, 8, 1, 255)]
  | .QD_FRZ_T => [(0, 20, 0, 1000000)]
  | .QD_FRZ_TQ => [(0, 32, 0, 0x7FFFFFFF)]
  | .QD_FB_DEN => [(0, 32, 1, 0xFFFFFFFF)]
  | .QD_PRB_CFG => [(16, 2, 1, 3)]
  | _ => []

/-- The ranges of the profile, coordination, sequencer and acquisition registers. -/
def rangesB (r : RegId) : List FieldRange :=
  match r with
  | .PG_CFG | .GR_CAM_CFG => [(0, 6, 1, 63)]
  | .PG_HOME_TO => [(0, 20, 1, 1000000)]
  | .PG_PULSE_CFG => [(16, 8, 1, 255)]
  | .PG_RES_CFG => [(24, 4, 0, 8), (20, 4, 0, 8), (16, 4, 0, 8), (12, 4, 0, 8)]
  | .GR_PLG_DF_RUN | .GR_PLG_DF_STOP | .GR_PLG_DF_FAULT => [(0, 32, 1, 0x80000000)]
  | .GR_FOLLOW => [(20, 2, 0, 2)]
  | .GR_GEAR_DEN | .GR_CLUTCH_D => [(0, 32, 1, 0xFFFFFFFF)]
  | .GR_CLUTCH_T | .GR_CMP_WIDTH => [(0, 20, 1, 1000000)]
  | .GR_NX_CFG => [(16, 14, 1, 10000), (0, 14, 1, 10000)]
  | .GR_CMP_CFG => [(8, 2, 1, 3), (4, 2, 0, 2)]
  | .SQ_MBTO => [(0, 20, 0, 1000000)]
  | .AQ_RING => [(0, 24, 3, 16777215)]
  | .AQ_SAMPLE => [(0, 16, 1, 65535)]
  | .AQ_POST => [(0, 24, 1, 16777215)]
  | .AQ_TTMR => [(0, 23, 1, 5000000)]
  | _ => []

/-- The ranges of the hub's and the field pairs' registers. -/
def rangesC (r : RegId) : List FieldRange :=
  match r with
  | .BL_NET_CFG => [(30, 2, 0, 1), (0, 16, 1, 60000)]
  | .BL_PORT_CFG => [(29, 2, 1, 3), (0, 13, 0, 5000)]
  | .BL_NX_BIND | .BL_SPIN => [(24, 4, 0, 11)]
  | .BL_NX_LEAD => [(0, 23, 1, 5000000)]
  | .BL_NX_CFG => [(8, 8, 1, 255)]
  | .FIO_WD => [(0, 9, 1, 500)]
  | .FIO_CH_PAR => [(0, 16, 1, 64000)]
  | .SF_ZONE_CFG => [(16, 10, 10, 1000)]
  | .SF_AX_TIME => [(16, 11, 0, 2000), (0, 16, 0, 60000)]
  | .SF_AX_GRACE => [(16, 12, 1, 3600), (0, 11, 0, 2000)]
  | .SF_AX_BT => [(0, 14, 100, 10000)]
  | .SF_AX_BT_LIM => [(16, 16, 0, 8760)]
  | .SF_AX_STO => [(0, 16, 0, 8760)]
  | .SF_CONN_CFG => [(26, 4, 0, 11)]
  | .SF_CONN_WT => [(0, 20, 250, 1000000)]
  | .SF_CONN_SEND => [(0, 10, 1, 1000)]
  | .HP_RD_LIMIT => [(0, 9, 1, 400)]
  | _ => []

/-- A condition code of the trigger sequencer (R375). -/
def condOk (c : Nat) : Bool := c ≤ 1 || (8 ≤ c && c < 0x24)

/-- The fields with a list of codes. -/
def codesOk (r : RegId) (v : Nat) : Bool :=
  match r with
  | .AQ_TSTATE => condOk (bits v 26 6) && condOk (bits v 10 6)
  | .AQ_TCNT => condOk (bits v 26 6) && bits v 26 6 < 0x20
  | _ => true

/-- The fields of a word that a mask covers lie in their ranges. -/
def rangeOk (r : RegId) (mask : Nat) (w : Word) : Bool :=
  let v := w.toNat
  ((rangesA r ++ rangesB r ++ rangesC r).all fun f =>
    !bit mask f.1 || (decide (f.2.2.1 ≤ bits v f.1 f.2.1) && decide (bits v f.1 f.2.1 ≤ f.2.2.2)))
  && ((mask = 0) || codesOk r v)

/-- A first failure: code, tile, detail, and the index of a staged write or record where the specification gives one. -/
structure Bad where
  code : Nat
  tile : Nat := 0
  detail : Nat := 0
  item : Option Nat := none
  deriving DecidableEq, Repr

/-- The tile number that an address concerns, 0 for the hub and pairs. -/
def addrTile (a : Nat) : Nat := if 0x10 ≤ addrInst a && addrInst a < 0x20 then addrInst a - 0x10 else 0

/-- A record names a register of its instance that holds fields under the mask, on a powered tile (ADDRESS). -/
def recAddrOk (tileSet : Nat) (mask : RegId → Nat) (inst a : Nat) : Bool :=
  match regAt a with
  | some (r, _) => decide (mask r ≠ 0) && decide (addrInst a = inst) && !(decide (0x10 ≤ inst) && decide (inst < 0x20) && decide (tileSet ≤ inst - 0x10))
  | none => false

/-- The ADDRESS or the RANGE check of a list of records or staged writes: each names a register with SG fields (under `named`), and the fields that it sets (under `mask`) lie in their ranges. -/
def recsBad (tileSet : Nat) (named mask : RegId → Nat) (base : Nat) (l : List (Nat × Nat × Word)) (code : Nat) : Option Bad :=
  let ok (e : Nat × Nat × Word) : Bool :=
    if code = codeAddress then recAddrOk tileSet named e.1 e.2.1
    else match regAt e.2.1 with
      | some (r, _) => rangeOk r (mask r) e.2.2
      | none => true
  ((List.range l.length).zip l).findSome? fun p =>
    if ok p.2 then none else some { code := code, tile := addrTile p.2.2.1, item := some (base + p.1) }

/-- The SG bits of a register, and its parameter bits. -/
def sgMask (r : RegId) : Nat := (regDef r).sg
def paramMask (r : RegId) : Nat := (regDef r).sg - structMask r

end Sys2Proof.Machine
end

