-- ==== Sys2Proof/Machine/Checks.lean ====
section
/-! DEFINITION. The consistency checks of R99 from RANGE to SPINE on a candidate block: the block as it would stand after the commit. -/

namespace Sys2Proof.Machine

/-- The tiles of the tile set. -/
def tilesOf (c : Block) : List Nat := List.range c.run.tileSet

/-- The first tile on which a condition fails. -/
def tileBad (code : Nat) (c : Block) (ok : Nat → Bool) : Option Bad :=
  ((tilesOf c).find? fun t => !ok t).map fun t => { code := code, tile := t }

/-- A failure of the module as a whole. -/
def allBad (code : Nat) (ok : Bool) : Option Bad := if ok then none else some { code := code }

/-- The contexts in use of a tile. -/
def usedCtx (c : Block) (t : Nat) : List Nat := (List.range 32).filter fun k => decide (Fld.CE_LOOP_ALLOC_NSEC c.cfg t k ≠ 0)

/-- The kind, slot and group of a context. -/
def ctxKind (c : Block) (t k : Nat) : Nat := Fld.CE_LOOP_ALLOC_KIND c.cfg t k
def ctxSlot (c : Block) (t k : Nat) : Nat := Fld.CE_LOOP_ALLOC_SLOT c.cfg t k
def ctxGroup (c : Block) (t k : Nat) : Nat := Fld.CE_LOOP_ALLOC_GROUP c.cfg t k

/-- No two elements of a list without repeats of positions agree under `f`. -/
def distinctBy {α β : Type} [DecidableEq β] (f : α → β) (l : List α) : Bool := allPairs (fun a b => decide (f a ≠ f b)) l

/-- A quadrature channel is assigned to a slot (R31). -/
def chanOf (c : Block) (t k j : Nat) : Bool := Fld.QD_ASSIGN_EN c.cfg t k && decide (Fld.QD_ASSIGN_SLOT c.cfg t k = j)

/-- A field channel is routed to a tile (R487). -/
def routed (c : Block) (t ch : Nat) : Bool := bit (Fld.FIO_CH_CFG_ROUTE c.cfg (ch / 16) (ch % 16)) t

/-- The carrier period of a native axis in ticks (R182). -/
def carrier (c : Block) (t j : Nat) : Nat := grpPeriod c t (curGroup c t j) * (if Fld.AX_PWM_CFG_UPDATE c.cfg t j then 2 else 1)

/-- The period of a generator's group in ticks. -/
def genPeriod (c : Block) (t j : Nat) : Nat := grpPeriod c t (Fld.PG_CFG_GRP c.cfg t j)

/-! ### RANGE -/

/-- RANGE rules of a native axis in use (R172, R176, R181, R183, R186, R213, and the fields its commutation needs). -/
def natRange (c : Block) (t j : Nat) : Bool :=
  let cf := c.cfg
  let p := grpPeriod c t (curGroup c t j)
  let win := (3 * osrOf c t j - 2) * (if Fld.AX_MCLK_FREQ cf t then 5 else 10)
  !isNative c t j ||
    (Fld.AX_MCLK_EN cf t && decide (win ≤ p) && decide (0 < Fld.AX_OC_LIMIT cf t j ∧ Fld.AX_OC_LIMIT cf t j ≤ 0x7FFFFFFF)
      && decide (Fld.AX_PWM_LEAD_LEAD cf t j ≤ 40 * p - 1)
      && decide (2 * Fld.AX_PWM_CFG_DT cf t j + Fld.AX_PWM_MIN_MIN_PULSE cf t j < 20 * carrier c t j)
      && (decide (slotTy c t j ≠ .n3ph) || (decide (1 ≤ Fld.AX_COMM_POLE_PAIRS cf t j ∧ Fld.AX_COMM_POLE_PAIRS cf t j ≤ 64)
            && decide (4 ≤ Fld.AX_COMM_CPR_CPR cf t j ∧ Fld.AX_COMM_CPR_CPR cf t j ≤ 0x7FFFFFFF)))
      && (decide (slotTy c t j ≠ .nstep) || ascending ((List.range 4).map fun k => (Fld.AX_STEP_THR_VALUE cf t j k : Int))))

/-- RANGE rules of a context in use (R129, R167, R171, LIMLO ≤ LIMHI). -/
def ctxRange (c : Block) (t k : Nat) : Bool :=
  let cf := c.cfg
  let first := Fld.CE_LOOP_ALLOC_FIRST_SEC cf t k
  let n := Fld.CE_LOOP_ALLOC_NSEC cf t k
  let integ (s : Nat) : Bool := (regCoef c t s).integrator
  let flags := Fld.CE_LOOP_OUT_HO_EN cf t k || Fld.CE_LOOP_OUT_BUMPLESS cf t k
  decide (ctxKind c t k ≤ 2)
    && decide (sWord (Fld.CE_LOOP_LIMLO_LIMIT cf t k) ≤ sWord (Fld.CE_LOOP_LIMHI_LIMIT cf t k))
    && (decide (ctxKind c t k = 0) || !(flags || Fld.CE_LOOP_OUT_ALT cf t k || Fld.CE_LOOP_ALLOC_SCHED_EN cf t k || decide (Fld.CE_LOOP_RAMP_RAMP_STEP cf t k ≠ 0)))
    && (!flags || integ (first + n - 1))
    && ((List.range n).all fun i => !Fld.CE_SEC_CFG_WIDE cf t (first + i) || integ (first + i))

/-- RANGE rules of a generator in use (R255, PG_DECEL, R288, R291, R213, R280). -/
def genRange (c : Block) (t j : Nat) : Bool :=
  let cf := c.cfg
  !hasGen c t j ||
    (decide (2 * genPeriod c t j ≤ Fld.PG_MIN_DUR_MIN_DUR cf t j) && decide (Fld.PG_DECEL_DEC cf t j ≠ 0)
      && decide (1 ≤ Fld.PG_CFG_BANK_SIZE cf t j)
      && !(decide (Fld.PG_HOME_CFG_MODE cf t j = 1 ∨ Fld.PG_HOME_CFG_MODE cf t j = 2) && decide (Fld.PG_HOME_CFG_POS_SRC cf t j = 0))
      && (decide (slotTy c t j ≠ .pulse) ||
        (decide (Fld.PG_HOME_POS_LO_HOME_POS cf t j % 65536 = 0)
          && (let p := j - 4
              let n := Fld.PG_RES_CFG_NLEV cf t p + 1
              let m := [Fld.PG_RES_CFG_MSTEP0 cf t p, Fld.PG_RES_CFG_MSTEP1 cf t p, Fld.PG_RES_CFG_MSTEP2 cf t p, Fld.PG_RES_CFG_MSTEP3 cf t p].take n
              ascending (m.map fun x => -(x : Int)) && ascending ((List.range (n - 1)).map fun k => (Fld.PG_RES_THR_VALUE cf t p k : Int))))))

/-- RANGE rules of a channel's fallback (R241; FB_SRC may stay at its reset value 0 while FB_EN is 0), of a follower (R310) and of a sequencer (R333). -/
def unitRange (c : Block) (t : Nat) : Bool :=
  let cf := c.cfg
  let src (k : Nat) : Nat := Fld.QD_FB_CFG_FB_SRC cf t k
  let entry := Fld.SQ_CFG_ENTRY cf t
  let len := Fld.SQ_CFG_CODE_LEN cf t
  let il := Fld.SQ_INBOX_LEN cf t
  let ib := Fld.SQ_INBOX_BASE cf t
  ((List.range 8).all fun k =>
    decide (Fld.QD_FB_DEN_VALUE cf t k ≠ 0) && (!Fld.QD_FB_CFG_FB_EN cf t k && decide (src k = 0)
      || (decide (0x30 ≤ src k ∧ src k < 0x38) && decide (src k ≠ 0x30 + k)) || decide (0xA8 ≤ src k ∧ src k < 0xB0)))
  && ((List.range 16).all fun j =>
    !(decide (Fld.GR_FOLLOW_MODE cf t j = 2) && (decide (Fld.GR_CLUTCH_CFG_ENG_MODE cf t j = 3) || decide (Fld.GR_CLUTCH_CFG_DIS_MODE cf t j = 3)))
      && (decide (Fld.GR_FOLLOW_MODE cf t j ≠ 2) || decide (1 ≤ Fld.GR_CAM_CFG_BANK_SIZE cf t j)))
  && (decide (len = 0 ∧ entry = 0) || decide (17 ≤ len ∧ 16 ≤ entry ∧ entry < len))
  && (decide (il = 0) || decide (len ≤ ib ∧ ib + il ≤ 65536))

/-- The width of an acquisition source (R366). -/
def aqWide64 (code : Nat) : Bool :=
  (0x10 ≤ code && code < 0x60) || (0xA8 ≤ code && code < 0xC0) || (0xE8 ≤ code && code < 0xEC)

/-- W of the channel registers in force (R365), and the RANGE rules of an acquisition unit in use (R367, R369, R370). -/
def aqWordsOf (c : Block) (t : Nat) : Nat :=
  ((List.range 16).map fun k => if Fld.AQ_CH_SRC c.cfg t k = 0 then 0 else if Fld.AQ_CH_WIDE c.cfg t k then 2 else 1).sum

def aqRange (c : Block) (t : Nat) : Bool :=
  let cf := c.cfg
  ((List.range 16).all fun k =>
    decide (Fld.AQ_CH_SRC cf t k = 0) || aqWide64 (Fld.AQ_CH_SRC cf t k) || !(Fld.AQ_CH_WIDE cf t k || Fld.AQ_CH_HALF cf t k))
  && (!Fld.AQ_RING_EN cf t ||
    (decide (3 ≤ Fld.AQ_RING_SLOT_BLOCKS cf t)
      && (let w := aqWordsOf c t
          decide (w = 0) || decide (Fld.AQ_PRE_ROWS cf t + Fld.AQ_POST_ROWS cf t ≤ (Fld.AQ_RING_SLOT_BLOCKS cf t - 2) * (120 / w)))))

/-- RANGE rules of a field pair (R474, R494). -/
def pairRange (c : Block) (m : Nat) : Bool :=
  let cf := c.cfg
  ((List.range 16).all fun k =>
    !Fld.FIO_CH_PAR_PULSED cf m k || decide (400 ≤ Fld.FIO_CH_PAR_DEB cf m k ∧ Fld.FIO_CH_PAR_DEB cf m k % 4 = 0))
  && ((ownersOf c m).all fun t =>
    match fastGroup c t with
    | some g => decide (2 * 10 * grpPeriod c t g < Fld.FIO_WD_WD_T cf m * 1000000)
    | none => true)

/-- The axis type of a safety number. -/
def axTy (c : Block) (a : Nat) : SlotTy := slotTy c (a / 16) (a % 16)

/-- RANGE rules of the safety parameters (R513: a zone in use has a source; R522). -/
def safetyRange (c : Block) : Bool :=
  let cf := c.cfg
  ((List.range 16).all fun z => !Fld.SF_ZONE_CFG_EN cf z || (zoneSrcs c z).any (· ≠ 0))
  && ((List.range (16 * c.run.tileSet)).all fun a => !Fld.SF_AX_CFG_BRK_EN cf a || !(decide (axTy c a = .pulse) || decide (axTy c a = .virtual)))

/-- RANGE rules of the network (BL_NET_PHASE, BL_NX_LEAD, BL_PORT_CFG.CHAN of what is in use) and of the pleached groups. -/
def netRange (c : Block) : Bool :=
  let cf := c.cfg
  let t := tabGet {} c.net.tables (Fld.BL_MODE_MODE cf)
  (!t.valid || decide (Fld.BL_NET_PHASE_PHASE cf < t.cycle * t.matrix))
  && (nxSlots.all fun k => !Fld.BL_NX_BIND_EN cf k || decide (1 ≤ Fld.BL_NX_LEAD_LEAD cf k))
  && ((List.range 12).all fun p => !Fld.BL_PORT_CFG_EN cf p || decide (Fld.BL_PORT_CFG_CHAN cf p ≠ 0))
  && ((List.range 8).all fun g => !Fld.GR_PLG_CFG_EN cf g || decide (Fld.GR_PLG_PHASE_PHASE cf g < Fld.GR_PLG_CFG_FEED_P cf g))

def checkRange (c : Block) : Option Bad :=
  (tileBad codeRange c fun t =>
    ((List.range 4).all (natRange c t)) && ((usedCtx c t).all (ctxRange c t)) && ((List.range 16).all (genRange c t)) && unitRange c t && aqRange c t)
  <|> allBad codeRange (((List.range 4).all (pairRange c)) && safetyRange c && netRange c)

/-! ### SLOT_TYPE, RESOURCE, GROUP -/

/-- R32. -/
def checkSlotType (c : Block) : Option Bad :=
  tileBad 0x0C c fun t => (List.range 16).all fun j =>
    let ty := Fld.AX_SLOT_TYPE_TYPE c.cfg t j
    if j < 4 then decide (ty ≤ 2) else if j < 8 then decide (ty = 0 ∨ ty = 3) else decide (ty = 0 ∨ ty = 4 ∨ ty = 5)

/-- R30, R133, R144, R191, R231, R242, R246, R319 on one tile. -/
def tileResource (c : Block) (t : Nat) : Bool :=
  let cf := c.cfg
  let u := usedCtx c t
  let lo (k : Nat) : Nat := Fld.CE_LOOP_ALLOC_FIRST_SEC cf t k
  let hi (k : Nat) : Nat := lo k + Fld.CE_LOOP_ALLOC_NSEC cf t k
  let one (j kind : Nat) : List Nat := (ctxsOf c t j).filter fun k => decide (ctxKind c t k = kind)
  (u.all fun k => decide (hi k ≤ 256) && decide (slotTy c t (ctxSlot c t k) ≠ .unused))
  && allPairs (fun a b => decide (hi a ≤ lo b) || decide (hi b ≤ lo a)) u
  && ((List.range 16).all fun j => decide ((ctxsOf c t j).length ≤ 4))
  && distinctBy (fun k => Fld.CE_LOOP_ALLOC_SCHED cf t k) (u.filter fun k => Fld.CE_LOOP_ALLOC_SCHED_EN cf t k)
  && ((List.range 4).all fun j =>
    !isNative c t j ||
      (match one j 1, one j 2 with
       | [d], [q] => decide (ctxGroup c t d = ctxGroup c t q) && decide (Fld.CE_LOOP_ALLOC_NSEC cf t d ≤ 8) && decide (Fld.CE_LOOP_ALLOC_NSEC cf t q ≤ 8)
       | _, _ => false))
  && ((List.range 4).all fun p => !Fld.QD_PRB_CFG_EN cf t p || chanOf c t (Fld.QD_PRB_CFG_QCH cf t p) (Fld.QD_PRB_CFG_SLOT cf t p))
  && ((List.range 4).all fun k =>
    let src := Fld.GR_CMP_CFG_SRC cf t k
    !Fld.GR_CMP_CFG_EN cf t k || !decide (0x30 ≤ src ∧ src < 0x38) || chanOf c t (src - 0x30) (Fld.GR_CMP_CFG_SLOT cf t k))
  && ((List.range 4).all fun j => !decide (slotTy c t j = .n3ph) || chanOf c t (Fld.AX_COMM_QCH cf t j) j)
  && ((List.range 16).all fun j => !decide (slotTy c t j = .pulse) || Fld.PG_CFG_EN cf t j)

/-- The members of a pleached group in a candidate (R294). -/
def membersOf (c : Block) (g : Nat) : List (Nat × Nat) :=
  ((List.range (16 * c.run.tileSet)).map fun a => (a / 16, a % 16)).filter fun p => decide (plgOf c p.1 p.2 = some g)

/-- R294, R425, R522 over the module. -/
def moduleResource (c : Block) : Bool :=
  let cf := c.cfg
  let brk := (List.range (16 * c.run.tileSet)).filter fun a => Fld.SF_AX_CFG_BRK_EN cf a
  ((List.range 8).all fun g =>
    let m := membersOf c g
    (m.all fun p => hasGen c p.1 p.2) && (!Fld.GR_PLG_CFG_EN cf g || decide (2 ≤ m.length ∧ m.length ≤ 16)))
  && !nxClash cf && distinctBy (fun a => Fld.SF_AX_CFG_BRK_CH cf a) brk

def checkResource (c : Block) : Option Bad := tileBad 0x0D c (tileResource c) <|> allBad 0x0D (moduleResource c)

/-- R30, R54, R55, R182, R246, R319 on one tile. -/
def tileGroup (c : Block) (t : Nat) : Bool :=
  let cf := c.cfg
  let p := grpPeriod c t
  let fast := match fastGroup c t with | some g => p g | none => 1
  let used (g : Nat) : Bool := decide (p g ≠ 0)
  ((List.range 4).all fun g =>
    !used g || (decide (500 ≤ p g ∧ p g ≤ 1000000 ∧ p g % fast = 0) && decide (1 ≤ Fld.TL_GRP_APPLY_APPLY cf t g ∧ Fld.TL_GRP_APPLY_APPLY cf t g ≤ p g)))
  && ((usedCtx c t).all fun k => used (ctxGroup c t k))
  && ((List.range 4).all fun j => !isNative c t j || decide (1000 ≤ carrier c t j ∧ carrier c t j ≤ 50000))
  && ((List.range 16).all fun j => !hasGen c t j || used (Fld.PG_CFG_GRP cf t j))
  && ((List.range 4).all fun k => !Fld.GR_CMP_CFG_EN cf t k || decide (Fld.GR_CMP_CFG_SRC cf t k ≠ 0) || used (Fld.GR_CMP_CFG_GRP cf t k))
  && (!Fld.AQ_RING_EN cf t || used (Fld.AQ_SAMPLE_GRP cf t))

/-- R295 for one group. -/
def plgGroupOk (c : Block) (g : Nat) : Bool :=
  let feed := Fld.GR_PLG_CFG_FEED_P c.cfg g
  let phase := Fld.GR_PLG_PHASE_PHASE c.cfg g
  !Fld.GR_PLG_CFG_EN c.cfg g ||
    (match membersOf c g with
     | [] => true
     | m :: r =>
       let p := genPeriod c m.1 m.2
       (r.all fun q => decide (genPeriod c q.1 q.2 = p)) && decide (0 < p ∧ feed % p = 0 ∧ p ≤ feed ∧ feed ≤ 1000000)
         && ((m :: r).all fun q => decide (((phase : Int) - Fld.TL_TILE_PHASE_PHASE c.cfg q.1) % p = 0)))

/-- The assigned tile of an output channel (R486). -/
def outTileOf (c : Block) (m k : Nat) : Nat := (ownersOf c m).getD (if Fld.FIO_CH_CFG_OWNER c.cfg m k then 1 else 0) 0

/-- The field channels of the module: pair and channel. -/
def fieldChans : List (Nat × Nat) := (List.range 64).map fun c => (c / 16, c % 16)

def checkGroup (c : Block) : Option Bad :=
  tileBad 0x0E c (tileGroup c)
  <|> allBad 0x0E (((List.range 8).all (plgGroupOk c))
    && (fieldChans.all fun p =>
      !(decide (Fld.FIO_CH_CFG_FUNC c.cfg p.1 p.2 = 3) && decide (Fld.FIO_CH_CFG_SRC c.cfg p.1 p.2 ≠ 0))
        || decide (grpPeriod c (outTileOf c p.1 p.2) (Fld.FIO_CH_CFG_GRP c.cfg p.1 p.2) ≠ 0)))

/-! ### OUTPUT_OWNER, ROUTING, FIELD -/

/-- The slot that a destination code belongs to (R138, R139); none for a mailbox. -/
def dstSlot (d : Nat) : Option Nat :=
  if 0x10 ≤ d ∧ d < 0x14 then some (d - 0x10)
  else if 0x14 ≤ d ∧ d < 0x18 then some (d - 0x14)
  else if 0x38 ≤ d ∧ d < 0x40 then some (d - 0x30)
  else none

/-- R58, R139, R162 on one tile. -/
def tileOwner (c : Block) (t : Nat) : Bool :=
  let cf := c.cfg
  let g := (usedCtx c t).filter fun k => decide (ctxKind c t k = 0)
  let dst (k : Nat) : Nat := Fld.CE_LOOP_OUT_DST cf t k
  (g.all fun k => match dstSlot (dst k) with | some j => decide (ctxSlot c t k = j) | none => true)
  && allPairs (fun a b =>
    decide (dst a ≠ dst b) || (decide (dst a = 0) && !(Fld.CE_LOOP_OUT_ALT cf t a && Fld.CE_LOOP_OUT_ALT cf t b && decide (ctxSlot c t a = ctxSlot c t b))) ||
      (Fld.CE_LOOP_OUT_ALT cf t a && Fld.CE_LOOP_OUT_ALT cf t b && decide (ctxSlot c t a = ctxSlot c t b) && decide (ctxGroup c t a = ctxGroup c t b)
        && decide (Fld.CE_LOOP_OUT_MODE cf t a ≠ Fld.CE_LOOP_OUT_MODE cf t b))) g

/-- R41, R486: OWNER is 0 where a pair has one owner, and no brake channel is given to a tile. -/
def fieldOwner (c : Block) (p : Nat × Nat) : Bool :=
  let f := Fld.FIO_CH_CFG_FUNC c.cfg p.1 p.2
  let o := Fld.FIO_CH_CFG_OWNER c.cfg p.1 p.2
  !((decide (c.run.tileSet ≠ 8) || decide (f = 4)) && o)

def checkOwner (c : Block) : Option Bad := tileBad 0x0F c (tileOwner c) <|> allBad 0x0F (fieldChans.all (fieldOwner c))

/-- A source code of R134. -/
def srcOk (c : Block) (t v : Nat) : Bool :=
  decide (v = 0 ∨ (0x10 ≤ v ∧ v < 0x90)) || (decide (0x90 ≤ v ∧ v < 0x98) && Fld.CE_XIN_EN c.cfg t (v - 0x90)) || decide ((0xA8 ≤ v ∧ v < 0xB0) ∨ (0xB8 ≤ v ∧ v < 0xC0))

/-- A limit or home input of a generator (R282). -/
def inOk (c : Block) (t v : Nat) : Bool := decide (v = 0 ∨ (0x10 ≤ v ∧ v < 0x14)) || (decide (0x40 ≤ v ∧ v < 0x80) && routed c t (v - 0x40))

/-- A master code (R307, R308). -/
def masterOk (c : Block) (t j v : Nat) : Bool :=
  if 0x10 ≤ v ∧ v < 0x20 then decide (v - 0x10 ≠ j) && decide (Fld.GR_FOLLOW_MODE c.cfg t (v - 0x10) = 0)
  else if 0xC0 ≤ v ∧ v < 0xC8 then Fld.GR_XM_EN c.cfg t (v - 0xC0)
  else decide ((0x30 ≤ v ∧ v < 0x38) ∨ (0xA8 ≤ v ∧ v < 0xB0))

/-- R134, R138, R237, R282, R283, R307, R319, R366 on one tile. -/
def tileRouting (c : Block) (t : Nat) : Bool :=
  let cf := c.cfg
  let u := usedCtx c t
  let tq (v : Nat) : Bool := decide (v ≤ 1 ∨ (0x40 ≤ v ∧ v < 0x90))
  (u.all fun k =>
    srcOk c t (Fld.CE_LOOP_SRC_REF_SRC cf t k) && srcOk c t (Fld.CE_LOOP_SRC_FB_SRC cf t k) && srcOk c t (Fld.CE_LOOP_SRC_FF_SRC cf t k)
      && srcOk c t (Fld.CE_LOOP_SRC_SV_SRC cf t k))
  && (u.all fun k =>
    let d := Fld.CE_LOOP_OUT_DST cf t k
    decide (ctxKind c t k ≠ 0) || decide (d = 0 ∨ (0x10 ≤ d ∧ d < 0x18) ∨ (0x38 ≤ d ∧ d < 0x50)))
  && ((List.range 8).all fun k => tq (Fld.QD_FRZ_CFG_TQ_SRC cf t k) && tq (Fld.QD_FRZ_CFG_LOAD_SRC cf t k))
  && ((List.range 16).all fun j =>
    let ps := Fld.PG_HOME_CFG_POS_SRC cf t j
    inOk c t (Fld.PG_LIM_CFG_LIMP_SRC cf t j) && inOk c t (Fld.PG_LIM_CFG_LIMN_SRC cf t j) && inOk c t (Fld.PG_HOME_CFG_HOME_SRC cf t j)
      && (decide (ps = 0) || (decide (0x30 ≤ ps ∧ ps < 0x38) && chanOf c t (ps - 0x30) j))
      && (decide (Fld.GR_FOLLOW_MODE cf t j = 0) || masterOk c t j (Fld.GR_FOLLOW_MASTER cf t j)))
  && ((List.range 4).all fun k =>
    let s := Fld.GR_CMP_CFG_SRC cf t k
    !Fld.GR_CMP_CFG_EN cf t k || decide (s = 0 ∨ (0x30 ≤ s ∧ s < 0x38)))
  && ((List.range 16).all fun k =>
    let s := Fld.AQ_CH_SRC cf t k
    srcOk c t s || decide ((0xD0 ≤ s ∧ s < 0xE2) ∨ (0xE4 ≤ s ∧ s < 0xEC)))

/-- R484, R485, R487 for a field channel. -/
def fieldRouting (c : Block) (p : Nat × Nat) : Bool :=
  let s := Fld.FIO_CH_CFG_SRC c.cfg p.1 p.2
  (if Fld.FIO_CH_CFG_FUNC c.cfg p.1 p.2 = 3 then decide (s = 0 ∨ (0x80 ≤ s ∧ s < 0x90)) else decide (s = 0))
    && decide (Fld.FIO_CH_CFG_ROUTE c.cfg p.1 p.2 < 2 ^ c.run.tileSet)

/-- R513, R516: source codes of a zone. -/
def zoneRouting (c : Block) (z : Nat) : Bool :=
  let rs := Fld.SF_ZONE_CFG_RST_SRC c.cfg z
  !Fld.SF_ZONE_CFG_EN c.cfg z ||
    (((zoneSrcs c z).all fun v => decide (v = 0 ∨ (0x40 ≤ v ∧ v < 0xB0))) && decide (rs = 0 ∨ (0x40 ≤ rs ∧ rs < 0x80)))

def checkRouting (c : Block) : Option Bad :=
  tileBad 0x10 c (tileRouting c) <|> allBad 0x10 ((fieldChans.all (fieldRouting c)) && ((List.range 16).all (zoneRouting c)))

/-- An input function. -/
def isInFunc (f : Nat) : Bool := f = 1 || f = 2

/-- R470, R471 for a channel. -/
def fieldFunc (c : Block) (p : Nat × Nat) : Bool :=
  let cf := c.cfg
  let f (k : Nat) : Nat := Fld.FIO_CH_CFG_FUNC cf p.1 k
  let names (k : Nat) : Bool := isInFunc (f k) && Fld.FIO_CH_CFG_TS_EN cf p.1 k
  decide (f p.2 ≤ 5) && (decide (f p.2 ≠ 4) || decide (12 ≤ p.2))
  && (!names p.2 ||
    (decide (f (Fld.FIO_CH_CFG_TSRC cf p.1 p.2) = 5) && Fld.FIO_CH_PAR_PULSED cf p.1 p.2
      && ((List.range 16).all fun k =>
        !(names k && decide (Fld.FIO_CH_CFG_TSRC cf p.1 k = Fld.FIO_CH_CFG_TSRC cf p.1 p.2)) || decide (Fld.FIO_CH_PAR_DEB cf p.1 k = Fld.FIO_CH_PAR_DEB cf p.1 p.2))))

/-- R513, R514: the field channels of a zone. -/
def zoneField (c : Block) (z : Nat) : Bool :=
  let ss := zoneSrcs c z
  let ch (v : Nat) : Bool := 0x40 ≤ v && v < 0x80
  !Fld.SF_ZONE_CFG_EN c.cfg z ||
    ((ss.all fun v => !ch v || isInFunc (Fld.FIO_CH_CFG_FUNC c.cfg ((v - 0x40) / 16) (v % 16)))
      && (!Fld.SF_ZONE_CFG_PAIR c.cfg z || (ch (Fld.SF_ZONE_IN_IN0 c.cfg z) && ch (Fld.SF_ZONE_IN_IN1 c.cfg z))))

/-- R522: a brake channel has the function OUT_BRAKE. -/
def brakeField (c : Block) (a : Nat) : Bool :=
  let ch := Fld.SF_AX_CFG_BRK_CH c.cfg a
  !Fld.SF_AX_CFG_BRK_EN c.cfg a || decide (Fld.FIO_CH_CFG_FUNC c.cfg (ch / 16) (ch % 16) = 4)

def checkField (c : Block) : Option Bad :=
  allBad 0x11 ((fieldChans.all (fieldFunc c)) && ((List.range 16).all (zoneField c)) && ((List.range (16 * c.run.tileSet)).all (brakeField c)))

/-! ### MEMORY, BERATH, SAFETY_CRC, SCHEDULE, SPINE -/

/-- R88. -/
def partsOk (c : Block) : Bool :=
  let ps := c.run.parts
  (ps.all fun p => decide (p.base + p.size ≤ 4032) && !(decide (0x10 ≤ p.owner ∧ p.owner ≤ 0x17) && decide (c.run.tileSet ≤ p.owner - 0x10)))
  && allPairs (fun a b => decide (a.base + a.size ≤ b.base) || decide (b.base + b.size ≤ a.base)) ps
  && decide (((ps.filter fun p => p.persist).map fun p => p.size * 65536).sum ≤ 1966080)

/-- The banks of the slots of one kind lie in their partition and do not overlap (R257, R314): slot, offset, bank size. -/
def banksOk (part : Option Part) (l : List (Nat × Nat)) : Bool :=
  match part with
  | none => l.isEmpty
  | some p => (l.all fun e => decide (e.1 + 2 * e.2 ≤ p.size)) && allPairs (fun a b => decide (a.1 + 2 * a.2 ≤ b.1) || decide (b.1 + 2 * b.2 ≤ a.1)) l

/-- R154, R257, R314, R369 on one tile. -/
def tileMemory (c : Block) (t : Nat) : Bool :=
  let cf := c.cfg
  let gens := (List.range 16).filter (hasGen c t)
  let cams := (List.range 16).filter fun j => decide (Fld.GR_FOLLOW_MODE cf t j = 2)
  let scheds := (usedCtx c t).filter fun k => Fld.CE_LOOP_ALLOC_SCHED_EN cf t k
  banksOk (partOf c 1 t) (gens.map fun j => (Fld.PG_CFG_AREA_OFS cf t j, Fld.PG_CFG_BANK_SIZE cf t j))
  && banksOk (partOf c 2 t) (cams.map fun j => (Fld.GR_CAM_CFG_AREA_OFS cf t j, Fld.GR_CAM_CFG_BANK_SIZE cf t j))
  && (scheds.isEmpty || (match partOf c 3 t with | some p => decide (2 ≤ p.size) | none => false))
  && (!Fld.AQ_RING_EN cf t ||
    (match partOf c 4 t with
     | some p => decide ((Fld.AQ_RING_SLOTS cf t + 1) * Fld.AQ_RING_SLOT_BLOCKS cf t * 512 ≤ p.size * 65536)
     | none => false))

def checkMemory (c : Block) : Option Bad := allBad 0x12 (partsOk c) <|> tileBad 0x12 c (tileMemory c)

/-- The context that writes the set-point of a networked slot (R58). -/
def nxWriter (c : Block) (t j : Nat) : Option Nat :=
  (usedCtx c t).find? fun k => decide (ctxKind c t k = 0) && decide (Fld.CE_LOOP_OUT_DST c.cfg t k = 0x30 + j)

/-- What R432 needs of every networked slot with a set-point window. -/
def leadsOf (c : Block) : List LeadReq :=
  (nxSlots.filter fun k => decide (k / 8 < c.run.tileSet) && Fld.BL_NX_BIND_EN c.cfg k && decide (Fld.BL_NX_BIND_BIND_DN c.cfg k ≠ 255)).filterMap fun k =>
    (nxWriter c (k / 8) (8 + k % 8)).map fun x =>
      let g := ctxGroup c (k / 8) x
      { period := grpPeriod c (k / 8) g, phase := Fld.TL_TILE_PHASE_PHASE c.cfg (k / 8), apply := Fld.TL_GRP_APPLY_APPLY c.cfg (k / 8) g
        lead := Fld.BL_NX_LEAD_LEAD c.cfg k, port := Fld.BL_NX_BIND_PORT c.cfg k, bind := Fld.BL_NX_BIND_BIND_DN c.cfg k }

/-- The bound points of the safety connections (R536, R539): 5 words for each connection. -/
def safetyPoints (c : Block) : List (Nat × Bool × Nat × Nat) :=
  let cf := c.cfg
  let cs := (List.range 48).filter fun n => Fld.SF_CONN_CFG_EN cf n && !Fld.SF_CONN_CFG_PATH cf n
  let count (f : Nat → Nat) (p b : Nat) : Nat := (cs.filter fun n => decide (Fld.SF_CONN_CFG_PORT cf n = p) && decide (f n = b)).length
  cs.flatMap fun n =>
    let p := Fld.SF_CONN_CFG_PORT cf n
    let dn := Fld.SF_CONN_CFG_BIND_DN cf n
    let up := Fld.SF_CONN_CFG_BIND_UP cf n
    [(p, false, dn, 5 * count (Fld.SF_CONN_CFG_BIND_DN cf) p dn), (p, true, up, 5 * count (Fld.SF_CONN_CFG_BIND_UP cf) p up)]

/-- R578: the arbitrating windows of sealed ports hold a KEY payload. -/
def sealOk (c : Block) : Bool :=
  c.net.tables.all fun e => !e.2.valid || e.2.wins.all fun w =>
    !(Fld.BL_PORT_CFG_EN c.cfg w.port && Fld.BL_PORT_CFG_SEAL c.cfg w.port && decide (w.kind = 1)) || decide (54 ≤ w.maxlen)

/-- BERATH (R410, R432, R578). Condition 9 of R410 is the condition of SP_LEAD, which R99 judges later: a breach is found here. -/
def checkBerath (shapes : Bool) (c : Block) : Option Bad :=
  allBad 0x13 (shapes && blCheck c.cfg c.net.tables (safetyPoints c) (leadsOf c) && sealOk c)

/-- SAFETY_CRC (R545): the image's CHECK and SF_PAR_CHECK. -/
def checkSafety (sectionOk : Bool) (c : Block) : Option Bad := allBad 0x14 (sectionOk && decide (Fld.SF_PAR_CHECK_CHECK c.cfg = parCrc c.cfg))

/-- Engine steps of a group's frame (R62, R68). -/
def groupSteps (c : Block) (t g : Nat) : Nat :=
  let cf := c.cfg
  let k := ctxsIn c t g
  let loops := (k.filter fun x => decide (ctxKind c t x = 0)).map fun x =>
    60 + 9 * Fld.CE_LOOP_ALLOC_NSEC cf t x
      + (if Fld.CE_LOOP_ALLOC_SCHED_EN cf t x && Fld.CE_SCHED_CFG_INTERP cf t (Fld.CE_LOOP_ALLOC_SCHED cf t x) then 30 else 0)
      + (if Fld.CE_LOOP_OUT_BUMPLESS cf t x || (alternative c t x && Fld.CE_LOOP_OUT_HO_EN cf t x) then 48 else 0)
  let lane (j : Nat) : Nat :=
    ((k.filter fun x => decide (ctxKind c t x ≠ 0) && decide (ctxSlot c t x = j)).map fun x => Fld.CE_LOOP_ALLOC_NSEC cf t x).sum
  let cur := (List.range 4).filter fun j => decide (lane j ≠ 0)
  loops.sum + (if cur.isEmpty then 0 else 372 + 12 * (cur.map lane).foldl max 0)

/-- Eighteenths of a ns that an engine step takes at worst corner (R62): 300, 240, 180 million steps a second. -/
def stepUnits (pace : Nat) : Nat := if pace = 0 then 60 else if pace = 1 then 75 else 100

/-- The groups of a tile in use, in order of priority (R61). -/
def groupOrder (c : Block) (t : Nat) : List Nat :=
  let g := (List.range 4).filter fun g => decide (grpPeriod c t g ≠ 0)
  g.mergeSort fun a b => grpPeriod c t a < grpPeriod c t b || (grpPeriod c t a = grpPeriod c t b && a ≤ b)

/-- The iteration of R70 in eighteenths of a ns: whether it ends before the apply offset `a`. -/
def respond (base a : Nat) (higher : List (Nat × Nat)) : Nat → Nat → Bool
  | 0, _ => false
  | n + 1, r =>
    let r' := base + (higher.map fun h => ceilDiv r h.1 * h.2).sum
    if r' = r then decide (ceilDiv r 180 * 180 < a)
    else if a ≤ r' then false
    else respond base a higher n r'

/-- The first group of a tile that R70 rejects. -/
def schedBad (c : Block) (pace t : Nat) : Option Nat :=
  let u := stepUnits pace
  let ord := groupOrder c t
  (List.range ord.length).findSome? fun i =>
    let g := ord.getD i 0
    let hs := (ord.take i).map fun h => (180 * grpPeriod c t h, groupSteps c t h * u)
    let base := 18 * 20 + (if i + 1 < ord.length then 60 * u else 0) + groupSteps c t g * u
    let a := 180 * Fld.TL_GRP_APPLY_APPLY c.cfg t g
    if respond base a hs (a + 2) base then none else some g

/-- SCHEDULE (R69, R70). -/
def checkSchedule (pace : Nat) (c : Block) : Option Bad :=
  (tilesOf c).findSome? fun t => (schedBad c pace t).map fun g => { code := 0x15, tile := t, detail := g }

/-- ADDRESS of what names a tile outside the set (CE_XIN, GR_XM). -/
def checkTiles (c : Block) : Option Bad :=
  tileBad codeAddress c fun t => (List.range 8).all fun k =>
    (!Fld.CE_XIN_EN c.cfg t k || decide (Fld.CE_XIN_TILE c.cfg t k < c.run.tileSet)) && (!Fld.GR_XM_EN c.cfg t k || decide (Fld.GR_XM_TILE c.cfg t k < c.run.tileSet))

/-! ### SPINE (R27) -/

/-- Bytes of a class 1 packet of a kind: a header of 8 bytes and 1 to 56 more (R23). -/
def pktSize (kind : Nat) : Nat := 9 + Config.pktBytes kind % 56

/-- Instants of a rate group in a second. -/
def grpRate (c : Block) (t g : Nat) : Nat := if grpPeriod c t g = 0 then 0 else ceilDiv 100000000 (grpPeriod c t g)

/-- Cycles of the fastest valid Berath table in a second: a bound drive sends or takes at most one record in each window occurrence. -/
def cycleRate (c : Block) : Nat :=
  (c.net.tables.filter fun e => e.2.valid && decide (blCycNs e.2 ≠ 0)).foldl (fun m e => max m (ceilDiv 1000000000 (blCycNs e.2))) 0

/-- How often the rate group of the source of an inter-tile loop input and of a remote master comes. -/
def xinRate (c : Block) (t k : Nat) : Nat :=
  let u := Fld.CE_XIN_TILE c.cfg t k
  if Fld.CE_XIN_EN c.cfg t k then grpRate c u (Fld.CE_LOOP_ALLOC_GROUP c.cfg u (Fld.CE_XIN_CTX c.cfg t k)) else 0

/-- See `xinRate`. -/
def xmRate (c : Block) (t x : Nat) : Nat :=
  let u := Fld.GR_XM_TILE c.cfg t x
  if Fld.GR_XM_EN c.cfg t x then grpRate c u (Fld.PG_CFG_GRP c.cfg u (Fld.GR_XM_SLOT c.cfg t x)) else 0

/-- The class 1 load of the link from the hub to tile `t`, in bytes per second: host set-points, partner feedback and set-points, field states, inter-tile inputs,
remote masters. DESIGN CHOICE: the specification declares rates and no packet sizes (log 63). -/
def class1Down (c : Block) (t : Nat) : Nat :=
  c.run.spRate.sum * pktSize 0
    + ((List.range 8).countP fun i => Fld.BL_NX_BIND_EN c.cfg (8 * t + i)) * cycleRate c * pktSize 1
    + ((List.range 32).countP fun n => Fld.BL_SPIN_EN c.cfg t n) * cycleRate c * pktSize 2
    + ((List.range 4).countP fun m => (List.range 16).any fun k => bit (Fld.FIO_CH_CFG_ROUTE c.cfg m k) t) * 50000 * pktSize 3
    + ((List.range 8).map (xinRate c t)).sum * pktSize 4
    + ((List.range 8).map (xmRate c t)).sum * pktSize 5

/-- The class 1 load of the link from tile `t` to the hub: set-points of networked slots, channel commands, values for other tiles. -/
def class1Up (c : Block) (t : Nat) : Nat :=
  let nx := (usedCtx c t).filter fun k => let d := Fld.CE_LOOP_OUT_DST c.cfg t k; decide (0x38 ≤ d) && decide (d < 0x40)
  (nx.map fun k => grpRate c t (Fld.CE_LOOP_ALLOC_GROUP c.cfg t k)).sum * pktSize 6
    + ((List.range 64).map fun k =>
        if decide (Fld.FIO_CH_CFG_FUNC c.cfg (k / 16) (k % 16) = 3) && decide (0x80 ≤ Fld.FIO_CH_CFG_SRC c.cfg (k / 16) (k % 16)) && decide (outTile c (k / 16) (k % 16) = some t)
        then grpRate c t (Fld.FIO_CH_CFG_GRP c.cfg (k / 16) (k % 16)) else 0).sum * pktSize 7
    + ((tilesOf c).map fun u => ((List.range 8).map fun k => if Fld.CE_XIN_TILE c.cfg u k = t then xinRate c u k else 0).sum).sum * pktSize 4
    + ((tilesOf c).map fun u => ((List.range 8).map fun x => if Fld.GR_XM_TILE c.cfg u x = t then xmRate c u x else 0).sum).sum * pktSize 5

/-- The class 2 load that the slots of tile `t` declare, in millionths of a byte per second (R258, R318). -/
def class2Load (c : Block) (t : Nat) : Nat :=
  ((List.range 16).map fun j =>
    (if hasGen c t j then 8 * 10 ^ 15 / Fld.PG_MIN_DUR_MIN_DUR c.cfg t j else 0)
      + (if Fld.GR_FOLLOW_MODE c.cfg t j = 2 then 40 * 10 ^ 6 * Fld.GR_CAM_VMAX_VALUE c.cfg t j / Fld.GR_CAM_MIN_DX_VALUE c.cfg t j else 0)).sum

/-- SPINE (R27): 120 MB/s for each tile in each direction, 3,200 MB/s for the memory stack (R22). -/
def checkSpine (c : Block) : Option Bad :=
  tileBad 0x16 c (fun t => decide (10 ^ 6 * class1Down c t + class2Load c t ≤ 120 * 10 ^ 12) && decide (10 ^ 6 * class1Up c t ≤ 120 * 10 ^ 12))
    <|> allBad 0x16 (decide (((tilesOf c).map (class2Load c)).sum ≤ 3200 * 10 ^ 12))

/-- The checks from SLOT_TYPE to SPINE, in the order of R99. -/
def structChecks (shapes sectionOk : Bool) (pace : Nat) (c : Block) : Option Bad :=
  checkSlotType c <|> checkResource c <|> checkGroup c <|> checkOwner c <|> checkRouting c <|> checkField c <|> checkMemory c
    <|> checkBerath shapes c <|> checkSafety sectionOk c <|> checkSchedule pace c <|> checkSpine c

end Sys2Proof.Machine
end

