-- ==== Sys2Proof/Machine/Listed.lean ====
section
/-! DEFINITION. Which axes a structural change lists (R96): the items in which two structures differ, and the axes of each. -/

namespace Sys2Proof.Machine

/-- A loop of a context reads or writes mailboxes of its tile's sequencer. -/
def usesMailbox (c : Block) (t k : Nat) : Bool :=
  let cf := c.cfg
  let mb (v : Nat) : Bool := 0x80 ≤ v && v < 0x90
  let d := Fld.CE_LOOP_OUT_DST cf t k
  mb (Fld.CE_LOOP_SRC_REF_SRC cf t k) || mb (Fld.CE_LOOP_SRC_FB_SRC cf t k) || mb (Fld.CE_LOOP_SRC_FF_SRC cf t k) || mb (Fld.CE_LOOP_SRC_SV_SRC cf t k)
    || decide (0x40 ≤ d ∧ d < 0x50)

/-- Every axis of the tile set of a structure. -/
def axesOfSet (c : Block) : List (Nat × Nat) := (List.range (16 * c.run.tileSet)).map fun a => (a / 16, a % 16)

/-- The axes that use a field channel: limits, home, zones, brake. -/
def chanAxes (c : Block) (ch : Nat) : List (Nat × Nat) :=
  let cf := c.cfg
  let v := 0x40 + ch
  let zs := (List.range 16).filter fun z => Fld.SF_ZONE_CFG_EN cf z && (decide (Fld.SF_ZONE_CFG_RST_SRC cf z = v) || (zoneSrcs c z).contains v)
  (axesOfSet c).filter fun p =>
    let a := axNo p.1 p.2
    (hasGen c p.1 p.2 && (decide (Fld.PG_LIM_CFG_LIMP_SRC cf p.1 p.2 = v) || decide (Fld.PG_LIM_CFG_LIMN_SRC cf p.1 p.2 = v) || decide (Fld.PG_HOME_CFG_HOME_SRC cf p.1 p.2 = v)))
      || (Fld.SF_AX_CFG_BRK_EN cf a && decide (Fld.SF_AX_CFG_BRK_CH cf a = ch))
      || zs.any fun z => bit (Fld.SF_AX_CFG_ZONES cf a) z

/-- The axes of a zone. -/
def zoneList (c : Block) (z : Nat) : List (Nat × Nat) := (axesOfSet c).filter fun p => bit (Fld.SF_AX_CFG_ZONES c.cfg (axNo p.1 p.2)) z

/-- The networked axes bound to a port. -/
def portAxes (c : Block) (p : Nat) : List (Nat × Nat) :=
  (nxSlots.filter fun k => Fld.BL_NX_BIND_EN c.cfg k && decide (Fld.BL_NX_BIND_PORT c.cfg k = p)).map fun k => (k / 8, 8 + k % 8)

/-- The axes of one slot number on a tile, if it is in use. -/
def ownerOf (used : Bool) (t j : Nat) : List (Nat × Nat) := if used then [(t, j)] else []

/-- The axes that a register's structural item lists, in one of the two structures (R96). -/
def itemAxes (c : Block) (r : RegId) (ix : List Nat) : List (Nat × Nat) :=
  let cf := c.cfg
  let t := ix.getD 0 0
  let j := ix.getD 1 0
  let nx := nxSlots.filter fun k => Fld.BL_NX_BIND_EN cf k
  match r with
  | .AX_MCLK => (List.range 4).map fun k => (t, k)
  | .GR_PLG_CFG | .GR_PLG_PHASE => membersOf c t
  | .AX_SLOT_TYPE | .AX_COMM_CPR | .AX_PWM_CFG | .AX_PWM_LEAD | .AX_SD_CFG | .AX_COMM | .AX_DF | .PG_CFG | .GR_FOLLOW | .GR_CAM_CFG => [(t, j)]
  | .CE_LOOP_ALLOC | .CE_LOOP_SRC | .CE_LOOP_OUT => ownerOf (decide (Fld.CE_LOOP_ALLOC_NSEC cf t j ≠ 0)) t (ctxSlot c t j)
  | .CE_XIN => (tileAxes t).filter fun p => readsSrc c t p.2 (0x90 + j)
  | .GR_XM => (tileAxes t).filter fun p => decide (Fld.GR_FOLLOW_MODE cf t p.2 ≠ 0) && decide (Fld.GR_FOLLOW_MASTER cf t p.2 = 0xC0 + j)
  | .TL_TILE_PHASE => (usedCtx c t).map fun k => (t, ctxSlot c t k)
  | .TL_GRP_PERIOD => (ctxsIn c t j).map fun k => (t, ctxSlot c t k)
  | .QD_ASSIGN => ownerOf (Fld.QD_ASSIGN_EN cf t j) t (Fld.QD_ASSIGN_SLOT cf t j)
  | .QD_PRB_CFG => ownerOf (Fld.QD_PRB_CFG_EN cf t j) t (Fld.QD_PRB_CFG_SLOT cf t j)
  | .GR_CMP_CFG => ownerOf (Fld.GR_CMP_CFG_EN cf t j) t (Fld.GR_CMP_CFG_SLOT cf t j)
  | .PG_PULSE_CFG | .PG_RES_CFG => [(t, 4 + j)]
  | .SQ_CFG | .SQ_INBOX => ((usedCtx c t).filter (usesMailbox c t)).map fun k => (t, ctxSlot c t k)
  | .BL_NET_CFG | .BL_NET_PHASE => nx.map fun k => (k / 8, 8 + k % 8)
  | .BL_NX_BIND => ownerOf (Fld.BL_NX_BIND_EN cf t) (t / 8) (8 + t % 8)
  | .BL_PORT_CFG | .SEC_PEER => portAxes c t
  | .BL_SPIN => (tileAxes t).filter fun p => readsSrc c t p.2 (0x40 + j)
  | .FIO_CH_CFG => chanAxes c (16 * t + j)
  | .SF_ZONE_CFG | .SF_ZONE_IN => zoneList c t
  | .SF_AX_CFG | .SF_AX_TIME | .SF_AX_GRACE | .SF_AX_GRACE_V | .SF_AX_BT | .SF_AX_BT_LIM | .SF_AX_STO => [(t / 16, t % 16)]
  | .SF_CONN_CFG | .SF_CONN_UID | .SF_CONN_WT | .SF_CONN_SEND =>
    ((List.range 16).filter fun z => Fld.SF_ZONE_CFG_EN cf z && (zoneSrcs c z).contains (0x80 + t)).flatMap (zoneList c)
      ++ (if Fld.SF_CONN_CFG_TXSRC cf t then tileAxes (Fld.SF_CONN_CFG_TILE cf t) else [])
  | _ => []

/-- The registers whose structural bits differ in two structures. -/
def changedRegs (a b : Block) : List (RegId × List Nat) :=
  ((a.cfg ++ b.cfg).map Prod.fst).filterMap fun ad =>
    match regAt ad with
    | some (r, ix) =>
      let d := (regDef r).reset
      let m := BitVec.ofNat 32 (structMask r)
      if tabGet d a.cfg ad &&& m ≠ tabGet d b.cfg ad &&& m then some (r, ix) else none
    | none => none

/-- The windows of a port in a set of tables. -/
def portWins (tables : Tab BlTable) (p : Nat) : List (Nat × Nat × Nat × Nat × List BlWin) :=
  tables.map fun e => (e.1, e.2.cycle, e.2.matrix, e.2.guard, e.2.wins.filter fun w => decide (w.port = p))

/-- The ports whose windows differ (R96, R445). -/
def changedPorts (a b : Block) : List Nat := (List.range 12).filter fun p => decide (portWins a.net.tables p ≠ portWins b.net.tables p)

/-- Partitions, of two structures, that are not in both unchanged (R96). -/
def changedParts (a b : Block) : List Part :=
  (a.run.parts.filter fun p => !b.run.parts.contains p) ++ (b.run.parts.filter fun p => !a.run.parts.contains p)

/-- The axes whose tables lie in a partition. -/
def partAxes (c : Block) (p : Part) : List (Nat × Nat) :=
  if p.owner < 0x10 ∨ 0x18 ≤ p.owner then []
  else
    let t := p.owner - 0x10
    match p.kind with
    | 1 => (tileAxes t).filter fun q => hasGen c t q.2
    | 2 => (tileAxes t).filter fun q => decide (Fld.GR_FOLLOW_MODE c.cfg t q.2 = 2)
    | 3 => ((usedCtx c t).filter fun k => Fld.CE_LOOP_ALLOC_SCHED_EN c.cfg t k).map fun k => (t, ctxSlot c t k)
    | _ => []

/-- The axes listed for the structural items in which two structures differ, as numbers 16 × tile + slot; `codeTiles` are the tiles
whose LOAD data of target 0x0001 differ. -/
def listedAxes (a b : Block) (codeTiles : List Nat) : List Nat :=
  let both (f : Block → List (Nat × Nat)) : List (Nat × Nat) := f a ++ f b
  let regs := (changedRegs a b).flatMap fun x => both fun c => itemAxes c x.1 x.2
  let ports := (changedPorts a b).flatMap fun p => both fun c => portAxes c p
  let mem := (changedParts a b).flatMap fun p => both fun c => partAxes c p
  let code := codeTiles.flatMap fun t => both fun c => itemAxes c .SQ_CFG [t]
  let l := (regs ++ ports ++ mem ++ code).map fun p => axNo p.1 p.2
  (List.range 128).filter fun n => l.contains n

end Sys2Proof.Machine
end

