-- ==== Sys2Proof/Machine/SequencerRows.lean ====
section
/-! DEFINITION. Commands of the tile sequencers (chapter 09): instructions, dispatch, transfers, mailboxes, control. An instruction's command executes the instruction at the program counter when it is of that kind. -/

namespace Sys2Proof.Machine

/-! ### What a sequencer sees -/

/-- The partition with an ID. -/
def partId (b : Block) (i : Nat) : Option Part := b.run.parts.find? fun p => decide (p.id = i)

/-- The error code of a transfer descriptor of tile `t`, BUSY apart (R359): conditions in the order of its list. -/
def xferErr (b : Block) (t : Nat) (x : Xfer) : Nat :=
  let code := Fld.SQ_CFG_CODE_LEN b.cfg t
  let p := partId b x.part
  let partBad := match p with
    | some q => !(decide (q.kind = 5) || decide (q.kind = 6)) || !(decide (q.owner = dieTile t) || decide (q.owner = 0xFF))
    | none => true
  let size := match p with
    | some q => q.size * 65536
    | none => 0
  if x.dir < 2 && partBad then 2
  else if decide (65536 < x.loc + x.len) || (decide (x.dir < 2) && (decide (size < x.ofs + 4 * x.len) || decide (x.ofs % 4 ≠ 0)))
      || (decide (x.dir = 2) && decide (tileOn b x.tile) && decide (Fld.SQ_INBOX_LEN b.cfg x.tile ≠ 0)
          && decide (Fld.SQ_INBOX_LEN b.cfg x.tile < x.ofs + x.len)) then 3
  else if decide (x.dir = 0) && decide (x.loc < code) then 4
  else if decide (x.dir = 2) && (!tileOn b x.tile || decide (8 ≤ x.tile) || decide (Fld.SQ_INBOX_LEN b.cfg x.tile = 0)) then 5
  else if decide (x.len = 0) || decide (16384 < x.len) || decide (x.dir = 3) then 6
  else 0

/-- What the instructions of a tile see. -/
def sqEnv (b : Block) (now t : Nat) : SqEnv :=
  { now := now, codeLen := Fld.SQ_CFG_CODE_LEN b.cfg t, entry := Fld.SQ_CFG_ENTRY b.cfg t, xferErr := xferErr b t }

/-- The number of a fault cause (SQ_STATUS.FAULT_CAUSE). -/
def sqCauseNo (c : Option SqFault) : Nat :=
  match c with
  | none => 0
  | some .illegal => 1
  | some .repBody => 2
  | some .stack => 3
  | some .codeWrite => 4
  | some .fetch => 5
  | some .brev => 6

/-- A sequencer does `f`; a fault that it enters is logged (R363). -/
def seqDo (now t : Nat) (f : SqEnv → Seq → Seq) (b : Block) : Block :=
  let s := b.seqAt t
  let s' := f (sqEnv b now t) s
  let b := b.seqUpd t fun _ => s'
  if decide (s'.st = .fault) && decide (s.st ≠ .fault) then logEvent now 0x0040 (dieTile t) (t * 256 + sqCauseNo s'.cause) b else b

/-- The instruction at the program counter posts mailbox 15. -/
def postsMb15 (b : Block) (t : Nat) : Bool :=
  let s := b.seqAt t
  let w := sqRead s s.r.pc.toNat
  decide (s.st = .running) && !sqDispatchDue s && decide (s.r.pc.toNat < Fld.SQ_CFG_CODE_LEN b.cfg t)
    && decide (sqOpcode w = 0x22) && decide (bits w.toNat 16 5 = 0) && bit (sqCount s w.toNat) 15

/-- MBPOST; a post of mailbox 15 is a trigger event (R355, R375). -/
def mbPostedOp (now t : Nat) (b : Block) : Block :=
  let p := postsMb15 b t
  let b := seqDo now t (fun e => sqRun e 0x22 1 sqMbpost) b
  if p then acqEvent now t 10 b else b

/-! ### Instructions -/

/-- NOP (R339). -/
def execNop (t : Fin 8) (s : State) : Host.Outcome State Fault Refusal :=
  onTile t (fun now => seqDo now t (fun e => sqRun e 0x0 1 sqNop)) s

/-- LD (R339). -/
def execLd (t : Fin 8) (s : State) : Host.Outcome State Fault Refusal :=
  onTile t (fun now => seqDo now t (fun e => sqRun e 0x1 1 sqLd)) s

/-- ST (R339). -/
def execSt (t : Fin 8) (s : State) : Host.Outcome State Fault Refusal :=
  onTile t (fun now => seqDo now t (fun e => sqRun e 0x2 1 sqSt)) s

/-- MVM (R339). -/
def execMvm (t : Fin 8) (s : State) : Host.Outcome State Fault Refusal :=
  onTile t (fun now => seqDo now t (fun e => sqRun e 0x3 1 sqMvm)) s

/-- LDI (R339). -/
def execLdi (t : Fin 8) (s : State) : Host.Outcome State Fault Refusal :=
  onTile t (fun now => seqDo now t (fun e => sqRun e 0x4 2 sqLdi)) s

/-- MOV (R339). -/
def execMov (t : Fin 8) (s : State) : Host.Outcome State Fault Refusal :=
  onTile t (fun now => seqDo now t (fun e => sqRun e 0x5 1 sqMov)) s

/-- MOVA (R339). -/
def execMova (t : Fin 8) (s : State) : Host.Outcome State Fault Refusal :=
  onTile t (fun now => seqDo now t (fun e => sqRun e 0x6 1 sqMova)) s

/-- AADD (R336). -/
def execAadd (t : Fin 8) (s : State) : Host.Outcome State Fault Refusal :=
  onTile t (fun now => seqDo now t (fun e => sqRun e 0x7 1 sqAadd)) s

/-- ADD (R341). -/
def execAdd (t : Fin 8) (s : State) : Host.Outcome State Fault Refusal :=
  onTile t (fun now => seqDo now t (fun e => sqRun e 0x8 1 sqAdd)) s

/-- SUB (R341). -/
def execSub (t : Fin 8) (s : State) : Host.Outcome State Fault Refusal :=
  onTile t (fun now => seqDo now t (fun e => sqRun e 0x9 1 sqSub)) s

/-- ASH (R341). -/
def execAsh (t : Fin 8) (s : State) : Host.Outcome State Fault Refusal :=
  onTile t (fun now => seqDo now t (fun e => sqRun e 0xa 1 sqAsh)) s

/-- AND (R339). -/
def execAnd (t : Fin 8) (s : State) : Host.Outcome State Fault Refusal :=
  onTile t (fun now => seqDo now t (fun e => sqRun e 0xb 1 sqAnd)) s

/-- OR (R339). -/
def execOr (t : Fin 8) (s : State) : Host.Outcome State Fault Refusal :=
  onTile t (fun now => seqDo now t (fun e => sqRun e 0xc 1 sqOr)) s

/-- XOR (R339). -/
def execXor (t : Fin 8) (s : State) : Host.Outcome State Fault Refusal :=
  onTile t (fun now => seqDo now t (fun e => sqRun e 0xd 1 sqXor)) s

/-- CMP (R341). -/
def execCmp (t : Fin 8) (s : State) : Host.Outcome State Fault Refusal :=
  onTile t (fun now => seqDo now t (fun e => sqRun e 0xe 1 sqCmp)) s

/-- ABS (R341). -/
def execAbs (t : Fin 8) (s : State) : Host.Outcome State Fault Refusal :=
  onTile t (fun now => seqDo now t (fun e => sqRun e 0xf 1 sqAbs)) s

/-- MUL (R342). -/
def execMul (t : Fin 8) (s : State) : Host.Outcome State Fault Refusal :=
  onTile t (fun now => seqDo now t (fun e => sqRun e 0x10 1 sqMul)) s

/-- MAC (R342). -/
def execMac (t : Fin 8) (s : State) : Host.Outcome State Fault Refusal :=
  onTile t (fun now => seqDo now t (fun e => sqRun e 0x11 1 sqMac)) s

/-- MSU (R342). -/
def execMsu (t : Fin 8) (s : State) : Host.Outcome State Fault Refusal :=
  onTile t (fun now => seqDo now t (fun e => sqRun e 0x12 1 sqMsu)) s

/-- VMAC (R339). -/
def execVmac (t : Fin 8) (s : State) : Host.Outcome State Fault Refusal :=
  onTile t (fun now => seqDo now t (fun e => sqRun e 0x13 1 sqVmac)) s

/-- ACCR (R339). -/
def execAccr (t : Fin 8) (s : State) : Host.Outcome State Fault Refusal :=
  onTile t (fun now => seqDo now t (fun e => sqRun e 0x14 1 sqAccr)) s

/-- ACLR (R339). -/
def execAclr (t : Fin 8) (s : State) : Host.Outcome State Fault Refusal :=
  onTile t (fun now => seqDo now t (fun e => sqRun e 0x15 1 sqAclr)) s

/-- BFLY (R344). -/
def execBfly (t : Fin 8) (s : State) : Host.Outcome State Fault Refusal :=
  onTile t (fun now => seqDo now t (fun e => sqRun e 0x18 1 sqBfly)) s

/-- BSCALE (R345). -/
def execBscale (t : Fin 8) (s : State) : Host.Outcome State Fault Refusal :=
  onTile t (fun now => seqDo now t (fun e => sqRun e 0x19 1 sqBscale)) s

/-- SRCH (R346). -/
def execSrch (t : Fin 8) (s : State) : Host.Outcome State Fault Refusal :=
  onTile t (fun now => seqDo now t (fun e => sqRun e 0x1a 1 sqSrch)) s

/-- MBSNAP (R354). -/
def execMbsnap (t : Fin 8) (s : State) : Host.Outcome State Fault Refusal :=
  onTile t (fun now => seqDo now t (fun e => sqRun e 0x20 1 sqMbsnap)) s

/-- MBOUT (R355). -/
def execMbout (t : Fin 8) (s : State) : Host.Outcome State Fault Refusal :=
  onTile t (fun now => seqDo now t (fun e => sqRun e 0x21 1 sqMbout)) s

/-- MBPOST (R355). -/
def execMbpost (t : Fin 8) (s : State) : Host.Outcome State Fault Refusal :=
  onTile t (fun now => mbPostedOp now t) s

/-- BR (R339). -/
def execBr (t : Fin 8) (s : State) : Host.Outcome State Fault Refusal :=
  onTile t (fun now => seqDo now t (fun e => sqRunPc e 0x28 sqBr)) s

/-- DBNZ (R339). -/
def execDbnz (t : Fin 8) (s : State) : Host.Outcome State Fault Refusal :=
  onTile t (fun now => seqDo now t (fun e => sqRunPc e 0x29 sqDbnz)) s

/-- CALL (R339). -/
def execCall (t : Fin 8) (s : State) : Host.Outcome State Fault Refusal :=
  onTile t (fun now => seqDo now t (fun e => sqRunPc e 0x2a sqCall)) s

/-- RET (R339). -/
def execRet (t : Fin 8) (s : State) : Host.Outcome State Fault Refusal :=
  onTile t (fun now => seqDo now t (fun e => sqRunPc e 0x2b sqRet)) s

/-- RETI (R339). -/
def execReti (t : Fin 8) (s : State) : Host.Outcome State Fault Refusal :=
  onTile t (fun now => seqDo now t (fun e => sqRunPc e 0x2c sqReti)) s

/-- REP (R347). -/
def execRep (t : Fin 8) (s : State) : Host.Outcome State Fault Refusal :=
  onTile t (fun now => seqDo now t (fun e => sqRunPc e 0x2d sqRep)) s

/-- WAIT (R351). -/
def execWait (t : Fin 8) (s : State) : Host.Outcome State Fault Refusal :=
  onTile t (fun now => seqDo now t (fun e => sqRunPc e 0x2e sqWait)) s

/-- EVCLR (R339). -/
def execEvclr (t : Fin 8) (s : State) : Host.Outcome State Fault Refusal :=
  onTile t (fun now => seqDo now t (fun e => sqRun e 0x2f 1 sqEvclr)) s

/-- SETIE (R339). -/
def execSetie (t : Fin 8) (s : State) : Host.Outcome State Fault Refusal :=
  onTile t (fun now => seqDo now t (fun e => sqRun e 0x30 1 sqSetie)) s

/-- XFER (R358). -/
def execXfer (t : Fin 8) (s : State) : Host.Outcome State Fault Refusal :=
  onTile t (fun now => seqDo now t (fun e => sqRun e 0x31 1 sqXfer)) s

/-- HALT (R339). -/
def execHalt (t : Fin 8) (s : State) : Host.Outcome State Fault Refusal :=
  onTile t (fun now => seqDo now t (fun e => sqRun e 0x3f 1 sqHaltI)) s

/-- ILLEGAL_INSTRUCTION (R340). -/
def execIllegalInstruction (t : Fin 8) (s : State) : Host.Outcome State Fault Refusal :=
  onTile t (fun now => seqDo now t sqIllegal) s

/-- FETCH_FAULT (R363). -/
def execFetchFault (t : Fin 8) (s : State) : Host.Outcome State Fault Refusal :=
  onTile t (fun now => seqDo now t sqFetchFault) s

/-! ### Dispatch, transfers, mailboxes, control -/

/-- SQ_DISPATCH (R350). -/
def execSqDispatch (t : Fin 8) (s : State) : Host.Outcome State Fault Refusal :=
  onTile t (fun now b => b.seqUpd t (Sys2Proof.Machine.sqDispatch now)) s

/-- The words of a partition. -/
def stackWords (b : Block) (a n : Nat) : List Word := (List.range n).map fun i => BitVec.ofNat 32 (leNat (tabBytes 0 b.mem (a + 4 * i) 4))

/-- Words as bytes, little-endian. -/
def wordBytes (ws : List Word) : List Byte := ws.flatMap fun w => leBytes 4 w.toNat

/-- How many of `n` words at an address come before the first with an uncorrectable error (R592). -/
def goodWords (b : Block) (a n : Nat) : Nat := ((List.range n).takeWhile fun i => !badIn b (a + 4 * i) 4).length

/-- The byte address at which a transfer begins in its partition. -/
def xferBase (b : Block) (x : Xfer) : Nat :=
  match partId b x.part with
  | some p => p.base * 65536 + x.ofs
  | none => 0

/-- The error code of a transfer that completes: 7 when it reads an uncorrectable error (R592). -/
def xferEccErr (b : Block) (x : Xfer) : Nat := if decide (x.dir = 0) && decide (goodWords b (xferBase b x) x.len < x.len) then 7 else 0

/-- A transfer of tile `t` moves its words (R358, R361). -/
def xferMove (now t : Nat) (x : Xfer) (b : Block) : Block :=
  let base := xferBase b x
  match x.dir with
  | 0 => b.seqUpd t fun s => { s with mem := tabFill 0 s.mem x.loc (stackWords b base (goodWords b base x.len)) }
  | 1 => memWrite base (wordBytes ((List.range x.len).map fun i => tabGet 0 (b.seqAt t).mem (x.loc + i))) b
  | _ =>
    let ws := (List.range x.len).map fun i => tabGet 0 (b.seqAt t).mem (x.loc + i)
    b.seqUpd x.tile fun s => (if x.tile = t then id else sqEvent 13 now) { s with mem := tabFill 0 s.mem (Fld.SQ_INBOX_BASE b.cfg x.tile + x.ofs) ws }

/-- A transfer channel completes, when no packet of a higher class goes before it (R25, R358, R359). -/
def xferDone (now t : Nat) (c : Fin 4) (b : Block) : Block :=
  let x := (b.seqAt t).ch.get c
  if x.busy then
    spineServe (pktXfer t x) (fun b =>
      (xferMove now t x b).seqUpd t fun s => sqEvent (8 + c.val) now { s with ch := vset s.ch c { x with busy := false, err := xferEccErr b x } }) b
  else b

/-- SQ_XFER_DONE (R359). -/
def execSqXferDone (t : Fin 8) (c : Fin 4) (s : State) : Host.Outcome State Fault Refusal :=
  onTile t (fun now => xferDone now t c) s

/-- A mailbox timeout at `now` (R356). -/
def mbStale (now t m : Nat) (b : Block) : Block :=
  let s := b.seqAt t
  let lim := Fld.SQ_MBTO_TO b.cfg t m
  match tabFind s.mb.posted m with
  | some p =>
    if decide (lim ≠ 0) && decide (p + 1000 * lim ≤ now) && !s.mb.stale.getLsbD m then
      axFaults now 1 (mbReaders b t m)
        (b.seqUpd t fun s => sqEvent 14 now { s with mb := { s.mb with stale := s.mb.stale ||| BitVec.ofNat 16 (2 ^ m) } })
    else b
  | none => b

/-- MAILBOX_STALE (R356). -/
def execMailboxStale (t : Fin 8) (m : Fin 16) (s : State) : Host.Outcome State Fault Refusal :=
  onTile t (fun now => mbStale now t m) s

/-- SQ_HALT (R362). -/
def execSqHalt (t : Fin 8) (s : State) : Host.Outcome State Fault Refusal :=
  onTile t (fun _ b => b.seqUpd t Sys2Proof.Machine.sqHalt) s

/-- SQ_RUN (R362). -/
def execSqRun (t : Fin 8) (s : State) : Host.Outcome State Fault Refusal :=
  onTile t (fun now => seqDo now t sqGo) s

/-- SQ_RESET (R362). -/
def execSqReset (t : Fin 8) (s : State) : Host.Outcome State Fault Refusal :=
  onTile t (fun now => seqDo now t Sys2Proof.Machine.sqReset) s

/-- SQ_CLR_STATS (R362). -/
def execSqClrStats (t : Fin 8) (s : State) : Host.Outcome State Fault Refusal :=
  onTile t (fun _ b => b.seqUpd t fun x => { x with dispMax := 0 }) s

/-- A write of SQ_DOORBELL (R348). -/
def doorbell (now t : Nat) (v : Word) (b : Block) : Block := b.seqUpd t fun x => sqEvent 12 now { x with dbell := v }

/-- SQ_DOORBELL (R348). -/
def execSqDoorbell (t : Fin 8) (v : Word) (s : State) : Host.Outcome State Fault Refusal :=
  onTile t (fun now => doorbell now t v) s

/-- A host write to local memory (R361): refused in the code area. -/
def localWrite (t a : Nat) (v : Word) (b : Block) : Block :=
  if a < Fld.SQ_CFG_CODE_LEN b.cfg t then b else b.seqUpd t fun x => { x with mem := tabSet 0 x.mem a v }

/-- LOCAL_MEMORY_WRITE (R361). -/
def execLocalMemoryWrite (t : Fin 8) (addr : BitVec 16) (v : Word) (s : State) : Host.Outcome State Fault Refusal :=
  onTile t (fun _ => localWrite t addr.toNat v) s

end Sys2Proof.Machine
end

