-- ==== Sys2Proof/Machine/Commit.lean ====
section
/-! DEFINITION. Staging, commits and settings (R83 to R112): the candidate structure, the checks, acceptance, the decision, the application. -/

namespace Sys2Proof.Machine

/-! ### NVM wear (R593) -/

/-- One more write of a block. -/
def bumpBlock (now k : Nat) (b : Block) : Block :=
  let i := k % 256
  let n := tabGet 0 b.nv.wear i + 1
  let b := { b with nv := { b.nv with wear := tabSet 0 b.nv.wear i n } }
  if n = 8000000000 then setReplace now 8 (logEvent now 0x0033 0 i b) else b

/-- A write operation on the NVM: the blocks it writes are open. -/
def nvWrite (now : Nat) (b : Block) : Block := forL (Config.nvmBlocks b.draws) (bumpBlock now) (nextDraw b)

/-! ### Candidate -/

/-- Bytes of LOAD records for one target, in order (R87). -/
def loadBytes (ls : List LoadRec) (target inst part : Nat) : List Byte :=
  (ls.filter fun l => decide (l.target = target) && decide (target ≠ 1 ∨ l.inst = inst) && decide (l.part = part ∨ target = 1)).foldl
    (fun bs l => slice bs 0 l.ofs ++ l.data ++ bs.drop (l.ofs + l.data.length)) []

/-- The schedule tables of an image, and whether every one has the shape of R406. -/
def imgTables (i : Img) : Tab BlTable :=
  (List.range 8).foldl (fun t m =>
    let bs := loadBytes i.loads 2 0 m
    tabSet {} t m (if bs.isEmpty then {} else blTable bs)) []
def imgShapes (i : Img) : Bool := (List.range 8).all fun m => let bs := loadBytes i.loads 2 0 m; bs.isEmpty || blTableShape bs

/-- Register words with an image's structure in place of the old one (R89, R95). -/
def imgCfg (cf : Tab Word) (i : Img) : Tab Word :=
  let base := cf.foldl (fun c e => putBits structMask c e.1 (regReset e.1)) cf
  i.regs.foldl (fun c r => putBits structMask c r.2.1 r.2.2) base

/-- The structure of an image in a block; parameters stand. -/
def withImg (i : Img) (b : Block) : Block :=
  { b with cfg := imgCfg b.cfg i, run := { b.run with parts := i.parts, spRate := i.spRate, id := i.id, version := i.version }
           net := { b.net with tables := imgTables i } }

/-- The staged image, parsed. -/
def stagedImg (b : Block) : Option Img := b.cm.image.bind parseImg

/-- The block as it would stand after the staged commit. -/
def candidate (b : Block) : Block :=
  let c := match stagedImg b with
    | some i => withImg i b
    | none => b
  { c with cfg := b.cm.staged.foldl (fun cf e => putBits sgMask cf e.1 e.2) c.cfg }

/-- The tiles whose LOAD data of target 0x0001 differ between the running image and a staged one. -/
def codeTiles (b : Block) : List Nat :=
  match stagedImg b, parseImg b.run.bytes with
  | some i, some r => (tilesOf b).filter fun t => decide (loadBytes i.loads 1 (0x10 + t) 0 ≠ loadBytes r.loads 1 (0x10 + t) 0)
  | some _, none => tilesOf b
  | none, _ => []

/-- A change to a register of a set of addresses between two structures. -/
def anyChange (a b : Block) (f : Nat → Bool) : Bool :=
  ((a.cfg ++ b.cfg).map Prod.fst).any fun ad => f ad && decide (tabGet (regReset ad) a.cfg ad ≠ tabGet (regReset ad) b.cfg ad)

/-- An address of SEC_PEER or SEC_PORT_CFG in the OWNER role (R577, R578). -/
def isPeerAddr (a : Nat) : Bool := decide (0x81000 ≤ a ∧ a < 0x81300)

/-- The pace mode that a commit selects: only when its items include TL_PACE (R64). -/
def paceStaged (b : Block) : Option Nat :=
  (b.cm.staged.find? fun e => decide (e.1 = regAddr .TL_PACE [])).map fun e => bits e.2.toNat 0 2

/-- The pace mode in force after a commit (R64). -/
def targetPace (b : Block) : Nat :=
  (paceStaged b).getD b.paceNow

/-- The pace mode that the schedulability check takes (R70): the target of a pace change, else the staged image's, else the running one. -/
def checkPace (b : Block) : Nat := (paceStaged b).getD (((stagedImg b).map (·.pace)).getD b.paceNow)

/-- A commit changes the selected schedule mode: its number or the table in force (R102, R445). -/
def modeChanges (b c : Block) : Bool :=
  decide (Fld.BL_MODE_MODE b.cfg ≠ Fld.BL_MODE_MODE c.cfg)
    || decide (tabGet {} b.net.tables (Fld.BL_MODE_MODE b.cfg) ≠ tabGet {} c.net.tables (Fld.BL_MODE_MODE c.cfg))

/-- Roles of a session; 0 when it is not open. -/
def rolesAt (b : Block) (k : Nat) : Nat := if (b.sessAt k).st = .open_ then (b.sessAt k).roles else 0

/-- A session holds every role of a set. -/
def hasRoles (b : Block) (k need : Nat) : Bool := decide (roleAnd (rolesAt b k) need = need)

/-- LIFECYCLE and ROLE of R99. -/
def checkRights (b c : Block) : Option Bad :=
  let k := b.cm.owner.getD 0
  let need := roleConfigure + (if anyChange b c isSafetyAddr then roleSafety else 0)
    + (if (b.cm.staged.any fun e => isPeerAddr e.1) || anyChange b c isPeerAddr then roleOwner else 0)
  allBad codeLifecycle (decide (b.nv.life = .owned) || decide (b.nv.life = .fieldService)) <|> allBad codeRole (hasRoles b k need)

/-- ADDRESS, RANGE of the staged writes and of an image's REGS and SAFETY records, then the rules of RANGE. -/
def checkItems (b c : Block) : Option Bad :=
  let st := b.cm.staged.map fun e => (addrInst e.1, e.1, e.2)
  let im := match stagedImg b with | some i => i.regs | none => []
  let one (code : Nat) : Option Bad :=
    recsBad b.run.tileSet sgMask sgMask 0 st code <|> recsBad b.run.tileSet sgMask structMask st.length im code
  one codeAddress <|> checkTiles c <|> one codeRange <|> checkRange c

/-- BOOT_ONLY (R35, R51). -/
def checkBootOnly (b : Block) : Option Bad :=
  match stagedImg b with
  | some i => allBad 0x0B (decide (i.tileSet = b.run.tileSet) && decide (i.refSrc = b.run.refSrc))
  | none => none

/-- The staged image passes its verification again (codes 0x01 to 0x04). -/
def checkImage (b : Block) : Option Bad :=
  match b.cm.image with
  | some bs => let r := (verifyImg b bs).1; if r = 0 then none else some { code := r }
  | none => none

/-- The first listed axis that is not disabled (R96). -/
def checkAxes (b : Block) (listed : List Nat) : Option Bad :=
  (listed.find? fun n => !axIdle b (n / 16) (n % 16)).map fun n => { code := 0x18, tile := n / 16, detail := n % 16 }

/-- NOT_IDLE (R96, R373): tiles whose ring item changes. -/
def ringTiles (b c : Block) : List Nat := (tilesOf b).filter fun t =>
  let a := regAddr .AQ_RING [t]
  decide (tabGet (regReset a) b.cfg a ≠ tabGet (regReset a) c.cfg a)

/-- An acquisition unit is idle: its STATE is IDLE and no arm is pending or due (R373). -/
def aqIdle (b : Block) (t : Nat) : Bool :=
  decide ((b.aqAt t).st = .idle) && !(b.aqAt t).pendArm && (match b.aqHub.due with | some (_, ts) => !bit ts t | none => true)

def checkIdle (b c : Block) : Option Bad := ((ringTiles b c).find? fun t => !aqIdle b t).map fun t => { code := 0x19, tile := t }

/-! ### Apply tick -/

/-- The earliest lead of the commit, in ns (R101). -/
def leadNs (b : Block) : Nat := if b.cm.image.isSome then 100000000 else 20000

/-- `t` is the start of a cycle matrix of the running network (R102). -/
def matrixStartAt (b : Block) (t : Nat) : Bool :=
  let m := blMatNs (blNow b.net)
  decide (b.net.st = .run) && decide (m ≠ 0) && decide (b.net.anchor ≤ t) && decide ((t - b.net.anchor) % m = 0)

/-- The apply tick that a commit accepted at `now` has, or the code that rejects it (R66, R101, R102). -/
def applyTick (now : Nat) (b c : Block) : Except Nat Nat :=
  let faster := decide (targetPace b < b.paceNow)
  let mode := modeChanges b c
  let m := blMatNs (blNow b.net)
  if b.cm.asap then
    let t0 := now + max (leadNs b) (if faster then 2000000 else 0)
    if !mode then .ok t0
    else if decide (b.net.st = .run) && decide (m ≠ 0) then
      let t1 := max t0 (now + m)
      .ok (b.net.anchor + ceilDiv (t1 - b.net.anchor) m * m)
    else .error 0x1B
  else
    let t := truncTick b.cm.named
    if faster && decide (t < now + 2000000) then .error 0x1A
    else if mode && !(matrixStartAt b t && decide (now + m ≤ t)) then .error 0x1B
    else if t < now + leadNs b then .error 0x1C
    else .ok t

/-! ### The commit engine -/

/-- Staging is emptied and its ownership ends (R91). -/
def stagingEmpty (b : Block) : Block := { b with cm := { b.cm with owner := none, staged := [], image := none, ph := .idle, listed := [], rings := [], dies := 0, prepared := 0 } }

/-- CM_RESULT. -/
def setResult (x : Bad) (b : Block) : Block :=
  { b with cm := { b.cm with code := x.code, tile := x.tile, detail := x.detail, item := x.item.getD (Config.failItem b.draws % 65536) }, draws := b.draws + 1 }

/-- The supplies of a rise that has begun return to the running mode (R66). -/
def riseBack (now : Nat) (b : Block) : Block :=
  if b.cm.rise then { b with paceChanging := true, paceEnd := now + 2000000, cm := { b.cm with rise := false } } else b

/-- A commit is rejected or aborted: nothing changes (R91, R99, R103, R104). -/
def cmReject (now : Nat) (x : Bad) (b : Block) : Block :=
  let b := riseBack now (stagingEmpty (setResult x b))
  { b with net := { b.net with next := none } }

/-- The dies that items address: bit n for tile n, bit 8 for the hub. -/
def diesOf (b : Block) : Nat :=
  let img := b.cm.image.isSome
  bitsOf 9 fun d =>
    if d = 8 then img || b.cm.staged.any fun e => !(decide (0x10 ≤ addrInst e.1) && decide (addrInst e.1 < 0x20))
    else (img && decide (d < b.run.tileSet)) || b.cm.staged.any fun e => decide (addrInst e.1 = 0x10 + d)

/-- The supplies of a pace change (R66): a rise begins 2 ms before the apply tick of an accepted commit to a faster mode. -/
def paceRise (now : Nat) (b : Block) : Block :=
  if (decide (b.cm.ph = .accepted) || decide (b.cm.ph = .go)) && decide (targetPace b < b.paceNow) && !b.cm.rise && decide (b.cm.apply ≤ now + 2000000) then
    { b with paceChanging := true, cm := { b.cm with rise := true } }
  else b

/-- The checks complete (R99 to R102): rejection at the first failure, or acceptance. -/
def checksDone (now : Nat) (b : Block) : Block :=
  let c := candidate b
  let listed := listedAxes b c (codeTiles b)
  let img := stagedImg b
  let shapes := match img with | some i => imgShapes i | none => true
  let secOk := match img with | some i => i.safetyOk | none => true
  let fail := checkImage b <|> checkRights b c <|> checkItems b c <|> checkBootOnly b <|> structChecks shapes secOk (checkPace b) c
    <|> checkAxes b listed <|> checkIdle b c
  match fail with
  | some x => cmReject now x b
  | none =>
    match applyTick now b c with
    | .error code => cmReject now { code := code } b
    | .ok t =>
      let lo := regAddr .CM_APPLY_LO []
      let hi := regAddr .CM_APPLY_HI []
      let mode := modeChanges b c
      let b := setResult { code := 0, item := some 0 } b
      let b := { b with
        cfg := tabSet 0 (tabSet 0 b.cfg lo (BitVec.ofNat 32 t)) hi (BitVec.ofNat 32 (t / 2 ^ 32))
        cm := { b.cm with ph := .accepted, apply := t, acceptAt := now, dies := diesOf b, prepared := 0, listed := listed, rings := ringTiles b c, rise := false } }
      paceRise now <| if mode then
        forN 12 (fun p x => x.blUpd p fun pt => { pt with mack := false }) { b with net := { b.net with next := some (Fld.BL_MODE_MODE c.cfg, t) } }
      else b

/-- CM_CTRL.COMMIT (R91, R101). -/
def commitOp (now k : Nat) (asap : Bool) (b : Block) : Block :=
  let lo := (tabGet 0 b.cfg (regAddr .CM_APPLY_LO [])).toNat
  let hi := (tabGet 0 b.cfg (regAddr .CM_APPLY_HI [])).toNat
  if b.cm.ph ≠ .idle || (b.cm.owner.isSome && b.cm.owner ≠ some k) then setResult { code := codeBusy, item := some 0 } b
  else if !hasRoles b k roleConfigure then cmReject now { code := codeRole, item := some 0 } b
  else { b with cm := { b.cm with owner := some k, ph := .checking, asap := asap, named := lo + 2 ^ 32 * hi, regAt := now } }

/-- COMMIT_CHECKS_DONE. -/
def checksDoneOp (now : Nat) (b : Block) : Block := if b.cm.ph = .checking then checksDone now b else b

/-- CM_CTRL.ABORT (R103). -/
def abortOp (now : Nat) (b : Block) : Block :=
  if b.cm.ph = .checking || (b.cm.ph = .accepted && decide (now + 10000 < b.cm.apply)) then cmReject now { code := 0x1E, item := some 0 } b else b

/-- An ABORT is refused: at or after the decision tick (R103). -/
def abortRefused (now : Nat) (b : Block) : Bool := (b.cm.ph = .accepted || b.cm.ph = .go) && decide (b.cm.apply ≤ now + 10000)

/-- CM_CTRL.DISCARD (R91): refused for a session that does not own staging, or while staging is frozen. -/
def discardRefused (k : Nat) (b : Block) : Bool := b.cm.ph ≠ .idle || b.cm.owner ≠ some k
def discardOp (k : Nat) (b : Block) : Block :=
  if hasRoles b k roleConfigure && !discardRefused k b then stagingEmpty b else b

/-- What makes the hub's PREPARED wait: the partners' MACK (R443). -/
def macksMissing (b : Block) : Bool :=
  b.net.next.isSome && Fld.BL_NET_CFG_MC_AGREE b.cfg
    && (List.range 12).any fun p => decide ((b.blAt p).st = .run) && hasUpWin b p && !(b.blAt p).mack

/-- PREPARED of die `d` is registered (R104, R443); one under test never prepares (R605). -/
def diePrepared (now d : Nat) (b : Block) : Block :=
  if b.cm.ph = .accepted && decide (now + 10000 < b.cm.apply) && bit b.cm.dies d && !bit b.cm.prepared d
      && !(decide (d = 8) && macksMissing b) && decide (b.hl.st.tile ≠ some d) && decide (b.hl.st.resume ≠ some d) then
    { b with cm := { b.cm with prepared := b.cm.prepared + 2 ^ d } }
  else b

/-- The decision (R104). -/
def commitDecision (now : Nat) (b : Block) : Block :=
  if b.cm.ph = .accepted && decide (b.cm.apply ≤ now + 10000) then
    if b.cm.prepared = b.cm.dies then { b with cm := { b.cm with ph := .go } } else cmReject now { code := 0x1D, item := some 0 } b
  else b

/-! ### Application (R105) -/

/-- The LOAD data of target 0x0001 that an image gives a tile: byte offset, bytes (R87). -/
def codeLoads (i : Img) (t : Nat) : List (Nat × List Byte) :=
  (i.loads.filter fun l => decide (l.target = 1) && decide (l.inst = 0x10 + t)).map fun l => (l.ofs, l.data)

/-- The mailboxes of a tile whose timeout is not 0. -/
def timedBoxes (c : Block) (t : Nat) : BitVec 16 := BitVec.ofNat 16 (bitsOf 16 fun m => decide (Fld.SQ_MBTO_TO c.cfg t m ≠ 0))

/-- A tile's sequencer takes its code with the LOAD data of the structure's image (R357, R362, R364). -/
def seqTake (now t : Nat) (i : Option Img) (b : Block) : Block :=
  let loads := match i with | some x => codeLoads x t | none => []
  b.seqUpd t (Sys2Proof.Machine.sqLoadCode (sqEnv b now t) loads (timedBoxes b t))

/-- The mailbox timeouts of a tile that a commit changes (R356). -/
def boxesTake (now t : Nat) (old : Block) (b : Block) : Block :=
  forN 16 (fun m x =>
    let o := Fld.SQ_MBTO_TO old.cfg t m
    let n := Fld.SQ_MBTO_TO x.cfg t m
    if o = n then x
    else if n = 0 then x.seqUpd t fun s => { s with mb := { s.mb with stale := s.mb.stale &&& ~~~BitVec.ofNat 16 (2 ^ m) } }
    else if (tabFind (x.seqAt t).mb.posted m).isNone then
      x.seqUpd t fun s => { s with mb := { s.mb with stale := s.mb.stale ||| BitVec.ofNat 16 (2 ^ m) } }
    else Sys2Proof.Machine.mbStale now t m x) b

/-- The MODE values of the alternatives of a slot (R162). -/
def altModes (c : Block) (t j : Nat) : List Nat :=
  (altsOf c t j).map fun k => Fld.CE_LOOP_OUT_MODE c.cfg t k

/-- The lowest of a list of modes. -/
def lowest (l : List Nat) : Nat := match l with | [] => 0 | a :: r => r.foldl min a

/-- The alternatives of a slot after a commit (R162). -/
def modesTake (t j : Nat) (old : Block) (b : Block) : Block :=
  if altModes old t j = altModes b t j then b
  else
    let l := altModes b t j
    b.modeUpd t j fun m => { m with req := none, active := if l.contains m.active then m.active else lowest l }

/-- A partition that a commit leaves unchanged keeps its content (R675). -/
def partKept (old : List Part) (p : Part) : Bool :=
  old.any fun q => decide (q.id = p.id ∧ q.base = p.base ∧ q.size = p.size ∧ q.kind = p.kind ∧ q.owner = p.owner)

/-- A partition reads 0 apart from its LOAD data (R675). -/
def partTake (i : Img) (p : Part) (m : Tab Byte) : Tab Byte :=
  tabFill 0 (tabClear m (p.base * 65536) ((p.base + p.size) * 65536)) (p.base * 65536) (loadBytes i.loads 3 0 p.id)

/-- One port at a change of its BL_PORT_CFG or of its windows in the mode in force (R390, R433, R445): a channel out of use is not UP. -/
def portTake (now p : Nat) (b : Block) : Block :=
  let pt := b.blAt p
  let b := b.blUpd p fun x => { x with upA := x.upA && blChan b.cfg p false, upB := x.upB && blChan b.cfg p true }
  let pt := { pt with upA := pt.upA && blChan b.cfg p false, upB := pt.upB && blChan b.cfg p true }
  if !Fld.BL_PORT_CFG_EN b.cfg p then blSet now p (fun x => { x with st := .off, enable := false }) b
  else
    match pt.st with
    | .off =>
      let b := blSet now p (fun x => { x with st := .listen }) b
      if decide (b.net.st = .run) && blUp pt then blIntegrate now p b else b
    | .run | .integrating | .blocked => if decide (b.net.st = .run) && blUp pt then blIntegrate now p b else b
    | _ => b

/-- The network at the apply tick (R409, R442, R445). A change of the mode number leaves the port states as they are (R444). -/
def netTake (now : Nat) (old : Block) (b : Block) : Block :=
  let t := blNow old.net
  let mode := modeChanges old b
  let ctr := if blMatNs t = 0 ∨ now < old.net.anchor then old.net.ctr0 else (old.net.ctr0 + (now - old.net.anchor) / blMatNs t) % 2 ^ 48
  let b := if mode then
      { b with net := { b.net with mode := Fld.BL_MODE_MODE b.cfg, anchor := now, ctr0 := ctr, next := none } }
    else b
  let cfgChanged (p : Nat) : Bool := let a := regAddr .BL_PORT_CFG [p]; decide (tabGet 0 old.cfg a ≠ tabGet 0 b.cfg a)
  let winsChanged (p : Nat) : Bool :=
    mode && decide (Fld.BL_MODE_MODE old.cfg = Fld.BL_MODE_MODE b.cfg) && decide ((blNow old.net).wins.filter (fun w => w.port = p) ≠ (blNow b.net).wins.filter (fun w => w.port = p))
  let b := forN 12 (fun p x => if cfgChanged p || winsChanged p then portTake now p x else x) b
  if decide (b.net.st = .stopped) && (List.range 12).any fun p => Fld.BL_PORT_CFG_EN b.cfg p then
    let b := { b with net := { b.net with st := .listen } }
    if Fld.BL_NET_CFG_START b.cfg = 0 then starStart now b else b
  else b

/-- The pace mode at the apply tick (R66): a rise has settled, a fall begins. -/
def paceTake (now p : Nat) (b : Block) : Block :=
  if p < b.paceNow then { b with paceNow := p, paceChanging := false, cm := { b.cm with rise := false } }
  else if b.paceNow < p then { b with paceNow := p, paceChanging := true, paceEnd := now + 2000000 }
  else b

/-- A context writes destination code `d` (R138). -/
def writes (b : Block) (t d : Nat) : Bool :=
  (List.range 32).any fun c => decide (Fld.CE_LOOP_ALLOC_NSEC b.cfg t c ≠ 0) && decide (Fld.CE_LOOP_ALLOC_KIND b.cfg t c = 0) && decide (Fld.CE_LOOP_OUT_DST b.cfg t c = d)

/-- What a commit's parameters do in a tile's axes and channels at the apply tick: a current reference that no context writes is 0 (R195, R211), a change of HYST
clears the direction state (R221), new RES codes are driven from this tick on (R277, R279). -/
def axesTake (now t : Nat) (old : Block) (b : Block) : Block :=
  let b := forN 4 (fun j x => x.natUpd t j fun a =>
    { a with qref := if writes x t (0x10 + j) then a.qref else 0, dref := if writes x t (0x14 + j) then a.dref else 0 }) b
  let b := forN 8 (fun k x => if Fld.QD_CFG_HYST old.cfg t k = Fld.QD_CFG_HYST x.cfg t k then x else x.qdUpd t k fun q => { q with d := 0 }) b
  forN 4 (fun i x => if (pulseCfg old t (4 + i)).code.getD (x.pulseAt t i).res 0 = (pulseCfg x t (4 + i)).code.getD (x.pulseAt t i).res 0 then x else x.pulseUpd t i fun p => { p with resSince := now }) b

/-- POSITION_UNCERTAIN starts at 1 for a PULSE slot (PG_STATE): at boot, and when a commit gives a slot another type (DESIGN CHOICE). -/
def uncertainTake (t : Nat) (changed : Nat → Bool) (b : Block) : Block :=
  forN 4 (fun k x =>
    if changed (4 + k) then x.genUpd t (4 + k) fun g => { g with uncertain := decide (slotTy x t (4 + k) = .pulse) } else x) b

/-- The commit applies at its tick on every die (R105). DESIGN CHOICE: an image that a commit brings into force runs from no slot, so RUNNING reads 0
for both slots and a CONFIRM clears no TRIAL mark (log 55). -/
def applyCommit (now : Nat) (b : Block) : Block :=
  let c := candidate b
  let i := stagedImg b
  let code := (tilesOf b).filter fun t => (codeTiles b).contains t ||
    [RegId.SQ_CFG, RegId.SQ_INBOX].any fun r => let a := regAddr r [t]; decide (tabGet 0 b.cfg a ≠ tabGet 0 c.cfg a)
  let rings := ringTiles b c
  let x := match i with
    | some i =>
      { c with run := { c.run with bytes := b.cm.image.getD [], slot := none }
               mem := (i.parts.filter fun p => !partKept b.run.parts p).foldl (fun m p => partTake i p m) c.mem }
    | none => c
  let x := paceTake now (targetPace b) x
  let x := forL code (fun t => seqTake now t (i <|> parseImg b.run.bytes)) x
  let x := forL (tilesOf b) (fun t y => uncertainTake t (fun j => decide (slotTy b t j ≠ slotTy y t j))
    (boxesTake now t b (axesTake now t b (forN 16 (fun j z => modesTake t j b z) y)))) x
  let x := forL rings (fun t y => y.aqUpd t fun u => { u with full := 0, fullFlag := false }) x
  let x := verifyPars (netTake now b x)
  let x := stagingEmpty x
  { x with cm := { x.cm with appliedAt := now, code := 0 } }

/-- R106: a die that holds PREPARED items but no GO at the apply tick. DESIGN CHOICE: the commit then ends as one rejected with PREPARE_TIMEOUT,
and staging is emptied (log 55). -/
def commitFault (now : Nat) (b : Block) : Block :=
  let tiles := (tilesOf b).filter fun t => bit b.cm.prepared t
  let b1 := logEvent now 0x0011 0 (b.cm.apply % 2 ^ 32) { b with hl := { b.hl with commitFault := true } }
  cmReject now { code := 0x1D, item := some 0 } (axFaults now 1 (tiles.flatMap tileAxes) b1)

/-- COMMIT_APPLY: due once the apply tick has come. -/
def commitApply (now : Nat) (b : Block) : Block :=
  if b.cm.apply ≤ now then
    match b.cm.ph with
    | .go => applyCommit now b
    | .accepted => commitFault now b
    | _ => b
  else b

/-- The owning session ends (R91, R576). -/
def commitSessEnd (now k : Nat) (b : Block) : Block :=
  if b.cm.owner = some k then
    match b.cm.ph with
    | .checking => cmReject now { code := 0x1E, item := some 0 } b
    | .idle => stagingEmpty b
    | _ => b
  else b

/-! ### Staging writes -/

/-- The role that staging of a register's SG fields needs (R577). -/
def stageRole (a : Nat) : Nat := if isSafetyAddr a then roleSafety else if isPeerAddr a then roleOwner else roleConfigure

/-- Status 0x80 + a code of R99 (R623). -/
def cmStatus (code : Nat) : Nat := 0x80 + code

/-- The SG fields of one register write (R91, R92): status, and the block. The address names a register with SG fields. -/
def stageWord (k a : Nat) (v : Word) (b : Block) : Nat × Block :=
  let listed := b.cm.staged.any fun e => decide (e.1 = a)
  if !hasRoles b k (stageRole a) then (4, b)
  else if b.cm.ph ≠ .idle || (b.cm.owner.isSome && b.cm.owner ≠ some k) then (cmStatus codeBusy, b)
  else if !listed && decide (4096 ≤ b.cm.staged.length) then (cmStatus codeStagingFull, b)
  else
    let l := if listed then b.cm.staged.map fun e => if e.1 = a then (a, v) else e else b.cm.staged ++ [(a, v)]
    (0, { b with cm := { b.cm with owner := some k, staged := l } })

/-! ### Settings (R108 to R112) -/

/-- The parameter fields in force, as words with other bits at reset. -/
def paramWords (cf : Tab Word) : Tab Word :=
  cf.foldl (fun c e =>
    match regAt e.1 with
    | some (r, _) => tabSet (regDef r).reset c e.1 (mergeBits (paramMask r) (regDef r).reset e.2)
    | none => c) []

/-- Register words with the parameter fields of a snapshot (R117 step 7). -/
def takeParams (cf snap : Tab Word) : Tab Word :=
  (snap ++ cf).foldl (fun c e => putBits paramMask c e.1 (tabGet (regReset e.1) snap e.1)) cf

/-- The bytes of the PERSIST partitions. -/
def persistBytes (b : Block) : Tab Byte :=
  b.mem.filter fun e => b.run.parts.any fun p => p.persist && decide (p.base * 65536 ≤ e.1) && decide (e.1 < (p.base + p.size) * 65536)

/-- The tag of a settings copy under the settings key (R108). -/
def copyTag (b : Block) (c : SetCopy) : List Byte :=
  Config.gcmTag (Config.settingsKey b.nv.keys.secret) (Config.settingsNonce c.seq) (Config.settingsBytes c.cfg c.mem) c.id

/-- A settings copy is valid for the running image (R110): DONE is present, the IMAGE_ID is the image's and the tag verifies. -/
def copyValid (b : Block) (c : SetCopy) : Bool := c.done && decide (c.id = b.run.id) && decide (c.tag = copyTag b c)

/-- The newest valid copy: 0 SA, 1 SB. -/
def newestCopy (b : Block) : Option Nat :=
  match copyValid b b.nv.setA, copyValid b b.nv.setB with
  | true, true => some (if b.nv.setA.seq < b.nv.setB.seq then 1 else 0)
  | true, false => some 0
  | false, true => some 1
  | false, false => none

/-- A copy of the NVM. -/
def copyAt (b : Block) (i : Nat) : SetCopy := if i = 0 then b.nv.setA else b.nv.setB
def putCopy (i : Nat) (c : SetCopy) (n : Nvm) : Nvm := if i = 0 then { n with setA := c } else { n with setB := c }

/-- CM_CTRL.STORE (R108, R109, R111, R112): the target copy is invalid from BEGIN to DONE. -/
def storeOp (now : Nat) (b : Block) : Block :=
  if b.storeOp.isSome then { b with storeSt := 3 }
  else if b.pw.pfWarn then { b with storeSt := 2 }
  else
    let target := match newestCopy b with | some 0 => 1 | _ => 0
    let snap : SetCopy := { done := true, seq := ((copyAt b (1 - target)).seq + 1) % 2 ^ 32, id := b.run.id, cfg := paramWords b.cfg, mem := persistBytes b }
    let snap := { snap with tag := copyTag b snap }
    nvWrite now { b with storeSt := 1, storeOp := some { copy := target, snap := snap, at_ := now, hadDone := (copyAt b target).done }, nv := putCopy target { copyAt b target with done := false } b.nv }

/-- DONE is written (R109). -/
def storeDone (now : Nat) (b : Block) : Block :=
  match b.storeOp with
  | some o => nvWrite now { b with storeOp := none, storeSt := 0, nv := putCopy o.copy o.snap b.nv }
  | none => b

/-- A power-fail warning at the tick of a STORE's acceptance refuses it (R111, R641). -/
def storeRefuse (now : Nat) (b : Block) : Block :=
  match b.storeOp with
  | some o =>
    if o.at_ = now then { b with storeOp := none, storeSt := 2, nv := putCopy o.copy { copyAt b o.copy with done := o.hadDone } b.nv } else b
  | none => b

/-- A STORE in progress is abandoned (R584). -/
def storeAbandon (b : Block) : Block := if b.storeOp.isSome then { b with storeOp := none, storeSt := 4 } else b

end Sys2Proof.Machine
end

