-- ==== Sys2Proof/Machine/Boot.lean ====
section
/-! DEFINITION. Image slots (R94, R113 to R115) and the boot sequence (R117 to R119). -/

namespace Sys2Proof.Machine

/-! ### Image slots -/

def slotAt (n : Nvm) (i : Nat) : Slot := if i = 0 then n.slotA else n.slotB
def putSlot (i : Nat) (s : Slot) (n : Nvm) : Nvm := if i = 0 then { n with slotA := s } else { n with slotB := s }
def slotUpd (i : Nat) (f : Slot → Slot) (n : Nvm) : Nvm := putSlot i (f (slotAt n i)) n

/-- The VERSION of a slot's image. -/
def slotVersion (s : Slot) : Nat := leAt s.bytes 0x10 4

/-- Staging belongs to another session or is frozen (R91, R625). -/
def stagingBusy (b : Block) (k : Nat) : Bool := b.cm.ph ≠ .idle || (b.cm.owner.isSome && b.cm.owner ≠ some k)

/-- Verification of bytes to stage begins (R94). -/
def stageImage (k : Nat) (bytes : List Byte) (bad : Bool) (b : Block) : Block :=
  { b with cm := { b.cm with owner := some k, imgBusy := 1, imgBytes := bytes, imgDone := false, imgBad := bad } }

/-- IMG_CTRL.STAGE_SLOT (R94): status of R623 and block. -/
def stageSlotOp (k s : Nat) (b : Block) : Nat × Block :=
  if !hasRoles b k roleConfigure then (4, b)
  else if stagingBusy b k then (cmStatus codeBusy, b)
  else (0, stageImage k (slotAt b.nv s).bytes (slotAt b.nv s).damaged b)

/-- IMG_CTRL.INSTALL (R113): the copy is not VALID until it is verified. -/
def installOp (now k s : Nat) (b : Block) : Nat × Block :=
  if !hasRoles b k roleConfigure then (4, b)
  else
    match b.cm.image with
    | none => (5, b)
    | some bytes =>
      (0, nvWrite now { b with nv := slotUpd s (fun x => { x with bytes := bytes, valid := false, damaged := false }) b.nv
                               cm := { b.cm with imgBusy := 2, imgBytes := bytes, imgSlot := s, imgDone := false, imgBad := false } })

/-- IMAGE_VERIFY_DONE (R94, R99, R113). -/
def verifyDone (b : Block) : Block :=
  let code := if b.cm.imgBad then codeSignature else (verifyImg b b.cm.imgBytes).1
  let cm := { b.cm with imgBusy := 0, imgDone := true, imgCode := code }
  if b.cm.imgBusy = 1 then
    -- staging that a COMMIT has frozen meanwhile takes no image (R91)
    if b.cm.ph = .idle then { b with cm := { cm with image := if code = 0 then some b.cm.imgBytes else b.cm.image } }
    else { b with cm := { cm with imgCode := codeBusy } }
  else if b.cm.imgBusy = 2 then { b with cm := cm, nv := slotUpd b.cm.imgSlot (fun x => { x with valid := decide (code = 0) }) b.nv }
  else b

/-- IMG_CTRL.NEXT (R113, R115). -/
def nextSlotOp (now s : Nat) (b : Block) : Block :=
  nvWrite now { b with nv := { slotUpd s (fun x => { x with trial := true, trialBooted := false }) b.nv with next := some s }
                       cm := { b.cm with imgDone := true } }

/-- IMG_CTRL.CONFIRM (R114, R572): only while an image runs. -/
def confirmOp (now : Nat) (b : Block) : Block :=
  if b.run.on then
    let v := max b.nv.rollback b.run.version
    let nv := { b.nv with rollback := v }
    let nv := match b.run.slot with
      | some s => slotUpd s (fun x => { x with trial := false, trialBooted := false }) nv
      | none => nv
    nvWrite now { b with nv := nv, bk := { b.bk with rollback := v }, cm := { b.cm with imgDone := true } }
  else b

/-! ### Reset -/

/-- Inputs that stand through a reset: the levels at the pins of the native slots, channels and field pairs. -/
def natPins (a : NatAx) : NatAx :=
  { sd0 := { pin := a.sd0.pin }, sd1 := { pin := a.sd1.pin }, sd2 := { pin := a.sd2.pin }, trips := { ndf := a.trips.ndf } }
/-- The level at an input with a hold filter: that of its latest change. -/
def landLevel (lv : Bool) (i : HoldIn) : Bool := (i.edges.getLast?.map Prod.snd).getD lv
def qdPins (q : Qd) : Qd := { flt := { nqrf := q.flt.nqrf }, a := landLevel q.a q.inA, b := landLevel q.b q.inB, z := landLevel q.z q.inZ }
def prbPins (q : Prb) : Prb := { level := landLevel q.level q.inp }
def blPins (p : BlPort) : BlPort := { sdA := p.sdA, sdB := p.sdB }
def chPins (c : FCh) : FCh := { pin := c.pin, hot := c.hot, lowCur := c.lowCur, limit := c.limit }
def pairPins (p : FPair) : FPair := { lpLow := p.lpLow, transferLow := p.transferLow, headroom := p.headroom, ch := p.ch.map chPins }

/-- A table with a function applied to every entry. -/
def tabMap {α : Type} [DecidableEq α] (d : α) (f : α → α) (t : Tab α) : Tab α := t.foldl (fun m e => tabSet d m e.1 (f e.2)) []

/-- The module in reset: NVM, the backup domain, supplies and pin levels stand (R657). -/
def volatileReset (b : Block) : Block :=
  { nv := b.nv, bk := b.bk, pw := { b.pw with pfWarn := false, pfTick := 0, pfCount := 0, vbat := b.pw.vbatIn }, draws := b.draws, genStuck := b.genStuck, tamp0 := b.tamp0, tamp1 := b.tamp1, hsQuad := b.hsQuad, hp := tabSet {} [] 2 { quad := b.hsQuad }
    nat := tabMap {} natPins b.nat, qd := tabMap {} qdPins b.qd, prb := tabMap {} prbPins b.prb, bl := tabMap {} blPins b.bl, fp := tabMap {} pairPins b.fp
    tr := { enrolStrap := b.tr.enrolStrap, vbatOk := b.tr.vbatOk }
    hl := { supplies := b.hl.supplies } }

/-! ### Boot -/

/-- The larger of the two copies of each counter (R572), and the next boot. -/
def bootCounters (b : Block) : Block :=
  let r := max b.nv.rollback b.bk.rollback
  let v := max b.nv.keys.revVersion b.bk.revVersion
  let n := max b.nv.bootCount b.bk.bootCount + 1
  { b with nv := { b.nv with rollback := r, bootCount := n, keys := { b.nv.keys with revVersion := v } }
           bk := { b.bk with rollback := r, revVersion := v, bootCount := n } }

/-- Tail entries that had not reached NVM are copied there in order (R600). -/
def bootTail (b : Block) : Block :=
  { b with nv := (b.bk.tail.drop b.bk.tailSaved).foldl (fun n e => logToNvm e n) b.nv, bk := { b.bk with tailSaved := b.bk.tail.length } }

/-- What RETURNED, RETIRED and ZEROISE erase (R548, R565): images, settings, PERSIST content, and the key-store items of the state entered. -/
def eraseOwned (b : Block) : Block :=
  { b with nv := { b.nv with
      slotA := {}, slotB := {}, next := none, setA := {}, setB := {}
      keys := { b.nv.keys with owner := [], recovery := [], secret := [], verified := 0, revoked := [] } } }

/-- A tamper detection with ZEROISE on an unpowered module completes at step 2 (R584). -/
def bootZeroise (b : Block) : Block :=
  if b.bk.seedGone && (decide (b.nv.life = .owned) || decide (b.nv.life = .fieldService)) then
    eraseOwned { b with nv := { b.nv with life := .returned }, bk := { b.bk with seedGone := false } }
  else b

/-- The code of a life-cycle state (R555). -/
def lifeCode (l : Life) : Nat :=
  match l with
  | .blank => 0
  | .manufactured => 1
  | .owned => 2
  | .fieldService => 3
  | .returned => 4
  | .retired => 5

/-- Step 2 of R117: counters, log tail, VBAT loss, life-cycle state, key store. -/
def bootStep2 (b : Block) : Block :=
  let b := bootTail (bootCounters b)
  let b := if b.bk.lost then logEvent 0 0x0006 0 0 { b with tr := { b.tr with vbatLost := true }, bk := { b.bk with lost := false, rtcValid := false } } else b
  let old := b.nv.life
  let b := bootZeroise b
  let b := if b.nv.life = .fieldService then { b with nv := { b.nv with life := .owned } } else b
  let b := if b.nv.life = old then b else logEvent 0 0x0003 0 (256 * lifeCode old + lifeCode b.nv.life) b
  let b := if b.tr.enrolStrap && decide (b.nv.life ≠ .manufactured) then logEvent 0 0x0005 0 0 b else b
  nvWrite 0 { b with tr := { b.tr with keystoreErr := b.bk.seedGone } }

/-- A slot passes step 3 (R114, R117): VALID, and FORMAT, SIGNATURE, ROLLBACK and DEVICE hold. -/
def slotPasses (b : Block) (s : Nat) : Option Img :=
  let x := slotAt b.nv s
  if x.valid && !x.damaged then (verifyImg b x.bytes).2 else none

/-- Step 3: the slot to boot, its image, and the NVM marks of R115. With no selection made, slot A comes first. -/
def chooseSlot (b : Block) : Option (Nat × Img × Nvm) :=
  let n := b.nv.next.getD 0
  let o := 1 - n
  let mark (s : Nat) (nv : Nvm) : Nvm := slotUpd s (fun x => if x.trial then { x with trialBooted := true } else x) nv
  let x := slotAt b.nv n
  if x.trial && x.trialBooted then
    match slotPasses b o, slotPasses b n with
    | some i, _ => some (o, i, mark o { slotUpd n (fun y => { y with trial := false, trialBooted := false }) b.nv with next := some o })
    | none, some i => some (n, i, b.nv)
    | none, none => none
  else
    match slotPasses b n, slotPasses b o with
    | some i, _ => some (n, i, mark n b.nv)
    | none, some i => some (o, i, mark o b.nv)
    | none, none => none

/-- The structure and DEFAULTS of an image from reset (steps 4 and 5). -/
def bootStruct (i : Img) (b : Block) : Block :=
  let b := withImg i { b with cfg := [], run := { b.run with tileSet := i.tileSet, pace := i.pace, refSrc := i.refSrc }, paceNow := i.pace }
  let cf := putBits sgMask b.cfg (regAddr .TL_PACE []) (BitVec.ofNat 32 i.pace)
  { b with cfg := i.defaults.foldl (fun c r => putBits paramMask c r.2.1 r.2.2) cf }

/-- Step 5: the first check that fails. -/
def bootCheck (i : Img) (b : Block) : Option Bad :=
  let recs (code : Nat) : Option Bad := recsBad i.tileSet sgMask structMask 0 i.regs code <|> recsBad i.tileSet sgMask paramMask i.regs.length i.defaults code
  recs codeAddress <|> checkTiles b <|> recs codeRange <|> checkRange b <|> structChecks (imgShapes i) i.safetyOk i.pace b

/-- Step 6: LOAD data. -/
def bootLoad (i : Img) (b : Block) : Block :=
  forL (tilesOf b) (fun t => seqTake 0 t (some i)) { b with mem := i.parts.foldl (fun m p => partTake i p m) b.mem }

/-- Step 7: settings (R110, R117). -/
def bootSettings (b : Block) : Block :=
  match newestCopy b with
  | some k =>
    let c := copyAt b k
    let keep := b.mem.filter fun e => !(b.run.parts.any fun p => p.persist && decide (p.base * 65536 ≤ e.1) && decide (e.1 < (p.base + p.size) * 65536))
    { b with cfg := takeParams b.cfg c.cfg, mem := c.mem.foldl (fun m e => tabSet 0 m e.1 e.2) keep, run := { b.run with settingsSrc := k, settingsSeq := c.seq } }
  | none => { b with run := { b.run with settingsSrc := 2 } }

/-- The schedules of a tile fetch bank 0 (R160). -/
def bootScheds (t : Nat) (b : Block) : Block :=
  forN 8 (fun k x =>
    match readSched x t k 0 with
    | some bank => x.schedUpd t k fun s => { s with active := some 0, bank := bank, regionKnown := false }
    | none => x) b

/-- The active alternatives of a tile (R162). -/
def bootModes (t : Nat) (b : Block) : Block := forN 16 (fun j x => x.modeUpd t j fun m => { m with active := lowest (altModes x t j) }) b

/-- The mailboxes whose timeout, after the settings, is not 0 are stale from boot (R356). -/
def bootBoxes (b : Block) : Block :=
  forL (tilesOf b) (fun t x => x.seqUpd t fun s => { s with mb := { s.mb with stale := timedBoxes x t } }) b

/-- Step 8 (R117, R118): schedules and modes, UNVERIFIED, Berath ports. -/
def bootStart (b : Block) : Block :=
  let b := forL (tilesOf b) (fun t x => uncertainTake t (fun _ => true) (bootModes t (bootScheds t x))) { b with run := { b.run with on := true } }
  blBoot 0 (verifyPars b)

/-- Steps 3 to 8. -/
def bootImage (b : Block) : Block :=
  if b.tr.keystoreErr || b.nv.life ≠ .owned then b
  else
    match chooseSlot b with
    | none => b
    | some (s, i, nv) =>
      let b0 := { b with nv := nv }
      let c := bootStruct i b0
      match bootCheck i { c with draws := b.draws } with
      | some _ => nextDraw b0
      | none =>
        let c := bootBoxes (bootSettings (bootLoad i (nextDraw c)))
        let c := bootStart { c with run := { c.run with slot := some s, bytes := (slotAt nv s).bytes } }
        logEvent 0 0x0001 0 (2 ^ 30 * c.run.settingsSrc + (s + 1)) c

/-- The hub leaves reset and boots (R117): everything volatile begins anew. -/
def bootOp (b : Block) : Block := bootImage (bootStep2 (volatileReset b))

end Sys2Proof.Machine
end

