-- ==== Sys2Proof/Machine/Health.lean ====
section
/-! DEFINITION. Health monitors, the event log's NVM writes, replacement requests, the self-test engine and the test access port (chapter 16). -/

namespace Sys2Proof.Machine

/-! ### The self-test engine (R603 to R609) -/

/-- Operations on a tile: 1 to 5, and REF_CHECK on a tile. -/
def stOnTile (op target : Nat) : Bool := decide (1 ≤ op ∧ op ≤ 6) && decide (target < 8)

/-- An operation and target that the table of R603 allows in a life-cycle state. -/
def stAllowed (l : Life) (op target : Nat) : Bool :=
  if op = 8 then decide (l = .blank) || decide (l = .manufactured) || decide (l = .returned)
  else if op = 7 then decide (target < 4)
  else stOnTile op target || (decide (op = 6) && decide (target = 8))

/-- The axes of a region (R604). -/
def stRegion (b : Block) (op target : Nat) : List (Nat × Nat) :=
  if op = 7 then (allAxes b).filter fun p =>
    Fld.SF_AX_CFG_BRK_EN b.cfg (axNo p.1 p.2) && decide (Fld.SF_AX_CFG_BRK_CH b.cfg (axNo p.1 p.2) / 16 = target)
  else if stOnTile op target then tileAxes target
  else []

/-- An axis of a region is disabled (R604): a VIRTUAL slot with its generator IDLE. -/
def stFree (b : Block) (t j : Nat) : Bool :=
  match slotTy b t j with
  | .virtual => decide ((b.genAt t j).st = .idle)
  | _ => axDisabled b t j

/-- An enabled axis on another tile depends on a tile (R604): it reads it through CE_XIN, takes a master from it, or shares a pleached group with it. -/
def stDependent (b : Block) (t : Nat) : Bool :=
  (allAxes b).any fun p => decide (p.1 ≠ t) && axEnabled b p.1 p.2 &&
    ((List.range 8).any (fun k => Fld.CE_XIN_EN b.cfg p.1 k && decide (Fld.CE_XIN_TILE b.cfg p.1 k = t) && readsSrc b p.1 p.2 (0x90 + k))
      || (tileAxes t).any (fun q => isMaster b t q.2 p.1 p.2)
      || ((plgOf b p.1 p.2).isSome && (tileAxes t).any fun q => decide (plgOf b t q.2 = plgOf b p.1 p.2)))

/-- The acquisition unit of a tile is not IDLE, or its sequencer runs or waits (R604). -/
def stBusyTile (b : Block) (t : Nat) : Bool :=
  decide ((b.aqAt t).st ≠ .idle) || decide ((b.seqAt t).st = .running) || decide ((b.seqAt t).st = .waiting)

/-- The REFUSE code of a START, 0 when it is not refused (R603, R604); the first that applies in the order of the codes. -/
def stRefuse (b : Block) (op target : Nat) : Nat :=
  let service := decide (b.nv.life = .fieldService)
  if b.nv.life = .owned || b.nv.life = .retired then 1
  else if service && !(stRegion b op target).all fun p => stFree b p.1 p.2 then 2
  else if service && stOnTile op target && stDependent b target then 3
  else if service && stOnTile op target && stBusyTile b target then 4
  else if testRuns b || (service && (decide (b.cm.ph = .accepted) || decide (b.cm.ph = .go))) then 5
  else if service && stOnTile op target && !tileOn b target then 6
  else if !stAllowed b.nv.life op target then 7
  else 0

/-- HL_ST_CTRL.START, or the SELFTEST instruction of the test access port (R603, R604). -/
def stStartOp (now op target : Nat) (b : Block) : Block :=
  let code := stRefuse b op target
  if code ≠ 0 then { b with hl := { b.hl with st := { b.hl.st with result := 4, refuse := code } } }
  else { b with hl := { b.hl with st := { op := op, target := target, reqAt := some now, tile := b.hl.st.tile, resume := b.hl.st.resume, tap := b.hl.st.tap } } }

/-- A test ends (R608): its result is logged; the frames of its tile resume at the next sample instant of its fastest group (R606). -/
def stEnd (now : Nat) (b : Block) : Block :=
  let st := b.hl.st
  let r := if st.aborting then 3 else st.result
  logEvent now 0x0050 0 (2 ^ 24 * st.op + 2 ^ 16 * st.target + r)
    { b with hl := { b.hl with st := { st with st := .idle, result := r, reqAt := none, aborting := false, tile := none, pair := none, resume := st.tile.filter fun t => (fastGroup b t).isSome } } }

/-- A test is aborted (R607): a saved tile is restored first. -/
def stAbort (now : Nat) (b : Block) : Block :=
  let st := b.hl.st
  if !testRuns b then b
  else
    let b := { b with hl := { b.hl with st := { st with aborting := true } } }
    if st.tile.isSome then { b with hl := { b.hl with st := { b.hl.st with st := .restoring } } } else stEnd now b

/-- SELFTEST_ACCEPTED (R605): a running tile goes on to its suspension; any other region is tested at once, and nothing is saved while no image runs (R607). -/
def stAccept (now : Nat) (b : Block) : Block :=
  let st := b.hl.st
  if st.reqAt.isSome && decide (st.st = .idle) then
    let st := { st with reqAt := none, accAt := now }
    let st :=
      if stOnTile st.op st.target && tileOn b st.target then
        if (fastGroup b st.target).isSome then { st with st := .accepted } else { st with st := .saving, tile := some st.target }
      else { st with st := .running, pair := if st.op = 7 then some st.target else none }
    let b := { b with hl := { b.hl with st := st } }
    if st.op = 7 then
      b.fpUpd st.target fun p => { p with levelPrev := if p.regAt = now then p.levelPrev else p.level, regAt := now, level := 0, valid := 0 }
    else b
  else b

/-- SELFTEST_SAVE_DONE (R606). -/
def stSaved (b : Block) : Block :=
  if b.hl.st.st = .saving then { b with hl := { b.hl with st := { b.hl.st with st := .running } } } else b

/-- SELFTEST_TEST_DONE (R608): a FAIL requests replacement; a saved tile is restored. -/
def stTested (now : Nat) (pass : Bool) (detail : Word) (b : Block) : Block :=
  let st := b.hl.st
  if st.st = .running then
    let st := { st with result := if pass then 1 else 2, detail := if pass then st.detail else detail, st := .restoring }
    let b := { b with hl := { b.hl with st := st } }
    let b := if pass then b else setReplace now 256 b
    if st.tile.isSome then b else stEnd now b
  else b

/-- SELFTEST_RESTORE_DONE (R606): a restore that completes at a sample instant of the tile's fastest group resumes its frames at it. -/
def stRestored (now : Nat) (b : Block) : Block :=
  if b.hl.st.st = .restoring then
    let b := stEnd now b
    match b.hl.st.resume with
    | some t => if stResumes now t b then forN 4 (fun g x => sampleGroup now t g x) (stResume now t b) else b
    | none => b
  else b

/-- ST_START (R604): through HL_ST_CTRL in FIELD_SERVICE and OWNED, through the SELFTEST instruction where no sessions exist. -/
def execStStart (op target : BitVec 4) (s : State) : Host.Outcome State Fault Refusal :=
  onHub (fun now b =>
    let held := decide (b.nv.life = .owned) || decide (b.nv.life = .fieldService) || decide (b.hl.st.tap = 6)
    if held then stStartOp now op.toNat target.toNat b else b) s

/-- ST_ABORT (R607). -/
def execStAbort (s : State) : Host.Outcome State Fault Refusal := onHub stAbort s

/-- SELFTEST_ACCEPTED (R605). -/
def execSelftestAccepted (s : State) : Host.Outcome State Fault Refusal := onHub stAccept s

/-- SELFTEST_SAVE_DONE (R606). -/
def execSelftestSaveDone (s : State) : Host.Outcome State Fault Refusal := onHub (fun _ => stSaved) s

/-- SELFTEST_TEST_DONE (R608). -/
def execSelftestTestDone (pass : Bool) (detail : Word) (s : State) : Host.Outcome State Fault Refusal :=
  onHub (fun now => stTested now pass detail) s

/-- SELFTEST_RESTORE_DONE (R606). -/
def execSelftestRestoreDone (s : State) : Host.Outcome State Fault Refusal := onHub stRestored s

/-- The instruction that the test access port selects (R555, R609): 0 BYPASS, 1 IDCODE, 2 SAMPLE/PRELOAD, 3 EXTEST, 4 CLAMP, 5 HIGHZ, 6 SELFTEST. -/
def tapSelects (l : Life) (code : Nat) : Nat :=
  match l with
  | .owned | .retired => if code ≤ 1 then code else 0
  | .fieldService => if 3 ≤ code ∧ code ≤ 5 then 0 else code
  | _ => code

/-- What the test access port reads out while IDCODE is selected (R609). -/
def tapIdcode : Word := BitVec.ofNat 32 (0x00960A5B + Config.silicon % 16 * 2 ^ 28)

/-- An instruction is loaded (R556, R609). -/
def tapOp (now code : Nat) (b : Block) : Block :=
  let c := tapSelects b.nv.life code
  let b := { b with hl := { b.hl with st := { b.hl.st with tap := c } } }
  if decide (2 ≤ c) && !b.tr.debugOpened then logEvent now 0x0004 0 c { b with tr := { b.tr with debugOpened := true } } else b

/-- TAP_INSTRUCTION (R609). -/
def execTapInstruction (code : Fin 7) (s : State) : Host.Outcome State Fault Refusal := onHub (fun now => tapOp now code) s

/-- The test access port becomes restricted (R568). -/
def tapRestrict (b : Block) : Block :=
  { b with hl := { b.hl with st := { b.hl.st with tap := if b.hl.st.tap ≤ 1 then b.hl.st.tap else 0 } } }

/-! ### Margins, errors, supplies, temperatures -/

/-- The mean of the last 600 measurements, rounded down. -/
def marginMean (l : List Int) : Int := if l.isEmpty then 0 else l.sum / (l.length : Int)

/-- A measurement of a tile's margin in 0.1 % (R589, R590). -/
def marginOp (now t : Nat) (m : Int) (b : Block) : Block :=
  if tileOn b t && !b.paceChanging then
    let x := b.marginAt t
    let hist := (m :: x.hist).take 600
    let mean := satS 16 (marginMean hist)
    let b := b.marginUpd t fun _ => { hist := hist, mean := mean, min_ := min x.min_ mean, low := decide (mean < 40) }
    let b := if decide (mean < 40) && !x.low then logEvent now 0x0030 (dieTile t) (256 * t + (mean % 256).toNat) b else b
    if mean < 20 then setReplace now 1 b else b
  else b

/-- MARGIN_MEASURE (R589). -/
def execMarginMeasure (t : Fin 8) (margin : Int) (s : State) : Host.Outcome State Fault Refusal := onHub (fun now => marginOp now t margin) s

/-- Error counts of a memory: corrected in the window, uncorrectable since boot. -/
def eccAt (b : Block) (mem : Nat) : Nat × Nat := match mem with | 0 => b.hl.ecc0 | 1 => b.hl.ecc1 | _ => b.hl.ecc2

/-- The counts of a memory set. -/
def eccPut (mem : Nat) (e : Nat × Nat) (b : Block) : Block :=
  match mem with
  | 0 => { b with hl := { b.hl with ecc0 := e } }
  | 1 => { b with hl := { b.hl with ecc1 := e } }
  | _ => { b with hl := { b.hl with ecc2 := e } }

/-- A corrected error (R591). -/
def eccCorrect (now mem : Nat) (b : Block) : Block :=
  let (ce, ue) := eccAt b mem
  let b := eccPut mem (satAdd 65535 ce 1, ue) b
  if ce = 64 then setReplace now 2 (logEvent now 0x0031 0 mem b) else b

/-- ECC_CORRECTED (R591). -/
def execEccCorrected (mem : Fin 3) (_addr : Nat) (s : State) : Host.Outcome State Fault Refusal := onHub (fun now => eccCorrect now mem) s

/-- What an uncorrectable error damages (R592): a word of the memory stack, or what the NVM word belongs to. -/
def eccDamage (mem addr : Nat) (b : Block) : Block :=
  match mem with
  | 0 => { b with badMem := addr :: b.badMem.filter fun a => decide (a ≠ addr) }
  | 1 =>
    match Config.nvmItem addr with
    | 1 => { b with nv := slotUpd 0 (fun x => { x with damaged := true }) b.nv }
    | 2 => { b with nv := slotUpd 1 (fun x => { x with damaged := true }) b.nv }
    | 3 => { b with nv := { b.nv with setA := { b.nv.setA with done := false } } }
    | 4 => { b with nv := { b.nv with setB := { b.nv.setB with done := false } } }
    | _ => b
  | _ => b

/-- An uncorrectable error (R592). -/
def eccFail (now mem addr : Nat) (b : Block) : Block :=
  let (ce, ue) := eccAt b mem
  setReplace now 4 (logEvent now 0x0032 0 (2 ^ 28 * mem + addr % 2 ^ 28) (eccDamage mem addr (eccPut mem (ce, satAdd 65535 ue 1) b)))

/-- ECC_UNCORRECTABLE (R592). -/
def execEccUncorrectable (mem : Fin 3) (addr : Nat) (s : State) : Host.Outcome State Fault Refusal := onHub (fun now => eccFail now mem addr) s

/-- Ns of a window (R588). -/
def windowNs : Nat := 3600000000000

/-- A new window: every per-window counter returns to 0 (R588). -/
def windowOp (now : Nat) (b : Block) : Block :=
  if decide (now ≠ 0) && decide (now % windowNs = 0) then
    once 500 (fun x => { x with hl := { x.hl with
      window := now / windowNs, ecc0 := (0, x.hl.ecc0.2), ecc1 := (0, x.hl.ecc1.2), ecc2 := (0, x.hl.ecc2.2), barriers := [], edges := [] } }) b
  else b

/-- HEALTH_WINDOW (R588). -/
def execHealthWindow (s : State) : Host.Outcome State Fault Refusal := onHub windowOp s

/-- A hold-up measurement in 0.1 ms (R595): only while mains is present and no power-fail warning. -/
def holdupOp (now tenths : Nat) (b : Block) : Block :=
  if b.pw.mains && !b.pw.pfWarn then
    let v := min 65535 tenths
    let b := { b with hl := { b.hl with holdup := some v } }
    if v < 170 then setReplace now 32 (logEvent now 0x0035 0 v b) else b
  else b

/-- HOLDUP_MEASURE (R595). -/
def execHoldupMeasure (tenths : Nat) (s : State) : Host.Outcome State Fault Refusal := onHub (fun now => holdupOp now tenths) s

/-- Axes that a supply or sensor of a tile, or one of the module, concerns (R596, R598). -/
def dieAxes (b : Block) (s : Nat) : List (Nat × Nat) := if s < 8 then (if tileOn b s then tileAxes s else []) else allAxes b

/-- Supply or sensor `s` lies in the region under test (R603, R607): the whole module under EXTEST. -/
def inTest (b : Block) (s : Nat) : Bool := decide (b.hl.st.op = 8) || (decide (b.hl.st.op ≠ 7) && decide (b.hl.st.target = s))

/-- A supply fault (R596, R607); `dev` is the deviation in 0.5 % units. -/
def supplyOp (now s : Nat) (dev : Int) (b : Block) : Block :=
  if decide (s < 8) && !tileOn b s then b
  else if bit b.hl.supplies s then b
  else
    let b := { b with hl := { b.hl with supplies := b.hl.supplies + 2 ^ s, supply := true } }
    let b := setReplace now 64 (logEvent now 0x0022 0 (256 * s + (dev % 256).toNat) b)
    let b := axFaults now 1 (dieAxes b s) b
    if inTest b s then stAbort now b else b

/-- SUPPLY_FAULT (R596). -/
def execSupplyFault (s' : Fin 9) (dev : Int) (s : State) : Host.Outcome State Fault Refusal := onHub (fun now => supplyOp now s' dev) s

/-- SUPPLY_RECOVERED (R596). -/
def execSupplyRecovered (s' : Fin 9) (s : State) : Host.Outcome State Fault Refusal :=
  onHub (fun _ b => if bit b.hl.supplies s' then { b with hl := { b.hl with supplies := b.hl.supplies - 2 ^ s'.val } } else b) s

/-- A reading of a sensor in 0.0625 °C (R597, R598). -/
def tempOp (now s : Nat) (v : Int) (b : Block) : Block :=
  if decide (s < 8) && !tileOn b s then b
  else
    let v := satS 16 v
    let base := decide (s = 9)
    let warnAt : Int := if base then 1360 else 1680
    let critAt : Int := if base then 1520 else 1840
    let critEnd : Int := if base then 1440 else 1760
    let x := b.tempAt s
    let y : Temp := { now := v, max_ := max x.max_ v, warn := decide (warnAt ≤ v) || (x.warn && decide (warnAt - 80 < v))
                      crit := decide (critAt ≤ v) || (x.crit && decide (critEnd ≤ v)) }
    let data := 256 * s + ((v / 16) % 256).toNat
    let b := b.tempUpd s fun _ => y
    let b := if y.warn && !x.warn then logEvent now 0x0020 0 data b else b
    if y.crit && !x.crit then
      let b := axFaults now 1 (dieAxes b s) (logEvent now 0x0021 0 data { b with hl := { b.hl with thermCrit := true } })
      if inTest b s then stAbort now b else b
    else b

/-- TEMPERATURE_READ (R597): sensors 0 to 7 tiles, 8 hub, 9 baseplate. -/
def execTemperatureRead (s' : Fin 10) (v : Int) (s : State) : Host.Outcome State Fault Refusal := onHub (fun now => tempOp now s' v) s

/-! ### The log and replacement requests -/

/-- The oldest tail entry that has not reached NVM is written there (R600). -/
def logWrite (now : Nat) (b : Block) : Block :=
  match b.bk.tail.drop b.bk.tailSaved with
  | e :: _ => nvWrite now { b with nv := logToNvm e b.nv, bk := { b.bk with tailSaved := b.bk.tailSaved + 1 } }
  | [] => b

/-- LOG_NVM_WRITE (R600). -/
def execLogNvmWrite (s : State) : Host.Outcome State Fault Refusal := onHub logWrite s

/-- The condition of a cause is absent at this tick (R588). -/
def causeGone (b : Block) (c : Nat) : Bool :=
  match c with
  | 0 => (tilesOf b).all fun t => decide (20 ≤ (b.marginAt t).mean)
  | 1 => decide (b.hl.ecc0.1 ≤ 64) && decide (b.hl.ecc1.1 ≤ 64) && decide (b.hl.ecc2.1 ≤ 64)
  | 2 => true
  | 4 => (List.range 4).all fun m => !barrierHolds (b.barrierAt m)
  | 5 => match b.hl.holdup with | some v => decide (170 ≤ v) | none => false
  | 6 => decide (b.hl.supplies = 0)
  | 7 => (List.range 8).all fun t => decide (tabGet 0 b.hl.edges t < 3)
  | 8 => true
  | _ => false

/-- A write of HL_REPLACE (R587): each written cause whose condition is absent clears, and the clearing is logged. -/
def replaceClear (now mask : Nat) (b : Block) : Block :=
  let off := bitsOf 9 fun c => bit mask c && bit b.nv.replace c && causeGone b c
  if off = 0 then b else logEvent now 0x0038 0 off { b with nv := { b.nv with replace := b.nv.replace - off } }

/-- REPLACE_CLEAR (R587). -/
def execReplaceClear (mask : Word) (s : State) : Host.Outcome State Fault Refusal := onHub (fun now => replaceClear now mask.toNat) s

/-- The entry that HL_LOG_SEL selects, in the NVM ring or the tail (R599, R602). -/
def logFind (b : Block) (seq : Nat) : Option LogEntry := (b.nv.log ++ b.bk.tail.drop b.bk.tailSaved).find? fun e => decide (e.seq % 2 ^ 32 = seq)

/-- HL_LOG_SEL (R602). -/
def logSelOp (seq : Word) (b : Block) : Block :=
  { setReg (regAddr .HL_LOG_SEL []) 0 seq b with hl := { b.hl with sel := seq.toNat, miss := (logFind b seq.toNat).isNone } }

/-- LOG_SEL (R602). -/
def execLogSel (seq : Word) (s : State) : Host.Outcome State Fault Refusal := onHub (fun _ => logSelOp seq) s

end Sys2Proof.Machine
end

