-- ==== Sys2Proof/Machine/Power.lean ====
section
/-! DEFINITION. Input supplies, the power-fail warning, reset (chapter 18). -/

namespace Sys2Proof.Machine

/-- PW_STATUS.SOURCE (R636): with mains present VAUX_DC carries nothing below 25.5 V, all above 26.5 V, and both share between. -/
def powerSource (p : Power) : Power :=
  { p with source := if p.mains && p.vauxOk then (if p.vaux < 255 then 0 else if 265 < p.vaux then 1 else 2)
                     else if p.mains then 0 else if p.vauxOk then 1 else p.source }

/-- A power-fail warning is registered (R607, R637, R641). -/
def pfWarnOp (now : Nat) (b : Block) : Block :=
  if b.pw.pfWarn then b
  else stAbort now (logEvent now 0x0002 0 (b.hl.holdup.getD 0) (storeRefuse now { b with pw := { b.pw with pfWarn := true, pfTick := now } }))

/-- POWER_FAIL_WARNING (R637). -/
def execPowerFailWarning (s : State) : Host.Outcome State Fault Refusal := onHub pfWarnOp s

/-- POWER_FAIL_CLEAR (R640). -/
def execPowerFailClear (s : State) : Host.Outcome State Fault Refusal :=
  onHub (fun _ b => if b.pw.pfWarn then { b with pw := { b.pw with pfWarn := false, pfCount := satAdd 65535 b.pw.pfCount 1 } } else b) s

/-- SUPPLY_SOURCE_CHANGE (R595, R636): without mains no hold-up measurement is held. -/
def execSupplySourceChange (mains vaux : Bool) (s : State) : Host.Outcome State Fault Refusal :=
  onBlock (fun _ b => { b with pw := powerSource { b.pw with mains := mains, vauxOk := vaux }
                               hl := { b.hl with holdup := if mains then b.hl.holdup else none } }) s

/-- The hub enters reset (R657): everything volatile is lost, and the lattice stands at 0 until the hub leaves reset. -/
def resetState (s : State) : State := { s with clk := {}, b := volatileReset s.b }

/-- RAIL_RESET (R657). -/
def execRailReset (s : State) : Host.Outcome State Fault Refusal := .next (resetState s)

end Sys2Proof.Machine
end

