-- ==== Sys2Proof/Machine/Trust.lean ====
section
/-! DEFINITION. Key store, life cycle, challenges, tokens, enrolment, attestation, tamper inputs, the end of sessions (chapter 15). -/

namespace Sys2Proof.Machine

/-! ### Banks and results (R558, R563) -/

/-- SEC_RESULT of a bank (sessions 0 to 7, then MAC0, MAC1 and the serial host port): DONE, ACTION, CODE. The bank of an ended session takes none. -/
def secResult (k action code : Nat) (b : Block) : Block :=
  if k < 11 then b.bankUpd k fun x => { x with done := true, action := action, code := code } else b

/-- The bytes of a bank. -/
def bankBytesOf (b : Block) (k : Nat) : List Byte := tabBytes 0 (b.bankAt k).buf 0 16384

/-- Codes of SEC_RESULT. -/
def secFormat : Nat := 1
def secSignature : Nat := 2
def secChain : Nat := 3
def secDevice : Nat := 4
def secChallenge : Nat := 5
def secState : Nat := 6
def secStrap : Nat := 7
def secVbat : Nat := 8
def secAxes : Nat := 9
def secVersion : Nat := 10
def secRevoked : Nat := 11
def secRole : Nat := 12
def secPowerFail : Nat := 13
def secBusy : Nat := 14

/-- An action of SEC_CTRL begins on a bank (R563). -/
def secBegin (k kind : Nat) (b : Block) : Block :=
  let b := b.bankUpd k fun x => { x with done := false, action := kind }
  { b with tr := { b.tr with op := some { bank := k, kind := kind, bytes := bankBytesOf b k } } }

/-! ### The challenge (R561) -/

/-- The challenge is valid at `now`; at the tick of its expiry it is not (R10). -/
def challengeOk (now : Nat) (b : Block) : Bool :=
  match b.tr.drawnAt with
  | some t => decide (now < t + 600000000000)
  | none => false

/-- The challenge ends. -/
def challengeEnd (b : Block) : Block := { b with tr := { b.tr with challenge := [], drawnAt := none } }

/-- NEW_CHALLENGE (R561); in RETIRED nothing but two reads is served (R557). -/
def newChallengeOp (now : Nat) (b : Block) : Block :=
  if b.nv.life = .retired then b else nextDraw { b with tr := { b.tr with challenge := drawBytes b 16, drawnAt := some now } }

/-- NEW_CHALLENGE (R561). -/
def execNewChallenge (s : State) : Host.Outcome State Fault Refusal := onHub newChallengeOp s

/-- The challenge's expiry when it is due. -/
def challengeTick (now : Nat) (b : Block) : Block := if b.tr.drawnAt.isSome && !challengeOk now b then challengeEnd b else b

/-- CHALLENGE_EXPIRY (R561). -/
def execChallengeExpiry (s : State) : Host.Outcome State Fault Refusal := onHub challengeTick s

/-! ### The end of a session (R576) -/

/-- A session number without a session: HP_SP_CLASS5 stands until the next session opens. -/
def sessClear (x : Sess) : Sess := { class5 := x.class5 }

/-- A session ends: keys, bank and waiting requests go, its staging ownership ends (R91). -/
def sessEnd (now k : Nat) (b : Block) : Block :=
  if (b.sessAt k).st = .closed then b
  else
    let b := commitSessEnd now k (b.sessUpd k sessClear)
    let b := b.bankUpd k fun _ => {}
    match b.tr.op with
    | some o => if o.bank = k then { b with tr := { b.tr with op := some { o with bank := 11 } } } else b
    | none => b

/-- Every session ends. -/
def sessEndAll (now : Nat) (b : Block) : Block := forN 8 (sessEnd now) b

/-- SESSION_END (R576): SEC_SESS_CTRL.END. -/
def execSessionEnd (k : Fin 8) (s : State) : Host.Outcome State Fault Refusal := onHub (fun now => sessEnd now k) s

/-- The idle time of a session has passed (R10, R576). -/
def sessIdle (now k : Nat) (b : Block) : Block :=
  let x := b.sessAt k
  if decide (x.st = .open_) && decide (x.lastAt + Fld.SEC_IDLE_IDLE_T b.cfg * 1000000000 ≤ now) then sessEnd now k b else b

/-- SESSION_IDLE_EXPIRY (R576). -/
def execSessionIdleExpiry (k : Fin 8) (s : State) : Host.Outcome State Fault Refusal := onHub (fun now => sessIdle now k) s

/-! ### Life-cycle transitions (R559) -/

/-- A new state takes effect and is logged. -/
def setLife (now : Nat) (l : Life) (b : Block) : Block :=
  logEvent now 0x0003 0 (256 * lifeCode b.nv.life + lifeCode l) { b with nv := { b.nv with life := l } }

/-- What RETURNED and RETIRED erase (R548, R565). -/
def eraseFor (l : Life) (b : Block) : Block :=
  match l with
  | .returned => let b := eraseOwned b; { b with bk := { b.bk with seedGone := false } }
  | .retired =>
    { b with nv := { b.nv with slotA := {}, slotB := {}, next := none, setA := {}, setB := {}
                               keys := { b.nv.keys with identity := false, pub := [], cert := [] } } }
  | _ => b

/-- The journal of a transition completes (R559, R565, R570): the state changes; a transition that restarts the module takes it into reset. -/
def lifeDone (s : State) : State :=
  match s.b.tr.journal with
  | none => s
  | some j =>
    let now := s.clk.lattice
    let b := eraseFor j.to_ (setLife now j.to_ { s.b with tr := { s.b.tr with journal := none } })
    let b := nvWrite now b
    if j.restart then resetState { s with b := sessEndAll now b } else { s with b := b }

/-- LIFECYCLE_TRANSITION (R559). -/
def execLifecycleTransition (s : State) : Host.Outcome State Fault Refusal := .next (if s.clk.up then lifeDone s else s)

/-- A transition is journaled (R559). -/
def journal (l : Life) (restart : Bool) (b : Block) : Block := { b with tr := { b.tr with journal := some { to_ := l, restart := restart } } }

/-- FIELD_SERVICE returns to OWNED (R568): the test access port becomes restricted, a self-test is aborted. -/
def serviceEndOp (now : Nat) (b : Block) : Block := nvWrite now (setLife now .owned (tapRestrict (stAbort now b)))

/-- END_SERVICE (R568). -/
def endServiceOp (now : Nat) (b : Block) : Block := if b.nv.life = .fieldService then serviceEndOp now b else b

/-- END_SERVICE (R568). -/
def execEndService (s : State) : Host.Outcome State Fault Refusal := onHub endServiceOp s

/-- The end of the FIELD_SERVICE period when it is due. -/
def serviceTick (now : Nat) (b : Block) : Block :=
  if decide (b.nv.life = .fieldService) && decide (b.tr.serviceEnd ≤ now) then serviceEndOp now b else b

/-- FIELD_SERVICE_EXPIRY (R568). -/
def execFieldServiceExpiry (s : State) : Host.Outcome State Fault Refusal := onHub serviceTick s

/-- GENERATE_IDENTITY over the test access port (R548): only in BLANK. -/
def identityOp (b : Block) : Block :=
  if b.nv.life = .blank then
    let pub := slice (Config.ecPoint b.draws) 0 97
    journal .manufactured false
      (nextDraw { b with nv := { b.nv with keys := { b.nv.keys with identity := true, pub := pub, cert := Config.deviceCert pub } } })
  else b

/-- GENERATE_IDENTITY (R548). -/
def execGenerateIdentity (s : State) : Host.Outcome State Fault Refusal := onHub (fun _ => identityOp) s

/-! ### Attestation (R582) -/

/-- ID_REV (R116): bit n of TILE_POP for each powered tile. -/
def idRev (b : Block) : Nat := 0x47600100 + Config.silicon % 16 * 4096 + (if b.run.on then 2 ^ b.run.tileSet - 1 else 0)

/-- Bytes 0x000 to 0x0F7 of a report. -/
def reportHead (now : Nat) (nonce : List Byte) (b : Block) : List Byte :=
  let img := parseImg b.run.bytes
  let hash := match b.run.on, img with
    | true, some i => hash48 (b.run.bytes.take i.signed)
    | _, _ => List.replicate 48 0
  let flags := flag b.bk.tampered 0 + flag b.tr.vbatLost 1 + flag b.sf.unverified 2 + flag (!b.nv.keys.recovery.isEmpty) 3
    + flag b.bk.rtcValid 4 + flag b.tr.debugOpened 5
  leBytes 4 0x54534154 ++ leBytes 1 1 ++ leBytes 1 (lifeCode b.nv.life) ++ leBytes 2 flags
    ++ leBytes 4 (idRev b) ++ leBytes 4 b.nv.bootCount ++ slice nonce 0 32 ++ deviceId b ++ slice b.nv.keys.owner 0 48 ++ hash
    ++ slice b.run.id 0 16 ++ leBytes 4 b.run.version ++ leBytes 4 b.nv.rollback ++ leBytes 4 (parCrc b.cfg)
    ++ leBytes 4 b.nv.keys.verified ++ leBytes 4 b.run.settingsSeq ++ leBytes 1 b.run.settingsSrc ++ leBytes 3 0
    ++ leBytes 8 now ++ leBytes 8 (if b.bk.rtcValid then b.bk.rtc else 0)

/-- A report in a bank, signed by the identity key. -/
def report (now k : Nat) (nonce : List Byte) (b : Block) : Block :=
  let h := reportHead now nonce b
  let r := h ++ slice (Config.ecdsaSign b.draws (Config.sha384 h)) 0 96
  nextDraw (if k < 11 then b.bankUpd k fun x => { x with buf := tabFill 0 x.buf 0 r } else b)

/-- ATTEST (R550, R563, R582): BUSY while another action runs; without an identity key STATE. -/
def attestOp (k : Nat) (b : Block) : Block :=
  if b.nv.life = .retired then b
  else if b.tr.op.isSome then secResult k 3 secBusy b
  else if b.tr.keystoreErr || !b.nv.keys.identity then secResult k 3 secState b
  else secBegin k 3 b

/-- ATTEST (R582). -/
def execAttest (bank : Fin 11) (s : State) : Host.Outcome State Fault Refusal := onHub (fun _ => attestOp bank) s

/-- The report is complete (R582). -/
def attestDone (now : Nat) (b : Block) : Block :=
  match b.tr.op with
  | some o =>
    if o.kind = 3 then
      secResult o.bank 3 0 (report now o.bank (slice o.bytes 0 32) { b with tr := { b.tr with op := none } })
    else b
  | none => b

/-- ATTEST_DONE (R582). -/
def execAttestDone (s : State) : Host.Outcome State Fault Refusal := onHub attestDone s

/-! ### Enrolment (R569, R570) -/

/-- A record {LEN u32, bytes, zeros to a multiple of 4} at an offset within `n` bytes: its bytes and the offset after it. -/
def lenItem (bs : List Byte) (o n : Nat) : Option (List Byte × Nat) :=
  let len := leAt bs o 4
  let pad := (len + 3) / 4 * 4
  if o + 4 ≤ n && o + 4 + pad ≤ n && decide (leNat (slice bs (o + 4 + len) (pad - len)) = 0) then
    some (slice bs (o + 4) len, o + 4 + pad)
  else none

/-- ENROL (R560, R563, R569). -/
def enrolOp (k : Nat) (b : Block) : Block :=
  if b.nv.life = .retired then b
  else if b.pw.pfWarn then secResult k 2 secPowerFail b
  else if b.tr.op.isSome then secResult k 2 secBusy b
  else if b.nv.life ≠ .manufactured || b.tr.keystoreErr then secResult k 2 secState b
  else if !b.tr.enrolStrap then secResult k 2 secStrap b
  else if !b.tr.vbatOk then secResult k 2 secVbat b
  else secBegin k 2 b

/-- ENROL (R569). -/
def execEnrol (bank : Fin 11) (s : State) : Host.Outcome State Fault Refusal := onHub (fun _ => enrolOp bank) s

/-- An enrolled certificate is an X.509 certificate signed by itself (R570). -/
def selfSigned (c : List Byte) : Bool := (Config.cert c).isSome && Config.certIssued c c

/-- The judgement of an enrolment record (R569, R570): a code, or the root and recovery certificates. -/
def enrolJudge (now : Nat) (bs : List Byte) (b : Block) : Except Nat (List Byte × List Byte) :=
  match lenItem bs 0 16384 with
  | none => .error secFormat
  | some (root, o) =>
    match lenItem bs o 16384 with
    | none => .error secFormat
    | some (rec_, o) =>
      let two := !rec_.isEmpty
      if root.isEmpty || decide (16384 < o + 96 + (if two then 96 else 0)) then .error secFormat
      else if !challengeOk now b then .error secChallenge
      else
        let digest := Config.sha384 (b.tr.challenge ++ deviceId b)
        if !certSigned root digest (slice bs o 96) || (two && !certSigned rec_ digest (slice bs (o + 96) 96)) then .error secSignature
        else if !selfSigned root || (two && (!selfSigned rec_ || decide (rec_ = root))) then .error secChain
        else .ok (root, rec_)

/-- ENROL_CHECK_DONE (R570): the roots are stored, the counters return to 0, the receipt is written, and the transition is journaled. -/
def enrolDone (now : Nat) (b : Block) : Block :=
  match b.tr.op with
  | some o =>
    if o.kind = 2 then
      let b := { b with tr := { b.tr with op := none } }
      match enrolJudge now o.bytes b with
      | .error code => secResult o.bank 2 code (if code = secFormat then b else challengeEnd b)
      | .ok (root, rec_) =>
        let nonce := b.tr.challenge
        let keys := { b.nv.keys with owner := hash48 root, recovery := if rec_.isEmpty then [] else hash48 rec_, secret := drawBytes b 32
                                     revVersion := 0 }
        let b := nextDraw { b with nv := { b.nv with keys := keys, rollback := 0 }, bk := { b.bk with rollback := 0, revVersion := 0 } }
        secResult o.bank 2 0 (report now o.bank nonce (journal .owned true (challengeEnd b)))
    else b
  | none => b

/-- ENROL_CHECK_DONE (R570). -/
def execEnrolCheckDone (s : State) : Host.Outcome State Fault Refusal := onHub enrolDone s

/-! ### Tokens (R562 to R567) -/

/-- A token (R562). -/
structure Token where
  kind : Nat := 0
  device : List Byte := []
  challenge : List Byte := []
  value : Nat := 0
  param : List Byte := []
  cert : List Byte := []
  sig : List Byte := []
  digest : List Byte := []
  deriving DecidableEq, Repr

/-- The two certificates of a ROOT_ROLLOVER. -/
def rolloverCerts (param : List Byte) : Option (List Byte × List Byte) :=
  match lenItem param 0 param.length with
  | none => none
  | some (root, o) =>
    match lenItem param o param.length with
    | none => none
    | some (rec_, e) => if root.isEmpty || decide (e ≠ param.length) then none else some (root, rec_)

/-- The token that a buffer holds, if its layout and lengths are right. -/
def parseToken (bs : List Byte) : Option Token :=
  let kind := leAt bs 4 1
  let n := leAt bs 6 2
  let value := leAt bs 0x48 4
  let param := slice bs 0x50 n
  let valueOk := if kind = 1 then decide (1 ≤ value) && decide (value ≤ 1440) else kind = 4 || value = 0
  let paramOk := if kind = 4 then n % 16 = 0 && n ≤ 1024 else if kind = 5 then (rolloverCerts param).isSome else n = 0
  if leAt bs 0 4 = 0x4E4B4F54 && 1 ≤ kind && kind ≤ 6 && leAt bs 5 1 = 0 && n % 4 = 0 && n ≤ 4096 && valueOk && leAt bs 0x4C 4 = 0 && paramOk then
    match sigBlock bs (0x50 + n) 16384 with
    | some (cert, sig, _) =>
      some { kind := kind, device := slice bs 8 48, challenge := slice bs 0x38 16, value := value, param := param, cert := cert, sig := sig
             digest := Config.sha384 (bs.take (0x50 + n)) }
    | none => none
  else none

/-- The roots that a signer can chain to. -/
inductive Root where
  | owner | recovery | vendor
  deriving DecidableEq, Repr

/-- The hash of a root. -/
def rootHash (b : Block) (r : Root) : List Byte :=
  match r with
  | .owner => b.nv.keys.owner
  | .recovery => b.nv.keys.recovery
  | .vendor => Config.vendorRoot

/-- The judgement of a signer's chain to a root. -/
def rootJudge (b : Block) (cert : List Byte) (r : Root) : Except ChainBad Unit := chainJudge b (rootHash b r) (signerChain cert (rootHash b r))

/-- The root that a signer's chain leads to, or why it leads to none (R551, R553). -/
def signerRoot (b : Block) (cert : List Byte) : Except Nat Root :=
  let try_ (r : Root) (rest : Except Nat Root) : Except Nat Root :=
    match rootJudge b cert r with
    | .ok _ => .ok r
    | .error .revoked => match rest with
      | .ok x => .ok x
      | .error _ => .error secRevoked
    | .error .chain => rest
  try_ .owner (try_ .recovery (try_ .vendor (.error secChain)))

/-- The signer's authority (R564). -/
def tokenRole (b : Block) (t : Token) (r : Root) : Bool :=
  let owner := decide (r = .owner) && decide (roleAnd (chainRoles (signerChain t.cert b.nv.keys.owner)) roleOwner = roleOwner)
  let held := decide (b.nv.life = .owned) || decide (b.nv.life = .fieldService)
  match t.kind with
  | 1 | 4 => owner
  | 2 | 5 => owner || decide (r = .recovery)
  | 3 => if held then owner else decide (r = .vendor)
  | _ => decide (r = .vendor)

/-- The state permits the transition or action (R558, R563). -/
def tokenState (b : Block) (kind : Nat) : Bool :=
  let held := decide (b.nv.life = .owned) || decide (b.nv.life = .fieldService)
  match kind with
  | 1 => decide (b.nv.life = .owned)
  | 3 => held || decide (b.nv.life = .manufactured) || decide (b.nv.life = .returned)
  | 6 => decide (b.nv.life = .returned)
  | _ => held

/-- Every axis on every powered tile is disabled (R565, R673); a virtual slot, which is never disabled (R328), counts so while its generator is IDLE. -/
def allDisabled (b : Block) : Bool :=
  !b.run.on || (allAxes b).all fun p => if slotTy b p.1 p.2 = .virtual then axIdle b p.1 p.2 else axDisabled b p.1 p.2

/-- The first check of R563 that fails; 0: accepted. -/
def tokenJudge (now : Nat) (t : Token) (b : Block) : Nat :=
  if t.device ≠ deviceId b then secDevice
  else if !(challengeOk now b && decide (t.challenge = b.tr.challenge)) then secChallenge
  else if !certSigned t.cert t.digest t.sig then secSignature
  else
    match signerRoot b t.cert with
    | .error code => code
    | .ok r =>
      if !tokenRole b t r then secRole
      else if !tokenState b t.kind then secState
      else if (t.kind = 2 || t.kind = 3) && !allDisabled b then secAxes
      else if t.kind = 4 && decide (t.value ≤ b.nv.keys.revVersion) then secVersion
      else 0

/-- The identifiers of a REVOKE token. -/
def revokeIds (param : List Byte) : List (List Byte) := (List.range (param.length / 16)).map fun i => slice param (16 * i) 16

/-- An accepted token acts (R565 to R568). -/
def tokenAct (now : Nat) (t : Token) (b : Block) : Block :=
  match t.kind with
  | 1 => journal .fieldService false { b with tr := { b.tr with serviceEnd := now + t.value * 60000000000 } }
  | 2 => journal .returned true b
  | 3 => journal .retired true b
  | 4 =>
    let ids := revokeIds t.param
    let b := { b with nv := { b.nv with keys := { b.nv.keys with revoked := ids, revVersion := t.value } }, bk := { b.bk with revVersion := t.value } }
    nvWrite now (forN 8 (fun k x => if (x.sessAt k).chain.any fun c => ids.contains c then sessEnd now k x else x) b)
  | 5 =>
    match rolloverCerts t.param with
    | some (root, rec_) =>
      let keys := { b.nv.keys with owner := hash48 root, recovery := if rec_.isEmpty then b.nv.keys.recovery else hash48 rec_ }
      nvWrite now (sessEndAll now { b with nv := { b.nv with keys := keys } })
    | none => b
  | _ => journal .manufactured false b

/-- SUBMIT (R560, R563). -/
def submitOp (k : Nat) (b : Block) : Block :=
  if b.nv.life = .retired then b
  else if b.pw.pfWarn then secResult k 1 secPowerFail b
  else if b.tr.op.isSome then secResult k 1 secBusy b
  else secBegin k 1 b

/-- SUBMIT (R563). -/
def execSubmit (bank : Fin 11) (s : State) : Host.Outcome State Fault Refusal := onHub (fun _ => submitOp bank) s

/-- TOKEN_CHECK_DONE (R561, R563): a token that names the challenge uses it, accepted or not. -/
def tokenDone (now : Nat) (b : Block) : Block :=
  match b.tr.op with
  | some o =>
    if o.kind = 1 then
      let b := { b with tr := { b.tr with op := none } }
      match parseToken o.bytes with
      | none => secResult o.bank 1 secFormat b
      | some t =>
        let code := tokenJudge now t b
        let b := secResult o.bank 1 code (if t.challenge = b.tr.challenge then challengeEnd b else b)
        if code = 0 then tokenAct now t b else b
    else b
  | none => b

/-- TOKEN_CHECK_DONE (R563). -/
def execTokenCheckDone (s : State) : Host.Outcome State Fault Refusal := onHub tokenDone s

/-! ### Tamper inputs (R583, R584) -/

/-- SEC_TAMPER fields of an input. -/
def tampEn (b : Block) (n : Nat) : Bool := bit b.bk.tampCfg (4 * n)
def tampPol (b : Block) (n : Nat) : Bool := bit b.bk.tampCfg (4 * n + 1)
def tampZero (b : Block) (n : Nat) : Bool := bit b.bk.tampCfg (4 * n + 2)

/-- A tamper input is monitored: enabled, in OWNED or FIELD_SERVICE (R583). -/
def tampWatched (b : Block) (n : Nat) : Bool := tampEn b n && (decide (b.nv.life = .owned) || decide (b.nv.life = .fieldService))

/-- An input in use reads its active level; in states other than OWNED and FIELD_SERVICE the inputs are ignored. -/
def tampActive (b : Block) (n : Nat) : Bool := tampWatched b n && decide ((if n = 0 then b.tamp0 else b.tamp1) = some (tampPol b n))

/-- Erasure of the port keys takes every sealed port out of RUN (R584). -/
def portKeysGone (now : Nat) (b : Block) : Block :=
  forN 12 (fun p x =>
    if Fld.BL_PORT_CFG_SEAL x.cfg p then
      if (x.blAt p).st = .run then blIntegrate now p x
      else x.blUpd p fun pt => { pt with key := { pt.key with ok := false, key := [], keyId := 0, kex := 0, next := [], activate := none } }
    else x) b

/-- A detection (R584). -/
def tamperOp (up : Bool) (now n : Nat) (b : Block) : Block :=
  let zero := tampZero b n
  let bk := { b.bk with tampered := true, tamp0 := b.bk.tamp0 || decide (n = 0), tamp1 := b.bk.tamp1 || decide (n = 1), seedGone := b.bk.seedGone || zero }
  let b := logEvent now 0x0007 0 (n + (if zero then 256 else 0)) { b with bk := bk }
  if zero && up then journal .returned true (sessEndAll now (storeAbandon (portKeysGone now b))) else b

/-- Two consecutive samples of a monitored input read active (R583). -/
def tamperDetect (up : Bool) (now n : Nat) (b : Block) : Block := if tampWatched b n then tamperOp up now n b else b

/-- TAMPER_DETECT (R584): the sample that makes two in a row, whether or not the module is powered. -/
def execTamperDetect (n : Fin 2) (s : State) : Host.Outcome State Fault Refusal := onBlock (fun now => tamperDetect s.clk.up now n) s

/-- A sample of both inputs every 32 ms (R583). -/
def tamperSample (now : Nat) (b : Block) : Block :=
  if now % 32000000 = 0 then
    let a0 := tampActive b 0
    let a1 := tampActive b 1
    let p0 := b.bk.prev0
    let p1 := b.bk.prev1
    let b := { b with bk := { b.bk with prev0 := a0, prev1 := a1 } }
    let b := if a0 && p0 then tamperOp true now 0 b else b
    if a1 && p1 then tamperOp true now 1 b else b
  else b

end Sys2Proof.Machine
end

