-- ==== Sys2Proof/Machine/CommitRows.lean ====
section
/-! DEFINITION. Commands of staging, commits, settings and images, and the boot (chapter 3). -/

namespace Sys2Proof.Machine

/-- The result of the last command row of a session: OP, STATUS, data. -/
def setLast (k op status : Nat) (data : List Byte) (b : Block) : Block :=
  b.sessUpd k fun x => { x with last := { op := op, status := status, data := data }, lastWait := .none }

/-- A block with a status, which becomes the session's last result. -/
def withStatus (k op : Nat) (r : Nat × Block) : Block := setLast k op r.1 [] r.2

/-- An access to a tile's address range: ADDRESS when the tile is unpowered (R36), REFUSED while it is under test (R605), else 0. -/
def tileStatus (b : Block) (t : Nat) : Nat := if !tileOn b t then 3 else if tileLive b t then 0 else 5

/-- An access to a register address: 0, or the access error ALIGN, ADDRESS or REFUSED (R6, R36, R605, R632). -/
def addrStatus (b : Block) (a : Nat) : Nat :=
  if a % 4 ≠ 0 then 2
  else match regAt a with
    | none => 3
    | some _ =>
      let i := addrInst a
      if 0x10 ≤ i ∧ i < 0x20 then tileStatus b (i - 0x10) else 0

/-- The SG fields of a register go to staging (R91, R92, R619). -/
def stageOp (k a : Nat) (v : Word) (b : Block) : Nat × Block :=
  let e := addrStatus b a
  if e ≠ 0 then (e, b)
  else if (match regAt a with | some (r, _) => sgMask r | none => 0) = 0 then (5, b)
  else stageWord k a v b

/-- STAGING_WRITE (R92). -/
def execStagingWrite (k : Fin 8) (addr : Nat) (v : Word) (s : State) : Host.Outcome State Fault Refusal :=
  onRun (fun _ b => withStatus k 3 (stageOp k addr v b)) s

/-- COMMIT (R91, R101): the tick named is that of CM_APPLY. -/
def execCommit (k : Fin 8) (asap : Bool) (s : State) : Host.Outcome State Fault Refusal := onRun (fun now => commitOp now k asap) s

/-- CM_CTRL.ABORT with its access error (R103). -/
def abortCmd (now k : Nat) (b : Block) : Nat × Block :=
  if !hasRoles b k roleConfigure then (4, b) else if abortRefused now b then (5, b) else (0, abortOp now b)

/-- ABORT (R103). -/
def execAbort (k : Fin 8) (s : State) : Host.Outcome State Fault Refusal := onRun (fun now b => withStatus k 2 (abortCmd now k b)) s

/-- CM_CTRL.DISCARD with its access error (R91). -/
def discardCmd (k : Nat) (b : Block) : Nat × Block :=
  if !hasRoles b k roleConfigure then (4, b) else if discardRefused k b then (5, b) else (0, discardOp k b)

/-- DISCARD (R91). -/
def execDiscard (k : Fin 8) (s : State) : Host.Outcome State Fault Refusal := onRun (fun _ b => withStatus k 2 (discardCmd k b)) s

/-- DIE_PREPARED (R104, R443): die 0 to 7 a tile, 8 the hub. -/
def execDiePrepared (d : Fin 9) (s : State) : Host.Outcome State Fault Refusal := onRun (fun now => Sys2Proof.Machine.diePrepared now d) s

/-- COMMIT_DECISION (R104). -/
def execCommitDecision (s : State) : Host.Outcome State Fault Refusal := onRun Sys2Proof.Machine.commitDecision s

/-- The HP_MAC words of a MAC. -/
def macWords (b : Block) (m : Nat) : List Word := [RegId.HP_MAC_CFG, RegId.HP_MAC_IP].map fun r => tabGet 0 b.cfg (regAddr r [m])

/-- A commit at its apply tick; where it changes HP_MAC_CFG or HP_MAC_IP, every session on that MAC ends. -/
def commitApplyOp (now : Nat) (b : Block) : Block :=
  let c := Sys2Proof.Machine.commitApply now b
  forN 8 (fun k x =>
    let e := x.sessAt k
    if decide (e.port < 2) && decide (macWords b e.port ≠ macWords c e.port) then sessEnd now k x else x) c

/-- COMMIT_APPLY (R105, R106). -/
def execCommitApply (s : State) : Host.Outcome State Fault Refusal := onRun commitApplyOp s

/-- CM_CTRL.STORE with its access error (R108, R111, R112). -/
def storeCmd (now k : Nat) (b : Block) : Nat × Block := if !hasRoles b k roleConfigure then (4, b) else (0, Sys2Proof.Machine.storeOp now b)

/-- STORE (R108). -/
def execStore (k : Fin 8) (s : State) : Host.Outcome State Fault Refusal := onRun (fun now b => withStatus k 5 (storeCmd now k b)) s

/-- IMG_INSTALL (R113). -/
def execImgInstall (k : Fin 8) (slot : Fin 2) (s : State) : Host.Outcome State Fault Refusal :=
  onHub (fun now b => withStatus k 2 (installOp now k slot b)) s

/-- IMG_NEXT (R113, R115). -/
def execImgNext (slot : Fin 2) (s : State) : Host.Outcome State Fault Refusal := onHub (fun now => nextSlotOp now slot) s

/-- IMG_STAGE_SLOT (R94). -/
def execImgStageSlot (k : Fin 8) (slot : Fin 2) (s : State) : Host.Outcome State Fault Refusal :=
  onHub (fun _ b => withStatus k 2 (stageSlotOp k slot b)) s

/-- IMG_CONFIRM (R114). -/
def execImgConfirm (s : State) : Host.Outcome State Fault Refusal := onHub confirmOp s

/-- BOOT (R117): a module in reset leaves it, and the lattice starts at 0. A module that has left reset is not booted by it. -/
def execBoot (s : State) : Host.Outcome State Fault Refusal :=
  .next (if s.clk.up then s else { s with clk := { lattice := 0, up := true }, b := bootOp s.b })

end Sys2Proof.Machine
end

