-- ==== Sys2Proof/Machine/Coordinated.lean ====
section
/-! DEFINITION. Commands of pleached groups, followers, cams, compares and networked axes (chapter 08). -/

namespace Sys2Proof.Machine

/-! ### Pleached groups -/

/-- FEED_INSTANT (R296): a feed instant of a group at the present tick. -/
def execFeedInstant (gr : Fin 8) (s : State) : Host.Outcome State Fault Refusal :=
  onRun (fun now b => if isFeed b now gr then once (100 + gr) (plgFeed now gr) b else b) s

/-- PLG_START (R298, R299). -/
def execPlgStart (gr : Fin 8) (s : State) : Host.Outcome State Fault Refusal :=
  onRun (fun now => plgCommand now gr .start) s

/-- PLG_HOLD (R298). -/
def execPlgHold (gr : Fin 8) (s : State) : Host.Outcome State Fault Refusal :=
  onRun (fun now => plgCommand now gr .hold) s

/-- PLG_RESUME (R298). -/
def execPlgResume (gr : Fin 8) (s : State) : Host.Outcome State Fault Refusal :=
  onRun (fun now => plgCommand now gr .resume) s

/-- PLG_STOP (R298). -/
def execPlgStop (gr : Fin 8) (s : State) : Host.Outcome State Fault Refusal :=
  onRun (fun now => plgCommand now gr .stop) s

/-- A write of GR_PLG_FEED (R298): a value above 2.0 is ignored with CMD_REFUSED. -/
def plgFeedOp (now g v : Nat) (b : Block) : Block :=
  if 0x80000000 < v then b.plgUpd g fun p => { p with refused := true }
  else plgCommand now g (.feed v) (setReg (0x30014 + 0x40 * g) 0x40000000 (BitVec.ofNat 32 v) b)

/-- PLG_FEED_WRITE (R298). -/
def execPlgFeedWrite (gr : Fin 8) (v : Word) (s : State) : Host.Outcome State Fault Refusal :=
  onRun (fun now => plgFeedOp now gr v.toNat) s

/-- PLG_MEMBER_EVENT (R304): the hub registers an event that is on its way. -/
def execPlgMemberEvent (gr : Fin 8) (s : State) : Host.Outcome State Fault Refusal :=
  onRun (fun now b => if (b.plgAt gr).evSent then b.plgUpd gr fun p => { p with evSent := false, ev := firstOf p.ev now } else b) s

/-! ### Clutches and cams -/

/-- CLUTCH_ENGAGE (R311). -/
def execClutchEngage (t : Fin 8) (j : Fin 16) (s : State) : Host.Outcome State Fault Refusal :=
  onTile t (fun now => clutchEngageOp now t j) s

/-- CLUTCH_DISENGAGE (R311). -/
def execClutchDisengage (t : Fin 8) (j : Fin 16) (s : State) : Host.Outcome State Fault Refusal :=
  onTile t (fun now b => b.followUpd t j fun f => { f with cl := clDisengage now f.cl }) s

/-- CLUTCH_ZERO (R312). -/
def execClutchZero (t : Fin 8) (j : Fin 16) (s : State) : Host.Outcome State Fault Refusal :=
  onTile t (fun now => clutchZeroOp now t j) s

/-- REMOTE_MASTER_VALUE (R308). -/
def execRemoteMasterValue (t : Fin 8) (x : Fin 8) (s : State) : Host.Outcome State Fault Refusal :=
  onTile t (fun _ => xmDeliver x t none) s

/-- CAM_SEAL (R315). -/
def execCamSeal (t : Fin 8) (j : Fin 16) (s : State) : Host.Outcome State Fault Refusal :=
  onTile t (fun _ b => if slotTy b t j = .unused then b else b.followUpd t j fun f => { f with cam := camSeal f.cam }) s

/-- CAM_SEAL_DONE (R315). -/
def execCamSealDone (t : Fin 8) (j : Fin 16) (s : State) : Host.Outcome State Fault Refusal :=
  onTile t (fun now b => if (b.followAt t j).cam.shadow = .fetching then camSealDoneOp now t j b else b) s

/-- CAM_UNSEAL (R315). -/
def execCamUnseal (t : Fin 8) (j : Fin 16) (s : State) : Host.Outcome State Fault Refusal :=
  onTile t (fun _ b => b.followUpd t j fun f => { f with cam := camUnseal f.cam }) s

/-- CAM_RESELECT (R317). -/
def execCamReselect (t : Fin 8) (j : Fin 16) (s : State) : Host.Outcome State Fault Refusal :=
  onTile t (fun now b => b.followUpd t j fun f => { f with cam := camReselect now f.cam }) s

/-- CAM_FETCH_ARRIVAL (R318). -/
def execCamFetchArrival (t : Fin 8) (j : Fin 16) (s : State) : Host.Outcome State Fault Refusal :=
  onTile t (fun _ => camFetch t j) s

/-! ### Compares -/

/-- CMP_ARM (R321). -/
def execCmpArm (t : Fin 8) (c : Fin 4) (s : State) : Host.Outcome State Fault Refusal :=
  onTile t (fun now => cmpArmOp now t c) s

/-- CMP_DISARM (R322). -/
def execCmpDisarm (t : Fin 8) (c : Fin 4) (s : State) : Host.Outcome State Fault Refusal :=
  onTile t (fun _ b => b.cmpUpd t c cmpDisarm) s

/-- CMP_CLEAR (R322). -/
def execCmpClear (t : Fin 8) (c : Fin 4) (s : State) : Host.Outcome State Fault Refusal :=
  onTile t (fun _ b => b.cmpUpd t c cmpClear) s

/-- COMPARE_PULSE_END (R322). -/
def execComparePulseEnd (t : Fin 8) (c : Fin 4) (s : State) : Host.Outcome State Fault Refusal :=
  onTile t (fun now b => b.cmpUpd t c (cmpPulseEnd now)) s

/-! ### Networked axes -/

/-- NX_ENABLE (R325). -/
def execNxEnable (t : Fin 8) (j : Fin 8) (s : State) : Host.Outcome State Fault Refusal :=
  onTile t (fun now => nxEnableOp now t (8 + j)) s

/-- NX_DISABLE (R326). -/
def execNxDisable (t : Fin 8) (j : Fin 8) (s : State) : Host.Outcome State Fault Refusal :=
  onTile t (fun now => nxDisableOp now t (8 + j)) s

/-- NX_ENABLE_TIMEOUT (R325). -/
def execNxEnableTimeout (t : Fin 8) (j : Fin 8) (s : State) : Host.Outcome State Fault Refusal :=
  onTile t (fun now => nxEnExpire now t (8 + j)) s

/-- NX_DISABLE_TIMEOUT (R326). -/
def execNxDisableTimeout (t : Fin 8) (j : Fin 8) (s : State) : Host.Outcome State Fault Refusal :=
  onTile t (fun now => nxOffExpire now t (8 + j)) s

/-- The oldest relayed feedback record of a slot is registered at its tile (R323, R324). -/
def nxFeedback (t i : Nat) (b : Block) : Block :=
  match (b.blnxAt (8 * t + i)).relay with
  | [] => b
  | f :: r =>
    spineServe (pktFb b (8 * t + i) f.at_) (fun b =>
      (b.blnxUpd (8 * t + i) fun x => { x with relay := r }).nxUpd t i fun n =>
        { n with fb := { pos := f.pos, vel := f.vel, t := f.tf, ready := bit f.status 0, enabled := bit f.status 1, fault := bit f.status 2 } }) b

/-- NX_FEEDBACK_RECEIVED (R323). -/
def execNxFeedbackReceived (t : Fin 8) (j : Fin 8) (s : State) : Host.Outcome State Fault Refusal :=
  onTile t (fun _ => nxFeedback t j) s

/-- The oldest set-point on its way reaches the hub (R46, R48). -/
def nxAtHub (now k : Nat) (b : Block) : Block :=
  match (b.blnxAt k).fly with
  | [] => b
  | f :: l => spineServe (pktNx k f.1) (fun b => b.blnxUpd k fun x => { x with fly := l, newer := x.newer ++ [(now, f.2)] }) b

/-- NX_SETPOINT_AT_HUB (R48). -/
def execNxSetpointAtHub (t : Fin 8) (j : Fin 8) (s : State) : Host.Outcome State Fault Refusal :=
  onTile t (fun now => nxAtHub now (8 * t + j)) s

end Sys2Proof.Machine
end

