-- ==== Sys2Proof/Machine/Groups.lean ====
section
/-! DEFINITION. Commands of rate groups, set-point inputs, gain schedules and control modes (chapters 02 and 04). -/

namespace Sys2Proof.Machine

/-! ### Rate groups -/

/-- SAMPLE_INSTANT (R56): a group due at the present tick that has not been sampled at it. -/
def execSampleInstant (t : Fin 8) (g : Fin 4) (s : State) : Host.Outcome State Fault Refusal :=
  onTile t (fun now => sampleGroup now t g) s

/-- APPLY_INSTANT (R57, R72): the frame of the group whose apply instant is the present tick. -/
def execApplyInstant (t : Fin 8) (g : Fin 4) (s : State) : Host.Outcome State Fault Refusal :=
  onPowered t (fun now => applyGroup now t g) s

/-- FRAME_COMPLETE (R57, R71): the self-timed computation of the oldest frame in work completes. -/
def execFrameComplete (t : Fin 8) (g : Fin 4) (s : State) : Host.Outcome State Fault Refusal :=
  onPowered t (fun now => completeFrame now t g) s

/-- TL_GRP_CLEAR (R71). -/
def execTlGrpClear (t : Fin 8) (mask : BitVec 4) (s : State) : Host.Outcome State Fault Refusal :=
  onTile t (fun _ => grpClear t mask.toNat) s

/-! ### Set-point inputs -/

/-- The oldest set-point on its way to an input is registered (R24 to R26, R77 to R79). -/
def spArrive (now t n : Nat) (b : Block) : Block :=
  match b.spFly.find? fun e => decide (e.dst = 32 * t + n) with
  | some e => spineServe (pktSp e) (fun x => spRegister now t n e.apply e.val { x with spFly := x.spFly.erase e }) b
  | none => b

/-- SETPOINT_RECEIVED (R78). -/
def execSetpointReceived (t : Fin 8) (n : Fin 32) (s : State) : Host.Outcome State Fault Refusal :=
  onTile t (fun now => spArrive now t n) s

/-- SETPOINT_TAKES_EFFECT (R79). -/
def execSetpointTakesEffect (t : Fin 8) (n : Fin 32) (s : State) : Host.Outcome State Fault Refusal :=
  onTile t (fun now => spEffect now t n) s

/-- EXTRAPOLATION_START (R80). -/
def execExtrapolationStart (t : Fin 8) (n : Fin 32) (s : State) : Host.Outcome State Fault Refusal :=
  onTile t (fun now => spExtrapolate now t n) s

/-- LATE_SETPOINT_FAULT (R82). -/
def execLateSetpointFault (t : Fin 8) (n : Fin 32) (s : State) : Host.Outcome State Fault Refusal :=
  onTile t (fun now => spFault now t n) s

/-! ### Gain schedules -/

/-- SCHED_SEAL (R157). -/
def execSchedSeal (t : Fin 8) (sc : Fin 8) (s : State) : Host.Outcome State Fault Refusal :=
  onTile t (fun _ b => b.schedUpd t sc schedSeal) s

/-- SCHED_SEAL_DONE (R157). -/
def execSchedSealDone (t : Fin 8) (sc : Fin 8) (s : State) : Host.Outcome State Fault Refusal :=
  onTile t (fun now => schedSealDoneOp now t sc) s

/-- SCHED_UNSEAL (R159). -/
def execSchedUnseal (t : Fin 8) (sc : Fin 8) (s : State) : Host.Outcome State Fault Refusal :=
  onTile t (fun _ b => b.schedUpd t sc schedUnseal) s

/-- SCHED_RESELECT (R158). -/
def execSchedReselect (t : Fin 8) (sc : Fin 8) (s : State) : Host.Outcome State Fault Refusal :=
  onTile t (fun now b => b.schedUpd t sc (schedReselect now)) s

/-! ### Control modes -/

/-- A write of CE_MODE with NOW (R164). -/
def modeNowOp (now t j mode : Nat) (b : Block) : Block :=
  modeRequest now t j mode 0 false (b.modeUpd t j fun m => { m with modeField := mode })

/-- A write of CE_MODE without NOW: ARMED arms for CE_MODE_AT, ARMED clear cancels a request still armed (R164). -/
def modeArmOp (now t j mode : Nat) (armed : Bool) (b : Block) : Block :=
  let b := b.modeUpd t j fun m => { m with modeField := mode }
  if armed then
    modeRequest now t j mode (truncTick (Fld.CE_MODE_AT_HI_TICK b.cfg t j * 2 ^ 32 + Fld.CE_MODE_AT_LO_TICK b.cfg t j)) true b
  else
    b.modeUpd t j fun m =>
      match m.req with
      | some r => if r.armed then { m with req := none } else m
      | none => m

/-- MODE_NOW (R164). -/
def execModeNow (t : Fin 8) (j : Fin 16) (mode : BitVec 2) (s : State) : Host.Outcome State Fault Refusal :=
  onTile t (fun now => modeNowOp now t j mode.toNat) s

/-- MODE_ARM (R164). -/
def execModeArm (t : Fin 8) (j : Fin 16) (armed : Bool) (mode : BitVec 2) (s : State) : Host.Outcome State Fault Refusal :=
  onTile t (fun now => modeArmOp now t j mode.toNat armed) s

end Sys2Proof.Machine
end

