-- ==== Sys2Proof/Machine/NetworkTimeRows.lean ====
section
/-! DEFINITION. Commands of network time, timed event units and PTP (chapter 12). -/

namespace Sys2Proof.Machine

/-- NT_RATE_WRITE (R449): the advance into the next tick reads the new rate. -/
def execNtRateWrite (v : Word) (s : State) : Host.Outcome State Fault Refusal := onRun (fun _ => setReg 0x6000C 0 v) s

/-- NT_CTRL.STEP (R451). -/
def ntStepReq (now : Nat) (b : Block) : Block :=
  let amt := signed 64 (Fld.NT_STEP_HI_AMOUNT b.cfg * 2 ^ 32 + Fld.NT_STEP_LO_AMOUNT b.cfg)
  { b with nt := { b.nt with steps := b.nt.steps ++ [(now, amt)] } }

/-- NT_STEP (R451). -/
def execNtStep (s : State) : Host.Outcome State Fault Refusal := onRun ntStepReq s

/-- The steps registered before `now` take effect (R451). -/
def ntStepsAt (now : Nat) (b : Block) : Block := { b with nt := (ntSteps now b.nt).1 }

/-- The units that a step at `now` affects (R459). -/
def teStepAll (now : Nat) (b : Block) : Block :=
  if decide (b.nt.stepTick = now) && decide (b.nt.stepAmt ≠ 0) then once 200 (forN 32 fun u x => x.teUpd u (teStepped x.nt)) b else b

/-- A firing of a unit, with its action on its land (R458). -/
def teFireAt (now u : Nat) (b : Block) : Block :=
  let x := b.teAt u
  if teDue b.nt now x then
    let (l, ov) := teAct now x (b.teoAt x.land_)
    (b.teoUpd x.land_ fun _ => l).teUpd u fun y => let y := teFired b.nt now y; { y with overlap := y.overlap || ov }
  else b

/-- Everything a unit does in step 4 of R11: an ARM takes effect, an occurrence that is due fires. -/
def teTick (now u : Nat) (b : Block) : Block := teFireAt now u (b.teUpd u (teArmed b.nt now))

/-- NT_STEP_EFFECT (R451, R459). -/
def execNtStepEffect (s : State) : Host.Outcome State Fault Refusal :=
  onRun (fun now b =>
    let due := b.nt.steps.any fun x => decide (x.1 < now)
    if due then forN 32 (fun u => teFireAt now u) (teStepAll now (ntStepsAt now b)) else b) s

/-- NT_CAPTURE (R454): the capture latches at the next tick. -/
def execNtCapture (s : State) : Host.Outcome State Fault Refusal :=
  onRun (fun now b => { b with nt := { b.nt with cap := some now } }) s

/-- The configuration registers of a unit (R456). -/
def teCfg (b : Block) (u : Nat) : Te :=
  let t := Fld.NT_EV_T_HI_T b.cfg u * 2 ^ 32 + Fld.NT_EV_T_LO_T b.cfg u
  let net := Fld.NT_EV_CFG_BASE b.cfg u
  { net := net, mode := Fld.NT_EV_CFG_MODE b.cfg u, act := Fld.NT_EV_CFG_ACT b.cfg u, land_ := Fld.NT_EV_CFG_LAND b.cfg u
    tile := Fld.NT_EV_CFG_TILE b.cfg u, cmp := Fld.NT_EV_CFG_CMP b.cfg u, t := if net then t else truncTick t
    per := 10 * max 1 (Fld.NT_EV_PER_VALUE b.cfg u), width := max 1 (Fld.NT_EV_WIDTH_VALUE b.cfg u) }

/-- TE_ARM (R456, R457). -/
def execTeArm (u : Fin 32) (s : State) : Host.Outcome State Fault Refusal :=
  onRun (fun now b => b.teUpd u (Sys2Proof.Machine.teArm now (teCfg b u))) s

/-- TE_DISARM (R456). -/
def execTeDisarm (u : Fin 32) (s : State) : Host.Outcome State Fault Refusal :=
  onRun (fun _ b => b.teUpd u fun x => { x with armed := false, arming := none }) s

/-- TIMED_EVENT_FIRE (R457, R458). -/
def execTimedEventFire (u : Fin 32) (s : State) : Host.Outcome State Fault Refusal := onRun (fun now => teTick now u) s

/-- The width of a land's pulse ends (R458). -/
def teoEnd (now k : Nat) (b : Block) : Block :=
  b.teoUpd k fun l =>
    match l.pulseEnd with
    | some e => if e ≤ now then { active := false, pulseEnd := none } else l
    | none => l

/-- TEO_PULSE_END (R458). -/
def execTeoPulseEnd (k : Fin 8) (s : State) : Host.Outcome State Fault Refusal := onRun (fun now => teoEnd now k) s

/-- A firing on its way to a CAPTURE unit is recorded (R460). -/
def captureAt (now u : Nat) (b : Block) : Block :=
  match b.nt.fly.find? fun f => decide (f.1 = u) with
  | some f => ({ b with nt := { b.nt with fly := b.nt.fly.erase f } }).teUpd u fun x => if x.armed && decide (x.mode = 2) then teCapture b.nt now f.2 x else x
  | none => b

/-- CAPTURE_RECORD (R460). -/
def execCaptureRecord (u : Fin 32) (s : State) : Host.Outcome State Fault Refusal := onRun (fun now => captureAt now u) s

/-- PTP_RX (R461, R462): `stamp` is taken at the RGMII interface. -/
def execPtpRx (m : Fin 2) (stamp : Nat) (frame : List Byte) (s : State) : Host.Outcome State Fault Refusal :=
  onRun (fun now b =>
    if Fld.NT_PTP_CFG_EN b.cfg m then b.ptpUpd m (ptpReceive b.nt now (stamp - Fld.NT_PTP_CFG_RXLAT b.cfg m) frame) else b) s

/-- PTP_TX (R463): the oldest queued frame leaves with the egress stamp `stamp` of the RGMII interface. -/
def execPtpTx (m : Fin 2) (stamp : Nat) (s : State) : Host.Outcome State Fault Refusal :=
  onRun (fun now b => b.ptpUpd m (ptpSend b.nt now (stamp + Fld.NT_PTP_CFG_TXLAT b.cfg m))) s

/-- PTP_TS_POP (R463). -/
def execPtpTsPop (m : Fin 2) (s : State) : Host.Outcome State Fault Refusal :=
  onRun (fun _ b => b.ptpUpd m fun x => { x with ts := x.ts.drop 1 }) s

end Sys2Proof.Machine
end

