-- ==== Sys2Proof/Machine/Profiles.lean ====
section
/-! DEFINITION. Commands of profile generators and pulse-train axes (chapter 07). A pulse slot is numbered 0 to 3 in a command; its slot is 4 to 7. -/

namespace Sys2Proof.Machine

/-! ### Generators -/

/-- PG_START (R265, R300). -/
def execPgStart (t : Fin 8) (j : Fin 16) (s : State) : Host.Outcome State Fault Refusal :=
  onTile t (fun now => genStart now t j) s

/-- PG_STOP (R267, R269, R300). -/
def execPgStop (t : Fin 8) (j : Fin 16) (s : State) : Host.Outcome State Fault Refusal :=
  onTile t (fun now => genStopCmd now t j) s

/-- PG_HOME (R287, R300). -/
def execPgHome (t : Fin 8) (j : Fin 16) (s : State) : Host.Outcome State Fault Refusal :=
  onTile t (fun now => genHome now t j) s

/-- PG_SEAL (R260). -/
def execPgSeal (t : Fin 8) (j : Fin 16) (s : State) : Host.Outcome State Fault Refusal :=
  onTile t (fun _ b => if hasGen b t j then b.genUpd t j pgSeal else b) s

/-- PG_SEAL_DONE (R260). -/
def execPgSealDone (t : Fin 8) (j : Fin 16) (s : State) : Host.Outcome State Fault Refusal :=
  onTile t (fun now => genSealDone now t j) s

/-- PG_UNSEAL (R264, R301). -/
def execPgUnseal (t : Fin 8) (j : Fin 16) (s : State) : Host.Outcome State Fault Refusal :=
  onTile t (fun now => genUnseal now t j) s

/-- PREFETCH_ARRIVAL (R258). -/
def execPrefetchArrival (t : Fin 8) (j : Fin 16) (s : State) : Host.Outcome State Fault Refusal :=
  onTile t (fun _ b => if (b.genAt t j).fetch = 0 then b else spineServe (pktTable t (b.genAt t j).fetchAt) (genPrefetch t j) b) s

/-- HOMING_TIMEOUT (R292). -/
def execHomingTimeout (t : Fin 8) (j : Fin 16) (s : State) : Host.Outcome State Fault Refusal :=
  onTile t (fun now => genHomeTimeout now t j) s

/-! ### Pulse-train axes -/

/-- The tick's advance of a phase accumulator (R273, R280), once per tick. -/
def pulseAdvanceAt (now t i : Nat) (b : Block) : Block :=
  if slotTy b t (4 + i) = .pulse then b.pulseUpd t i (pulseAdvance (pulseCfg b t (4 + i)) now) else b

/-- The end of a STEP pulse (R277, R280). -/
def pulseFallAt (now t i : Nat) (b : Block) : Block :=
  if slotTy b t (4 + i) = .pulse then b.pulseUpd t i (pulseFall (pulseCfg b t (4 + i)) now) else b

/-- The issue of a pulse whose conditions are met (R277, R278, R319). -/
def pulseIssueAt (now t i : Nat) (b : Block) : Block :=
  if slotTy b t (4 + i) = .pulse then
    let p := b.pulseAt t i
    let p' := pulseIssue (pulseCfg b t (4 + i)) now p
    let b := b.pulseUpd t i fun _ => p'
    if p'.held.length < p.held.length then cmpPulse now t (4 + i) b else b
  else b

/-- IMMEDIATE_STOP (R269, R271). -/
def execImmediateStop (t : Fin 8) (j : Fin 4) (s : State) : Host.Outcome State Fault Refusal :=
  onTile t (fun now => pulseHaltAt now t (4 + j)) s

/-- PULSE_DUE (R273). -/
def execPulseDue (t : Fin 8) (j : Fin 4) (s : State) : Host.Outcome State Fault Refusal :=
  onTile t (fun now => pulseAdvanceAt now t j) s

/-- PULSE_ISSUE (R277). -/
def execPulseIssue (t : Fin 8) (j : Fin 4) (s : State) : Host.Outcome State Fault Refusal :=
  onTile t (fun now => pulseIssueAt now t j) s

/-- STEP_PULSE_END (R277). -/
def execStepPulseEnd (t : Fin 8) (j : Fin 4) (s : State) : Host.Outcome State Fault Refusal :=
  onTile t (fun now => pulseFallAt now t j) s

/-- PG_AX_ENABLE (R281). -/
def execPgAxEnable (t : Fin 8) (j : Fin 4) (s : State) : Host.Outcome State Fault Refusal :=
  onTile t (fun now => pulseEnable now t (4 + j)) s

/-- PG_AX_DISABLE (R281). -/
def execPgAxDisable (t : Fin 8) (j : Fin 4) (s : State) : Host.Outcome State Fault Refusal :=
  onTile t (fun now => pulseDisable now t (4 + j)) s

/-- Everything of a pulse axis at a tick, in order: accumulator, immediate stop, end of a pulse, issue. -/
def pulseTick (now t i : Nat) (b : Block) : Block :=
  pulseIssueAt now t i (pulseFallAt now t i (pulseHaltAt now t (4 + i) (pulseAdvanceAt now t i b)))

end Sys2Proof.Machine
end

