-- ==== Sys2Proof/Machine/ReadRegs.lean ====
section
/-! DEFINITION. What the registers read (R7, R8): the read-only and write-1-to-clear fields of every register, composed from the units' state, and the latches of the _HI registers. -/

namespace Sys2Proof.Machine

/-! ### Fields -/

/-- A value in a field of `w` bits at `lo`. -/
def fld (v lo w : Nat) : Nat := v % 2 ^ w * 2 ^ lo

/-- The low and the high word of a 64-bit value. -/
def lo32 (v : Nat) : Nat := v % 2 ^ 32
def hi32 (v : Nat) : Nat := v / 2 ^ 32 % 2 ^ 32

/-- A signed value as a pattern of `w` bits. -/
def pat (w : Nat) (v : Int) : Nat := (v % 2 ^ w).toNat

/-! ### Codes of states -/

def shadowCode (s : Shadow) : Nat := match s with | .empty => 0 | .fetching => 1 | .sealed => 2
def axStCode (s : AxSt) : Nat :=
  match s with | .disabled => 0 | .precharge => 1 | .enabled => 2 | .disabling => 3 | .aligning => 4 | .faultHold => 5 | .sto => 6
def pgStCode (s : PgSt) : Nat := match s with | .idle => 0 | .running => 1 | .stopping => 2 | .homing => 3
def homeStCode (s : HomeSt) : Nat :=
  match s with | .off => 0 | .search => 1 | .searchRev => 2 | .backoff => 3 | .creep => 4 | .index => 5 | .settle => 6
def homeResCode (r : HomeRes) : Nat :=
  match r with | .none => 0 | .done => 1 | .limit => 2 | .limitBoth => 3 | .timeout => 4 | .aborted => 5 | .noIndex => 6 | .refused => 7 | .fault => 8
def paStCode (s : PaSt) : Nat := match s with | .disabled => 0 | .enabled => 1 | .disabling => 2
def plgStCode (s : PlgSt) : Nat := match s with | .idle => 0 | .running => 1 | .holding => 2 | .held => 3 | .stopping => 4
def clStCode (s : ClSt) : Nat :=
  match s with | .disengaged => 0 | .armed => 1 | .engaging => 2 | .engaged => 3 | .armedOff => 4 | .disengaging => 5
def nxStCode (s : NxSt) : Nat := match s with | .disabled => 0 | .enabling => 1 | .enabled => 2 | .disabling => 3 | .faultStop => 4
def sqStCode (s : SqSt) : Nat := match s with | .halted => 0 | .running => 1 | .waiting => 2 | .fault => 3
def sqCauseCode (c : Option SqFault) : Nat :=
  match c with
  | none => 0
  | some .illegal => 1
  | some .repBody => 2
  | some .stack => 3
  | some .codeWrite => 4
  | some .fetch => 5
  | some .brev => 6
def aqStCode (s : AqSt) : Nat := match s with | .idle => 0 | .armed => 1 | .triggered => 2 | .rearming => 3 | .stopping => 4
def netStCode (s : NetSt) : Nat := match s with | .stopped => 0 | .listen => 1 | .run => 2
def blStCode (s : BlSt) : Nat :=
  match s with | .off => 0 | .listen => 1 | .integrating => 2 | .run => 3 | .blocked => 4 | .stopping => 5
def connStCode (s : ConnSt) : Nat := match s with | .off => 0 | .starting => 1 | .run => 2
def sessStCode (s : SessSt) : Nat := match s with | .closed => 0 | .handshake => 1 | .open_ => 2
def stStCode (s : StSt) : Nat := match s with | .idle => 0 | .accepted => 0 | .saving => 1 | .running => 2 | .restoring => 3

/-- CM_STATUS.STATE. -/
def cmStCode (c : Commit) : Nat :=
  match c.ph with
  | .checking => 2
  | .accepted => if c.prepared = c.dies then 4 else 3
  | .go => 5
  | .idle => if c.owner.isSome then 1 else 0

/-- SF_AX_STATE.STATE. -/
def sfAxCode (x : SfAx) : Nat :=
  if x.react.isSome then 3 else if x.stop.isSome then 2
  else if decide (x.bt.st ≠ .idle) && decide (x.bt.st ≠ .requested) then 4 else if x.permit then 1 else 0

/-! ### Derived values -/

/-- The bytes of an event-log entry (R601). -/
def logBytes (e : LogEntry) : List Byte :=
  let h := leBytes 4 e.seq ++ leBytes 4 e.boot ++ leBytes 8 e.lattice ++ leBytes 4 e.rtc ++ leBytes 2 e.code ++ leBytes 1 e.source ++ leBytes 1 e.count ++ leBytes 4 e.data
  h ++ leBytes 4 (crc32 h)

/-- Station address of a MAC (R611): six bytes, none in BLANK. -/
def macBytes (b : Block) (m : Nat) : List Byte :=
  if b.nv.life = .blank then List.replicate 6 0
  else
    let d := deviceId b
    leBytes 1 2 ++ slice d 0 4 ++ leBytes 1 (leAt d 4 1 / 2 * 2 + m)

/-- The matrix counter (R408). -/
def matrixCount (now : Nat) (b : Block) : Nat := if b.net.st = .run then (blCycleAt b.net (blNow b.net) now).2.2 else b.net.ctr0

/-- Whole ticks of τ of a pleached group: its members run on one τ (R295); 0 without a member. -/
def plgTau (b : Block) (g : Nat) : Nat :=
  match plgMembers b g with
  | p :: _ => (b.genAt p.1 p.2).run.tau / 2 ^ 32
  | [] => 0

/-- Whole units left to a tick, 0 when it has come. -/
def leftOf (now unit : Nat) (o : Option Nat) : Nat := match o with | some t => (t - now) / unit | none => 0

/-- The context is in use and emits its output (CE_LOOP_STATUS.ACTIVE, R163). -/
def ctxActive (b : Block) (t c : Nat) : Bool :=
  decide (Fld.CE_LOOP_ALLOC_NSEC b.cfg t c ≠ 0) &&
    (!alternative b t c || decide (Fld.CE_LOOP_OUT_MODE b.cfg t c = (b.modeAt t (Fld.CE_LOOP_ALLOC_SLOT b.cfg t c)).active))

/-! ### Read-only and write-1-to-clear fields, register by register -/

/-- Chapters 02 and 03; `i` and `j` are the indices in order. -/
def ro02 (now : Nat) (b : Block) (r : RegId) (i j : Nat) : Nat :=
  match r with
  | .TL_LATTICE_LO => lo32 now
  | .TL_LATTICE_HI => hi32 now
  | .TL_STATUS => fld b.run.refSrc 4 1 + flag b.refLost 3 + flag b.paceChanging 2 + fld b.paceNow 0 2
  | .TL_GRP_SLACK => let g := b.grpAt i j; fld g.minSlack 16 16 + fld g.lastSlack 0 16
  | .TL_GRP_MISS => let g := b.grpAt i j; fld g.consec 24 8 + fld g.lastCtx 16 5 + fld g.count 0 16
  | .TL_GRP_LASTMISS => lo32 (b.grpAt i j).lastMiss
  | .TL_SP_STATUS =>
    let s := b.spAt i j
    fld s.lateArrival 24 8 + fld s.stale 16 8 + flag s.lateFault 4 + flag s.overrun 3 + flag s.extrapolating 2 + min 3 s.queue.length
  | .ID_REV => idRev b
  | .CM_STATUS =>
    fld b.run.settingsSrc 30 2 + fld b.cm.staged.length 16 13 + fld (b.cm.owner.getD 0) 12 3 + flag b.cm.image.isSome 11 + cmStCode b.cm
  | .CM_RESULT => fld b.cm.item 16 16 + fld b.cm.tile 12 4 + fld b.cm.detail 8 4 + fld b.cm.code 0 8
  | .CM_ACCEPTED => lo32 b.cm.acceptAt
  | .CM_APPLIED => lo32 b.cm.appliedAt
  | .CM_PEEK_STAT => flag (b.cm.staged.any fun e => decide (e.1 = (tabGet 0 b.cfg (regAddr .CM_PEEK_ADDR [])).toNat)) 0
  | .CM_STORE =>
    match newestCopy b with
    | some k => fld (copyAt b k).seq 8 24 + fld k 4 1 + fld b.storeSt 0 3
    | none => fld b.storeSt 0 3
  | .IMG_SLOT_STATUS =>
    let s := slotAt b.nv i
    fld (slotVersion s) 8 24 + flag s.trialBooted 3 + flag s.trial 2 + flag (b.run.on && decide (b.run.slot = some i)) 1 + flag s.valid 0
  | .IMG_RESULT => flag b.cm.imgDone 8 + fld b.cm.imgCode 0 8
  | .IMG_ACTIVE_ID => leAt b.run.id (4 * i) 4
  | _ => 0

/-- Chapter 04. -/
def ro04 (b : Block) (r : RegId) (t i : Nat) : Nat :=
  match r with
  | .CE_LOOP_STATUS =>
    let c := b.ctxAt t i
    let noTable := Fld.CE_LOOP_ALLOC_SCHED_EN b.cfg t i && (b.schedAt t (Fld.CE_LOOP_ALLOC_SCHED b.cfg t i)).active.isNone
    flag c.blending 9 + flag (ctxActive b t i) 8 + flag c.ramping 7 + flag c.limited 6 + flag noTable 5 + flag c.limSeen 1 + flag c.sat 0
  | .CE_LOOP_OUTVAL => (b.ctxAt t i).out.toNat
  | .CE_LOOP_ERR_M => (b.ctxAt t i).errM.toNat
  | .CE_LOOP_ERR_E => pat 6 (b.ctxAt t i).errE
  | .CE_SEC_STAT => let s := b.secAt t i; fld (pat 6 s.e) 8 6 + flag s.sat 0
  | .CE_SCHED_STATUS =>
    let s := b.schedAt t i
    fld s.swaps 16 16 + flag s.sealErr 12 + fld (shadowCode s.shadow) 10 2 + fld (s.active.getD 0) 9 1 + flag (decide (s.k ≠ 0)) 8 + fld s.region 0 4
  | .CE_SCHED_VAR => pat 32 (b.schedAt t i).v
  | .CE_MODE =>
    let m := b.modeAt t i
    let armed := match m.req with | some q => q.armed | none => false
    fld m.active 12 2 + flag m.modeErr 10 + flag m.req.isSome 8 + flag armed 4 + fld m.modeField 0 2
  | _ => 0

/-- Chapter 05. -/
def ro05 (b : Block) (r : RegId) (t j k : Nat) : Nat :=
  let a := b.natAt t j
  match r with
  | .AX_STATE => flag a.enRefused 15 + flag a.enPending 14 + axStCode a.st
  | .AX_TRIP => flag a.trips.sdStuck 4 + flag a.trips.sum 3 + flag a.trips.oc 2 + flag a.trips.df 1 + flag a.trips.dfLevel 0
  | .AX_STATUS => flag a.aligned 3 + flag a.meas.vbusLow 2 + flag a.meas.vlimited 1 + flag a.edgeCoarse 0
  | .AX_ALIGN_RES => a.alignRes.toNat
  | .AX_STEP_STAT => flag a.step.holding 3 + fld a.step.level 0 3
  | .AX_MEAS_ID => a.meas.id.toNat
  | .AX_MEAS_IQ => a.meas.iq.toNat
  | .AX_MEAS_ANGLE => a.meas.angle.toNat
  | .AX_MEAS_VBUS => a.meas.vbus.toNat
  | .AX_DUTY => lo32 (a.meas.duty.getD k 0)
  | _ => 0

/-- The oldest entry of a probe FIFO; the reset values when it holds none. -/
def prbHead (p : Prb) : PrbEntry := p.fifo.headD {}

/-- Chapter 06. -/
def ro06 (b : Block) (r : RegId) (t i : Nat) : Nat :=
  let q := b.qdAt t i
  let p := b.prbAt t i
  match r with
  | .QD_POS_LO => lo32 q.posL.toNat
  | .QD_POS_HI => hi32 q.posL.toNat
  | .QD_RAW_LO => lo32 (pat 64 q.raw)
  | .QD_RAW_HI => hi32 (pat 64 q.raw)
  | .QD_SPEED_LO => lo32 q.spdL.toNat
  | .QD_SPEED_HI => hi32 q.spdL.toNat
  | .QD_STATUS =>
    flag q.fb.on 9 + flag q.standstill 8 + flag q.armed.isSome 7 + flag q.idxSeen 6 + fld (if q.d = 0 then 0 else if 0 < q.d then 1 else 2) 4 2
      + flag q.a 2 + flag q.b 1 + flag q.z 0
  | .QD_FAULT => flag q.flt.freeze 3 + flag q.flt.rx 2 + flag q.flt.illegal 1 + flag q.flt.rxLevel 0
  | .QD_ILL_CNT => fld q.flt.illTotal 16 16 + fld q.flt.illLeaky 0 8
  | .QD_IDX_TS_LO => lo32 q.idxTs
  | .QD_IDX_TS_HI => hi32 q.idxTs
  | .QD_IDX_POS_LO => lo32 q.idxPos.toNat
  | .QD_IDX_POS_HI => hi32 q.idxPos.toNat
  | .QD_POS_OFS_LO => lo32 q.posOfs.toNat
  | .QD_POS_OFS_HI => hi32 q.posOfs.toNat
  | .QD_PRB_STAT => fld p.fifo.length 16 5 + fld p.lost 8 8 + flag p.ovf 1 + flag (prbHead p).rising 0
  | .QD_PRB_TS_LO => lo32 (prbHead p).ts
  | .QD_PRB_TS_HI => hi32 (prbHead p).ts
  | .QD_PRB_POS_LO => lo32 (prbHead p).pos.toNat
  | .QD_PRB_POS_HI => hi32 (prbHead p).pos.toNat
  | .QD_PRB_RAW => pat 32 (prbHead p).raw
  | _ => 0

/-- Chapter 07. -/
def ro07 (b : Block) (r : RegId) (t j : Nat) : Nat :=
  let g := b.genAt t j
  let p := b.pulseAt t j
  match r with
  | .PG_STATE =>
    fld (homeStCode g.hm.st) 28 4 + fld (homeResCode g.hm.res) 24 4 + flag g.req.startPending 15 + flag g.fl.startRefused 14 + flag g.uncertain 12
      + flag g.hm.homed 11 + flag g.hm.limPos 10 + flag g.hm.limNeg 9 + pgStCode g.st
  | .PG_EVENT => flag g.fl.faultStop 4 + flag g.fl.limitStop 3 + flag g.fl.hostStop 2 + flag g.fl.prefetchLate 1 + flag g.fl.starved 0
  | .PG_BANK =>
    fld g.swaps 16 16 + flag g.fl.absSkipped 13 + flag g.fl.sealErr 12 + fld (shadowCode g.shadow) 10 2 + fld (g.active.getD 0) 9 1 + fld g.fl.errCode 0 4
  | .PG_SEG => fld g.run.idx 8 24 + fld (min 32 g.bank.buf.length) 0 6
  | .PG_POS_LO => lo32 g.pos.toNat
  | .PG_POS_HI => hi32 g.pos.toNat
  | .PG_VEL_LO => lo32 g.vel.toNat
  | .PG_VEL_HI => hi32 g.vel.toNat
  | .PG_TAU_LO => lo32 (g.run.tau / 2 ^ 32)
  | .PG_TAU_HI => hi32 (g.run.tau / 2 ^ 32)
  | .PG_PULSE_STAT => fld p.level 16 2 + fld p.heldMax 8 8 + flag p.dirNeg 1 + flag p.rateLimit 0
  | .PG_ISSUED_LO => lo32 p.x.toNat
  | .PG_ISSUED_HI => hi32 p.x.toNat
  | .PG_VWORD_LO => lo32 (pat 64 p.w)
  | .PG_VWORD_HI => hi32 (pat 64 p.w)
  | .PG_AX_STATE => flag p.enRefused 15 + flag p.enPending 14 + paStCode p.st
  | _ => 0

/-- Chapter 08. A group register has one index; a networked slot's and a compare's index is its number. -/
def ro08 (b : Block) (r : RegId) (i j : Nat) : Nat :=
  let g := b.plgAt i
  let f := b.followAt i j
  let n := b.nxAt i j
  let c := b.cmpAt i j
  match r with
  | .GR_PLG_STATE =>
    flag g.refused 15 + flag g.mismatch 12 + flag g.sealed 11 + flag g.starved 10 + flag g.memberFault 9 + flag g.limitHold 8 + plgStCode g.st
  | .GR_PLG_FNOW => pat 32 g.f
  | .GR_PLG_TAU_LO => lo32 (plgTau b i)
  | .GR_PLG_TAU_HI => hi32 (plgTau b i)
  | .GR_CLUTCH_STATE => flag f.cl.refused 15 + flag f.cl.pending 14 + flag f.cl.masterLost 13 + clStCode f.cl.st
  | .GR_OFS_LO => lo32 (pat 64 f.cl.o)
  | .GR_OFS_HI => hi32 (pat 64 f.cl.o)
  | .GR_CAM_STATUS =>
    fld f.cam.swaps 16 16 + flag f.cam.late 14 + flag f.cam.starved 13 + flag f.cam.sealErr 12 + fld (shadowCode f.cam.shadow) 10 2 + fld (f.cam.active.getD 0) 9 1
  | .GR_NX_STATE =>
    flag n.enRefused 15 + flag n.enPending 14 + flag n.enTimeout 13 + flag n.offTimeout 12 + flag n.pFault 10 + flag n.pEnabled 9 + flag n.pReady 8 + nxStCode n.st
  | .GR_NX_FBAGE => n.age.toNat
  | .GR_CMP_STATUS => fld c.fires 16 16 + flag c.multi 5 + flag c.overlap 4 + flag c.behind 3 + flag c.armed 2 + flag c.land 1
  | .GR_CMP_TS_LO => lo32 c.ts
  | .GR_CMP_TS_HI => hi32 c.ts
  | .GR_CMP_NEXT_LO => lo32 (pat 64 c.c)
  | .GR_CMP_NEXT_HI => hi32 (pat 64 c.c)
  | _ => 0

/-- Chapters 09 and 10. -/
def ro09 (b : Block) (r : RegId) (t m : Nat) : Nat :=
  let s := b.seqAt t
  let u := b.aqAt t
  match r with
  | .SQ_STATUS => fld s.faultPc.toNat 16 16 + fld (sqCauseCode s.cause) 8 4 + flag s.evtLost 5 + flag s.sat 4 + sqStCode s.st
  | .SQ_EVT => fld s.r.even.toNat 16 16 + bitsOf 16 fun e => (tabFind s.ev e).isSome
  | .SQ_DISP_MAX => lo32 s.dispMax
  | .SQ_XFER_STAT => ((List.range 4).map fun c => let x := s.ch.toList.getD c {}; flag x.busy (4 * c + 3) + fld x.err (4 * c) 3).sum
  | .SQ_MB_STALE => s.mb.stale.toNat
  | .SQ_MBIN => (s.mb.inW.toList.getD m 0).toNat
  | .SQ_MBOUT => (s.mb.outW.toList.getD m 0).toNat
  | .AQ_STATUS =>
    fld u.slot 28 4 + fld u.ts.st 24 3 + flag u.pendArm 15 + flag u.armRefused 14 + flag u.shortPre 13 + flag u.fullFlag 12 + aqStCode u.st
  | .AQ_SLOTS => fld u.full 0 16
  | .AQ_MISSED => fld u.missed 0 16
  | .AQ_GAPS => lo32 u.gaps
  | .AQ_GAP_ROWS => lo32 u.gapRows
  | .AQ_ROWS => lo32 u.stored
  | .AQ_TRIG_LO => lo32 u.trigTick
  | .AQ_TRIG_HI => hi32 u.trigTick
  | .AQ_TCNT_VAL => fld u.ts.cnt1 16 16 + fld u.ts.cnt0 0 16
  | .AQ_HUB_STATUS => fld b.aqHub.set 16 8 + fld b.aqHub.refused 8 8 + flag b.aqHub.due.isSome 0
  | .AQ_HUB_TRIG_LO => lo32 (b.aqHub.last.getD 0)
  | .AQ_HUB_TRIG_HI => hi32 (b.aqHub.last.getD 0)
  | .AQ_HUB_TRIGSRC => fld b.aqHub.count 16 16 + fld b.aqHub.src 8 4
  | _ => 0

/-- Chapter 11. -/
def ro11 (now : Nat) (b : Block) (r : RegId) (p : Nat) : Nat :=
  let pt := b.blAt p
  let n := b.net
  match r with
  | .BL_MODE => fld n.mode 8 3 + flag (blAnnounces b now).isSome 4
  | .BL_NET_STATUS =>
    fld (bitsOf 8 fun m => (tabGet {} n.tables m).valid) 24 8 + fld n.qsPort 12 4 + flag n.qsExpired 9 + flag n.qsMismatch 8 + netStCode n.st
  | .BL_MATRIX_LO => lo32 (matrixCount now b)
  | .BL_MATRIX_HI => hi32 (matrixCount now b)
  | .BL_ANCHOR_LO => lo32 n.anchor
  | .BL_ANCHOR_HI => hi32 n.anchor
  | .BL_PORT_STATE =>
    flag pt.upB 17 + flag pt.upA 16 + flag pt.enRefused 15 + flag pt.enPending 14 + flag pt.ofs.drift 13 + flag pt.mack 12 + flag pt.key.ok 11 + blStCode pt.st
  | .BL_PORT_ERR => fld pt.errA 16 16 + fld pt.errB 0 16
  | .BL_PORT_GUARD => fld pt.blockedN 16 16 + fld pt.clipped 0 16
  | .BL_PORT_RED => fld pt.diff 16 16 + fld pt.single 0 16
  | .BL_PORT_MISC => fld pt.authFail 16 16 + fld pt.fwdDrop 8 8 + fld pt.spDrop 0 8
  | .BL_PORT_OFS => fld (pat 16 (satS 16 pt.ofs.last)) 16 16 + fld pt.ofs.maxAbs 0 16
  | .BL_PORT_OFS_MEAN => pat 32 pt.ofs.mean
  | .BL_PORT_DRIFT => pat 32 pt.ofs.ppb
  | .BL_PORT_RXID_LO => lo32 pt.rxid.toNat
  | .BL_PORT_RXID_HI => hi32 pt.rxid.toNat
  | .BL_PORT_DQ => fld pt.joinRefused 24 8 + fld pt.rxDrop 16 8 + fld (pt.fwdq.length + pt.hostq.length) 8 4 + fld pt.rxq.length 0 5
  | .BL_NX_STAT => let x := b.blnxAt p; flag x.lost 8 + fld x.misses 0 8
  | _ => 0

/-- Chapter 12. -/
def ro12 (b : Block) (r : RegId) (i : Nat) : Nat :=
  let u := b.teAt i
  let x := b.ptpAt i
  let h : PtpTs := x.ts.headD {}
  let m := b.blStampAt i
  match r with
  | .NT_NOW_LO => lo32 (ntNs b.nt)
  | .NT_NOW_HI => hi32 (ntNs b.nt)
  | .NT_FRAC => b.nt.now % 2 ^ 40 / 2 ^ 8
  | .NT_STATUS => fld b.nt.epoch 16 16 + flag b.nt.capDone 1 + flag b.nt.stepErr 0
  | .NT_CAP_LAT_LO => lo32 b.nt.capLat
  | .NT_CAP_LAT_HI => hi32 b.nt.capLat
  | .NT_CAP_NT_LO => lo32 b.nt.capNt
  | .NT_CAP_NT_HI => hi32 b.nt.capNt
  | .NT_LSTEP_TICK_LO => lo32 b.nt.stepTick
  | .NT_LSTEP_TICK_HI => hi32 b.nt.stepTick
  | .NT_LSTEP_AMT_LO => lo32 (pat 64 b.nt.stepAmt)
  | .NT_LSTEP_AMT_HI => hi32 (pat 64 b.nt.stepAmt)
  | .NT_CAP_EPOCH => fld b.nt.capEpoch 0 16
  | .NT_EV_STAT =>
    fld u.fires 16 16 + fld u.skipped 8 8 + flag u.span 4 + flag u.overlap 3 + flag u.stepped 2 + flag u.late 1 + flag (u.armed || u.arming.isSome) 0
  | .NT_EV_LAT_LO => lo32 u.lat
  | .NT_EV_LAT_HI => hi32 u.lat
  | .NT_EV_NT_LO => lo32 u.nt
  | .NT_EV_NT_HI => hi32 u.nt
  | .NT_EV_EPOCH => fld u.epoch 0 16
  | .NT_PTP_STAT => fld x.ts.length 24 5 + fld x.rx.length 16 6 + flag x.oneErr 2 + flag x.txOvf 1 + flag x.rxOvf 0
  | .NT_PTP_TS_ID => fld h.seq 16 16 + fld h.type 12 4 + fld h.domain 0 8
  | .NT_PTP_TS_LO => lo32 h.nt
  | .NT_PTP_TS_HI => hi32 h.nt
  | .NT_PTP_TS_CTRL => fld h.epoch 16 16
  | .NT_BL_RX_LO => lo32 m.rxNt
  | .NT_BL_RX_HI => hi32 m.rxNt
  | .NT_BL_MS_LAT_LO => lo32 m.msLat
  | .NT_BL_MS_LAT_HI => hi32 m.msLat
  | .NT_BL_MS_NT_LO => lo32 m.msNt
  | .NT_BL_MS_NT_HI => hi32 m.msNt
  | .NT_BL_EPOCH => fld m.msEpoch 16 16 + fld m.rxEpoch 0 16
  | _ => 0

/-- A diagnostic word of a channel without its LEVEL: bits 5 to 1. -/
def diagBits (p : FPair) (k : Nat) : Nat := p.diag.getD k 0 % 64 / 2 * 2

/-- Chapter 13. -/
def ro13 (b : Block) (r : RegId) (m k : Nat) : Nat :=
  let p := b.fpAt m
  match r with
  | .FIO_STATUS => flag p.relRefused 8 + flag p.regLp 7 + flag p.regTransfer 6 + flag p.linkLost 5 + flag p.swdExpired 4 + flag p.wdExpired 3
  | .FIO_IN => fld p.valid 16 16 + fld p.level 0 16
  | .FIO_OUT_CMD => fld p.inForce 16 16 + fld p.host 0 16
  | .FIO_CNT => fld p.crcErr 16 16 + fld p.missed 0 16
  | .FIO_DIAG_SUM => bitsOf 16 fun k => decide (diagBits p k ≠ 0)
  | .FIO_DIAG => diagBits p k + flag (bit p.level k) 0
  | _ => 0

/-- Chapter 14. -/
def ro14 (now : Nat) (b : Block) (r : RegId) (i : Nat) : Nat :=
  let z := b.zoneAt i
  let a := b.sfAxAt i
  let c := b.connAt i
  match r with
  | .SF_STATUS =>
    let grace := (sfAxes b).any fun n => (b.sfAxAt n).grace.isSome
    let dem := (List.range 16).any fun n => Fld.SF_ZONE_CFG_EN b.cfg n && (b.zoneAt n).inForce
    fld b.sf.cause 8 8 + flag b.sf.verifyErr 4 + flag b.sf.unverified 3 + flag grace 2 + flag dem 1 + flag b.sf.fault 0
  | .SF_PAR_CRC => parCrc b.cfg
  | .SF_VERIFIED => lo32 b.nv.keys.verified
  | .SF_ZONE_STAT => flag z.demand 10 + flag z.resetIgnored 9 + flag z.disc 8 + fld z.bits 0 4
  | .SF_AX_STATE =>
    fld a.cause 28 4 + flag a.ackRefused 11 + flag a.stopTimeout 10 + flag a.stoDue 9 + flag a.btDue 8 + flag a.brkOpen 7 + flag a.brkCmd 6
      + flag a.grace.isSome 5 + flag a.permit 4 + flag a.flt 3 + sfAxCode a
  | .SF_AX_GRACE_LEFT => if a.grace.isSome then lo32 (leftOf now 1000000 a.graceExp) else 0
  | .SF_AX_BT_STAT => fld (min 65535 (leftOf now 3600000000000 (btDueAt b i))) 16 16 + fld (if a.bt.st = .idle ∨ a.bt.st = .requested then a.bt.result else 5) 0 3
  | .SF_CONN_STAT => fld c.crcErr 16 16 + fld c.seqErr 8 8 + connStCode c.st
  | .SF_CONN_RX => if c.st = .run then c.data.toNat else 0
  | .SF_CONN_CNT => fld c.late 16 16 + fld c.rep 0 16
  | .SF_CONN_SEQ => lo32 c.seq
  | _ => 0

/-- Chapter 15, as bank `k` reads it (R558). -/
def ro15 (now : Nat) (b : Block) (k : Nat) (r : RegId) (i : Nat) : Nat :=
  let s := b.sessAt i
  match r with
  | .SEC_LIFECYCLE => flag b.tr.vbatOk 9 + flag b.tr.enrolStrap 8 + lifeCode b.nv.life
  | .SEC_STATUS =>
    flag b.tr.debugOpened 8 + flag b.tr.keystoreErr 7 + flag (!b.nv.keys.recovery.isEmpty) 6 + flag b.bk.rtcValid 5 + flag b.tr.vbatLost 4 + flag b.bk.tampered 3
      + flag b.bk.tamp1 1 + flag b.bk.tamp0 0
  | .SEC_SERVICE_LEFT => if b.nv.life = .fieldService then leftOf now 1000000000 (some b.tr.serviceEnd) else 0
  | .SEC_CHALLENGE => if challengeOk now b then leAt b.tr.challenge (4 * i) 4 else 0
  | .SEC_RESULT => let x := b.bankAt k; flag x.done 16 + fld x.action 8 8 + fld x.code 0 8
  | .SEC_ROLLBACK => lo32 b.nv.rollback
  | .SEC_REVOKE_VER => lo32 b.nv.keys.revVersion
  | .SEC_BOOT_COUNT => lo32 b.nv.bootCount
  | .SEC_RTC_LO => lo32 b.bk.rtc
  | .SEC_RTC_HI => hi32 b.bk.rtc
  | .SEC_TAMPER => fld b.bk.tampCfg 0 7
  | .SEC_SESS_STATE => fld s.rejects 16 16 + fld s.port 12 2 + fld (sessStCode s.st) 8 2 + fld (if s.st = .open_ then s.roles else 0) 0 5
  | .SEC_SESS_CERT => leAt (s.chain.headD []) 0 4
  | .SEC_PORT_STAT => let q := (b.blAt i).key; fld q.fail 16 16 + fld (if q.ok then q.keyId else 0) 8 8 + fld q.kex 0 2
  | _ => 0

/-- Chapter 16. -/
def ro16 (b : Block) (r : RegId) (i : Nat) : Nat :=
  let h := b.hl
  match r with
  | .HL_FAULT => flag h.thermCrit 2 + flag h.supply 1 + flag h.commitFault 0
  | .HL_REPLACE => fld b.nv.replace 0 9
  | .HL_TEMP => let s := b.tempAt i; fld (pat 16 s.max_) 16 16 + fld (pat 16 s.now) 0 16
  | .HL_THERM => fld (bitsOf 10 fun s => (b.tempAt s).crit) 16 10 + bitsOf 10 fun s => (b.tempAt s).warn
  | .HL_MARGIN => let m := b.marginAt i; fld (pat 16 m.min_) 16 16 + fld (pat 16 m.mean) 0 16
  | .HL_ECC => let e := eccAt b i; fld (min 65535 e.2) 16 16 + fld (min 65535 e.1) 0 16
  | .HL_WEAR => min 65535 ((b.nv.wear.foldl (fun m e => max m e.2) 0) / 1000000)
  | .HL_HOLDUP => flag h.holdup.isSome 16 + fld (h.holdup.getD 0) 0 16
  | .HL_BARRIER => let x := b.barrierAt i; fld x.headroom 24 8 + fld (min 4095 (x.lowNs / 1000000)) 12 12 + fld (min 4095 x.crc) 0 12
  | .HL_LOG_STAT => fld (b.nv.logSeq - 1) 8 24 + fld (min 127 h.suppressed) 1 7 + flag h.miss 0
  | .HL_LOG_WORD => match logFind b h.sel with | some e => leAt (logBytes e) (4 * i) 4 | none => 0
  | .HL_ST_STATUS => fld h.st.refuse 12 4 + fld h.st.result 8 3 + stStCode h.st.st
  | .HL_ST_DETAIL => h.st.detail.toNat
  | _ => 0

/-- Chapters 17 and 18. -/
def ro17 (b : Block) (r : RegId) (i : Nat) : Nat :=
  let p := b.hpAt i
  let q := b.hpAt 2
  let w := b.pw
  match r with
  | .HP_MAC_ADDR_LO => leAt (macBytes b i) 0 4
  | .HP_MAC_ADDR_HI => leAt (macBytes b i) 4 2
  | .HP_MAC_STAT => fld p.discard 16 16 + flag p.full 2 + flag p.fast 1 + flag p.link 0
  | .HP_SER_STAT => flag q.quad 3 + flag q.rxOvf 2 + flag (decide (2 ≤ q.rx.length)) 1 + flag (!q.tx.isEmpty) 0
  | .HP_SP_CLASS5 => lo32 (b.sessAt i).class5
  | .PW_STATUS => flag w.pfWarn 7 + flag w.mains 6 + flag w.vauxOk 5 + fld w.source 0 2
  | .PW_INPUT => fld w.vaux 16 16 + fld w.watts 0 16
  | .PW_VBAT => fld w.vbat 0 12
  | .PW_PF_TICK_LO => lo32 w.pfTick
  | .PW_PF_TICK_HI => hi32 w.pfTick
  | .PW_PF_COUNT => fld w.pfCount 0 16
  | _ => 0

/-- The read-only and write-1-to-clear fields of a register at address `a`, live. The address of its block tells the chapter (R632). -/
def roLive (now bank : Nat) (b : Block) (r : RegId) (ix : List Nat) : Nat :=
  let i := ix.getD 0 0
  let j := ix.getD 1 0
  let k := ix.getD 2 0
  ro02 now b r i j + ro04 b r i j + ro05 b r i j k + ro06 b r i j + ro07 b r i j + ro08 b r i j + ro09 b r i j + ro11 now b r i + ro12 b r i
    + ro13 b r i j + ro14 now b r i + ro15 now b bank r i + ro16 b r i + ro17 b r i

/-! ### Latches of the _HI registers -/

/-- What a read of a _LO register latches: registers with the bits concerned. -/
def latchesOf (r : RegId) : List (RegId × Nat) :=
  let all := 0xFFFFFFFF
  match r with
  | .TL_LATTICE_LO => [(.TL_LATTICE_HI, all)]
  | .QD_RAW_LO => [(.QD_RAW_HI, all)]
  | .QD_POS_LO => [(.QD_POS_HI, all)]
  | .QD_POS_OFS_LO => [(.QD_POS_OFS_HI, all)]
  | .QD_SPEED_LO => [(.QD_SPEED_HI, all)]
  | .QD_IDX_POS_LO => [(.QD_IDX_POS_HI, all)]
  | .QD_IDX_TS_LO => [(.QD_IDX_TS_HI, all)]
  | .QD_PRB_POS_LO => [(.QD_PRB_POS_HI, all)]
  | .QD_PRB_TS_LO => [(.QD_PRB_TS_HI, all)]
  | .PG_POS_LO => [(.PG_POS_HI, all)]
  | .PG_VEL_LO => [(.PG_VEL_HI, all)]
  | .PG_TAU_LO => [(.PG_TAU_HI, all)]
  | .PG_ISSUED_LO => [(.PG_ISSUED_HI, all)]
  | .PG_VWORD_LO => [(.PG_VWORD_HI, all)]
  | .GR_PLG_TAU_LO => [(.GR_PLG_TAU_HI, all)]
  | .GR_OFS_LO => [(.GR_OFS_HI, all)]
  | .GR_CMP_TS_LO => [(.GR_CMP_TS_HI, all)]
  | .GR_CMP_NEXT_LO => [(.GR_CMP_NEXT_HI, all)]
  | .AQ_TRIG_LO => [(.AQ_TRIG_HI, all)]
  | .AQ_HUB_TRIG_LO => [(.AQ_HUB_TRIG_HI, all)]
  | .BL_MATRIX_LO => [(.BL_MATRIX_HI, all)]
  | .BL_ANCHOR_LO => [(.BL_ANCHOR_HI, all)]
  | .BL_PORT_RXID_LO => [(.BL_PORT_RXID_HI, all)]
  | .NT_NOW_LO => [(.NT_NOW_HI, all), (.NT_FRAC, all)]
  | .NT_CAP_LAT_LO => [(.NT_CAP_LAT_HI, all)]
  | .NT_CAP_NT_LO => [(.NT_CAP_NT_HI, all), (.NT_CAP_EPOCH, all)]
  | .NT_LSTEP_TICK_LO => [(.NT_LSTEP_TICK_HI, all)]
  | .NT_LSTEP_AMT_LO => [(.NT_LSTEP_AMT_HI, all)]
  | .NT_EV_LAT_LO => [(.NT_EV_LAT_HI, all)]
  | .NT_EV_NT_LO => [(.NT_EV_NT_HI, all), (.NT_EV_EPOCH, all)]
  | .NT_PTP_TS_LO => [(.NT_PTP_TS_HI, all), (.NT_PTP_TS_CTRL, 0xFFFF0000)]
  | .NT_BL_RX_LO => [(.NT_BL_RX_HI, all), (.NT_BL_EPOCH, 0xFFFF)]
  | .NT_BL_MS_LAT_LO => [(.NT_BL_MS_LAT_HI, all)]
  | .NT_BL_MS_NT_LO => [(.NT_BL_MS_NT_HI, all), (.NT_BL_EPOCH, 0xFFFF0000)]
  | .SEC_RTC_LO => [(.SEC_RTC_HI, all)]
  | .PW_PF_TICK_LO => [(.PW_PF_TICK_HI, all)]
  | _ => []

/-- The registers that read their latch. -/
def isLatched (r : RegId) : Bool := allRegs.any fun q => (latchesOf q).any fun p => decide (p.1 = r)

/-- The word in force of a register that is no peek: stored fields, latches and live fields. -/
def regForce (now bank : Nat) (b : Block) (r : RegId) (ix : List Nat) (a : Nat) : Word :=
  let d := regDef r
  if isLatched r then tabGet 0 b.hiLatch a
  else mergeBits (d.sg ||| d.rw) 0 (tabGet d.reset b.cfg a) ||| BitVec.ofNat 32 (roLive now bank b r ix)

/-- CM_PEEK_DATA (R93): the staged value of the register at CM_PEEK_ADDR, in its SG fields; the value in force of one that is not staged. -/
def peekData (now bank : Nat) (b : Block) : Word :=
  let a := (tabGet 0 b.cfg (regAddr .CM_PEEK_ADDR [])).toNat
  match regAt a, b.cm.staged.find? fun e => decide (e.1 = a) with
  | some (q, _), some e => mergeBits (sgMask q) 0 e.2
  | some (q, ix), none => regForce now bank b q ix a
  | none, _ => 0

/-- The word that register `r` (indices `ix`, address `a`) reads, seen from bank `bank`. -/
def regWordAt (now bank : Nat) (b : Block) (r : RegId) (ix : List Nat) (a : Nat) : Word :=
  if r = .CM_PEEK_DATA then peekData now bank b else regForce now bank b r ix a

/-- The effects of a read: the latches, and the record of a CAPTURE unit counts as read (R460). -/
def readEffect (now bank : Nat) (r : RegId) (ix : List Nat) (b : Block) : Block :=
  let b := forL (latchesOf r) (fun p x =>
    let a := regAddr p.1 ix
    { x with hiLatch := tabSet 0 x.hiLatch a (mergeBits p.2 (tabGet 0 x.hiLatch a) (BitVec.ofNat 32 (roLive now bank x p.1 ix))) }) b
  match r with
  | .NT_EV_LAT_LO | .NT_EV_NT_LO => b.teUpd (ix.getD 0 0) fun u => { u with unread := false }
  | _ => b

/-! ### Output pins -/

/-- nREADY is asserted: an image runs (R117, R119). -/
def nReady (b : Block) : Bool := b.run.on

/-- nFAULT is asserted (sunk) unless the module runs without a fault: in reset and with no image running or booted from DEFAULTS (R119, R652), with the reference lost (R52), after a commit failed on a die (R106), under a supply or thermal fault (R596, R598), an engine fault, a stuck output or a failed brake test (R511, R512, R527), in grace mode (R534). -/
def nFault (up : Bool) (b : Block) : Bool :=
  !up || !b.run.on || decide (b.run.settingsSrc = 2) || b.refLost || b.hl.commitFault || b.hl.supply || b.hl.thermCrit
    || b.sf.fault || b.sf.stuck || b.sf.btFailed || (sfAxes b).any fun a => (b.sfAxAt a).grace.isSome

/-- nREPLACE_REQ is asserted (R586). -/
def nReplace (b : Block) : Bool := decide (b.nv.replace ≠ 0)

/-- HS_nIRQ is low (R614). -/
def hsIrq (b : Block) : Bool := !(b.hpAt 2).tx.isEmpty

end Sys2Proof.Machine
end

