-- ==== Sys2Proof/Machine/SafetyRows.lean ====
section
/-! DEFINITION. Commands of the safety engine (chapter 14), and the end of FAULT_HOLD (R207). -/

namespace Sys2Proof.Machine

/-- What an action of the evaluations does: only at an evaluation tick, and not after ENGINE_FAULT (R503, R511). -/
def atEval (f : Nat → Block → Block) (now : Nat) (b : Block) : Block := if now % evalNs = 0 && !b.sf.fault then f now b else b

/-- FAULT_HOLD_END (R207, R524). -/
def execFaultHoldEnd (t : Fin 8) (j : Fin 4) (s : State) : Host.Outcome State Fault Refusal :=
  onTile t (fun now => permitDue now (axNo t j)) s

/-- SAFETY_EVALUATION (R503): the evaluation of the present tick, unless it has run. -/
def execSafetyEvaluation (s : State) : Host.Outcome State Fault Refusal := onRun evaluateAt s

/-- SAFETY_DECISION_EFFECT (R504). -/
def execSafetyDecisionEffect (s : State) : Host.Outcome State Fault Refusal := onRun decisionEffect s

/-- ENGINE_STALL (R506): the timer of the evaluations expires. -/
def execEngineStall (s : State) : Host.Outcome State Fault Refusal := onRun (fun now => engineFault now 1) s

/-- SAFETY_DIAG_CYCLE (R510): the diagnostics of a cycle; `fail` names the ENGINE_CAUSE of one that fails, 0 none. -/
def execSafetyDiagCycle (fail : Fin 6) (s : State) : Host.Outcome State Fault Refusal :=
  onRun (fun now b => if fail.val = 0 then b else engineFault now fail b) s

/-- ZONE_RESET (R515, R516). -/
def execZoneReset (z : Fin 16) (s : State) : Host.Outcome State Fault Refusal := onRun (fun _ => zoneResetOp z) s

/-- ACK (R520). -/
def execAck (t : Fin 8) (j : Fin 16) (s : State) : Host.Outcome State Fault Refusal := onRun (fun _ => ackOp (axNo t j)) s

/-- STO_TEST (R521). -/
def execStoTest (t : Fin 8) (j : Fin 4) (s : State) : Host.Outcome State Fault Refusal := onRun (fun now => stoTestOp now (axNo t j)) s

/-- BT_START (R526). -/
def execBtStart (t : Fin 8) (j : Fin 4) (s : State) : Host.Outcome State Fault Refusal := onRun (fun now => btStartOp now (axNo t j)) s

/-- BRAKE_TEST_STEP (R526, R527). -/
def execBrakeTestStep (t : Fin 8) (j : Fin 4) (s : State) : Host.Outcome State Fault Refusal :=
  onRun (atEval fun now => btEval now (axNo t j)) s

/-- SF_VERIFY (R546). -/
def execSfVerify (v : Word) (s : State) : Host.Outcome State Fault Refusal := onRun (fun _ => sfVerifyOp v.toNat) s

/-- SAFETY_PDU_RX (R540): the received PDUs of a connection are checked. -/
def execSafetyPduRx (c : Fin 48) (s : State) : Host.Outcome State Fault Refusal := onRun (fun _ b => connRx c (connNorm c b)) s

/-- SAFETY_CONN_EXPIRY (R541). -/
def execSafetyConnExpiry (c : Fin 48) (s : State) : Host.Outcome State Fault Refusal := onRun (fun now => connExpire now c) s

/-- GRACE_EXPIRY (R535). -/
def execGraceExpiry (t : Fin 8) (j : Fin 16) (s : State) : Host.Outcome State Fault Refusal :=
  onRun (atEval fun now => graceEval now (axNo t j)) s

/-- STOP_TIMEOUT (R517). -/
def execStopTimeout (t : Fin 8) (j : Fin 16) (s : State) : Host.Outcome State Fault Refusal :=
  onRun (atEval fun now => stopEval now (axNo t j)) s

/-- STO_DUE (R521). -/
def execStoDue (t : Fin 8) (j : Fin 16) (s : State) : Host.Outcome State Fault Refusal := onRun (fun now => stoDueTick now (axNo t j)) s

/-- BT_DUE (R528). -/
def execBtDue (t : Fin 8) (j : Fin 16) (s : State) : Host.Outcome State Fault Refusal := onRun (fun now => btDueTick now (axNo t j)) s

/-- BRAKE_OPEN (R523). -/
def execBrakeOpen (t : Fin 8) (j : Fin 16) (s : State) : Host.Outcome State Fault Refusal := onRun (fun now => brakeOpenTick now (axNo t j)) s

end Sys2Proof.Machine
end

