-- ==== Sys2Proof/Machine/RegWrite.lean ====
section
/-! DEFINITION. Writes and reads of the register space (R6 to R8, R92, R577, R619, R674): roles, refusals, write-1-to-clear fields, command bits, sequencer local memory, SEC_BUF. -/

namespace Sys2Proof.Machine

/-- The state after a command that answers a next state. -/
def afterRow (o : Host.Outcome State Fault Refusal) (s : State) : State :=
  match o with
  | .next t => t
  | _ => s

/-- A command when a bit is set. -/
def whenBit (v i : Nat) (f : State → Host.Outcome State Fault Refusal) (s : State) : State := if bit v i then afterRow (f s) s else s

/-- A change of the block. -/
def State.mapB (s : State) (f : Block → Block) : State := { s with b := f s.b }

/-! ### Roles and refusals -/

/-- The role that a write of a register's RW, W1C and WO fields needs (R577). -/
def writeRole (r : RegId) (v : Nat) : Nat :=
  match r with
  | .CM_CTRL | .IMG_CTRL | .SQ_CTRL => roleConfigure
  | .SF_VERIFY => roleSafety
  | .SEC_RTC_LO | .SEC_RTC_HI | .SEC_TAMPER | .SEC_IDLE | .SEC_SESS_CTRL => roleOwner
  | .SEC_CTRL => if bit v 4 then roleOwner else 0
  | _ => let d := regDef r; if d.rw = 0 ∧ d.w1c = 0 ∧ d.wo = 0 then 0 else roleOperate

/-- More than one command bit of a group of R674 is set. -/
def manyCommands (r : RegId) (v : Nat) : Bool :=
  let several (l : List Nat) : Bool := decide (1 < (l.filter fun i => bit v i).length)
  match r with
  | .AX_CTRL => several [0, 1, 2]
  | .PG_AX_CTRL | .GR_NX_CTRL | .BL_PORT_CTRL => several [0, 1]
  | .CM_CTRL => several [0, 2, 3, 4]
  | _ => false

/-- Without a running image only host sessions and the IMG_ and SEC_ registers are served (R119), and ID_REV (R557). -/
def servedIdle (r : RegId) (a : Nat) : Bool := decide (0x21000 ≤ a ∧ a < 0x22000) || decide (0x80000 ≤ a ∧ a < 0x90000) || decide (r = .ID_REV)

/-- A refusal at the point of use that is known before a command acts: ABORT and DISCARD (R91, R103). -/
def ctrlRefused (now k : Nat) (r : RegId) (v : Nat) (b : Block) : Bool :=
  decide (r = .CM_CTRL) && ((bit v 3 && abortRefused now b) || (bit v 2 && discardRefused k b))

/-- SEC_BUF (R558) and sequencer local memory (R361) as word addresses in the register space. -/
def secBufAt (a : Nat) : Option Nat := if 0x84000 ≤ a ∧ a < 0x88000 then some (a - 0x84000) else none
def localAt (a : Nat) : Option (Nat × Nat) :=
  if 0x10000000 ≤ a ∧ a < 0x18000000 ∧ 0x400000 ≤ a % 0x1000000 ∧ a % 0x1000000 < 0x440000 then
    some ((a - 0x10000000) / 0x1000000, (a % 0x1000000 - 0x400000) / 4)
  else none

/-- The status of a read of one word at `a` before it acts: 0, ALIGN, ADDRESS or REFUSED. -/
def readStatus (b : Block) (a : Nat) : Nat :=
  if a % 4 ≠ 0 then 2
  else if (secBufAt a).isSome then 0
  else
    match localAt a with
    | some (t, _) => tileStatus b t
    | none =>
      let e := addrStatus b a
      if e ≠ 0 then e
      else match regAt a with
        | some (r, _) => if b.run.on || servedIdle r a then 0 else 5
        | none => 3

/-- The status of a write of one word at `a` by bank `k` before it acts: 0, ALIGN, ADDRESS, ROLE or REFUSED. -/
def writeStatus (now k a v : Nat) (b : Block) : Nat :=
  let e := readStatus b a
  if e ≠ 0 then e
  else if (secBufAt a).isSome then 0
  else
    match localAt a with
    | some (t, w) => if !hasRoles b k roleOperate then 4 else if w < Fld.SQ_CFG_CODE_LEN b.cfg t then 5 else 0
    | none =>
      match regAt a with
      | none => 3
      | some (r, _) =>
        if sgMask r ≠ 0 then (if hasRoles b k (stageRole a) then 0 else 4)
        else if !hasRoles b k (writeRole r v) then 4
        else if manyCommands r v || ctrlRefused now k r v b then 5
        else 0

/-! ### Write-1-to-clear fields -/

/-- Flags that a 1 clears. -/
def clr (v i : Nat) (f : Bool) : Bool := f && !bit v i

/-- Write-1-to-clear fields of chapters 02 to 06 without a row of their own. -/
def w1cA (r : RegId) (i j v : Nat) (b : Block) : Block :=
  match r with
  | .TL_SP_STATUS => b.spUpd i j fun s => { s with lateFault := clr v 4 s.lateFault, overrun := clr v 3 s.overrun }
  | .CE_LOOP_STATUS => b.ctxUpd i j fun c => { c with limSeen := clr v 1 c.limSeen, sat := clr v 0 c.sat }
  | .CE_SEC_STAT => b.secUpd i j fun s => { s with sat := clr v 0 s.sat }
  | .CE_SCHED_STATUS => b.schedUpd i j fun s => { s with sealErr := clr v 12 s.sealErr }
  | .CE_MODE => b.modeUpd i j fun m => { m with modeErr := clr v 10 m.modeErr }
  | .AX_STATE => b.natUpd i j fun a => { a with enRefused := clr v 15 a.enRefused }
  | .QD_STATUS => b.qdUpd i j fun q => { q with idxSeen := clr v 6 q.idxSeen }
  | .QD_PRB_STAT => b.prbUpd i j fun p => { p with ovf := clr v 1 p.ovf }
  | _ => b

/-- Write-1-to-clear fields of chapters 07 to 10. A write of RATE_LIMIT clears HELD_MAX too. -/
def w1cB (r : RegId) (i j v : Nat) (b : Block) : Block :=
  match r with
  | .PG_STATE => b.genUpd i j fun g => { g with fl := { g.fl with startRefused := clr v 14 g.fl.startRefused } }
  | .PG_EVENT => b.genUpd i j fun g => { g with fl := { g.fl with
      faultStop := clr v 4 g.fl.faultStop, limitStop := clr v 3 g.fl.limitStop, hostStop := clr v 2 g.fl.hostStop
      prefetchLate := clr v 1 g.fl.prefetchLate, starved := clr v 0 g.fl.starved } }
  | .PG_BANK => b.genUpd i j fun g => { g with fl := { g.fl with absSkipped := clr v 13 g.fl.absSkipped, sealErr := clr v 12 g.fl.sealErr } }
  | .PG_PULSE_STAT => b.pulseUpd i j fun p => { p with rateLimit := clr v 0 p.rateLimit, heldMax := if bit v 0 then 0 else p.heldMax }
  | .PG_AX_STATE => b.pulseUpd i j fun p => { p with enRefused := clr v 15 p.enRefused }
  | .GR_PLG_STATE => b.plgUpd i fun g => { g with
      refused := clr v 15 g.refused, starved := clr v 10 g.starved, memberFault := clr v 9 g.memberFault, limitHold := clr v 8 g.limitHold }
  | .GR_CLUTCH_STATE => b.followUpd i j fun f => { f with cl := { f.cl with refused := clr v 15 f.cl.refused, masterLost := clr v 13 f.cl.masterLost } }
  | .GR_CAM_STATUS => b.followUpd i j fun f => { f with cam := { f.cam with
      late := clr v 14 f.cam.late, starved := clr v 13 f.cam.starved, sealErr := clr v 12 f.cam.sealErr } }
  | .GR_NX_STATE => b.nxUpd i j fun n => { n with
      enRefused := clr v 15 n.enRefused, enTimeout := clr v 13 n.enTimeout, offTimeout := clr v 12 n.offTimeout }
  | .GR_CMP_STATUS => b.cmpUpd i j fun c => { c with multi := clr v 5 c.multi, overlap := clr v 4 c.overlap }
  | .SQ_STATUS => b.seqUpd i fun s => { s with evtLost := clr v 5 s.evtLost, sat := clr v 4 s.sat }
  | .AQ_STATUS => b.aqUpd i fun u => { u with armRefused := clr v 14 u.armRefused, fullFlag := clr v 12 u.fullFlag }
  | .AQ_HUB_STATUS => { b with aqHub := { b.aqHub with refused := bitsOf 8 fun t => bit b.aqHub.refused t && !bit v (8 + t) } }
  | _ => b

/-- Write-1-to-clear fields of chapters 11 to 17. HL_FAULT bits clear only without their cause. -/
def w1cC (r : RegId) (i v : Nat) (b : Block) : Block :=
  match r with
  | .BL_NET_STATUS => { b with net := { b.net with qsMismatch := clr v 8 b.net.qsMismatch } }
  | .BL_PORT_STATE => b.blUpd i fun p => { p with enRefused := clr v 15 p.enRefused }
  | .NT_STATUS => { b with nt := { b.nt with capDone := clr v 1 b.nt.capDone, stepErr := clr v 0 b.nt.stepErr } }
  | .NT_EV_STAT => b.teUpd i fun u => { u with overlap := clr v 3 u.overlap, stepped := clr v 2 u.stepped, late := clr v 1 u.late }
  | .NT_PTP_STAT => b.ptpUpd i fun x => { x with oneErr := clr v 2 x.oneErr, txOvf := clr v 1 x.txOvf, rxOvf := clr v 0 x.rxOvf }
  | .FIO_STATUS => b.fpUpd i fun p => { p with relRefused := clr v 8 p.relRefused }
  | .SF_STATUS => { b with sf := { b.sf with verifyErr := clr v 4 b.sf.verifyErr } }
  | .SF_ZONE_STAT => b.zoneUpd i fun z => { z with resetIgnored := clr v 9 z.resetIgnored }
  | .SF_AX_STATE => b.sfAxUpd i fun a => { a with ackRefused := clr v 11 a.ackRefused, stopTimeout := clr v 10 a.stopTimeout }
  | .SEC_STATUS =>
    { b with tr := { b.tr with vbatLost := clr v 4 b.tr.vbatLost }
             bk := { b.bk with tampered := clr v 3 b.bk.tampered, tamp1 := clr v 1 b.bk.tamp1, tamp0 := clr v 0 b.bk.tamp0 } }
  | .HL_FAULT =>
    let crit := (List.range 10).any fun s => (b.tempAt s).crit
    { b with hl := { b.hl with thermCrit := b.hl.thermCrit && !(bit v 2 && !crit), supply := b.hl.supply && !(bit v 1 && decide (b.hl.supplies = 0)) } }
  | .HP_SER_STAT => b.hpUpd 2 fun p => { p with rxOvf := clr v 2 p.rxOvf }
  | _ => b

/-! ### Command bits -/

/-- Command and write-1-to-clear registers of chapters 02 to 06 that have rows; bits act in ascending order. -/
def cmdA (r : RegId) (i j v : Nat) (s : State) : State :=
  let t : Fin 8 := Fin.ofNat 8 i
  match r with
  | .TL_GRP_CTRL => afterRow (execTlGrpClear t (BitVec.ofNat 4 v) s) s
  | .CE_SCHED_CTRL =>
    let k : Fin 8 := Fin.ofNat 8 j
    whenBit v 2 (execSchedReselect t k) (whenBit v 1 (execSchedUnseal t k) (whenBit v 0 (execSchedSeal t k) s))
  | .CE_MODE =>
    let k : Fin 16 := Fin.ofNat 16 j
    let m := BitVec.ofNat 2 v
    if bit v 3 then afterRow (execModeNow t k m s) s else afterRow (execModeArm t k (bit v 4) m s) s
  | .AX_CTRL =>
    let k : Fin 4 := Fin.ofNat 4 j
    whenBit v 2 (execAxAlign t k) (whenBit v 1 (execAxDisable t k) (whenBit v 0 (execAxEnable t k) s))
  | .AX_TRIP => afterRow (execAxTripClear t (Fin.ofNat 4 j) (BitVec.ofNat 32 v) s) s
  | .QD_CTRL =>
    let k : Fin 8 := Fin.ofNat 8 j
    whenBit v 1 (execIdxArm t k) (whenBit v 2 (execSetPos t k) (whenBit v 0 (execIdxDisarm t k) s))
  | .QD_FAULT => afterRow (execQdFaultClear t (Fin.ofNat 8 j) (BitVec.ofNat 32 v) s) s
  | .QD_PRB_CTRL =>
    let k : Fin 4 := Fin.ofNat 4 j
    whenBit v 1 (execPrbPop t k) (whenBit v 0 (execPrbFlush t k) s)
  | _ => s

/-- Command registers of chapters 07 to 10. -/
def cmdB (r : RegId) (i j v : Nat) (s : State) : State :=
  let t : Fin 8 := Fin.ofNat 8 i
  let k : Fin 16 := Fin.ofNat 16 j
  let c : Fin 4 := Fin.ofNat 4 j
  match r with
  | .PG_CTRL =>
    whenBit v 4 (execPgUnseal t k) (whenBit v 3 (execPgSeal t k) (whenBit v 2 (execPgHome t k) (whenBit v 1 (execPgStop t k) (whenBit v 0 (execPgStart t k) s))))
  | .PG_AX_CTRL => whenBit v 1 (execPgAxDisable t c) (whenBit v 0 (execPgAxEnable t c) s)
  | .GR_PLG_FEED => afterRow (execPlgFeedWrite t (BitVec.ofNat 32 v) s) s
  | .GR_PLG_CTRL => whenBit v 3 (execPlgStop t) (whenBit v 2 (execPlgResume t) (whenBit v 1 (execPlgHold t) (whenBit v 0 (execPlgStart t) s)))
  | .GR_CLUTCH_CTRL => whenBit v 2 (execClutchZero t k) (whenBit v 1 (execClutchDisengage t k) (whenBit v 0 (execClutchEngage t k) s))
  | .GR_CAM_CTRL => whenBit v 2 (execCamReselect t k) (whenBit v 1 (execCamUnseal t k) (whenBit v 0 (execCamSeal t k) s))
  | .GR_NX_CTRL =>
    let n : Fin 8 := Fin.ofNat 8 j
    whenBit v 1 (execNxDisable t n) (whenBit v 0 (execNxEnable t n) s)
  | .GR_CMP_CTRL => whenBit v 2 (execCmpClear t c) (whenBit v 1 (execCmpDisarm t c) (whenBit v 0 (execCmpArm t c) s))
  | .SQ_CTRL => whenBit v 3 (execSqClrStats t) (whenBit v 2 (execSqReset t) (whenBit v 1 (execSqRun t) (whenBit v 0 (execSqHalt t) s)))
  | .SQ_DOORBELL => afterRow (execSqDoorbell t (BitVec.ofNat 32 v) s) s
  | .AQ_CTRL => whenBit v 3 (execAqClrStats t) (whenBit v 2 (execAqRelease t (Fin.ofNat 16 (bits v 16 4))) (whenBit v 1 (execAqStop t) s))
  | .AQ_HUB_CTRL =>
    let set := BitVec.ofNat 8 (bits v 16 8)
    whenBit v 3 execAqForce (whenBit v 2 (execAqDisarm set) (whenBit v 0 (execAqArm set (bit v 1)) s))
  | _ => s

/-- Command registers of chapters 11 to 14 and 16. -/
def cmdC (r : RegId) (i j v : Nat) (s : State) : State :=
  let m : Fin 4 := Fin.ofNat 4 i
  match r with
  | .BL_PORT_CTRL =>
    let p : Fin 12 := Fin.ofNat 12 i
    whenBit v 2 (execBlClrStats p) (whenBit v 1 (execBlPortDisable p) (whenBit v 0 (execBlPortEnable p) s))
  | .NT_RATE => afterRow (execNtRateWrite (BitVec.ofNat 32 v) s) s
  | .NT_CTRL => whenBit v 1 execNtCapture (whenBit v 0 execNtStep s)
  | .NT_EV_CTRL => let u : Fin 32 := Fin.ofNat 32 i; whenBit v 1 (execTeDisarm u) (whenBit v 0 (execTeArm u) s)
  | .NT_PTP_TS_CTRL => whenBit v 0 (execPtpTsPop (Fin.ofNat 2 i)) s
  | .FIO_CTRL => whenBit v 1 (execFioClrCnt m) (whenBit v 0 (execWdRelease m) s)
  | .FIO_OUT_SET => afterRow (execFioOutSet m (BitVec.ofNat 16 v) s) s
  | .FIO_OUT_CLR => afterRow (execFioOutClr m (BitVec.ofNat 16 v) s) s
  | .FIO_DIAG => afterRow (execFioDiagClear m (Fin.ofNat 16 j) (BitVec.ofNat 32 v) s) s
  | .SF_VERIFY => afterRow (execSfVerify (BitVec.ofNat 32 v) s) s
  | .SF_ZONE_CTRL => whenBit v 0 (execZoneReset (Fin.ofNat 16 i)) s
  | .SF_AX_CTRL =>
    let t : Fin 8 := Fin.ofNat 8 (i / 16)
    let s := whenBit v 0 (execAck t (Fin.ofNat 16 i)) s
    if i % 16 < 4 then whenBit v 2 (execStoTest t (Fin.ofNat 4 (i % 16))) (whenBit v 1 (execBtStart t (Fin.ofNat 4 (i % 16))) s)
    else if bit v 1 then s.mapB (btStartOp s.clk.lattice i) else s
  | .HL_REPLACE => afterRow (execReplaceClear (BitVec.ofNat 32 v) s) s
  | .HL_LOG_SEL => afterRow (execLogSel (BitVec.ofNat 32 v) s) s
  | .HL_ST_CTRL => whenBit v 1 execStAbort (whenBit v 0 (execStStart (BitVec.ofNat 4 (bits v 8 4)) (BitVec.ofNat 4 (bits v 16 4))) s)
  | _ => s

/-- Command registers of the hub whose outcome has a status: CM_CTRL, IMG_CTRL, SEC_. -/
def cmdHub (k : Nat) (r : RegId) (i v : Nat) (s : State) : Nat × State :=
  let now := s.clk.lattice
  let two (lo : Nat) (f : Nat → Block → Nat × Block) (x : Nat × State) : Nat × State :=
    let c := bits v lo 2
    if x.1 ≠ 0 ∨ (c ≠ 1 ∧ c ≠ 2) then x else let y := f (c - 1) x.2.b; (y.1, { x.2 with b := y.2 })
  let hub (f : Block → Nat × Block) : Nat × State := let y := f s.b; (y.1, { s with b := y.2 })
  match r with
  | .CM_CTRL =>
    if bit v 0 then (0, s.mapB (commitOp now k (bit v 1)))
    else if bit v 2 then hub (discardCmd k)
    else if bit v 3 then hub (abortCmd now k)
    else if bit v 4 then hub (storeCmd now k)
    else (0, s)
  | .IMG_CTRL =>
    let x := two 4 (fun n b => (0, nextSlotOp now n b)) (two 2 (fun n b => stageSlotOp k n b) (two 0 (fun n b => installOp now k n b) (0, s)))
    if bit v 8 && decide (x.1 = 0) then (0, x.2.mapB (confirmOp now)) else x
  | .SEC_CTRL =>
    let bank : Fin 11 := Fin.ofNat 11 k
    (0, whenBit v 4 execEndService (whenBit v 3 (execAttest bank) (whenBit v 2 (execEnrol bank) (whenBit v 1 (execSubmit bank) (whenBit v 0 execNewChallenge s)))))
  | .SEC_SESS_CTRL => (0, whenBit v 0 (execSessionEnd (Fin.ofNat 8 i)) s)
  | .SEC_RTC_LO => (0, s.mapB fun b => { b with bk := { b.bk with rtc := hi32 b.bk.rtc * 2 ^ 32 + lo32 v, rtcValid := true } })
  | .SEC_RTC_HI => (0, s.mapB fun b => { b with bk := { b.bk with rtc := lo32 v * 2 ^ 32 + lo32 b.bk.rtc, rtcValid := true } })
  | .SEC_TAMPER => (0, s.mapB fun b => { b with bk := { b.bk with tampCfg := (mergeBits 0x77 0 (BitVec.ofNat 32 v)).toNat } })
  | _ => (0, s)

/-- RW fields that the register table holds: set at once (R7). -/
def rwSet (r : RegId) (a v : Nat) (b : Block) : Block :=
  let d := regDef r
  if d.rw = 0 ∨ r = .CE_MODE ∨ r = .SEC_TAMPER ∨ r = .SEC_RTC_LO ∨ r = .SEC_RTC_HI ∨ r = .GR_PLG_FEED ∨ r = .HL_LOG_SEL ∨ r = .NT_RATE then b
  else setReg a d.reset (mergeBits d.rw (tabGet d.reset b.cfg a) (BitVec.ofNat 32 v)) b

/-- One register write without its SG fields (R7). -/
def regAct (k : Nat) (r : RegId) (ix : List Nat) (a v : Nat) (s : State) : Nat × State :=
  let i := ix.getD 0 0
  let j := ix.getD 1 0
  let s := s.mapB fun b => w1cC r i v (w1cB r i j v (w1cA r i j v (rwSet r a v b)))
  cmdHub k r i v (cmdC r i j v (cmdB r i j v (cmdA r i j v s)))

/-- Bytes of SEC_BUF of a bank. -/
def bankPut (k o : Nat) (bs : List Byte) (b : Block) : Block := b.bankUpd k fun x => { x with buf := tabFill 0 x.buf o bs }

/-- A write of SF_VERIFY from a session without the SAFETY role sets VERIFY_ERR besides its access error (R546). -/
def verifyTurned (k : Nat) (b : Block) : Block :=
  if b.run.on && !hasRoles b k roleSafety then { b with sf := { b.sf with verifyErr := true } } else b

/-- A write of one word of the register space by bank `k` (sessions 0 to 7, plain requests of the ports 8 to 10): status and state. -/
def regWrite (k a v : Nat) (s : State) : Nat × State :=
  let e := writeStatus s.clk.lattice k a v s.b
  if e ≠ 0 then (e, if a = regAddr .SF_VERIFY [] then s.mapB (verifyTurned k) else s)
  else
    match secBufAt a, localAt a with
    | some o, _ => (0, s.mapB (bankPut k o (leBytes 4 v)))
    | none, some (t, w) => (0, afterRow (execLocalMemoryWrite (Fin.ofNat 8 t) (BitVec.ofNat 16 w) (BitVec.ofNat 32 v) s) s)
    | none, none =>
      match regAt a with
      | none => (3, s)
      | some (r, ix) =>
        if sgMask r ≠ 0 then let y := stageOp k a (BitVec.ofNat 32 v) s.b; (y.1, { s with b := y.2 })
        else regAct k r ix a v s

/-- A read of one word by bank `k`: the word and the block after the read. -/
def wordRead (now k a : Nat) (b : Block) : Word × Block :=
  match secBufAt a, localAt a with
  | some o, _ => (BitVec.ofNat 32 (leNat (tabBytes 0 (b.bankAt k).buf o 4)), b)
  | none, some (t, w) => (tabGet 0 (b.seqAt t).mem w, b)
  | none, none =>
    match regAt a with
    | some (r, ix) => (regWordAt now k b r ix a, readEffect now k r ix b)
    | none => (0, b)

/-- Words from an address upwards. -/
def wordsRead (now k : Nat) : Nat → Nat → Block → List Word × Block
  | 0, _, b => ([], b)
  | n + 1, a, b =>
    let x := wordRead now k a b
    let y := wordsRead now k n (a + 4) x.2
    (x.1 :: y.1, y.2)

/-- REGISTER_WRITE (R7). -/
def execRegisterWrite (k : Fin 8) (addr : Nat) (v : Word) (s : State) : Host.Outcome State Fault Refusal :=
  .next (if s.clk.up then let x := regWrite k addr v.toNat s; x.2.mapB (setLast k 2 x.1 []) else s)

end Sys2Proof.Machine
end

