-- ==== Sys2Proof/Machine/Messages.lean ====
section
/-! DEFINITION. Session messages, requests, commands and transfers (chapters 15 and 17): parsing, checks, effects, responses. -/

namespace Sys2Proof.Machine

/-! ### Messages (R615 to R617) -/

/-- The kinds of message that carry a tag. -/
def kindTagged (kind : Nat) : Bool := decide (4 ≤ kind ∧ kind ≤ 7)

/-- The kinds that a host sends. -/
def kindHost (kind : Nat) : Bool := [1, 3, 4, 6, 7, 8].contains kind

/-- The fields of a message. -/
def msgKind (m : List Byte) : Nat := leAt m 3 1
def msgSess (m : List Byte) : Nat := leAt m 4 1
def msgLen (m : List Byte) : Nat := leAt m 6 2
def msgCtr (m : List Byte) : Nat := leAt m 8 8
def msgBody (m : List Byte) : List Byte := slice m 16 (msgLen m)
def msgTag (m : List Byte) : List Byte := slice m (16 + msgLen m) 16

/-- A message that is not discarded at receipt (R615, R616). -/
def msgOk (m : List Byte) : Bool :=
  decide (leAt m 0 2 = 0xC960) && decide (leAt m 2 1 = 1) && kindHost (msgKind m) && decide (leAt m 5 1 = 0) && decide (msgLen m ≤ 1440)
    && decide (m.length = 16 + msgLen m + if kindTagged (msgKind m) then 16 else 0)

/-- A received message waits for its command (R612, R614). -/
def msgPut (p src : Nat) (m : List Byte) (b : Block) : Block :=
  if msgOk m then b.hpUpd p fun x => { x with rx := x.rx ++ [(src, m)] } else b

/-- A header of a message from the module. -/
def msgHead (kind sess len ctr : Nat) : List Byte :=
  leBytes 2 0xC960 ++ leBytes 1 1 ++ leBytes 1 kind ++ leBytes 1 sess ++ leBytes 1 1 ++ leBytes 2 len ++ leBytes 8 ctr

/-- A message leaves at a port; one that finds the serial queue of 8 full is lost or kept, which the specification leaves open. -/
def msgSend (p dst : Nat) (m : List Byte) (b : Block) : Block :=
  let keep := !decide (p = 2) || decide ((b.hpAt p).tx.length < 8) || decide (leAt (Config.random b.draws 1) 0 1 % 2 = 1)
  nextDraw (if keep then b.hpUpd p fun x => { x with tx := x.tx ++ [(dst, m)] } else b)

/-- A message outside a session (R615). -/
def plainSend (p dst kind : Nat) (pl : List Byte) (b : Block) : Block := msgSend p dst (msgHead kind 0xFF pl.length 0 ++ pl) b

/-- The GCM nonce of a direction and counter (R617). -/
def msgNonce (dir ctr : Nat) : List Byte := leBytes 1 dir ++ leBytes 3 0 ++ leBytes 8 ctr

/-- A tagged message of session `k` leaves (R574, R617); at 2^32 messages the session ends (R575). -/
def sessSend (now k kind : Nat) (pl : List Byte) (b : Block) : Block :=
  let x := b.sessAt k
  let c := x.txCtr + 1
  let h := msgHead kind k pl.length c
  let n := msgNonce 1 c
  let m := h ++ slice (Config.gcmText x.keyOut n pl) 0 pl.length ++ slice (Config.gcmTag x.keyOut n pl h) 0 16
  let b := msgSend x.port x.src m (b.sessUpd k fun y => { y with txCtr := c })
  if 2 ^ 32 ≤ c then sessEnd now k b else b

/-- A REFUSE message: 1 SESSIONS_FULL, 2 CHAIN, 3 SIGNATURE, 4 LIFECYCLE, 5 TIMEOUT. -/
def refuseSend (p dst code : Nat) (b : Block) : Block := plainSend p dst 0x0A (leBytes 4 code) b

/-- The oldest message of a port when it is of a kind: its source and bytes, and the block without it. -/
def msgTake (p kind : Nat) (b : Block) : Option (Nat × List Byte × Block) :=
  match (b.hpAt p).rx with
  | (src, m) :: r => if msgKind m = kind then some (src, m, b.hpUpd p fun x => { x with rx := r }) else none
  | [] => none

/-- One more rejected message of a session. -/
def sessReject (k : Nat) (b : Block) : Block := b.sessUpd k fun x => { x with rejects := satAdd 65535 x.rejects 1 }

/-- A tagged message from a source on a port (R575, R617): the session and payload when it is accepted; `full` says that it cannot be taken (R622). -/
def sessAccept (now p src : Nat) (m : List Byte) (full : Sess → Bool) (b : Block) : Option (Nat × List Byte) × Block :=
  let k := msgSess m
  let x := b.sessAt k
  if 8 ≤ k ∨ x.st ≠ .open_ then (none, b)
  else
    let n := msgNonce 0 (msgCtr m)
    let pl := slice (Config.gcmText x.keyIn n (msgBody m)) 0 (msgLen m)
    let ok := decide (x.port = p) && decide (x.src = src) && decide (x.rxCtr < msgCtr m)
      && decide (slice (Config.gcmTag x.keyIn n pl (m.take 16)) 0 16 = msgTag m) && !full x
    if ok then (some (k, pl), b.sessUpd k fun y => { y with rxCtr := msgCtr m, lastAt := now }) else (none, sessReject k b)

/-- A session whose messages in have reached 2^32 ends (R575). -/
def sessWorn (now k : Nat) (b : Block) : Block := if 2 ^ 32 ≤ (b.sessAt k).rxCtr then sessEnd now k b else b

/-! ### Commands of a request (R618) -/

/-- A command. -/
inductive HCmd where
  | read (a n : Nat)
  | write (a : Nat) (ws : List Word)
  | stage (a : Nat) (ws : List Word)
  | commit (asap : Bool) (tick : Nat)
  | store
  | xread (target index ofs n : Nat)
  | xwrite (target : Nat) (last : Bool) (index ofs : Nat) (data : List Byte)
  | setpoint (tile input apply : Nat) (value : Int)
  | bad (op : Nat)
  deriving DecidableEq, Repr

/-- The OP of a command. -/
def cmdOp (c : HCmd) : Nat :=
  match c with
  | .read _ _ => 1
  | .write _ _ => 2
  | .stage _ _ => 3
  | .commit _ _ => 4
  | .store => 5
  | .xread _ _ _ _ => 6
  | .xwrite _ _ _ _ _ => 7
  | .setpoint _ _ _ _ => 8
  | .bad op => op

/-- The length of the command that begins some bytes, from its OP and N; 0: no command. -/
def cmdSize (bs : List Byte) : Nat :=
  let n := leAt bs 2 2
  match leAt bs 0 1 with
  | 1 | 5 => 8
  | 2 | 3 => 8 + 4 * n
  | 4 => 16
  | 6 => 12
  | 7 => 12 + n
  | 8 => 24
  | _ => 0

/-- The bytes of each of `n` commands; from the first that does not fit on, none is whole. -/
def splitCmds : Nat → List Byte → List (List Byte)
  | 0, _ => []
  | n + 1, bs =>
    let k := cmdSize bs
    if k = 0 ∨ bs.length < k then bs.take 1 :: List.replicate n []
    else bs.take k :: splitCmds n (bs.drop ((k + 3) / 4 * 4))

/-- The data words of a command. -/
def cmdWords (bs : List Byte) (n : Nat) : List Word := (List.range n).map fun i => BitVec.ofNat 32 (leAt bs (8 + 4 * i) 4)

/-- A command from its bytes; `bad` when it is malformed or a field is out of range. -/
def parseCmd (bs : List Byte) : HCmd :=
  let op := leAt bs 0 1
  let sub := leAt bs 1 1
  let n := leAt bs 2 2
  let a := leAt bs 4 4
  let some? (ok : Bool) (c : HCmd) : HCmd := if ok then c else .bad op
  if cmdSize bs = 0 ∨ bs.length < cmdSize bs then .bad op
  else
    match op with
    | 1 => some? (decide (sub = 0 ∧ 1 ≤ n ∧ n ≤ 256)) (.read a n)
    | 2 => some? (decide (sub = 0 ∧ 1 ≤ n ∧ n ≤ 256)) (.write a (cmdWords bs n))
    | 3 => some? (decide (sub = 0 ∧ 1 ≤ n ∧ n ≤ 256)) (.stage a (cmdWords bs n))
    | 4 => some? (decide (sub ≤ 1 ∧ n = 0 ∧ a = 0)) (.commit (decide (sub = 1)) (leAt bs 8 8))
    | 5 => some? (decide (sub = 0 ∧ n = 0 ∧ a = 0)) .store
    | 6 => some? (decide (4 ≤ n ∧ n ≤ 1024 ∧ n % 4 = 0 ∧ 1 ≤ sub ∧ sub ≤ 7 ∧ leAt bs 5 3 = 0)) (.xread sub (leAt bs 4 1) (leAt bs 8 4) n)
    | 7 => some? (decide (1 ≤ sub % 128 ∧ sub % 128 ≤ 7 ∧ leAt bs 5 3 = 0)) (.xwrite (sub % 128) (decide (128 ≤ sub)) (leAt bs 4 1) (leAt bs 8 4) (slice bs 12 n))
    | 8 => some? (decide (sub = 0 ∧ n = 0 ∧ leAt bs 4 1 < 8 ∧ leAt bs 5 1 < 32 ∧ leAt bs 6 2 = 0))
        (.setpoint (leAt bs 4 1) (leAt bs 5 1) (leAt bs 8 8) (BitVec.ofNat 64 (leAt bs 16 8)).toInt)
    | _ => .bad op

/-! ### Transfer targets (R624 to R627) -/

/-- First byte and size of the staged-image region (R88). -/
def stageBase : Nat := 4032 * 65536
def stageSize : Nat := 4 * 1024 * 1024

/-- The partition that an INDEX names. -/
def partIdx (b : Block) (index : Nat) : Option Part := if b.run.on then b.run.parts.find? fun p => decide (p.id = index) else none

/-- The device certificate, padded to a multiple of 4. -/
def certBytes (b : Block) : List Byte := slice b.nv.keys.cert 0 ((b.nv.keys.cert.length + 3) / 4 * 4)

/-- Areas of banks that a transfer may not write (R157, R260, R315): active, fetching and sealed ones, as first byte and size. -/
def lockedAreas (b : Block) : List (Nat × Nat) :=
  let bank (f : Nat → Option (Nat × Nat)) (active : Option Nat) (sh : Shadow) : List (Nat × Nat) :=
    (match active with | some k => (f k).toList | none => []) ++ (if sh = .empty then [] else (f (shadowNo active)).toList)
  (tilesOf b).flatMap fun t =>
    ((List.range 16).flatMap fun j =>
      bank (profileBank b t j) (b.genAt t j).active (b.genAt t j).shadow ++ bank (camBank b t j) (b.followAt t j).cam.active (b.followAt t j).cam.shadow)
    ++ (List.range 8).flatMap fun k => bank (schedBank b t k) (b.schedAt t k).active (b.schedAt t k).shadow

/-- A write of `n` bytes from `a` meets a locked area. -/
def hitsLocked (b : Block) (a n : Nat) : Bool := (lockedAreas b).any fun r => decide (a < r.1 + r.2) && decide (r.1 < a + n)

/-- The status of a transfer read before it acts. -/
def xreadStatus (b : Block) (target index ofs n : Nat) : Nat :=
  if ofs % 4 ≠ 0 then 1
  else
    match target with
    | 1 => match partIdx b index with
      | some p => if p.size * 65536 < ofs + n then 3 else 0
      | none => 3
    | 2 => if index ≠ 0 ∨ stageSize < ofs + n then 3 else 0
    | 4 => if decide (index < 12) && Fld.BL_PORT_CFG_EN b.cfg index then 0 else 3
    | 6 => if decide (index < 2) && Fld.NT_PTP_CFG_EN b.cfg index then 0 else 3
    | 7 => if index ≠ 0 ∨ (certBytes b).length < ofs + n then 3 else 0
    | _ => 3

/-- The items of a queue target, oldest first; an INDEX that is not in use names none. -/
def xqueue (b : Block) (target index : Nat) : List (List Byte) :=
  if target = 4 then (if decide (index < 12) && Fld.BL_PORT_CFG_EN b.cfg index then (b.blAt index).rxq else [])
  else if target = 6 then (if decide (index < 2) && Fld.NT_PTP_CFG_EN b.cfg index then (b.ptpAt index).rx else [])
  else []

/-- The bytes that a transfer read will return when `before` reads of the same queue come first. -/
def xreadLen (b : Block) (target index n before : Nat) : Nat :=
  if target = 4 ∨ target = 6 then (((xqueue b target index).drop before).headD []).length else n

/-- A transfer read: status and bytes; a queue target loses its oldest item. -/
def xread (target index ofs n : Nat) (b : Block) : (Nat × List Byte) × Block :=
  let mem (a : Nat) : (Nat × List Byte) × Block := if badIn b a n then ((6, []), b) else ((0, tabBytes 0 b.mem a n), b)
  match target with
  | 1 => match partIdx b index with
    | some p => mem (p.base * 65536 + ofs)
    | none => ((3, []), b)
  | 2 => mem (stageBase + ofs)
  | 4 => ((0, (xqueue b 4 index).headD []), b.blUpd index fun x => { x with rxq := x.rxq.drop 1 })
  | 6 => ((0, (xqueue b 6 index).headD []), b.ptpUpd index fun x => { x with rx := x.rx.drop 1 })
  | _ => ((0, slice (certBytes b) ofs n), b)

/-- Another session owns staging, or a commit with an image is accepted and not yet applied (R625). -/
def stageHeld (b : Block) (k : Nat) : Bool :=
  (b.cm.owner.isSome && decide (b.cm.owner ≠ some k)) || (b.cm.image.isSome && (decide (b.cm.ph = .accepted) || decide (b.cm.ph = .go)))

/-- The status of a transfer write before it acts: the first of FORMAT, ALIGN, ADDRESS, ROLE, REFUSED. -/
def xwriteStatus (b : Block) (k target index ofs : Nat) (data : List Byte) : Nat :=
  let n := data.length
  let role (need : Nat) (refused : Bool) : Nat := if !hasRoles b k need then 4 else if refused then 5 else 0
  if (target = 3 ∧ (n < 4 ∨ 260 < n ∨ n % 4 ≠ 0)) ∨ (target = 5 ∧ n < 4) ∨ ofs % 4 ≠ 0 then 1
  else
    match target with
    | 1 => match partIdx b index with
      | some p =>
        if p.size * 65536 < ofs + n then 3
        else role roleConfigure (decide (p.kind = 4) || hitsLocked b (p.base * 65536 + ofs) n)
      | none => 3
    | 2 => if index ≠ 0 ∨ stageSize < ofs + n then 3 else role roleConfigure (stageHeld b k)
    | 3 => if decide (index < 12) && Fld.BL_PORT_CFG_EN b.cfg index then role roleOperate false else 3
    | 5 => if decide (index < 2) && Fld.NT_PTP_CFG_EN b.cfg index then role roleOperate false else 3
    | _ => 3

/-- A transfer write that has passed its checks: status and block. -/
def xwrite (k target : Nat) (last : Bool) (index ofs : Nat) (data : List Byte) (b : Block) : Nat × Block :=
  match target with
  | 1 => match partIdx b index with
    | some p => (0, memWrite (p.base * 65536 + ofs) data b)
    | none => (3, b)
  | 2 =>
    let b := memWrite (stageBase + ofs) data b
    if b.cm.ph ≠ .idle then (if last then (cmStatus codeBusy, b) else (0, b))
    else
      let b := { b with cm := { b.cm with owner := some k } }
      if last then
        let n := min stageSize (leNat (tabBytes 0 b.mem (stageBase + 0x0C) 4))
        (0, stageImage k (tabBytes 0 b.mem stageBase n) (badIn b stageBase n) b)
      else (0, b)
  | 3 =>
    let pt := b.blAt index
    if pt.fwdq.length + pt.hostq.length < 8 then
      (0, b.blUpd index fun x => { x with hostq := x.hostq ++ [(decide (leAt data 1 1 ≠ 0), leAt data 0 1, data.drop 4)] })
    else (5, b.blUpd index fun x => { x with fwdDrop := satAdd 255 x.fwdDrop 1 })
  | _ =>
    if (b.ptpAt index).txq.length < 16 then
      (0, b.ptpUpd index fun x => { x with txq := x.txq ++ [{ frame := data.drop 4, tsReq := bit (leAt data 0 4) 0, oneStep := bit (leAt data 0 4) 1 }] })
    else (5, b.ptpUpd index fun x => { x with txOvf := true })

/-! ### Set-points (R628, R629) -/

/-- The status of a SETPOINT before it acts. -/
def setpointStatus (b : Block) (k tile input : Nat) : Nat :=
  if !tileOn b tile || decide (spI b tile input = 0) then 3
  else if !hasRoles b k roleOperate then 4
  else if Fld.BL_SPIN_EN b.cfg tile input then 5
  else 0

/-- The credit of a session at `now`, in units of 10^−9 set-point. -/
def spCredit (now k : Nat) (b : Block) : Nat :=
  let x := b.sessAt k
  let rate := b.run.spRate.getD k 0
  min (max 1 (ceilDiv rate 100) * 1000000000) (x.credit + rate * (now - x.creditAt))

/-- A set-point goes on its way to its input; one that finds no credit travels as class 5 and is counted (R28, R629). -/
def setpointOp (now k tile input apply : Nat) (value : Int) (b : Block) : Block :=
  let c := spCredit now k b
  let paid := decide (b.run.spRate.getD k 0 ≠ 0) && decide (1000000000 ≤ c)
  let b := b.sessUpd k fun x =>
    { x with credit := if paid then c - 1000000000 else c, creditAt := now, class5 := if paid then x.class5 else satAdd 0xFFFFFFFF x.class5 1 }
  { b with spFly := b.spFly ++ [{ dst := 32 * tile + input, apply := apply, val := value, src := k, cls5 := !paid, at_ := now }] }

/-! ### Checks of a request (R620) -/

/-- The first status of a list that is not 0. -/
def firstBad (l : List Nat) : Nat := (l.find? fun e => decide (e ≠ 0)).getD 0

/-- The requests that R557 permits outside a session. -/
def plainRead (b : Block) (a : Nat) : Bool :=
  let open_ := decide (b.nv.life ≠ .retired)
  ((secBufAt a).isSome && open_) ||
    (match regAt a with
     | some (.ID_REV, _) | some (.SEC_LIFECYCLE, _) => true
     | some (.SEC_STATUS, _) | some (.SEC_CHALLENGE, _) | some (.SEC_RESULT, _) => open_
     | _ => false)
def plainWrite (b : Block) (a : Nat) (v : Word) : Bool :=
  decide (b.nv.life ≠ .retired) && ((secBufAt a).isSome && decide (a % 4 = 0) || (match regAt a with | some (.SEC_CTRL, _) => !bit v.toNat 4 | _ => false))
def plainOk (b : Block) (c : HCmd) : Bool :=
  match c with
  | .read a n => (List.range n).all fun i => decide (a % 4 = 0) && plainRead b (a + 4 * i)
  | .write a ws => ((List.range ws.length).zip ws).all fun e => plainWrite b (a + 4 * e.1) e.2
  | .xread target _ _ _ => decide (target = 7) && decide (b.nv.life ≠ .retired)
  | _ => false

/-- The status of a staging write before it acts. -/
def stageStatus (b : Block) (k a : Nat) : Nat :=
  let e := readStatus b a
  if e ≠ 0 then e
  else
    match regAt a with
    | some (r, _) => if sgMask r = 0 then 5 else if hasRoles b k (stageRole a) then 0 else 4
    | none => 5

/-- The status of a command before it acts, on bank `k`: 0 to 7 a session, 8 to 10 a plain request. -/
def cmdStatus (now k : Nat) (b : Block) (c : HCmd) : Nat :=
  match c with
  | .bad _ => 1
  | c =>
    if 8 ≤ k ∧ !plainOk b c then 5
    else
      match c with
      | .read a n => firstBad ((List.range n).map fun i => readStatus b (a + 4 * i))
      | .write a ws => firstBad (((List.range ws.length).zip ws).map fun e => writeStatus now k (a + 4 * e.1) e.2.toNat b)
      | .stage a ws => firstBad ((List.range ws.length).map fun i => stageStatus b k (a + 4 * i))
      | .commit _ _ | .store => if !b.run.on then 5 else if hasRoles b k roleConfigure then 0 else 4
      | .xread target index ofs n => xreadStatus b target index ofs n
      | .xwrite target _ index ofs data => xwriteStatus b k target index ofs data
      | .setpoint tile input _ _ => setpointStatus b k tile input
      | .bad _ => 1

/-- The returned data of each command, in bytes; `seen` are the queue reads before. -/
def respLens (b : Block) : List HCmd → List (Nat × Nat) → List Nat
  | [], _ => []
  | c :: r, seen =>
    match c with
    | .read _ n => 4 * n :: respLens b r seen
    | .commit _ _ => 16 :: respLens b r seen
    | .store => 4 :: respLens b r seen
    | .xread target index _ n => xreadLen b target index n (seen.filter fun q => decide (q = (target, index))).length :: respLens b r ((target, index) :: seen)
    | _ => 0 :: respLens b r seen

/-- The response of a request would be too long (R618). -/
def respTooLong (b : Block) (cs : List HCmd) : Bool := decide (1440 < 8 + ((respLens b cs []).map fun n => 4 + n).sum)

/-- The statuses of a request's commands before any acts; all 0: it is carried out. -/
def reqStatuses (now k : Nat) (b : Block) (cs : List HCmd) : List Nat :=
  if decide (64 < cs.length) || respTooLong b cs then cs.map fun _ => 1
  else
    let l := cs.map (cmdStatus now k b)
    if l.all fun e => decide (e = 0) then l else l.map fun e => if e = 0 then 7 else e

/-! ### Effects (R619, R621) -/

/-- Register writes from an address upwards, to the first that is refused. -/
def writeWords (k : Nat) : Nat → List Word → State → Nat × State
  | _, [], s => (0, s)
  | a, v :: r, s =>
    let x := regWrite k a v.toNat s
    if x.1 ≠ 0 then x else writeWords k (a + 4) r x.2

/-- Staging writes from an address upwards, to the first that is refused. -/
def stageWords (k : Nat) : Nat → List Word → State → Nat × State
  | _, [], s => (0, s)
  | a, v :: r, s =>
    let x := stageOp k a v s.b
    if x.1 ≠ 0 then (x.1, s) else stageWords k (a + 4) r { s with b := x.2 }

/-- CM_APPLY and CM_CTRL.COMMIT of session `k`: the status when the commit is turned away at once (R619). -/
def commitCmd (k : Nat) (asap : Bool) (tick : Nat) (s : State) : Nat × State :=
  let busy := decide (s.b.cm.ph ≠ .idle) || (s.b.cm.owner.isSome && decide (s.b.cm.owner ≠ some k))
  let s := s.mapB fun b =>
    commitOp s.clk.lattice k asap (setReg (regAddr .CM_APPLY_HI []) 0 (BitVec.ofNat 32 (tick / 2 ^ 32)) (setReg (regAddr .CM_APPLY_LO []) 0 (BitVec.ofNat 32 tick) b))
  (if busy then cmStatus codeBusy else 0, s)

/-- A result of a command. -/
def cmdRes (c : HCmd) (status : Nat) (data : List Byte) : CmdRes := { op := cmdOp c, status := status, data := if status = 0 then data else [] }

/-- One command other than a READ: its status and data, what it waits for, the state after it. -/
def runCmd (k : Nat) (c : HCmd) (s : State) : (Nat × List Byte) × Wait × State :=
  let now := s.clk.lattice
  match c with
  | .read a n => let x := wordsRead now k n a s.b; ((0, x.1.flatMap fun w => leBytes 4 w.toNat), .none, { s with b := x.2 })
  | .write a ws => let x := writeWords k a ws s; ((x.1, []), .none, x.2)
  | .stage a ws => let x := stageWords k a ws s; ((x.1, []), .none, x.2)
  | .commit asap tick => let x := commitCmd k asap tick s; ((x.1, []), if x.1 = 0 then .commit else .none, x.2)
  | .store =>
    let running := s.b.storeOp.isSome
    let b := Sys2Proof.Machine.storeOp now s.b
    ((if running then 0x43 else if b.storeOp.isSome then 0 else 0x40 + b.storeSt, []), if !running && b.storeOp.isSome then .store else .none, { s with b := b })
  | .xread target index ofs n => let x := xread target index ofs n s.b; (x.1, .none, { s with b := x.2 })
  | .xwrite target last index ofs data =>
    let x := xwrite k target last index ofs data s.b
    ((x.1, []), if decide (x.1 = 0) && last && decide (target = 2) then .image else .none, { s with b := x.2 })
  | .setpoint tile input apply value => ((0, []), .none, s.mapB (setpointOp now k tile input apply value))
  | .bad _ => ((1, []), .none, s)

/-- The outcome of a command that waited, once it is there (R622, R625). -/
def waitDone (w : Wait) (b : Block) : Option (Nat × List Byte) :=
  match w with
  | .none => some (0, [])
  | .commit =>
    if b.cm.ph = .checking then none
    else some (if b.cm.code = 0 then (0, leBytes 8 b.cm.apply ++ leBytes 8 b.cm.acceptAt) else (cmStatus b.cm.code, []))
  | .store =>
    if b.storeOp.isSome then none
    else some (if b.storeSt = 0 then (0, leBytes 4 ((newestCopy b).elim 0 fun i => (copyAt b i).seq)) else (0x40 + b.storeSt, []))
  | .image => if b.cm.imgDone then some (if b.cm.imgCode = 0 then (0, []) else (cmStatus b.cm.imgCode, [])) else none

/-- The die that a READ, WRITE or STAGE addresses (R621). -/
def runDie (c : HCmd) : Option Nat :=
  match c with
  | .read a _ => some (addrInst a)
  | .write a _ => some (addrInst a)
  | .stage a _ => some (addrInst a)
  | _ => none

/-- The writes of a run, in order, to the first that is refused: a status for each command, none for a READ that is still to be taken. -/
def runWrites (k : Nat) : List HCmd → State → List (HCmd × Option Nat) × State
  | [], s => ([], s)
  | c :: r, s =>
    match c with
    | .read _ _ => let y := runWrites k r s; ((c, none) :: y.1, y.2)
    | c =>
      let x := runCmd k c s
      if x.1.1 ≠ 0 then ((c, some x.1.1) :: r.map fun d => (d, some 7), x.2.2)
      else let y := runWrites k r x.2.2; ((c, some 0) :: y.1, y.2)

/-- The reads of a run, after its writes. -/
def runReads (k : Nat) : List (HCmd × Option Nat) → State → List CmdRes × State
  | [], s => ([], s)
  | (c, some e) :: r, s => let y := runReads k r s; (cmdRes c e [] :: y.1, y.2)
  | (c, none) :: r, s =>
    let x := runCmd k c s
    let y := runReads k r x.2.2
    (cmdRes c x.1.1 x.1.2 :: y.1, y.2)

/-- The commands of a request from the first that has not been carried out, after the results `done`; `rest` are those not yet carried out when one waits. -/
def runCmds (k : Nat) : Nat → List HCmd → List CmdRes → State → (List CmdRes × List HCmd × Wait) × State
  | 0, cs, done, s => ((done, cs, .none), s)
  | _, [], done, s => ((done, [], .none), s)
  | n + 1, c :: r, done, s =>
    match runDie c with
    | some d =>
      let seg := c :: r.takeWhile fun x => decide (runDie x = some d)
      let tl := (c :: r).drop seg.length
      let w := runWrites k seg s
      let y := runReads k w.1 w.2
      if y.1.any fun x => decide (x.status ≠ 0) then ((done ++ y.1 ++ tl.map fun x => cmdRes x 7 [], [], .none), y.2)
      else runCmds k n tl (done ++ y.1) y.2
    | none =>
      let x := runCmd k c s
      if x.2.1 ≠ .none then ((done, c :: r, x.2.1), x.2.2)
      else if x.1.1 ≠ 0 then ((done ++ cmdRes c x.1.1 [] :: r.map fun y => cmdRes y 7 [], [], .none), x.2.2)
      else runCmds k n r (done ++ [cmdRes c 0 x.1.2]) x.2.2

/-! ### Requests (R618, R622) -/

/-- The payload of a response; N counts words for a READ and bytes otherwise. -/
def respBytes (id count : Nat) (rs : List CmdRes) : List Byte :=
  leBytes 4 id ++ leBytes 2 count ++ leBytes 2 0
    ++ rs.flatMap fun r => leBytes 1 r.op ++ leBytes 1 r.status ++ leBytes 2 (if r.op = 1 then r.data.length / 4 else r.data.length) ++ r.data

/-- A request payload: REQ_ID, COUNT and the bytes of its commands; none when it is malformed. One with more than 64 commands is refused as a whole (R618), as far as its response can hold a result for each. -/
def parseReq (pl : List Byte) : Option Req :=
  let n := leAt pl 4 2
  if 8 ≤ pl.length ∧ 1 ≤ n ∧ n ≤ 358 ∧ leAt pl 6 2 = 0 then some { id := leAt pl 0 4, count := n, rest := splitCmds n (pl.drop 8) } else none

/-- A command writes SF_VERIFY. -/
def asksVerify (c : HCmd) : Bool :=
  match c with
  | .write a ws => (List.range ws.length).any fun i => decide (a + 4 * i = regAddr .SF_VERIFY [])
  | _ => false

/-- A request begins: its checks, then its commands, as far as none waits. -/
def reqBegin (k : Nat) (q : Req) (s : State) : Req × State :=
  let cs := q.rest.map parseCmd
  let st := reqStatuses s.clk.lattice k s.b cs
  if st.any fun e => decide (e ≠ 0) then ({ q with done := (cs.zip st).map fun e => cmdRes e.1 e.2 [], rest := [] }, if cs.any asksVerify then s.mapB (verifyTurned k) else s)
  else
    let x := runCmds k 64 cs [] s
    ({ q with done := x.1.1, rest := q.rest.drop (q.rest.length - x.1.2.1.length), wait := x.1.2.2 }, x.2)

/-- A request whose command waited goes on when the outcome is there. -/
def reqResume (k : Nat) (q : Req) (s : State) : Req × State :=
  match q.rest.map parseCmd, waitDone q.wait s.b with
  | c :: r, some (e, data) =>
    let d := q.done ++ [cmdRes c e data]
    if e ≠ 0 then ({ q with done := d ++ r.map fun y => cmdRes y 7 [], rest := [], wait := .none }, s)
    else
      let x := runCmds k 64 r d s
      ({ q with done := x.1.1, rest := q.rest.drop (q.rest.length - x.1.2.1.length), wait := x.1.2.2 }, x.2)
  | _, _ => (q, s)

/-- The requests of a session from the oldest: one that is complete is answered, and the next begins. -/
def reqServe (k : Nat) : Nat → State → State
  | 0, s => s
  | n + 1, s =>
    match (s.b.sessAt k).reqs with
    | [] => s
    | q :: r =>
      let x := if q.done.isEmpty && decide (q.wait = .none) then reqBegin k q s else reqResume k q s
      let s := x.2
      if (s.b.sessAt k).reqs.isEmpty then s
      else if x.1.wait ≠ .none then s.mapB fun b => b.sessUpd k fun y => { y with reqs := x.1 :: r }
      else
        let s := s.mapB fun b => sessSend s.clk.lattice k 5 (respBytes x.1.id x.1.count x.1.done) (b.sessUpd k fun y => { y with reqs := r })
        reqServe k n s

/-- The last command row of a session gets its result once what it waited for is there. -/
def lastServe (k : Nat) (b : Block) : Block :=
  let x := b.sessAt k
  if x.lastWait = .none then b
  else
    match waitDone x.lastWait b with
    | some (e, data) => setLast k x.last.op e data b
    | none => b

/-- What waits in every session, in session order (R621). -/
def reqServeAll (s : State) : State :=
  (List.range 8).foldl (fun s k =>
    let s := s.mapB (lastServe k)
    if ((s.b.sessAt k).reqs.head?.any fun q => decide (q.wait ≠ .none)) then reqServe k 9 s else s) s

/-- A command row of an open session: checked as a request of one command, its result kept as the session's last. -/
def oneCmd (k : Nat) (c : HCmd) (s : State) : State :=
  if !s.clk.up || decide ((s.b.sessAt k).st ≠ .open_) then s
  else
    let st := firstBad (reqStatuses s.clk.lattice k s.b [c])
    if st ≠ 0 then (if asksVerify c then s.mapB (verifyTurned k) else s).mapB (setLast k (cmdOp c) st [])
    else
      let x := runCmd k c s
      x.2.2.mapB fun b => (setLast k (cmdOp c) x.1.1 (if x.1.1 = 0 then x.1.2 else []) b).sessUpd k fun y => { y with lastWait := x.2.1 }

end Sys2Proof.Machine
end

