-- ==== Sys2Proof/Machine/HostRows.lean ====
section
/-! DEFINITION. Commands of sessions, requests and host ports (chapters 15 and 17). -/

namespace Sys2Proof.Machine

/-! ### Session handshake (R573, R574, R616, R617) -/

/-- A closed session number. -/
def freeSess (b : Block) : Option Nat := (List.range 8).find? fun k => decide ((b.sessAt k).st = .closed)

/-- A handshake begins: keys, nonces and transcript of session `k`, and the REPLY. -/
def helloOpen (now p src k : Nat) (m : List Byte) (b : Block) : Block :=
  let d := b.draws
  let nonce := slice (Config.random (d + 1) 16) 0 16
  let cert := b.nv.keys.cert
  let body := slice (Config.ecPoint d) 0 97 ++ leBytes 3 0 ++ nonce ++ leBytes 1 k ++ leBytes 3 0 ++ leBytes 4 cert.length ++ cert
  let h := msgHead 2 0xFF (body.length + 96) 0
  let sig := slice (Config.ecdsaSign (d + 2) (Config.sha384 (m ++ h ++ body))) 0 96
  let x : Sess :=
    { st := .handshake, port := p, src := src, lastAt := now, eph := d, nonces := slice m 116 16 ++ nonce, hostPoint := slice m 16 97
      transcript := m ++ h ++ body ++ sig, class5 := (b.sessAt k).class5 }
  plainSend p src 2 (body ++ sig) { (b.sessUpd k fun _ => x) with draws := d + 3 }

/-- A HELLO (R573): refused outside OWNED and FIELD_SERVICE (R550 too) and when 8 sessions are open. -/
def helloOp (now p : Nat) (b : Block) : Block :=
  match msgTake p 1 b with
  | none => b
  | some (src, m, b) =>
    if msgLen m ≠ 116 then b
    else if !(decide (b.nv.life = .owned) || decide (b.nv.life = .fieldService)) || b.tr.keystoreErr then refuseSend p src 4 b
    else
      match freeSess b with
      | none => refuseSend p src 1 b
      | some k => helloOpen now p src k m b

/-- HELLO (R573). -/
def execHello (p : Fin 3) (s : State) : Host.Outcome State Fault Refusal := onHub (fun now => helloOp now p) s

/-- The certificates of a FINISH from an offset, leaf first, and the offset after them. -/
def finishCerts (pl : List Byte) : Nat → Nat → Option (List (List Byte) × Nat)
  | 0, o => some ([], o)
  | n + 1, o =>
    match lenItem pl o pl.length with
    | some (c, e) => (finishCerts pl n e).map fun r => (c :: r.1, r.2)
    | none => none

/-- The session that a FINISH completes: the one that its header names, or the handshake of its source. -/
def finishSess (b : Block) (p src : Nat) (m : List Byte) : Option Nat :=
  if msgSess m < 8 then (if (b.sessAt (msgSess m)).st = .handshake then some (msgSess m) else none)
  else (List.range 8).find? fun k => let x := b.sessAt k; decide (x.st = .handshake) && decide (x.port = p) && decide (x.src = src)

/-- The session opens with its roles, keys and credit (R574, R629). -/
def finishOpen (now k roles : Nat) (chain : List (List Byte)) (b : Block) : Block :=
  let x := b.sessAt k
  let keys := slice (Config.hkdf (Config.ecdh x.eph x.hostPoint) x.nonces [] 64) 0 64
  b.sessUpd k fun x =>
    { st := .open_, port := x.port, src := x.src, roles := roleAnd (roleAnd roles (chainRoles chain)) 30 + roleObserve, chain := chain.map certId
      rejects := x.rejects, lastAt := now, keyIn := keys.take 32, keyOut := keys.drop 32
      credit := max 1 (ceilDiv (b.run.spRate.getD k 0) 100) * 1000000000, creditAt := now }

/-- A FINISH (R574): its chain, then its signature. -/
def finishOp (now p : Nat) (b : Block) : Block :=
  match msgTake p 3 b with
  | none => b
  | some (src, m, b) =>
    match finishSess b p src m with
    | none => b
    | some k =>
      let x := b.sessAt k
      if x.port ≠ p ∨ x.src ≠ src then sessReject k b
      else
        let pl := msgBody m
        let n := leAt pl 1 1
        match (if decide (2 ≤ n ∧ n ≤ 4 ∧ leAt pl 2 2 = 0) then finishCerts pl n 4 else none) with
        | none => refuseSend p src 2 b
        | some (chain, o) =>
          match chainJudge b b.nv.keys.owner chain with
          | .error _ => refuseSend p src 2 b
          | .ok _ =>
            let signed := x.transcript ++ m.take (16 + o)
            if decide (pl.length = o + 96) && certSigned (chain.headD []) (Config.sha384 signed) (slice pl o 96) then finishOpen now k (leAt pl 0 1) chain b
            else refuseSend p src 3 b

/-- FINISH (R574). -/
def execFinish (p : Fin 3) (s : State) : Host.Outcome State Fault Refusal := onHub (fun now => finishOp now p) s

/-- A handshake without a valid FINISH ends 5 s after its HELLO (R10, R617). -/
def handshakeTick (now k : Nat) (b : Block) : Block :=
  let x := b.sessAt k
  if decide (x.st = .handshake) && decide (x.lastAt + 5000000000 ≤ now) then refuseSend x.port x.src 5 (b.sessUpd k sessClear) else b

/-- HANDSHAKE_TIMEOUT (R617). -/
def execHandshakeTimeout (k : Fin 8) (s : State) : Host.Outcome State Fault Refusal := onHub (fun now => handshakeTick now k) s

/-! ### Messages of a session -/

/-- A REQUEST (R618 to R622): at most 8 of a session wait. -/
def requestOp (p : Nat) (s : State) : State :=
  let now := s.clk.lattice
  match msgTake p 4 s.b with
  | none => s
  | some (src, m, b) =>
    let x := sessAccept now p src m (fun x => decide (8 ≤ x.reqs.length)) b
    match x.1 with
    | none => { s with b := x.2 }
    | some (k, pl) =>
      match parseReq pl with
      | none => { s with b := sessWorn now k (sessReject k x.2) }
      | some q =>
        let first := (x.2.sessAt k).reqs.isEmpty
        let s := { s with b := x.2.sessUpd k fun y => { y with reqs := y.reqs ++ [q] } }
        (if first then reqServe k 9 s else s).mapB (sessWorn now k)

/-- REQUEST (R620). -/
def execRequest (p : Fin 3) (s : State) : Host.Outcome State Fault Refusal := .next (if s.clk.up then requestOp p s else s)

/-- A PLAIN_REQUEST (R557, R631). -/
def plainOp (p : Nat) (s : State) : State :=
  match msgTake p 8 s.b with
  | none => s
  | some (src, m, b) =>
    match parseReq (msgBody m) with
    | none => { s with b := b }
    | some q =>
      let x := reqBegin (8 + p) q { s with b := b }
      x.2.mapB (plainSend p src 9 (respBytes q.id q.count x.1.done))

/-- PLAIN_REQUEST (R631). -/
def execPlainRequest (p : Fin 3) (s : State) : Host.Outcome State Fault Refusal := .next (if s.clk.up then plainOp p s else s)

/-- A connection that runs over session `k` (R536). -/
def connOnSess (b : Block) (k c : Nat) : Bool := Fld.SF_CONN_CFG_PATH b.cfg c && decide (Fld.SF_CONN_CFG_SESSION b.cfg c = k)

/-- A SAFETY message (R536): on a session without the SAFETY role it is discarded. -/
def safetyMsgOp (now p : Nat) (b : Block) : Block :=
  match msgTake p 6 b with
  | none => b
  | some (src, m, b) =>
    let x := sessAccept now p src m (fun _ => false) b
    match x.1 with
    | none => x.2
    | some (k, pl) =>
      let b := x.2
      sessWorn now k (if hasRoles b k roleSafety && decide (pl.length = 20) then connDeliver now (connOnSess b k) pl b else b)

/-- SAFETY_MESSAGE (R536). -/
def execSafetyMessage (p : Fin 3) (s : State) : Host.Outcome State Fault Refusal := onHub (fun now => safetyMsgOp now p) s

/-- One PDU of a host-path connection every SEND_P (R539), while its session is open with the SAFETY role. -/
def pduSendTick (now c : Nat) (b : Block) : Block :=
  let k := Fld.SF_CONN_CFG_SESSION b.cfg c
  if Fld.SF_CONN_CFG_EN b.cfg c && Fld.SF_CONN_CFG_PATH b.cfg c && hasRoles b k roleSafety
      && decide ((b.connAt c).sendAt + Fld.SF_CONN_SEND_SEND_P b.cfg c * 1000000 ≤ now) then
    let b := connForm now c (connNorm c b)
    sessSend now k 6 (b.connAt c).pdu b
  else b

/-- SAFETY_PDU_SEND (R539). -/
def execSafetyPduSend (c : Fin 48) (s : State) : Host.Outcome State Fault Refusal := onRun (fun now => pduSendTick now c) s

/-- CLOSE (R576). -/
def closeOp (now p : Nat) (b : Block) : Block :=
  match msgTake p 7 b with
  | none => b
  | some (src, m, b) =>
    let x := sessAccept now p src m (fun _ => false) b
    match x.1 with
    | none => x.2
    | some (k, _) => sessEnd now k x.2

/-- CLOSE (R576). -/
def execClose (p : Fin 3) (s : State) : Host.Outcome State Fault Refusal := onHub (fun now => closeOp now p) s

/-! ### Commands of a session (R618, R619, R624, R628) -/

/-- A command row: the command as its fields spell it; fields out of range make it malformed. -/
def fielded (op : Nat) (ok : Bool) (c : HCmd) : HCmd := if ok then c else .bad op

/-- CMD_READ (R618). -/
def execCmdRead (k : Fin 8) (n addr : Nat) (s : State) : Host.Outcome State Fault Refusal :=
  .next (oneCmd k (fielded 1 (decide (1 ≤ n ∧ n ≤ 256 ∧ addr < 2 ^ 32)) (.read addr n)) s)

/-- CMD_WRITE (R619). -/
def execCmdWrite (k : Fin 8) (addr : Nat) (data : List Word) (s : State) : Host.Outcome State Fault Refusal :=
  .next (oneCmd k (fielded 2 (decide (1 ≤ data.length ∧ data.length ≤ 256 ∧ addr < 2 ^ 32)) (.write addr data)) s)

/-- CMD_STAGE (R619). -/
def execCmdStage (k : Fin 8) (addr : Nat) (data : List Word) (s : State) : Host.Outcome State Fault Refusal :=
  .next (oneCmd k (fielded 3 (decide (1 ≤ data.length ∧ data.length ≤ 256 ∧ addr < 2 ^ 32)) (.stage addr data)) s)

/-- CMD_COMMIT (R619). -/
def execCmdCommit (k : Fin 8) (asap : Bool) (tick : Nat) (s : State) : Host.Outcome State Fault Refusal :=
  .next (oneCmd k (fielded 4 (decide (tick < 2 ^ 64)) (.commit asap tick)) s)

/-- CMD_STORE (R619). -/
def execCmdStore (k : Fin 8) (s : State) : Host.Outcome State Fault Refusal := .next (oneCmd k .store s)

/-- CMD_XFER_READ (R624). -/
def execCmdXferRead (k : Fin 8) (target n index ofs : Nat) (s : State) : Host.Outcome State Fault Refusal :=
  .next (oneCmd k (fielded 6 (decide (4 ≤ n ∧ n ≤ 1024 ∧ n % 4 = 0 ∧ 1 ≤ target ∧ target ≤ 7 ∧ index < 256 ∧ ofs < 2 ^ 32)) (.xread target index ofs n)) s)

/-- CMD_XFER_WRITE (R624). -/
def execCmdXferWrite (k : Fin 8) (target : Nat) (last : Bool) (index ofs : Nat) (data : List Byte) (s : State) : Host.Outcome State Fault Refusal :=
  .next (oneCmd k (fielded 7 (decide (1 ≤ target ∧ target ≤ 7 ∧ index < 256 ∧ ofs < 2 ^ 32 ∧ data.length < 65536)) (.xwrite target last index ofs data)) s)

/-- CMD_SETPOINT (R628). -/
def execCmdSetpoint (k : Fin 8) (tile input apply : Nat) (value : DWord) (s : State) : Host.Outcome State Fault Refusal :=
  .next (oneCmd k (fielded 8 (decide (tile < 8 ∧ input < 32 ∧ apply < 2 ^ 64)) (.setpoint tile input apply value.toInt)) s)

/-! ### What requests wait for -/

/-- COMMIT_CHECKS_DONE (R99 to R102): the commit is accepted or rejected, and a COMMIT command completes. -/
def execCommitChecksDone (s : State) : Host.Outcome State Fault Refusal :=
  .next (if s.b.run.on then reqServeAll (s.mapB (checksDoneOp s.clk.lattice)) else s)

/-- STORE_DONE (R109), and a STORE command completes. -/
def execStoreDone (s : State) : Host.Outcome State Fault Refusal :=
  .next (if s.b.run.on then reqServeAll (s.mapB (Sys2Proof.Machine.storeDone s.clk.lattice)) else s)

/-- IMAGE_VERIFY_DONE (R94), and a transfer with LAST completes (R625). -/
def execImageVerifyDone (s : State) : Host.Outcome State Fault Refusal :=
  .next (if s.clk.up then reqServeAll (s.mapB verifyDone) else s)

/-! ### The serial host port (R613, R614) -/

/-- PUT: a third message, or one cut short, is discarded and sets RX_OVF. -/
def putOp (m : List Byte) (whole : Bool) (b : Block) : Block :=
  if !whole || decide (2 ≤ (b.hpAt 2).rx.length) then b.hpUpd 2 fun x => { x with rxOvf := true } else msgPut 2 0 m b

/-- PUT (R614). -/
def execPut (msg : List Byte) (whole : Bool) (s : State) : Host.Outcome State Fault Refusal := onHub (fun _ => putOp msg whole) s

/-- GET (R614). -/
def execGet (s : State) : Host.Outcome State Fault Refusal :=
  onHub (fun _ b => b.hpUpd 2 fun x =>
    match x.tx with
    | (_, m) :: r => { x with tx := r, out := leBytes 2 m.length ++ m }
    | [] => { x with out := leBytes 2 0 }) s

/-- STATUS (R613). -/
def execStatus (s : State) : Host.Outcome State Fault Refusal :=
  onHub (fun _ b => b.hpUpd 2 fun x => { x with out := leBytes 1 (flag (!x.tx.isEmpty) 0 + flag (decide (2 ≤ x.rx.length)) 1) }) s

/-! ### The Ethernet ports (R610 to R612) -/

/-- A MAC is in use: HP_MAC_CFG.EN of the running image; while no image runs the ports serve sessions (R119). -/
def macUsed (b : Block) (m : Nat) : Bool := decide (b.nv.life ≠ .blank) && (!b.run.on || Fld.HP_MAC_CFG_EN b.cfg m)

/-- The IPv4 address of a MAC (R611). -/
def ownIp (b : Block) (m : Nat) : Nat :=
  let d := deviceId b
  if Fld.HP_MAC_IP_ADDR b.cfg m ≠ 0 then Fld.HP_MAC_IP_ADDR b.cfg m else 169 * 2 ^ 24 + 254 * 2 ^ 16 + (1 + leAt d 5 1 % 254) * 256 + leAt d 6 1

/-- The offset of a frame's Ethertype: behind one IEEE 802.1Q tag, if there is one. -/
def etherAt (f : List Byte) : Nat := if beAt f 12 2 = 0x8100 then 16 else 12

/-- The answer to an ARP request for the MAC's own address: the 28 bytes of the ARP reply. -/
def arpReply (b : Block) (m : Nat) (f : List Byte) : List Byte :=
  let o := etherAt f + 2
  slice f o 6 ++ (leBytes 2 2).reverse ++ macBytes b m ++ (leBytes 4 (ownIp b m)).reverse ++ slice f (o + 8) 10

/-- An accepted IPv4 frame: a session message, or an ICMP echo request, which is answered. -/
def ipTake (m : Nat) (f : List Byte) (b : Block) : Block :=
  let o := etherAt f + 2
  let h := o + 4 * (beAt f o 1 % 16)
  let src := beAt f (o + 12) 4
  if beAt f (o + 16) 4 ≠ ownIp b m then b
  else if beAt f (o + 9) 1 = 17 then
    (if beAt f (h + 2) 2 = 4960 then msgPut m (src * 65536 + beAt f h 2) (slice f (h + 8) (beAt f (h + 4) 2 - 8)) b else b)
  else if beAt f (o + 9) 1 = 1 ∧ beAt f h 1 = 8 then
    let n := beAt f (o + 2) 2 - (h - o)
    let c := beAt f (h + 2) 2 + 0x0800
    b.hpUpd m fun x => { x with tx := x.tx ++ [(src, leBytes 1 0 ++ slice f (h + 1) 1 ++ (leBytes 2 (c % 65536 + c / 65536)).reverse ++ slice f (h + 4) (n - 4))] }
  else b

/-- A received frame, from its destination address and without FCS (R610, R612). -/
def frameTake (m : Nat) (f : List Byte) (b : Block) : Block :=
  let e := beAt f (etherAt f) 2
  if !macUsed b m then b
  else if 1518 < f.length then b.hpUpd m fun x => { x with discard := satAdd 65535 x.discard 1 }
  else if (ptpAt f).isSome && Fld.NT_PTP_CFG_EN b.cfg m then b
  else if slice f 0 6 = macBytes b m then
    (if e = 0x0800 then ipTake m f b
     else if e = 0x0806 ∧ beAt f (etherAt f + 8) 2 = 1 ∧ beAt f (etherAt f + 26) 4 = ownIp b m then
       b.hpUpd m fun x => { x with tx := x.tx ++ [(beAt f (etherAt f + 16) 4, arpReply b m f)] }
     else b)
  else if decide (slice f 0 6 = List.replicate 6 0xFF) && decide (e = 0x0806) then
    (if beAt f (etherAt f + 8) 2 = 1 ∧ beAt f (etherAt f + 26) 4 = ownIp b m then
       b.hpUpd m fun x => { x with tx := x.tx ++ [(beAt f (etherAt f + 16) 4, arpReply b m f)] }
     else b)
  else b.hpUpd m fun x => { x with discard := satAdd 65535 x.discard 1 }

/-- ETH_FRAME_RX (R612). -/
def execEthFrameRx (m : Fin 2) (frame : List Byte) (s : State) : Host.Outcome State Fault Refusal := onHub (fun _ => frameTake m frame) s

/-- PHY_POLL (R610). -/
def execPhyPoll (m : Fin 2) (link fast full : Bool) (s : State) : Host.Outcome State Fault Refusal :=
  onHub (fun _ b => if macUsed b m then b.hpUpd m fun x => { x with link := link, fast := fast, full := full } else b) s

end Sys2Proof.Machine
end

