-- ==== Sys2Proof/Machine/Lattice.lean ====
section
/-! DEFINITION. The lattice tick: inputs, and everything that is due at a tick in the order of R11; the loss of the reference and the supplies of a pace change (chapter 2). -/

namespace Sys2Proof.Machine

/-! ### Inputs -/

/-- A level at a sigma-delta data input. -/
def sdPin (k : Nat) (lv : Bool) (a : NatAx) : NatAx :=
  match k with
  | 0 => { a with sd0 := { a.sd0 with pin := lv } }
  | 1 => { a with sd1 := { a.sd1 with pin := lv } }
  | _ => { a with sd2 := { a.sd2 with pin := lv } }

/-- VBAT at `mv` (R642): an unpowered backup domain loses its content below 1.8 V. -/
def vbatPin (up : Bool) (mv : Nat) (b : Block) : Block :=
  let b := { b with pw := { b.pw with vbatIn := mv }, tr := { b.tr with vbatOk := decide (2000 ≤ mv ∧ mv ≤ 3600) } }
  if decide (mv < 1800) && !up then { b with bk := { lost := true, seedGone := b.bk.seedGone } } else b

/-- A change of an input land at `ts` waits for its hold filter (R216). -/
def landEdge (ts : Nat) (lv : Bool) (i : HoldIn) : HoldIn := { i with edges := i.edges ++ [(ts, lv)] }

/-- A change at QA, QB or QZ of a channel. -/
def quadEdge (k ts : Nat) (lv : Bool) (x : Qd) : Qd :=
  match k with
  | 0 => { x with inA := landEdge ts lv x.inA }
  | 1 => { x with inB := landEdge ts lv x.inB }
  | _ => { x with inZ := landEdge ts lv x.inZ }

/-- A level at QA, QB or QZ of a channel of a tile that does not sample. -/
def quadLevel (k : Nat) (lv : Bool) (x : Qd) : Qd :=
  match k with
  | 0 => { x with a := lv }
  | 1 => { x with b := lv }
  | _ => { x with z := lv }

/-- A change at an input, in force from this tick; at the filtered inputs of R216 it carries its time in ns. -/
def pinApply (now : Nat) (up : Bool) (p : Pin) (b : Block) : Block :=
  match p with
  | .sd t j k lv => b.natUpd t j (sdPin k lv)
  | .ndf t j lv => b.natUpd t j fun a => { a with trips := { a.trips with ndf := lv } }
  | .nqrf t q lv => b.qdUpd t q fun x => { x with flt := { x.flt with nqrf := lv } }
  | .quad t q k ago lv => b.qdUpd t q (if tileLive b t then quadEdge k (now - ago) lv else quadLevel k lv)
  | .probe t p ago lv => b.prbUpd t p fun x => if tileLive b t then { x with inp := landEdge (now - ago) lv x.inp } else { x with level := lv }
  | .field m k lv => fieldCh m k (fun c => { c with pin := lv }) b
  | .hot m k on => fieldCh m k (fun c => { c with hot := on }) b
  | .lowCurrent m k on => fieldCh m k (fun c => { c with lowCur := on }) b
  | .inLimit m k on => fieldCh m k (fun c => { c with limit := on }) b
  | .transfer m low headroom => b.fpUpd m fun x => { x with transferLow := low, headroom := min 255 headroom }
  | .fieldUp m => b.fpUpd m fun x => { fBoot x with transferLow := false }
  | .genStuck t j on =>
    let n := 4 * t.val + j.val
    let l := b.genStuck.filter fun x => decide (x ≠ n)
    { b with genStuck := if on then n :: l else l }
  | .receiving p chB sof => b.blUpd p fun x =>
      let x := { x with sofSeen := x.sofSeen || sof.isSome }
      if chB then { x with busyB := sof } else { x with busyA := sof }
  | .signal p chB lv => b.blUpd p fun x => if chB then { x with sdB := lv } else { x with sdA := lv }
  | .tamp n lv => if n = 0 then { b with tamp0 := some lv } else { b with tamp1 := some lv }
  | .enrol lv => { b with tr := { b.tr with enrolStrap := lv } }
  | .hsQuad lv => { b with hsQuad := lv }
  | .vbat mv => vbatPin up mv b
  | .supply vaux power => { b with pw := powerSource { b.pw with vaux := vaux, watts := power } }

/-! ### Before step 1 of R11: time, samples, hardware trips -/

/-- The real-time counter, the measurement of VBAT, network time, steps and captures (R448, R451, R454, R600). -/
def tickTime (now : Nat) (b : Block) : Block :=
  let b := if now % 1000000000 = 0 then { b with bk := { b.bk with rtc := b.bk.rtc + 1 }, pw := { b.pw with vbat := b.pw.vbatIn } } else b
  let b := { b with nt := ntAdvance (signed 32 (Fld.NT_RATE_RATE b.cfg)) b.nt }
  let b := ntStepsAt now b
  teStepAll now { b with nt := ntCapture now b.nt }

/-- Update points since the tick before, sampled inputs, filters and hardware trips of a tile (R173, R181, R183, R187, R203, R235). A parameter that a commit changes
at this tick comes into force after an update point that falls on it (R187). -/
def tileSense (now t : Nat) (b : Block) : Block :=
  let b := forN 4 (fun j x => natUpdatePoint now t j x) b
  let b := forN 4 (fun j x => sumCheck now t j (stuckCheck now t j (ocCheck now t j (dfCheck now t j (dfTick t j (sdSampleAt now t j x)))))) b
  forN 8 (fun q x => rxCheck now t q (rxTick t q x)) b

/-- Timers of a tile (R190, R201, R202, R211, R230, R234, R292, R322, R325, R326, R356). -/
def tileTimers (now t : Nat) (b : Block) : Block :=
  let b := forN 4 (fun j x => stepperHold now t j (natCoarse now t j (natAlignEnd now t j (natBrakeEnd now t j x)))) b
  let b := forN 8 (fun q x => leakOp now t q (stillOp now t q x)) b
  let b := if (fastGroup b t).isNone then forN 8 (fun q x => x.qdUpd t q (qdTakePend now)) b else b
  let b := forN 16 (fun j x => genHomeTimeout now t j x) b
  let b := forN 8 (fun i x => nxOffExpire now t (8 + i) (nxEnExpire now t (8 + i) x)) b
  let b := forN 4 (fun c x => cmpActDue now t c (x.cmpUpd t c (cmpPulseEnd now))) b
  forN 16 (fun m x => mbStale now t m x) b

/-! ### Steps 1 to 5 of R11 -/

/-- A fall, or the return of a rise, has settled at the latest after 2 ms (R66). -/
def paceTick (now : Nat) (b : Block) : Block :=
  let b := if b.paceChanging && !b.cm.rise && decide (b.paceEnd ≤ now) then { b with paceChanging := false } else b
  paceRise now b

/-- The frame apply step of a tile (R75). -/
def tileFrames (now t : Nat) (b : Block) : Block :=
  let b := stResume now t b
  let b := if tileLive b t then forN 32 (fun n => spTick now t n) b else b
  let b := forN 4 (fun g => applyGroup now t g) b
  forN 4 (fun g => sampleGroup now t g) b

/-- The acquisition unit of a tile at a tick (R365, R377, R384, R385). -/
def tileAcq (now t : Nat) (b : Block) : Block :=
  aqRowAt now t (aqStopAt now t (aqRearmAt now t (aqTimer now t 1 (aqTimer now t 0 b))))

/-- Timed events in unit order; a pulse whose width has passed ends first (R458). -/
def tickEvents (now : Nat) (b : Block) : Block := forN 32 (fun u => teTick now u) (forN 8 (fun k => teoEnd now k) b)

/-- The field pairs at a tick. -/
def tickFields (now : Nat) (b : Block) : Block :=
  let b := forN 4 (fun m => fieldTick now m) b
  if now % 20000 = 2500 then forN 4 (fun m x => linkCheck now m (fieldApply now m x)) b else b

/-- The timers of the hub (R380, R539, R561, R568, R576, R583, R588, R617). -/
def tickHub (now : Nat) (b : Block) : Block :=
  let b := windowOp now (tamperSample now (serviceTick now (challengeTick now b)))
  forN 8 (fun k x => sessIdle now k (handshakeTick now k x)) b

/-- Everything that the running module does at a tick. -/
def tickRun (now : Nat) (pins : List Pin) (b : Block) : Block :=
  let b := forL (liveTiles b) (fun t => forN 4 (fun j => sdSampleAt (now - 5) t j)) b
  let b := pins.foldl (fun x p => pinApply now true p x) b
  let b := tickTime now b
  let b := forL (liveTiles b) (fun t => tileSense now t) b
  let b := forL (liveTiles b) (fun t => forN 4 (fun i => pulseTick now t i)) b
  -- 1: safety engine actions
  let b := tickFields now (safetyTick now b)
  -- 2: commit application
  let b := paceTick now b
  let b := exchangeAt now (commitApplyOp now (Sys2Proof.Machine.commitDecision now b))
  let b := forL (liveTiles b) (fun t => tileTimers now t) b
  let b := aqArmTick now b
  -- 3: frame apply
  let b := forL (tilesOf b) (fun t => tileFrames now t) b
  let b := forL (liveTiles b) (fun t => tileInputs now t) b
  let b := forL (liveTiles b) (fun t => tileAcq now t) (feedAll now b)
  let b := forN 8 (fun g => plgAfter g) b
  -- 4: timed events
  let b := tickEvents now b
  -- 5: links, host-visible status
  let b := berathTick now { b with aqHub := aqSend now b.aqHub }
  tickHub now (forN 48 (fun c => pduSendTick now c) b)

/-- A module that has left reset at the tick `now`. -/
def blockTick (now : Nat) (pins : List Pin) (b : Block) : Block :=
  let b := { b with marks := [] }
  let b := forN 2 (fun m x => x.hpUpd m fun h => { h with tx := [] }) b
  if b.run.on then tickRun now pins b else tickHub now (tickTime now (pins.foldl (fun x p => pinApply now true p x) b))

/-- LATTICE_TICK (R11, R49): while the hub is in reset the lattice stands at 0 and only inputs change. -/
def latticeStep (pins : List Pin) (s : State) : State :=
  if s.clk.up then
    let now := s.clk.lattice + 10
    reqServeAll { s with clk := { s.clk with lattice := now }, b := blockTick now pins s.b }
  else s.mapB fun b => pins.foldl (fun x p => pinApply 0 false p x) b

/-- LATTICE_TICK (R49). -/
def execLatticeTick (pins : List Pin) (s : State) : Host.Outcome State Fault Refusal := .next (latticeStep pins s)

/-! ### The reference and the supplies -/

/-- The reference is lost (R52): the lattice goes on without a step until the next restart, and the next evaluation acts on it. -/
def refLostOp (now : Nat) (b : Block) : Block :=
  if b.refLost then b else logEvent now 0x0010 0 0 { b with refLost := true, sf := { b.sf with refDue := some now } }

/-- REF_LOST (R52). -/
def execRefLost (s : State) : Host.Outcome State Fault Refusal := onHub refLostOp s

/-- PACE_RAMP_START (R66). -/
def execPaceRampStart (s : State) : Host.Outcome State Fault Refusal := onRun paceRise s

/-- PACE_RAMP_SETTLED (R66). -/
def execPaceRampSettled (s : State) : Host.Outcome State Fault Refusal := onRun (fun _ b => { b with paceChanging := false }) s

end Sys2Proof.Machine
end

