-- ==== Sys2Proof/Machine/Dispatch.lean ====
section
/-! DEFINITION. One arm for each command: its meaning. -/

namespace Sys2Proof.Machine

/-- The effect of a command on everything but the queue. -/
def exec (i : Instr) (s : State) : Host.Outcome State Fault Refusal :=
  match i with
  | .latticeTick a1 => Sys2Proof.Machine.execLatticeTick a1 s
  | .refLost => Sys2Proof.Machine.execRefLost s
  | .sampleInstant a1 a2 => Sys2Proof.Machine.execSampleInstant a1 a2 s
  | .applyInstant a1 a2 => Sys2Proof.Machine.execApplyInstant a1 a2 s
  | .frameComplete a1 a2 => Sys2Proof.Machine.execFrameComplete a1 a2 s
  | .paceRampStart => Sys2Proof.Machine.execPaceRampStart s
  | .paceRampSettled => Sys2Proof.Machine.execPaceRampSettled s
  | .tlGrpClear a1 a2 => Sys2Proof.Machine.execTlGrpClear a1 a2 s
  | .setpointReceived a1 a2 => Sys2Proof.Machine.execSetpointReceived a1 a2 s
  | .setpointTakesEffect a1 a2 => Sys2Proof.Machine.execSetpointTakesEffect a1 a2 s
  | .extrapolationStart a1 a2 => Sys2Proof.Machine.execExtrapolationStart a1 a2 s
  | .lateSetpointFault a1 a2 => Sys2Proof.Machine.execLateSetpointFault a1 a2 s
  | .stagingWrite a1 a2 a3 => Sys2Proof.Machine.execStagingWrite a1 a2 a3 s
  | .commit a1 a2 => Sys2Proof.Machine.execCommit a1 a2 s
  | .commitChecksDone => Sys2Proof.Machine.execCommitChecksDone s
  | .abort a1 => Sys2Proof.Machine.execAbort a1 s
  | .discard a1 => Sys2Proof.Machine.execDiscard a1 s
  | .diePrepared a1 => Sys2Proof.Machine.execDiePrepared a1 s
  | .commitDecision => Sys2Proof.Machine.execCommitDecision s
  | .commitApply => Sys2Proof.Machine.execCommitApply s
  | .store a1 => Sys2Proof.Machine.execStore a1 s
  | .storeDone => Sys2Proof.Machine.execStoreDone s
  | .imgInstall a1 a2 => Sys2Proof.Machine.execImgInstall a1 a2 s
  | .imgNext a1 => Sys2Proof.Machine.execImgNext a1 s
  | .imgStageSlot a1 a2 => Sys2Proof.Machine.execImgStageSlot a1 a2 s
  | .imgConfirm => Sys2Proof.Machine.execImgConfirm s
  | .imageVerifyDone => Sys2Proof.Machine.execImageVerifyDone s
  | .boot => Sys2Proof.Machine.execBoot s
  | .schedSeal a1 a2 => Sys2Proof.Machine.execSchedSeal a1 a2 s
  | .schedSealDone a1 a2 => Sys2Proof.Machine.execSchedSealDone a1 a2 s
  | .schedUnseal a1 a2 => Sys2Proof.Machine.execSchedUnseal a1 a2 s
  | .schedReselect a1 a2 => Sys2Proof.Machine.execSchedReselect a1 a2 s
  | .modeNow a1 a2 a3 => Sys2Proof.Machine.execModeNow a1 a2 a3 s
  | .modeArm a1 a2 a3 a4 => Sys2Proof.Machine.execModeArm a1 a2 a3 a4 s
  | .axEnable a1 a2 => Sys2Proof.Machine.execAxEnable a1 a2 s
  | .axDisable a1 a2 => Sys2Proof.Machine.execAxDisable a1 a2 s
  | .axAlign a1 a2 => Sys2Proof.Machine.execAxAlign a1 a2 s
  | .gateEnableAssert a1 a2 => Sys2Proof.Machine.execGateEnableAssert a1 a2 s
  | .prechargeEnd a1 a2 => Sys2Proof.Machine.execPrechargeEnd a1 a2 s
  | .axDisableComplete a1 a2 => Sys2Proof.Machine.execAxDisableComplete a1 a2 s
  | .brakeHoldEnd a1 a2 => Sys2Proof.Machine.execBrakeHoldEnd a1 a2 s
  | .alignComplete a1 a2 => Sys2Proof.Machine.execAlignComplete a1 a2 s
  | .updatePoint a1 a2 => Sys2Proof.Machine.execUpdatePoint a1 a2 s
  | .edgeCalibration a1 a2 => Sys2Proof.Machine.execEdgeCalibration a1 a2 s
  | .edgeCoarse a1 a2 => Sys2Proof.Machine.execEdgeCoarse a1 a2 s
  | .dfTrip a1 a2 => Sys2Proof.Machine.execDfTrip a1 a2 s
  | .ocTrip a1 a2 => Sys2Proof.Machine.execOcTrip a1 a2 s
  | .sdStuck a1 a2 => Sys2Proof.Machine.execSdStuck a1 a2 s
  | .sumTrip a1 a2 => Sys2Proof.Machine.execSumTrip a1 a2 s
  | .axTripClear a1 a2 a3 => Sys2Proof.Machine.execAxTripClear a1 a2 a3 s
  | .faultHoldEnd a1 a2 => Sys2Proof.Machine.execFaultHoldEnd a1 a2 s
  | .stepperHold a1 a2 => Sys2Proof.Machine.execStepperHold a1 a2 s
  | .qdCount a1 a2 a3 a4 a5 => Sys2Proof.Machine.execQdCount a1 a2 a3 a4 a5 s
  | .indexEvent a1 a2 a3 a4 => Sys2Proof.Machine.execIndexEvent a1 a2 a3 a4 s
  | .setPos a1 a2 => Sys2Proof.Machine.execSetPos a1 a2 s
  | .idxArm a1 a2 => Sys2Proof.Machine.execIdxArm a1 a2 s
  | .idxDisarm a1 a2 => Sys2Proof.Machine.execIdxDisarm a1 a2 s
  | .illLeak a1 a2 => Sys2Proof.Machine.execIllLeak a1 a2 s
  | .standstill a1 a2 => Sys2Proof.Machine.execStandstill a1 a2 s
  | .probeEdge a1 a2 a3 a4 => Sys2Proof.Machine.execProbeEdge a1 a2 a3 a4 s
  | .prbPop a1 a2 => Sys2Proof.Machine.execPrbPop a1 a2 s
  | .prbFlush a1 a2 => Sys2Proof.Machine.execPrbFlush a1 a2 s
  | .rxFault a1 a2 => Sys2Proof.Machine.execRxFault a1 a2 s
  | .qdFaultClear a1 a2 a3 => Sys2Proof.Machine.execQdFaultClear a1 a2 a3 s
  | .pgStart a1 a2 => Sys2Proof.Machine.execPgStart a1 a2 s
  | .pgStop a1 a2 => Sys2Proof.Machine.execPgStop a1 a2 s
  | .pgHome a1 a2 => Sys2Proof.Machine.execPgHome a1 a2 s
  | .pgSeal a1 a2 => Sys2Proof.Machine.execPgSeal a1 a2 s
  | .pgSealDone a1 a2 => Sys2Proof.Machine.execPgSealDone a1 a2 s
  | .pgUnseal a1 a2 => Sys2Proof.Machine.execPgUnseal a1 a2 s
  | .prefetchArrival a1 a2 => Sys2Proof.Machine.execPrefetchArrival a1 a2 s
  | .immediateStop a1 a2 => Sys2Proof.Machine.execImmediateStop a1 a2 s
  | .pulseDue a1 a2 => Sys2Proof.Machine.execPulseDue a1 a2 s
  | .pulseIssue a1 a2 => Sys2Proof.Machine.execPulseIssue a1 a2 s
  | .stepPulseEnd a1 a2 => Sys2Proof.Machine.execStepPulseEnd a1 a2 s
  | .pgAxEnable a1 a2 => Sys2Proof.Machine.execPgAxEnable a1 a2 s
  | .pgAxDisable a1 a2 => Sys2Proof.Machine.execPgAxDisable a1 a2 s
  | .homingTimeout a1 a2 => Sys2Proof.Machine.execHomingTimeout a1 a2 s
  | .feedInstant a1 => Sys2Proof.Machine.execFeedInstant a1 s
  | .plgStart a1 => Sys2Proof.Machine.execPlgStart a1 s
  | .plgHold a1 => Sys2Proof.Machine.execPlgHold a1 s
  | .plgResume a1 => Sys2Proof.Machine.execPlgResume a1 s
  | .plgStop a1 => Sys2Proof.Machine.execPlgStop a1 s
  | .plgFeedWrite a1 a2 => Sys2Proof.Machine.execPlgFeedWrite a1 a2 s
  | .plgMemberEvent a1 => Sys2Proof.Machine.execPlgMemberEvent a1 s
  | .clutchEngage a1 a2 => Sys2Proof.Machine.execClutchEngage a1 a2 s
  | .clutchDisengage a1 a2 => Sys2Proof.Machine.execClutchDisengage a1 a2 s
  | .clutchZero a1 a2 => Sys2Proof.Machine.execClutchZero a1 a2 s
  | .remoteMasterValue a1 a2 => Sys2Proof.Machine.execRemoteMasterValue a1 a2 s
  | .camSeal a1 a2 => Sys2Proof.Machine.execCamSeal a1 a2 s
  | .camSealDone a1 a2 => Sys2Proof.Machine.execCamSealDone a1 a2 s
  | .camUnseal a1 a2 => Sys2Proof.Machine.execCamUnseal a1 a2 s
  | .camReselect a1 a2 => Sys2Proof.Machine.execCamReselect a1 a2 s
  | .camFetchArrival a1 a2 => Sys2Proof.Machine.execCamFetchArrival a1 a2 s
  | .cmpArm a1 a2 => Sys2Proof.Machine.execCmpArm a1 a2 s
  | .cmpDisarm a1 a2 => Sys2Proof.Machine.execCmpDisarm a1 a2 s
  | .cmpClear a1 a2 => Sys2Proof.Machine.execCmpClear a1 a2 s
  | .comparePulseEnd a1 a2 => Sys2Proof.Machine.execComparePulseEnd a1 a2 s
  | .nxEnable a1 a2 => Sys2Proof.Machine.execNxEnable a1 a2 s
  | .nxDisable a1 a2 => Sys2Proof.Machine.execNxDisable a1 a2 s
  | .nxEnableTimeout a1 a2 => Sys2Proof.Machine.execNxEnableTimeout a1 a2 s
  | .nxDisableTimeout a1 a2 => Sys2Proof.Machine.execNxDisableTimeout a1 a2 s
  | .nxFeedbackReceived a1 a2 => Sys2Proof.Machine.execNxFeedbackReceived a1 a2 s
  | .nxSetpointAtHub a1 a2 => Sys2Proof.Machine.execNxSetpointAtHub a1 a2 s
  | .nop a1 => Sys2Proof.Machine.execNop a1 s
  | .ld a1 => Sys2Proof.Machine.execLd a1 s
  | .st a1 => Sys2Proof.Machine.execSt a1 s
  | .mvm a1 => Sys2Proof.Machine.execMvm a1 s
  | .ldi a1 => Sys2Proof.Machine.execLdi a1 s
  | .mov a1 => Sys2Proof.Machine.execMov a1 s
  | .mova a1 => Sys2Proof.Machine.execMova a1 s
  | .aadd a1 => Sys2Proof.Machine.execAadd a1 s
  | .add a1 => Sys2Proof.Machine.execAdd a1 s
  | .sub a1 => Sys2Proof.Machine.execSub a1 s
  | .ash a1 => Sys2Proof.Machine.execAsh a1 s
  | .and a1 => Sys2Proof.Machine.execAnd a1 s
  | .or a1 => Sys2Proof.Machine.execOr a1 s
  | .xor a1 => Sys2Proof.Machine.execXor a1 s
  | .cmp a1 => Sys2Proof.Machine.execCmp a1 s
  | .abs a1 => Sys2Proof.Machine.execAbs a1 s
  | .mul a1 => Sys2Proof.Machine.execMul a1 s
  | .mac a1 => Sys2Proof.Machine.execMac a1 s
  | .msu a1 => Sys2Proof.Machine.execMsu a1 s
  | .vmac a1 => Sys2Proof.Machine.execVmac a1 s
  | .accr a1 => Sys2Proof.Machine.execAccr a1 s
  | .aclr a1 => Sys2Proof.Machine.execAclr a1 s
  | .bfly a1 => Sys2Proof.Machine.execBfly a1 s
  | .bscale a1 => Sys2Proof.Machine.execBscale a1 s
  | .srch a1 => Sys2Proof.Machine.execSrch a1 s
  | .mbsnap a1 => Sys2Proof.Machine.execMbsnap a1 s
  | .mbout a1 => Sys2Proof.Machine.execMbout a1 s
  | .mbpost a1 => Sys2Proof.Machine.execMbpost a1 s
  | .br a1 => Sys2Proof.Machine.execBr a1 s
  | .dbnz a1 => Sys2Proof.Machine.execDbnz a1 s
  | .call a1 => Sys2Proof.Machine.execCall a1 s
  | .ret a1 => Sys2Proof.Machine.execRet a1 s
  | .reti a1 => Sys2Proof.Machine.execReti a1 s
  | .rep a1 => Sys2Proof.Machine.execRep a1 s
  | .wait a1 => Sys2Proof.Machine.execWait a1 s
  | .evclr a1 => Sys2Proof.Machine.execEvclr a1 s
  | .setie a1 => Sys2Proof.Machine.execSetie a1 s
  | .xfer a1 => Sys2Proof.Machine.execXfer a1 s
  | .halt a1 => Sys2Proof.Machine.execHalt a1 s
  | .sqDispatch a1 => Sys2Proof.Machine.execSqDispatch a1 s
  | .sqXferDone a1 a2 => Sys2Proof.Machine.execSqXferDone a1 a2 s
  | .mailboxStale a1 a2 => Sys2Proof.Machine.execMailboxStale a1 a2 s
  | .sqHalt a1 => Sys2Proof.Machine.execSqHalt a1 s
  | .sqRun a1 => Sys2Proof.Machine.execSqRun a1 s
  | .sqReset a1 => Sys2Proof.Machine.execSqReset a1 s
  | .sqClrStats a1 => Sys2Proof.Machine.execSqClrStats a1 s
  | .sqDoorbell a1 a2 => Sys2Proof.Machine.execSqDoorbell a1 a2 s
  | .localMemoryWrite a1 a2 a3 => Sys2Proof.Machine.execLocalMemoryWrite a1 a2 a3 s
  | .acqRow a1 => Sys2Proof.Machine.execAcqRow a1 s
  | .blockWriteback a1 => Sys2Proof.Machine.execBlockWriteback a1 s
  | .triggerTimerExpiry a1 a2 => Sys2Proof.Machine.execTriggerTimerExpiry a1 a2 s
  | .aqArm a1 a2 => Sys2Proof.Machine.execAqArm a1 a2 s
  | .aqDisarm a1 => Sys2Proof.Machine.execAqDisarm a1 s
  | .aqForce => Sys2Proof.Machine.execAqForce s
  | .armTick => Sys2Proof.Machine.execArmTick s
  | .aqStop a1 => Sys2Proof.Machine.execAqStop a1 s
  | .aqRelease a1 a2 => Sys2Proof.Machine.execAqRelease a1 a2 s
  | .aqClrStats a1 => Sys2Proof.Machine.execAqClrStats a1 s
  | .firingAtHub a1 => Sys2Proof.Machine.execFiringAtHub a1 s
  | .setTriggerSend => Sys2Proof.Machine.execSetTriggerSend s
  | .setTriggerReceived a1 => Sys2Proof.Machine.execSetTriggerReceived a1 s
  | .rearm a1 => Sys2Proof.Machine.execRearm a1 s
  | .acqStopComplete a1 => Sys2Proof.Machine.execAcqStopComplete a1 s
  | .cycleStart => Sys2Proof.Machine.execCycleStart s
  | .matrixStart => Sys2Proof.Machine.execMatrixStart s
  | .rekey a1 => Sys2Proof.Machine.execRekey a1 s
  | .downWindowAssembly a1 => Sys2Proof.Machine.execDownWindowAssembly a1 s
  | .arbitratingDownWindow a1 => Sys2Proof.Machine.execArbitratingDownWindow a1 s
  | .keyOfferRetry a1 => Sys2Proof.Machine.execKeyOfferRetry a1 s
  | .windowClose a1 => Sys2Proof.Machine.execWindowClose a1 s
  | .feedbackFrameRx a1 a2 => Sys2Proof.Machine.execFeedbackFrameRx a1 a2 s
  | .setpointFrameRx a1 a2 => Sys2Proof.Machine.execSetpointFrameRx a1 a2 s
  | .safetyFrameRx a1 a2 => Sys2Proof.Machine.execSafetyFrameRx a1 a2 s
  | .dataFrameRx a1 a2 => Sys2Proof.Machine.execDataFrameRx a1 a2 s
  | .startupFrameRx a1 a2 => Sys2Proof.Machine.execStartupFrameRx a1 a2 s
  | .joinFrameRx a1 a2 => Sys2Proof.Machine.execJoinFrameRx a1 a2 s
  | .keyFrameRx a1 a2 => Sys2Proof.Machine.execKeyFrameRx a1 a2 s
  | .channelUp a1 a2 => Sys2Proof.Machine.execChannelUp a1 a2 s
  | .channelDown a1 a2 => Sys2Proof.Machine.execChannelDown a1 a2 s
  | .quicksetDecision => Sys2Proof.Machine.execQuicksetDecision s
  | .quicksetExpired => Sys2Proof.Machine.execQuicksetExpired s
  | .blPortEnable a1 => Sys2Proof.Machine.execBlPortEnable a1 s
  | .blPortDisable a1 => Sys2Proof.Machine.execBlPortDisable a1 s
  | .blClrStats a1 => Sys2Proof.Machine.execBlClrStats a1 s
  | .ntRateWrite a1 => Sys2Proof.Machine.execNtRateWrite a1 s
  | .ntStep => Sys2Proof.Machine.execNtStep s
  | .ntStepEffect => Sys2Proof.Machine.execNtStepEffect s
  | .ntCapture => Sys2Proof.Machine.execNtCapture s
  | .teArm a1 => Sys2Proof.Machine.execTeArm a1 s
  | .teDisarm a1 => Sys2Proof.Machine.execTeDisarm a1 s
  | .timedEventFire a1 => Sys2Proof.Machine.execTimedEventFire a1 s
  | .teoPulseEnd a1 => Sys2Proof.Machine.execTeoPulseEnd a1 s
  | .captureRecord a1 => Sys2Proof.Machine.execCaptureRecord a1 s
  | .ptpRx a1 a2 a3 => Sys2Proof.Machine.execPtpRx a1 a2 a3 s
  | .ptpTx a1 a2 => Sys2Proof.Machine.execPtpTx a1 a2 s
  | .ptpTsPop a1 => Sys2Proof.Machine.execPtpTsPop a1 s
  | .fieldExchange => Sys2Proof.Machine.execFieldExchange s
  | .fieldFrameRx a1 a2 => Sys2Proof.Machine.execFieldFrameRx a1 a2 s
  | .fieldFrameApply a1 => Sys2Proof.Machine.execFieldFrameApply a1 s
  | .inputAccepted a1 a2 => Sys2Proof.Machine.execInputAccepted a1 a2 s
  | .linkLost a1 => Sys2Proof.Machine.execLinkLost a1 s
  | .fieldWdExpired a1 => Sys2Proof.Machine.execFieldWdExpired a1 s
  | .safetyWdExpired a1 => Sys2Proof.Machine.execSafetyWdExpired a1 s
  | .wdRelease a1 => Sys2Proof.Machine.execWdRelease a1 s
  | .fioClrCnt a1 => Sys2Proof.Machine.execFioClrCnt a1 s
  | .fioOutSet a1 a2 => Sys2Proof.Machine.execFioOutSet a1 a2 s
  | .fioOutClr a1 a2 => Sys2Proof.Machine.execFioOutClr a1 a2 s
  | .overload a1 a2 => Sys2Proof.Machine.execOverload a1 a2 s
  | .overtemp a1 a2 => Sys2Proof.Machine.execOvertemp a1 a2 s
  | .openLoad a1 a2 => Sys2Proof.Machine.execOpenLoad a1 a2 s
  | .readback a1 a2 => Sys2Proof.Machine.execReadback a1 a2 s
  | .lpLow a1 a2 => Sys2Proof.Machine.execLpLow a1 a2 s
  | .transferFail a1 => Sys2Proof.Machine.execTransferFail a1 s
  | .fioDiagClear a1 a2 a3 => Sys2Proof.Machine.execFioDiagClear a1 a2 a3 s
  | .safetyEvaluation => Sys2Proof.Machine.execSafetyEvaluation s
  | .safetyDecisionEffect => Sys2Proof.Machine.execSafetyDecisionEffect s
  | .engineStall => Sys2Proof.Machine.execEngineStall s
  | .safetyDiagCycle a1 => Sys2Proof.Machine.execSafetyDiagCycle a1 s
  | .zoneReset a1 => Sys2Proof.Machine.execZoneReset a1 s
  | .ack a1 a2 => Sys2Proof.Machine.execAck a1 a2 s
  | .stoTest a1 a2 => Sys2Proof.Machine.execStoTest a1 a2 s
  | .btStart a1 a2 => Sys2Proof.Machine.execBtStart a1 a2 s
  | .brakeTestStep a1 a2 => Sys2Proof.Machine.execBrakeTestStep a1 a2 s
  | .sfVerify a1 => Sys2Proof.Machine.execSfVerify a1 s
  | .safetyPduRx a1 => Sys2Proof.Machine.execSafetyPduRx a1 s
  | .safetyConnExpiry a1 => Sys2Proof.Machine.execSafetyConnExpiry a1 s
  | .safetyPduSend a1 => Sys2Proof.Machine.execSafetyPduSend a1 s
  | .graceExpiry a1 a2 => Sys2Proof.Machine.execGraceExpiry a1 a2 s
  | .stopTimeout a1 a2 => Sys2Proof.Machine.execStopTimeout a1 a2 s
  | .stoDue a1 a2 => Sys2Proof.Machine.execStoDue a1 a2 s
  | .btDue a1 a2 => Sys2Proof.Machine.execBtDue a1 a2 s
  | .newChallenge => Sys2Proof.Machine.execNewChallenge s
  | .challengeExpiry => Sys2Proof.Machine.execChallengeExpiry s
  | .submit a1 => Sys2Proof.Machine.execSubmit a1 s
  | .tokenCheckDone => Sys2Proof.Machine.execTokenCheckDone s
  | .enrol a1 => Sys2Proof.Machine.execEnrol a1 s
  | .attest a1 => Sys2Proof.Machine.execAttest a1 s
  | .endService => Sys2Proof.Machine.execEndService s
  | .fieldServiceExpiry => Sys2Proof.Machine.execFieldServiceExpiry s
  | .lifecycleTransition => Sys2Proof.Machine.execLifecycleTransition s
  | .generateIdentity => Sys2Proof.Machine.execGenerateIdentity s
  | .hello a1 => Sys2Proof.Machine.execHello a1 s
  | .finish a1 => Sys2Proof.Machine.execFinish a1 s
  | .handshakeTimeout a1 => Sys2Proof.Machine.execHandshakeTimeout a1 s
  | .request a1 => Sys2Proof.Machine.execRequest a1 s
  | .plainRequest a1 => Sys2Proof.Machine.execPlainRequest a1 s
  | .safetyMessage a1 => Sys2Proof.Machine.execSafetyMessage a1 s
  | .close a1 => Sys2Proof.Machine.execClose a1 s
  | .sessionIdleExpiry a1 => Sys2Proof.Machine.execSessionIdleExpiry a1 s
  | .sessionEnd a1 => Sys2Proof.Machine.execSessionEnd a1 s
  | .tamperDetect a1 => Sys2Proof.Machine.execTamperDetect a1 s
  | .marginMeasure a1 a2 => Sys2Proof.Machine.execMarginMeasure a1 a2 s
  | .eccCorrected a1 a2 => Sys2Proof.Machine.execEccCorrected a1 a2 s
  | .eccUncorrectable a1 a2 => Sys2Proof.Machine.execEccUncorrectable a1 a2 s
  | .healthWindow => Sys2Proof.Machine.execHealthWindow s
  | .holdupMeasure a1 => Sys2Proof.Machine.execHoldupMeasure a1 s
  | .supplyFault a1 a2 => Sys2Proof.Machine.execSupplyFault a1 a2 s
  | .temperatureRead a1 a2 => Sys2Proof.Machine.execTemperatureRead a1 a2 s
  | .logNvmWrite => Sys2Proof.Machine.execLogNvmWrite s
  | .replaceClear a1 => Sys2Proof.Machine.execReplaceClear a1 s
  | .logSel a1 => Sys2Proof.Machine.execLogSel a1 s
  | .stStart a1 a2 => Sys2Proof.Machine.execStStart a1 a2 s
  | .stAbort => Sys2Proof.Machine.execStAbort s
  | .selftestSaveDone => Sys2Proof.Machine.execSelftestSaveDone s
  | .selftestTestDone a1 a2 => Sys2Proof.Machine.execSelftestTestDone a1 a2 s
  | .selftestRestoreDone => Sys2Proof.Machine.execSelftestRestoreDone s
  | .tapInstruction a1 => Sys2Proof.Machine.execTapInstruction a1 s
  | .cmdRead a1 a2 a3 => Sys2Proof.Machine.execCmdRead a1 a2 a3 s
  | .cmdWrite a1 a2 a3 => Sys2Proof.Machine.execCmdWrite a1 a2 a3 s
  | .cmdStage a1 a2 a3 => Sys2Proof.Machine.execCmdStage a1 a2 a3 s
  | .cmdCommit a1 a2 a3 => Sys2Proof.Machine.execCmdCommit a1 a2 a3 s
  | .cmdStore a1 => Sys2Proof.Machine.execCmdStore a1 s
  | .cmdXferRead a1 a2 a3 a4 a5 => Sys2Proof.Machine.execCmdXferRead a1 a2 a3 a4 a5 s
  | .cmdXferWrite a1 a2 a3 a4 a5 a6 => Sys2Proof.Machine.execCmdXferWrite a1 a2 a3 a4 a5 a6 s
  | .cmdSetpoint a1 a2 a3 a4 a5 => Sys2Proof.Machine.execCmdSetpoint a1 a2 a3 a4 a5 s
  | .put a1 a2 => Sys2Proof.Machine.execPut a1 a2 s
  | .get => Sys2Proof.Machine.execGet s
  | .status => Sys2Proof.Machine.execStatus s
  | .ethFrameRx a1 a2 => Sys2Proof.Machine.execEthFrameRx a1 a2 s
  | .phyPoll a1 a2 a3 a4 => Sys2Proof.Machine.execPhyPoll a1 a2 a3 a4 s
  | .powerFailWarning => Sys2Proof.Machine.execPowerFailWarning s
  | .powerFailClear => Sys2Proof.Machine.execPowerFailClear s
  | .railReset => Sys2Proof.Machine.execRailReset s
  | .registerWrite a1 a2 a3 => Sys2Proof.Machine.execRegisterWrite a1 a2 a3 s
  | .invalidCopyRx a1 a2 => Sys2Proof.Machine.execInvalidCopyRx a1 a2 s
  | .attestDone => Sys2Proof.Machine.execAttestDone s
  | .enrolCheckDone => Sys2Proof.Machine.execEnrolCheckDone s
  | .selftestAccepted => Sys2Proof.Machine.execSelftestAccepted s
  | .brakeOpen a1 a2 => Sys2Proof.Machine.execBrakeOpen a1 a2 s
  | .fieldCommandAtHub a1 a2 => Sys2Proof.Machine.execFieldCommandAtHub a1 a2 s
  | .illegalInstruction a1 => Sys2Proof.Machine.execIllegalInstruction a1 s
  | .fetchFault a1 => Sys2Proof.Machine.execFetchFault a1 s
  | .supplyRecovered a1 => Sys2Proof.Machine.execSupplyRecovered a1 s
  | .supplySourceChange a1 a2 => Sys2Proof.Machine.execSupplySourceChange a1 a2 s

end Sys2Proof.Machine
end

