-- ==== Sys2Proof/Machine/Lands.lean ====
section
/-! DEFINITION. The levels of the output lands (R33, R37, R172, R184 to R186, R190, R199, R278 to R281, R322, R390, R458, R650, R656), as functions of the module. -/

namespace Sys2Proof.Machine

/-- An output land: high impedance, low, high. -/
inductive Land where
  | hiZ | low | high
  deriving DecidableEq, Repr

/-- A driven land at level `lv`. -/
def landOf (lv : Bool) : Land := if lv then .high else .low

/-- A driven land whose active level is `pol`. -/
def landAct (active pol : Bool) : Land := landOf (active == pol)

/-- A land of tile `t`: high impedance while the tile is unpowered or no image runs (R37, R656). -/
def tileLand (b : Block) (t : Nat) (l : Land) : Land := if tileOn b t then l else .hiZ

/-! ### PWM lands (R184 to R186, R190, R199) -/

/-- One carrier half period of a leg, times in units of 250 ps: its start and length, the high-side half-widths before it and in it, whether it runs from the valley
to the peak, the dead time, edges on ticks. -/
structure HalfLeg where
  start : Int := 0
  len : Int := 0
  hBefore : Int := 0
  h : Int := 0
  rising : Bool := true
  dt : Int := 0
  coarse : Bool := false
  deriving DecidableEq, Repr

/-- An edge as it is placed: while the edge timer is coarse on a tick, truncating (R190). -/
def edgeAt (coarse : Bool) (x : Int) : Int := if coarse then x / 40 * 40 else x

/-- The commanded edge of a half period, from valley to peak where the high side turns on, from peak to valley where it turns off (R184). -/
def HalfLeg.edge (l : HalfLeg) : Int := edgeAt l.coarse (if l.rising then l.start + l.len - l.h else l.start + l.h)

/-- Where the interval began in which the high side (`true`) or the low side is commanded on, if it began in the half period before: from valley to peak the low side
turned on after the peak before, from peak to valley the high side before it. -/
def HalfLeg.before (l : HalfLeg) : Int := edgeAt l.coarse (if l.rising then l.start - l.len + l.hBefore else l.start - l.hBefore)

/-- The first side of a half period has been on long enough at `x`: its turn-on is delayed by the dead time (R186), unless it was on through the half period before. -/
def HalfLeg.first (l : HalfLeg) (x : Int) : Bool :=
  let whole := if l.rising then decide (l.hBefore = 0) else decide (l.hBefore = l.len)
  decide (x < l.edge) && (whole || decide (l.before + l.dt ≤ x))

/-- The second side of a half period is on at `x`. -/
def HalfLeg.second (l : HalfLeg) (x : Int) : Bool :=
  let whole := if l.rising then decide (l.h = l.len ∧ l.hBefore = l.len) else decide (l.h = 0 ∧ l.hBefore = 0)
  whole || (decide (l.edge ≤ x) && decide (l.edge + l.dt ≤ x))

/-- The high-side output is on at `x`: full on for h = Tc/2, off for h = 0 (R184, R185). -/
def HalfLeg.high (l : HalfLeg) (x : Int) : Bool :=
  if l.h = 0 then false else if l.rising then l.second x else if l.h = l.len then l.before + l.dt ≤ x || decide (l.hBefore = l.len) else l.first x

/-- The low-side output is on at `x`. -/
def HalfLeg.low (l : HalfLeg) (x : Int) : Bool :=
  if l.h = l.len then false else if l.rising then (if l.h = 0 then l.before + l.dt ≤ x || decide (l.hBefore = 0) else l.first x) else l.second x

/-- The half period of leg `k` in which `x` lies, of a native axis whose latest update point is at `u` (R183, R184). With single update the axis takes both edges
of a carrier period from one duty; with double update each half period has its own. -/
def halfLeg (b : Block) (t j k : Nat) (u s x : Int) : HalfLeg :=
  let a := b.natAt t j
  let half : Int := halfTc b t j
  let h : Int := halfOn (a.meas.duty.getD k 0) (halfTc b t j) a.meas.minPulse
  let hp : Int := a.meas.hPrev.getD k 0
  let c : HalfLeg := { len := half, h := h, dt := deadTime a.meas.dt a.edgeCoarse, coarse := a.edgeCoarse }
  if Fld.AX_PWM_CFG_UPDATE b.cfg t j then { c with start := u, hBefore := hp, rising := isValley b t j s }
  else if x < u + half then { c with start := u, hBefore := hp }
  else { c with start := u + half, hBefore := h, rising := false }

/-- The latest update point at or before the tick `now` and its sample instant (R183). -/
def lastUpdatePoint (b : Block) (now t j : Nat) : Int × Int :=
  let p : Int := 10 * grpPeriod b t (curGroup b t j)
  let ph : Int := 10 * Fld.TL_TILE_PHASE_PHASE b.cfg t
  let lead : Int := Fld.AX_PWM_LEAD_LEAD b.cfg t j
  let s := (4 * (now : Int) + lead - 4 * ph) / (4 * p) * p + ph
  (4 * s - lead, s)

/-- What is commanded of a PWM output of leg `k` (`hs`: of the high side) at `x` units of 250 ps, from the tick `now` to the next update point. -/
def pwmOn (b : Block) (now t j k : Nat) (hs : Bool) (x : Int) : Bool :=
  let a := b.natAt t j
  match a.pwm with
  | .off => false
  | .lowOn => !hs && decide (4 * (a.te : Int) + a.meas.dt ≤ x)
  | .switching =>
    let (u, s) := lastUpdatePoint b now t j
    let l := halfLeg b t j k u s x
    if hs then l.high x else l.low x

/-- GEN of native slot `j` (R43, R656): only with the permissive and while the tile enables the axis. -/
def genLand (b : Block) (t j : Nat) : Land :=
  tileLand b t (landOf (isNative b t j && (b.natAt t j).gate && (b.sfAxAt (axNo t j)).permit))

/-- A PWM land of leg `k` of slot `j` at `x`, from the tick `now` to the next update point (R199, R656): at its off level while gate-enable is inactive. DESIGN CHOICE:
the lands of a slot of another type than the native ones are low like those of an UNUSED slot (log 61). -/
def pwmLand (b : Block) (now t j k : Nat) (hs : Bool) (x : Int) : Land :=
  tileLand b t <|
    if !isNative b t j then .low
    else landAct ((b.natAt t j).gate && pwmOn b now t j k hs x) (if hs then Fld.AX_PWM_CFG_POL_H b.cfg t j else Fld.AX_PWM_CFG_POL_L b.cfg t j)

/-! ### Pulse-train lands; `i` is the pulse slot, 0 to 3 -/

/-- STEP (R277, R281, R656). -/
def stepLand (b : Block) (t i : Nat) : Land :=
  tileLand b t (if slotTy b t (4 + i) = .pulse then landAct (b.pulseAt t i).step (Fld.PG_PULSE_CFG_STEP_POL b.cfg t i) else .low)

/-- DIR (R278). DESIGN CHOICE: before the first pulse it shows the positive direction, as PG_PULSE_STAT.DIR reads then (log 61). -/
def dirLand (b : Block) (t i : Nat) : Land :=
  tileLand b t (if slotTy b t (4 + i) = .pulse then landAct (!(b.pulseAt t i).dirNeg) (Fld.PG_PULSE_CFG_DIR_POL b.cfg t i) else .low)

/-- RES1 and RES0 as a code (R279, R280): CODE of the level that they show. -/
def resCode (b : Block) (t i : Nat) : Nat := (pulseCfg b t (4 + i)).code.getD (b.pulseAt t i).res 0

/-- RES`n` (R279). -/
def resLand (b : Block) (t i n : Nat) : Land := tileLand b t (if slotTy b t (4 + i) = .pulse then landOf (bit (resCode b t i) n) else .low)

/-! ### The other lands -/

/-- CMPc of a tile (R322, R656). -/
def cmpOutLand (b : Block) (t c : Nat) : Land := tileLand b t (landAct (b.cmpAt t c).land (Fld.GR_CMP_CFG_POL b.cfg t c))

/-- MCLK of a tile at the tick `now` (R172). DESIGN CHOICE: it is high for the first half of its period (log 61). -/
def mclkLand (b : Block) (now t : Nat) : Land := tileLand b t (landOf (Fld.AX_MCLK_EN b.cfg t && decide (2 * (now % mclkNs b t) < mclkNs b t)))

/-- TEOk (R458, R656). -/
def teoLand (b : Block) (k : Nat) : Land := if b.run.on then landAct (b.teoAt k).active (bit (Fld.NT_TEO_CFG_POL b.cfg) k) else .hiZ

/-- What a transmit pair of a Berath port carries: nothing, a steady logic 0, idle sets and frames. -/
inductive TxPair where
  | hiZ | zero | line
  deriving DecidableEq, Repr

/-- The transmit pair of channel A or B of port `p` (R390, R656): of a channel out of use a steady logic 0. -/
def txPair (b : Block) (p : Nat) (chB : Bool) : TxPair := if !b.run.on then .hiZ else if blChan b.cfg p chB then .line else .zero

/-- nPHY_RST0 and nPHY_RST1 (R650): low until boot step 8. -/
def phyReset (b : Block) : Land := landOf b.run.on

/-- nPFW, active low (R637, R652); in reset (`up` false) it is not driven (R658). -/
def pfwLand (up : Bool) (b : Block) : Land := if up then landOf (!b.pw.pfWarn) else .hiZ

end Sys2Proof.Machine
end

