-- ==== Sys2Proof/WellFormed.lean ====
section
/-! DEFINITION. Which commands an interface of the block can carry: each operand fits its field. A command that is not well formed reaches no instance of the hardware; the meanings are total on it all the same. -/

namespace Sys2Proof

/-- A number fits `n` bits. -/
def fits (n x : Nat) : Bool := decide (x < 2 ^ n)

/-- The address of one register: 32 bits, a multiple of 4 (R6). -/
def addrOk (a : Nat) : Bool := fits 32 a && decide (a % 4 = 0)

/-- A received copy: a stamp of 64 bits, and a length of 16 bits. -/
def copyOk (c : RxCopy) : Bool := fits 64 c.stamp && fits 16 c.bytes.length

/-- A change at a pin: a headroom in per cent, stamps of 64 bits, a battery voltage in mV and a supply in tenths of 16 bits. -/
def pinOk : Pin → Bool
  | .transfer _ _ h => fits 8 h
  | .receiving _ _ (some t) => fits 64 t
  | .vbat mv => fits 16 mv
  | .supply v w => fits 16 v && fits 16 w
  | _ => true

/-- Each operand fits the field that carries it: addresses and ticks (R6, R1), the fields of a request's command (R618), an index, an offset (R624). -/
def wellFormed : Instr → Bool
  | .latticeTick pins => pins.all pinOk
  | .refLost => true
  | .sampleInstant _ _ => true
  | .applyInstant _ _ => true
  | .frameComplete _ _ => true
  | .paceRampStart => true
  | .paceRampSettled => true
  | .tlGrpClear _ _ => true
  | .setpointReceived _ _ => true
  | .setpointTakesEffect _ _ => true
  | .extrapolationStart _ _ => true
  | .lateSetpointFault _ _ => true
  | .stagingWrite _ addr _ => addrOk addr
  | .commit _ _ => true
  | .commitChecksDone => true
  | .abort _ => true
  | .discard _ => true
  | .diePrepared _ => true
  | .commitDecision => true
  | .commitApply => true
  | .store _ => true
  | .storeDone => true
  | .imgInstall _ _ => true
  | .imgNext _ => true
  | .imgStageSlot _ _ => true
  | .imgConfirm => true
  | .imageVerifyDone => true
  | .boot => true
  | .schedSeal _ _ => true
  | .schedSealDone _ _ => true
  | .schedUnseal _ _ => true
  | .schedReselect _ _ => true
  | .modeNow _ _ _ => true
  | .modeArm _ _ _ _ => true
  | .axEnable _ _ => true
  | .axDisable _ _ => true
  | .axAlign _ _ => true
  | .gateEnableAssert _ _ => true
  | .prechargeEnd _ _ => true
  | .axDisableComplete _ _ => true
  | .brakeHoldEnd _ _ => true
  | .alignComplete _ _ => true
  | .updatePoint _ _ => true
  | .edgeCalibration _ _ => true
  | .edgeCoarse _ _ => true
  | .dfTrip _ _ => true
  | .ocTrip _ _ => true
  | .sdStuck _ _ => true
  | .sumTrip _ _ => true
  | .axTripClear _ _ _ => true
  | .faultHoldEnd _ _ => true
  | .stepperHold _ _ => true
  | .qdCount _ _ ts _ _ => fits 64 ts
  | .indexEvent _ _ ts _ => fits 64 ts
  | .setPos _ _ => true
  | .idxArm _ _ => true
  | .idxDisarm _ _ => true
  | .illLeak _ _ => true
  | .standstill _ _ => true
  | .probeEdge _ _ ts _ => fits 64 ts
  | .prbPop _ _ => true
  | .prbFlush _ _ => true
  | .rxFault _ _ => true
  | .qdFaultClear _ _ _ => true
  | .pgStart _ _ => true
  | .pgStop _ _ => true
  | .pgHome _ _ => true
  | .pgSeal _ _ => true
  | .pgSealDone _ _ => true
  | .pgUnseal _ _ => true
  | .prefetchArrival _ _ => true
  | .immediateStop _ _ => true
  | .pulseDue _ _ => true
  | .pulseIssue _ _ => true
  | .stepPulseEnd _ _ => true
  | .pgAxEnable _ _ => true
  | .pgAxDisable _ _ => true
  | .homingTimeout _ _ => true
  | .feedInstant _ => true
  | .plgStart _ => true
  | .plgHold _ => true
  | .plgResume _ => true
  | .plgStop _ => true
  | .plgFeedWrite _ _ => true
  | .plgMemberEvent _ => true
  | .clutchEngage _ _ => true
  | .clutchDisengage _ _ => true
  | .clutchZero _ _ => true
  | .remoteMasterValue _ _ => true
  | .camSeal _ _ => true
  | .camSealDone _ _ => true
  | .camUnseal _ _ => true
  | .camReselect _ _ => true
  | .camFetchArrival _ _ => true
  | .cmpArm _ _ => true
  | .cmpDisarm _ _ => true
  | .cmpClear _ _ => true
  | .comparePulseEnd _ _ => true
  | .nxEnable _ _ => true
  | .nxDisable _ _ => true
  | .nxEnableTimeout _ _ => true
  | .nxDisableTimeout _ _ => true
  | .nxFeedbackReceived _ _ => true
  | .nxSetpointAtHub _ _ => true
  | .nop _ => true
  | .ld _ => true
  | .st _ => true
  | .mvm _ => true
  | .ldi _ => true
  | .mov _ => true
  | .mova _ => true
  | .aadd _ => true
  | .add _ => true
  | .sub _ => true
  | .ash _ => true
  | .and _ => true
  | .or _ => true
  | .xor _ => true
  | .cmp _ => true
  | .abs _ => true
  | .mul _ => true
  | .mac _ => true
  | .msu _ => true
  | .vmac _ => true
  | .accr _ => true
  | .aclr _ => true
  | .bfly _ => true
  | .bscale _ => true
  | .srch _ => true
  | .mbsnap _ => true
  | .mbout _ => true
  | .mbpost _ => true
  | .br _ => true
  | .dbnz _ => true
  | .call _ => true
  | .ret _ => true
  | .reti _ => true
  | .rep _ => true
  | .wait _ => true
  | .evclr _ => true
  | .setie _ => true
  | .xfer _ => true
  | .halt _ => true
  | .sqDispatch _ => true
  | .sqXferDone _ _ => true
  | .mailboxStale _ _ => true
  | .sqHalt _ => true
  | .sqRun _ => true
  | .sqReset _ => true
  | .sqClrStats _ => true
  | .sqDoorbell _ _ => true
  | .localMemoryWrite _ _ _ => true
  | .acqRow _ => true
  | .blockWriteback _ => true
  | .triggerTimerExpiry _ _ => true
  | .aqArm _ _ => true
  | .aqDisarm _ => true
  | .aqForce => true
  | .armTick => true
  | .aqStop _ => true
  | .aqRelease _ _ => true
  | .aqClrStats _ => true
  | .firingAtHub _ => true
  | .setTriggerSend => true
  | .setTriggerReceived _ => true
  | .rearm _ => true
  | .acqStopComplete _ => true
  | .cycleStart => true
  | .matrixStart => true
  | .rekey _ => true
  | .downWindowAssembly _ => true
  | .arbitratingDownWindow _ => true
  | .keyOfferRetry _ => true
  | .windowClose _ => true
  | .feedbackFrameRx _ c => copyOk c
  | .setpointFrameRx _ c => copyOk c
  | .safetyFrameRx _ c => copyOk c
  | .dataFrameRx _ c => copyOk c
  | .startupFrameRx _ c => copyOk c
  | .joinFrameRx _ c => copyOk c
  | .keyFrameRx _ c => copyOk c
  | .channelUp _ _ => true
  | .channelDown _ _ => true
  | .quicksetDecision => true
  | .quicksetExpired => true
  | .blPortEnable _ => true
  | .blPortDisable _ => true
  | .blClrStats _ => true
  | .ntRateWrite _ => true
  | .ntStep => true
  | .ntStepEffect => true
  | .ntCapture => true
  | .teArm _ => true
  | .teDisarm _ => true
  | .timedEventFire _ => true
  | .teoPulseEnd _ => true
  | .captureRecord _ => true
  | .ptpRx _ stamp _ => fits 64 stamp
  | .ptpTx _ stamp => fits 64 stamp
  | .ptpTsPop _ => true
  | .fieldExchange => true
  | .fieldFrameRx _ _ => true
  | .fieldFrameApply _ => true
  | .inputAccepted _ _ => true
  | .linkLost _ => true
  | .fieldWdExpired _ => true
  | .safetyWdExpired _ => true
  | .wdRelease _ => true
  | .fioClrCnt _ => true
  | .fioOutSet _ _ => true
  | .fioOutClr _ _ => true
  | .overload _ _ => true
  | .overtemp _ _ => true
  | .openLoad _ _ => true
  | .readback _ _ => true
  | .lpLow _ _ => true
  | .transferFail _ => true
  | .fioDiagClear _ _ _ => true
  | .safetyEvaluation => true
  | .safetyDecisionEffect => true
  | .engineStall => true
  | .safetyDiagCycle _ => true
  | .zoneReset _ => true
  | .ack _ _ => true
  | .stoTest _ _ => true
  | .btStart _ _ => true
  | .brakeTestStep _ _ => true
  | .sfVerify _ => true
  | .safetyPduRx _ => true
  | .safetyConnExpiry _ => true
  | .safetyPduSend _ => true
  | .graceExpiry _ _ => true
  | .stopTimeout _ _ => true
  | .stoDue _ _ => true
  | .btDue _ _ => true
  | .newChallenge => true
  | .challengeExpiry => true
  | .submit _ => true
  | .tokenCheckDone => true
  | .enrol _ => true
  | .attest _ => true
  | .endService => true
  | .fieldServiceExpiry => true
  | .lifecycleTransition => true
  | .generateIdentity => true
  | .hello _ => true
  | .finish _ => true
  | .handshakeTimeout _ => true
  | .request _ => true
  | .plainRequest _ => true
  | .safetyMessage _ => true
  | .close _ => true
  | .sessionIdleExpiry _ => true
  | .sessionEnd _ => true
  | .tamperDetect _ => true
  | .marginMeasure _ _ => true
  | .eccCorrected _ addr => fits 32 addr
  | .eccUncorrectable _ addr => fits 32 addr
  | .healthWindow => true
  | .holdupMeasure _ => true
  | .supplyFault _ _ => true
  | .temperatureRead _ _ => true
  | .logNvmWrite => true
  | .replaceClear _ => true
  | .logSel _ => true
  | .stStart _ _ => true
  | .stAbort => true
  | .selftestSaveDone => true
  | .selftestTestDone _ _ => true
  | .selftestRestoreDone => true
  | .tapInstruction _ => true
  | .cmdRead _ n addr => fits 16 n && fits 32 addr
  | .cmdWrite _ addr data => fits 32 addr && fits 16 data.length
  | .cmdStage _ addr data => fits 32 addr && fits 16 data.length
  | .cmdCommit _ _ tick => fits 64 tick
  | .cmdStore _ => true
  | .cmdXferRead _ target n index ofs => fits 8 target && fits 16 n && fits 8 index && fits 32 ofs
  | .cmdXferWrite _ target _ index ofs data => fits 7 target && fits 8 index && fits 32 ofs && fits 16 data.length
  | .cmdSetpoint _ tile input apply _ => fits 8 tile && fits 8 input && fits 64 apply
  | .put msg whole => !whole || fits 16 msg.length
  | .get => true
  | .status => true
  | .ethFrameRx _ _ => true
  | .phyPoll _ _ _ _ => true
  | .powerFailWarning => true
  | .powerFailClear => true
  | .railReset => true
  | .registerWrite _ addr _ => addrOk addr
  | .invalidCopyRx _ c => copyOk c
  | .attestDone => true
  | .enrolCheckDone => true
  | .selftestAccepted => true
  | .brakeOpen _ _ => true
  | .fieldCommandAtHub _ _ => true
  | .illegalInstruction _ => true
  | .fetchFault _ => true
  | .supplyRecovered _ => true
  | .supplySourceChange _ _ => true

end Sys2Proof
end

