-- ==== Sys2Proof/Safety.lean ====
section
/-! DEFINITION. What statements about the block are made of: a command that gives a next state, what a step may change, and the invariant of the lattice. -/

namespace Sys2Proof

open Sys2Proof.Machine

/-- Command `c` gives a next state from `s`, and `P` holds of it. -/
def Gives (c : Instr) (s : State) (P : State → Prop) : Prop := ∃ u, exec c s = .next u ∧ P u

/-- Command `c` turns the module of `s` into `b`; the lattice, the reset of the hub and the queue stand. With `b` the module of `s` the command has no effect. -/
def Turns (c : Instr) (s : State) (b : Block) : Prop := exec c s = .next { s with b := b }

/-- The frame of a fault of axes (R206, R268, R270, R293, R673): only generators, followers, native, pulse-train and networked axes, pleached groups, trigger sequencers, the safety records of axes and the index reference armed in a channel may differ. -/
def OnlyFaults (b c : Block) : Prop :=
  c = { b with nat := c.nat, gen := c.gen, pulse := c.pulse, plg := c.plg, follow := c.follow, nx := c.nx, aq := c.aq, qd := c.qd, sf := { b.sf with axes := c.sf.axes } } ∧
    ∀ t q, c.qdAt t q = { b.qdAt t q with armed := (c.qdAt t q).armed }

/-- The frame of the engines of the tiles (R55 to R60): only what the tiles compute and hold, the safety records of axes, and entries of the event log may differ; registers,
memory, image, commit engine, network, sessions, keys and the rest of the hub stand. -/
def OnlyTiles (b c : Block) : Prop :=
  c = { b with marks := c.marks, draws := c.draws, grp := c.grp, sec := c.sec, ctx := c.ctx, hist := c.hist, sched := c.sched, mode := c.mode, nat := c.nat, qd := c.qd
               prb := c.prb, gen := c.gen, pulse := c.pulse, plg := c.plg, follow := c.follow, xm := c.xm, cmp := c.cmp, nx := c.nx, blnx := c.blnx, fp := c.fp, seq := c.seq
               aq := c.aq, nt := { b.nt with fly := c.nt.fly }, hl := c.hl, bk := c.bk, nv := { b.nv with log := c.nv.log, logSeq := c.nv.logSeq }, sf := { b.sf with axes := c.sf.axes } }

/-- The frame of a write operation on the NVM (R593): the counts of its blocks, REPLACE, the draws and entries of the event log may differ. -/
def OnlyWear (b c : Block) : Prop :=
  c = { b with draws := c.draws, nv := { b.nv with wear := c.nv.wear, replace := c.nv.replace, log := c.nv.log, logSeq := c.nv.logSeq }
               hl := { b.hl with marks := c.hl.marks, suppressed := c.hl.suppressed }, bk := { b.bk with tail := c.bk.tail, tailSaved := c.bk.tailSaved } }

/-- The frame of an entry of the event log (R600, R601): only the log, its tail and its marks may differ. -/
def OnlyLog (b c : Block) : Prop :=
  c = { b with hl := { b.hl with marks := c.hl.marks, suppressed := c.hl.suppressed }, bk := { b.bk with tail := c.bk.tail, tailSaved := c.bk.tailSaved }
               nv := { b.nv with log := c.nv.log, logSeq := c.nv.logSeq } }

/-- The frame of a cycle of the star (R400, R414, R430, R446): only its ports, the hub's records of networked slots, the draws, the event log and what a fault of axes
reaches may differ. -/
def OnlyStar (b c : Block) : Prop := ∃ m, OnlyLog { b with bl := c.bl, blnx := c.blnx, draws := c.draws } m ∧ OnlyFaults m c

/-- The frame of the safety engine when it acts on axes (R503 to R535): only native, pulse-train, networked axes, generators, followers, pleached groups, channels,
trigger sequencers, the safety records of axes, the two bits that assert nFAULT until restart (R512, R527), and entries of the event log may differ. -/
def OnlyEngine (b c : Block) : Prop :=
  c = { b with nat := c.nat, gen := c.gen, pulse := c.pulse, plg := c.plg, follow := c.follow, nx := c.nx, aq := c.aq, qd := c.qd
               sf := { b.sf with axes := c.sf.axes, stuck := c.sf.stuck, btFailed := c.sf.btFailed }
               hl := { b.hl with marks := c.hl.marks, suppressed := c.hl.suppressed }, bk := { b.bk with tail := c.bk.tail, tailSaved := c.bk.tailSaved }
               nv := { b.nv with log := c.nv.log, logSeq := c.nv.logSeq } }

/-- What an action of the safety engine on one axis leaves of another: its safety record but for a fault registered for it (R313), and its native axis but for an enable
that waits (R16). -/
def SameAxis (b c : Block) (t j : Nat) : Prop :=
  c.sfAxAt (axNo t j) = { b.sfAxAt (axNo t j) with fault := (c.sfAxAt (axNo t j)).fault } ∧
    c.natAt t j = { b.natAt t j with wait := (c.natAt t j).wait, enPending := (c.natAt t j).enPending, enRefused := (c.natAt t j).enRefused }

/-- The frame of an action of the safety engine on axis `a` (R503). -/
def Beside (a : Nat) (b c : Block) : Prop := OnlyEngine b c ∧ ∀ t j, axNo t j ≠ a → SameAxis b c t j

/-- The sequencer of tile `t` is at an instruction word `w` with opcode `op` (R338): it runs, no dispatch is due, its program counter lies in the code area. -/
def AtWord (b : Block) (t op w : Nat) : Prop :=
  (b.seqAt t).st = .running ∧ sqDispatchDue (b.seqAt t) = false ∧ (b.seqAt t).r.pc.toNat < Fld.SQ_CFG_CODE_LEN b.cfg t ∧
    (sqRead (b.seqAt t) (b.seqAt t).r.pc.toNat).toNat = w ∧ bits w 26 6 = op

/-- No request and no command of a session waits for an outcome (R621). -/
def NoneWaits (b : Block) : Prop := ∀ k : Fin 8, (b.sessAt k).reqs = [] ∧ (b.sessAt k).lastWait = .none

/-- Command `c` leaves session `k` with the result `op`, `status` and no data, and changes the commit engine to `cm`; nothing else of the module changes (R619). -/
def Answers (c : Instr) (s : State) (k op status : Nat) (cm : Commit) : Prop :=
  Turns c s ({ s.b with cm := cm }.sessUpd k fun x => { x with last := { op := op, status := status, data := [] }, lastWait := .none })

/-- Staging is empty and unowned, and no commit is under way (R91). -/
def Unstaged (cm : Commit) : Prop := cm.ph = .idle ∧ cm.owner = none ∧ cm.staged = [] ∧ cm.image = none

/-- The lattice stands on a tick (R8), and at tick 0 while the hub is in reset (R117). -/
def Inv (s : State) : Prop := s.clk.lattice % 10 = 0 ∧ (s.clk.up = false → s.clk.lattice = 0)

/-- A command through which the lattice or the reset of the hub may change: a tick, the boot, a rail reset, a transition of the life cycle that restarts the module. -/
def movesLattice : Instr → Bool
  | .latticeTick _ | .boot | .railReset | .lifecycleTransition => true
  | _ => false

end Sys2Proof
end

