-- ==== Sys2Proof/Certificates/Slice0/Obligations.lean ====
section
/-! DEFINITION. The statements about the block, in the order of OBLIGATIONS.json. -/

open Sys2Proof Sys2Proof.Machine

/-- Step of a state with `c` in front of its queue is exec of `c` on the state with the queue's rest; with an empty queue the block idles (DESIGN CHOICE, log 5). -/
def Obligations.StepRunsFront : Prop :=
  (∀ (c : Instr) (q : List Instr) (s : State), step (s.withPending (c :: q)) = exec c (s.withPending q)) ∧ ∀ s : State, step (s.withPending []) = .next (s.withPending [])

/-- No command stops the block, and none touches the queue. -/
def Obligations.CommandsAnswer : Prop := ∀ (c : Instr) (s : State), ∃ u, exec c s = .next u ∧ u.pending = s.pending

/-- LATTICE_TICK, BOOT and RAIL_RESET complete in every state, with this effect on the lattice: 0 when the hub leaves reset, 10 more at every tick, and moved by no other command; a rail reset and a life-cycle transition that restarts the module leave the hub in reset at 0. -/
def Obligations.LatticeMoves : Prop :=
  (∀ (pins : List Pin) (s : State), s.clk.up = true →
    Gives (.latticeTick pins) s fun u => u.clk = { s.clk with lattice := s.clk.lattice + 10 } ∧ u.pending = s.pending) ∧
  (∀ (pins : List Pin) (s : State), s.clk.up = false → Gives (.latticeTick pins) s fun u => u.clk = s.clk ∧ u.pending = s.pending) ∧
  (∀ s : State, s.clk.up = false → Gives .boot s fun u => u.clk.lattice = 0 ∧ u.clk.up = true) ∧
  (∀ s : State, Gives .railReset s fun u => u.clk.lattice = 0 ∧ u.clk.up = false) ∧
  ∀ (c : Instr) (s u : State), exec c s = .next u →
    (movesLattice c = false → u.clk = s.clk) ∧
    (c = .boot → s.clk.up = true → u = s) ∧
    (c = .lifecycleTransition → u.clk = s.clk ∨ (u.clk.lattice = 0 ∧ u.clk.up = false))

/-- Every step keeps the invariant of the lattice. -/
def Obligations.InvKept : Prop := ∀ s u : State, Inv s → step s = .next u → Inv u

/-- The module right after reset; blank NVM and RAM contents are the model's choices (logs 1 and 4). -/
def Obligations.ResetState : Prop :=
  let s := State.reset
  Inv s ∧ s.clk.lattice = 0 ∧ s.clk.up = false ∧ s.pending = [] ∧ s.b.run.on = false ∧ s.b.cm.ph = .idle ∧ s.b.cm.owner = none ∧ s.b.cm.staged = [] ∧
    (∀ k, (s.b.sessAt k).st = .closed) ∧ (∀ a, (s.b.sfAxAt a).permit = false) ∧ s.b.nv.log = [] ∧ s.b.nv.life = .blank ∧
    (∀ r a, regWord s.b.cfg r a = r.toNat) ∧ (∀ a, tabGet 0 s.b.mem a = 0) ∧ tabWf 0 s.b.mem = true ∧
    phyReset s.b = .low ∧ pfwLand s.clk.up s.b = .hiZ ∧ (∀ t l, tileLand s.b t l = .hiZ) ∧ (∀ k, teoLand s.b k = .hiZ) ∧ ∀ p ch, txPair s.b p ch = .hiZ

/-- REF_LOST, PACE_RAMP_START, PACE_RAMP_SETTLED. The model's choices and readings, not the spec's: that a command at tick T counts behind the actions of T (log 8). -/
def Obligations.SupplyAndReference : Prop :=
  ∀ s : State,
    (s.clk.up = true → s.b.refLost = false → Gives .refLost s fun u =>
      u.b = { s.b with refLost := true, sf := { s.b.sf with refDue := some s.clk.lattice }, hl := u.b.hl, nv := u.b.nv, bk := u.b.bk }) ∧
    (s.clk.up = true → s.b.refLost = true → Turns .refLost s s.b) ∧
    (s.b.run.on = true → s.clk.lattice % 125000 = 0 → s.b.marks.contains 400 = false → s.b.sf.fault = false →
      Gives .safetyEvaluation s fun u => u.b.sf.refDue = s.b.sf.refDue.filter fun r => decide (s.clk.lattice ≤ r)) ∧
    (s.b.run.on = true → (s.b.cm.ph = .accepted ∨ s.b.cm.ph = .go) → targetPace s.b < s.b.paceNow → s.b.cm.rise = false →
      s.b.cm.apply ≤ s.clk.lattice + 2000000 →
      Turns .paceRampStart s { s.b with paceChanging := true, cm := { s.b.cm with rise := true } }) ∧
    (s.b.run.on = true → ((s.b.cm.ph ≠ .accepted ∧ s.b.cm.ph ≠ .go) ∨ s.b.paceNow ≤ targetPace s.b ∨ s.b.cm.rise = true ∨ s.clk.lattice + 2000000 < s.b.cm.apply) →
      Turns .paceRampStart s s.b) ∧
    (s.b.run.on = true → Turns .paceRampSettled s { s.b with paceChanging := false })

/-- SETPOINT_RECEIVED: the oldest set-point on its way to an input, by the cases of R78 and R79; `reg` is the tick at which it is registered. The model's choices and readings, not the spec's: that a set-point given by a command is registered at the next tick (log 8), and the LATE_ARRIVAL of one discarded later (log 55). -/
def Obligations.SetPointReceived : Prop :=
  ∀ (t : Fin 8) (n : Fin 32) (s : State) (x : SpIn), tileLive s.b t = true → s.b.spAt t n = x →
    let onWay := s.b.spFly.find? (fun f => decide (f.dst = 32 * t.val + n.val))
    (onWay = none → Turns (.setpointReceived t n) s s.b) ∧
    (∀ e, onWay = some e → spineServes s.b (pktSp e) = false → Turns (.setpointReceived t n) s s.b) ∧
    (∀ e, onWay = some e → spineServes s.b (pktSp e) = true → spI s.b t n = 0 → Gives (.setpointReceived t n) s fun u =>
      u.b = { s.b with spFly := s.b.spFly.erase e, turns := u.b.turns }) ∧
    (∀ e, onWay = some e → spineServes s.b (pktSp e) = true → spI s.b t n ≠ 0 →
      let reg := s.clk.lattice + 10
      let a := e.apply - e.apply % 10
      let v : SpEntry := { at_ := a, val := e.val }
      let took := fun y => { s.b with spFly := s.b.spFly.erase e }.spUpd t n fun _ => y
      let to_ := fun y => Gives (.setpointReceived t n) s fun u => u.b = { took y with turns := u.b.turns }
      (x.cnt ≠ 0 → a < x.cur.at_ → to_ { x with stale := min 255 (x.stale + 1) }) ∧
      (x.cnt ≠ 0 → a = x.cur.at_ → to_ x) ∧
      ((x.cnt = 0 ∨ x.cur.at_ < a) → a < reg → to_ { x with lateArrival := min 255 (x.lateArrival + 1), late := x.late ++ [{ tick := reg + 10, sp := v }] }) ∧
      ((x.cnt = 0 ∨ x.cur.at_ < a) → reg ≤ a → (∃ q ∈ x.queue, q.at_ = a) → to_ { x with queue := x.queue.map fun q => if q.at_ = a then v else q }) ∧
      ((x.cnt = 0 ∨ x.cur.at_ < a) → reg ≤ a → (∀ q ∈ x.queue, q.at_ ≠ a) → x.queue.length = 4 → to_ { x with overrun := true }) ∧
      ((x.cnt = 0 ∨ x.cur.at_ < a) → reg ≤ a → (∀ q ∈ x.queue, q.at_ ≠ a) → x.queue.length < 4 → Gives (.setpointReceived t n) s fun u =>
        ∃ l, u.b = { took { x with queue := l } with turns := u.b.turns } ∧ l.length = x.queue.length + 1 ∧ v ∈ l ∧ (∀ q ∈ x.queue, q ∈ l)))

/-- SETPOINT_TAKES_EFFECT, EXTRAPOLATION_START, LATE_SETPOINT_FAULT. The model's choices and readings, not the spec's: that a row acts only on what is due and not yet done at the tick (log 8). -/
def Obligations.SetPointTakesEffect : Prop :=
  ∀ (t : Fin 8) (n : Fin 32) (s : State) (x : SpIn), tileLive s.b t = true → s.b.spAt t n = x →
    (∀ e r, x.queue = e :: r → e.at_ ≤ s.clk.lattice → (∀ q ∈ r, s.clk.lattice < q.at_) → x.late = [] →
      Gives (.setpointTakesEffect t n) s fun u =>
        (u.b.spAt t n).cur = e ∧ (u.b.spAt t n).prev = x.cur ∧ (u.b.spAt t n).cnt = min 2 (x.cnt + 1) ∧ (u.b.spAt t n).queue = r ∧
        (u.b.spAt t n).extrapolating = false ∧ OnlyFaults (s.b.spUpd t n fun _ => u.b.spAt t n) u.b) ∧
    (x.cnt ≠ 0 → spI s.b t n ≠ 0 → x.cur.at_ + spI s.b t n + 10 ≤ s.clk.lattice →
      Turns (.extrapolationStart t n) s (s.b.spUpd t n fun _ => { x with extrapolating := true })) ∧
    ((x.cnt = 0 ∨ spI s.b t n = 0 ∨ s.clk.lattice < x.cur.at_ + spI s.b t n + 10) →
      Turns (.extrapolationStart t n) s (s.b.spUpd t n fun _ => { x with extrapolating := false })) ∧
    ((∀ e ∈ x.queue, s.clk.lattice < e.at_) → (∀ e ∈ x.late, s.clk.lattice < e.tick) → Turns (.setpointTakesEffect t n) s s.b) ∧
    (x.cnt ≠ 0 → spI s.b t n ≠ 0 → x.signalled = false → spExpiry s.b t n x ≤ s.clk.lattice →
      Gives (.lateSetpointFault t n) s fun u =>
        u.b.spAt t n = { x with lateFault := true, signalled := true } ∧ OnlyFaults (s.b.spUpd t n fun _ => u.b.spAt t n) u.b) ∧
    ((x.cnt = 0 ∨ s.clk.lattice < spExpiry s.b t n x) → Turns (.lateSetpointFault t n) s s.b)

/-- SAMPLE_INSTANT, FRAME_COMPLETE, APPLY_INSTANT, TL_GRP_CLEAR on group `g` of tile `t` with record `x`. The model's choices and readings, not the spec's: that a frame is computed at its sample instant and FRAME_COMPLETE only completes it (log 11); that the place of a miss is free (logs 3 and 11). -/
def Obligations.RateGroups : Prop :=
  ∀ (t : Fin 8) (g : Fin 4) (s : State) (x : Grp), s.b.grpAt t g = x →
    let now := s.clk.lattice
    let st := s.b.hl.st
    let suspends := st.st = .accepted ∧ st.target = t ∧ st.accAt < now ∧ ∃ f, fastGroup s.b t = some f ∧ isSample s.b now t f = true
    let appliesNow := x.frames.find? (fun y => decide (y.apply = now))
    (tileLive s.b t = true → isSample s.b now t g = true → x.lastSample ≠ some now → ¬suspends →
      Gives (.sampleInstant t g) s fun u => OnlyTiles s.b u.b ∧ (u.b.grpAt t g).lastSample = some now ∧
        ∃ f, (u.b.grpAt t g).frames = x.frames ++ [f] ∧ f.sample = now ∧ f.apply = now + 10 * applyOfs s.b t g ∧ f.done = none) ∧
    (tileLive s.b t = true → ¬suspends → (isSample s.b now t g = false ∨ x.lastSample = some now) → Turns (.sampleInstant t g) s s.b) ∧
    (tileLive s.b t = true → suspends → Turns (.sampleInstant t g) s { s.b with hl := { s.b.hl with st := { st with st := .saving, tile := some t } } }) ∧
    (∀ f, tileOn s.b t = true → x.frames.find? (fun y => y.done.isNone) = some f → f.sample < now →
      Gives (.frameComplete t g) s fun u => OnlyTiles s.b u.b ∧
        u.b.grpAt t g = { x with frames := x.frames.map fun y => if y.sample = f.sample then { y with done := some now } else y } ∧
        ∀ a, (tabGet {} u.b.ctx a).out = (tabGet {} s.b.ctx a).out) ∧
    (tileOn s.b t = true → (∀ f, x.frames.find? (fun y => y.done.isNone) = some f → now ≤ f.sample) → Turns (.frameComplete t g) s s.b) ∧
    (∀ f d, tileOn s.b t = true → appliesNow = some f → f.done = some d → d < now →
      let k := min 65535 ((now - d) / 10)
      Gives (.applyInstant t g) s fun u => OnlyTiles s.b u.b ∧
        u.b.grpAt t g = { x with frames := x.frames.filter (fun y => decide (y.apply ≠ now)), lastSlack := k, minSlack := min x.minSlack k, consec := 0 } ∧
        ∀ r ∈ f.ctxs, (∀ r' ∈ f.ctxs, r'.ctx = r.ctx → r' = r) → (u.b.ctxAt t r.ctx).out = r.out) ∧
    (∀ f, tileOn s.b t = true → appliesNow = some f → (∀ d, f.done = some d → now ≤ d) →
      Gives (.applyInstant t g) s fun u => OnlyTiles s.b u.b ∧
        (u.b.grpAt t g).minSlack = 0 ∧ (u.b.grpAt t g).count = min 65535 (x.count + 1) ∧ (u.b.grpAt t g).consec = min 255 (x.consec + 1) ∧
        ∀ a, tabGet {} u.b.ctx a = tabGet {} s.b.ctx a) ∧
    (tileOn s.b t = true → appliesNow = none → Turns (.applyInstant t g) s s.b) ∧
    (∀ m : BitVec 4, tileLive s.b t = true → Gives (.tlGrpClear t m) s fun u =>
      u = { s with b := { s.b with grp := u.b.grp } } ∧
      u.b.grpAt t g = (if m.getLsbD g then { x with minSlack := 0xFFFF, count := 0 } else x) ∧
      ∀ t' : Fin 8, t' ≠ t → u.b.grpAt t' g = s.b.grpAt t' g)

/-- SCHED_SEAL, SCHED_SEAL_DONE, SCHED_UNSEAL, SCHED_RESELECT on schedule `k` with record `x`; MODE_NOW and MODE_ARM on slot `j` with record `x`, where `at_` is the tick that CE_MODE_AT names. The model's choices and readings, not the spec's: what MODE_ARM with ARMED clear withdraws (log 21), bank 0 as the shadow while none is active (logs 19 and 55), and armed requests of disabled axes (log 55). -/
def Obligations.SchedulesAndModes : Prop :=
  (∀ (t k : Fin 8) (s : State) (x : Sched), tileLive s.b t = true → s.b.schedAt t k = x →
    let to_ := fun c y => Turns c s (s.b.schedUpd t k fun _ => y)
    (x.shadow = .empty → to_ (.schedSeal t k) { x with shadow := .fetching }) ∧
    (x.shadow ≠ .empty → to_ (.schedSeal t k) x) ∧
    (x.shadow = .fetching → readSched s.b t k (shadowNo x.active) = none → to_ (.schedSealDone t k) { x with shadow := .empty, sealErr := true }) ∧
    (∀ r, x.shadow = .fetching → x.active = none → readSched s.b t k (shadowNo x.active) = some r →
      to_ (.schedSealDone t k) { x with active := some 0, bank := r, shadow := .empty, regionKnown := false }) ∧
    (∀ r a, x.shadow = .fetching → x.active = some a → readSched s.b t k (shadowNo x.active) = some r →
      to_ (.schedSealDone t k) { x with shadow := .sealed, shadowBank := r, sealedAt := s.clk.lattice }) ∧
    (x.shadow = .sealed → to_ (.schedUnseal t k) { x with shadow := .empty }) ∧
    (x.shadow ≠ .sealed → to_ (.schedUnseal t k) x) ∧
    (x.shadow = .sealed → to_ (.schedReselect t k) { x with reselect := some s.clk.lattice }) ∧
    (x.shadow ≠ .sealed → to_ (.schedReselect t k) x)) ∧
  (∀ (t : Fin 8) (j : Fin 16) (m : BitVec 2) (s : State) (x : ModeS), tileLive s.b t = true → s.b.modeAt t j = x →
    let at_ := Fld.CE_MODE_AT_HI_TICK s.b.cfg t j * 2 ^ 32 + Fld.CE_MODE_AT_LO_TICK s.b.cfg t j
    let y := { x with modeField := m.toNat }
    let to_ := fun c z => Gives c s fun u => u = { s with b := { s.b with mode := u.b.mode } } ∧ u.b.modeAt t j = z ∧
      ∀ (t' : Fin 8) (j' : Fin 16), ¬(t' = t ∧ j' = j) → u.b.modeAt t' j' = s.b.modeAt t' j'
    (altOf s.b t j m.toNat = none → to_ (.modeNow t j m) { y with modeErr := true } ∧ to_ (.modeArm t j true m) { y with modeErr := true }) ∧
    (altOf s.b t j m.toNat ≠ none → x.active = m.toNat → to_ (.modeNow t j m) { y with req := none } ∧ to_ (.modeArm t j true m) { y with req := none }) ∧
    (altOf s.b t j m.toNat ≠ none → x.active ≠ m.toNat →
      to_ (.modeNow t j m) { y with req := some { mode := m.toNat, from_ := s.clk.lattice + 1, armed := false } } ∧
      (s.clk.lattice < at_ - at_ % 10 → to_ (.modeArm t j true m) { y with req := some { mode := m.toNat, from_ := at_ - at_ % 10, armed := true } }) ∧
      (at_ - at_ % 10 ≤ s.clk.lattice → to_ (.modeArm t j true m) { y with req := some { mode := m.toNat, from_ := s.clk.lattice + 1, armed := false } })) ∧
    (∀ r, x.req = some r → r.armed = true → to_ (.modeArm t j false m) { y with req := none }) ∧
    (∀ r, x.req = some r → r.armed = false → to_ (.modeArm t j false m) y) ∧
    (x.req = none → to_ (.modeArm t j false m) y))

/-- AX_ENABLE and AX_ALIGN on native slot `j` with record `x`. The model's choices and readings, not the spec's: the refusals of ALIGN in PRECHARGE and ENABLED and of ENABLE while ALIGNING (log 15), and the conditions that bar an enable (log 17). -/
def Obligations.NativeEnable : Prop :=
  ∀ (t : Fin 8) (j : Fin 4) (s : State) (x : NatAx) (al : Bool), tileLive s.b t = true → s.b.natAt t j = x →
    let c : Instr := if al then .axAlign t j else .axEnable t j
    let refused := s.b.natUpd t j fun _ => { x with enRefused := true }
    (x.st = .disabled → x.wait = none → natRefused s.b t j = false → Turns c s (s.b.natUpd t j fun _ => { x with wait := some (s.clk.lattice, al) })) ∧
    (x.st = .disabled → x.wait = none → natRefused s.b t j = true → Turns c s refused) ∧
    (x.st = .disabled → x.wait ≠ none → Turns c s s.b) ∧
    ((x.st = .precharge ∨ x.st = .enabled) → Turns c s (if al then refused else s.b)) ∧
    (x.st = .disabling → safetyStops s.b t j = true → Turns c s refused) ∧
    (x.st = .disabling → safetyStops s.b t j = false → x.enPending = false → Turns c s (s.b.natUpd t j fun _ => { x with enPending := true, pendAlign := al })) ∧
    (x.st = .disabling → safetyStops s.b t j = false → x.enPending = true → Turns c s s.b) ∧
    ((x.st = .aligning ∨ x.st = .faultHold ∨ x.st = .sto) → Turns c s refused)

/-- AX_DISABLE and BRAKE_HOLD_END on native slot `j` with record `x`. -/
def Obligations.NativeDisable : Prop :=
  ∀ (t : Fin 8) (j : Fin 4) (s : State) (x : NatAx), tileLive s.b t = true → s.b.natAt t j = x →
    let now := s.clk.lattice
    let a := axNo t j
    (x.st = .disabled → Turns (.axDisable t j) s (s.b.natUpd t j fun _ => { x with wait := none })) ∧
    (x.st = .disabling → Turns (.axDisable t j) s (s.b.natUpd t j fun _ => { x with enPending := false })) ∧
    ((x.st = .faultHold ∨ x.st = .sto) → Turns (.axDisable t j) s s.b) ∧
    ((x.st = .precharge ∨ x.st = .enabled ∨ x.st = .aligning) → (s.b.sfAxAt a).stop ≠ none → Turns (.axDisable t j) s s.b) ∧
    ((x.st = .precharge ∨ x.st = .enabled ∨ x.st = .aligning) → (s.b.sfAxAt a).stop = none → Gives (.axDisable t j) s fun u =>
      let brake := Fld.AX_PWM_CFG_DIS_MODE s.b.cfg t j && Fld.SF_AX_CFG_BRK_EN s.b.cfg a
      OnlyFaults s.b u.b ∧
      u.b.natAt t j = { x with st := .disabling, disAt := now, brakeWait := brake, brakeEnd := none, fromAlign := x.fromAlign || decide (x.st = .aligning)
                               hold := (u.b.natAt t j).hold } ∧
      ((s.b.sfAxAt a).bt.st = .idle → u.b.natAt t j = { x with st := .disabling, disAt := now, brakeWait := brake, brakeEnd := none
                                                               fromAlign := x.fromAlign || decide (x.st = .aligning) }) ∧
      (u.b.sfAxAt a).relReq = false ∧ (u.b.sfAxAt a).bt.st = .idle ∧ (brake = true → (u.b.sfAxAt a).brkReq = some now) ∧
      (brake = false → (u.b.sfAxAt a).brkReq = (s.b.sfAxAt a).brkReq) ∧
      (u.b.genAt t j).req.down = some ((s.b.genAt t j).req.down.getD now) ∧
      (u.b.followAt t j).cl.down = some ((s.b.followAt t j).cl.down.getD now) ∧ (u.b.followAt t j).cl.pending = false ∧
      (∀ (t' : Fin 8) (j' : Fin 4), ¬(t' = t ∧ j' = j) → u.b.natAt t' j' = s.b.natAt t' j') ∧ ∀ a', a' ≠ a → u.b.sfAxAt a' = s.b.sfAxAt a') ∧
    (∀ e, x.brakeEnd = some e → e ≤ now → x.st = .disabling → Turns (.brakeHoldEnd t j) s (s.b.natUpd t j fun _ => { x with brakeEnd := none, disAt := now })) ∧
    (x.st ≠ .disabling ∨ (∀ e, x.brakeEnd = some e → now < e) → Turns (.brakeHoldEnd t j) s (s.b.natUpd t j fun _ => x))

/-- GATE_ENABLE_ASSERT, PRECHARGE_END, AX_DISABLE_COMPLETE, ALIGN_COMPLETE, UPDATE_POINT on native slot `j` with record `x`; `p` is the update point of the tick, in 250 ps, with its sample instant. The model's choices and readings, not the spec's: the angle that ALIGN takes (log 15) and the tick from which ALIGN_T counts (log 55). -/
def Obligations.NativeSequence : Prop :=
  ∀ (t : Fin 8) (j : Fin 4) (s : State) (x : NatAx), tileLive s.b t = true → s.b.natAt t j = x →
    let now := s.clk.lattice
    let a := axNo t j
    let others := fun (u : State) => ∀ (t' : Fin 8) (j' : Fin 4), ¬(t' = t ∧ j' = j) → u.b.natAt t' j' = s.b.natAt t' j'
    -- a valley of the carrier at which a precharge that began at `te` has lasted PRE_T
    let opens := fun (te : Nat) => ∃ p, updatePointAt s.b now t j = some p ∧ isValley s.b t j p.2 = true ∧ 4 * ((te : Int) + 1000 * Fld.AX_PWM_MIN_PRE_T s.b.cfg t j) ≤ p.1
    let zero := { x.meas with hPrev := [0, 0, 0] }
    (∀ r al, x.wait = some (r, al) → r < now → isSample s.b now t (curGroup s.b t j) = true →
      let y := { x with wait := none, te := now, gate := true, pwm := .lowOn, st := if al then .aligning else .precharge, hold := none, fromAlign := false, aligned := x.aligned && !al }
      Gives (.gateEnableAssert t j) s fun u =>
        u = { s with b := { s.b with nat := u.b.nat, ctx := u.b.ctx, sf := { s.b.sf with axes := u.b.sf.axes } } } ∧ others u ∧
        (¬opens now → u.b.natAt t j = y ∧ u.b.sf = s.b.sf) ∧
        (opens now → u.b.natAt t j = { y with pwm := .switching, st := if al then .aligning else .enabled, meas := zero }) ∧
        (opens now → u.b.sfAxAt a = if al then s.b.sfAxAt a else { s.b.sfAxAt a with relReq := true }) ∧
        ∀ c : Fin 32, u.b.ctxAt t c = if c.val ∈ ctxsOf s.b t j then { s.b.ctxAt t c with rampArmed := true, ramping := false } else s.b.ctxAt t c) ∧
    ((x.wait = none ∨ (∃ r al, x.wait = some (r, al) ∧ now ≤ r) ∨ isSample s.b now t (curGroup s.b t j) = false) → Turns (.gateEnableAssert t j) s s.b) ∧
    (x.pwm = .lowOn → x.st = .precharge → opens x.te →
      Turns (.prechargeEnd t j) s ((s.b.natUpd t j fun _ => { x with pwm := .switching, st := .enabled, meas := zero }).sfAxUpd a fun y => { y with relReq := true })) ∧
    (x.pwm = .lowOn → x.st = .aligning → opens x.te →
      Turns (.prechargeEnd t j) s (s.b.natUpd t j fun _ => { x with pwm := .switching, meas := zero })) ∧
    ((x.pwm ≠ .lowOn ∨ (x.st ≠ .precharge ∧ x.st ≠ .aligning) ∨ ¬opens x.te) → Turns (.prechargeEnd t j) s s.b) ∧
    (∀ p, updatePointAt s.b now t j = some p → x.st = .disabling → x.brakeWait = false → x.brakeEnd = none → 4 * (x.disAt : Int) < p.1 →
      let y := { x with st := .disabled, gate := false, pwm := .off, hold := none, fromAlign := false, enPending := false }
      Gives (.axDisableComplete t j) s fun u =>
        (x.enPending = false → u.b.natAt t j = y) ∧
        (x.enPending = true → x.wait = none → u.b.natAt t j = if natRefused u.b t j then { y with enRefused := true } else { y with wait := some (now, x.pendAlign) }) ∧
        others u ∧ (u.b.sfAxAt a).stop = none ∧ (u.b.sfAxAt a).react = none ∧ (u.b.sfAxAt a).grace = none ∧
        u.b = { s.b with nat := u.b.nat, qd := u.b.qd, sf := { s.b.sf with axes := u.b.sf.axes }, hl := u.b.hl, nv := u.b.nv, bk := u.b.bk }) ∧
    ((updatePointAt s.b now t j = none ∨ x.st ≠ .disabling ∨ x.brakeWait = true ∨ x.brakeEnd ≠ none ∨ ∃ p, updatePointAt s.b now t j = some p ∧ p.1 ≤ 4 * (x.disAt : Int)) →
      Turns (.axDisableComplete t j) s s.b) ∧
    (x.st = .aligning → x.te + Fld.AX_ALIGN_T_ALIGN_T s.b.cfg t j * 1000000 ≤ now → Gives (.alignComplete t j) s fun u =>
      let raw := elecAngle (s.b.qdAt t (Fld.AX_COMM_QCH s.b.cfg t j)).rawL.toInt (Fld.AX_COMM_POLE_PAIRS s.b.cfg t j) (Fld.AX_COMM_CPR_CPR s.b.cfg t j)
      OnlyFaults s.b u.b ∧ others u ∧
      u.b.natAt t j = { x with st := .disabling, disAt := now, brakeWait := false, brakeEnd := none, fromAlign := true, aligned := true, alignRes := -(BitVec.ofInt 32 raw)
                               hold := (u.b.natAt t j).hold } ∧ (u.b.sfAxAt a).relReq = false) ∧
    ((x.st ≠ .aligning ∨ now < x.te + Fld.AX_ALIGN_T_ALIGN_T s.b.cfg t j * 1000000) → Turns (.alignComplete t j) s s.b) ∧
    (updatePointAt s.b now t j = none → Turns (.updatePoint t j) s s.b) ∧
    (∀ p, updatePointAt s.b now t j = some p →
      let taken := { s with b := s.b.natUpd t j fun _ =>
        { x with meas := { x.meas with duty := if 4 * (x.meas.loadedAt : Int) < p.1 then x.meas.loaded else x.meas.duty
                                       hPrev := x.meas.duty.map fun d => halfOn d (halfTc s.b t j) x.meas.minPulse
                                       dt := Fld.AX_PWM_CFG_DT s.b.cfg t j, minPulse := Fld.AX_PWM_MIN_MIN_PULSE s.b.cfg t j }
                 edgeCoarse := x.edgeCoarse && decide (x.lastCal + 1000000 ≤ now) } }
      (x.st ≠ .precharge → x.st ≠ .aligning → x.st ≠ .disabling → exec (.updatePoint t j) s = .next taken) ∧
      Gives (.prechargeEnd t j) taken fun v => exec (.updatePoint t j) s = exec (.axDisableComplete t j) v)

/-- DF_TRIP, OC_TRIP, SD_STUCK, SUM_TRIP on native slot `j` with record `x`. The model's choices and readings, not the spec's: that the row is the trip itself, given its enabling state (log 10). -/
def Obligations.StageTrips : Prop :=
  ∀ (t : Fin 8) (j : Fin 4) (s : State) (x : NatAx), tileLive s.b t = true → s.b.natAt t j = x →
    let native := isNative s.b t j = true
    let trip := fun (c : Instr) (y : Trips) => Gives c s fun u => OnlyFaults s.b u.b ∧
      u.b.natAt t j = { x with trips := y, pwm := .off, gate := false, wait := (u.b.natAt t j).wait, enPending := (u.b.natAt t j).enPending, enRefused := (u.b.natAt t j).enRefused } ∧
      (axDisabled s.b t j = false → faultRuns s.b t j = false → (u.b.sfAxAt (axNo t j)).fault = some (1, s.clk.lattice)) ∧
      ∀ now k hs y, pwmLand u.b now t j k hs y = landOf (!if hs = true then Fld.AX_PWM_CFG_POL_H s.b.cfg t j else Fld.AX_PWM_CFG_POL_L s.b.cfg t j)
    let sumOver := Fld.AX_SD_CFG_IN2_VBUS s.b.cfg t j = false ∧ Fld.AX_SUM_LIMIT s.b.cfg t j ≠ 0 ∧ max 1 (Fld.AX_SD_CFG_SUM_N s.b.cfg t j) ≤ x.trips.sumRun
    (native → x.trips.df = false → trip (.dfTrip t j) { x.trips with df := true, dfLevel := true }) ∧
    (native → x.trips.oc = false → x.gate = true → trip (.ocTrip t j) { x.trips with oc := true }) ∧
    (native → x.trips.sdStuck = false → trip (.sdStuck t j) { x.trips with sdStuck := true }) ∧
    (native → x.trips.sum = false → sumOver → trip (.sumTrip t j) { x.trips with sum := true }) ∧
    (¬native ∨ x.trips.df = true → Turns (.dfTrip t j) s s.b) ∧ (¬native ∨ x.trips.oc = true ∨ x.gate = false → Turns (.ocTrip t j) s s.b) ∧
    (¬native ∨ x.trips.sdStuck = true → Turns (.sdStuck t j) s s.b) ∧ (¬native ∨ x.trips.sum = true ∨ ¬sumOver → Turns (.sumTrip t j) s s.b)

/-- EDGE_CALIBRATION, EDGE_COARSE, AX_TRIP_CLEAR, STEPPER_HOLD on native slot `j` with record `x`. -/
def Obligations.EdgeAndTripClear : Prop :=
  ∀ (t : Fin 8) (j : Fin 4) (s : State) (x : NatAx), tileLive s.b t = true → s.b.natAt t j = x →
    let now := s.clk.lattice
    Turns (.edgeCalibration t j) s (s.b.natUpd t j fun _ => { x with lastCal := now }) ∧
    (isNative s.b t j = true → x.edgeCoarse = false → x.lastCal + 1000000 ≤ now → Gives (.edgeCoarse t j) s fun u =>
      u.b = { s.b.natUpd t j (fun _ => { x with edgeCoarse := true }) with hl := u.b.hl, nv := u.b.nv, bk := u.b.bk } ∧
      tabGet 0 u.b.hl.edges t = tabGet 0 s.b.hl.edges t + 1 ∧ (2 ≤ tabGet 0 s.b.hl.edges t → u.b.nv.replace.testBit 7 = true) ∧
      (tabGet 0 s.b.hl.edges t < 2 → u.b.nv.replace = s.b.nv.replace)) ∧
    ((isNative s.b t j = false ∨ x.edgeCoarse = true ∨ now < x.lastCal + 1000000) → Turns (.edgeCoarse t j) s s.b) ∧
    (∀ m : Word, Turns (.axTripClear t j m) s (s.b.natUpd t j fun _ =>
      let lim := Fld.AX_SUM_LIMIT s.b.cfg t j
      { x with trips := { x.trips with
          df := x.trips.df && !(m.getLsbD 1 && !x.trips.dfLevel)
          oc := x.trips.oc && !(m.getLsbD 2 && decide (x.trips.ocMag < Fld.AX_OC_LIMIT s.b.cfg t j))
          sum := x.trips.sum && !(m.getLsbD 3 && (decide (lim = 0) || decide (x.trips.sum_.natAbs ≤ lim)))
          sdStuck := x.trips.sdStuck && !(m.getLsbD 4 && !sdIsStuck x) } })) ∧
    (slotTy s.b t j = .nstep → Turns (.stepperHold t j) s (s.b.natUpd t j fun _ =>
      { x with step := { x.step with holding := decide (x.step.lastMove + Fld.AX_STEP_HOLD_HOLD_T s.b.cfg t j * 1000000 ≤ now) } })) ∧
    (slotTy s.b t j ≠ .nstep → Turns (.stepperHold t j) s s.b)

/-- QD_COUNT on channel `q` with record `x`: one of A and B changes, both do, none does. The model's choices and readings, not the spec's: when a change given as such can have been accepted by the filter (log 18). -/
def Obligations.QuadratureCount : Prop :=
  ∀ (t q : Fin 8) (ts : Nat) (a b : Bool) (s : State) (x : Qd), tileLive s.b t = true → s.b.qdAt t q = x →
    let now := s.clk.lattice
    let admitted := qdAdmits s.b now t q ts a b = true
    let up := (x.a = false ∧ x.b = false ∧ a = true) ∨ (x.a = true ∧ x.b = false ∧ b = true) ∨ (x.a = true ∧ x.b = true ∧ a = false) ∨ (x.a = false ∧ x.b = true ∧ b = false)
    let c : Int := if up ↔ Fld.QD_CFG_DIR_INV s.b.cfg t q = false then 1 else -1
    let pos := Fld.QD_CFG_HYST s.b.cfg t q = false ∨ x.d = 0 ∨ c = x.d
    let h := if pos then x.h + c else x.h
    let others := fun (u : State) => ∀ t' q' : Fin 8, ¬(t' = t ∧ q' = q) → u.b.qdAt t' q' = s.b.qdAt t' q'
    let edge := fun (l : HoldIn) => { l with acc := some ts }
    (admitted → ((x.a = a ∧ x.b ≠ b) ∨ (x.a ≠ a ∧ x.b = b)) → Gives (.qdCount t q ts a b) s fun u =>
      let y := u.b.qdAt t q
      y = { x with a := a, b := b, raw := x.raw + c, h := h, d := c, lastReg := now, standstill := false, runDir := if pos then c else 0, hPre := if x.lastReg = now then x.hPre else x.h
                   inA := if a = x.a then x.inA else edge x.inA, inB := if b = x.b then x.inB else edge x.inB
                   run := y.run, recent := y.recent, pend := y.pend, idxPos := y.idxPos, idxH := y.idxH } ∧
      (¬pos → y.run = []) ∧ (pos → y.run.head? = some ts ∧ (x.runDir ≠ c ∨ x.run = [] → y.run = [ts]) ∧ (x.runDir = c → x.run ≠ [] → y.run = ts :: qdRunKeep ts x.run)) ∧
      y.recent = { ts := ts, raw := x.raw + c, h := h, raw0 := x.raw, h0 := x.h } :: qdRecent ts x.recent ∧
      (x.idxSeen = true ∧ ts ≤ x.idxTs → y.idxPos = x.idxPos + wrap64 ((h - x.h) * 2 ^ 16) ∧ y.idxH = x.idxH + (h - x.h)) ∧
      (¬(x.idxSeen = true ∧ ts ≤ x.idxTs) → y.idxPos = x.idxPos ∧ y.idxH = x.idxH) ∧
      others u ∧ u.b = { s.b with qd := u.b.qd, prb := u.b.prb, cmp := u.b.cmp, aq := u.b.aq, nt := { s.b.nt with fly := u.b.nt.fly } }) ∧
    (admitted → x.a ≠ a → x.b ≠ b → Gives (.qdCount t q ts a b) s fun u =>
      let n := min 255 (x.flt.illLeaky + 1)
      let y := { x with a := a, b := b, inA := edge x.inA, inB := edge x.inB, flt := { x.flt with illTotal := min 65535 (x.flt.illTotal + 1), illLeaky := n, illegal := x.flt.illegal || decide (Fld.QD_ILL_ILL_THR s.b.cfg t q ≤ n) } }
      u.b.qdAt t q = { y with fb := (u.b.qdAt t q).fb, armed := (u.b.qdAt t q).armed } ∧
      OnlyFaults (s.b.qdUpd t q fun _ => { y with fb := (u.b.qdAt t q).fb }) u.b ∧
      (x.flt.illegal = true ∨ n < Fld.QD_ILL_ILL_THR s.b.cfg t q → u.b = s.b.qdUpd t q fun _ => y)) ∧
    (admitted → x.a = a → x.b = b → Turns (.qdCount t q ts a b) s (s.b.qdUpd t q fun _ => x)) ∧
    (¬admitted → Turns (.qdCount t q ts a b) s s.b)

/-- INDEX_EVENT, SET_POS, IDX_ARM, IDX_DISARM on channel `q` with record `x`. The model's choices and readings, not the spec's: when a change given as such can have been accepted by the filter (log 18). -/
def Obligations.IndexAndReference : Prop :=
  ∀ (t q : Fin 8) (s : State) (x : Qd), tileLive s.b t = true → s.b.qdAt t q = x →
    let now := s.clk.lattice
    let used := chanUsed s.b t q = true
    let to_ := fun c y => Turns c s (s.b.qdUpd t q fun _ => y)
    let gate := Fld.QD_CFG_IDX_GATE s.b.cfg t q = false ∨ (x.a = bit (Fld.QD_CFG_IDX_AB s.b.cfg t q) 1 ∧ x.b = bit (Fld.QD_CFG_IDX_AB s.b.cfg t q) 0)
    let ref := dwOf (Fld.QD_REFVAL_HI_VALUE s.b.cfg t q) (Fld.QD_REFVAL_LO_VALUE s.b.cfg t q)
    (∀ ts z, zAdmits s.b now t q ts z = true →
      let h := (qdAtTs x ts).2
      let x' := { x with z := z, inZ := { x.inZ with acc := some ts } }
      let y := { x' with idxSeen := true, idxTs := ts, idxPos := wrap64 (h * 2 ^ 16) + x.posOfs, idxH := h }
      (z = Fld.QD_CFG_Z_POL s.b.cfg t q → gate → x.armed = none → to_ (.indexEvent t q ts z) y) ∧
      (∀ r v, z = Fld.QD_CFG_Z_POL s.b.cfg t q → gate → x.armed = some (r, v) → now ≤ r → to_ (.indexEvent t q ts z) y) ∧
      (∀ r v, z = Fld.QD_CFG_Z_POL s.b.cfg t q → gate → x.armed = some (r, v) → r < now → Gives (.indexEvent t q ts z) s fun u =>
        u.b.qdAt t q = { y with armed := none, pend := some (.index now ts h v) } ∧
        u.b = { s.b.qdUpd t q (fun _ => { y with armed := none, pend := some (.index now ts h v) }) with gen := u.b.gen } ∧
        ∀ j : Fin 16, u.b.genAt t j = if j.val ∈ indexSlots s.b t q then homeRef now (homePos s.b t j) y.idxPos true (s.b.genAt t j) else s.b.genAt t j) ∧
      (z ≠ Fld.QD_CFG_Z_POL s.b.cfg t q → to_ (.indexEvent t q ts z) x') ∧
      (¬gate → to_ (.indexEvent t q ts z) x')) ∧
    (∀ ts z, zAdmits s.b now t q ts z = false → Turns (.indexEvent t q ts z) s s.b) ∧
    (used → to_ (.setPos t q) { x with pend := some (.setPos now ref), armed := none }) ∧
    (used → to_ (.idxArm t q) { x with armed := some (now, ref) }) ∧
    (¬used → Turns (.setPos t q) s s.b ∧ Turns (.idxArm t q) s s.b) ∧
    to_ (.idxDisarm t q) { x with armed := none }

/-- ILL_LEAK, STANDSTILL, RX_FAULT, QD_FAULT_CLEAR on channel `q` with record `x`; `j` is the slot the channel is assigned to. The model's choices and readings, not the spec's: that RX_FAULT is the event itself (log 10). -/
def Obligations.FeedbackFaults : Prop :=
  ∀ (t q : Fin 8) (s : State) (x : Qd), tileLive s.b t = true → s.b.qdAt t q = x →
    let now := s.clk.lattice
    let j := Fld.QD_ASSIGN_SLOT s.b.cfg t q
    let commutates := slotTy s.b t j = .n3ph ∧ Fld.AX_COMM_QCH s.b.cfg t j = q
    let to_ := fun c y => Turns c s (s.b.qdUpd t q fun _ => y)
    let leaks := chanUsed s.b t q = true ∧ Fld.QD_ILL_ILL_LEAK s.b.cfg t q ≠ 0 ∧ now % (Fld.QD_ILL_ILL_LEAK s.b.cfg t q * 1000) = 0
    let receives := chanUsed s.b t q = true ∧ Fld.QD_CFG_RX_EN s.b.cfg t q = true ∧ x.flt.rx = false
    (leaks → x.flt.leakAt ≠ now → to_ (.illLeak t q) { x with flt := { x.flt with illLeaky := x.flt.illLeaky - 1, leakAt := now } }) ∧
    (leaks → x.flt.leakAt = now → to_ (.illLeak t q) x) ∧ (¬leaks → Turns (.illLeak t q) s s.b) ∧
    (x.standstill = false → x.lastReg + 1000 * Fld.QD_STILL_STILL_T s.b.cfg t q ≤ now →
      to_ (.standstill t q) { x with standstill := true, run := [], runDir := 0 }) ∧
    ((x.standstill = true ∨ now < x.lastReg + 1000 * Fld.QD_STILL_STILL_T s.b.cfg t q) → to_ (.standstill t q) x) ∧
    (receives → Gives (.rxFault t q) s fun u =>
      let y := { x with flt := { x.flt with rx := true, rxLevel := true }, fb := (u.b.qdAt t q).fb }
      u.b.qdAt t q = { y with armed := (u.b.qdAt t q).armed } ∧ OnlyFaults (s.b.qdUpd t q fun _ => y) u.b ∧
      (fallbackUsers s.b t (0x30 + q) = [] → axDisabled s.b t j = false → slotTy s.b t j ≠ .unused →
        ((Fld.QD_FB_CFG_FB_EN s.b.cfg t q = true ∧ ¬commutates) → (u.b.qdAt t q).fb = if x.fb.on then x.fb else { x.fb with due := some (x.fb.due.getD now) }) ∧
        ((Fld.QD_FB_CFG_FB_EN s.b.cfg t q = false ∨ commutates) → faultRuns s.b t j = false → (u.b.sfAxAt (axNo t j)).fault = some (1, now)))) ∧
    (¬receives → Turns (.rxFault t q) s s.b) ∧
    (∀ m : Word, to_ (.qdFaultClear t q m) { x with flt := { x.flt with
      illegal := x.flt.illegal && !(m.getLsbD 1 && decide (x.flt.illLeaky < Fld.QD_ILL_ILL_THR s.b.cfg t q))
      rx := x.flt.rx && !(m.getLsbD 2 && !x.flt.rxLevel)
      freeze := x.flt.freeze && !m.getLsbD 3 } })

/-- PROBE_EDGE, PRB_POP, PRB_FLUSH on probe `p` with record `x`. The model's choices and readings, not the spec's: when an edge given as such can have been accepted by the filter (log 18). -/
def Obligations.Probes : Prop :=
  ∀ (t : Fin 8) (p : Fin 4) (s : State) (x : Prb), tileLive s.b t = true → s.b.prbAt t p = x →
    (∀ ts up,
      let filt := Fld.QD_PRB_CFG_FILT s.b.cfg t p
      let accepted := Fld.QD_PRB_CFG_EN s.b.cfg t p = true ∧ firstTick filt ts s.clk.lattice = true ∧ up ≠ x.level ∧ heldFor filt ts x.inp = true
      let selected := bit (Fld.QD_PRB_CFG_EDGE s.b.cfg t p) (if up then 0 else 1) = true
      let q := s.b.qdAt t (Fld.QD_PRB_CFG_QCH s.b.cfg t p)
      let r := qdAtTs q ts
      let y := { x with level := up, lastTs := ts, at_ := positionsAt s.b t ts, inp := { x.inp with acc := some ts } }
      let to_ := fun z => s.b.prbUpd t p fun _ => z
      (accepted → selected → x.fifo.length < 16 → Turns (.probeEdge t p ts up) s
        (acqEvent s.clk.lattice t (4 + p) (to_ { y with fifo := x.fifo ++ [{ ts := ts, pos := wrap64 (r.2 * 2 ^ 16) + q.posOfs, raw := r.1, rising := up }] }))) ∧
      (accepted → selected → 16 ≤ x.fifo.length → Turns (.probeEdge t p ts up) s (to_ { y with lost := min 255 (x.lost + 1), ovf := true })) ∧
      (accepted → ¬selected → Turns (.probeEdge t p ts up) s (to_ y)) ∧
      (¬accepted → Turns (.probeEdge t p ts up) s s.b)) ∧
    Turns (.prbPop t p) s (s.b.prbUpd t p fun _ => { x with fifo := x.fifo.tail }) ∧
    Turns (.prbFlush t p) s (s.b.prbUpd t p fun _ => { x with fifo := [], lost := 0 })

/-- PG_START, PG_STOP, PG_HOME on slot `j` with record `g`. The model's choices and readings, not the spec's: the conditions that bar an axis (log 17), and HOME beside START (log 58). -/
def Obligations.ProfileCommands : Prop :=
  ∀ (t : Fin 8) (j : Fin 16) (s : State) (g : Gen), tileLive s.b t = true → s.b.genAt t j = g →
    let now := s.clk.lattice
    let to_ := fun c y => Turns c s (s.b.genUpd t j fun _ => y)
    let refused := { g with fl := { g.fl with startRefused := true } }
    let calm := { g with req := { g.req with startPending := false, start := none, home := none } }
    let aborted := if g.hm.st = .off then g.hm else { g.hm with st := .off, res := .aborted }
    let larger := match g.req.stop with
      | some (r, d) => (r, max d (Fld.PG_DECEL_DEC s.b.cfg t j))
      | none => (now, Fld.PG_DECEL_DEC s.b.cfg t j)
    -- the index reference that homing armed in its channel is armed no more
    let disarmed := fun (b : Block) => if g.hm.st = .index ∧ g.hm.ref = none then
        match posChan s.b t j with
        | some k => b.qdUpd t k fun q => { q with armed := none }
        | none => b
      else b
    let groupIdle := ∀ m, plgOf s.b t j = some m → (s.b.plgAt m).st = .idle
    (plgOf s.b t j = none →
      (moveOk s.b t j = true → g.st = .stopping → to_ (.pgStart t j) { g with req := { g.req with startPending := true } }) ∧
      (moveOk s.b t j = true → g.st = .idle → (g.shadow = .fetching ∨ (g.shadow = .sealed ∧ (g.uncertain = false ∨ g.shadowBank.rel = true))) →
        to_ (.pgStart t j) { g with req := { g.req with start := some (g.req.start.getD now) } }) ∧
      (moveOk s.b t j = false → to_ (.pgStart t j) refused) ∧
      ((g.st = .running ∨ g.st = .homing) → to_ (.pgStart t j) refused) ∧
      (g.st = .idle → (g.shadow = .empty ∨ (g.shadow = .sealed ∧ g.uncertain = true ∧ g.shadowBank.rel = false)) → to_ (.pgStart t j) refused) ∧
      (slotTy s.b t j ≠ .pulse → g.st = .idle → to_ (.pgStop t j) calm) ∧
      (slotTy s.b t j ≠ .pulse → g.st ≠ .idle → Turns (.pgStop t j) s (disarmed (s.b.genUpd t j fun _ =>
        { calm with req := { calm.req with stop := some larger, starve := false }, fl := { g.fl with hostStop := true }, hm := aborted }))) ∧
      (slotTy s.b t j = .pulse → Turns (.pgStop t j) s ((disarmed (s.b.genUpd t j fun _ =>
        { calm with fl := { g.fl with hostStop := true }, hm := aborted })).pulseUpd t (j - 4) fun p => { p with imm := some (p.imm.getD now) }))) ∧
    (∀ m, plgOf s.b t j = some m → to_ (.pgStart t j) refused) ∧
    (∀ m, plgOf s.b t j = some m → Fld.GR_PLG_CFG_EN s.b.cfg m = true → Turns (.pgStop t j) s (s.b.plgUpd m fun p => { p with cmds := p.cmds ++ [(.stop, now)] })) ∧
    (∀ m, plgOf s.b t j = some m → Fld.GR_PLG_CFG_EN s.b.cfg m = false → Turns (.pgStop t j) s s.b) ∧
    (moveOk s.b t j = true → g.st = .idle → groupIdle →
      to_ (.pgHome t j) { g with req := { g.req with startPending := false, home := some (g.req.home.getD now) }, hm := { g.hm with homed := false } }) ∧
    ((moveOk s.b t j = false ∨ g.st ≠ .idle ∨ ¬groupIdle) →
      to_ (.pgHome t j) { g with req := { g.req with startPending := false }, hm := { g.hm with res := .refused } })

/-- PG_SEAL, PG_SEAL_DONE, PG_UNSEAL, PREFETCH_ARRIVAL, HOMING_TIMEOUT on slot `j` with record `g`. The model's choices and readings, not the spec's: that the environment reports the end of a check and the arrival of records (log 11), and the order of waiting packets (log 56). -/
def Obligations.ProfileBanks : Prop :=
  ∀ (t : Fin 8) (j : Fin 16) (s : State) (g : Gen), tileLive s.b t = true → s.b.genAt t j = g →
    let now := s.clk.lattice
    let to_ := fun c y => Turns c s (s.b.genUpd t j fun _ => y)
    let shadow := match g.active with
      | none => 0
      | some k => 1 - k
    let r := profileBank s.b t j shadow
    let bs := bankBytes s.b.mem r
    let err := profileErr bs (Fld.PG_CFG_BANK_SIZE s.b.cfg t j) (Fld.PG_MIN_DUR_MIN_DUR s.b.cfg t j)
    let n := goodRecs s.b r 0 (min (leAt bs 0 4) 16)
    let q := profileBank s.b t j (g.active.getD 0)
    let m := goodRecs s.b q g.bank.next (min g.fetch (g.bank.count - g.bank.next))
    let sealed := { g with shadow := .sealed, sealedAt := now, shadowBank := { count := leAt bs 0 4, rel := bit (leAt bs 8 4) 0, buf := bankSegs s.b.mem r 0 n, next := n } }
    let bad := { g with shadow := .empty, fl := { g.fl with sealErr := true, errCode := err } }
    let arrived := s.b.genUpd t j fun _ => { g with bank := { g.bank with buf := g.bank.buf ++ bankSegs s.b.mem q g.bank.next m, next := g.bank.next + m }, fetch := 0 }
    let overdue := g.st = .homing ∧ g.hm.st ≠ .off ∧ g.hm.st ≠ .settle ∧ g.hm.ref = none ∧ g.hm.start + Fld.PG_HOME_TO_HOME_TO s.b.cfg t j * 1000000 ≤ now
    let ends := { g.hm with st := .off, res := .timeout }
    let disarmed := fun (b : Block) => if g.hm.st = .index then
        match posChan s.b t j with
        | some k => b.qdUpd t k fun q => { q with armed := none }
        | none => b
      else b
    let larger := match g.req.stop with
      | some (r, d) => (r, max d (Fld.PG_FB_DECEL_DEC s.b.cfg t j))
      | none => (now, Fld.PG_FB_DECEL_DEC s.b.cfg t j)
    (hasGen s.b t j = true → g.shadow = .empty → to_ (.pgSeal t j) { g with shadow := .fetching }) ∧
    (hasGen s.b t j = true → g.shadow ≠ .empty → to_ (.pgSeal t j) g) ∧
    (hasGen s.b t j = false → Turns (.pgSeal t j) s s.b) ∧
    (plgOf s.b t j = none → hasGen s.b t j = true → g.shadow = .fetching → err = 0 → to_ (.pgSealDone t j) sealed) ∧
    (plgOf s.b t j = none → hasGen s.b t j = true → g.shadow = .fetching → err ≠ 0 → to_ (.pgSealDone t j) bad) ∧
    (∀ k, plgOf s.b t j = some k → hasGen s.b t j = true → g.shadow = .fetching →
      Turns (.pgSealDone t j) s (plgCompare now k (s.b.genUpd t j fun _ => if err = 0 then sealed else bad))) ∧
    ((hasGen s.b t j = false ∨ g.shadow ≠ .fetching) → Turns (.pgSealDone t j) s s.b) ∧
    (plgOf s.b t j = none → g.shadow = .sealed → to_ (.pgUnseal t j) { g with shadow := .empty }) ∧
    (plgOf s.b t j = none → g.shadow ≠ .sealed → to_ (.pgUnseal t j) g) ∧
    (∀ k, plgOf s.b t j = some k →
      Turns (.pgUnseal t j) s (plgCompare now k (s.b.genUpd t j fun _ => if g.shadow = .sealed then { g with shadow := .empty } else g))) ∧
    (g.fetch ≠ 0 → spineServes s.b (pktTable t g.fetchAt) = true → Turns (.prefetchArrival t j) s { arrived with turns := spineServed arrived (pktTable t g.fetchAt) }) ∧
    ((g.fetch = 0 ∨ spineServes s.b (pktTable t g.fetchAt) = false) → Turns (.prefetchArrival t j) s s.b) ∧
    (overdue → slotTy s.b t j ≠ .pulse → Turns (.homingTimeout t j) s (disarmed (s.b.genUpd t j fun _ =>
      { g with hm := ends, req := { g.req with stop := some larger, starve := false } }))) ∧
    (overdue → slotTy s.b t j = .pulse → plgOf s.b t j = none → Turns (.homingTimeout t j) s ((disarmed (s.b.genUpd t j fun _ => { g with hm := ends })).pulseUpd t (j - 4)
      fun p => { p with imm := some (p.imm.getD now) })) ∧
    (¬overdue → to_ (.homingTimeout t j) g)

/-- PG_AX_ENABLE, PG_AX_DISABLE, IMMEDIATE_STOP on pulse axis `i` (slot 4 + i) with record `x`. The model's choices and readings, not the spec's: the conditions that bar an enable (log 17). -/
def Obligations.PulseTrainEnable : Prop :=
  ∀ (t : Fin 8) (i : Fin 4) (s : State) (x : Pulse) (g : Gen), tileLive s.b t = true → s.b.pulseAt t i = x → s.b.genAt t (4 + i) = g →
    let now := s.clk.lattice
    let j := 4 + i.val
    let to_ := fun c y => Turns c s (s.b.pulseUpd t i fun _ => y)
    let moved := x.w ≠ 0 ∨ x.held ≠ [] ∨ g.st ≠ .idle
    (x.st = .disabled → x.wait = none → slotTy s.b t j = .pulse → enableBarred s.b t j = false → to_ (.pgAxEnable t i) { x with wait := some now }) ∧
    (x.st = .disabled → x.wait = none → (slotTy s.b t j ≠ .pulse ∨ enableBarred s.b t j = true) → to_ (.pgAxEnable t i) { x with enRefused := true }) ∧
    (((x.st = .disabled ∧ x.wait ≠ none) ∨ x.st = .enabled) → Turns (.pgAxEnable t i) s s.b) ∧
    (x.st = .disabling → safetyStops s.b t j = false → to_ (.pgAxEnable t i) { x with enPending := true }) ∧
    (x.st = .disabling → safetyStops s.b t j = true → to_ (.pgAxEnable t i) { x with enRefused := true }) ∧
    (x.st = .disabled → to_ (.pgAxDisable t i) { x with wait := none }) ∧
    (x.st = .disabling → to_ (.pgAxDisable t i) { x with enPending := false }) ∧
    (x.st = .enabled → Gives (.pgAxDisable t i) s fun u =>
      u.b = { s.b with pulse := u.b.pulse, gen := u.b.gen, plg := u.b.plg, follow := u.b.follow, qd := u.b.qd } ∧
      u.b.pulse = (s.b.pulseUpd t i fun _ => { x with st := .disabling, disAt := now, imm := some (x.imm.getD now) }).pulse ∧
      u.b.gen = (s.b.genUpd t j fun _ => { g with fl := { g.fl with faultStop := g.fl.faultStop || decide (g.st ≠ .idle) }
                                                  hm := if g.hm.st = .off then g.hm else { g.hm with st := .off, res := .fault } }).gen ∧
      u.b.follow = (s.b.followUpd t j fun f => { f with cl := { f.cl with down := some (f.cl.down.getD now), pending := false } }).follow ∧
      (∀ k, g.hm.st = .index → g.hm.ref = none → posChan s.b t j = some k → u.b.qd = (s.b.qdUpd t k fun q => { q with armed := none }).qd) ∧
      ((g.hm.st ≠ .index ∨ g.hm.ref ≠ none ∨ posChan s.b t j = none) → u.b.qd = s.b.qd) ∧
      (∀ m, plgOf s.b t j = some m → (s.b.plgAt m).st ≠ .idle → u.b.plg = (s.b.plgUpd m fun p => { p with evSent := true }).plg) ∧
      (plgOf s.b t j = none → u.b.plg = s.b.plg)) ∧
    (∀ c, x.imm = some c → c < now → Turns (.immediateStop t i) s
      ((s.b.pulseUpd t i fun _ => { x with imm := none, w := 0, held := [], haltAt := now }).genUpd t j fun _ =>
        { g with req := { g.req with toX := some (wrap64 (x.x.toInt * 65536)) }, uncertain := g.uncertain || decide moved, hm := { g.hm with homed := g.hm.homed && !decide moved } })) ∧
    ((x.imm = none ∨ ∃ c, x.imm = some c ∧ now ≤ c) → Turns (.immediateStop t i) s s.b)

/-- PULSE_DUE, PULSE_ISSUE, STEP_PULSE_END on pulse axis `i` (slot 4 + i) with record `x`. The model's choices and readings, not the spec's: the crossings and RES after a cancelled pulse (log 60). -/
def Obligations.StepPulses : Prop :=
  ∀ (t : Fin 8) (i : Fin 4) (s : State) (x : Pulse), tileLive s.b t = true → s.b.pulseAt t i = x →
    let now := s.clk.lattice
    let g := pulseCfg s.b t (4 + i)
    let to_ := fun c y => Turns c s (s.b.pulseUpd t i fun _ => y)
    let q : Int := pulseQ g x.level
    let k : Int := if 0 < x.w then q else -q
    let crossed := fun (m : Int) => (x.a.toNat : Int) / m ≠ (x.a.toNat + x.w) / m
    let due := crossed (q * 2 ^ 40)
    let full := x.target ≠ x.level ∧ crossed (2 ^ 48)
    let r := if full then some x.target else none
    let go := { x with a := x.a + wrap64 x.w, advAt := now, level := if full then x.target else x.level }
    -- DIR turns for the oldest held pulse unless a pulse is active
    let turned := fun (e : PulseEnt) => if x.step = false ∧ x.dirNeg ≠ decide (e.q < 0) then { x with dirNeg := decide (e.q < 0), dirSince := now } else x
    let stood := fun (y : Pulse) => y.step = false ∧ y.stepSince + 10 * g.stepW ≤ now ∧ y.dirSince + 10 * g.dirSetup ≤ now ∧ y.resSince + 10 * g.resSetup ≤ now
    (slotTy s.b t (4 + i) ≠ .pulse → Turns (.pulseDue t i) s s.b ∧ Turns (.pulseIssue t i) s s.b ∧ Turns (.stepPulseEnd t i) s s.b) ∧
    (slotTy s.b t (4 + i) = .pulse →
      (x.advAt = now → to_ (.pulseDue t i) x) ∧
      (x.advAt ≠ now → ¬due → to_ (.pulseDue t i) { x with a := x.a + wrap64 x.w, advAt := now }) ∧
      (x.advAt ≠ now → due → x.held = [] → to_ (.pulseDue t i) { go with held := [{ q := k, res := r }] }) ∧
      (∀ l e, x.advAt ≠ now → due → x.held = l ++ [e] → 0 ≤ e.q * k → to_ (.pulseDue t i) { go with held := l ++ [e, { q := k, res := r }] }) ∧
      (∀ l e, x.advAt ≠ now → due → x.held = l ++ [e] → e.q * k < 0 → r = none → e.res = none → to_ (.pulseDue t i) { go with held := l }) ∧
      (∀ l f e n, x.advAt ≠ now → due → x.held = l ++ [f, e] → e.q * k < 0 → r.orElse (fun _ => e.res) = some n →
        to_ (.pulseDue t i) { go with held := l ++ [{ f with res := some n }] }) ∧
      (∀ e n, x.advAt ≠ now → due → x.held = [e] → e.q * k < 0 → r.orElse (fun _ => e.res) = some n → x.step = true →
        to_ (.pulseDue t i) { go with held := [], resNext := some n }) ∧
      (∀ e n, x.advAt ≠ now → due → x.held = [e] → e.q * k < 0 → r.orElse (fun _ => e.res) = some n → x.step = false →
        to_ (.pulseDue t i) { go with held := [], res := n, resSince := now }) ∧
      (x.held = [] → to_ (.pulseIssue t i) x) ∧
      (∀ e l, x.held = e :: l → (turned e).dirNeg = decide (e.q < 0) → stood (turned e) → Gives (.pulseIssue t i) s fun u =>
        u.b = { s.b with pulse := u.b.pulse, cmp := u.b.cmp, aq := u.b.aq, nt := { s.b.nt with fly := u.b.nt.fly } } ∧
        u.b.pulse = (s.b.pulseUpd t i fun _ => { turned e with
          held := l, step := true, stepSince := now, x := x.x + wrap64 e.q, resNext := e.res, heldMax := max x.heldMax (min 255 l.length)
          recent := (now, x.x, x.x + wrap64 e.q) :: x.recent.filter fun r => decide (now ≤ r.1 + 8192) }).pulse) ∧
      (∀ e l, x.held = e :: l → ¬((turned e).dirNeg = decide (e.q < 0) ∧ stood (turned e)) →
        to_ (.pulseIssue t i) { turned e with heldMax := max x.heldMax (min 255 (l.length + 1)) }) ∧
      (x.step = true → x.stepSince + 10 * g.stepW ≤ now → to_ (.stepPulseEnd t i)
        { x with step := false, stepSince := now, res := x.resNext.getD x.res, resSince := if x.resNext = none then x.resSince else now, resNext := none }) ∧
      ((x.step = false ∨ now < x.stepSince + 10 * g.stepW) → to_ (.stepPulseEnd t i) x))

/-- PLG_START, PLG_HOLD, PLG_RESUME, PLG_STOP, PLG_FEED_WRITE, PLG_MEMBER_EVENT and FEED_INSTANT on group `g` with record `p`; `plgDue` is the command due, `plgLimited` and `plgStartOk` the conditions of R303 and R299. The model's choices and readings, not the spec's: that a command without a transition has no effect and the order of R298 before R305 (log 20), the common segment clock (log 19), and the causes at one instant (log 58). -/
def Obligations.PleachedGroups : Prop :=
  ∀ (g : Fin 8) (s : State) (p : Plg), s.b.run.on = true → s.b.plgAt g = p →
    let now := s.clk.lattice
    let to_ := fun c q => Turns c s (s.b.plgUpd g fun _ => q)
    let en := Fld.GR_PLG_CFG_EN s.b.cfg g
    let per := Fld.GR_PLG_CFG_FEED_P s.b.cfg g
    let feed := en = true ∧ per ≠ 0 ∧ ((now : Int) - 10 * Fld.GR_PLG_PHASE_PHASE s.b.cfg g) % (10 * per) = 0
    let near := fun (target d : Int) => p.f + min (max (target - p.f) (-d)) d
    let dfRun : Int := Fld.GR_PLG_DF_RUN_DF s.b.cfg g
    let dfStop : Int := Fld.GR_PLG_DF_STOP_DF s.b.cfg g
    let dfFault : Int := Fld.GR_PLG_DF_FAULT_DF s.b.cfg g
    let target : Int := Fld.GR_PLG_FEED_TARGET s.b.cfg g
    let p1 := { p with fedAt := now, fOld := p.f, cmds := p.cmds.filter fun c => decide (now < c.2 + 10000) }
    let on := p.st = .running ∨ p.st = .holding ∨ p.st = .held
    let cmd := plgDue now p.cmds
    (en = true →
      to_ (.plgStart g) { p with cmds := p.cmds ++ [(.start, now)] } ∧ to_ (.plgHold g) { p with cmds := p.cmds ++ [(.hold, now)] } ∧
      to_ (.plgResume g) { p with cmds := p.cmds ++ [(.resume, now)] } ∧ to_ (.plgStop g) { p with cmds := p.cmds ++ [(.stop, now)] } ∧
      (∀ v : Word, v.toNat ≤ 0x80000000 → Gives (.plgFeedWrite g v) s fun u => u.b.plgAt g = { p with cmds := p.cmds ++ [(.feed v.toNat, now)] } ∧
        tabGet 0x40000000 u.b.cfg (0x30014 + 0x40 * g) = v ∧ u.b = { s.b with plg := u.b.plg, cfg := u.b.cfg })) ∧
    (en = false → Turns (.plgStart g) s s.b ∧ Turns (.plgHold g) s s.b ∧ Turns (.plgResume g) s s.b ∧ Turns (.plgStop g) s s.b) ∧
    (∀ v : Word, 0x80000000 < v.toNat → to_ (.plgFeedWrite g v) { p with refused := true }) ∧
    (p.evSent = true → to_ (.plgMemberEvent g) { p with evSent := false, ev := some (p.ev.getD now) }) ∧
    (p.evSent = false → Turns (.plgMemberEvent g) s s.b) ∧
    (¬feed → Turns (.feedInstant g) s s.b) ∧
    (s.b.marks.contains (100 + g) = true → Turns (.feedInstant g) s s.b) ∧
    (feed → s.b.marks.contains (100 + g) = false →
      let does := fun q => Gives (.feedInstant g) s fun u => u.b.plgAt g = q ∧ (∀ g' : Fin 8, g' ≠ g → u.b.plgAt g' = s.b.plgAt g') ∧
        u.b = { s.b with plg := u.b.plg, marks := (100 + g) :: s.b.marks }
      let drift := fun (q : Plg) => match p.st with
        | .running => { q with f := near q.goal dfRun }
        | .holding => { q with f := near 0 p.df, st := if near 0 p.df = 0 then .held else .holding }
        | .held => { q with f := 0 }
        | .stopping => { q with f := near 0 p.df }
        | .idle => q
      let event := p.st ≠ .idle ∧ ∃ e, p.ev = some e ∧ e < now
      let stop := cmd = some .stop ∧ on
      let limit := on ∧ ∃ l, p.lim = some l ∧ l < now
      (event → does { p1 with f := near 0 dfFault, st := .stopping, df := dfFault, memberFault := true, ev := none, lim := none, govAt := some now }) ∧
      (¬event → stop → does { p1 with f := near 0 dfStop, st := .stopping, df := dfStop, lim := none, govAt := some now }) ∧
      (¬event → ¬stop → limit → does { p1 with f := near 0 dfFault, st := if near 0 dfFault = 0 then .held else .holding, df := dfFault, limitHold := true, lim := none, govAt := some now }) ∧
      (¬event → ¬stop → ¬limit →
        ((cmd = none ∨ cmd = some .stop) → does (drift p1)) ∧
        (cmd = some .hold → p.st = .running → does { p1 with f := near 0 dfStop, st := if near 0 dfStop = 0 then .held else .holding, df := dfStop, govAt := some now }) ∧
        (cmd = some .hold → p.st ≠ .running → does (drift p1)) ∧
        (cmd = some .resume → (p.st = .holding ∨ p.st = .held) → plgLimited s.b g = false →
          does { p1 with f := near target dfRun, st := .running, goal := target, lim := none, govAt := some now }) ∧
        (cmd = some .resume → (p.st = .holding ∨ p.st = .held) → plgLimited s.b g = true → does (drift { p1 with refused := true })) ∧
        (cmd = some .resume → (p.st ≠ .holding ∧ p.st ≠ .held) → does (drift p1)) ∧
        (∀ v, cmd = some (.feed v) → does (drift { p1 with goal := v, govAt := if on then some now else p.govAt })) ∧
        (cmd = some .start → plgStartOk s.b now g = false → does (drift { p1 with refused := true })) ∧
        (cmd = some .start → plgStartOk s.b now g = true → Gives (.feedInstant g) s fun u =>
          u.b.plgAt g = { p1 with st := .running, goal := target, f := target, ev := none, evSent := false, lim := none, starving := false } ∧
          u.b = { s.b with plg := u.b.plg, marks := (100 + g) :: s.b.marks, gen := u.b.gen } ∧
          (∀ (t : Fin 8) (j : Fin 16), plgOf s.b t j ≠ some g.val → u.b.genAt t j = s.b.genAt t j) ∧
          ∃ tau, ∀ m ∈ plgMembers s.b g, (u.b.genAt m.1 m.2).run.tau = tau ∧ (u.b.genAt m.1 m.2).req.start = some (now - 10))))

/-- CLUTCH_ENGAGE, CLUTCH_DISENGAGE, CLUTCH_ZERO on slot `j` with follower record `f`. The model's choices and readings, not the spec's: the crossing after s_c and a second ENGAGE (log 62). -/
def Obligations.Clutches : Prop :=
  ∀ (t : Fin 8) (j : Fin 16) (s : State) (f : Follow), tileLive s.b t = true → s.b.followAt t j = f →
    let now := s.clk.lattice
    let k := f.cl
    let to_ := fun c (k' : Clutch) => Turns c s (s.b.followUpd t j fun _ => { f with cl := k' })
    let ready := Fld.GR_FOLLOW_MODE s.b.cfg t j ≠ 2 ∨ f.cam.active ≠ none
    (ready → k.st = .disengaged → k.req = none → to_ (.clutchEngage t j) { k with req := some (now, true) }) ∧
    (ready → k.st = .disengaged → k.req ≠ none → to_ (.clutchEngage t j) k) ∧
    (ready → (k.st = .disengaging ∨ k.st = .armedOff) → to_ (.clutchEngage t j) { k with pending := true }) ∧
    (ready → (k.st = .engaged ∨ k.st = .engaging ∨ k.st = .armed) → to_ (.clutchEngage t j) { k with refused := true }) ∧
    (¬ready → to_ (.clutchEngage t j) { k with refused := true }) ∧
    (k.st = .disengaged → to_ (.clutchDisengage t j) { k with req := none }) ∧
    ((k.st = .disengaging ∨ k.st = .armedOff) → to_ (.clutchDisengage t j) { k with pending := false }) ∧
    ((k.st = .engaged ∨ k.st = .engaging ∨ k.st = .armed) → to_ (.clutchDisengage t j) { k with req := some (now, false) }) ∧
    (k.st = .disengaged → axDisabled s.b t j = true → to_ (.clutchZero t j) { k with zero := some now }) ∧
    ((k.st ≠ .disengaged ∨ axDisabled s.b t j = false) → to_ (.clutchZero t j) { k with refused := true })

/-- CAM_SEAL, CAM_SEAL_DONE, CAM_UNSEAL, CAM_RESELECT, CAM_FETCH_ARRIVAL on slot `j` with follower record `f`; REMOTE_MASTER_VALUE on unit `x`. The model's choices and readings, not the spec's: that the environment reports the end of a check and the arrival of points (logs 11 and 19), and bank 0 as the shadow while none is active (log 55). -/
def Obligations.Cams : Prop :=
  ∀ (t : Fin 8) (j : Fin 16) (s : State) (f : Follow), tileLive s.b t = true → s.b.followAt t j = f →
    let now := s.clk.lattice
    let k := f.cam
    let to_ := fun c (k' : Cam) => Turns c s (s.b.followUpd t j fun _ => { f with cam := k' })
    let other := match k.active with
      | none => 0
      | some n => 1 - n
    let ok := camValid (bankBytes s.b.mem (camBank s.b t j other)) (Fld.GR_CAM_CFG_BANK_SIZE s.b.cfg t j) (Fld.GR_CAM_MIN_DX_VALUE s.b.cfg t j)
    let tab := camOf s.b t j
    (slotTy s.b t j ≠ .unused → k.shadow = .empty → to_ (.camSeal t j) { k with shadow := .fetching }) ∧
    (slotTy s.b t j ≠ .unused → k.shadow ≠ .empty → to_ (.camSeal t j) k) ∧
    (slotTy s.b t j = .unused → Turns (.camSeal t j) s s.b) ∧
    (k.shadow = .fetching → ok = true → k.active ≠ none → to_ (.camSealDone t j) { k with shadow := .sealed, sealedAt := now }) ∧
    (k.shadow = .fetching → ok = true → k.active = none → to_ (.camSealDone t j) { k with active := some 0, shadow := .empty, sealedAt := now, lo := 0 }) ∧
    (k.shadow = .fetching → ok = false → to_ (.camSealDone t j) { k with shadow := .empty, sealErr := true }) ∧
    (k.shadow ≠ .fetching → Turns (.camSealDone t j) s s.b) ∧
    (k.shadow = .sealed → to_ (.camUnseal t j) { k with shadow := .empty }) ∧
    (k.shadow ≠ .sealed → to_ (.camUnseal t j) k) ∧
    (k.shadow = .sealed → to_ (.camReselect t j) { k with reselect := some now }) ∧
    (k.shadow ≠ .sealed → to_ (.camReselect t j) k) ∧
    (∀ i lo hi, camFind tab.pts 0 k.xPrev = some (i, lo, hi) → Gives (.camFetchArrival t j) s fun u => ∃ w,
      u = { s with b := s.b.followUpd t j fun _ => { f with cam := { k with lo := w } } } ∧ camBuffered { k with lo := w } tab.pts.length i = true) ∧
    (camFind tab.pts 0 k.xPrev = none → Turns (.camFetchArrival t j) s s.b) ∧
    (∀ (x : Fin 8) (m : XMaster), s.b.xmAt t x = m →
      let w := s.b.followAt (Fld.GR_XM_TILE s.b.cfg t x) (Fld.GR_XM_SLOT s.b.cfg t x)
      (Fld.GR_XM_EN s.b.cfg t x = true → m.at_ < w.at_ → Turns (.remoteMasterValue t x) s
        (s.b.xmUpd t x fun _ => { pos := w.pos, vel := w.vel, at_ := w.at_, posP := m.pos, velP := m.vel, atP := m.at_ })) ∧
      (Fld.GR_XM_EN s.b.cfg t x = true → w.at_ ≤ m.at_ → Turns (.remoteMasterValue t x) s (s.b.xmUpd t x fun _ => m)) ∧
      (Fld.GR_XM_EN s.b.cfg t x = false → Turns (.remoteMasterValue t x) s s.b))

/-- CMP_ARM, CMP_DISARM, CMP_CLEAR, COMPARE_PULSE_END on compare `c` with record `k`: with a quadrature channel `q`, a pulse-train axis `p`, or the source value of a slot. -/
def Obligations.Compares : Prop :=
  ∀ (t : Fin 8) (c : Fin 4) (s : State) (k : Cmp), tileLive s.b t = true → s.b.cmpAt t c = k →
    let now := s.clk.lattice
    let to_ := fun i (k' : Cmp) => Turns i s (s.b.cmpUpd t c fun _ => k')
    let src := Fld.GR_CMP_CFG_SRC s.b.cfg t c
    let j := Fld.GR_CMP_CFG_SLOT s.b.cfg t c
    let q := s.b.qdAt t (src - 0x30)
    let p := s.b.pulseAt t (j - 4)
    let chan := 0x30 ≤ src
    let pulse := ¬chan ∧ slotTy s.b t j = .pulse
    let place := fun (h : Int) => (wrap64 (h * 65536) + q.posOfs).toInt
    let pos := (dwOf (Fld.GR_CMP_POS_HI_VALUE s.b.cfg t c) (Fld.GR_CMP_POS_LO_VALUE s.b.cfg t c)).toInt
    let pitch := (dwOf (Fld.GR_CMP_PITCH_HI_VALUE s.b.cfg t c) (Fld.GR_CMP_PITCH_LO_VALUE s.b.cfg t c)).toInt
    let behind := fun (x : Int) => if Fld.GR_CMP_CFG_DIR s.b.cfg t c = 2 then decide (x ≤ pos) else if Fld.GR_CMP_CFG_DIR s.b.cfg t c = 3 then decide (x = pos) else decide (pos ≤ x)
    let armed := fun (x : Int) => { k with armed := true, behind := behind x, c := pos, pitch := pitch, count := Fld.GR_CMP_COUNT_COUNT s.b.cfg t c, fires := 0, last := x, passed := if behind x = true ∧ Fld.GR_CMP_CFG_FIRE_IF_PASSED s.b.cfg t c = true then some now else none }
    -- a count or pulse at timestamp `ts` that leads to `y`, after the compare was armed at `x`
    let sees := fun (x y : Int) (ts : Nat) => Gives (.cmpArm t c) s fun u =>
      let r := cmpSee (cmpDirOf s.b t c) y ts (armed x)
      u.b.cmpAt t c = (if r.2 = true then { r.1 with act := some (now + 10) } else r.1) ∧
      u.b = { s.b with cmp := u.b.cmp, aq := u.b.aq, nt := { s.b.nt with fly := u.b.nt.fly } } ∧
      (∀ (t' : Fin 8) (c' : Fin 4), ¬(t' = t ∧ c' = c) → u.b.cmpAt t' c' = s.b.cmpAt t' c')
    (Fld.GR_CMP_CFG_EN s.b.cfg t c = true →
      (chan → q.lastReg ≠ now → to_ (.cmpArm t c) (armed (place q.h))) ∧
      (∀ r l, chan → q.lastReg = now → q.recent = r :: l → sees (place q.hPre) (place q.h) r.ts) ∧
      (chan → q.lastReg = now → q.recent = [] → to_ (.cmpArm t c) (armed (place q.hPre))) ∧
      (pulse → (∀ e ∈ p.recent, e.1 < now) → (∀ e l, p.recent = e :: l → e.2.2 = p.x) → 0 < now → to_ (.cmpArm t c) (armed (p.x.toInt * 65536))) ∧
      (∀ e l, pulse → p.recent = e :: l → e.1 = now → 0 < now → (∀ e' ∈ l, e'.1 < now) → (∀ e' l', l = e' :: l' → e'.2.2 = e.2.1) → sees (e.2.1.toInt * 65536) (p.x.toInt * 65536) now) ∧
      (¬chan → ¬pulse → to_ (.cmpArm t c) (armed (s.b.followAt t j).pos.toInt))) ∧
    (Fld.GR_CMP_CFG_EN s.b.cfg t c = false → Turns (.cmpArm t c) s s.b) ∧
    to_ (.cmpDisarm t c) { k with armed := false, passed := none } ∧
    to_ (.cmpClear t c) { k with land := false, pulseEnd := none } ∧
    (∀ e, k.pulseEnd = some e → e ≤ now → to_ (.comparePulseEnd t c) { k with land := false, pulseEnd := none }) ∧
    (∀ e, k.pulseEnd = some e → now < e → to_ (.comparePulseEnd t c) k) ∧
    (k.pulseEnd = none → to_ (.comparePulseEnd t c) k)

/-- NX_ENABLE, NX_DISABLE, NX_ENABLE_TIMEOUT, NX_DISABLE_TIMEOUT, NX_FEEDBACK_RECEIVED, NX_SETPOINT_AT_HUB on slot 8 + `i` with record `n`. The model's choices and readings, not the spec's: the conditions that bar an enable (log 17) and the start without feedback (log 40). -/
def Obligations.NetworkedAxes : Prop :=
  ∀ (t i : Fin 8) (s : State) (n : Nx), tileLive s.b t = true → s.b.nxAt t i = n →
    let now := s.clk.lattice
    let j := 8 + i.val
    let k := 8 * t.val + i.val
    let to_ := fun c (n' : Nx) => Turns c s (s.b.nxUpd t i fun _ => n')
    let ready := slotTy s.b t j = .networked ∧ enableBarred s.b t j = false ∧ n.pReady = true ∧ (s.b.blnxAt k).lost = false ∧
      Fld.BL_NX_BIND_BIND_DN s.b.cfg k ≠ 0xFF
    (n.st = .disabled → ready → to_ (.nxEnable t i) { n with st := .enabling, since := now }) ∧
    (n.st = .disabled → ¬ready → to_ (.nxEnable t i) { n with enRefused := true }) ∧
    ((n.st = .enabling ∨ n.st = .enabled) → Turns (.nxEnable t i) s s.b) ∧
    (n.st = .disabling → safetyStops s.b t j = false → to_ (.nxEnable t i) { n with enPending := true }) ∧
    (n.st = .disabling → safetyStops s.b t j = true → to_ (.nxEnable t i) { n with enRefused := true }) ∧
    (n.st = .faultStop → to_ (.nxEnable t i) { n with enRefused := true }) ∧
    ((n.st = .disabled ∨ n.st = .faultStop) → Turns (.nxDisable t i) s s.b) ∧
    (n.st = .disabling → to_ (.nxDisable t i) { n with enPending := false }) ∧
    ((n.st = .enabling ∨ n.st = .enabled) → stopRuns s.b t j = true → Turns (.nxDisable t i) s s.b) ∧
    ((n.st = .enabling ∨ n.st = .enabled) → stopRuns s.b t j = false → Gives (.nxDisable t i) s fun u => OnlyFaults s.b u.b ∧
      u.b.nx = (s.b.nxUpd t i fun _ => { n with st := .disabling, since := now }).nx ∧ u.b.sf = (s.b.sfAxUpd (16 * t + j) fun a => { a with relReq := false }).sf ∧
      u.b.gen = (s.b.genUpd t j fun g => { g with req := { g.req with down := some (g.req.down.getD now) }, hm := homeEnd .fault g.hm }).gen ∧
      u.b.follow = (s.b.followUpd t j fun f => { f with cl := { f.cl with down := some (f.cl.down.getD now), pending := false } }).follow ∧ u.b.pulse = s.b.pulse ∧ u.b.nat = s.b.nat) ∧
    (n.st = .enabling → n.since + Fld.GR_NX_CFG_EN_TO s.b.cfg t i * 1000000 ≤ now → to_ (.nxEnableTimeout t i) { n with st := .disabled, enTimeout := true }) ∧
    ((n.st ≠ .enabling ∨ now < n.since + Fld.GR_NX_CFG_EN_TO s.b.cfg t i * 1000000) → Turns (.nxEnableTimeout t i) s s.b) ∧
    ((n.st = .disabling ∨ n.st = .faultStop) → n.since + Fld.GR_NX_CFG_OFF_TO s.b.cfg t i * 1000000 ≤ now →
      let off := { n with st := .disabled, offTimeout := true, enPending := false }
      Gives (.nxDisableTimeout t i) s fun u => OnlyTiles s.b u.b ∧
        ((n.enPending = false ∨ n.st = .faultStop) → u.b.nx = (s.b.nxUpd t i fun _ => off).nx) ∧
        (n.enPending = true → n.st = .disabling → u.b.nxAt t i = { off with st := .enabling, since := now } ∨ u.b.nxAt t i = { off with enRefused := true })) ∧
    (((n.st ≠ .disabling ∧ n.st ≠ .faultStop) ∨ now < n.since + Fld.GR_NX_CFG_OFF_TO s.b.cfg t i * 1000000) → Turns (.nxDisableTimeout t i) s s.b) ∧
    (∀ f r, (s.b.blnxAt k).relay = f :: r → spineServes s.b (pktFb s.b k f.at_) = true → Gives (.nxFeedbackReceived t i) s fun u =>
      u.b.nx = (s.b.nxUpd t i fun _ => { n with fb := { pos := f.pos, vel := f.vel, t := f.tf, ready := bit f.status 0, enabled := bit f.status 1, fault := bit f.status 2 } }).nx ∧
      u.b.blnx = (s.b.blnxUpd k fun x => { x with relay := r }).blnx ∧ u.b = { s.b with nx := u.b.nx, blnx := u.b.blnx, turns := u.b.turns }) ∧
    (∀ f r, (s.b.blnxAt k).relay = f :: r → spineServes s.b (pktFb s.b k f.at_) = false → Turns (.nxFeedbackReceived t i) s s.b) ∧
    ((s.b.blnxAt k).relay = [] → Turns (.nxFeedbackReceived t i) s s.b) ∧
    (∀ f l, (s.b.blnxAt k).fly = f :: l → spineServes s.b (pktNx k f.1) = true → Gives (.nxSetpointAtHub t i) s fun u =>
      u.b.blnx = (s.b.blnxUpd k fun x => { x with fly := l, newer := x.newer ++ [(now, f.2)] }).blnx ∧ u.b = { s.b with blnx := u.b.blnx, turns := u.b.turns }) ∧
    (∀ f l, (s.b.blnxAt k).fly = f :: l → spineServes s.b (pktNx k f.1) = false → Turns (.nxSetpointAtHub t i) s s.b) ∧
    ((s.b.blnxAt k).fly = [] → Turns (.nxSetpointAtHub t i) s s.b)

/-- NOP, LDI, MOV, ADD, SUB, ASH, AND, OR, XOR, CMP, ABS, MUL, MAC, MSU, ACCR, ACLR, BSCALE, MBOUT, MBPOST, EVCLR, SETIE with the word `w` at the program counter of sequencer `x`. The model's choices and readings, not the spec's: that a row executes the word at PC if the opcode is its own (log 24). -/
def Obligations.SequencerData : Prop :=
  ∀ (t : Fin 8) (s : State) (x : Seq) (w : Nat), tileLive s.b t = true → s.b.seqAt t = x →
    let runs := fun c op n (y : Seq) => AtWord s.b t op w → Turns c s (s.b.seqUpd t fun _ => sqAdvance n y)
    let d := sqFld w 22
    let ds := x.r.d.get (sqFld w 18)
    let dt := x.r.d.get (sqFld w 14)
    let k : Int := signed 6 (bits w 8 6)
    let put := fun (v : Word) => { x with r := { x.r with d := x.r.d.set d v, z := decide (v = 0), n := decide (v.toInt < 0) } }
    let res := fun (v : Int) =>
      if v < -2 ^ 31 then { put 0x80000000 with r := { (put 0x80000000).r with v := true }, sat := true }
      else if 2 ^ 31 ≤ v then { put 0x7FFFFFFF with r := { (put 0x7FFFFFFF).r with v := true }, sat := true }
      else put (BitVec.ofInt 32 v)
    let acc := fun (i : Fin 4) (v : Int) =>
      if v < -2 ^ 79 then { x with r := { x.r with acc := x.r.acc.set i (BitVec.ofInt 80 (-2 ^ 79)), v := true }, sat := true }
      else if 2 ^ 79 ≤ v then { x with r := { x.r with acc := x.r.acc.set i (BitVec.ofInt 80 (2 ^ 79 - 1)), v := true }, sat := true }
      else { x with r := { x.r with acc := x.r.acc.set i (BitVec.ofInt 80 v) } }
    let illegal := fun c op => AtWord s.b t op w → Gives c s fun u =>
      u.b.seqAt t = { x with st := .fault, cause := some .illegal, faultPc := x.r.pc, rep := 0, repRan := false, haltReq := false } ∧
      OnlyLog (s.b.seqUpd t fun _ => u.b.seqAt t) u.b
    let mask := if bit w 21 then (x.r.d.get d).toNat % 65536 else bits w 0 16
    (bits w 0 8 = 0 →
      runs (.mov t) 0x05 1 (put ds) ∧ runs (.add t) 0x08 1 (res (ds.toInt + dt.toInt)) ∧ runs (.sub t) 0x09 1 (res (ds.toInt - dt.toInt)) ∧
      (0 ≤ k → runs (.ash t) 0x0A 1 (res (ds.toInt * 2 ^ k.toNat))) ∧
      (-31 ≤ k → k < 0 → runs (.ash t) 0x0A 1 (res (ds.toInt / 2 ^ (-k).toNat))) ∧
      runs (.and t) 0x0B 1 (put (ds &&& dt)) ∧ runs (.or t) 0x0C 1 (put (ds ||| dt)) ∧ runs (.xor t) 0x0D 1 (put (ds ^^^ dt)) ∧
      runs (.cmp t) 0x0E 1 { x with r := { x.r with z := decide (ds.toInt = dt.toInt), n := decide (ds.toInt < dt.toInt) } } ∧
      runs (.abs t) 0x0F 1 (res ds.toInt.natAbs) ∧
      (∀ i : Fin 4, i.val = d.val → runs (.mul t) 0x10 1 (acc i (ds.toInt * dt.toInt)) ∧
        runs (.mac t) 0x11 1 (acc i ((x.r.acc.get i).toInt + ds.toInt * dt.toInt)) ∧ runs (.msu t) 0x12 1 (acc i ((x.r.acc.get i).toInt - ds.toInt * dt.toInt))) ∧
      (∀ i : Fin 4, i.val = (sqFld w 18).val → -16 ≤ k → k ≤ 15 → runs (.accr t) 0x14 1 (res ((x.r.acc.get i).toInt / 2 ^ (31 - k).toNat))) ∧
      runs (.mbout t) 0x21 1 { x with mb := { x.mb with pendW := x.mb.pendW.set d ds } }) ∧
    (bits w 16 5 = 0 →
      runs (.nop t) 0x00 1 x ∧
      runs (.ldi t) 0x04 2 { x with r := { x.r with d := x.r.d.set d (sqRead x ((x.r.pc.toNat + 1) % 65536)) } } ∧
      (AtWord s.b t 0x15 w → Gives (.aclr t) s fun u =>
        (∀ i : Fin 4, ((u.b.seqAt t).r.acc.get i) = if bit mask i then 0 else x.r.acc.get i) ∧ (u.b.seqAt t).r.d = x.r.d ∧ (u.b.seqAt t).mem = x.mem ∧
        u.b = { s.b with seq := u.b.seq }) ∧
      runs (.bscale t) 0x19 1 { x with r := { x.r with bsh := BitVec.ofNat 2 (2 - x.r.bdet.toNat), bexp := x.r.bexp + BitVec.ofNat 16 (2 - x.r.bdet.toNat), bdet := 31 } } ∧
      runs (.evclr t) 0x2F 1 { x with ev := x.ev.filter fun e => !bit mask e.1 } ∧
      runs (.setie t) 0x30 1 { x with r := { x.r with ie := bit w 0 } } ∧
      (AtWord s.b t 0x22 w → Gives (.mbpost t) s fun u =>
        (∀ i : Fin 16, (u.b.seqAt t).mb.outW.get i = if bit mask i then x.mb.pendW.get i else x.mb.outW.get i) ∧
        (∀ i : Fin 16, (u.b.seqAt t).mb.stale.getLsbD i = (x.mb.stale.getLsbD i && !bit mask i)) ∧ (u.b.seqAt t).mb.pendW = x.mb.pendW ∧
        u.b = { s.b with seq := u.b.seq, aq := u.b.aq })) ∧
    (bits w 0 8 ≠ 0 → ∀ p ∈ [((.mov t : Instr), 0x05), (.add t, 0x08), (.sub t, 0x09), (.ash t, 0x0A), (.and t, 0x0B), (.or t, 0x0C), (.xor t, 0x0D), (.cmp t, 0x0E), (.abs t, 0x0F),
      (.mul t, 0x10), (.mac t, 0x11), (.msu t, 0x12), (.accr t, 0x14), (.mbout t, 0x21)], illegal p.1 p.2) ∧
    (bits w 16 5 ≠ 0 → ∀ p ∈ [((.nop t : Instr), 0x00), (.ldi t, 0x04), (.aclr t, 0x15), (.bscale t, 0x19), (.mbpost t, 0x22), (.evclr t, 0x2F), (.setie t, 0x30)], illegal p.1 p.2) ∧
    (bits w 0 8 = 0 → k < -31 → illegal (.ash t) 0x0A) ∧
    (bits w 0 8 = 0 → 4 ≤ d.val → illegal (.mul t) 0x10 ∧ illegal (.mac t) 0x11 ∧ illegal (.msu t) 0x12) ∧
    (bits w 0 8 = 0 → (4 ≤ (sqFld w 18).val ∨ k < -16 ∨ 15 < k) → illegal (.accr t) 0x14)

/-- LD, ST, MVM, MOVA, AADD, VMAC, BFLY, SRCH, MBSNAP, XFER with the word `w` at the program counter of sequencer `x`. The model's choices and readings, not the spec's: that a row executes the word at PC if the opcode is its own (log 24). -/
def Obligations.SequencerMemory : Prop :=
  ∀ (t : Fin 8) (s : State) (x : Seq) (w : Nat), tileLive s.b t = true → s.b.seqAt t = x →
    let now := s.clk.lattice
    let code := Fld.SQ_CFG_CODE_LEN s.b.cfg t
    let runs := fun c op P => AtWord s.b t op w → Gives c s fun u => ∃ y : Seq, u.b = (s.b.seqUpd t fun _ => sqAdvance 1 y) ∧ P y
    let faults := fun c op e => AtWord s.b t op w → Gives c s fun u =>
      u.b.seqAt t = { x with st := .fault, cause := some e, faultPc := x.r.pc, rep := 0, repRan := false, haltReq := false } ∧
      OnlyLog (s.b.seqUpd t fun _ => u.b.seqAt t) u.b
    let ea := fun (i : Fin 16) k => sqEa x.r i k
    let stored := fun (y : Seq) (i : Fin 16) (n : Nat) (v : Nat → Word) =>
      (∀ k < n, (∀ l, k < l → l < n → ea i l ≠ ea i k) → sqRead y (ea i k) = v k) ∧ ∀ a, (∀ k < n, ea i k ≠ a) → sqRead y a = sqRead x a
    let det := fun (bd : Bool) (vs : List Word) (y : Seq) => if bd then
        ∀ h ≤ 31, (h ≤ y.r.bdet.toNat ↔ h ≤ x.r.bdet.toNat ∧ ∀ v ∈ vs, -(2 : Int) ^ (31 - h) ≤ v.toInt ∧ v.toInt < (2 : Int) ^ (31 - h))
      else y.r.bdet = x.r.bdet
    let n := if bits w 10 2 = 0 then 1 else if bits w 10 2 = 1 then 2 else 4
    let mOk := bits w 0 9 = 0 ∧ bits w 12 2 ≠ 3 ∧ bits w 10 2 ≠ 3
    let d := sqFld w 22
    let a := sqFld w 18
    (∀ p ∈ [((.ld t : Instr), 0x01), (.st t, 0x02), (.aadd t, 0x07), (.srch t, 0x1A), (.mbsnap t, 0x20), (.xfer t, 0x31)], ¬mOk → faults p.1 p.2 .illegal) ∧
    (∀ r, mOk → sqPost x.r a (sqFld w 14) (bits w 12 2) = .ok r →
      (d.val + n ≤ 16 → runs (.ld t) 0x01 fun y =>
        (∀ i : Fin 16, y.r.d.get i = if d.val ≤ i.val ∧ i.val < d.val + n then sqRead x (ea a (i.val - d.val)) else x.r.d.get i) ∧
        det (bit w 9) ((List.range n).map fun k => sqRead x (ea a k)) y ∧ y = { x with r := { r with d := y.r.d, bdet := y.r.bdet } }) ∧
      (d.val + n ≤ 16 → (∀ k < n, code ≤ ea a k) → runs (.st t) 0x02 fun y =>
        stored y a n (fun k => x.r.d.get (d + Fin.ofNat 16 k)) ∧ det (bit w 9) ((List.range n).map fun k => x.r.d.get (d + Fin.ofNat 16 k)) y ∧
        y = { x with r := { r with bdet := y.r.bdet }, mem := y.mem }) ∧
      (d.val + n ≤ 16 → (∃ k < n, ea a k < code) → faults (.st t) 0x02 .codeWrite) ∧
      (16 < d.val + n → faults (.ld t) 0x01 .illegal ∧ faults (.st t) 0x02 .illegal) ∧
      runs (.aadd t) 0x07 (fun y => y = { x with r := r }) ∧
      (let v := sqRead x (ea a 0)
       let abs : Word := if v.toInt = -2 ^ 31 then 0x7FFFFFFF else BitVec.ofInt 32 v.toInt.natAbs
       let init := bit w 24 = true ∧ x.repRan = false
       let takes := fun (m : Word) (y : Seq) => y = { x with r := { r with mx := m, mxi := BitVec.ofNat 16 (ea a 0) } }
       let keeps := fun (y : Seq) => y = { x with r := r }
       (bits w 22 2 = 0 → (x.r.mx.toInt < v.toInt ∨ init) → runs (.srch t) 0x1A (takes v)) ∧
       (bits w 22 2 = 1 → (v.toInt < x.r.mx.toInt ∨ init) → runs (.srch t) 0x1A (takes v)) ∧
       (bits w 22 2 = 2 → (x.r.mx.toInt < abs.toInt ∨ init) → runs (.srch t) 0x1A (takes abs)) ∧
       (bits w 22 2 = 0 → v.toInt ≤ x.r.mx.toInt → ¬init → runs (.srch t) 0x1A keeps) ∧
       (bits w 22 2 = 1 → x.r.mx.toInt ≤ v.toInt → ¬init → runs (.srch t) 0x1A keeps) ∧
       (bits w 22 2 = 2 → abs.toInt ≤ x.r.mx.toInt → ¬init → runs (.srch t) 0x1A keeps) ∧
       (bits w 22 2 = 3 → faults (.srch t) 0x1A .illegal)) ∧
      ((∀ k < 16, code ≤ ea a k) → runs (.mbsnap t) 0x20 fun y => stored y a 16 (fun k => x.mb.inW.get (Fin.ofNat 16 k)) ∧ det (bit w 9) x.mb.inW.toList y ∧
        y = { x with r := { r with bdet := y.r.bdet }, mem := y.mem }) ∧
      ((∃ k < 16, ea a k < code) → faults (.mbsnap t) 0x20 .codeWrite) ∧
      (let c : Fin 4 := Fin.ofNat 4 (bits w 22 2)
       let q := { sqDesc (sqLoad x a 4) with at_ := now }
       let fails := fun (f : Xfer) (y : Seq) => y = sqEvent (8 + c.val) now { x with r := r, ch := x.ch.set c f }
       ((x.ch.get c).busy = false → xferErr s.b t q = 0 → runs (.xfer t) 0x31 fun y => y = { x with r := r, ch := x.ch.set c q }) ∧
       ((x.ch.get c).busy = false → xferErr s.b t q ≠ 0 → runs (.xfer t) 0x31 (fails { x.ch.get c with err := xferErr s.b t q })) ∧
       ((x.ch.get c).busy = true → runs (.xfer t) 0x31 (fails { x.ch.get c with err := 1 })))) ∧
    (bits w 0 3 = 0 → bits w 4 2 ≠ 3 → bits w 6 2 ≠ 3 → bits w 16 2 ≠ 3 →
      let m := if bits w 4 2 = 0 then 1 else if bits w 4 2 = 1 then 2 else 4
      ((∀ k < m, code ≤ ea d k) → ∀ r q, sqPost x.r (sqFld w 12) (sqFld w 8) (bits w 6 2) = .ok r → sqPost r d a (bits w 16 2) = .ok q →
        runs (.mvm t) 0x03 fun y => stored y d m (fun k => sqRead x (ea (sqFld w 12) k)) ∧ det (bit w 3) ((List.range m).map fun k => sqRead x (ea (sqFld w 12) k)) y ∧
          y = { x with r := { q with bdet := y.r.bdet }, mem := y.mem }) ∧
      ((∃ k < m, ea d k < code) → faults (.mvm t) 0x03 .codeWrite)) ∧
    ((bits w 0 3 ≠ 0 ∨ bits w 4 2 = 3 ∨ bits w 6 2 = 3 ∨ bits w 16 2 = 3) → faults (.mvm t) 0x03 .illegal) ∧
    (bits w 0 8 ≠ 0 → faults (.mova t) 0x06 .illegal) ∧
    (bits w 0 8 = 0 →
      let i8 := fun (i : Fin 16) => Fin.ofNat 8 i.val
      let from_ := fun (v : Word) => (bits w 8 3 = 0 ∧ v = x.r.d.get a) ∨ (bits w 8 3 = 1 ∧ v = (x.r.a.get a).setWidth 32) ∨ (bits w 8 3 = 2 ∧ v = (x.r.o.get a).signExtend 32) ∨
        (bits w 8 3 = 3 ∧ a.val < 8 ∧ v = (x.r.rb.get (i8 a)).setWidth 32) ∨ (bits w 8 3 = 4 ∧ a.val < 8 ∧ v = (x.r.rl.get (i8 a)).setWidth 32) ∨
        (bits w 8 3 = 5 ∧ ((a.val = 0 ∧ v = x.r.bexp.signExtend 32) ∨ (a.val = 1 ∧ v = x.r.bdet.setWidth 32) ∨ (a.val = 2 ∧ v = x.r.bsh.setWidth 32) ∨ (a.val = 3 ∧ v = x.r.mx) ∨
          (a.val = 4 ∧ v = x.r.mxi.setWidth 32) ∨ (a.val = 6 ∧ v = x.r.even.setWidth 32) ∨ (a.val = 7 ∧ v = x.dbell)))
      let lo := fun (v : Word) => v.setWidth 16
      ∀ v, from_ v →
        (bits w 11 3 = 0 → runs (.mova t) 0x06 fun y => y = { x with r := { x.r with d := x.r.d.set d v, z := decide (v = 0), n := decide (v.toInt < 0) } }) ∧
        (bits w 11 3 = 1 → runs (.mova t) 0x06 fun y => y = { x with r := { x.r with a := x.r.a.set d (lo v) } }) ∧
        (bits w 11 3 = 2 → runs (.mova t) 0x06 fun y => y = { x with r := { x.r with o := x.r.o.set d (lo v) } }) ∧
        (bits w 11 3 = 3 → d.val < 8 → runs (.mova t) 0x06 fun y => y = { x with r := { x.r with rb := x.r.rb.set (i8 d) (lo v) } }) ∧
        (bits w 11 3 = 4 → d.val < 8 → runs (.mova t) 0x06 fun y => y = { x with r := { x.r with rl := x.r.rl.set (i8 d) (lo v) } }) ∧
        (bits w 11 3 = 5 → d.val = 0 → runs (.mova t) 0x06 fun y => y = { x with r := { x.r with bexp := lo v } }) ∧
        (bits w 11 3 = 5 → d.val = 1 → runs (.mova t) 0x06 fun y => y = { x with r := { x.r with bdet := v.setWidth 5 } }) ∧
        (bits w 11 3 = 5 → d.val = 2 → bits v.toNat 0 2 ≠ 3 → runs (.mova t) 0x06 fun y => y = { x with r := { x.r with bsh := v.setWidth 2 } }) ∧
        (bits w 11 3 = 5 → d.val = 3 → runs (.mova t) 0x06 fun y => y = { x with r := { x.r with mx := v } }) ∧
        (bits w 11 3 = 5 → d.val = 6 → runs (.mova t) 0x06 fun y => y = { x with r := { x.r with even := lo v } }) ∧
        ((6 ≤ bits w 11 3 ∨ (3 ≤ bits w 11 3 ∧ bits w 11 3 ≤ 4 ∧ 8 ≤ d.val) ∨ (bits w 11 3 = 5 ∧ (d.val = 4 ∨ d.val = 7 ∨ 10 ≤ d.val ∨ (d.val = 2 ∧ bits v.toNat 0 2 = 3)))) →
          faults (.mova t) 0x06 .illegal)) ∧
    (bits w 0 1 ≠ 0 → faults (.vmac t) 0x13 .illegal ∧ faults (.bfly t) 0x18 .illegal) ∧
    (bits w 0 1 = 0 →
      let xs := fun k => (sqRead x (ea d k)).toInt
      let ys := fun k => (sqRead x (ea a k)).toInt
      let sat80 := fun (v : Int) => max (-2 ^ 79) (min (2 ^ 79 - 1) v)
      let posts := fun (y : Seq) => ∀ r q, sqPost x.r d (sqFld w 10) 1 = .ok r → sqPost r a (sqFld w 6) 1 = .ok q →
        y = { x with r := { x.r with acc := y.r.acc, v := y.r.v, a := q.a }, sat := y.sat }
      let adds := fun (f : Fin 4 → Int) (y : Seq) => (∀ i, (y.r.acc.get i).toInt = sat80 ((x.r.acc.get i).toInt + f i)) ∧
        (y.r.v = true ↔ x.r.v = true ∨ ∃ i, sat80 ((x.r.acc.get i).toInt + f i) ≠ (x.r.acc.get i).toInt + f i) ∧ posts y
      (bits w 14 4 = 0 → runs (.vmac t) 0x13 (adds fun i => xs i * ys i)) ∧
      (bits w 14 4 = 1 → runs (.vmac t) 0x13 (adds fun i => xs i * ys 0)) ∧
      (bits w 14 4 = 2 → runs (.vmac t) 0x13 (adds fun i => if i = 0 then xs 0 * ys 0 + xs 1 * ys 1 + xs 2 * ys 2 + xs 3 * ys 3 else 0)) ∧
      (bits w 14 4 ≠ 0 → bits w 14 4 ≠ 1 → bits w 14 4 ≠ 2 → faults (.vmac t) 0x13 .illegal)) ∧
    (bits w 0 1 = 0 →
      let p := fun k => (sqRead x (ea d k)).toInt
      let q := fun k => (sqRead x (ea a k)).toInt
      let v := fun k => (sqRead x (ea (sqFld w 14) k)).toInt
      let out := fun (z : Int) => BitVec.ofInt 32 (max (-2 ^ 31) (min (2 ^ 31 - 1) (z / 2 ^ (31 + x.r.bsh.toNat))))
      let pr := q 0 * v 0 - q 1 * v 1
      let pi := q 0 * v 1 + q 1 * v 0
      (code ≤ ea d 0 → code ≤ ea d 1 → code ≤ ea a 0 → code ≤ ea a 1 → ea d 0 ≠ ea d 1 → ea a 0 ≠ ea a 1 → (∀ i j, i < 2 → j < 2 → ea d i ≠ ea a j) →
        runs (.bfly t) 0x18 fun y =>
          sqRead y (ea d 0) = out (p 0 * 2 ^ 31 + pr) ∧ sqRead y (ea d 1) = out (p 1 * 2 ^ 31 + pi) ∧
          sqRead y (ea a 0) = out (p 0 * 2 ^ 31 - pr) ∧ sqRead y (ea a 1) = out (p 1 * 2 ^ 31 - pi) ∧
          (∀ b, b ≠ ea d 0 → b ≠ ea d 1 → b ≠ ea a 0 → b ≠ ea a 1 → sqRead y b = sqRead x b) ∧
          det (bit w 1) [out (p 0 * 2 ^ 31 + pr), out (p 1 * 2 ^ 31 + pi), out (p 0 * 2 ^ 31 - pr), out (p 1 * 2 ^ 31 - pi)] y ∧
          ∀ r1 r2 r3, sqPost x.r d (sqFld w 10) 1 = .ok r1 → sqPost r1 a (sqFld w 6) 1 = .ok r2 → sqPost r2 (sqFld w 14) (sqFld w 2) 1 = .ok r3 →
            y = { x with r := { r3 with bdet := y.r.bdet }, mem := y.mem }) ∧
      ((ea d 0 < code ∨ ea d 1 < code ∨ ea a 0 < code ∨ ea a 1 < code) → faults (.bfly t) 0x18 .codeWrite))

/-- BR, DBNZ, CALL, RET, RETI, REP, WAIT, HALT, ILLEGAL_INSTRUCTION, FETCH_FAULT with the word `w` at the program counter of sequencer `x`. The model's choices and readings, not the spec's: that a row executes the word at PC if the opcode is its own, and the FAULT_PC of HALT (log 24). -/
def Obligations.SequencerFlow : Prop :=
  ∀ (t : Fin 8) (s : State) (x : Seq) (w : Nat), tileLive s.b t = true → s.b.seqAt t = x →
    let bound := fun (y : Seq) => if y.haltReq = true ∧ y.rep = 0 ∧ y.st = .running then { y with st := .halted, haltReq := false, faultPc := y.r.pc } else y
    let runs := fun c op (y : Seq) => AtWord s.b t op w → Turns c s (s.b.seqUpd t fun _ => bound y)
    let faulty := fun e => { x with st := .fault, cause := some e, faultPc := x.r.pc, rep := 0, repRan := false, haltReq := false }
    let fault := fun c e => Gives c s fun u => u.b.seqAt t = faulty e ∧ OnlyLog (s.b.seqUpd t fun _ => u.b.seqAt t) u.b
    let faults := fun c op e => AtWord s.b t op w → fault c e
    let goes := fun (y : Seq) (pc : BitVec 16) => { y with r := { y.r with pc := pc } }
    let target := BitVec.ofNat 16 (bits w 0 16)
    let d := sqFld w 22
    let count := if bit w 21 then (x.r.d.get d).toNat % 65536 else bits w 0 16
    let cond := bits w 22 4
    let holds := cond = 0 ∨ (cond = 1 ∧ x.r.z = true) ∨ (cond = 2 ∧ x.r.z = false) ∨ (cond = 3 ∧ x.r.n = true) ∨ (cond = 4 ∧ x.r.n = false) ∨
      (cond = 5 ∧ x.r.n = false ∧ x.r.z = false) ∨ (cond = 6 ∧ (x.r.n = true ∨ x.r.z = true)) ∨ (cond = 7 ∧ x.r.v = true)
    let dec := { x with r := { x.r with d := x.r.d.set d (x.r.d.get d - 1) } }
    (bits w 16 6 = 0 →
      (holds → runs (.br t) 0x28 (goes x target)) ∧ (cond < 8 → ¬holds → runs (.br t) 0x28 (goes x (x.r.pc + 1))) ∧ (8 ≤ cond → faults (.br t) 0x28 .illegal) ∧
      (x.r.d.get d ≠ 1 → runs (.dbnz t) 0x29 (goes dec target)) ∧ (x.r.d.get d = 1 → runs (.dbnz t) 0x29 (goes dec (x.r.pc + 1))) ∧
      (x.r.stack.length < 8 → runs (.call t) 0x2A { x with r := { x.r with stack := (x.r.pc + 1) :: x.r.stack, pc := target } }) ∧
      (8 ≤ x.r.stack.length → faults (.call t) 0x2A .stack)) ∧
    (bits w 16 6 ≠ 0 → faults (.br t) 0x28 .illegal ∧ faults (.dbnz t) 0x29 .illegal ∧ faults (.call t) 0x2A .illegal) ∧
    (bits w 16 5 ≠ 0 → ∀ p ∈ [((.ret t : Instr), 0x2B), (.reti t, 0x2C), (.rep t, 0x2D), (.wait t, 0x2E), (.halt t, 0x3F)], faults p.1 p.2 .illegal) ∧
    (bits w 16 5 = 0 →
      (∀ p r, x.r.stack = p :: r → runs (.ret t) 0x2B { x with r := { x.r with stack := r, pc := p } }) ∧ (x.r.stack = [] → faults (.ret t) 0x2B .stack) ∧
      (x.depth ≠ 0 → runs (.reti t) 0x2C { x with depth := x.depth - 1, r := { x.r with ie := true, pc := x.r.epc } }) ∧
      (x.depth = 0 → faults (.reti t) 0x2C .illegal) ∧
      (let op := bits (sqRead x ((x.r.pc.toNat + 1) % 65536)).toNat 26 6
       let repeatable := (op ≤ 0x15 ∧ op ≠ 4) ∨ op = 0x18 ∨ op = 0x1A
       (repeatable → count ≠ 0 → runs (.rep t) 0x2D { x with rep := count, repRan := false, r := { x.r with pc := x.r.pc + 1 } }) ∧
       (repeatable → count = 0 → runs (.rep t) 0x2D (goes x (x.r.pc + 2))) ∧ (¬repeatable → faults (.rep t) 0x2D .repBody)) ∧
      ((∃ e ∈ x.ev, bit count e.1 = true ∧ e.1 < 16) → runs (.wait t) 0x2E (goes x (x.r.pc + 1))) ∧
      ((∀ e ∈ x.ev, bit count e.1 = false) → runs (.wait t) 0x2E { x with st := .waiting, waitMask := BitVec.ofNat 16 count, r := { x.r with pc := x.r.pc + 1 } }) ∧
      (x.rep ≤ 1 → runs (.halt t) 0x3F { x with st := .halted, faultPc := x.r.pc, haltReq := false, rep := 0, repRan := false, r := { x.r with pc := x.r.pc + 1 } })) ∧
    (let known := fun op => op ≤ 0x15 ∨ op = 0x18 ∨ op = 0x19 ∨ op = 0x1A ∨ (0x20 ≤ op ∧ op ≤ 0x22) ∨ (0x28 ≤ op ∧ op ≤ 0x31) ∨ op = 0x3F
     (∀ op, ¬known op → faults (.illegalInstruction t) op .illegal) ∧ (∀ op, known op → AtWord s.b t op w → Turns (.illegalInstruction t) s (s.b.seqUpd t fun _ => x))) ∧
    (x.st = .running → sqDispatchDue x = false → Fld.SQ_CFG_CODE_LEN s.b.cfg t ≤ x.r.pc.toNat → fault (.fetchFault t) .fetch) ∧
    ((x.st ≠ .running ∨ sqDispatchDue x = true ∨ x.r.pc.toNat < Fld.SQ_CFG_CODE_LEN s.b.cfg t) → Turns (.fetchFault t) s (s.b.seqUpd t fun _ => x))

/-- SQ_DISPATCH, SQ_XFER_DONE, MAILBOX_STALE, SQ_HALT, SQ_RUN, SQ_RESET, SQ_CLR_STATS, SQ_DOORBELL, LOCAL_MEMORY_WRITE on sequencer `x`; what an instruction leaves to the repeat in progress. The model's choices and readings, not the spec's: that the words of a transfer move at SQ_XFER_DONE (log 24), and the statuses of local memory (log 31). -/
def Obligations.SequencerControl : Prop :=
  ∀ (t : Fin 8) (s : State) (x : Seq), tileLive s.b t = true → s.b.seqAt t = x →
    let now := s.clk.lattice
    let to_ := fun c (y : Seq) => Turns c s (s.b.seqUpd t fun _ => y)
    let code := Fld.SQ_CFG_CODE_LEN s.b.cfg t
    let empty := code = 0 ∧ Fld.SQ_CFG_ENTRY s.b.cfg t = 0
    let bound := fun (y : Seq) => if y.haltReq = true ∧ y.rep = 0 ∧ y.st = .running then { y with st := .halted, haltReq := false, faultPc := y.r.pc } else y
    let raise := fun k (y : Seq) =>
      let y' := if (tabFind y.ev k).isSome = true then { y with evtLost := true } else { y with ev := tabInsert y.ev k now }
      if y.st = .waiting ∧ y.waitMask.getLsbD k = true then bound { y' with st := .running } else y'
    (∀ k e, sqDispatchDue x = true → x.ev.find? (fun p => x.r.even.getLsbD p.1) = some (k, e) → to_ (.sqDispatch t)
      (bound { x with st := .running, ev := tabErase x.ev k, depth := x.depth + 1, dispMax := max x.dispMax ((now - e) / 10)
                      r := { x.r with epc := x.r.pc, ie := false, pc := (sqRead x k).setWidth 16 } })) ∧
    (sqDispatchDue x = false → to_ (.sqDispatch t) x) ∧
    (∀ c : Fin 4,
      let q := x.ch.get c
      let serves := spineServes s.b (pktXfer t q) = true
      let done := fun (e : Nat) (m : Tab Word) => raise (8 + c.val) { x with mem := m, ch := x.ch.set c { q with busy := false, err := e } }
      (q.busy = false → Turns (.sqXferDone t c) s s.b) ∧
      (q.busy = true → ¬serves → Turns (.sqXferDone t c) s s.b) ∧
      (∀ p, q.busy = true → serves → q.dir = 1 → s.b.run.parts.find? (fun p => decide (p.id = q.part)) = some p → Gives (.sqXferDone t c) s fun u =>
        u.b.seqAt t = done 0 x.mem ∧ u.b = { s.b with seq := u.b.seq, mem := u.b.mem, badMem := u.b.badMem, turns := u.b.turns } ∧
        ∀ a, let base := p.base * 65536 + q.ofs
          tabGet 0 u.b.mem a = if base ≤ a ∧ a < base + 4 * q.len then BitVec.ofNat 8 ((sqRead x (q.loc + (a - base) / 4)).toNat / 256 ^ ((a - base) % 4)) else tabGet 0 s.b.mem a) ∧
      (∀ (p : Part) (n : Nat), q.busy = true → serves → q.dir = 0 → s.b.run.parts.find? (fun p => decide (p.id = q.part)) = some p →
        n ≤ q.len → (∀ k < n, badIn s.b (p.base * 65536 + q.ofs + 4 * k) 4 = false) → (n < q.len → badIn s.b (p.base * 65536 + q.ofs + 4 * n) 4 = true) → Gives (.sqXferDone t c) s fun u =>
          ∃ m, u.b.seqAt t = done (if n < q.len then 7 else 0) m ∧ u.b = { s.b with seq := u.b.seq, turns := u.b.turns } ∧
          ∀ a, tabGet 0 m a = if q.loc ≤ a ∧ a < q.loc + n then
            BitVec.ofNat 32 (leNat (tabBytes 0 s.b.mem (p.base * 65536 + q.ofs + 4 * (a - q.loc)) 4)) else sqRead x a) ∧
      (q.busy = true → serves → q.dir = 2 → q.tile ≠ t.val → Gives (.sqXferDone t c) s fun u =>
        u.b.seqAt t = done 0 x.mem ∧ u.b = { s.b with seq := u.b.seq, turns := u.b.turns } ∧
        ∃ m, u.b.seqAt q.tile = raise 13 { s.b.seqAt q.tile with mem := m } ∧
          ∀ a, let base := Fld.SQ_INBOX_BASE s.b.cfg q.tile + q.ofs
            tabGet 0 m a = if base ≤ a ∧ a < base + q.len then sqRead x (q.loc + (a - base)) else sqRead (s.b.seqAt q.tile) a)) ∧
    (∀ (m : Fin 16) (p : Nat), tabFind x.mb.posted m = some p → Fld.SQ_MBTO_TO s.b.cfg t m ≠ 0 → p + 1000 * Fld.SQ_MBTO_TO s.b.cfg t m ≤ now → x.mb.stale.getLsbD m = false →
      Gives (.mailboxStale t m) s fun u => u.b.seqAt t = raise 14 { x with mb := { x.mb with stale := x.mb.stale ||| BitVec.ofNat 16 (2 ^ m.val) } } ∧
        OnlyFaults (s.b.seqUpd t fun _ => u.b.seqAt t) u.b) ∧
    (∀ m : Fin 16, (tabFind x.mb.posted m = none ∨ Fld.SQ_MBTO_TO s.b.cfg t m = 0 ∨ x.mb.stale.getLsbD m = true ∨
      ∃ p, tabFind x.mb.posted m = some p ∧ now < p + 1000 * Fld.SQ_MBTO_TO s.b.cfg t m) → Turns (.mailboxStale t m) s s.b) ∧
    (x.st = .running → x.rep = 0 → to_ (.sqHalt t) { x with st := .halted, haltReq := false, faultPc := x.r.pc }) ∧
    (x.st = .running → x.rep ≠ 0 → to_ (.sqHalt t) { x with haltReq := true }) ∧
    (x.st = .waiting → to_ (.sqHalt t) { x with haltReq := true }) ∧
    ((x.st = .halted ∨ x.st = .fault) → to_ (.sqHalt t) x) ∧
    (¬empty → x.st = .halted → to_ (.sqRun t) { x with st := .running }) ∧
    ((empty ∨ x.st ≠ .halted) → to_ (.sqRun t) x) ∧
    (¬empty → to_ (.sqReset t) { x with st := .running, r := { pc := BitVec.ofNat 16 (Fld.SQ_CFG_ENTRY s.b.cfg t) }, rep := 0, repRan := false, waitMask := 0
                                        depth := 0, haltReq := false, cause := none, faultPc := 0 }) ∧
    (empty → to_ (.sqReset t) x) ∧
    to_ (.sqClrStats t) { x with dispMax := 0 } ∧
    (∀ v, to_ (.sqDoorbell t v) (raise 12 { x with dbell := v })) ∧
    (∀ (a : BitVec 16) v, code ≤ a.toNat → Gives (.localMemoryWrite t a v) s fun u => ∃ m, u.b = (s.b.seqUpd t fun _ => { x with mem := m }) ∧
      ∀ i, tabGet 0 m i = if i = a.toNat then v else sqRead x i) ∧
    (∀ (a : BitVec 16) v, a.toNat < code → Turns (.localMemoryWrite t a v) s s.b) ∧
    (∀ n, x.rep ≤ 1 → sqAdvance n x = bound { x with rep := 0, repRan := false, r := { x.r with pc := x.r.pc + BitVec.ofNat 16 n } }) ∧
    (∀ n, 1 < x.rep → sqAdvance n x = { x with rep := x.rep - 1, repRan := true })

/-- ACQ_ROW, BLOCK_WRITEBACK, TRIGGER_TIMER_EXPIRY on the unit of tile `t` with record `x`. The model's choices and readings, not the spec's: the free bytes behind the last row the trigger sequencer on lost rows (log 25), and the rows of a record (log 59). -/
def Obligations.AcquisitionRows : Prop :=
  ∀ (t : Fin 8) (s : State) (x : Aq), tileLive s.b t = true → s.b.aqAt t = x →
    let now := s.clk.lattice
    let sample := isSample s.b now t (aqGrp x)
    let row := aqRowOf s.b now t
    let waits := (x.q.filter fun w => match w with
      | AqWrite.block _ => true
      | AqWrite.desc _ => false).length
    let runs := x.st = .armed ∨ x.st = .triggered
    let inTime := x.armAt ≤ now ∧ x.lastAt ≠ some now
    let due := sample = true ∧ runs ∧ inTime ∧ x.smp % max 1 (aqDiv x) = 0
    let room := x.fill ≠ none ∨ waits < 16
    -- the block of the row
    let old := x.fill.getD { seq := x.seq, row0 := x.row, tick0 := now, gap := x.lost }
    let blk := fun (tr : Option Nat) => { old with rows := (now, row) :: old.rows, lastAt := now, trig := tr }
    let full := aqRowsPer x ≤ old.rows.length + 1
    (sample = false → Turns (.acqRow t) s s.b) ∧
    (sample = true → (x.st = .idle ∨ x.st = .stopping ∨ ¬inTime) → Turns (.acqRow t) s (s.b.aqUpd t fun _ => x)) ∧
    (sample = true → inTime → (x.st = .rearming ∨ runs ∧ x.smp % max 1 (aqDiv x) ≠ 0) →
      Turns (.acqRow t) s (s.b.aqUpd t fun _ => { x with smp := x.smp + 1, lastAt := some now })) ∧
    (due → aqTrigEn x = false → room → Gives (.acqRow t) s fun u =>
      let y := u.b.aqAt t
      u.b = { s.b with aq := u.b.aq } ∧ (∀ i, i ≠ t.val → u.b.aqAt i = s.b.aqAt i) ∧
      y.stored = x.stored + 1 ∧ y.row = x.row + 1 ∧ y.prev = row ∧ y.prevOk = true ∧ y.prevAt = now ∧ y.lost = 0 ∧ y.smp = x.smp + 1 ∧ y.lastAt = some now ∧
      y.gapRows = x.gapRows ∧ y.gaps = x.gaps ∧ y.seq = (if x.fill = none then x.seq + 1 else x.seq) ∧ y.full = x.full ∧ y.slot = x.slot ∧ y.missed = x.missed ∧
      -- before the trigger and before its row
      ((x.trig = none ∨ ∃ T n p, x.trig = some { t := T, src := n, pre := p } ∧ now < T) → x.st = .armed →
        y.st = .armed ∧ y.trig = x.trig ∧ y.shortPre = x.shortPre ∧
        (full → y.fill = none ∧ y.q = x.q ++ [.block { blk old.trig with part := false, final := false }]) ∧ (¬full → y.fill = some (blk old.trig) ∧ y.q = x.q)) ∧
      -- the trigger row
      (∀ T n p, x.trig = some { t := T, src := n, pre := p } → T ≤ now → x.st = .triggered →
        y.trig = some { t := T, src := n, row := some (now, x.stored), pre := min x.stored (aqPre x) } ∧ y.shortPre = decide (x.stored < aqPre x) ∧
        (aqPost x ≤ 1 → y.st = .rearming ∧ y.sc = now ∧ y.fill = none ∧
          y.q = x.q ++ [.block { blk (some old.rows.length) with part := decide (old.rows.length + 1 < aqRowsPer x), final := true }, .desc 2]) ∧
        (1 < aqPost x → y.st = .triggered)) ∧
      -- post-trigger rows
      (∀ T n p w r, x.trig = some { t := T, src := n, row := some (w, r), pre := p } → x.st = .triggered →
        y.trig = x.trig ∧ y.shortPre = x.shortPre ∧
        (aqPost x ≤ x.stored + 1 - r → y.st = .rearming ∧ y.sc = now ∧ y.fill = none ∧
          y.q = x.q ++ [.block { blk old.trig with part := decide (old.rows.length + 1 < aqRowsPer x), final := true }, .desc 2]) ∧
        (x.stored + 1 - r < aqPost x → y.st = .triggered))) ∧
    (due → aqTrigEn x = false → ¬room → Gives (.acqRow t) s fun u =>
      let y := u.b.aqAt t
      u.b = { s.b with aq := u.b.aq } ∧ (∀ i, i ≠ t.val → u.b.aqAt i = s.b.aqAt i) ∧
      y.stored = x.stored ∧ y.row = x.row + 1 ∧ y.lost = x.lost + 1 ∧ y.gapRows = min 0xFFFFFFFF (x.gapRows + 1) ∧
      y.gaps = (if x.lost = 0 then min 0xFFFFFFFF (x.gaps + 1) else x.gaps) ∧ y.q = x.q ∧ y.fill = x.fill ∧ y.st = x.st ∧ y.trig = x.trig ∧ y.full = x.full ∧
      y.prev = row ∧ y.smp = x.smp + 1 ∧ y.lastAt = some now) ∧
    -- a firing
    (due → x.st = .armed → aqTrigEn x = true → bits (tabGet 0 x.lat (0xC0 + 4 * x.ts.st)).toNat 26 6 = 1 → bits (tabGet 0 x.lat (0xC0 + 4 * x.ts.st)).toNat 10 6 = 0 →
      bit (tabGet 0 x.lat (0xC0 + 4 * x.ts.st)).toNat 22 = true → Gives (.acqRow t) s fun u =>
        u.b = { s.b with aq := u.b.aq, aqHub := { s.b.aqHub with fires := if bit s.b.aqHub.set t then s.b.aqHub.fires ++ [(now, t.val)] else s.b.aqHub.fires } } ∧
        (u.b.aqAt t).ts.st = bits (tabGet 0 x.lat (0xC0 + 4 * x.ts.st)).toNat 23 3) ∧
    -- write-back
    (x.q = [] → spineServes s.b (pktAq t x) = true → Gives (.blockWriteback t) s fun u => u.b = { s.b with turns := u.b.turns }) ∧
    (spineServes s.b (pktAq t x) = false → Turns (.blockWriteback t) s s.b) ∧
    (∀ k r p, x.q = .block k :: r → partOf s.b 4 t = some p → k.lastAt + 2000 ≤ now → spineServes s.b (pktAq t x) = true → Gives (.blockWriteback t) s fun u =>
      let base := p.base * 65536 + (x.slot * Fld.AQ_RING_SLOT_BLOCKS s.b.cfg t + (1 + k.seq % max 1 (Fld.AQ_RING_SLOT_BLOCKS s.b.cfg t - 1))) * 512
      let bs := aqBlockBytes x s.b.draws k
      u.b.aqAt t = { x with q := r } ∧ (∀ i, i ≠ t.val → u.b.aqAt i = s.b.aqAt i) ∧
      tabGet 0 u.b.mem base = 1 ∧ tabGet 0 u.b.mem (base + 1) = BitVec.ofNat 8 k.rows.length ∧
      (∀ i, i < bs.length → tabGet 0 u.b.mem (base + i) = bs.getD i 0) ∧ (∀ a, (a < base ∨ base + bs.length ≤ a) → tabGet 0 u.b.mem a = tabGet 0 s.b.mem a) ∧
      u.b = { s.b with aq := u.b.aq, mem := u.b.mem, badMem := u.b.badMem, draws := s.b.draws + 1, turns := u.b.turns }) ∧
    (∀ k r, x.q = .block k :: r → now < k.lastAt + 2000 → Gives (.blockWriteback t) s fun u => u.b = { s.b with turns := u.b.turns }) ∧
    (∀ st r p, x.q = .desc st :: r → partOf s.b 4 t = some p → spineServes s.b (pktAq t x) = true → Gives (.blockWriteback t) s fun u =>
      let base := p.base * 65536 + x.slot * Fld.AQ_RING_SLOT_BLOCKS s.b.cfg t * 512
      let bs := aqDescBytes x s.b.draws (aqDiv x * grpPeriod s.b t (aqGrp x)) (Fld.AQ_RING_SLOT_BLOCKS s.b.cfg t - 1) t st
      u.b.aqAt t = { x with q := r, full := if st = 1 ∨ bit x.full x.slot = true then x.full else x.full + 2 ^ x.slot } ∧ (∀ i, i ≠ t.val → u.b.aqAt i = s.b.aqAt i) ∧
      tabGet 0 u.b.mem (base + 4) = BitVec.ofNat 8 st ∧ tabGet 0 u.b.mem (base + 6) = BitVec.ofNat 8 (x.trig.getD {}).src ∧
      (∀ i, i < bs.length → tabGet 0 u.b.mem (base + i) = bs.getD i 0) ∧ (∀ a, (a < base ∨ base + bs.length ≤ a) → tabGet 0 u.b.mem a = tabGet 0 s.b.mem a) ∧
      u.b = { s.b with aq := u.b.aq, mem := u.b.mem, badMem := u.b.badMem, draws := s.b.draws + 1, turns := u.b.turns }) ∧
    -- timers
    (∀ i : Fin 2, runs → aqExpiry x i ≤ now → bit x.ts.expired i = false →
      Turns (.triggerTimerExpiry t i) s (s.b.aqUpd t fun _ => { x with ts := { x.ts with expired := x.ts.expired + 2 ^ i.val } })) ∧
    (∀ i : Fin 2, (¬runs ∨ now < aqExpiry x i ∨ bit x.ts.expired i = true) → Turns (.triggerTimerExpiry t i) s (s.b.aqUpd t fun _ => x))

/-- AQ_ARM, ARM_TICK, AQ_DISARM, AQ_STOP, ACQ_STOP_COMPLETE, REARM, AQ_RELEASE, AQ_CLR_STATS. The model's choices and readings, not the spec's: the replacement of REFUSED at each ARM (log 25), and the row due at an arm tick or a STOP (log 59). -/
def Obligations.AcquisitionArms : Prop :=
  ∀ (s : State), s.b.run.on = true →
    let now := s.clk.lattice
    let tick := (Fld.AQ_HUB_ARM_HI_TICK s.b.cfg * 2 ^ 32 + Fld.AQ_HUB_ARM_LO_TICK s.b.cfg) / 10 * 10
    let slots := fun t => Fld.AQ_RING_SLOTS s.b.cfg t + 1
    let free := fun t => (List.range (slots t)).find? fun k => !bit (s.b.aqAt t).full k
    let begun := fun (x y : Aq) (k : Nat) => y.st = .armed ∧ y.slot = k ∧ y.armAt = now ∧ y.stored = 0 ∧ y.row = 0 ∧ y.lost = 0 ∧ y.seq = 0 ∧ y.fill = none ∧ y.full = x.full ∧ y.trig = none ∧
      y.prevOk = false ∧ y.ts = { tmr := now } ∧ y.q = x.q ++ [.desc 1] ∧ y.missed = x.missed ∧ y.gaps = x.gaps ∧ y.gapRows = x.gapRows
    -- an arm of tile t whose unit is x
    let arms := fun (t : Nat) (x y : Aq) =>
      (aqBlocked s.b t = false →
        (∀ k, x.st = .idle → free t = some k → begun x y k ∧ y.lat = aqRegs s.b t ∧ y.smp = 0 ∧ y.lastAt = none) ∧
        (x.st = .idle → free t = none → y = { x with armRefused := true, fullFlag := true }) ∧
        (x.st = .stopping → y = { x with pendArm := true }) ∧
        ((x.st = .armed ∨ x.st = .triggered ∨ x.st = .rearming) → y = { x with armRefused := true })) ∧
      (aqBlocked s.b t = true → y = { x with armRefused := true })
    let stops := fun (x y : Aq) =>
      ((x.st = .armed ∨ x.st = .triggered) → y.st = .stopping ∧ y.fill = none ∧ y.full = x.full ∧ y.slot = x.slot ∧ y.stored = x.stored ∧ y.pendArm = x.pendArm ∧
        (x.fill = none → y.q = x.q ++ [.desc 3]) ∧ (∀ b, x.fill = some b → y.q = x.q ++ [.block { b with part := decide (b.rows.length < aqRowsPer x), final := true }, .desc 3])) ∧
      (x.st = .stopping → y = { x with pendArm := false }) ∧ ((x.st = .idle ∨ x.st = .rearming) → y = x)
    (∀ (ts : BitVec 8), tick < now + 10000 → Turns (.aqArm ts false) s { s.b with aqHub := { s.b.aqHub with refused := ts.toNat } }) ∧
    (∀ (ts : BitVec 8) asap, (asap = true ∨ now + 10000 ≤ tick) → Gives (.aqArm ts asap) s fun u =>
      (∀ t : Fin 8, bit u.b.aqHub.set t = (ts.getLsbD t && decide (t.val < s.b.run.tileSet) && Fld.AQ_RING_EN s.b.cfg t)) ∧
      u.b = { s.b with aqHub := { s.b.aqHub with set := u.b.aqHub.set, refused := ts.toNat - u.b.aqHub.set, due := some (if asap then now + 10000 else tick, u.b.aqHub.set) } }) ∧
    (∀ a ts, s.b.aqHub.due = some (a, ts) → a ≤ now → Gives .armTick s fun u =>
      ∃ m : Block, u.b = forL (liveTiles s.b) (aqRowAt now) m ∧ m = { s.b with aqHub := { s.b.aqHub with due := none }, aq := m.aq } ∧
        u.b = { s.b with aqHub := { s.b.aqHub with due := none, fires := u.b.aqHub.fires }, aq := u.b.aq } ∧
        (∀ t : Fin 8, (bit ts t = false ∨ tileLive s.b t = false → m.aqAt t = s.b.aqAt t) ∧
          (bit ts t = true → tileLive s.b t = true → arms t (s.b.aqAt t) (m.aqAt t)) ∧
          (tileLive s.b t = false ∨ isSample s.b now t (aqGrp (m.aqAt t)) = false → u.b.aqAt t = m.aqAt t))) ∧
    ((s.b.aqHub.due = none ∨ ∃ a ts, s.b.aqHub.due = some (a, ts) ∧ now < a) → Turns .armTick s (forL (liveTiles s.b) (aqRowAt now) s.b)) ∧
    (∀ ts : BitVec 8, Gives (.aqDisarm ts) s fun u => u.b = { s.b with aq := u.b.aq } ∧
      ∀ t : Fin 8, (tileLive s.b t = true → ts.getLsbD t = true → stops (s.b.aqAt t) (u.b.aqAt t)) ∧
        ((tileLive s.b t = false ∨ ts.getLsbD t = false) → u.b.aqAt t = s.b.aqAt t)) ∧
    (∀ (t : Fin 8) (x : Aq), tileLive s.b t = true → s.b.aqAt t = x →
      let to_ := fun c (y : Aq) => Turns c s (s.b.aqUpd t fun _ => y)
      -- the row of the tick is taken with it
      let then_ := fun c (P : Aq → Prop) => Gives c s fun u => ∃ m : Block, u.b = aqRowAt now t m ∧ m = { s.b with aq := m.aq } ∧ (∀ i, i ≠ t.val → m.aqAt i = s.b.aqAt i) ∧ P (m.aqAt t)
      let idle := fun (y : Aq) => { y with st := .idle, hist := ((now, AqSt.idle) :: y.hist).take 8 }
      (Gives (.aqStop t) s fun u => u.b = { s.b with aq := u.b.aq } ∧ (∀ i, i ≠ t.val → u.b.aqAt i = s.b.aqAt i) ∧ stops x (u.b.aqAt t)) ∧
      (x.st = .stopping → x.q = [] → x.pendArm = false → to_ (.acqStopComplete t) (idle x)) ∧
      (x.st = .stopping → x.q = [] → x.pendArm = true → then_ (.acqStopComplete t) fun y => arms t { idle x with pendArm := false } y) ∧
      ((x.st ≠ .stopping ∨ x.q ≠ []) → Turns (.acqStopComplete t) s (aqRowAt now t (s.b.aqUpd t fun _ => x))) ∧
      (let due := x.st = .rearming ∧ x.sc + 2000 ≤ now ∧ x.q = []
       let next := if x.slot + 1 < slots t then x.slot + 1 else 0
       (¬due → Turns (.rearm t) s (aqRowAt now t (s.b.aqUpd t fun _ => x))) ∧ (due → aqRepeat x = false → to_ (.rearm t) (idle x)) ∧
       (due → aqRepeat x = true → bit x.full next = true → to_ (.rearm t) { idle x with fullFlag := true }) ∧
       (due → aqRepeat x = true → bit x.full next = false → then_ (.rearm t) fun y => begun x y next ∧ y.lat = x.lat ∧
         (x.lastAt = some now → y.lastAt = none ∧ y.smp = x.smp - 1) ∧ (x.lastAt ≠ some now → y.lastAt = x.lastAt ∧ y.smp = x.smp))) ∧
      (∀ k : Fin 16, bit x.full k = true → (x.st = .idle ∨ x.slot ≠ k.val) → to_ (.aqRelease t k) { x with full := x.full - 2 ^ k.val }) ∧
      (∀ k : Fin 16, (bit x.full k = false ∨ (x.st ≠ .idle ∧ x.slot = k.val)) → to_ (.aqRelease t k) x) ∧
      to_ (.aqClrStats t) { x with missed := 0, gaps := 0, gapRows := 0 })

/-- FIRING_AT_HUB, AQ_FORCE, SET_TRIGGER_SEND, SET_TRIGGER_RECEIVED. -/
def Obligations.SetTriggers : Prop :=
  ∀ (s : State) (h : AqHub), s.b.run.on = true → s.b.aqHub = h →
    let now := s.clk.lattice
    let to_ := fun c (g : AqHub) => Turns c s { s.b with aqHub := g }
    -- the firing belongs to the event of the last set trigger
    let same := fun (n : Nat) => ∃ l, h.last = some l ∧ n < l + 1000
    -- a firing against the one held
    let first := fun (f g : Nat × Nat) => f.1 < g.1 ∨ (f.1 = g.1 ∧ f.2 < g.2)
    (same now → to_ .aqForce h) ∧
    (¬same now → h.held = none → to_ .aqForce { h with held := some (now, 8) }) ∧
    (∀ g, ¬same now → h.held = some g → first (now, 8) g → to_ .aqForce { h with held := some (now, 8) }) ∧
    (∀ g, ¬same now → h.held = some g → ¬first (now, 8) g → to_ .aqForce h) ∧
    (∀ (t : Fin 8) f, h.fires.find? (fun f => decide (f.2 = t.val)) = some f →
      let r := { h with fires := h.fires.erase f }
      (same f.1 → to_ (.firingAtHub t) r) ∧ (¬same f.1 → h.held = none → to_ (.firingAtHub t) { r with held := some f }) ∧
      (∀ g, ¬same f.1 → h.held = some g → first f g → to_ (.firingAtHub t) { r with held := some f }) ∧
      (∀ g, ¬same f.1 → h.held = some g → ¬first f g → to_ (.firingAtHub t) r)) ∧
    (∀ t : Fin 8, h.fires.find? (fun f => decide (f.2 = t.val)) = none → Turns (.firingAtHub t) s s.b) ∧
    (∀ a n, h.held = some (a, n) → a + 1000 ≤ now → to_ .setTriggerSend
      { h with held := none, last := some a, src := n, count := min 65535 (h.count + 1), trigs := h.trigs ++ ((List.range 8).filter fun k => bit h.set k).map fun k => (k, a, n) }) ∧
    ((h.held = none ∨ ∃ a n, h.held = some (a, n) ∧ now < a + 1000) → to_ .setTriggerSend h) ∧
    (∀ (t : Fin 8) (x : Aq) (a n : Nat), tileLive s.b t = true → s.b.aqAt t = x → h.trigs.find? (fun f => decide (f.1 = t.val)) = some (t.val, a, n) →
      let r := { h with trigs := h.trigs.erase (t.val, a, n) }
      let unit := fun (y : Aq) => Turns (.setTriggerReceived t) s ({ s.b with aqHub := r }.aqUpd t fun _ => y)
      (x.armAt ≤ a → aqStAt x a = .armed → x.trig = none → Gives (.setTriggerReceived t) s fun u =>
        u.b.aqHub = r ∧ (u.b.aqAt t).trigTick = a ∧ (u.b.aqAt t).trig.map (fun g => (g.t, g.src)) = some (a, n) ∧ (u.b.aqAt t).stored = x.stored ∧
        (∀ i, i ≠ t.val → u.b.aqAt i = s.b.aqAt i) ∧ u.b = { s.b with aqHub := u.b.aqHub, aq := u.b.aq }) ∧
      -- no row at or after it is stored yet: the first one to come is the trigger row
      (x.armAt ≤ a → aqStAt x a = .armed → x.trig = none → x.st = .armed → (∀ b, x.fill = some b → ∀ w ∈ b.rows, w.1 < a) → (∀ b, AqWrite.block b ∈ x.q → ∀ w ∈ b.rows, w.1 < a) →
        unit { x with trig := some { t := a, src := n }, trigTick := a, st := .triggered, hist := ((a, AqSt.triggered) :: x.hist).take 8 }) ∧
      (x.armAt ≤ a → aqStAt x a = .armed → x.trig ≠ none → unit x) ∧
      (aqStAt x a = .rearming → unit { x with missed := min 65535 (x.missed + 1) }) ∧
      ((aqStAt x a = .idle ∨ aqStAt x a = .stopping ∨ aqStAt x a = .triggered ∨ a < x.armAt ∧ aqStAt x a ≠ .rearming) → unit x)) ∧
    (∀ t : Fin 8, tileLive s.b t = true → h.trigs.find? (fun f => decide (f.1 = t.val)) = none → Turns (.setTriggerReceived t) s s.b)

/-- BL_PORT_ENABLE, BL_PORT_DISABLE, CHANNEL_UP, CHANNEL_DOWN, BL_CLR_STATS, STARTUP_FRAME_RX on port `p` with record `x`; QUICKSET_DECISION, QUICKSET_EXPIRED. The model's choices and readings, not the spec's: the windows that STOPPING keeps (log 37) and the corners of log 65. -/
def Obligations.BerathPorts : Prop :=
  ∀ (p : Fin 12) (s : State) (x : BlPort), s.b.run.on = true → s.b.blAt p = x →
    let now := s.clk.lattice
    let to_ := fun c (y : BlPort) => Turns c s (s.b.blUpd p fun _ => y)
    let en := Fld.BL_PORT_CFG_EN s.b.cfg p
    let up := fun (chB : Bool) => if chB then { x with upB := true } else { x with upA := true }
    let down := fun (chB : Bool) => if chB then { x with upB := false } else { x with upA := false }
    let used := fun (chB : Bool) => en = true ∧ bit (Fld.BL_PORT_CFG_CHAN s.b.cfg p) (if chB then 1 else 0) = true
    (en = false → to_ (.blPortEnable p) { x with enRefused := true }) ∧
    (en = true → x.st = .off → to_ (.blPortEnable p) { x with enable := true }) ∧
    (en = true → x.st = .stopping → to_ (.blPortEnable p) { x with enPending := true }) ∧
    (en = true → x.st ≠ .off → x.st ≠ .stopping → to_ (.blPortEnable p) x) ∧
    (x.st = .off → to_ (.blPortDisable p) { x with enable := false }) ∧
    (x.st = .stopping → to_ (.blPortDisable p) { x with enPending := false }) ∧
    (x.st ≠ .off → x.st ≠ .stopping → to_ (.blPortDisable p) { x with st := .stopping, stopFrom := x.st, disAt := now, left := false }) ∧
    (∀ c, ¬used c → Turns (.channelUp p c) s s.b) ∧
    (∀ c, used c → (x.st ≠ .listen ∨ s.b.net.st ≠ .run) → to_ (.channelUp p c) (up c)) ∧
    (∀ c, used c → x.st = .listen → s.b.net.st = .run → Gives (.channelUp p c) s fun u =>
      (u.b.blAt p).st = .integrating ∧ (u.b.blAt p).intAt = now ∧ (u.b.blAt p).key.ok = false ∧ (u.b.blAt p).upA = (up c).upA ∧ (u.b.blAt p).upB = (up c).upB ∧
      (∀ i, i ≠ p.val → u.b.blAt i = s.b.blAt i) ∧ u.b = { s.b with bl := u.b.bl, draws := u.b.draws }) ∧
    (∀ c, ((down c).upA = true ∨ (down c).upB = true ∨ (x.st ≠ .integrating ∧ x.st ≠ .run ∧ x.st ≠ .blocked)) → to_ (.channelDown p c) (down c)) ∧
    (∀ c, (down c).upA = false → (down c).upB = false → (x.st = .integrating ∨ x.st = .run ∨ x.st = .blocked) → Gives (.channelDown p c) s fun u =>
      u.b.blAt p = { down c with st := .listen } ∧ (∀ i, i ≠ p.val → u.b.blAt i = s.b.blAt i) ∧ OnlyFaults { s.b with bl := u.b.bl, blnx := u.b.blnx } u.b ∧
      (x.st ≠ .run → u.b = { s.b with bl := u.b.bl }) ∧
      (∀ k : Fin 64, x.st = .run → Fld.BL_NX_BIND_EN s.b.cfg k = true → Fld.BL_NX_BIND_PORT s.b.cfg k = p → u.b.blnxAt k = { s.b.blnxAt k with lost := true }) ∧
      (∀ k : Fin 64, ¬(Fld.BL_NX_BIND_EN s.b.cfg k = true ∧ Fld.BL_NX_BIND_PORT s.b.cfg k = p) → u.b.blnxAt k = s.b.blnxAt k)) ∧
    to_ (.blClrStats p) { x with errA := 0, errB := 0, blockedN := 0, clipped := 0, diff := 0, single := 0, authFail := 0, fwdDrop := 0, spDrop := 0, joinRefused := 0, rxDrop := 0
                                 ofs := { drift := x.ofs.drift, overRun := x.ofs.overRun, underRun := x.ofs.underRun, cycMax := x.ofs.cycMax } } ∧
    (let n := s.b.net
     let net := fun c (m : BlNet) => Turns c s { s.b with net := m }
     let good := fun (r : RxCopy) => r.clean = true ∧ blShape r.bytes = true ∧ fhType r.bytes = 6 ∧ fhLen r.bytes = 5 ∧ fhSrc r.bytes = p ∧ fhSealed r.bytes = false ∧ blRxTick r = now ∧
       Fld.BL_PORT_CFG_SEAL s.b.cfg p = false ∧ used r.chB ∧ (if r.chB then x.upB else x.upA) = true ∧ Fld.BL_PORT_CFG_COLDSTART s.b.cfg p = true
     let waits := n.st = .listen ∧ n.qsDone = false
     let mode := fun (r : RxCopy) => bits (leAt (fhPayload r.bytes) 7 1) 0 3 = Fld.BL_MODE_MODE s.b.cfg
     let hold := fun (r : RxCopy) => { n with qs := some { port := p, stamp := r.stamp, frame := r.bytes } }
     (∀ r, ¬(waits ∧ good r) → Turns (.startupFrameRx p r) s s.b) ∧
     (∀ r, waits → good r → ¬mode r → net (.startupFrameRx p r) { n with qsMismatch := true }) ∧
     (∀ r, waits → good r → mode r → (n.qs = none ∨ ∃ q, n.qs = some q ∧ q.stamp / 10 = r.stamp / 10 ∧ p < q.port) → net (.startupFrameRx p r) (hold r)) ∧
     (∀ r q, waits → good r → mode r → n.qs = some q → ¬(q.stamp / 10 = r.stamp / 10 ∧ p < q.port) → Turns (.startupFrameRx p r) s s.b) ∧
     ((n.qs = none ∨ n.qsDone = true ∨ ∃ q, n.qs = some q ∧ now < q.stamp / 10 * 10 + 1300) → Turns .quicksetDecision s s.b) ∧
     (∀ q, n.qs = some q → q.stamp / 10 * 10 + 1300 ≤ now → n.qsDone = false → Gives .quicksetDecision s fun u =>
       let c0 := (q.stamp - Fld.BL_PORT_CFG_DLY s.b.cfg q.port) / 10 * 10
       let per := 10 * (blNow n).cycle
       u.b = { s.b with net := u.b.net, bl := u.b.bl, draws := u.b.draws } ∧
       u.b.net = { n with anchor := c0 - per * leAt (fhPayload q.frame) 6 1, ctr0 := leAt (fhPayload q.frame) 0 6, from_ := c0 + per, st := .run, qs := none, qsDone := true, qsPort := q.port } ∧
       ∀ k : Fin 12, let z := s.b.blAt k
         ((k.val ≠ q.port ∧ Fld.BL_PORT_CFG_EN s.b.cfg k = true ∧ z.st ≠ .off) → (u.b.blAt k).tx = [(now, q.frame)]) ∧
         ((z.st = .listen ∧ (z.upA = true ∨ z.upB = true)) → (u.b.blAt k).st = .integrating ∧ (u.b.blAt k).intAt = now) ∧
         (¬(z.st = .listen ∧ (z.upA = true ∨ z.upB = true)) → (u.b.blAt k).st = z.st)) ∧
     (let due := n.st = .listen ∧ Fld.BL_NET_CFG_START s.b.cfg = 1 ∧ n.qsDone = false ∧ n.qsExpired = false ∧ n.bootAt + Fld.BL_NET_CFG_QS_WAIT s.b.cfg * 1000000 ≤ now
      (¬due → Turns .quicksetExpired s s.b) ∧
      (due → Fld.BL_NET_CFG_QS_FALLBACK s.b.cfg = false → net .quicksetExpired { n with qsExpired := true }) ∧
      (due → Fld.BL_NET_CFG_QS_FALLBACK s.b.cfg = true → Gives .quicksetExpired s fun u =>
        u.b = { s.b with net := { n with qsExpired := true, qs := none, qsDone := true, anchor := 10 * Fld.BL_NET_PHASE_PHASE s.b.cfg, ctr0 := 0, st := .listen, from_ := u.b.net.from_ } } ∧
        (Fld.BL_NET_PHASE_PHASE s.b.cfg * 10 ≤ u.b.net.from_) ∧ (blMatNs (blNow n) ≠ 0 → now ≤ u.b.net.from_ ∧ (u.b.net.from_ - Fld.BL_NET_PHASE_PHASE s.b.cfg * 10) % blMatNs (blNow n) = 0))))

/-- CYCLE_START, MATRIX_START, DOWN_WINDOW_ASSEMBLY, ARBITRATING_DOWN_WINDOW, WINDOW_CLOSE. The model's choices and readings, not the spec's: when windows are assembled and in which states (log 37), the stamps of R464 (log 38), the free number of ACTIVATE (log 39). -/
def Obligations.BerathTime : Prop :=
  ∀ (s : State), s.b.run.on = true →
    let now := s.clk.lattice
    let n := s.b.net
    let cyc := isCycle s.b now
    let mat := isMatrix s.b now
    let at_ := blCycleAt n (blNow n) now
    let first := fun (k : Nat) => s.b.marks.contains k = false
    let done := fun (k : Nat) => s.b.marks.contains k = true
    -- frame `f` of the star: type, destination, payload
    let frame := fun (f : List Byte) (type p : Nat) (pl : List Byte) => fhType f = type ∧ fhSrc f = 0x80 ∧ fhDst f = p ∧ fhLen f = pl.length / 4 ∧ fhPayload f = pl
    let cycleStart := fun (p : Nat) (leave blocked : Bool) (y : BlPort) => ∃ f, y.tx = [(now, f)] ∧
      frame f 1 p (blCyclePayload s.b.cfg p at_.2.2 at_.2.1 n.mode (blAnnounces s.b now) now leave blocked)
    (cyc = false → Turns .cycleStart s s.b) ∧
    (cyc = true → mat = true → first 321 → Gives .cycleStart s fun u => ∃ m, exec .matrixStart s = .next m ∧ exec .cycleStart m = .next u) ∧
    (cyc = true → (mat = false ∨ done 321) → done 320 → Turns .cycleStart s s.b) ∧
    (cyc = true → (mat = false ∨ done 321) → first 320 → Gives .cycleStart s fun u => OnlyStar { s.b with marks := 320 :: s.b.marks } u.b ∧
      ∀ p : Fin 12, let x := s.b.blAt p
        let y := u.b.blAt p
        (x.st = .listen → y.st = .listen ∧ y.tx = x.tx) ∧
        ((x.st = .integrating ∨ x.st = .run ∨ x.st = .blocked) → y.st = x.st ∧ cycleStart p false (decide (x.st = .blocked)) y) ∧
        (x.st = .stopping → x.left = false → now ≤ x.disAt → y.st = .stopping ∧ y.left = false ∧ cycleStart p false false y) ∧
        (x.st = .stopping → x.left = false → x.disAt < now → y.st = .stopping ∧ y.left = true ∧ cycleStart p true false y) ∧
        (x.st = .stopping → x.left = true → y.st = .off ∧ y.left = false ∧ y.tx = [] ∧ y.enable = x.enPending ∧ y.enPending = false) ∧
        (x.st = .off → x.enable = false → y.st = .off ∧ y.tx = x.tx) ∧
        (x.st = .off → x.enable = true → x.upA = false → x.upB = false → y.st = .listen ∧ y.enable = false) ∧
        (x.st = .off → x.enable = true → (x.upA = true ∨ x.upB = true) → y.st = .integrating ∧ y.enable = false ∧ y.intAt = now ∧ cycleStart p false false y)) ∧
    (mat = false → Turns .matrixStart s s.b) ∧
    (mat = true → done 321 → Turns .matrixStart s s.b) ∧
    (mat = true → first 321 → Gives .matrixStart s fun u => u.b = { s.b with marks := 321 :: s.b.marks, bl := u.b.bl, blStamp := u.b.blStamp, draws := u.b.draws } ∧
      ∀ p : Fin 12, let x := s.b.blAt p
        let y := u.b.blAt p
        let sealed_ := Fld.BL_PORT_CFG_SEAL s.b.cfg p
        let back := x.st = .blocked ∧ x.quiet = true ∧ x.sofSeen = false
        -- the key in force after the start of this matrix
        let newKey := ∃ a, x.key.activate = some a ∧ a ≤ at_.2.2
        let keyed := sealed_ = false ∨ x.key.ok = true ∨ newKey
        y.clipM = 0 ∧ y.sofSeen = false ∧ (u.b.blStampAt p).msLat = now ∧ (u.b.blStampAt p).msNt = ntNs s.b.nt ∧ (u.b.blStampAt p).msEpoch = s.b.nt.epoch ∧
        (x.st ≠ .integrating → x.st ≠ .blocked → y.st = x.st) ∧
        (back → y.st = .integrating ∧ y.intAt = now ∧ y.key.ok = false) ∧
        (x.st = .blocked → ¬back → y.st = .blocked ∧ y.quiet = true) ∧
        (x.st = .integrating → now ≤ x.intAt → y.st = .integrating) ∧
        (x.st = .integrating → x.intAt < now → (∃ r, x.runAt = some r ∧ r ≤ now) → keyed → y.st = .run) ∧
        (x.st = .integrating → x.intAt < now → Fld.BL_NET_CFG_JOIN s.b.cfg = false → hasUpWin s.b p = false → keyed → y.st = .run) ∧
        (x.st = .integrating → ¬keyed → y.st = .integrating) ∧
        (x.st = .integrating → (Fld.BL_NET_CFG_JOIN s.b.cfg = true ∨ hasUpWin s.b p = true) → (x.runAt = none ∨ ∃ r, x.runAt = some r ∧ now < r) → y.st = .integrating) ∧
        (∀ a, ¬back → x.key.activate = some a → a ≤ at_.2.2 → y.key.ok = true ∧ y.key.key = x.key.next ∧ y.key.keyId = x.key.nextId ∧ y.key.used = 0)) ∧
    (∀ (p : Fin 12) (x : BlPort), s.b.blAt p = x →
      let keyless := Fld.BL_PORT_CFG_SEAL s.b.cfg p = true ∧ x.key.ok = false
      (((blEff x ≠ .run ∧ blEff x ≠ .blocked) ∨ keyless ∨ blDownAt s.b now p (· == 0) = none) → Turns (.downWindowAssembly p) s s.b) ∧
      (∀ k w cs c m, blDownAt s.b now p (· == 0) = some (k, w, cs, c, m) → (done (330 + p) ∨ (w.ftype ≠ 2 ∧ w.ftype ≠ 4)) → Turns (.downWindowAssembly p) s s.b) ∧
      (∀ k w cs c m, (blEff x = .run ∨ blEff x = .blocked) → ¬keyless → blDownAt s.b now p (· == 0) = some (k, w, cs, c, m) → w.ftype = 2 → first (330 + p) →
        Gives (.downWindowAssembly p) s fun u => u.b = { s.b with marks := (330 + p) :: s.b.marks, bl := u.b.bl, blnx := u.b.blnx } ∧ (∀ i, i ≠ p.val → u.b.blAt i = s.b.blAt i) ∧
          (∃ f, (u.b.blAt p).tx = [(cs + 10 * w.ofs, f)] ∧ ((nxBound s.b.cfg p w.bind).length ≤ 8 → frame f 2 p ((nxBound s.b.cfg p w.bind).flatMap fun sl => nxRecBytes s.b.cfg sl (u.b.blnxAt sl).last))) ∧
          (∀ sl ∈ nxBound s.b.cfg p w.bind, ((∀ e ∈ (s.b.blnxAt sl).newer, now ≤ e.1) → u.b.blnxAt sl = s.b.blnxAt sl) ∧
            (∀ r rec, (s.b.blnxAt sl).newer = [(r, rec)] → r < now → u.b.blnxAt sl = { s.b.blnxAt sl with last := rec, newer := [] }) ∧
            (∀ r rec r' rec', (s.b.blnxAt sl).newer = [(r, rec), (r', rec')] → r < now → r' < now → u.b.blnxAt sl = { s.b.blnxAt sl with last := if rec.apply ≤ rec'.apply then rec' else rec, newer := [] })) ∧
          (∀ sl, sl ∉ nxBound s.b.cfg p w.bind → u.b.blnxAt sl = s.b.blnxAt sl)) ∧
      (∀ k w cs c m, (blEff x = .run ∨ blEff x = .blocked) → ¬keyless → blDownAt s.b now p (· == 0) = some (k, w, cs, c, m) → w.ftype = 4 → first (330 + p) →
        Gives (.downWindowAssembly p) s fun u => u.b = { s.b with marks := (330 + p) :: s.b.marks, bl := u.b.bl, sf := { s.b.sf with conns := u.b.sf.conns } } ∧ (∀ i, i ≠ p.val → u.b.blAt i = s.b.blAt i) ∧
          ∃ f, (u.b.blAt p).tx = [(cs + 10 * w.ofs, f)] ∧ ((connsOf s.b p w.bind).length ≤ 50 → frame f 4 p ((connsOf s.b p w.bind).flatMap fun c => (u.b.connAt c).pdu)) ∧
            (∀ c ∈ connsOf s.b p w.bind, (u.b.connAt c).pdu.length = 20 ∧ (u.b.connAt c).sendAt = now) ∧ (∀ c, c ∉ connsOf s.b p w.bind → u.b.connAt c = s.b.connAt c)) ∧
      (((blEff x ≠ .run ∧ blEff x ≠ .blocked ∧ blEff x ≠ .integrating) ∨ blDownAt s.b now p (· == 1) = none ∨ done (350 + p)) → Turns (.arbitratingDownWindow p) s s.b) ∧
      (∀ k w cs c m, (blEff x = .run ∨ blEff x = .blocked ∨ blEff x = .integrating) → blDownAt s.b now p (· == 1) = some (k, w, cs, c, m) → first (350 + p) →
        let now_ := fun (P : BlPort → Prop) => Gives (.arbitratingDownWindow p) s fun u => u.b = { s.b with marks := (350 + p) :: s.b.marks, bl := u.b.bl, draws := s.b.draws + 1 } ∧
          (∀ i, i ≠ p.val → u.b.blAt i = s.b.blAt i) ∧ P (u.b.blAt p)
        let data := blEff x ≠ .integrating ∧ ¬keyless ∧ x.joinAck = none ∧ x.keyq = []
        let fits := fun (pl : List Byte) => pl.length % 4 = 0 ∧ pl.length ≤ 256 ∧ blFrameNs (blSealKey s.b.cfg p x).isSome (pl.length / 4) ≤ 10 * w.len
        let sent := fun (f : List Byte) (fwd : Bool) (type src dst : Nat) (pl : List Byte) => fhType f = type ∧ fhFwd f = fwd ∧ fhSrc f = src % 256 ∧ fhDst f = dst % 256 ∧ fhWindow f = k % 256 ∧ fhPayload f = pl
        ((data → x.fwdq = [] → x.hostq = [] → now_ fun y => y = { x with tx := [] }) ∧
        (∀ fwd d pl, data → x.fwdq = [] → x.hostq = [(fwd, d, pl)] → fits pl → now_ fun y => ∃ f, y = { x with hostq := [], tx := [(cs + 10 * w.ofs, f)] } ∧ sent f fwd 5 0x80 d pl) ∧
        (∀ fwd d pl, data → x.fwdq = [] → x.hostq = [(fwd, d, pl)] → 10 * w.len < blFrameNs (blSealKey s.b.cfg p x).isSome (pl.length / 4) → now_ fun y => y = { x with tx := [] }) ∧
        (∀ src d pl h r, data → x.fwdq = (src, d, pl) :: r → x.hostq = h → fits pl → now_ fun y => ∃ f fs, y.tx = (cs + 10 * w.ofs, f) :: fs ∧ fs.length ≤ 3 ∧ sent f true 5 src d pl) ∧
        (∀ r res, x.joinAck = some (r, res) → r < now → ¬keyless → fits (joinAckBytes 0 0) → now_ fun y => y.joinAck = none ∧ ∃ f fs, y.tx = (cs + 10 * w.ofs, f) :: fs ∧ fs.length ≤ 3 ∧
          fhType f = 8 ∧ fhDst f = p ∧ (res = 0 → leAt (fhPayload f) 0 1 = (if x.st = .integrating then 0 else 2)) ∧ (res = 1 → leAt (fhPayload f) 0 1 = 1) ∧
          (res = 0 → x.st = .integrating → ∃ t, y.runAt = some t ∧ cs + 10 * (w.ofs + w.len) < t ∨ blMatNs (blNow n) = 0) ∧ (res = 1 → y.runAt = x.runAt)) ∧
        (∀ pl, x.joinAck = none → x.keyq = [pl] → pl.length = 216 → fits pl → now_ fun y => y.keyq = [] ∧ ∃ f fs, y.tx = (cs + 10 * w.ofs, f) :: fs ∧ fs.length ≤ 3 ∧ fhType f = 9 ∧ fhDst f = p ∧
          (leAt pl 0 1 ≠ 3 → fhPayload f = pl) ∧ (leAt pl 0 1 = 3 → (fhPayload f).take 0x78 = pl.take 0x78 ∧ ∃ a, m + 2 ≤ a ∧ y.key.activate = some a)))) ∧
      (blClosing s.b now p = [] → Turns (.windowClose p) s s.b) ∧ (done (370 + p) → Turns (.windowClose p) s s.b) ∧
      (∀ k w cs, blClosing s.b now p = [(k, w, cs)] → first (370 + p) →
        let late := fun (q : Option Nat) => ∃ a, q = some a ∧ blOpen (blNow n) w cs ≤ a ∧ a < now
        let lone := w.kind = 0 ∧ Fld.BL_PORT_CFG_CHAN s.b.cfg p = 3 ∧ (blOcc x k cs).got ≠ [] ∧ ((∀ g ∈ (blOcc x k cs).got, g.2.1 = true) ∨ (∀ g ∈ (blOcc x k cs).got, g.2.1 = false))
        Gives (.windowClose p) s fun u =>
        let y := u.b.blAt p
        OnlyFaults { s.b with marks := (370 + p) :: s.b.marks, bl := u.b.bl, blnx := u.b.blnx } u.b ∧ (∀ i, i ≠ p.val → u.b.blAt i = s.b.blAt i) ∧
          y.occs = x.occs.filter (fun q => !decide (q.win = k ∧ q.cyc = cs)) ∧ y.single = (if lone then min 65535 (x.single + 1) else x.single) ∧
          (¬late x.busyA → ¬late x.busyB → y.st = x.st ∧ y.clipped = x.clipped ∧ y.busyA = x.busyA ∧ y.busyB = x.busyB ∧ y.errA = x.errA ∧ y.errB = x.errB ∧
            (∀ sl : Fin 64, Fld.BL_NX_BIND_EN s.b.cfg sl = true → Fld.BL_NX_BIND_PORT s.b.cfg sl = p →
              (w.kind = 0 → w.ftype = 3 → Fld.BL_NX_BIND_BIND_UP s.b.cfg sl = w.bind → bit (blOcc x k cs).drives (Fld.BL_NX_BIND_DRIVE s.b.cfg sl) = false →
                let miss := min 255 ((s.b.blnxAt sl).misses + 1)
                u.b.blnxAt sl = { s.b.blnxAt sl with misses := miss, lost := (s.b.blnxAt sl).lost || decide (Fld.BL_NX_CFG_LOSS_N s.b.cfg sl ≤ miss) }) ∧
              ((w.kind ≠ 0 ∨ w.ftype ≠ 3 ∨ Fld.BL_NX_BIND_BIND_UP s.b.cfg sl ≠ w.bind ∨ bit (blOcc x k cs).drives (Fld.BL_NX_BIND_DRIVE s.b.cfg sl) = true) → u.b.blnxAt sl = s.b.blnxAt sl))) ∧
          (late x.busyA → ¬late x.busyB → blChan s.b.cfg p false = true → y.busyA = none ∧ y.errA = min 65535 (x.errA + 1) ∧ y.clipped = min 65535 (x.clipped + 1) ∧ y.clipM = x.clipM + 1 ∧ y.sofSeen = true ∧
            y.st = (if 2 ≤ x.clipM ∧ (x.st = .run ∨ x.st = .integrating) then .blocked else x.st)) ∧
          (late x.busyB → ¬late x.busyA → blChan s.b.cfg p true = true → y.busyB = none ∧ y.errB = min 65535 (x.errB + 1) ∧ y.clipped = min 65535 (x.clipped + 1) ∧ y.clipM = x.clipM + 1 ∧ y.sofSeen = true ∧
            y.st = (if 2 ≤ x.clipM ∧ (x.st = .run ∨ x.st = .integrating) then .blocked else x.st))))

/-- FEEDBACK_FRAME_RX, SETPOINT_FRAME_RX, SAFETY_FRAME_RX, DATA_FRAME_RX, JOIN_FRAME_RX, KEY_FRAME_RX, INVALID_COPY_RX: copy `r` at port `p` with record `x`. The model's choices and readings, not the spec's: that a row acts on copies of its type (log 37) and where a drop counts (log 38). -/
def Obligations.BerathFrames : Prop :=
  ∀ (p : Fin 12) (r : RxCopy) (s : State) (x : BlPort), s.b.run.on = true → s.b.blAt p = x →
    let now := s.clk.lattice
    let judge := blJudge s.b.cfg s.b.net now p x r
    let type := fhType r.bytes
    let pl := fhPayload r.bytes
    let cmds : List (Nat × Instr) := [(2, .setpointFrameRx p r), (3, .feedbackFrameRx p r), (4, .safetyFrameRx p r), (5, .dataFrameRx p r), (7, .joinFrameRx p r), (9, .keyFrameRx p r)]
    let err := fun (y : BlPort) => (if r.chB then y.errB else y.errA) = min 65535 ((if r.chB then x.errB else x.errA) + 1)
    -- the copy has come to its end
    let ended := if r.chB then { x with busyB := none } else { x with busyA := none }
    -- the port becomes RUN with a first exclusive frame (R439)
    let st := fun (w : BlWin) => if x.st = .integrating ∧ w.kind = 0 ∧ Fld.BL_NET_CFG_JOIN s.b.cfg = false then BlSt.run else x.st
    -- the first valid copy of a frame that the port takes
    let runsIn := fun (c : Instr) (P : BlWin → Nat → Nat → State → Prop) => ∀ k w cs, judge = .ok (k, w, cs) → blTakes s.b.cfg p x w type = true →
      (blTake k cs w r x).2 = true → Gives c s fun u => (u.b.blAt p).st = st w ∧ (u.b.blAt p).busyA = ended.busyA ∧ (u.b.blAt p).busyB = ended.busyB ∧ (u.b.blAt p).sofSeen = true ∧ P w k cs u
    let others := fun (u : State) => ∀ i, i ≠ p.val → u.b.blAt i = s.b.blAt i
    (judge = .error .ignored → Turns (.invalidCopyRx p r) s (s.b.blUpd p fun _ => ended)) ∧
    (judge = .error .blocked → Gives (.invalidCopyRx p r) s fun u => (u.b.blAt p).blockedN = min 65535 (x.blockedN + 1) ∧ err (u.b.blAt p) ∧ (u.b.blAt p).st = x.st ∧ (u.b.blAt p).sofSeen = true ∧ others u ∧ u.b = { s.b with bl := u.b.bl }) ∧
    (judge = .error .invalid → Gives (.invalidCopyRx p r) s fun u => err (u.b.blAt p) ∧ (u.b.blAt p).st = x.st ∧ (u.b.blAt p).sofSeen = true ∧ (u.b.blAt p).authFail = x.authFail ∧ (u.b.blAt p).blockedN = x.blockedN ∧ others u ∧ u.b = { s.b with bl := u.b.bl }) ∧
    (judge = .error .auth → Gives (.invalidCopyRx p r) s fun u => err (u.b.blAt p) ∧ (u.b.blAt p).st = x.st ∧ (u.b.blAt p).sofSeen = true ∧ (u.b.blAt p).authFail = min 65535 (x.authFail + 1) ∧ others u ∧ u.b = { s.b with bl := u.b.bl }) ∧
    (judge = .error .clipped → Gives (.invalidCopyRx p r) s fun u => err (u.b.blAt p) ∧ (u.b.blAt p).clipped = min 65535 (x.clipped + 1) ∧ (u.b.blAt p).clipM = x.clipM + 1 ∧ (u.b.blAt p).sofSeen = true ∧
      (u.b.blAt p).st = (if 2 ≤ x.clipM ∧ (x.st = .run ∨ x.st = .integrating) then .blocked else x.st) ∧ others u ∧ OnlyFaults { s.b with bl := u.b.bl, blnx := u.b.blnx } u.b ∧
      (∀ k : Fin 64, 2 ≤ x.clipM → x.st = .run → Fld.BL_NX_BIND_EN s.b.cfg k = true → Fld.BL_NX_BIND_PORT s.b.cfg k = p → u.b.blnxAt k = { s.b.blnxAt k with lost := true })) ∧
    (∀ v, judge = .ok v → Turns (.invalidCopyRx p r) s s.b) ∧
    (∀ c ∈ cmds, type ≠ c.1 → Turns c.2 s s.b) ∧
    (∀ c ∈ cmds, ∀ e, type = c.1 → judge = .error e → exec c.2 s = exec (.invalidCopyRx p r) s) ∧
    (∀ c ∈ cmds, ∀ k w cs, type = c.1 → judge = .ok (k, w, cs) → blTakes s.b.cfg p x w type = false → Turns c.2 s (s.b.blUpd p fun _ => { ended with sofSeen := true })) ∧
    (∀ c ∈ cmds, ∀ k w cs, type = c.1 → judge = .ok (k, w, cs) → blTakes s.b.cfg p x w type = true → (blTake k cs w r x).2 = false →
      Gives c.2 s fun u => u.b = { s.b with bl := u.b.bl } ∧ others u ∧ (u.b.blAt p).st = st w ∧ (u.b.blAt p).rxq = x.rxq ∧ (u.b.blAt p).joinAck = x.joinAck ∧ (u.b.blAt p).keyq = x.keyq ∧
        (u.b.blAt p).diff = (if ((blOcc x k cs).got.find? fun g => decide (g.1 = fhFidx r.bytes ∧ g.2.1 ≠ r.chB)).any (fun g => decide (g.2.2 ≠ pl)) ∧ w.kind = 0 then min 65535 (x.diff + 1) else x.diff)) ∧
    (type = 3 → fhLen r.bytes = 6 → ∀ sl, leAt pl 22 1 < 8 → nxSlotOf s.b.cfg p (leAt pl 22 1) = some sl → runsIn (.feedbackFrameRx p r) fun w k cs u =>
      u.b.blnxAt sl = { s.b.blnxAt sl with
        lost := false, misses := 0
        relay := (s.b.blnxAt sl).relay ++ [{ tf := ((cs : Int) + signed 32 (leAt pl 16 4)).toNat, pos := BitVec.ofNat 64 (leAt pl 0 8), vel := BitVec.ofNat 64 (leAt pl 8 8), status := leAt pl 23 1, at_ := now }] } ∧
      (w.bind = Fld.BL_NX_BIND_BIND_UP s.b.cfg sl → bit (blOcc (u.b.blAt p) k cs).drives (leAt pl 22 1) = true) ∧
      (∀ i, i ≠ sl → u.b.blnxAt i = s.b.blnxAt i) ∧ others u ∧ u.b = { s.b with bl := u.b.bl, blnx := u.b.blnx }) ∧
    (type = 3 → fhLen r.bytes = 6 → (8 ≤ leAt pl 22 1 ∨ nxSlotOf s.b.cfg p (leAt pl 22 1) = none) → runsIn (.feedbackFrameRx p r) fun _ _ _ u => others u ∧ u.b = { s.b with bl := u.b.bl }) ∧
    (type = 2 → fhLen r.bytes = 8 → runsIn (.setpointFrameRx p r) fun w _ _ u => ∃ ins : List Nat,
      u.b = { s.b with bl := u.b.bl, spFly := s.b.spFly ++ ins.map (fun i => { dst := i, apply := leAt pl 0 8, val := signed 64 (leAt pl 8 8), src := 16 + p, at_ := now }) } ∧ others u ∧ ins.Nodup ∧
      ∀ i, i ∈ ins ↔ (i < 256 ∧ Fld.BL_SPIN_EN s.b.cfg (i / 32) (i % 32) = true ∧ Fld.BL_SPIN_PORT s.b.cfg (i / 32) (i % 32) = p ∧
        Fld.BL_SPIN_DRIVE s.b.cfg (i / 32) (i % 32) = leAt pl 24 1 ∧ Fld.BL_SPIN_BIND s.b.cfg (i / 32) (i % 32) = w.bind)) ∧
    (type = 4 → fhLen r.bytes = 5 → runsIn (.safetyFrameRx p r) fun w _ _ u =>
      let c := leAt (slice pl 0 20) 2 2
      let mine := c < 48 ∧ Fld.SF_CONN_CFG_EN s.b.cfg c = true ∧ Fld.SF_CONN_CFG_PATH s.b.cfg c = false ∧ Fld.SF_CONN_CFG_PORT s.b.cfg c = p ∧ Fld.SF_CONN_CFG_BIND_UP s.b.cfg c = w.bind
      u.b = { s.b with bl := u.b.bl, sf := { s.b.sf with conns := u.b.sf.conns } } ∧ others u ∧ (∀ i, i ≠ c → u.b.connAt i = s.b.connAt i) ∧
      (mine → u.b.connAt c = { s.b.connAt c with rx := (s.b.connAt c).rx ++ [(now, slice pl 0 20)] }) ∧ (¬mine → u.b.connAt c = s.b.connAt c)) ∧
    (type = 5 → fhFwd r.bytes = false → fhDst r.bytes = 0x80 → runsIn (.dataFrameRx p r) fun _ _ _ u => u.b = { s.b with bl := u.b.bl, blStamp := u.b.blStamp } ∧ others u ∧
      (u.b.blStampAt p).rxEpoch = s.b.nt.epoch ∧ (u.b.blStampAt p).rxNt = ((ntNs s.b.nt : Int) - ((now : Int) - r.stamp)).toNat % 2 ^ 64 ∧
      (x.rxq.length < 16 → (u.b.blAt p).rxq = x.rxq ++ [slice r.bytes 0 8 ++ pl] ∧ (u.b.blAt p).rxDrop = x.rxDrop) ∧
      (16 ≤ x.rxq.length → (u.b.blAt p).rxq = x.rxq ∧ (u.b.blAt p).rxDrop = min 255 (x.rxDrop + 1))) ∧
    (type = 5 → fhFwd r.bytes = false → fhDst r.bytes ≠ 0x80 → runsIn (.dataFrameRx p r) fun _ _ _ u => u.b = { s.b with bl := u.b.bl, blStamp := u.b.blStamp } ∧ others u ∧
      (u.b.blAt p).rxq = x.rxq ∧ (u.b.blAt p).fwdDrop = min 255 (x.fwdDrop + 1)) ∧
    (type = 5 → fhFwd r.bytes = true → runsIn (.dataFrameRx p r) fun _ _ _ u => u.b = { s.b with bl := u.b.bl, blStamp := u.b.blStamp } ∧ (u.b.blAt p).rxq = x.rxq ∧
      let dest := fun (q : Fin 12) => q ≠ p ∧ bit (Fld.BL_PORT_FWD_DEST s.b.cfg p) q = true ∧ (fhDst r.bytes = q.val ∨ fhDst r.bytes = 0xFF)
      let room := fun (z : BlPort) => z.fwdq.length + z.hostq.length < 8
      (∀ q, dest q → room (s.b.blAt q) → u.b.blAt q = { s.b.blAt q with fwdq := (s.b.blAt q).fwdq ++ [(p.val, fhDst r.bytes, pl)] }) ∧
      (∀ q, dest q → ¬room (s.b.blAt q) → u.b.blAt q = { s.b.blAt q with fwdDrop := min 255 ((s.b.blAt q).fwdDrop + 1) }) ∧
      (∀ q, q ≠ p → ¬dest q → u.b.blAt q = s.b.blAt q) ∧
      ((∀ q, ¬dest q) → (u.b.blAt p).fwdDrop = min 255 (x.fwdDrop + 1))) ∧
    (type = 7 → runsIn (.joinFrameRx p r) fun _ _ _ u => u.b = { s.b with bl := u.b.bl } ∧ others u ∧
      (u.b.blAt p).joinAck = some (now, if blIdentity s.b.cfg p pl then 0 else 1) ∧ (u.b.blAt p).joinRefused = (if blIdentity s.b.cfg p pl then x.joinRefused else min 255 (x.joinRefused + 1)) ∧
      (u.b.blAt p).rxid.toNat = leAt pl 0 4 + 2 ^ 32 * (leAt pl 4 2 + 65536 * leAt pl 6 2))

/-- REKEY, KEY_OFFER_RETRY, KEY_FRAME_RX on port `p` with record `x`. The model's choices and readings, not the spec's: the free number of ACTIVATE and the opaque check of ACCEPT (logs 2 and 39). -/
def Obligations.PortKeys : Prop :=
  ∀ (p : Fin 12) (s : State) (x : BlPort), s.b.run.on = true → s.b.blAt p = x →
    let now := s.clk.lattice
    let k := x.key
    let sealed_ := Fld.BL_PORT_CFG_SEAL s.b.cfg p = true
    let offers := fun (c : Instr) (id fail used : Nat) => Gives c s fun u =>
      u.b = { s.b with bl := u.b.bl, draws := u.b.draws } ∧ u.b.draws = s.b.draws + 1 ∧ (u.b.blAt p).key.kex = 1 ∧ (u.b.blAt p).key.nextId = id ∧ (u.b.blAt p).key.key = k.key ∧
      (u.b.blAt p).key.ok = k.ok ∧ (u.b.blAt p).key.fail = fail ∧ (u.b.blAt p).key.used = used ∧ (u.b.blAt p).st = x.st ∧
      ∃ o, (u.b.blAt p).keyq = [o] ∧ leAt o 0 1 = 1 ∧ leAt o 1 1 = id
    let due := sealed_ ∧ k.ok = true ∧ k.kex = 0 ∧ x.st = .run ∧ Fld.SEC_PORT_CFG_REKEY_M s.b.cfg p ≠ 0 ∧ Fld.SEC_PORT_CFG_REKEY_M s.b.cfg p ≤ k.used
    let late := sealed_ ∧ k.kex = 1 ∧ x.keyq = [] ∧ s.b.net.st = .run ∧ k.offerAt + 8 ≤ (blCycleAt s.b.net (blNow s.b.net) now).2.2
    let next := fun (i : Nat) => i % 255 + 1
    (due → offers (.rekey p) (next (if k.nextId = 0 then k.keyId else k.nextId)) k.fail 0) ∧ (¬due → Turns (.rekey p) s s.b) ∧
    (late → offers (.keyOfferRetry p) (next k.keyId) (if k.ok then min 65535 (k.fail + 1) else k.fail) k.used) ∧ (¬late → Turns (.keyOfferRetry p) s s.b) ∧
    (∀ r : RxCopy, fhType r.bytes ≠ 9 → Turns (.keyFrameRx p r) s s.b) ∧
    (∀ (r : RxCopy) w c cs, fhType r.bytes = 9 → blJudge s.b.cfg s.b.net now p x r = .ok (w, c, cs) → blTakes s.b.cfg p x c 9 = true → (blTake w cs c r x).2 = true → c.kind = 1 →
      let pl := fhPayload r.bytes
      let asked := leAt pl 0 1 = 2 ∧ leAt pl 1 1 = k.nextId ∧ k.kex = 1 ∧ pl.length = 216
      let ok := Config.ecdsaPinned (peerHash s.b p) (Config.sha384 (leBytes 1 p ++ deviceId s.b ++ k.offer ++ pl.take 0x78)) (slice pl 0x78 96)
      (¬asked → Gives (.keyFrameRx p r) s fun u => u.b = { s.b with bl := u.b.bl } ∧ (u.b.blAt p).key = k ∧ (u.b.blAt p).keyq = x.keyq) ∧
      (asked → ok = false → Gives (.keyFrameRx p r) s fun u => u.b = { s.b with bl := u.b.bl } ∧ (u.b.blAt p).key = { k with fail := min 65535 (k.fail + 1) } ∧ (u.b.blAt p).keyq = x.keyq) ∧
      (asked → ok = true → Gives (.keyFrameRx p r) s fun u => u.b = { s.b with bl := u.b.bl } ∧ (u.b.blAt p).key.kex = 2 ∧ (u.b.blAt p).key.key = k.key ∧ (u.b.blAt p).key.ok = k.ok ∧
        (u.b.blAt p).key.next = slice (Config.hkdf (Config.ecdh k.eph (slice pl 0x14 97)) (k.nonce ++ slice pl 4 16) (leBytes 1 p ++ leBytes 1 k.nextId) 32) 0 32 ∧
        ∃ o, (u.b.blAt p).keyq = [o] ∧ leAt o 0 1 = 3 ∧ leAt o 1 1 = k.nextId % 256))

/-- NT_RATE_WRITE, NT_STEP, NT_STEP_EFFECT, NT_CAPTURE; PTP_RX, PTP_TX, PTP_TS_POP on MAC `m` with record `x`. The model's choices and readings, not the spec's: the offsets in PTP frames (log 23) and the records of general and other frames (log 64). -/
def Obligations.NetworkTime : Prop :=
  ∀ (s : State), s.b.run.on = true →
    let now := s.clk.lattice
    let n := s.b.nt
    let int : Nat := n.now / 2 ^ 40
    let amount := signed 64 (Fld.NT_STEP_HI_AMOUNT s.b.cfg * 2 ^ 32 + Fld.NT_STEP_LO_AMOUNT s.b.cfg)
    (∀ v : Word, Gives (.ntRateWrite v) s fun u => tabGet 0 u.b.cfg 0x6000C = v ∧ u.b = { s.b with cfg := u.b.cfg } ∧ ∀ a, a ≠ 0x6000C → tabGet 0 u.b.cfg a = tabGet 0 s.b.cfg a) ∧
    Turns .ntStep s { s.b with nt := { n with steps := n.steps ++ [(now, amount)] } } ∧
    Turns .ntCapture s { s.b with nt := { n with cap := some now } } ∧
    ((∀ e ∈ n.steps, now ≤ e.1) → Turns .ntStepEffect s s.b) ∧
    (∀ a (amt : Int), n.steps = [(a, amt)] → a < now → amt ≠ 0 → 0 ≤ (int : Int) + amt → (int : Int) + amt < 2 ^ 64 → Gives .ntStepEffect s fun u =>
      let new := ((int : Int) + amt).toNat
      u.b = { s.b with
        nt := { n with steps := [], now := new * 2 ^ 40 + n.now % 2 ^ 40, epoch := (n.epoch + 1) % 65536, stepTick := now, stepAmt := amt }
        te := u.b.te, teo := u.b.teo, marks := u.b.marks } ∧
      -- a unit on network time whose time the step reaches or passes fires at the step's tick; the others wait on
      (s.b.marks.contains 200 = false → ∀ (k : Fin 32) (x : Te), s.b.teAt k = x → x.armed = true →
        (x.net = true → x.mode = 0 → x.next ≤ new → let y := u.b.teAt k
          y.armed = false ∧ y.stepped = true ∧ y.fires = min 65535 (x.fires + 1) ∧ y.lat = now ∧ y.nt = new ∧ y.epoch = (n.epoch + 1) % 65536) ∧
        (x.net = true → x.mode = 0 → new < x.next → u.b.teAt k = x) ∧
        (x.net = true → x.mode = 1 → let y := u.b.teAt k
          y.armed = true ∧ y.fires = x.fires ∧ y.next = teNext x.t x.per (new + 1) ∧ y.skipped = min 255 (x.skipped + (teNext x.t x.per (new + 1) - x.next) / max 1 x.per)) ∧
        (x.net = false → now < x.next → u.b.teAt k = x))) ∧
    (∀ a (amt : Int), n.steps = [(a, amt)] → a < now → amt ≠ 0 → ((int : Int) + amt < 0 ∨ 2 ^ 64 ≤ (int : Int) + amt) → Gives .ntStepEffect s fun u =>
      u.b = { s.b with nt := { n with steps := [], stepErr := true }, te := u.b.te, teo := u.b.teo, marks := u.b.marks }) ∧
    (∀ a, n.steps = [(a, 0)] → a < now → Gives .ntStepEffect s fun u => u.b = { s.b with nt := { n with steps := [] }, te := u.b.te, teo := u.b.teo, marks := u.b.marks }) ∧
    (∀ (m : Fin 2) (x : Ptp), s.b.ptpAt m = x →
      let to_ := fun c (y : Ptp) => Turns c s (s.b.ptpUpd m fun _ => y)
      (∀ st f, Fld.NT_PTP_CFG_EN s.b.cfg m = false → Turns (.ptpRx m st f) s s.b) ∧
      (∀ st f, Fld.NT_PTP_CFG_EN s.b.cfg m = true → ptpAt f = none → to_ (.ptpRx m st f) x) ∧
      (∀ st f a, Fld.NT_PTP_CFG_EN s.b.cfg m = true → ptpAt f = some a → 32 ≤ x.rx.length → to_ (.ptpRx m st f) { x with rxOvf := true }) ∧
      (∀ st f a, Fld.NT_PTP_CFG_EN s.b.cfg m = true → ptpAt f = some a → x.rx.length < 32 → Gives (.ptpRx m st f) s fun u => ∃ r, u.b.ptpAt m = { x with rx := x.rx ++ [r] } ∧
        r.drop 24 = f ∧ leAt r 18 2 = f.length % 65536 ∧ (ptpType f a.2 < 4 → leAt r 0 8 = (st - Fld.NT_PTP_CFG_RXLAT s.b.cfg m) % 2 ^ 64 ∧ leAt r 16 2 = n.epoch % 65536) ∧
        (ptpType f a.2 < 4 → leAt r 8 8 = (ntConvert n (st - Fld.NT_PTP_CFG_RXLAT s.b.cfg m) now).1) ∧ (4 ≤ ptpType f a.2 → leAt r 0 8 = 0) ∧ u.b = { s.b with ptp := u.b.ptp }) ∧
      (∀ st, x.txq = [] → to_ (.ptpTx m st) x) ∧
      (∀ st e r, x.txq = e :: r → e.oneStep = false → e.tsReq = false → to_ (.ptpTx m st) { x with txq := r, sent := e.frame }) ∧
      (∀ st e r tr p, x.txq = e :: r → e.oneStep = false → e.tsReq = true → ptpAt e.frame = some (tr, p) → x.ts.length < 16 → Gives (.ptpTx m st) s fun u =>
        u.b = { s.b with ptp := u.b.ptp } ∧ ∃ q : PtpTs, u.b.ptpAt m = { x with txq := r, sent := e.frame, ts := x.ts ++ [q] } ∧
          q.nt = (ntConvert n (st + Fld.NT_PTP_CFG_TXLAT s.b.cfg m) now).1 ∧ q.epoch = n.epoch ∧ q.type = ptpType e.frame p) ∧
      (∀ st e r, x.txq = e :: r → e.oneStep = false → e.tsReq = true → 16 ≤ x.ts.length → to_ (.ptpTx m st) { x with txq := r, sent := e.frame, txOvf := true }) ∧
      (∀ st e r tr p, x.txq = e :: r → e.oneStep = true → e.tsReq = false → ptpAt e.frame = some (tr, p) → ptpType e.frame p = 0 → tr ≤ 1 → to_ (.ptpTx m st)
        { x with txq := r, sent := ptpOneStep e.frame tr p (ntConvert n (st + Fld.NT_PTP_CFG_TXLAT s.b.cfg m) now).1 (n.now % 2 ^ 40 / 2 ^ 24) }) ∧
      (∀ st e r, x.txq = e :: r → e.oneStep = true → e.tsReq = false → (∀ tr p, ptpAt e.frame = some (tr, p) → ptpType e.frame p ≠ 0 ∨ 1 < tr) → to_ (.ptpTx m st) { x with txq := r, oneErr := true }) ∧
      to_ (.ptpTsPop m) { x with ts := x.ts.drop 1 })

/-- TE_ARM, TE_DISARM, TIMED_EVENT_FIRE, CAPTURE_RECORD on unit `k` with record `x`; TEO_PULSE_END on land `l`. The model's choices and readings, not the spec's: what a PER or WIDTH of 0 means when a record counts as read (log 22), and an action on a land with a pulse (log 64). -/
def Obligations.TimedEvents : Prop :=
  ∀ (s : State), s.b.run.on = true →
    let now := s.clk.lattice
    let n := s.b.nt
    (∀ (k : Fin 32) (x : Te), s.b.teAt k = x →
      let to_ := fun c (y : Te) => Turns c s (s.b.teUpd k fun _ => y)
      let c := teCfg s.b k
      let base := if x.net then n.now / 2 ^ 40 else now
      let fired := fun (y : Te) => y.fires = min 65535 (x.fires + 1) ∧ y.lat = now ∧ y.nt = n.now / 2 ^ 40 ∧ y.epoch = n.epoch
      -- the action on the land; a pulse that another pulse starts anew is an overlap
      let l := s.b.teoAt x.land_
      let acts := fun (u : State) => u.b = { s.b with te := u.b.te, teo := u.b.teo } ∧ (∀ i, i ≠ k.val → u.b.teAt i = s.b.teAt i) ∧ (∀ i, i ≠ x.land_ → u.b.teoAt i = s.b.teoAt i) ∧
        (u.b.teAt k).overlap = (x.overlap || (decide (x.act = 1) && l.active && l.pulseEnd.isSome)) ∧
        (x.act = 0 → u.b.teoAt x.land_ = l) ∧ (x.act = 1 → u.b.teoAt x.land_ = { active := true, pulseEnd := some (now + 10 * x.width) }) ∧
        (x.act = 2 → u.b.teoAt x.land_ = { active := !l.active, pulseEnd := none }) ∧ (x.act = 3 → u.b.teoAt x.land_ = { active := true, pulseEnd := none }) ∧
        (x.act = 4 → u.b.teoAt x.land_ = { active := false, pulseEnd := none })
      (c.mode = 3 → to_ (.teArm k) x) ∧
      (c.mode ≠ 3 → Gives (.teArm k) s fun u => let y := u.b.teAt k
        y.arming = some now ∧ y.armed = false ∧ y.mode = c.mode ∧ y.net = Fld.NT_EV_CFG_BASE s.b.cfg k ∧ y.act = Fld.NT_EV_CFG_ACT s.b.cfg k ∧ y.land_ = Fld.NT_EV_CFG_LAND s.b.cfg k ∧
        y.t = c.t ∧ y.per = 10 * max 1 (Fld.NT_EV_PER_VALUE s.b.cfg k) ∧ y.width = max 1 (Fld.NT_EV_WIDTH_VALUE s.b.cfg k) ∧ y.fires = 0 ∧ y.skipped = 0 ∧ y.lat = x.lat ∧ y.nt = x.nt ∧ y.epoch = x.epoch ∧
        u.b = { s.b with te := u.b.te } ∧ ∀ i, i ≠ k.val → u.b.teAt i = s.b.teAt i) ∧
      to_ (.teDisarm k) { x with armed := false, arming := none } ∧
      (x.arming = none → (x.armed = false ∨ 2 ≤ x.mode ∨ base < x.next) → to_ (.timedEventFire k) x) ∧
      (∀ a, x.arming = some a → now ≤ a → x.armed = false → to_ (.timedEventFire k) x) ∧
      (x.arming = none → x.armed = true → x.mode = 0 → x.next ≤ base → Gives (.timedEventFire k) s fun u =>
        fired (u.b.teAt k) ∧ (u.b.teAt k).armed = false ∧ acts u) ∧
      (x.arming = none → x.armed = true → x.mode = 1 → x.next ≤ base → Gives (.timedEventFire k) s fun u =>
        fired (u.b.teAt k) ∧ (u.b.teAt k).armed = true ∧ (u.b.teAt k).next = x.next + max 1 x.per ∧ acts u) ∧
      (∀ a, x.arming = some a → a < now → x.mode = 0 → base < x.t → Turns (.timedEventFire k) s (s.b.teUpd k fun _ => { x with arming := none, armed := true, next := x.t })) ∧
      (∀ a, x.arming = some a → a < now → x.mode = 0 → x.t ≤ base → Gives (.timedEventFire k) s fun u =>
        fired (u.b.teAt k) ∧ (u.b.teAt k).late = (x.late || decide (x.t < base)) ∧ (u.b.teAt k).armed = false ∧ (u.b.teAt k).arming = none ∧ acts u) ∧
      (∀ a, x.arming = some a → a < now → x.mode = 1 → base < teNext x.t x.per base → Turns (.timedEventFire k) s (s.b.teUpd k fun _ => { x with arming := none, armed := true, next := teNext x.t x.per base })) ∧
      (∀ a, x.arming = some a → a < now → x.mode = 1 → teNext x.t x.per base = base → Gives (.timedEventFire k) s fun u =>
        fired (u.b.teAt k) ∧ (u.b.teAt k).armed = true ∧ (u.b.teAt k).arming = none ∧ (u.b.teAt k).next = base + max 1 x.per ∧ acts u) ∧
      (∀ a, x.arming = some a → a < now → x.mode = 2 → Turns (.timedEventFire k) s (s.b.teUpd k fun _ => { x with arming := none, armed := true })) ∧
      (∀ f, n.fly.find? (fun f => decide (f.1 = k.val)) = some f → Gives (.captureRecord k) s fun u =>
        u.b = { s.b with nt := { n with fly := n.fly.erase f }, te := u.b.te } ∧
        (x.armed = true → x.mode = 2 → u.b.teAt k = { x with fires := min 65535 (x.fires + 1), lat := f.2, nt := ((n.now / 2 ^ 40 : Nat) - ((now : Int) - f.2)).toNat % 2 ^ 64, epoch := n.epoch
                                                             span := decide (f.2 < n.stepTick ∧ n.stepTick ≤ now), overlap := x.overlap || x.unread, unread := true }) ∧
        ((x.armed = false ∨ x.mode ≠ 2) → u.b.teAt k = x)) ∧
      (n.fly.find? (fun f => decide (f.1 = k.val)) = none → Turns (.captureRecord k) s s.b)) ∧
    (∀ (l : Fin 8) (x : Teo), s.b.teoAt l = x →
      (∀ e, x.pulseEnd = some e → e ≤ now → Turns (.teoPulseEnd l) s (s.b.teoUpd l fun _ => {})) ∧
      ((x.pulseEnd = none ∨ ∃ e, x.pulseEnd = some e ∧ now < e) → Turns (.teoPulseEnd l) s (s.b.teoUpd l fun _ => x)))

/-- FIELD_EXCHANGE: the record `y` that pair `m` gets from `x`. -/
def Field.exchanged (now : Nat) (b : Block) (m : Nat) (x y : FPair) : Prop :=
  y.got = false ∧ y.relPend = false ∧ y.sAlive = (if evalTimerOut now b then x.sAlive else (x.sAlive + 1) % 256) ∧
  (x.failed = true → y = { x with got := false, relPend := false, sAlive := y.sAlive, fin := none, fout := none, relRefused := x.relRefused || (x.relPend && x.wdExpired) }) ∧
  (x.failed = false → ∃ f g, y = { x with got := false, relPend := false, sAlive := y.sAlive, fin := some f, fout := some g } ∧
    (∀ k : Fin 16, let c := x.ch.get k
      bit f.level k = (c.acc && decide (fFunc c.cfg ≠ .unused)) ∧ bit f.valid k = c.valid ∧ bit f.sw k = c.sw ∧ f.diag.getD k 0 = fDiag c ∧
      (bit g.brake k = true ↔ ∃ a : Fin 128, Fld.SF_AX_CFG_BRK_EN b.cfg a = true ∧ Fld.SF_AX_CFG_BRK_CH b.cfg a = 16 * m + k ∧ (b.sfAxAt a).brkCmd = true) ∧
      bit g.cmd k = (if Fld.FIO_CH_CFG_SRC b.cfg m k = 0 then bit x.host k else bit x.mbx k) ∧
      g.cfgs[k.val]? = some (fieldWord b false m k) ∧ g.pars[k.val]? = some (fieldWord b true m k)) ∧
    f.lpLow = x.lpLow ∧ f.transferLow = x.transferLow ∧ f.headroom = x.headroom ∧
    g.alive = x.alive ∧ g.release = x.relPend ∧ g.reArm = bit b.sf.rearm m ∧ g.sAlive = y.sAlive)

/-- FIELD_FRAME_APPLY: the record `y` that a pair that works gets from `x` by frame `f` when neither watchdog is due. -/
def Field.applied (now : Nat) (f : FOut) (x y : FPair) : Prop :=
  let fresh := decide (f.alive ≠ x.refAlive)
  let sOk := f.reArm = true ∨ f.sAlive ≠ x.sRef ∧ x.swdExpired = false
  y.fout = none ∧ y.swdExpired = (x.swdExpired && !f.reArm) ∧
  (sOk → y.sRef = f.sAlive ∧ y.sAt = some now) ∧ (¬sOk → y.sRef = x.sRef ∧ y.sAt = x.sAt) ∧
  y.wdExpired = (x.wdExpired && !(f.release && fresh)) ∧ y.relRefused = (x.relRefused || (f.release && x.wdExpired && !fresh)) ∧
  (fresh = true → y.wdExpired = false → y.refAt = some now ∧ y.refAlive = f.alive) ∧ ((fresh = false ∨ y.wdExpired = true) → y.refAt = x.refAt ∧ y.refAlive = x.refAlive) ∧
  (∀ k : Fin 16, let c := x.ch.get k
    let d := y.ch.get k
    let braked : FCh := if fFunc c.cfg = .brake ∧ y.swdExpired = false then { c with cmd := bit f.brake k, sw := bit f.brake k && !c.off } else c
    let cfg := f.cfgs.getD k c.cfg
    let par := f.pars.getD k c.par
    let taken : FCh := if bits c.cfg.toNat 29 3 ≠ bits cfg.toNat 29 3 then { braked with cfg := cfg, par := par, sw := false, cmd := false, acc := false, valid := false, run := 0, dark := false }
      else if fDebWord c.par ≠ fDebWord par then { braked with cfg := cfg, par := par, run := 0 } else { braked with cfg := cfg, par := par }
    d = if fFunc cfg = .out ∧ y.wdExpired = false ∧ y.refAt ≠ none then { taken with cmd := bit f.cmd k, sw := bit f.cmd k && !c.off } else taken)

/-- FIELD_EXCHANGE; FIELD_FRAME_RX, FIELD_FRAME_APPLY, LINK_LOST on pair `m` with record `x`. The model's choices and readings, not the spec's: the alive counts before the first frame (log 36), and when the timer of the evaluations counts as expired after an ENGINE_FAULT (log 32). -/
def Obligations.FieldExchange : Prop :=
  ∀ (s : State), s.b.run.on = true →
    let now := s.clk.lattice
    (now % 20000 ≠ 500 → Turns .fieldExchange s s.b) ∧
    (s.b.marks.contains 300 = true → Turns .fieldExchange s s.b) ∧
    (now % 20000 = 500 → s.b.marks.contains 300 = false → Gives .fieldExchange s fun u =>
      u = { s with b := { s.b with fp := u.b.fp, marks := 300 :: s.b.marks } } ∧ ∀ m : Fin 4, Field.exchanged now s.b m (s.b.fpAt m) (u.b.fpAt m)) ∧
    (∀ (m : Fin 4) (x : FPair), s.b.fpAt m = x →
      let others := fun (u : State) => ∀ i : Fin 4, i ≠ m → u.b.fpAt i = s.b.fpAt i
      let heard := fun (u : State) => others u ∧ u.clk = s.clk ∧ (∀ i : Fin 4, i ≠ m → u.b.barrierAt i = s.b.barrierAt i) ∧
        OnlyLog { s.b with fp := u.b.fp, aq := u.b.aq, hl := { s.b.hl with barriers := u.b.hl.barriers }, nv := { s.b.nv with replace := u.b.nv.replace } } u.b
      let inTime := 500 ≤ now % 20000 ∧ now % 20000 ≤ 2500
      (∀ ok, (x.fin = none ∨ ¬inTime) → Turns (.fieldFrameRx m ok) s s.b) ∧
      (∀ f, x.fin = some f → inTime → Gives (.fieldFrameRx m true) s fun u => heard u ∧
        u.b.fpAt m = { x with
          fin := none, got := true, missRow := 0, linkLost := false, missed := if now % 20000 = 2500 then x.missedWas else x.missed
          levelPrev := if x.regAt = now then x.levelPrev else x.level
          level := if s.b.hl.st.pair = some m.val then 0 else f.level
          valid := if s.b.hl.st.pair = some m.val then 0 else f.valid
          regAt := now, inForce := f.sw, diag := f.diag, regLp := f.lpLow, regTransfer := f.transferLow } ∧
        u.b.barrierAt m = { s.b.barrierAt m with headroom := min (s.b.barrierAt m).headroom f.headroom } ∧
        ((u.b.fpAt m).level = x.level → u.b.aq = s.b.aq)) ∧
      (∀ f, x.fin = some f → inTime → s.b.hl.st.pair ≠ some m.val → Gives (.fieldFrameRx m false) s fun u => heard u ∧ u.b.aq = s.b.aq ∧
        u.b.fpAt m = { x with fin := none, crcErr := min 65535 (x.crcErr + 1) } ∧
        u.b.barrierAt m = { s.b.barrierAt m with crc := min 4095 ((s.b.barrierAt m).crc + 1) }) ∧
      (now % 20000 ≠ 2500 → Turns (.fieldFrameApply m) s s.b ∧ Turns (.linkLost m) s s.b) ∧
      (now % 20000 = 2500 → x.fout = none → Turns (.fieldFrameApply m) s (s.b.fpUpd m fun _ => x)) ∧
      (∀ f, now % 20000 = 2500 → x.fout = some f → x.failed = true → Turns (.fieldFrameApply m) s (s.b.fpUpd m fun _ => { x with fout := none })) ∧
      (∀ f, now % 20000 = 2500 → x.fout = some f → x.failed = false → fSwdDue now x = false → fWdDue (Fld.FIO_WD_WD_T s.b.cfg m) now x = false →
        Gives (.fieldFrameApply m) s fun u => others u ∧ u = { s with b := { s.b with fp := u.b.fp } } ∧ Field.applied now f x (u.b.fpAt m)) ∧
      (∀ f, now % 20000 = 2500 → x.fout = some f → x.failed = false → fSwdDue now x = true → f.reArm = false →
        Gives (.fieldFrameApply m) s fun u => others u ∧ OnlyLog { s.b with fp := u.b.fp } u.b ∧ (u.b.fpAt m).swdExpired = true ∧ (u.b.fpAt m).sAt = x.sAt ∧
          ∀ k : Fin 16, fFunc (x.ch.get k).cfg = .brake → f.cfgs.getD k (x.ch.get k).cfg = (x.ch.get k).cfg → ((u.b.fpAt m).ch.get k).sw = false) ∧
      (∀ f, now % 20000 = 2500 → x.fout = some f → x.failed = false → fWdDue (Fld.FIO_WD_WD_T s.b.cfg m) now x = true → f.release = false →
        Gives (.fieldFrameApply m) s fun u => others u ∧ OnlyLog { s.b with fp := u.b.fp } u.b ∧ (u.b.fpAt m).wdExpired = true ∧ (u.b.fpAt m).refAt = x.refAt ∧
          ∀ k : Fin 16, let c := x.ch.get k
            fFunc c.cfg = .out → f.cfgs.getD k c.cfg = c.cfg → ((u.b.fpAt m).ch.get k).sw = (bit (safeOf s.b m) k && !c.off)) ∧
      (s.b.marks.contains (310 + m) = true → Turns (.linkLost m) s s.b) ∧
      (now % 20000 = 2500 → s.b.marks.contains (310 + m) = false →
        let marked : Block := { s.b with marks := (310 + m) :: s.b.marks }
        (x.got = true → Turns (.linkLost m) s (marked.fpUpd m fun _ => { x with missedWas := x.missed })) ∧
        (x.got = false → x.missRow < 2 → Turns (.linkLost m) s (marked.fpUpd m fun _ =>
          { x with missedWas := x.missed, missRow := x.missRow + 1, missed := min 65535 (x.missed + 1) })) ∧
        (x.got = false → 2 ≤ x.missRow → Gives (.linkLost m) s fun u => others u ∧ u = { s with b := { marked with fp := u.b.fp, aq := u.b.aq } } ∧
          u.b.fpAt m = { x with
            missedWas := x.missed, missRow := 3, missed := min 65535 (x.missed + 1), linkLost := true
            levelPrev := if x.regAt = now then x.levelPrev else x.level
            regAt := now, level := 0, valid := 0 })))

/-- FIELD_WD_EXPIRED, SAFETY_WD_EXPIRED, WD_RELEASE, FIO_CLR_CNT, LP_LOW, TRANSFER_FAIL on pair `m` with record `x`. The model's choices and readings, not the spec's: the alive counts before the first frame (log 36), the clock of a field half without frames (log 66), and that LP_LOW and TRANSFER_FAIL are the event itself (log 10). -/
def Obligations.FieldWatchdogs : Prop :=
  ∀ (m : Fin 4) (s : State) (x : FPair), s.b.run.on = true → s.b.fpAt m = x →
    let now := s.clk.lattice
    let wd := Fld.FIO_WD_WD_T s.b.cfg m
    let to_ := fun c (y : FPair) => Turns c s (s.b.fpUpd m fun _ => y)
    let waits := fun t => x.refAt = some t ∧ x.wdExpired = false
    let sdue := ∃ t, x.sAt = some t ∧ x.swdExpired = false ∧ t + 100000 ≤ now
    let safe := fun k => if s.b.run.tileSet = 8 then false else bit (Fld.FIO_SAFE_SAFE s.b.cfg m) k
    let expires := Gives (.fieldWdExpired m) s fun u => OnlyLog { s.b with fp := u.b.fp } u.b ∧ u.clk = s.clk ∧ (∀ i : Fin 4, i ≠ m → u.b.fpAt i = s.b.fpAt i) ∧
      u.b.fpAt m = { x with wdExpired := true, ch := (u.b.fpAt m).ch } ∧
      ∀ k : Fin 16, let c := x.ch.get k
        let d := (u.b.fpAt m).ch.get k
        (fFunc c.cfg = .out → d = { c with cmd := safe k, sw := safe k && !c.off }) ∧ (fFunc c.cfg = .testSrc → d = { c with cmd := false, sw := false }) ∧
        (fFunc c.cfg ≠ .out → fFunc c.cfg ≠ .testSrc → d = c)
    ((∀ t, ¬waits t) → Turns (.fieldWdExpired m) s s.b) ∧
    (∀ t, waits t → x.failed = false → (now < t + 1000000 * wd → Turns (.fieldWdExpired m) s s.b) ∧ (t + 1000000 * wd ≤ now → expires)) ∧
    (∀ t, waits t → x.failed = true → (now < t + 980000 * wd → Turns (.fieldWdExpired m) s s.b) ∧ (t + 1020000 * wd ≤ now → expires) ∧
      (expires ∨ Turns (.fieldWdExpired m) s s.b)) ∧
    (¬sdue → to_ (.safetyWdExpired m) x) ∧
    (sdue → Gives (.safetyWdExpired m) s fun u => u = { s with b := { s.b with fp := u.b.fp } } ∧ (∀ i : Fin 4, i ≠ m → u.b.fpAt i = s.b.fpAt i) ∧
      u.b.fpAt m = { x with swdExpired := true, ch := (u.b.fpAt m).ch } ∧
      ∀ k : Fin 16, let c := x.ch.get k
        let d := (u.b.fpAt m).ch.get k
        (fFunc c.cfg = .brake → d = { c with cmd := false, sw := false }) ∧ (fFunc c.cfg ≠ .brake → d = c)) ∧
    to_ (.wdRelease m) { x with relPend := true } ∧
    to_ (.fioClrCnt m) { x with crcErr := 0, missed := 0 } ∧
    (∀ low, to_ (.lpLow m low) { x with lpLow := low }) ∧
    Gives (.transferFail m) s (fun u => u = { s with b := { s.b with fp := u.b.fp } } ∧ (∀ i : Fin 4, i ≠ m → u.b.fpAt i = s.b.fpAt i) ∧
      u.b.fpAt m = { x with
        failed := true, transferLow := true, fout := none, ch := (u.b.fpAt m).ch
        relRefused := x.relRefused || (x.fout.any (·.release) && x.wdExpired) } ∧
      ∀ k : Fin 16, (u.b.fpAt m).ch.get k = { x.ch.get k with sw := false, cmd := false })

/-- FIO_OUT_SET, FIO_OUT_CLR, FIELD_COMMAND_AT_HUB, INPUT_ACCEPTED, OVERLOAD, OVERTEMP, OPEN_LOAD, READBACK, FIO_DIAG_CLEAR on pair `m` with record `x`, channel `k` with record `c`. The model's choices and readings, not the spec's: that the row is the event itself (log 10). -/
def Obligations.FieldChannels : Prop :=
  ∀ (m : Fin 4) (k : Fin 16) (s : State) (x : FPair) (c : FCh), s.b.run.on = true → s.b.fpAt m = x → x.ch.get k = c →
    let frame := fun (u : State) => u = { s with b := { s.b with fp := u.b.fp } } ∧ ∀ i : Fin 4, i ≠ m → u.b.fpAt i = s.b.fpAt i
    let ch := fun i (d : FCh) => Gives i s fun u => frame u ∧ u.b.fpAt m = { x with ch := (u.b.fpAt m).ch } ∧ (u.b.fpAt m).ch.get k = d ∧ (∀ j : Fin 16, j ≠ k → (u.b.fpAt m).ch.get j = x.ch.get j)
    let hosted := fun (j : Fin 16) => Fld.FIO_CH_CFG_SRC s.b.cfg m j = 0
    let isOut := fFunc c.cfg = .out ∨ fFunc c.cfg = .brake ∨ fFunc c.cfg = .testSrc
    let olWatched := c.cmd = true ∧ bit c.par.toNat 29 = true ∧ (fFunc c.cfg = .out ∨ fFunc c.cfg = .brake)
    (∀ mask : BitVec 16, Gives (.fioOutSet m mask) s fun u => frame u ∧ u.b.fpAt m = { x with host := (u.b.fpAt m).host } ∧
      ∀ j : Fin 16, (mask.getLsbD j = true → hosted j → bit (u.b.fpAt m).host j = true) ∧ ((mask.getLsbD j = false ∨ ¬hosted j) → bit (u.b.fpAt m).host j = bit x.host j)) ∧
    (∀ mask : BitVec 16, Gives (.fioOutClr m mask) s fun u => frame u ∧ u.b.fpAt m = { x with host := (u.b.fpAt m).host } ∧
      ∀ j : Fin 16, (mask.getLsbD j = true → hosted j → bit (u.b.fpAt m).host j = false) ∧ ((mask.getLsbD j = false ∨ ¬hosted j) → bit (u.b.fpAt m).host j = bit x.host j)) ∧
    (∀ f, x.fly.find? (fun f => decide (f.ch = k.val)) = some f → spineServes s.b (pktField f.tile f.at_) = true → Gives (.fieldCommandAtHub m k) s fun u =>
      u = { s with b := { s.b with fp := u.b.fp, turns := spineServed { s.b with fp := u.b.fp } (pktField f.tile f.at_) } } ∧ (∀ i : Fin 4, i ≠ m → u.b.fpAt i = s.b.fpAt i) ∧
      u.b.fpAt m = { x with fly := x.fly.erase f, mbx := (u.b.fpAt m).mbx } ∧
      bit (u.b.fpAt m).mbx k = f.level ∧ ∀ j : Fin 16, j ≠ k → bit (u.b.fpAt m).mbx j = bit x.mbx j) ∧
    (∀ f, x.fly.find? (fun f => decide (f.ch = k.val)) = some f → spineServes s.b (pktField f.tile f.at_) = false → Turns (.fieldCommandAtHub m k) s s.b) ∧
    (x.fly.find? (fun f => decide (f.ch = k.val)) = none → Turns (.fieldCommandAtHub m k) s s.b) ∧
    (fFunc c.cfg ≠ .unused → ch (.inputAccepted m k) { c with acc := c.pin, valid := true, runLv := c.pin, run := fRun c.cfg c.par }) ∧
    (fFunc c.cfg = .unused → ch (.inputAccepted m k) c) ∧
    (c.sw = true → c.overload = false → ch (.overload m k) { c with overload := true, off := true, sw := false, limAt := none }) ∧
    ((c.sw = false ∨ c.overload = true) → ch (.overload m k) c) ∧
    (isOut → ch (.overtemp m k) { c with overtemp := true, off := true, sw := false, hot := true }) ∧
    (¬isOut → ch (.overtemp m k) c) ∧
    (olWatched → ch (.openLoad m k) { c with openLoad := true }) ∧
    (¬olWatched → ch (.openLoad m k) c) ∧
    (isOut → c.overload = false → c.overtemp = false → ch (.readback m k) { c with readback := true }) ∧
    ((¬isOut ∨ c.overload = true ∨ c.overtemp = true) → ch (.readback m k) c) ∧
    (∀ w : Word, ch (.fioDiagClear m k w) { c with
      xshort := c.xshort && !(w.getLsbD 5 && !c.dark)
      openLoad := c.openLoad && !(w.getLsbD 4 && !(c.lowCur && c.cmd && bit c.par.toNat 29 && (decide (fFunc c.cfg = .out) || decide (fFunc c.cfg = .brake))))
      overtemp := c.overtemp && !(w.getLsbD 3 && !c.hot), overload := c.overload && !(w.getLsbD 2 && !c.limit), readback := c.readback && !(w.getLsbD 1 && (c.acc == c.cmd))
      off := c.off && ((c.overtemp && !(w.getLsbD 3 && !c.hot)) || (c.overload && !(w.getLsbD 2 && !c.limit))) })

/-- SAFETY_EVALUATION: the record `y` that zone `z`, in use, gets from `x` (R514 to R516). -/
def Zones.decided (now : Nat) (b : Block) (z : Nat) (x y : Zone) : Prop :=
  let code := fun i => (zoneSrcs b z).getD i 0
  let reads := fun i => zoneSrc b now z (code i)
  let pair := Fld.SF_ZONE_CFG_PAIR b.cfg z
  let rst := Fld.SF_ZONE_CFG_RST_SRC b.cfg z
  let held := fun (p : Nat → Prop) => rst ≠ 0 ∧ chanValid b rst = true ∧ zoneSrc b now z rst = false ∧ ∃ r, x.rstHigh = some r ∧ p r
  let long := fun r => r + 100000000 ≤ now ∧ now ≤ r + 2000000000
  let asked := x.resetReg = true ∨ held long
  (y.healthy = true ↔ (∀ i, i < 4 → code i = 0 ∨ reads i = true) ∧ y.disc = false ∧ ∀ i, i < 4 → srcShort b (code i) = false) ∧
  (y.demand = true ↔ y.healthy = false ∨ (Fld.SF_ZONE_CFG_AUTO b.cfg z = false ∧ ¬asked ∧ x.demand = true)) ∧
  y.due = (if y.demand = x.demand then x.due else some (now + 125000, y.demand)) ∧ y.inForce = x.inForce ∧ y.resetReg = false ∧
  (y.disc = true ↔ pair = true ∧ (reads 0 = true ∨ reads 1 = true) ∧ (x.disc = true ∨ (reads 0 ≠ reads 1 ∧ x.diffAt.getD now + Fld.SF_ZONE_CFG_DISC_T b.cfg z * 1000000 ≤ now))) ∧
  y.diffAt = (if pair = true ∧ reads 0 ≠ reads 1 then some (x.diffAt.getD now) else none) ∧
  (∀ i, i < 4 → bit y.bits i = (decide (code i ≠ 0) && reads i)) ∧
  y.rstHigh = (if rst = 0 then x.rstHigh else if chanValid b rst = true ∧ zoneSrc b now z rst = true then some (x.rstHigh.getD now) else none) ∧
  (y.resetIgnored = true ↔ x.resetIgnored = true ∨ (asked ∧ y.healthy = false) ∨ held fun r => ¬long r)

/-- SAFETY_EVALUATION and the zones; ZONE_RESET on zone `z` with record `x`. The model's choices and readings, not the spec's: at which evaluation faults, reset pulses and readbacks are taken (log 32). -/
def Obligations.SafetyEvaluations : Prop :=
  ∀ (s : State), s.b.run.on = true →
    let now := s.clk.lattice
    (now % 125000 ≠ 0 → Turns .safetyEvaluation s s.b) ∧
    (s.b.marks.contains 400 = true → Turns .safetyEvaluation s s.b) ∧
    (now % 125000 = 0 → s.b.marks.contains 400 = false → s.b.sf.fault = true → Turns .safetyEvaluation s { s.b with marks := 400 :: s.b.marks }) ∧
    (now % 125000 = 0 → s.b.marks.contains 400 = false → s.b.sf.fault = false → Gives .safetyEvaluation s fun u =>
      u.clk = s.clk ∧ OnlyEngine { s.b with marks := 400 :: s.b.marks, sf := { s.b.sf with zones := u.b.sf.zones, rearm := u.b.sf.rearm, refDue := u.b.sf.refDue } } u.b ∧
      u.b.sf.refDue = s.b.sf.refDue.filter (fun r => decide (now ≤ r)) ∧
      (∀ m : Fin 4, (bit u.b.sf.rearm m = true → (s.b.fpAt m).swdExpired = true) ∧ ((s.b.fpAt m).swdExpired = true → bit s.b.sf.rearm m = true → bit u.b.sf.rearm m = true)) ∧
      (∀ z : Fin 16, (Fld.SF_ZONE_CFG_EN s.b.cfg z = false → u.b.zoneAt z = s.b.zoneAt z) ∧ (Fld.SF_ZONE_CFG_EN s.b.cfg z = true → Zones.decided now s.b z (s.b.zoneAt z) (u.b.zoneAt z))) ∧
      (∀ (t : Fin 8) (j : Fin 16), ((s.b.run.tileSet ≤ t.val ∨ slotTy s.b t j = .unused) → SameAxis s.b u.b t j) ∧
        (t.val < s.b.run.tileSet → slotTy s.b t j ≠ .unused → (∀ r, s.b.sf.refDue = some r → now ≤ r) →
          ∃ c, OnlyEngine { s.b with marks := c.marks, sf := { s.b.sf with zones := u.b.sf.zones } } c ∧ SameAxis s.b c t j ∧ SameAxis (axEval now (axNo t j) c) u.b t j))) ∧
    ∀ z : Fin 16, let x := s.b.zoneAt z
      (Fld.SF_ZONE_CFG_RST_SRC s.b.cfg z ≠ 0 → Turns (.zoneReset z) s s.b) ∧
      (Fld.SF_ZONE_CFG_RST_SRC s.b.cfg z = 0 → x.healthy = true → Turns (.zoneReset z) s (s.b.zoneUpd z fun _ => { x with resetReg := true })) ∧
      (Fld.SF_ZONE_CFG_RST_SRC s.b.cfg z = 0 → x.healthy = false → Turns (.zoneReset z) s (s.b.zoneUpd z fun _ => { x with resetIgnored := true }))

/-- SAFETY_DECISION_EFFECT, ENGINE_STALL, SAFETY_DIAG_CYCLE. The model's choices and readings, not the spec's: that ENGINE_STALL acts whenever it is commanded (log 32), and the FLT_CAUSE codes (log 33). -/
def Obligations.SafetyDecisions : Prop :=
  ∀ (s : State), s.b.run.on = true →
    let now := s.clk.lattice
    let faults := fun (c : Instr) (cause : Nat) => Gives c s fun u =>
      u.clk = s.clk ∧ OnlyEngine { s.b with sf := { s.b.sf with fault := true, cause := cause, faultAt := now } } u.b ∧
      ∀ (t : Fin 8) (j : Fin 16), t.val < s.b.run.tileSet → slotTy s.b t j ≠ .unused →
        (u.b.sfAxAt (axNo t j)).permit = false ∧ (u.b.sfAxAt (axNo t j)).brkCmd = false ∧ (u.b.sfAxAt (axNo t j)).grantAt = none ∧ (u.b.sfAxAt (axNo t j)).relReq = false ∧
        (isNative s.b t j = true → (u.b.natAt t j).gate = false ∧ (u.b.natAt t j).pwm = .off ∧
          (axDisabled s.b t j = false → (u.b.natAt t j).st = .sto ∧ (u.b.sfAxAt (axNo t j)).flt = true))
    let dueNow := fun z => ∃ e d, (s.b.zoneAt z).due = some (e, d) ∧ e ≤ now
    let inZone := fun (a z : Nat) => bit (Fld.SF_AX_CFG_ZONES s.b.cfg a) z = true
    (s.b.sf.fault = true → Turns .safetyDecisionEffect s s.b ∧ Turns .engineStall s s.b ∧ ∀ f, Turns (.safetyDiagCycle f) s s.b) ∧
    Turns (.safetyDiagCycle 0) s s.b ∧
    (s.b.sf.fault = false → faults .engineStall 1) ∧
    (∀ f : Fin 6, s.b.sf.fault = false → f ≠ 0 → faults (.safetyDiagCycle f) f) ∧
    (s.b.sf.fault = false → Gives .safetyDecisionEffect s fun u =>
      u.clk = s.clk ∧ OnlyEngine { s.b with sf := { s.b.sf with zones := u.b.sf.zones } } u.b ∧
      (∀ z : Fin 16, let x := s.b.zoneAt z
        (∀ e d, x.due = some (e, d) → e ≤ now → u.b.zoneAt z = { x with due := none, inForce := d }) ∧ (¬dueNow z → u.b.zoneAt z = x)) ∧
      (∀ (t : Fin 8) (j : Fin 16), let a := axNo t j
        let x := s.b.sfAxAt a
        let y := u.b.sfAxAt a
        ((s.b.run.tileSet ≤ t.val ∨ slotTy s.b t j = .unused) → SameAxis s.b u.b t j) ∧
        (t.val < s.b.run.tileSet → slotTy s.b t j ≠ .unused → (∀ z : Fin 16, dueNow z → ¬inZone a z) →
          (∀ e, x.grantAt = some e → e ≤ now →
            y = { x with permit := true, grantAt := none, stoTest := none, stoPass := some (x.stoPass.getD now), fault := y.fault } ∧
            (isNative s.b t j = true → (u.b.natAt t j).st = if (s.b.natAt t j).st = .sto then .disabled else (s.b.natAt t j).st)) ∧
          ((x.grantAt = none ∨ ∃ e, x.grantAt = some e ∧ now < e) → SameAxis s.b u.b t j)) ∧
        (∀ (z : Fin 16) e, (s.b.zoneAt z).due = some (e, true) → e ≤ now → (s.b.zoneAt z).inForce = false → (∀ z' : Fin 16, dueNow z' → inZone a z' → z' = z) → inZone a z →
          t.val < s.b.run.tileSet → isNative s.b t j = true → axDisabled s.b t j = false → x.react = none → x.stop = none → x.grantAt = none →
          (Fld.SF_ZONE_CFG_CAT s.b.cfg z = true → y.stop = some (now, false) ∧ y.permit = x.permit ∧ (u.b.natAt t j).st = (s.b.natAt t j).st) ∧
          (Fld.SF_ZONE_CFG_CAT s.b.cfg z = false → brakeOf s.b a = none → (u.b.natAt t j).st = .sto ∧ (u.b.natAt t j).gate = false ∧ y.permit = false ∧ (x.grace = none → y.flt = x.flt)) ∧
          (Fld.SF_ZONE_CFG_CAT s.b.cfg z = false → brakeOf s.b a ≠ none → x.brkCmd = true → 0 < Fld.SF_AX_TIME_BRK_ENG_T s.b.cfg a →
            (u.b.natAt t j).st = .faultHold ∧ (u.b.natAt t j).hold ≠ none ∧ y.brkCmd = false ∧ y.rmAt = some (now + Fld.SF_AX_TIME_BRK_ENG_T s.b.cfg a * 1000000) ∧ y.permit = x.permit ∧ y.flt = x.flt))))

/-- ACK, STO_TEST, BT_START, SF_VERIFY, STO_DUE, BT_DUE, BRAKE_OPEN on the axis of slot `j` of tile `t` with safety record `x`. The model's choices and readings, not the spec's: at which evaluation a request is taken (log 32), a second BT_START (log 67), and the reading of the brake (log 34). -/
def Obligations.SafetyRequests : Prop :=
  ∀ (t : Fin 8) (j : Fin 16) (s : State) (x : SfAx), s.b.run.on = true → s.b.sfAxAt (axNo t j) = x →
    let now := s.clk.lattice
    let a := axNo t j
    let to_ := fun c (y : SfAx) => Turns c s (s.b.sfAxUpd a fun _ => y)
    let free := (isNative s.b t j = true → tripped (s.b.natAt t j) = false) ∧ qdFaulted s.b t j = false ∧ srcBars s.b t j = false ∧
      ∀ m k, brakeOf s.b a = some (m, k) → (s.b.fpAt m).diag.getD k 0 / 2 = 0
    (free → to_ (.ack t j) { x with flt := false, cause := 0 }) ∧
    (¬free → to_ (.ack t j) { x with ackRefused := true }) ∧
    (∀ i : Fin 4, j.val = i.val →
      let ok := isNative s.b t j = true ∧ (s.b.natAt t j).st = .disabled ∧ (s.b.natAt t j).wait = none ∧ x.permit = true ∧ x.stoTest = none
      let fit := slotTy s.b t j = .n3ph ∧ brakeOf s.b a ≠ none ∧ (s.b.natAt t j).st = .enabled ∧ (s.b.genAt t j).st = .idle ∧
        (∀ z : Fin 16, bit (Fld.SF_AX_CFG_ZONES s.b.cfg a) z = true → Fld.SF_ZONE_CFG_EN s.b.cfg z = true → (s.b.zoneAt z).inForce = false) ∧ x.grace = none ∧ x.flt = false
      (ok → to_ (.stoTest t i) { x with stoTest := some now }) ∧ (¬ok → Turns (.stoTest t i) s s.b) ∧
      (x.bt.st ≠ .idle → Turns (.btStart t i) s s.b) ∧
      (x.bt.st = .idle → fit → to_ (.btStart t i) { x with bt := { x.bt with st := .requested, reg := now } }) ∧
      (x.bt.st = .idle → ¬fit → to_ (.btStart t i) { x with bt := { x.bt with result := 3 } })) ∧
    (∀ v : Word, v.toNat = parCrc s.b.cfg → Turns (.sfVerify v) s { s.b with nv := { s.b.nv with keys := { s.b.nv.keys with verified := v.toNat } }, sf := { s.b.sf with unverified := false } }) ∧
    (∀ v : Word, v.toNat ≠ parCrc s.b.cfg → Turns (.sfVerify v) s { s.b with sf := { s.b.sf with verifyErr := true } }) ∧
    (let due := ∃ p, x.stoPass = some p ∧ Fld.SF_AX_STO_STO_INT s.b.cfg a ≠ 0 ∧ p + Fld.SF_AX_STO_STO_INT s.b.cfg a * 3600000000000 ≤ now;
      (due → x.stoDue = false → to_ (.stoDue t j) { x with stoDue := true }) ∧ (¬due → x.stoDue = true → to_ (.stoDue t j) { x with stoDue := false }) ∧
      ((due ↔ x.stoDue = true) → Turns (.stoDue t j) s s.b)) ∧
    (let due := ∃ p, x.bt.pass = some p ∧ Fld.SF_AX_BT_LIM_BT_INT s.b.cfg a ≠ 0 ∧ p + Fld.SF_AX_BT_LIM_BT_INT s.b.cfg a * 3600000000000 ≤ now;
      (due → x.btDue = false → to_ (.btDue t j) { x with btDue := true }) ∧ (¬due → x.btDue = true → to_ (.btDue t j) { x with btDue := false }) ∧
      ((due ↔ x.btDue = true) → Turns (.btDue t j) s s.b)) ∧
    (let opened := x.brkCmd = true ∧ ∃ r, x.relAt = some r ∧ r + Fld.SF_AX_GRACE_BRK_REL_T s.b.cfg a * 1000000 ≤ now;
      (opened → to_ (.brakeOpen t j) { x with brkOpen := true }) ∧ (¬opened → to_ (.brakeOpen t j) x))

/-- What a fault reaction that begins at `now` for cause `cause`, not a zone, leaves of the axis of slot `j` of tile `t`, which was not disabled and had no reaction (R207, R520, R529). -/
def Safety.reacts (now cause : Nat) (b c : Block) (t j : Nat) : Prop :=
  let a := axNo t j
  let x := b.sfAxAt a
  let y := c.sfAxAt a
  let eng := Fld.SF_AX_TIME_BRK_ENG_T b.cfg a * 1000000
  let off := (c.natAt t j).st = .sto ∧ (c.natAt t j).gate = false ∧ (c.natAt t j).hold = none ∧ y.permit = false ∧ y.react = none
  y.flt = true ∧ y.cause = (if x.flt = true then x.cause else cause) ∧ y.stop = none ∧ y.bt.st = .idle ∧
  (isNative b t j = true →
    (brakeOf b a = none → off) ∧
    (brakeOf b a ≠ none → x.brkCmd = true → eng = 0 → off ∧ y.brkCmd = false) ∧
    (brakeOf b a ≠ none → x.brkCmd = true → 0 < eng → (c.natAt t j).st = .faultHold ∧ (c.natAt t j).hold ≠ none ∧ y.brkCmd = false ∧ y.engAt = some now ∧ y.rmAt = some (now + eng) ∧
      y.react = some now ∧ y.permit = x.permit))

/-- STOP_TIMEOUT, GRACE_EXPIRY on the axis of slot `i` of tile `t`, BRAKE_TEST_STEP and FAULT_HOLD_END on a native axis, with safety record `x`. The model's choices and readings, not the spec's: the FLT_CAUSE codes and ticks of removal (log 33), and the failed brake test (log 34). -/
def Obligations.SafetyTimers : Prop :=
  ∀ (t : Fin 8) (i : Fin 16) (s : State) (x : SfAx), s.b.run.on = true → s.b.sfAxAt (axNo t i) = x →
    let now := s.clk.lattice
    let a := axNo t i
    let live := slotTy s.b t i ≠ .unused ∧ axDisabled s.b t i = false ∧ x.react = none
    let idle := fun (c : Instr) => Turns c s s.b
    let acts := fun (c : Instr) (P : State → Prop) => Gives c s fun u => u.clk = s.clk ∧ Beside a s.b u.b ∧ P u
    let fast := (Fld.SF_AX_GRACE_V_GRACE_V s.b.cfg a : Int) * 2 ^ 32 < (axSpeed s.b t i).natAbs
    let stopEnd := fun t0 => t0 + Fld.SF_AX_TIME_STOP_T s.b.cfg a * 1000000
    ((now % 125000 ≠ 0 ∨ s.b.sf.fault = true) → idle (.stopTimeout t i) ∧ idle (.graceExpiry t i) ∧ ∀ j : Fin 4, idle (.brakeTestStep t j)) ∧
    (now % 125000 = 0 → s.b.sf.fault = false →
      (x.stop = none → idle (.stopTimeout t i)) ∧
      (∀ t0 g, x.stop = some (t0, g) → now < stopEnd t0 → ((s.b.genAt t i).st ≠ .idle ∨ now ≤ t0) → idle (.stopTimeout t i)) ∧
      (∀ t0 g, x.stop = some (t0, g) → now < stopEnd t0 → t0 < now → (s.b.genAt t i).st = .idle → live → acts (.stopTimeout t i) fun u =>
        (u.b.sfAxAt a).stopTimeout = x.stopTimeout ∧ (u.b.sfAxAt a).stop = none ∧ (g = true → Safety.reacts now 4 s.b u.b t i)) ∧
      (∀ t0 g, x.stop = some (t0, g) → stopEnd t0 ≤ now → live → acts (.stopTimeout t i) fun u =>
        (u.b.sfAxAt a).stopTimeout = true ∧ Safety.reacts now (if g = true then 4 else 2) s.b u.b t i) ∧
      (∀ t0 g, x.stop = some (t0, g) → stopEnd t0 ≤ now → ¬live → acts (.stopTimeout t i) fun u => (u.b.sfAxAt a).stopTimeout = true ∧ (u.b.sfAxAt a).flt = x.flt) ∧
      (x.grace = none → (∀ r c, x.graceReg = some (r, c) → now ≤ r) → idle (.graceExpiry t i)) ∧
      (∀ r c, x.grace = none → x.graceReg = some (r, c) → r < now → live → ¬fast → acts (.graceExpiry t i) fun u => let y := u.b.sfAxAt a
        y.grace = some (now, c) ∧ y.graceReg = none ∧ (∃ e, y.graceExp = some e ∧ now ≤ e ∧ e ≤ now + Fld.SF_AX_GRACE_GRACE_T s.b.cfg a * 1000000000 ∧
          (∀ d, stoDueAt s.b a = some d → e ≤ max now d) ∧ (∀ d, btDueAt s.b a = some d → e ≤ max now d)) ∧
        (∀ k, u.b.natAt t k = s.b.natAt t k) ∧ y = { x with grace := y.grace, graceReg := none, graceExp := y.graceExp }) ∧
      (∀ g, x.grace = some g → fast → live → acts (.graceExpiry t i) fun u => Safety.reacts now 3 s.b u.b t i) ∧
      (∀ g, x.grace = some g → ¬fast → (∀ e, x.graceExp = some e → now ≤ e) → idle (.graceExpiry t i)) ∧
      (∀ g e, x.grace = some g → ¬fast → x.graceExp = some e → e < now → live → x.stop = none → acts (.graceExpiry t i) fun u =>
        (slotTy s.b t i = .pulse → Safety.reacts now 4 s.b u.b t i) ∧
        (slotTy s.b t i ≠ .pulse → (u.b.sfAxAt a).stop = some (now, true) ∧ (u.b.sfAxAt a).permit = x.permit ∧ (u.b.sfAxAt a).grace = x.grace ∧ (u.b.sfAxAt a).flt = x.flt))) ∧
    (∀ j : Fin 4, i.val = j.val → isNative s.b t i = true →
      let eng := Fld.SF_AX_TIME_BRK_ENG_T s.b.cfg a * 1000000
      let btT := Fld.SF_AX_BT_BT_T s.b.cfg a * 1000000
      let amps := (Fld.SF_AX_BT_BT_I s.b.cfg a : Int) * 32768
      let moved := (Fld.SF_AX_BT_LIM_BT_TOL s.b.cfg a : Int) * 65536 < (btPos s.b t j - x.bt.p0).natAbs
      (now % 125000 = 0 → s.b.sf.fault = false →
        (x.bt.st = .idle → idle (.brakeTestStep t j)) ∧
        (x.bt.st = .requested → now ≤ x.bt.reg → idle (.brakeTestStep t j)) ∧
        (x.bt.st = .requested → x.bt.reg < now → x.stop ≠ none → acts (.brakeTestStep t j) fun u => (u.b.natAt t j) = s.b.natAt t j ∧
          u.b.sfAxAt a = { x with bt := { x.bt with st := .idle, result := 4 } }) ∧
        (x.bt.st = .requested → x.bt.reg < now → x.stop = none → acts (.brakeTestStep t j) fun u => let y := u.b.sfAxAt a
          ∃ h, u.b.natAt t j = { s.b.natAt t j with hold := some h } ∧ (∀ h0, (s.b.natAt t j).hold = some h0 → h = h0) ∧
            y = { x with brkCmd := false, brkOpen := false, relAt := none, engAt := some now, bt := { x.bt with st := .engage, e1 := now, result := 5, qh := h.2 } }) ∧
        (x.bt.st = .engage → now < x.bt.e1 + eng → idle (.brakeTestStep t j)) ∧
        (x.bt.st = .engage → x.bt.e1 + eng ≤ now → acts (.brakeTestStep t j) fun u => u.b.sfAxAt a = { x with bt := { x.bt with st := .pos, p0 := btPos s.b t j } } ∧
          u.b.natAt t j = { s.b.natAt t j with hold := (s.b.natAt t j).hold.map fun h => (h.1, word32 (x.bt.qh.toInt + amps)) }) ∧
        (x.bt.st = .pos → ¬moved → now < x.bt.e1 + eng + btT → idle (.brakeTestStep t j)) ∧
        (x.bt.st = .pos → ¬moved → x.bt.e1 + eng + btT ≤ now → acts (.brakeTestStep t j) fun u => u.b.sfAxAt a = { x with bt := { x.bt with st := .neg } } ∧
          u.b.natAt t j = { s.b.natAt t j with hold := (s.b.natAt t j).hold.map fun h => (h.1, word32 (x.bt.qh.toInt - amps)) }) ∧
        (x.bt.st = .neg → ¬moved → now < x.bt.e1 + eng + btT + btT → idle (.brakeTestStep t j)) ∧
        (x.bt.st = .neg → x.bt.e1 + eng + btT + btT ≤ now → acts (.brakeTestStep t j) fun u =>
          u.b.sfAxAt a = { x with bt := { x.bt with st := .idle, result := 1, pass := some now }, btDue := false } ∧ u.b.natAt t j = { s.b.natAt t j with hold := none }) ∧
        ((x.bt.st = .pos ∨ (x.bt.st = .neg ∧ now < x.bt.e1 + eng + btT + btT)) → moved → acts (.brakeTestStep t j) fun u => let y := u.b.sfAxAt a
          u.b.sf.btFailed = true ∧ y.bt.st = .idle ∧ y.bt.result = 2 ∧
          (Fld.SF_AX_CFG_GRACE_BT s.b.cfg a = true → y.grace = some (now, 8) ∧ u.b.natAt t j = { s.b.natAt t j with hold := none } ∧ y.permit = x.permit ∧ y.flt = x.flt) ∧
          (Fld.SF_AX_CFG_GRACE_BT s.b.cfg a = false → live → Safety.reacts now 8 s.b u.b t i ∧
            (∀ e, x.brkCmd = false → x.engAt = some e → brakeOf s.b a ≠ none →
              (e + eng ≤ now → (u.b.natAt t j).st = .sto ∧ (u.b.natAt t j).gate = false ∧ y.permit = false) ∧ (now < e + eng → (u.b.natAt t j).st = .faultHold ∧ y.rmAt = some (e + eng)))))) ∧
      (tileLive s.b t = false → idle (.faultHoldEnd t j)) ∧
      (tileLive s.b t = true → (∀ e, x.rmAt = some e → now < e) → idle (.faultHoldEnd t j)) ∧
      (∀ e, tileLive s.b t = true → x.rmAt = some e → e ≤ now → acts (.faultHoldEnd t j) fun u =>
        (u.b.sfAxAt a).permit = false ∧ (u.b.sfAxAt a).rmAt = none ∧ (u.b.natAt t j).gate = false ∧ (u.b.natAt t j).pwm = .off ∧
        (s.b.genStuck.contains (4 * t.val + j.val) = true → u.b.sf.stuck = true) ∧
        (s.b.genStuck.contains (4 * t.val + j.val) = false → x.permit = true → (u.b.sfAxAt a).stoPass = some now ∧ (u.b.sfAxAt a).stoDue = false) ∧
        ((s.b.natAt t j).st = .faultHold → (u.b.natAt t j).st = .sto ∧ (u.b.natAt t j).hold = none ∧ (u.b.sfAxAt a).react = none) ∧
        ((s.b.natAt t j).st ≠ .faultHold → (u.b.natAt t j).st = (s.b.natAt t j).st ∧ (u.b.sfAxAt a).react = x.react)))

/-- SAFETY_PDU_RX: what a PDU `p` registered at `r` makes of the record `x` of connection `c`, which is in use (R540, R542). -/
def Safety.checked (b : Block) (c r : Nat) (p : List Byte) (x y : Conn) : Prop :=
  let wt := Fld.SF_CONN_WT_W_T b.cfg c * 1000
  let ok := p.length = 20 ∧ crc32c (leBytes 4 (Fld.SF_CONN_UID_UID b.cfg c) ++ p.take 16) = leAt p 16 4 ∧ leAt p 0 1 = 1 ∧ leAt p 2 2 = c
  let seq := leAt p 4 4
  let d := (seq + 2 ^ 32 - x.seq) % 2 ^ 32
  let inTime := ∃ m ∈ x.sent, m.1 = leAt p 8 4 ∧ r ≤ m.2 + wt
  let pass := ok ∧ ¬(x.st = .starting ∧ x.base = false)
  let fails := fun (y0 : Conn) => { y0 with st := .starting, base := false, runD1 := 0, data := 0, accAt := none }
  (¬ok → y = { x with crcErr := min 65535 (x.crcErr + 1) }) ∧
  (ok → x.st = .starting → x.base = false → y = { x with base := true, seq := seq, runD1 := 0 }) ∧
  (pass → x.st = .run → d = 0 → y = { x with rep := min 65535 (x.rep + 1) }) ∧
  (pass → x.st = .starting → d = 0 → y = fails { x with rep := min 65535 (x.rep + 1) }) ∧
  (pass → x.st = .starting → 2 ≤ d → d ≤ 3 → y = fails x) ∧
  (pass → 3 < d → y = fails { x with seqErr := min 255 (x.seqErr + 1) }) ∧
  (pass → (d = 1 ∨ (x.st = .run ∧ 1 ≤ d ∧ d ≤ 3)) → ¬inTime → y = { x with late := min 65535 (x.late + 1) }) ∧
  (pass → (d = 1 ∨ (x.st = .run ∧ 1 ≤ d ∧ d ≤ 3)) → inTime → y = { x with
    seq := seq, accAt := some r, data := if (leAt p 1 1) % 2 = 1 then 0 else BitVec.ofNat 32 (leAt p 12 4)
    runD1 := min 2 (x.runD1 + 1), st := if 1 ≤ x.runD1 then .run else x.st })

/-- SAFETY_PDU_RX, SAFETY_CONN_EXPIRY, SAFETY_PDU_SEND on connection `c` with record `x`. The model's choices and readings, not the spec's: the first SEQ 1 and the restart of the run in STARTING (log 35), and an expiry at the tick of an evaluation (log 67). -/
def Obligations.SafetyConnections : Prop :=
  ∀ (c : Fin 48) (s : State) (x : Conn), s.b.run.on = true → s.b.connAt c = x →
    let now := s.clk.lattice
    let en := Fld.SF_CONN_CFG_EN s.b.cfg c
    let wt := Fld.SF_CONN_WT_W_T s.b.cfg c * 1000
    let frame := fun (u : State) => u = { s with b := { s.b with sf := { s.b.sf with conns := u.b.sf.conns } } } ∧ ∀ d : Fin 48, d ≠ c → u.b.connAt d = s.b.connAt d
    let rx := fun (P : Conn → Prop) => Gives (.safetyPduRx c) s fun u => frame u ∧ P (u.b.connAt c)
    let begun : Conn := { x with st := .starting, base := false, runD1 := 0, data := 0, accAt := none }
    (en = false → x.st = .off → rx fun y => y = { x with rx := [] }) ∧
    (en = false → x.st ≠ .off → rx fun y => y = { x with st := .off, base := false, runD1 := 0, data := 0, accAt := none, rx := [] }) ∧
    (en = true → rx fun y => ∃ h : Nat → Conn, h 0 = { (if x.st = .off then begun else x) with rx := [] } ∧ y = h x.rx.length ∧
      ∀ k (hk : k < x.rx.length), Safety.checked s.b c (x.rx[k]).1 (x.rx[k]).2 (h k) (h (k + 1))) ∧
    (let due := x.st ≠ .off ∧ ∃ r, x.accAt = some r ∧ r + wt ≤ now;
      (due → Gives (.safetyConnExpiry c) s fun u => frame u ∧ u.b.connAt c = begun) ∧
      (¬due → Gives (.safetyConnExpiry c) s fun u => frame u ∧ u.b.connAt c = x)) ∧
    (let k := Fld.SF_CONN_CFG_SESSION s.b.cfg c
      let due := en = true ∧ Fld.SF_CONN_CFG_PATH s.b.cfg c = true ∧ hasRoles s.b k roleSafety = true ∧ x.sendAt + Fld.SF_CONN_SEND_SEND_P s.b.cfg c * 1000000 ≤ now
      let z := s.b.sessAt k
      (¬due → Turns (.safetyPduSend c) s s.b) ∧
      (due → z.txCtr + 1 < 2 ^ 32 → Gives (.safetyPduSend c) s fun u => let y := u.b.connAt c
        let q := match x.sent.head? with
          | some m => (m.1 + 1) % 2 ^ 32
          | none => 1
        let pdu := leBytes 1 1 ++ leBytes 1 (if x.st ≠ .run ∨ s.b.sf.fault = true then 1 else 0) ++ leBytes 2 c ++ leBytes 4 q ++ leBytes 4 x.seq ++ leBytes 4 (connTxData s.b c)
        u.clk = s.clk ∧ u.b = { s.b with sf := { s.b.sf with conns := u.b.sf.conns }, sess := u.b.sess, hp := u.b.hp, draws := u.b.draws } ∧ (∀ d : Fin 48, d ≠ c → u.b.connAt d = s.b.connAt d) ∧
        y.pdu = pdu ++ leBytes 4 (crc32c (leBytes 4 (Fld.SF_CONN_UID_UID s.b.cfg c) ++ pdu)) ∧ y.sendAt = now ∧
        y.sent = (q, now) :: x.sent.filter (fun m => decide (m.1 = q) || decide (now ≤ m.2 + wt)) ∧
        y = { (if x.st = .off then begun else x) with pdu := y.pdu, sendAt := now, sent := y.sent } ∧
        u.b.sessAt k = { z with txCtr := z.txCtr + 1 } ∧
        (z.port ≠ 2 ∨ (s.b.hpAt z.port).tx.length < 8 → ∃ m, u.b.hpAt z.port = { s.b.hpAt z.port with tx := (s.b.hpAt z.port).tx ++ [(z.src, m)] } ∧ m.length = 52 ∧
          m.take 16 = msgHead 6 k 20 (z.txCtr + 1))))

/-- STAGING_WRITE, DISCARD, ABORT, STORE of session `k`, and STORE_DONE; `m` is the commit engine. The model's choices and readings, not the spec's: the status REFUSED of a tile under test (log 31), CM_RESULT.ITEM (log 26), and the result of a command row (log 51). -/
def Obligations.Staging : Prop :=
  ∀ (k : Fin 8) (s : State) (m : Commit), s.b.run.on = true → s.b.cm = m →
    let now := s.clk.lattice
    let mine := m.ph = .idle ∧ (m.owner = none ∨ m.owner = some k.val)
    let own := m.ph = .idle ∧ m.owner = some k.val
    let may := fun r => hasRoles s.b k r = true
    let unpowered := fun (a : Nat) => 0x10000000 ≤ a ∧ a < 0x18000000 ∧ s.b.run.tileSet ≤ (a - 0x10000000) / 0x1000000
    let tested := fun (a : Nat) => 0x10000000 ≤ a ∧ a < 0x18000000 ∧ (s.b.hl.st.tile = some ((a - 0x10000000) / 0x1000000) ∨ s.b.hl.st.resume = some ((a - 0x10000000) / 0x1000000))
    let last := fun (u : State) (op : Nat) => u.clk = s.clk ∧ u.b.sess = (s.b.sessUpd k fun x => { x with last := { op := op, status := 0, data := [] }, lastWait := .none }).sess
    let worn := fun (u : State) => OnlyWear { s.b with sess := u.b.sess, storeSt := u.b.storeSt, storeOp := u.b.storeOp, nv := { s.b.nv with setA := u.b.nv.setA, setB := u.b.nv.setB } } u.b
    (∀ (a : Nat) (v : Word), a % 4 ≠ 0 → Answers (.stagingWrite k a v) s k 3 2 m) ∧
    (∀ (a : Nat) (v : Word), a % 4 = 0 → (regAt a = none ∨ unpowered a) → Answers (.stagingWrite k a v) s k 3 3 m) ∧
    (∀ (a : Nat) (v : Word) (r : RegId) (ix : List Nat), a % 4 = 0 → regAt a = some (r, ix) → ¬unpowered a →
      let c := Instr.stagingWrite k a v
      let listed := m.staged.any fun e => decide (e.1 = a)
      (tested a → Answers c s k 3 5 m) ∧
      (sgMask r = 0 → Answers c s k 3 5 m) ∧
      (¬tested a → sgMask r ≠ 0 → ¬may (stageRole a) → Answers c s k 3 4 m) ∧
      (¬tested a → sgMask r ≠ 0 → may (stageRole a) → ¬mine → Answers c s k 3 0x87 m) ∧
      (¬tested a → sgMask r ≠ 0 → may (stageRole a) → mine → listed = false → 4096 ≤ m.staged.length → Answers c s k 3 0x88 m) ∧
      (¬tested a → sgMask r ≠ 0 → may (stageRole a) → mine → listed = false → m.staged.length < 4096 → Answers c s k 3 0 { m with owner := some k, staged := m.staged ++ [(a, v)] }) ∧
      (¬tested a → sgMask r ≠ 0 → may (stageRole a) → mine → listed = true → Answers c s k 3 0 { m with owner := some k, staged := m.staged.map fun e => if e.1 = a then (a, v) else e })) ∧
    (¬may 4 → Answers (.discard k) s k 2 4 m ∧ Answers (.abort k) s k 2 4 m ∧ Answers (.store k) s k 5 4 m) ∧
    (may 4 → ¬own → Answers (.discard k) s k 2 5 m) ∧
    (may 4 → own → Answers (.discard k) s k 2 0 { m with owner := none, staged := [], image := none, ph := .idle, listed := [], rings := [], dies := 0, prepared := 0 }) ∧
    (may 4 → (m.ph = .idle ∨ (m.ph = .go ∧ now + 10000 < m.apply)) → Answers (.abort k) s k 2 0 m) ∧
    (may 4 → (m.ph = .accepted ∨ m.ph = .go) → m.apply ≤ now + 10000 → Answers (.abort k) s k 2 5 m) ∧
    (may 4 → (m.ph = .checking ∨ (m.ph = .accepted ∧ now + 10000 < m.apply)) → Gives (.abort k) s fun u => last u 2 ∧ Unstaged u.b.cm ∧ u.b.cm.code = 0x1E ∧
      u.b = { s.b with sess := u.b.sess, cm := u.b.cm, net := { s.b.net with next := none }, draws := s.b.draws + 1, paceChanging := u.b.paceChanging, paceEnd := u.b.paceEnd } ∧ (m.rise = false → u.b.paceChanging = s.b.paceChanging)) ∧
    (may 4 → s.b.storeOp ≠ none → Turns (.store k) s ({ s.b with storeSt := 3 }.sessUpd k fun x => { x with last := { op := 5, status := 0, data := [] }, lastWait := .none })) ∧
    (may 4 → s.b.storeOp = none → s.b.pw.pfWarn = true → Turns (.store k) s ({ s.b with storeSt := 2 }.sessUpd k fun x => { x with last := { op := 5, status := 0, data := [] }, lastWait := .none })) ∧
    (may 4 → s.b.storeOp = none → s.b.pw.pfWarn = false → Gives (.store k) s fun u => last u 5 ∧ worn u ∧
      (let tgt := if newestCopy s.b = some 0 then 1 else 0;
      u.b.storeSt = 1 ∧ copyAt u.b tgt = { copyAt s.b tgt with done := false } ∧ copyAt u.b (1 - tgt) = copyAt s.b (1 - tgt) ∧
        ∃ o, u.b.storeOp = some o ∧ o.copy = tgt ∧ o.at_ = now ∧ o.hadDone = (copyAt s.b tgt).done ∧ o.snap.tag = copyTag s.b o.snap ∧ o.snap.done = true ∧ o.snap.id = s.b.run.id ∧ o.snap.seq = ((copyAt s.b (1 - tgt)).seq + 1) % 2 ^ 32 ∧
          o.snap.cfg = paramWords s.b.cfg ∧ o.snap.mem = persistBytes s.b)) ∧
    (NoneWaits s.b → s.b.storeOp = none → Turns .storeDone s s.b) ∧
    (∀ o, NoneWaits s.b → s.b.storeOp = some o → (o.copy = 0 ∨ o.copy = 1) → Gives .storeDone s fun u =>
      u.clk = s.clk ∧ worn u ∧ u.b.sess = s.b.sess ∧ u.b.storeOp = none ∧ u.b.storeSt = 0 ∧ copyAt u.b o.copy = o.snap ∧ copyAt u.b (1 - o.copy) = copyAt s.b (1 - o.copy))

/-- COMMIT, COMMIT_CHECKS_DONE, DIE_PREPARED, COMMIT_DECISION, COMMIT_APPLY; `m` is the commit engine. The model's choices and readings, not the spec's: CM_RESULT.ITEM and DETAIL (log 26) and the corners of the procedure (logs 28, 55 and 57). -/
def Obligations.CommitPath : Prop :=
  ∀ (s : State) (m : Commit), s.b.run.on = true → s.b.cm = m →
    let now := s.clk.lattice
    let rejected := fun (u : State) => u.clk = s.clk ∧ Unstaged u.b.cm ∧ (m.rise = false → u.b.paceChanging = s.b.paceChanging) ∧
      u.b = { s.b with cm := u.b.cm, net := { s.b.net with next := none }, draws := s.b.draws + 1, paceChanging := u.b.paceChanging, paceEnd := u.b.paceEnd }
    let rejects := fun (c : Instr) (code : Nat) => Gives c s fun u => rejected u ∧ u.b.cm.code = code
    let busy := fun (k : Nat) => m.ph ≠ .idle ∨ (m.owner ≠ none ∧ m.owner ≠ some k)
    let served := decide (s.b.nv.life = .owned) || decide (s.b.nv.life = .fieldService)
    (∀ (k : Fin 8) asap, ¬busy k → hasRoles s.b k 4 = false → rejects (.commit k asap) 6) ∧
    (∀ (k : Fin 8) asap, busy k → Gives (.commit k asap) s fun u => u.clk = s.clk ∧ u.b = { s.b with cm := { m with code := 7, tile := u.b.cm.tile, detail := u.b.cm.detail, item := 0 }, draws := s.b.draws + 1 }) ∧
    (∀ (k : Fin 8) asap, ¬busy k → hasRoles s.b k 4 = true → Turns (.commit k asap) s { s.b with cm := { m with
      owner := some k, ph := .checking, asap := asap, regAt := now, named := (tabGet 0 s.b.cfg (regAddr .CM_APPLY_LO [])).toNat + 2 ^ 32 * (tabGet 0 s.b.cfg (regAddr .CM_APPLY_HI [])).toNat } }) ∧
    (NoneWaits s.b → m.ph ≠ .checking → Turns .commitChecksDone s s.b) ∧
    (NoneWaits s.b → m.ph = .checking → m.image = none → served = false → rejects .commitChecksDone 5) ∧
    (NoneWaits s.b → m.ph = .checking → m.image = none → served = true → hasRoles s.b (m.owner.getD 0) 4 = false → rejects .commitChecksDone 6) ∧
    (NoneWaits s.b → m.ph = .checking → Gives .commitChecksDone s fun u => rejected u ∨
       (u.clk = s.clk ∧ u.b.cm.ph = .accepted ∧ u.b.cm.code = 0 ∧ u.b.cm.acceptAt = now ∧ u.b.cm.staged = m.staged ∧ u.b.cm.image = m.image ∧ u.b.cm.owner = m.owner ∧ u.b.cm.prepared = 0 ∧ u.b.cm.dies = diesOf s.b ∧
        u.b = { s.b with cfg := u.b.cfg, cm := u.b.cm, net := { s.b.net with next := u.b.net.next }, bl := u.b.bl, draws := s.b.draws + 1, paceChanging := u.b.paceChanging } ∧
        (if m.image = none then 20000 else 100000000) + now ≤ u.b.cm.apply ∧ (m.asap = false → u.b.cm.apply = m.named / 10 * 10) ∧
        (m.asap = true → modeChanges s.b (candidate s.b) = false → s.b.paceNow ≤ targetPace s.b → u.b.cm.apply = now + if m.image = none then 20000 else 100000000) ∧
        (modeChanges s.b (candidate s.b) = true → u.b.net.next = some (Fld.BL_MODE_MODE (candidate s.b).cfg, u.b.cm.apply) ∧ ∀ p : Fin 12, (u.b.blAt p).mack = false) ∧
        (modeChanges s.b (candidate s.b) = false → u.b.net.next = s.b.net.next ∧ u.b.bl = s.b.bl) ∧
        (targetPace s.b < s.b.paceNow → now + 2000000 ≤ u.b.cm.apply ∧ (u.b.cm.apply = now + 2000000 → u.b.paceChanging = true)) ∧ (s.b.paceNow ≤ targetPace s.b → u.b.paceChanging = s.b.paceChanging) ∧
        (∀ n ∈ u.b.cm.listed, axIdle s.b (n / 16) (n % 16) = true) ∧ u.b.cm.listed = listedAxes s.b (candidate s.b) (codeTiles s.b) ∧ (∀ t ∈ ringTiles s.b (candidate s.b), aqIdle s.b t = true) ∧
        served = true ∧ hasRoles s.b (m.owner.getD 0) 4 = true ∧
        tabGet 0 u.b.cfg (regAddr .CM_APPLY_LO []) = BitVec.ofNat 32 u.b.cm.apply ∧ tabGet 0 u.b.cfg (regAddr .CM_APPLY_HI []) = BitVec.ofNat 32 (u.b.cm.apply / 2 ^ 32) ∧
        (∀ a, a ≠ regAddr .CM_APPLY_LO [] → a ≠ regAddr .CM_APPLY_HI [] → ∀ d, tabGet d u.b.cfg a = tabGet d s.b.cfg a))) ∧
    (∀ d : Fin 9, let ready := m.ph = .accepted ∧ now + 10000 < m.apply ∧ bit m.dies d = true ∧ bit m.prepared d = false ∧ ¬(d.val = 8 ∧ macksMissing s.b = true) ∧ s.b.hl.st.tile ≠ some d.val ∧ s.b.hl.st.resume ≠ some d.val;
      (ready → Turns (.diePrepared d) s { s.b with cm := { m with prepared := m.prepared + 2 ^ d.val } }) ∧ (¬ready → Turns (.diePrepared d) s s.b)) ∧
    (¬(m.ph = .accepted ∧ m.apply ≤ now + 10000) → Turns .commitDecision s s.b) ∧
    (m.ph = .accepted → m.apply ≤ now + 10000 → m.prepared = m.dies → Turns .commitDecision s { s.b with cm := { m with ph := .go } }) ∧
    (m.ph = .accepted → m.apply ≤ now + 10000 → m.prepared ≠ m.dies → rejects .commitDecision 0x1D) ∧
    ((now < m.apply ∨ m.ph = .idle ∨ m.ph = .checking) → Turns .commitApply s s.b) ∧
    (m.apply ≤ now → m.ph = .accepted → Gives .commitApply s fun u => u.clk = s.clk ∧ u.b.hl.commitFault = true ∧ Unstaged u.b.cm ∧ u.b.cm.code = 0x1D ∧ u.b.cfg = s.b.cfg ∧ u.b.mem = s.b.mem ∧ u.b.run = s.b.run ∧ u.b.sess = s.b.sess) ∧
    (m.apply ≤ now → m.ph = .go → Gives .commitApply s fun u => u.clk = s.clk ∧ Unstaged u.b.cm ∧ u.b.cm.code = 0 ∧ u.b.cm.appliedAt = now ∧ u.b.run.on = true ∧ u.b.run.tileSet = s.b.run.tileSet ∧ u.b.paceNow = targetPace s.b ∧
        u.b.sf.unverified = decide (parCrc u.b.cfg ≠ u.b.nv.keys.verified) ∧ (m.image = none → u.b.run = s.b.run) ∧
      (∀ bytes i, m.image = some bytes → parseImg bytes = some i → u.b.run.bytes = bytes ∧ u.b.run.slot = none ∧ u.b.run.id = i.id ∧ u.b.run.version = i.version ∧ u.b.run.parts = i.parts) ∧
      (∀ k : Fin 8, let x := s.b.sessAt k
        (x.port < 2 ∧ macWords s.b x.port ≠ macWords u.b x.port → (u.b.sessAt k).st = .closed) ∧ (¬(x.port < 2 ∧ macWords s.b x.port ≠ macWords u.b x.port) → u.b.sessAt k = x)) ∧
      (m.image = none → u.b.mem = s.b.mem) ∧
      (m.image = none → (m.staged.map Prod.fst).Nodup →
        (∀ a w r ix, (a, w) ∈ m.staged → regAt a = some (r, ix) → tabGet (regDef r).reset u.b.cfg a = mergeBits (sgMask r) (tabGet (regDef r).reset s.b.cfg a) w) ∧
        (∀ a d, a ∉ m.staged.map Prod.fst → tabGet d u.b.cfg a = tabGet d s.b.cfg a)))

/-- IMG_STAGE_SLOT, IMG_INSTALL, IMG_NEXT, IMG_CONFIRM, IMAGE_VERIFY_DONE, BOOT. The model's choices and readings, not the spec's: the refusal of INSTALL without a staged image, the order of slots, the boot in one step (log 29), and a late STAGE_SLOT (log 57). -/
def Obligations.Images : Prop :=
  ∀ (s : State) (m : Commit), s.b.cm = m →
    let kept := fun (u : State) => u.clk = s.clk ∧ OnlyWear { s.b with cm := u.b.cm, sess := u.b.sess, nv := { s.b.nv with slotA := u.b.nv.slotA, slotB := u.b.nv.slotB, next := u.b.nv.next, rollback := u.b.nv.rollback }, bk := { s.b.bk with rollback := u.b.bk.rollback } } u.b
    (s.clk.up = true → ∀ (k : Fin 8) (n : Fin 2),
      let mine := m.ph = .idle ∧ (m.owner = none ∨ m.owner = some k.val)
      (hasRoles s.b k 4 = false → Answers (.imgStageSlot k n) s k 2 4 m ∧ Answers (.imgInstall k n) s k 2 4 m) ∧
      (hasRoles s.b k 4 = true → ¬mine → Answers (.imgStageSlot k n) s k 2 0x87 m) ∧
      (hasRoles s.b k 4 = true → mine → Answers (.imgStageSlot k n) s k 2 0 { m with
        owner := some k, imgBusy := 1, imgBytes := (slotAt s.b.nv n).bytes, imgDone := false, imgBad := (slotAt s.b.nv n).damaged }) ∧
      (hasRoles s.b k 4 = true → m.image = none → Answers (.imgInstall k n) s k 2 5 m) ∧
      (∀ bytes, hasRoles s.b k 4 = true → m.image = some bytes → Gives (.imgInstall k n) s fun u => kept u ∧ (u.b.sessAt k).last = { op := 2, status := 0, data := [] } ∧
        slotAt u.b.nv n = { slotAt s.b.nv n with bytes := bytes, valid := false, damaged := false } ∧ slotAt u.b.nv (1 - n.val) = slotAt s.b.nv (1 - n.val) ∧
        u.b.cm = { m with imgBusy := 2, imgBytes := bytes, imgSlot := n, imgDone := false, imgBad := false }) ∧
      Gives (.imgNext n) s (fun u => kept u ∧ u.b.nv.next = some n.val ∧ (slotAt u.b.nv n) = { slotAt s.b.nv n with trial := true, trialBooted := false } ∧
        slotAt u.b.nv (1 - n.val) = slotAt s.b.nv (1 - n.val) ∧ u.b.nv.rollback = s.b.nv.rollback ∧ u.b.bk.rollback = s.b.bk.rollback ∧ u.b.cm = { m with imgDone := true } ∧ u.b.sess = s.b.sess)) ∧
    (s.clk.up = true → s.b.run.on = false → Turns .imgConfirm s s.b) ∧
    (s.clk.up = true → s.b.run.on = true → Gives .imgConfirm s fun u => kept u ∧ u.b.nv.rollback = max s.b.nv.rollback s.b.run.version ∧ u.b.bk.rollback = u.b.nv.rollback ∧ u.b.nv.next = s.b.nv.next ∧ u.b.cm = { m with imgDone := true } ∧ u.b.sess = s.b.sess ∧
      ∀ n : Fin 2, (s.b.run.slot = some n.val → slotAt u.b.nv n = { slotAt s.b.nv n with trial := false, trialBooted := false }) ∧
        ((s.b.run.slot = none ∨ s.b.run.slot = some (1 - n.val)) → slotAt u.b.nv n = slotAt s.b.nv n)) ∧
    (s.clk.up = true → NoneWaits s.b →
      let code := if m.imgBad = true then 2 else (verifyImg s.b m.imgBytes).1
      (m.imgBusy = 0 → Turns .imageVerifyDone s s.b) ∧
      (m.imgBusy = 1 → m.ph = .idle → Turns .imageVerifyDone s { s.b with cm := { m with imgBusy := 0, imgDone := true, imgCode := code, image := if code = 0 then some m.imgBytes else m.image } }) ∧
      (m.imgBusy = 1 → m.ph ≠ .idle → Turns .imageVerifyDone s { s.b with cm := { m with imgBusy := 0, imgDone := true, imgCode := 7 } }) ∧
      (m.imgBusy = 2 → m.imgSlot < 2 → Gives .imageVerifyDone s fun u => u.clk = s.clk ∧ u.b = { s.b with cm := { m with imgBusy := 0, imgDone := true, imgCode := code }, nv := { s.b.nv with slotA := u.b.nv.slotA, slotB := u.b.nv.slotB } } ∧
        (slotAt u.b.nv m.imgSlot) = { slotAt s.b.nv m.imgSlot with valid := decide (code = 0) } ∧ slotAt u.b.nv (1 - m.imgSlot) = slotAt s.b.nv (1 - m.imgSlot))) ∧
    (s.clk.up = true → exec .boot s = .next s) ∧
    (s.clk.up = false → Gives .boot s fun u => u.clk.lattice = 0 ∧ u.clk.up = true ∧ Unstaged u.b.cm ∧
      u.b.nv.bootCount = max s.b.nv.bootCount s.b.bk.bootCount + 1 ∧ u.b.bk.bootCount = u.b.nv.bootCount ∧ s.pending = u.pending ∧ u.b.nv.rollback = max s.b.nv.rollback s.b.bk.rollback ∧
      (∀ k, (u.b.sessAt k).st = .closed) ∧ (∀ a, (u.b.sfAxAt a).permit = false) ∧ (∀ t j, (u.b.natAt t j).gate = false) ∧
      (u.b.run.on = false → u.b.run.tileSet = 0) ∧
      (u.b.run.on = true → u.b.nv.life = .owned ∧ ∃ n i, u.b.run.slot = some n ∧ (slotAt s.b.nv n).valid = true ∧ parseImg (slotAt s.b.nv n).bytes = some i ∧
        u.b.run.bytes = (slotAt s.b.nv n).bytes ∧ u.b.run.tileSet = i.tileSet ∧ u.b.run.version = i.version ∧ u.b.nv.rollback ≤ i.version ∧ u.b.paceNow = i.pace))

/-- NEW_CHALLENGE, CHALLENGE_EXPIRY, END_SERVICE, FIELD_SERVICE_EXPIRY, LIFECYCLE_TRANSITION, GENERATE_IDENTITY, TAMPER_DETECT, SESSION_END, SESSION_IDLE_EXPIRY. The model's choices and readings, not the spec's: the order of refusals (log 41), the one-step erasure (log 42) and the tamper readings (logs 43 and 68). -/
def Obligations.LifeCycle : Prop :=
  ∀ (s : State),
    let now := s.clk.lattice
    let b := s.b
    let st := b.hl.st
    let tap := if st.tap ≤ 1 then st.tap else 0
    let ended := fun (u : State) => u.clk = s.clk ∧ OnlyWear { b with nv := { b.nv with life := .owned }, hl := { b.hl with st := u.b.hl.st } } u.b ∧
      (testRuns b = false → u.b.hl.st = { st with tap := tap }) ∧ (testRuns b = true → st.tile ≠ none → u.b.hl.st = { st with tap := tap, aborting := true, st := .restoring }) ∧
      (testRuns b = true → st.tile = none → u.b.hl.st = { st with tap := tap, st := .idle, result := 3, reqAt := none, aborting := false, pair := none, resume := none })
    let kept := fun (j : LifeJournal) (n : Nvm) => (j.to_ = .returned → n.slotA = {} ∧ n.slotB = {} ∧ n.next = none ∧ n.setA = {} ∧ n.setB = {} ∧
        n.keys = { b.nv.keys with owner := [], recovery := [], secret := [], verified := 0, revoked := [] }) ∧
      (j.to_ = .retired → n.slotA = {} ∧ n.slotB = {} ∧ n.next = none ∧ n.setA = {} ∧ n.setB = {} ∧ n.keys = { b.nv.keys with identity := false, pub := [], cert := [] }) ∧
      (j.to_ ≠ .returned → j.to_ ≠ .retired → n.keys = b.nv.keys ∧ n.slotA = b.nv.slotA ∧ n.slotB = b.nv.slotB ∧ n.next = b.nv.next ∧ n.setA = b.nv.setA ∧ n.setB = b.nv.setB)
    (s.clk.up = true → b.nv.life ≠ .retired → Turns .newChallenge s { b with tr := { b.tr with challenge := drawBytes b 16, drawnAt := some now }, draws := b.draws + 1 }) ∧
    (s.clk.up = true → b.nv.life = .retired → Turns .newChallenge s b) ∧
    (s.clk.up = true → (∃ t, b.tr.drawnAt = some t ∧ t + 600000000000 ≤ now) → Turns .challengeExpiry s { b with tr := { b.tr with challenge := [], drawnAt := none } }) ∧
    (s.clk.up = true → (∀ t, b.tr.drawnAt = some t → now < t + 600000000000) → Turns .challengeExpiry s b) ∧
    (s.clk.up = true → b.nv.life = .fieldService → Gives .endService s ended) ∧
    (s.clk.up = true → b.nv.life ≠ .fieldService → Turns .endService s b) ∧
    (s.clk.up = true → b.nv.life = .fieldService → b.tr.serviceEnd ≤ now → Gives .fieldServiceExpiry s ended) ∧
    (s.clk.up = true → (b.nv.life ≠ .fieldService ∨ now < b.tr.serviceEnd) → Turns .fieldServiceExpiry s b) ∧
    (s.clk.up = true → b.tr.journal = none → Turns .lifecycleTransition s b) ∧
    (∀ j, s.clk.up = true → b.tr.journal = some j → Gives .lifecycleTransition s fun u =>
      u.b.nv.life = j.to_ ∧ u.b.tr.journal = none ∧ u.pending = s.pending ∧ kept j u.b.nv ∧ u.b.nv.rollback = b.nv.rollback ∧ u.b.nv.bootCount = b.nv.bootCount ∧
      u.b.bk.seedGone = (if j.to_ = .returned then false else b.bk.seedGone) ∧
      (j.restart = false → u.clk = s.clk ∧ OnlyWear { b with nv := { b.nv with life := j.to_, keys := u.b.nv.keys, slotA := u.b.nv.slotA, slotB := u.b.nv.slotB, next := u.b.nv.next, setA := u.b.nv.setA, setB := u.b.nv.setB }
                                                             bk := { b.bk with seedGone := u.b.bk.seedGone }, tr := { b.tr with journal := none } } u.b) ∧
      (j.restart = true → u.clk.lattice = 0 ∧ u.clk.up = false ∧ u.b.run = {} ∧ u.b.cfg = [] ∧ u.b.mem = [] ∧ u.b.sess = [])) ∧
    (s.clk.up = true → b.nv.life = .blank → let pub := slice (Config.ecPoint b.draws) 0 97
      Turns .generateIdentity s { b with nv := { b.nv with keys := { b.nv.keys with identity := true, pub := pub, cert := Config.deviceCert pub } }, tr := { b.tr with journal := some { to_ := .manufactured, restart := false } }, draws := b.draws + 1 }) ∧
    (s.clk.up = true → b.nv.life ≠ .blank → Turns .generateIdentity s b) ∧
    (∀ n : Fin 2, let watched := bit b.bk.tampCfg (4 * n.val) = true ∧ (b.nv.life = .owned ∨ b.nv.life = .fieldService)
      let zero := bit b.bk.tampCfg (4 * n.val + 2)
      let marked := { b with bk := { b.bk with tampered := true, tamp0 := b.bk.tamp0 || decide (n.val = 0), tamp1 := b.bk.tamp1 || decide (n.val = 1), seedGone := b.bk.seedGone || zero } }
      (¬watched → Turns (.tamperDetect n) s b) ∧
      (watched → (zero = false ∨ s.clk.up = false) → Gives (.tamperDetect n) s fun u => u.clk = s.clk ∧ OnlyLog marked u.b) ∧
      (watched → zero = true → s.clk.up = true → Gives (.tamperDetect n) s fun u => u.clk = s.clk ∧ u.b.bk.tampered = true ∧ (n = 0 → u.b.bk.tamp0 = true) ∧ (n = 1 → u.b.bk.tamp1 = true) ∧ u.b.bk.seedGone = true ∧
        u.b.nv.life = b.nv.life ∧ u.b.nv.keys = b.nv.keys ∧ u.b.cfg = b.cfg ∧ u.b.mem = b.mem ∧ u.b.run = b.run ∧
        u.b.tr.journal = some { to_ := .returned, restart := true } ∧ u.b.storeOp = none ∧ (b.storeOp ≠ none → u.b.storeSt = 4) ∧ (b.storeOp = none → u.b.storeSt = b.storeSt) ∧ (∀ k : Fin 8, (u.b.sessAt k).st = .closed) ∧
        ∀ p : Fin 12, Fld.BL_PORT_CFG_SEAL b.cfg p = true → (u.b.blAt p).st ≠ .run ∧ (u.b.blAt p).key.ok = false ∧ (u.b.blAt p).key.key = [])) ∧
    (∀ k : Fin 8, s.clk.up = true →
      let due := (b.sessAt k).st = .open_ ∧ (b.sessAt k).lastAt + Fld.SEC_IDLE_IDLE_T b.cfg * 1000000000 ≤ now
      let stays := b.cm.owner ≠ some k.val ∨ b.cm.ph = .accepted ∨ b.cm.ph = .go
      let gone := fun (u : State) => u.clk = s.clk ∧ u.b.sessAt k = { class5 := (b.sessAt k).class5 } ∧ u.b.bankAt k = {} ∧ (∀ q : Fin 8, q ≠ k → u.b.sessAt q = b.sessAt q) ∧ (∀ q : Fin 11, q.val ≠ k.val → u.b.bankAt q = b.bankAt q) ∧
        u.b.tr = { b.tr with banks := u.b.tr.banks, op := u.b.tr.op } ∧ u.b.tr.op = (b.tr.op.map fun o => if o.bank = k.val then { o with bank := 11 } else o) ∧
        (stays → u.b = { b with sess := u.b.sess, tr := u.b.tr }) ∧
        (¬stays → Unstaged u.b.cm ∧ (b.cm.ph = .idle → u.b = { b with sess := u.b.sess, tr := u.b.tr, cm := u.b.cm }) ∧
          (b.cm.ph = .checking → u.b.cm.code = 0x1E ∧ u.b = { b with sess := u.b.sess, tr := u.b.tr, cm := u.b.cm, net := { b.net with next := none }, draws := b.draws + 1, paceChanging := u.b.paceChanging, paceEnd := u.b.paceEnd }))
      ((b.sessAt k).st = .closed → Turns (.sessionEnd k) s b) ∧ ((b.sessAt k).st ≠ .closed → Gives (.sessionEnd k) s gone) ∧
      (¬due → Turns (.sessionIdleExpiry k) s b) ∧ (due → Gives (.sessionIdleExpiry k) s gone))

/-- SUBMIT, ENROL, ATTEST and the completions TOKEN_CHECK_DONE, ENROL_CHECK_DONE, ATTEST_DONE on bank `k`. The model's choices and readings, not the spec's: the order of refusals, the use of the challenge and the chains tried (log 41). -/
def Obligations.BankActions : Prop :=
  ∀ (s : State) (k : Fin 11), s.clk.up = true →
    let now := s.clk.lattice
    let b := s.b
    let free := { b with tr := { b.tr with op := none } }
    let tells := fun (c : Instr) (action code : Nat) => Turns c s (b.bankUpd k fun x => { x with done := true, action := action, code := code })
    let begins := fun (c : Instr) (kind : Nat) => Turns c s { b with tr := { b.tr with
      op := some { bank := k, kind := kind, bytes := tabBytes 0 (b.bankAt k).buf 0 16384 }, banks := (b.bankUpd k fun x => { x with done := false, action := kind }).tr.banks } }
    let shows := fun (o : SecOp) (u : State) (action code : Nat) => o.bank = k.val → (u.b.bankAt k).done = true ∧ (u.b.bankAt k).action = action ∧ (u.b.bankAt k).code = code
    let life := b.nv.life
    let trust := fun (u : State) => u.b = { b with tr := u.b.tr }
    (life = .retired → Turns (.submit k) s b ∧ Turns (.enrol k) s b ∧ Turns (.attest k) s b) ∧
    (life ≠ .retired → b.pw.pfWarn = true → tells (.submit k) 1 13 ∧ tells (.enrol k) 2 13) ∧
    (life ≠ .retired → b.pw.pfWarn = false → b.tr.op ≠ none → tells (.submit k) 1 14 ∧ tells (.enrol k) 2 14) ∧
    (life ≠ .retired → b.pw.pfWarn = false → b.tr.op = none → begins (.submit k) 1) ∧
    (life ≠ .retired → b.pw.pfWarn = false → b.tr.op = none → (life ≠ .manufactured ∨ b.tr.keystoreErr = true) → tells (.enrol k) 2 6) ∧
    (life = .manufactured → b.tr.keystoreErr = false → b.pw.pfWarn = false → b.tr.op = none →
      (b.tr.enrolStrap = false → tells (.enrol k) 2 7) ∧ (b.tr.enrolStrap = true → b.tr.vbatOk = false → tells (.enrol k) 2 8) ∧
      (b.tr.enrolStrap = true → b.tr.vbatOk = true → begins (.enrol k) 2)) ∧
    (life ≠ .retired → b.tr.op ≠ none → tells (.attest k) 3 14) ∧
    (life ≠ .retired → b.tr.op = none → (b.tr.keystoreErr = true ∨ b.nv.keys.identity = false) → tells (.attest k) 3 6) ∧
    (life ≠ .retired → b.tr.op = none → b.tr.keystoreErr = false → b.nv.keys.identity = true → begins (.attest k) 3) ∧
    ((∀ o, b.tr.op = some o → o.kind ≠ 1) → Turns .tokenCheckDone s b) ∧
    ((∀ o, b.tr.op = some o → o.kind ≠ 2) → Turns .enrolCheckDone s b) ∧
    ((∀ o, b.tr.op = some o → o.kind ≠ 3) → Turns .attestDone s b) ∧
    (∀ o, b.tr.op = some o → o.kind = 1 → parseToken o.bytes = none → Gives .tokenCheckDone s fun u => u.clk = s.clk ∧
      shows o u 1 1 ∧ (o.bank ≠ k.val → u.b.bankAt k = b.bankAt k) ∧ u.b = { b with tr := { b.tr with op := none, banks := u.b.tr.banks } }) ∧
    (∀ o t, b.tr.op = some o → o.kind = 1 → parseToken o.bytes = some t → Gives .tokenCheckDone s fun u =>
      let code := tokenJudge now t free
      u.clk = s.clk ∧ u.b.tr.op = none ∧ u.b.tr.drawnAt = (if t.challenge = b.tr.challenge then none else b.tr.drawnAt) ∧
      (code ≠ 0 → shows o u 1 code ∧ trust u ∧ u.b.tr.journal = b.tr.journal ∧ u.b.tr.serviceEnd = b.tr.serviceEnd) ∧
      (code = 0 → t.challenge = b.tr.challenge ∧ t.device = deviceId b ∧ challengeOk now b = true ∧ certSigned t.cert t.digest t.sig = true ∧
        (t.kind = 1 → life = .owned ∧ shows o u 1 0 ∧ trust u ∧ u.b.tr.journal = some { to_ := .fieldService, restart := false } ∧ u.b.tr.serviceEnd = now + t.value * 60000000000) ∧
        (t.kind = 2 → allDisabled b = true ∧ shows o u 1 0 ∧ trust u ∧ u.b.tr.journal = some { to_ := .returned, restart := true }) ∧
        (t.kind = 3 → allDisabled b = true ∧ shows o u 1 0 ∧ trust u ∧ u.b.tr.journal = some { to_ := .retired, restart := true }) ∧
        (t.kind = 4 → b.nv.keys.revVersion < t.value ∧ u.b.nv.keys = { b.nv.keys with revoked := revokeIds t.param, revVersion := t.value } ∧ u.b.bk.revVersion = t.value ∧ u.b.tr.journal = b.tr.journal ∧ (8 ≤ k.val → shows o u 1 0) ∧
          u.b.cfg = b.cfg ∧ u.b.mem = b.mem ∧ u.b.run = b.run ∧ u.b.nv.life = life ∧
          ∀ q : Fin 8, ((∃ c ∈ (b.sessAt q).chain, c ∈ revokeIds t.param) → (u.b.sessAt q).st = .closed) ∧ ((∀ c ∈ (b.sessAt q).chain, c ∉ revokeIds t.param) → u.b.sessAt q = b.sessAt q)) ∧
        (∀ root rec_, t.kind = 5 → rolloverCerts t.param = some (root, rec_) → u.b.nv.keys = { b.nv.keys with owner := hash48 root, recovery := if rec_.isEmpty then b.nv.keys.recovery else hash48 rec_ } ∧ u.b.tr.journal = b.tr.journal ∧
          (8 ≤ k.val → shows o u 1 0) ∧ u.b.cfg = b.cfg ∧ u.b.mem = b.mem ∧ u.b.run = b.run ∧ u.b.nv.life = life ∧ ∀ q : Fin 8, (u.b.sessAt q).st = .closed) ∧
        (t.kind = 6 → life = .returned ∧ shows o u 1 0 ∧ trust u ∧ u.b.tr.journal = some { to_ := .manufactured, restart := false }))) ∧
    (∀ o, b.tr.op = some o → o.kind = 2 → Gives .enrolCheckDone s fun u => u.clk = s.clk ∧ u.b.tr.op = none ∧ (o.bank ≠ k.val → u.b.bankAt k = b.bankAt k) ∧
      (∀ code, enrolJudge now o.bytes free = .error code → shows o u 2 code ∧ trust u ∧ u.b.tr.journal = b.tr.journal ∧ (code ≠ 1 → u.b.tr.drawnAt = none) ∧ (code = 1 → u.b.tr.drawnAt = b.tr.drawnAt)) ∧
      (∀ root rec_, enrolJudge now o.bytes free = .ok (root, rec_) → shows o u 2 0 ∧ u.b.tr.drawnAt = none ∧ u.b.tr.journal = some { to_ := .owned, restart := true } ∧
        u.b = { b with tr := u.b.tr, draws := b.draws + 2, bk := { b.bk with rollback := 0, revVersion := 0 }
                       nv := { b.nv with rollback := 0, keys := { b.nv.keys with owner := hash48 root, recovery := if rec_.isEmpty then [] else hash48 rec_, secret := drawBytes b 32, revVersion := 0 } } } ∧
        (o.bank = k.val → ∀ h r, h = reportHead now b.tr.challenge u.b → r = h ++ slice (Config.ecdsaSign (b.draws + 1) (Config.sha384 h)) 0 96 → tabBytes 0 (u.b.bankAt k).buf 0 r.length = r))) ∧
    (∀ o, b.tr.op = some o → o.kind = 3 → Gives .attestDone s fun u => u.clk = s.clk ∧ shows o u 3 0 ∧ (o.bank ≠ k.val → u.b.bankAt k = b.bankAt k) ∧
      u.b = { b with tr := { b.tr with op := none, banks := u.b.tr.banks }, draws := b.draws + 1 } ∧
      (o.bank = k.val → ∀ h r, h = reportHead now (slice o.bytes 0 32) b → r = h ++ slice (Config.ecdsaSign b.draws (Config.sha384 h)) 0 96 → tabBytes 0 (u.b.bankAt k).buf 0 r.length = r))

/-- HELLO, FINISH, HANDSHAKE_TIMEOUT, REQUEST, PLAIN_REQUEST, SAFETY_MESSAGE, CLOSE on port `p` with oldest message `m` of source `src`; `k` is the session that it names. The model's choices and readings, not the spec's: malformed messages (log 47), the handshake (log 48) and the full serial queue (log 49). -/
def Obligations.SessionMessages : Prop :=
  ∀ (s : State) (p : Fin 3) (src : Nat) (m : List Byte) (rest : List (Nat × List Byte)) (k : Nat), s.clk.up = true → (s.b.hpAt p).rx = (src, m) :: rest → msgSess m = k →
    let now := s.clk.lattice
    let x := s.b.sessAt k
    let taken := s.b.hpUpd p fun h => { h with rx := rest }
    let sends := fun (u y : Block) (q dst : Nat) (r : List Byte) => u = { y with hp := u.hp, draws := y.draws + 1 } ∧ (∀ i : Fin 3, i.val ≠ q → u.hpAt i = y.hpAt i) ∧ u.hpAt q = { y.hpAt q with tx := (u.hpAt q).tx } ∧
      ((q ≠ 2 ∨ (y.hpAt q).tx.length < 8) → (u.hpAt q).tx = (y.hpAt q).tx ++ [(dst, r)]) ∧ ((u.hpAt q).tx = (y.hpAt q).tx ∨ (u.hpAt q).tx = (y.hpAt q).tx ++ [(dst, r)])
    let refuses := fun (c : Instr) (code : Nat) => Gives c s fun u => u.clk = s.clk ∧ sends u.b taken p src (msgHead 0x0A 0xFF 4 0 ++ leBytes 4 code)
    let text := slice (Config.gcmText x.keyIn (msgNonce 0 (msgCtr m)) (msgBody m)) 0 (msgLen m)
    let good := x.port = p ∧ x.src = src ∧ x.rxCtr < msgCtr m ∧ slice (Config.gcmTag x.keyIn (msgNonce 0 (msgCtr m)) text (m.take 16)) 0 16 = msgTag m
    let rejected := taken.sessUpd k fun y => { y with rejects := min 65535 (y.rejects + 1) }
    let acc := { x with rxCtr := msgCtr m, lastAt := now }
    let worn := fun (c : Instr) => Gives c s fun u => u.clk = s.clk ∧ (u.b.sessAt k).st = .closed ∧ (∀ q : Fin 8, q.val ≠ k → u.b.sessAt q = s.b.sessAt q) ∧ u.b.cfg = s.b.cfg ∧ u.b.mem = s.b.mem ∧ u.b.nv = s.b.nv
    let is := fun (kind : Nat) => msgKind m = kind
    (¬is 1 → Turns (.hello p) s s.b) ∧ (¬is 3 → Turns (.finish p) s s.b) ∧ (¬is 4 → Turns (.request p) s s.b) ∧ (¬is 8 → Turns (.plainRequest p) s s.b) ∧
    (¬is 6 → Turns (.safetyMessage p) s s.b) ∧ (¬is 7 → Turns (.close p) s s.b) ∧
    (is 1 → msgLen m ≠ 116 → Turns (.hello p) s taken) ∧
    (is 1 → msgLen m = 116 → ((s.b.nv.life ≠ .owned ∧ s.b.nv.life ≠ .fieldService) ∨ s.b.tr.keystoreErr = true) → refuses (.hello p) 4) ∧
    (is 1 → msgLen m = 116 → (s.b.nv.life = .owned ∨ s.b.nv.life = .fieldService) → s.b.tr.keystoreErr = false →
      ((∀ q : Fin 8, (s.b.sessAt q).st ≠ .closed) → refuses (.hello p) 1) ∧
      (∀ q : Fin 8, (s.b.sessAt q).st = .closed → (∀ i : Fin 8, i < q → (s.b.sessAt i).st ≠ .closed) → Gives (.hello p) s fun u => u.clk = s.clk ∧
        ∃ body reply, body = slice (Config.ecPoint s.b.draws) 0 97 ++ leBytes 3 0 ++ slice (Config.random (s.b.draws + 1) 16) 0 16 ++ leBytes 1 q ++ leBytes 3 0 ++ leBytes 4 s.b.nv.keys.cert.length ++ s.b.nv.keys.cert ∧
          reply = msgHead 2 0xFF (body.length + 96) 0 ++ body ++ slice (Config.ecdsaSign (s.b.draws + 2) (Config.sha384 (m ++ msgHead 2 0xFF (body.length + 96) 0 ++ body))) 0 96 ∧
          sends u.b { (taken.sessUpd q fun z => { st := .handshake, port := p, src := src, lastAt := now, eph := s.b.draws, nonces := slice m 116 16 ++ slice (Config.random (s.b.draws + 1) 16) 0 16, hostPoint := slice m 16 97
                                                  transcript := m ++ reply, class5 := z.class5 }) with draws := s.b.draws + 3 } p src reply)) ∧
    (is 3 → (∀ q : Fin 8, (s.b.sessAt q).st = .handshake → k ≠ q ∧ (k < 8 ∨ (s.b.sessAt q).port ≠ p ∨ (s.b.sessAt q).src ≠ src)) → Turns (.finish p) s taken) ∧
    (∀ q : Fin 8, let z := s.b.sessAt q
      is 3 → z.st = .handshake → (k = q.val ∨ (8 ≤ k ∧ z.port = p ∧ z.src = src ∧ ∀ i : Fin 8, i < q → ¬((s.b.sessAt i).st = .handshake ∧ (s.b.sessAt i).port = p ∧ (s.b.sessAt i).src = src))) →
      ((z.port ≠ p ∨ z.src ≠ src) → Turns (.finish p) s (taken.sessUpd q fun y => { y with rejects := min 65535 (y.rejects + 1) })) ∧
      (z.port = p → z.src = src → let n := leAt (msgBody m) 1 1
        let certs := if 2 ≤ n ∧ n ≤ 4 ∧ leAt (msgBody m) 2 2 = 0 then finishCerts (msgBody m) n 4 else none
        (certs = none → refuses (.finish p) 2) ∧
        (∀ chain o, certs = some (chain, o) →
          let signed := (msgBody m).length = o + 96 ∧ certSigned (chain.headD []) (Config.sha384 (z.transcript ++ m.take (16 + o))) (slice (msgBody m) o 96) = true
          ((∃ e, chainJudge s.b s.b.nv.keys.owner chain = .error e) → refuses (.finish p) 2) ∧
          (chainJudge s.b s.b.nv.keys.owner chain = .ok () → ¬signed → refuses (.finish p) 3) ∧
          (chainJudge s.b s.b.nv.keys.owner chain = .ok () → signed → let keys := slice (Config.hkdf (Config.ecdh z.eph z.hostPoint) z.nonces [] 64) 0 64
            Turns (.finish p) s (taken.sessUpd q fun _ => { st := .open_, port := z.port, src := z.src, roles := roleAnd (roleAnd (leAt (msgBody m) 0 1) (chainRoles chain)) 30 + roleObserve, chain := chain.map certId
                                                            rejects := z.rejects, lastAt := now, keyIn := keys.take 32, keyOut := keys.drop 32
                                                            credit := max 1 (ceilDiv (s.b.run.spRate.getD q 0) 100) * 1000000000, creditAt := now }))))) ∧
    (∀ q : Fin 8, let z := s.b.sessAt q
      (¬(z.st = .handshake ∧ z.lastAt + 5000000000 ≤ now) → Turns (.handshakeTimeout q) s s.b) ∧
      (z.st = .handshake → z.lastAt + 5000000000 ≤ now → Gives (.handshakeTimeout q) s fun u => u.clk = s.clk ∧
        sends u.b (s.b.sessUpd q fun y => { class5 := y.class5 }) z.port z.src (msgHead 0x0A 0xFF 4 0 ++ leBytes 4 5))) ∧
    ((8 ≤ k ∨ x.st ≠ .open_) → (is 4 → Turns (.request p) s taken) ∧ (is 6 → Turns (.safetyMessage p) s taken) ∧ (is 7 → Turns (.close p) s taken)) ∧
    (is 4 → k < 8 → x.st = .open_ →
      (¬(good ∧ x.reqs.length < 8) → Turns (.request p) s rejected) ∧
      (good → x.reqs.length < 8 → parseReq text = none →
        (msgCtr m < 2 ^ 32 → Turns (.request p) s (taken.sessUpd k fun _ => { acc with rejects := min 65535 (x.rejects + 1) })) ∧ (2 ^ 32 ≤ msgCtr m → worn (.request p))) ∧
      (∀ q, good → x.reqs.length < 8 → parseReq text = some q → x.reqs ≠ [] →
        (msgCtr m < 2 ^ 32 → Turns (.request p) s (taken.sessUpd k fun _ => { acc with reqs := x.reqs ++ [q] })) ∧ (2 ^ 32 ≤ msgCtr m → worn (.request p))) ∧
      (∀ q, good → parseReq text = some q → x.reqs = [] → exec (.request p) s = .next ((reqServe k 9 { s with b := taken.sessUpd k fun _ => { acc with reqs := [q] } }).mapB (sessWorn now k)))) ∧
    (is 8 → parseReq (msgBody m) = none → Turns (.plainRequest p) s taken) ∧
    (∀ q, is 8 → parseReq (msgBody m) = some q → Gives (.plainRequest p) s fun u => let y := reqBegin (8 + p.val) q { s with b := taken }
      u.clk = y.2.clk ∧ sends u.b y.2.b p src (msgHead 9 0xFF (respBytes q.id q.count y.1.done).length 0 ++ respBytes q.id q.count y.1.done)) ∧
    (is 6 → k < 8 → x.st = .open_ → let c := leAt text 2 2
      let reaches := hasRoles s.b k 8 = true ∧ text.length = 20 ∧ c < 48 ∧ Fld.SF_CONN_CFG_EN s.b.cfg c = true ∧ Fld.SF_CONN_CFG_PATH s.b.cfg c = true ∧ Fld.SF_CONN_CFG_SESSION s.b.cfg c = k
      (¬good → Turns (.safetyMessage p) s rejected) ∧ (good → 2 ^ 32 ≤ msgCtr m → worn (.safetyMessage p)) ∧
      (good → msgCtr m < 2 ^ 32 → ¬reaches → Turns (.safetyMessage p) s (taken.sessUpd k fun _ => acc)) ∧
      (good → msgCtr m < 2 ^ 32 → reaches → Turns (.safetyMessage p) s ((taken.sessUpd k fun _ => acc).connUpd c fun z => { z with rx := z.rx ++ [(now, text)] }))) ∧
    (is 7 → k < 8 → x.st = .open_ → (¬good → Turns (.close p) s rejected) ∧ (good → worn (.close p)) ∧
      (good → Gives (.close p) s fun u => u.b.sessAt k = { class5 := x.class5 } ∧ u.b.bankAt k = {} ∧ u.b.hp = taken.hp))

/-- MARGIN_MEASURE, ECC_CORRECTED, ECC_UNCORRECTABLE, HEALTH_WINDOW, HOLDUP_MEASURE, SUPPLY_FAULT, SUPPLY_RECOVERED, TEMPERATURE_READ, LOG_NVM_WRITE, REPLACE_CLEAR, LOG_SEL, POWER_FAIL_WARNING, POWER_FAIL_CLEAR, SUPPLY_SOURCE_CHANGE with self-test `x`.
`asks u y c` says that `u` is `y` with cause `c` of REPLACE set, and its log entry; `aborts y u` that `u` is `y` with the running test aborted. The model's choices and readings, not the spec's: the rounding and levels (log 44), the layout of the NVM (log 30), the log (log 54) and the source of supply (log 52). -/
def Obligations.HealthMonitors : Prop :=
  ∀ (s : State) (x : SelfTest), s.b.hl.st = x →
    let now := s.clk.lattice
    let b := s.b
    let gives := fun (c : Instr) (P : Block → Prop) => Gives c s fun u => u = { s with b := u.b } ∧ P u.b
    let asks := fun (u y : Block) (c : Nat) => OnlyWear y u ∧ ∀ i : Fin 9, bit u.nv.replace i = (bit y.nv.replace i || decide (i.val = c))
    let hits := fun (y u : Block) (i : Nat) => OnlyFaults y u ∧ ∀ t j, t < b.run.tileSet → j < 16 → (i < 8 → t = i) → slotTy b t j ≠ .unused → axDisabled b t j = false → faultRuns b t j = false →
      (u.sfAxAt (axNo t j)).fault = some (1, now)
    let aborts := fun (y u : Block) => (x.tile ≠ none → u = { y with hl := { y.hl with st := { x with aborting := true, st := .restoring } } }) ∧
      (x.tile = none → u = logEvent now 0x0050 0 (2 ^ 24 * x.op + 2 ^ 16 * x.target + 3) { y with hl := { y.hl with st := { x with aborting := false, st := .idle, result := 3, reqAt := none, pair := none, resume := none } } })
    let tested := fun (i : Nat) => testRuns b = true ∧ (x.op = 8 ∨ (x.op ≠ 7 ∧ x.target = i))
    (∀ m v, Turns (.supplySourceChange m v) s { b with hl := { b.hl with holdup := if m = true then b.hl.holdup else none }, pw := { b.pw with
      mains := m, vauxOk := v, source := if m = true ∧ v = true then (if b.pw.vaux < 255 then 0 else if b.pw.vaux ≤ 265 then 2 else 1) else if m = true then 0 else if v = true then 1 else b.pw.source } }) ∧
    (s.clk.up = true →
    (∀ (t : Fin 8) (m : Int), (tileOn b t = false ∨ b.paceChanging = true) → Turns (.marginMeasure t m) s b) ∧
    (∀ (t : Fin 8) (m : Int), tileOn b t = true → b.paceChanging = false →
      let z := b.marginAt t
      let hist := (m :: z.hist).take 600
      let mean := satS 16 (hist.sum / (hist.length : Int))
      let base := b.marginUpd t fun _ => { hist := hist, mean := mean, min_ := min z.min_ mean, low := decide (mean < 40) }
      let y := if mean < 40 ∧ z.low = false then logEvent now 0x0030 (0x10 + t) (256 * t + (mean % 256).toNat) base else base
      (20 ≤ mean → Turns (.marginMeasure t m) s y) ∧ (mean < 20 → gives (.marginMeasure t m) fun u => asks u y 0)) ∧
    (∀ (i : Fin 3) (a : Nat), let e := eccAt b i
      gives (.eccCorrected i a) (fun u => ∃ y, y = { b with hl := { b.hl with ecc0 := y.hl.ecc0, ecc1 := y.hl.ecc1, ecc2 := y.hl.ecc2 } } ∧ eccAt y i = (min 65535 (e.1 + 1), e.2) ∧ (∀ q : Fin 3, q ≠ i → eccAt y q = eccAt b q) ∧
        (e.1 ≠ 64 → u = y) ∧ (e.1 = 64 → asks u (logEvent now 0x0031 0 i y) 1)) ∧
      gives (.eccUncorrectable i a) (fun u => ∃ y z, y = { b with hl := { b.hl with ecc0 := y.hl.ecc0, ecc1 := y.hl.ecc1, ecc2 := y.hl.ecc2 } } ∧ eccAt y i = (e.1, min 65535 (e.2 + 1)) ∧ (∀ q : Fin 3, q ≠ i → eccAt y q = eccAt b q) ∧
        (i = 0 → z = { y with badMem := z.badMem } ∧ ∀ w, w ∈ z.badMem ↔ w = a ∨ w ∈ b.badMem) ∧
        (i = 1 → (Config.nvmItem a = 1 → z = { y with nv := { b.nv with slotA := { b.nv.slotA with damaged := true } } }) ∧ (Config.nvmItem a = 2 → z = { y with nv := { b.nv with slotB := { b.nv.slotB with damaged := true } } }) ∧
          (Config.nvmItem a = 3 → z = { y with nv := { b.nv with setA := { b.nv.setA with done := false } } }) ∧ (Config.nvmItem a = 4 → z = { y with nv := { b.nv with setB := { b.nv.setB with done := false } } }) ∧
          ((Config.nvmItem a = 0 ∨ 4 < Config.nvmItem a) → z = y)) ∧
        (i = 2 → z = y) ∧ asks u (logEvent now 0x0032 0 (2 ^ 28 * i + a % 2 ^ 28) z) 2)) ∧
    ((now = 0 ∨ now % 3600000000000 ≠ 0 ∨ b.marks.contains 500 = true) → Turns .healthWindow s b) ∧
    (now ≠ 0 → now % 3600000000000 = 0 → b.marks.contains 500 = false → Turns .healthWindow s { b with marks := 500 :: b.marks, hl := { b.hl with
      window := now / 3600000000000, barriers := [], edges := [], ecc0 := (0, b.hl.ecc0.2), ecc1 := (0, b.hl.ecc1.2), ecc2 := (0, b.hl.ecc2.2) } }) ∧
    (∀ v, (b.pw.mains = false ∨ b.pw.pfWarn = true) → Turns (.holdupMeasure v) s b) ∧
    (∀ v, b.pw.mains = true → b.pw.pfWarn = false → let y := { b with hl := { b.hl with holdup := some (min 65535 v) } }
      (170 ≤ v → Turns (.holdupMeasure v) s y) ∧ (v < 170 → gives (.holdupMeasure v) fun u => asks u (logEvent now 0x0035 0 v y) 5)) ∧
    (∀ (i : Fin 9) (dev : Int), ((i.val < 8 ∧ tileOn b i = false) ∨ bit b.hl.supplies i = true) → Turns (.supplyFault i dev) s b) ∧
    (∀ (i : Fin 9) (dev : Int), (i.val < 8 → tileOn b i = true) → bit b.hl.supplies i = false → gives (.supplyFault i dev) fun u => ∃ y w,
      asks y (logEvent now 0x0022 0 (256 * i + (dev % 256).toNat) { b with hl := { b.hl with supplies := b.hl.supplies + 2 ^ i.val, supply := true } }) 6 ∧ hits y w i ∧ (tested i → aborts w u) ∧ (¬tested i → u = w)) ∧
    (∀ i : Fin 9, (bit b.hl.supplies i = false → Turns (.supplyRecovered i) s b) ∧
      (bit b.hl.supplies i = true → Turns (.supplyRecovered i) s { b with hl := { b.hl with supplies := b.hl.supplies - 2 ^ i.val } })) ∧
    (∀ (i : Fin 10) (v : Int), i.val < 8 → tileOn b i = false → Turns (.temperatureRead i v) s b) ∧
    (∀ (i : Fin 10) (v : Int), (i.val < 8 → tileOn b i = true) → -32768 ≤ v → v ≤ 32767 →
      let z := b.tempAt i
      let warnAt : Int := if i.val = 9 then 1360 else 1680
      let critAt : Int := if i.val = 9 then 1520 else 1840
      let data := 256 * i.val + ((v / 16) % 256).toNat
      ∃ y, y.now = v ∧ y.max_ = max z.max_ v ∧ (y.warn = true ↔ warnAt ≤ v ∨ (z.warn = true ∧ warnAt - 80 < v)) ∧ (y.crit = true ↔ critAt ≤ v ∨ (z.crit = true ∧ critAt - 80 ≤ v)) ∧
        let base := b.tempUpd i fun _ => y
        let m := if y.warn = true ∧ z.warn = false then logEvent now 0x0020 0 data base else base
        ((y.crit = false ∨ z.crit = true) → Turns (.temperatureRead i v) s m) ∧
        (y.crit = true → z.crit = false → gives (.temperatureRead i v) fun u => ∃ w, hits (logEvent now 0x0021 0 data { m with hl := { m.hl with thermCrit := true } }) w i ∧ (tested i → aborts w u) ∧ (¬tested i → u = w))) ∧
    (b.bk.tail.drop b.bk.tailSaved = [] → Turns .logNvmWrite s b) ∧
    (∀ e r, b.bk.tail.drop b.bk.tailSaved = e :: r → let l := b.nv.log ++ [e]
      let y := { b with nv := { b.nv with log := l.drop (l.length - 16384) }, bk := { b.bk with tailSaved := b.bk.tailSaved + 1 } }
      gives .logNvmWrite fun u => OnlyWear y u ∧ u.draws = b.draws + 1 ∧
        (∀ k < 256, tabGet 0 u.nv.wear k = tabGet 0 b.nv.wear k + ((Config.nvmBlocks b.draws).map (· % 256)).count k) ∧
        ((∀ k < 256, tabGet 0 b.nv.wear k + ((Config.nvmBlocks b.draws).map (· % 256)).count k < 8000000000) → u = { y with draws := b.draws + 1, nv := { y.nv with wear := u.nv.wear } })) ∧
    (∀ w : Word, let gone := fun (c : Nat) => (c = 0 ∧ ∀ t < b.run.tileSet, 20 ≤ (b.marginAt t).mean) ∨ (c = 1 ∧ b.hl.ecc0.1 ≤ 64 ∧ b.hl.ecc1.1 ≤ 64 ∧ b.hl.ecc2.1 ≤ 64) ∨ c = 2 ∨ c = 8 ∨
        (c = 4 ∧ ∀ m < 4, 10 ≤ (b.barrierAt m).headroom ∧ (b.barrierAt m).lowNs < 1000000000 ∧ (b.barrierAt m).crc ≤ 100) ∨ (c = 5 ∧ ∃ v, b.hl.holdup = some v ∧ 170 ≤ v) ∨ (c = 6 ∧ b.hl.supplies = 0) ∨ (c = 7 ∧ ∀ t < 8, tabGet 0 b.hl.edges t < 3)
      let off := fun (c : Nat) => bit w.toNat c = true ∧ bit b.nv.replace c = true ∧ gone c
      ((∀ c : Fin 9, ¬off c) → Turns (.replaceClear w) s b) ∧
      ((∃ c : Fin 9, off c) → gives (.replaceClear w) fun u => ∃ n d, OnlyLog { b with nv := { b.nv with replace := n } } u ∧ u = logEvent now 0x0038 0 d { b with nv := { b.nv with replace := n } } ∧
        ∀ c : Fin 9, (bit n c = true ↔ bit b.nv.replace c = true ∧ ¬off c) ∧ (bit d c = true ↔ off c))) ∧
    (∀ w : Word, let found := ∃ e ∈ b.nv.log ++ b.bk.tail.drop b.bk.tailSaved, e.seq % 2 ^ 32 = w.toNat
      gives (.logSel w) fun u => u = { b with cfg := u.cfg, hl := { b.hl with sel := w.toNat, miss := u.hl.miss } } ∧ (u.hl.miss = true ↔ ¬found) ∧ tabGet 0 u.cfg (regAddr .HL_LOG_SEL []) = w ∧ ∀ a d, a ≠ regAddr .HL_LOG_SEL [] → tabGet d u.cfg a = tabGet d b.cfg a) ∧
    (b.pw.pfWarn = true → Turns .powerFailWarning s b) ∧
    (b.pw.pfWarn = false → gives .powerFailWarning fun u => ∃ y, (y.pw = { b.pw with pfWarn := true, pfTick := now } ∧
        ((b.storeOp = none ∨ ∃ o, b.storeOp = some o ∧ o.at_ ≠ now) → y = { b with pw := y.pw }) ∧
        (∀ o, b.storeOp = some o → o.at_ = now → y = { b with pw := y.pw, storeOp := none, storeSt := 2, nv := putCopy o.copy { copyAt b o.copy with done := o.hadDone } b.nv })) ∧
      let w := logEvent now 0x0002 0 (b.hl.holdup.getD 0) y
      (testRuns b = true → aborts w u) ∧ (testRuns b = false → u = w)) ∧
    (b.pw.pfWarn = true → Turns .powerFailClear s { b with pw := { b.pw with pfWarn := false, pfCount := min 65535 (b.pw.pfCount + 1) } }) ∧
    (b.pw.pfWarn = false → Turns .powerFailClear s b))

/-- ST_START, ST_ABORT, SELFTEST_ACCEPTED, SELFTEST_SAVE_DONE, SELFTEST_TEST_DONE, SELFTEST_RESTORE_DONE, TAP_INSTRUCTION with self-test `x`. The model's choices and readings, not the spec's: the order of refusals and the numbers of TAP instructions (log 45). -/
def Obligations.SelfTests : Prop :=
  ∀ (s : State) (x : SelfTest), s.clk.up = true → s.b.hl.st = x →
    let now := s.clk.lattice
    let b := s.b
    let sets := fun c (y : SelfTest) => Turns c s { b with hl := { b.hl with st := y } }
    let service := b.nv.life = .fieldService
    let logs := fun (r : Nat) (y : Block) => logEvent now 0x0050 0 (2 ^ 24 * x.op + 2 ^ 16 * x.target + r) y
    let ended := fun (y : SelfTest) (r : Nat) => { y with st := .idle, result := r, reqAt := none, aborting := false, tile := none, pair := none, resume := x.tile.filter fun t => (fastGroup b t).isSome }
    let held := b.nv.life = .owned ∨ service ∨ x.tap = 6
    (∀ op tg : BitVec 4, let code := stRefuse b op.toNat tg.toNat
      let region := stRegion b op.toNat tg.toNat
      let onTile := 1 ≤ op.toNat ∧ op.toNat ≤ 6 ∧ tg.toNat < 8
      let allowed := (op.toNat = 8 ∧ (b.nv.life = .blank ∨ b.nv.life = .manufactured ∨ b.nv.life = .returned)) ∨ (op.toNat = 7 ∧ tg.toNat < 4) ∨ onTile ∨ (op.toNat = 6 ∧ tg.toNat = 8)
      let free := ∀ p ∈ region, stFree b p.1 p.2 = true
      (¬held → Turns (.stStart op tg) s b) ∧
      (held → code ≠ 0 → sets (.stStart op tg) { x with result := 4, refuse := code }) ∧
      (held → code = 0 → sets (.stStart op tg) { op := op.toNat, target := tg.toNat, reqAt := some now, tile := x.tile, resume := x.resume, tap := x.tap }) ∧
      (onTile → ∀ j < 16, (tg.toNat, j) ∈ region) ∧
      ((b.nv.life = .owned ∨ b.nv.life = .retired) → code = 1) ∧
      (service → ¬free → code = 2) ∧
      (service → free → onTile → stDependent b tg.toNat = true → code = 3) ∧
      (service → free → onTile → stDependent b tg.toNat = false → ((b.aqAt tg.toNat).st ≠ .idle ∨ (b.seqAt tg.toNat).st = .running ∨ (b.seqAt tg.toNat).st = .waiting) → code = 4) ∧
      (service → free → (onTile → stDependent b tg.toNat = false ∧ stBusyTile b tg.toNat = false) →
        ((testRuns b = true ∨ b.cm.ph = .accepted ∨ b.cm.ph = .go) → code = 5) ∧
        (testRuns b = false → b.cm.ph ≠ .accepted → b.cm.ph ≠ .go → (onTile → tileOn b tg.toNat = false → code = 6) ∧ ((onTile → tileOn b tg.toNat = true) → (¬allowed → code = 7) ∧ (allowed → code = 0)))) ∧
      (¬service → b.nv.life ≠ .owned → b.nv.life ≠ .retired → (testRuns b = true → code = 5) ∧ (testRuns b = false → (¬allowed → code = 7) ∧ (allowed → code = 0)))) ∧
    (testRuns b = false → Turns .stAbort s b) ∧
    (testRuns b = true → x.tile ≠ none → sets .stAbort { x with aborting := true, st := .restoring }) ∧
    (testRuns b = true → x.tile = none → Turns .stAbort s (logs 3 { b with hl := { b.hl with st := ended x 3 } })) ∧
    ((x.reqAt = none ∨ x.st ≠ .idle) → Turns .selftestAccepted s b) ∧
    (x.reqAt ≠ none → x.st = .idle → let y := { x with reqAt := none, accAt := now }
      (stOnTile x.op x.target = true → tileOn b x.target = true → fastGroup b x.target ≠ none → x.op ≠ 7 → sets .selftestAccepted { y with st := .accepted }) ∧
      (stOnTile x.op x.target = true → tileOn b x.target = true → fastGroup b x.target = none → x.op ≠ 7 → sets .selftestAccepted { y with st := .saving, tile := some x.target }) ∧
      ((stOnTile x.op x.target = false ∨ tileOn b x.target = false) → x.op ≠ 7 → sets .selftestAccepted { y with st := .running, pair := none }) ∧
      (x.op = 7 → Turns .selftestAccepted s ({ b with hl := { b.hl with st := { y with st := .running, pair := some x.target } } }.fpUpd x.target fun p =>
        { p with level := 0, valid := 0, regAt := now, levelPrev := if p.regAt = now then p.levelPrev else p.level }))) ∧
    (x.st = .saving → sets .selftestSaveDone { x with st := .running }) ∧ (x.st ≠ .saving → Turns .selftestSaveDone s b) ∧
    (∀ pass detail, x.st ≠ .running → Turns (.selftestTestDone pass detail) s b) ∧
    (∀ pass detail, x.st = .running → let r := if x.aborting = true then 3 else if pass = true then 1 else 2
      let y := { x with st := .restoring, result := if pass = true then 1 else 2, detail := if pass = true then x.detail else detail }
      (pass = true → x.tile ≠ none → sets (.selftestTestDone pass detail) y) ∧
      (pass = true → x.tile = none → Turns (.selftestTestDone pass detail) s (logs r { b with hl := { b.hl with st := ended y r } })) ∧
      (pass = false → Gives (.selftestTestDone pass detail) s fun u => u = { s with b := u.b } ∧ ∃ z, OnlyWear { b with hl := { b.hl with st := y } } z ∧ (∀ i : Fin 9, bit z.nv.replace i = (bit b.nv.replace i || decide (i.val = 8))) ∧
        (x.tile ≠ none → u.b = z) ∧ (x.tile = none → u.b = logs r { z with hl := { z.hl with st := ended y r } }))) ∧
    (x.st ≠ .restoring → Turns .selftestRestoreDone s b) ∧
    (x.st = .restoring → let r := if x.aborting = true then 3 else x.result
      let y := logs r { b with hl := { b.hl with st := ended x r } }
      (x.tile = none → Turns .selftestRestoreDone s y) ∧
      (∀ t, x.tile = some t → (fastGroup b t = none → Turns .selftestRestoreDone s y) ∧
        ∀ g, fastGroup b t = some g → (isSample b now t g = false → Turns .selftestRestoreDone s y) ∧
          (isSample b now t g = true → Turns .selftestRestoreDone s (forN 4 (fun g' c => sampleGroup now t g' c) { y with hl := { y.hl with st := { y.hl.st with resume := none } } })))) ∧
    (∀ code : Fin 7, let life := b.nv.life
      let c := if (life = .owned ∨ life = .retired) ∧ 1 < code.val then 0 else if life = .fieldService ∧ 3 ≤ code.val ∧ code.val ≤ 5 then 0 else code.val
      ((c < 2 ∨ b.tr.debugOpened = true) → sets (.tapInstruction code) { x with tap := c }) ∧
      (2 ≤ c → b.tr.debugOpened = false → Turns (.tapInstruction code) s (logEvent now 0x0004 0 c { b with tr := { b.tr with debugOpened := true }, hl := { b.hl with st := { x with tap := c } } })))

/-- CMD_READ, CMD_WRITE, CMD_STAGE, REGISTER_WRITE, STAGING_WRITE to the address range of an unpowered tile; the access errors are 2 ALIGN, 3 ADDRESS, 4 ROLE, 5 REFUSED. -/
def Obligations.UnpoweredTiles : Prop :=
  ∀ (k : Fin 8) (s : State) (t : Fin 8), s.clk.up = true → tileOn s.b t = false →
    let inTile := fun (a : Nat) => 0x10000000 + 0x1000000 * t.val ≤ a ∧ a < 0x10000000 + 0x1000000 * (t.val + 1)
    let refused := fun (c : Instr) (op : Nat) => ∃ e ∈ [2, 3, 4, 5], Turns c s (s.b.sessUpd k fun x => { x with last := { op := op, status := e, data := [] }, lastWait := .none })
    let open_ := (s.b.sessAt k).st = .open_
    (∀ n a i, open_ → 1 ≤ n → n ≤ 256 → a < 2 ^ 32 → i < n → inTile (a + 4 * i) → refused (.cmdRead k n a) 1) ∧
    (∀ a (ws : List Word) i, open_ → ws.length ≤ 256 → a < 2 ^ 32 → i < ws.length → inTile (a + 4 * i) → refused (.cmdWrite k a ws) 2 ∧ refused (.cmdStage k a ws) 3) ∧
    (∀ a v, inTile a → refused (.registerWrite k a v) 2) ∧
    (∀ a v, s.b.run.on = true → inTile a → refused (.stagingWrite k a v) 3) ∧
    (∀ now j i n hs y, genLand s.b t j = .hiZ ∧ pwmLand s.b now t j n hs y = .hiZ ∧ stepLand s.b t i = .hiZ ∧ dirLand s.b t i = .hiZ ∧ resLand s.b t i n = .hiZ ∧ cmpOutLand s.b t i = .hiZ ∧ mclkLand s.b now t = .hiZ)

/-- CMD_READ, CMD_WRITE, CMD_STAGE, CMD_COMMIT, CMD_STORE, CMD_XFER_READ, CMD_XFER_WRITE, CMD_SETPOINT of session `k`, and REGISTER_WRITE. The model's choices and readings, not the spec's: the set-point that waits on the spine (log 56), registers served without an image and under test (log 31), the accesses of log 46, the statuses of log 47, and the result of a command row (log 51). -/
def Obligations.HostCommands : Prop :=
  ∀ (k : Fin 8) (s : State),
    let now := s.clk.lattice
    let b := s.b
    let x := b.sessAt k
    let cm := b.cm
    let ready := s.clk.up = true ∧ x.st = .open_
    let with_ := fun (y : Block) (op st : Nat) (data : List Byte) (w : Wait) => y.sessUpd k fun z => { z with last := { op := op, status := st, data := data }, lastWait := w }
    let ends := fun (c : Instr) (y : Block) (op st : Nat) (data : List Byte) (w : Wait) => Turns c s (with_ y op st data w)
    let only := fun (c : Instr) (op st : Nat) (data : List Byte) => ends c b op st data .none
    let may := fun r => hasRoles b k r = true
    let verify := regAddr .SF_VERIFY []
    let turned : Block := if b.run.on = true ∧ ¬may 8 then { b with sf := { b.sf with verifyErr := true } } else b
    (¬ready → ∀ n a ws asap tick tg q ofs last bytes tile input ap v, Turns (.cmdRead k n a) s b ∧ Turns (.cmdWrite k a ws) s b ∧ Turns (.cmdStage k a ws) s b ∧
      Turns (.cmdCommit k asap tick) s b ∧ Turns (.cmdStore k) s b ∧ Turns (.cmdXferRead k tg n q ofs) s b ∧ Turns (.cmdXferWrite k tg last q ofs bytes) s b ∧
      Turns (.cmdSetpoint k tile input ap v) s b) ∧
    (ready →
      (∀ n a, ¬(1 ≤ n ∧ n ≤ 256 ∧ a < 2 ^ 32) → only (.cmdRead k n a) 1 1 []) ∧
      (∀ a ws, ¬(1 ≤ ws.length ∧ ws.length ≤ 256 ∧ a < 2 ^ 32) → only (.cmdWrite k a ws) 2 1 [] ∧ only (.cmdStage k a ws) 3 1 []) ∧
      (∀ asap tick, ¬tick < 2 ^ 64 → only (.cmdCommit k asap tick) 4 1 []) ∧
      (∀ tg n q ofs, ¬(4 ≤ n ∧ n ≤ 1024 ∧ n % 4 = 0 ∧ 1 ≤ tg ∧ tg ≤ 7 ∧ q < 256 ∧ ofs < 2 ^ 32) → only (.cmdXferRead k tg n q ofs) 6 1 []) ∧
      (∀ tg last q ofs data, ¬(1 ≤ tg ∧ tg ≤ 7 ∧ q < 256 ∧ ofs < 2 ^ 32 ∧ data.length < 65536) → only (.cmdXferWrite k tg last q ofs data) 7 1 []) ∧
      (∀ tile input ap v, ¬(tile < 8 ∧ input < 32 ∧ ap < 2 ^ 64) → only (.cmdSetpoint k tile input ap v) 8 1 []) ∧
      (∀ n a i, 1 ≤ n → n ≤ 256 → a < 2 ^ 32 → i < n → readStatus b (a + 4 * i) ≠ 0 → (∀ j < i, readStatus b (a + 4 * j) = 0) → only (.cmdRead k n a) 1 (readStatus b (a + 4 * i)) []) ∧
      (∀ n a, 1 ≤ n → n ≤ 256 → a < 2 ^ 32 → (∀ i, i < n → readStatus b (a + 4 * i) = 0) → Gives (.cmdRead k n a) s fun u =>
        ∃ (ws : List Word) (y : Block), ws.length = n ∧ y = { b with hiLatch := y.hiLatch, te := y.te } ∧ u = { s with b := with_ y 1 0 (ws.flatMap fun w => leBytes 4 w.toNat) .none } ∧
          ∀ i < n, (∀ o, secBufAt (a + 4 * i) = some o → ws[i]? = some (BitVec.ofNat 32 (leNat (tabBytes 0 (b.bankAt k).buf o 4)))) ∧
            (∀ t w, secBufAt (a + 4 * i) = none → localAt (a + 4 * i) = some (t, w) → ws[i]? = some (tabGet 0 (b.seqAt t).mem w)) ∧
            (∀ r ix, i = 0 → secBufAt a = none → localAt a = none → regAt a = some (r, ix) → ws[0]? = some (regWordAt now k b r ix a))) ∧
      (∀ a (ws : List Word) i v, ws.length ≤ 256 → a < 2 ^ 32 → ws[i]? = some v → writeStatus now k (a + 4 * i) v.toNat b ≠ 0 → (∀ j < i, ∀ v', ws[j]? = some v' → writeStatus now k (a + 4 * j) v'.toNat b = 0) →
        (∀ j < ws.length, a + 4 * j ≠ verify) → only (.cmdWrite k a ws) 2 (writeStatus now k (a + 4 * i) v.toNat b) []) ∧
      (∀ a (v : Word), a < 2 ^ 32 → exec (.cmdWrite k a [v]) s = exec (.registerWrite k a v) s) ∧
      (∀ a (ws : List Word), 1 ≤ ws.length → ws.length ≤ 256 → a < 2 ^ 32 → (∀ i < ws.length, writeStatus now k (a + 4 * i) (ws.getD i 0).toNat b = 0) → let y := writeWords k a ws s
        exec (.cmdWrite k a ws) s = .next (y.2.mapB fun z => with_ z 2 y.1 [] .none)) ∧
      (∀ a (ws : List Word) i, ws.length ≤ 256 → a < 2 ^ 32 → i < ws.length → stageStatus b k (a + 4 * i) ≠ 0 → (∀ j < i, stageStatus b k (a + 4 * j) = 0) → only (.cmdStage k a ws) 3 (stageStatus b k (a + 4 * i)) []) ∧
      (∀ a v, a < 2 ^ 32 → b.run.on = true → secBufAt a = none → localAt a = none → exec (.cmdStage k a [v]) s = exec (.stagingWrite k a v) s) ∧
      (∀ a (ws : List Word), 1 ≤ ws.length → ws.length ≤ 256 → a < 2 ^ 32 → (∀ i < ws.length, stageStatus b k (a + 4 * i) = 0) → let y := stageWords k a ws s
        exec (.cmdStage k a ws) s = .next (y.2.mapB fun z => with_ z 3 y.1 [] .none)) ∧
      (∀ asap tick, tick < 2 ^ 64 → b.run.on = false → only (.cmdCommit k asap tick) 4 5 [] ∧ only (.cmdStore k) 5 5 []) ∧
      (∀ asap tick, tick < 2 ^ 64 → b.run.on = true → ¬may 4 → only (.cmdCommit k asap tick) 4 4 [] ∧ only (.cmdStore k) 5 4 []) ∧
      (∀ asap tick, tick < 2 ^ 64 → b.run.on = true → may 4 →
        let named := fun (cfg : Tab Word) => tabGet 0 cfg (regAddr .CM_APPLY_LO []) = BitVec.ofNat 32 tick ∧ tabGet 0 cfg (regAddr .CM_APPLY_HI []) = BitVec.ofNat 32 (tick / 2 ^ 32) ∧
          ∀ a d, a ≠ regAddr .CM_APPLY_LO [] → a ≠ regAddr .CM_APPLY_HI [] → tabGet d cfg a = tabGet d b.cfg a;
        (cm.ph = .idle → (cm.owner = none ∨ cm.owner = some k.val) → Gives (.cmdCommit k asap tick) s fun u => ∃ cfg, named cfg ∧
          u = { s with b := with_ { b with cfg := cfg, cm := { cm with owner := some k, ph := .checking, asap := asap, named := tick, regAt := now } } 4 0 [] .commit }) ∧
        ((cm.ph ≠ .idle ∨ (cm.owner ≠ none ∧ cm.owner ≠ some k.val)) → Gives (.cmdCommit k asap tick) s fun u => ∃ cfg tile detail, named cfg ∧
          u = { s with b := with_ { b with cfg := cfg, draws := b.draws + 1, cm := { cm with code := 7, tile := tile, detail := detail, item := 0 } } 4 0x87 [] .none })) ∧
      (b.run.on = true → may 4 → b.storeOp = none → b.pw.pfWarn = false → ∃ w, exec (.store k) s = .next w ∧ exec (.cmdStore k) s = .next (w.mapB fun z => with_ z 5 0 [] .store)) ∧
      (b.run.on = true → may 4 → b.storeOp = none → b.pw.pfWarn = true → ends (.cmdStore k) { b with storeSt := 2 } 5 0x42 [] .none) ∧
      (b.run.on = true → may 4 → b.storeOp ≠ none → ends (.cmdStore k) { b with storeSt := 3 } 5 0x43 [] .none) ∧
      (∀ tg n q ofs, 4 ≤ n → n ≤ 1024 → n % 4 = 0 → 1 ≤ tg → tg ≤ 7 → q < 256 → ofs < 2 ^ 32 → let c := Instr.cmdXferRead k tg n q ofs
        let gets := fun (y : Block) (bytes : List Byte) => ends c y 6 0 bytes .none
        (ofs % 4 ≠ 0 → only c 6 1 []) ∧
        (ofs % 4 = 0 → (tg = 3 ∨ tg = 5) → only c 6 3 []) ∧
        (ofs % 4 = 0 → tg = 1 → (partIdx b q = none ∨ ∃ p, partIdx b q = some p ∧ p.size * 65536 < ofs + n) → only c 6 3 []) ∧
        (∀ p, ofs % 4 = 0 → tg = 1 → partIdx b q = some p → ofs + n ≤ p.size * 65536 →
          (badIn b (p.base * 65536 + ofs) n = false → gets b (tabBytes 0 b.mem (p.base * 65536 + ofs) n)) ∧ (badIn b (p.base * 65536 + ofs) n = true → only c 6 6 [])) ∧
        (ofs % 4 = 0 → tg = 2 → (q ≠ 0 ∨ 4 * 1024 * 1024 < ofs + n) → only c 6 3 []) ∧
        (ofs % 4 = 0 → tg = 2 → q = 0 → ofs + n ≤ 4 * 1024 * 1024 →
          (badIn b (4032 * 65536 + ofs) n = false → gets b (tabBytes 0 b.mem (4032 * 65536 + ofs) n)) ∧ (badIn b (4032 * 65536 + ofs) n = true → only c 6 6 [])) ∧
        (ofs % 4 = 0 → tg = 4 → ¬(q < 12 ∧ Fld.BL_PORT_CFG_EN b.cfg q = true) → only c 6 3 []) ∧
        (ofs % 4 = 0 → tg = 4 → q < 12 → Fld.BL_PORT_CFG_EN b.cfg q = true → let l := (b.blAt q).rxq
          (1428 < (l.headD []).length → only c 6 1 []) ∧ ((l.headD []).length ≤ 1428 → gets (b.blUpd q fun z => { z with rxq := l.drop 1 }) (l.headD []))) ∧
        (ofs % 4 = 0 → tg = 6 → ¬(q < 2 ∧ Fld.NT_PTP_CFG_EN b.cfg q = true) → only c 6 3 []) ∧
        (ofs % 4 = 0 → tg = 6 → q < 2 → Fld.NT_PTP_CFG_EN b.cfg q = true → let l := (b.ptpAt q).rx
          (1428 < (l.headD []).length → only c 6 1 []) ∧ ((l.headD []).length ≤ 1428 → gets (b.ptpUpd q fun z => { z with rx := l.drop 1 }) (l.headD []))) ∧
        (ofs % 4 = 0 → tg = 7 → (q ≠ 0 ∨ (b.nv.keys.cert.length + 3) / 4 * 4 < ofs + n) → only c 6 3 []) ∧
        (ofs % 4 = 0 → tg = 7 → q = 0 → ofs + n ≤ (b.nv.keys.cert.length + 3) / 4 * 4 → gets b (slice (slice b.nv.keys.cert 0 ((b.nv.keys.cert.length + 3) / 4 * 4)) ofs n))) ∧
      (∀ tg last q ofs (data : List Byte), data.length < 65536 → 1 ≤ tg → tg ≤ 7 → q < 256 → ofs < 2 ^ 32 → let c := Instr.cmdXferWrite k tg last q ofs data
        let n := data.length
        let stored := fun (base : Nat) (y : Block) => y = { b with mem := y.mem, badMem := y.badMem } ∧ (∀ a, tabGet 0 y.mem a = if base ≤ a ∧ a < base + n then data.getD (a - base) 0 else tabGet 0 b.mem a) ∧
          ∀ w, w ∈ y.badMem ↔ w ∈ b.badMem ∧ ¬(base ≤ 4 * w ∧ 4 * w + 4 ≤ base + n)
        let misfit := (tg = 3 ∧ (n < 4 ∨ 260 < n ∨ n % 4 ≠ 0)) ∨ (tg = 5 ∧ n < 4) ∨ ofs % 4 ≠ 0
        let held := (cm.owner ≠ none ∧ cm.owner ≠ some k.val) ∨ (cm.image ≠ none ∧ (cm.ph = .accepted ∨ cm.ph = .go))
        (misfit → only c 7 1 []) ∧
        (¬misfit → (tg = 4 ∨ tg = 6 ∨ tg = 7) → only c 7 3 []) ∧
        (¬misfit → tg = 1 → (partIdx b q = none ∨ ∃ p, partIdx b q = some p ∧ p.size * 65536 < ofs + n) → only c 7 3 []) ∧
        (∀ p, ¬misfit → tg = 1 → partIdx b q = some p → ofs + n ≤ p.size * 65536 → let base := p.base * 65536 + ofs
          (¬may 4 → only c 7 4 []) ∧ (may 4 → (p.kind = 4 ∨ hitsLocked b base n = true) → only c 7 5 []) ∧
          (may 4 → p.kind ≠ 4 → hitsLocked b base n = false → Gives c s fun u => ∃ y, stored base y ∧ u = { s with b := with_ y 7 0 [] .none })) ∧
        (¬misfit → tg = 2 → (q ≠ 0 ∨ 4 * 1024 * 1024 < ofs + n) → only c 7 3 []) ∧
        (¬misfit → tg = 2 → q = 0 → ofs + n ≤ 4 * 1024 * 1024 → let base := 4032 * 65536 + ofs
          (¬may 4 → only c 7 4 []) ∧ (may 4 → held → only c 7 5 []) ∧
          (may 4 → ¬held → cm.ph ≠ .idle → Gives c s fun u => ∃ y, stored base y ∧ u = { s with b := with_ y 7 (if last = true then 0x87 else 0) [] .none }) ∧
          (may 4 → ¬held → cm.ph = .idle → last = false → Gives c s fun u => ∃ y, stored base y ∧ u = { s with b := with_ { y with cm := { cm with owner := some k } } 7 0 [] .none }) ∧
          (may 4 → ¬held → cm.ph = .idle → last = true → Gives c s fun u => ∃ y, stored base y ∧
            let len := min (4 * 1024 * 1024) (leNat (tabBytes 0 y.mem (4032 * 65536 + 12) 4))
            u = { s with b := with_ { y with cm := { cm with owner := some k, imgBusy := 1, imgBytes := tabBytes 0 y.mem (4032 * 65536) len, imgDone := false, imgBad := badIn y (4032 * 65536) len } } 7 0 [] .image })) ∧
        (¬misfit → tg = 3 → ¬(q < 12 ∧ Fld.BL_PORT_CFG_EN b.cfg q = true) → only c 7 3 []) ∧
        (¬misfit → tg = 3 → q < 12 → Fld.BL_PORT_CFG_EN b.cfg q = true → let l := (b.blAt q).fwdq.length + (b.blAt q).hostq.length
          (¬may 2 → only c 7 4 []) ∧ (may 2 → l < 8 → ends c (b.blUpd q fun z => { z with hostq := z.hostq ++ [(decide (leAt data 1 1 ≠ 0), leAt data 0 1, data.drop 4)] }) 7 0 [] .none) ∧
          (may 2 → 8 ≤ l → ends c (b.blUpd q fun z => { z with fwdDrop := min 255 (z.fwdDrop + 1) }) 7 5 [] .none)) ∧
        (¬misfit → tg = 5 → ¬(q < 2 ∧ Fld.NT_PTP_CFG_EN b.cfg q = true) → only c 7 3 []) ∧
        (¬misfit → tg = 5 → q < 2 → Fld.NT_PTP_CFG_EN b.cfg q = true →
          (¬may 2 → only c 7 4 []) ∧
          (may 2 → (b.ptpAt q).txq.length < 16 → ends c (b.ptpUpd q fun z => { z with txq := z.txq ++ [{ frame := data.drop 4, tsReq := bit (leAt data 0 4) 0, oneStep := bit (leAt data 0 4) 1 }] }) 7 0 [] .none) ∧
          (may 2 → 16 ≤ (b.ptpAt q).txq.length → ends c (b.ptpUpd q fun z => { z with txOvf := true }) 7 5 [] .none))) ∧
      (∀ tile input ap v, tile < 8 → input < 32 → ap < 2 ^ 64 → let c := Instr.cmdSetpoint k tile input ap v
        let fed := tileOn b tile = true ∧ spI b tile input ≠ 0
        let rate := b.run.spRate.getD k 0
        let credit := min (max 1 (ceilDiv rate 100) * 1000000000) (x.credit + rate * (now - x.creditAt))
        let sent := fun (y : Block) (low : Bool) => { y with spFly := b.spFly ++ [{ dst := 32 * tile + input, apply := ap, val := v.toInt, src := k, cls5 := low, at_ := now }] }
        (¬fed → only c 8 3 []) ∧ (fed → ¬may 2 → only c 8 4 []) ∧ (fed → may 2 → Fld.BL_SPIN_EN b.cfg tile input = true → only c 8 5 []) ∧
        (fed → may 2 → Fld.BL_SPIN_EN b.cfg tile input = false →
          (rate ≠ 0 → 1000000000 ≤ credit → ends c (sent (b.sessUpd k fun z => { z with credit := credit - 1000000000, creditAt := now }) false) 8 0 [] .none) ∧
          ((rate = 0 ∨ credit < 1000000000) → ends c (sent (b.sessUpd k fun z => { z with credit := credit, creditAt := now, class5 := min 0xFFFFFFFF (z.class5 + 1) }) true) 8 0 [] .none)))) ∧
    (s.clk.up = false → ∀ a v, Turns (.registerWrite k a v) s b) ∧
    (s.clk.up = true → ∀ (a : Nat) (v : Word), let e := writeStatus now k a v.toNat b
      let c := Instr.registerWrite k a v
      (e ≠ 0 → a ≠ verify → only c 2 e []) ∧ (e ≠ 0 → a = verify → ends c turned 2 e [] .none) ∧
      (∀ o, e = 0 → secBufAt a = some o → ends c (b.bankUpd k fun z => { z with buf := tabFill 0 z.buf o (leBytes 4 v.toNat) }) 2 0 [] .none) ∧
      (∀ t w, e = 0 → secBufAt a = none → localAt a = some (t, w) → Gives c s fun u => ∃ m, u = { s with b := with_ (b.seqUpd t fun z => { z with mem := m }) 2 0 [] .none } ∧ tabGet 0 m w = v ∧ ∀ w', w' ≠ w → tabGet 0 m w' = tabGet 0 (b.seqAt t).mem w') ∧
      (∀ r ix, e = 0 → secBufAt a = none → localAt a = none → regAt a = some (r, ix) → sgMask r ≠ 0 → ends c (stageWord k a v b).2 2 (stageWord k a v b).1 [] .none) ∧
      (∀ r ix, e = 0 → secBufAt a = none → localAt a = none → regAt a = some (r, ix) → r ∈ ([.CM_APPLY_LO, .CM_APPLY_HI, .CM_PEEK_ADDR, .CE_MODE_AT_LO, .CE_MODE_AT_HI, .QD_REFVAL_LO, .QD_REFVAL_HI, .GR_CMP_POS_LO, .GR_CMP_POS_HI, .GR_CMP_PITCH_LO, .GR_CMP_PITCH_HI, .GR_CMP_COUNT,
          .AQ_HUB_ARM_LO, .AQ_HUB_ARM_HI, .NT_STEP_LO, .NT_STEP_HI, .NT_EV_CFG, .NT_EV_T_LO, .NT_EV_T_HI, .NT_EV_PER, .NT_EV_WIDTH, .SEC_IDLE] : List RegId) → Gives c s fun u => ∃ cfg, u = { s with b := with_ { b with cfg := cfg } 2 0 [] .none } ∧
        tabGet (regDef r).reset cfg a = mergeBits (regDef r).rw (tabGet (regDef r).reset b.cfg a) v ∧ ∀ a', a' ≠ a → ∀ d, tabGet d cfg a' = tabGet d b.cfg a') ∧
      (∀ (t : Fin 8) (j : Fin 4), e = 0 → secBufAt a = none → localAt a = none → regAt a = some (.AX_CTRL, [t.val, j.val]) → let acts := fun (i : Instr) => ∃ u, exec i s = .next u ∧ exec c s = .next (u.mapB fun z => with_ z 2 0 [] .none)
        (v.toNat % 8 = 1 → acts (.axEnable t j)) ∧ (v.toNat % 8 = 2 → acts (.axDisable t j)) ∧ (v.toNat % 8 = 4 → acts (.axAlign t j))))

/-- PUT, GET, STATUS on the serial port with record `x`; ETH_FRAME_RX and PHY_POLL on MAC `m`. The model's choices and readings, not the spec's: the lists of sent messages (log 49) and the offsets in Ethernet frames (log 23). -/
def Obligations.HostPorts : Prop :=
  ∀ (s : State) (x : HPort) (m : Fin 2), s.b.hpAt 2 = x →
    let b := s.b
    let to_ := fun c (y : HPort) => Turns c s (b.hpUpd 2 fun _ => y)
    let used := b.nv.life ≠ .blank ∧ (b.run.on = false ∨ Fld.HP_MAC_CFG_EN b.cfg m = true)
    (s.clk.up = false → ∀ bs w l f d, Turns (.put bs w) s b ∧ Turns .get s b ∧ Turns .status s b ∧ Turns (.phyPoll m l f d) s b ∧ Turns (.ethFrameRx m bs) s b) ∧
    (s.clk.up = true →
      (∀ bs : List Byte, to_ (.put bs false) { x with rxOvf := true }) ∧
      (∀ bs : List Byte, 2 ≤ x.rx.length → to_ (.put bs true) { x with rxOvf := true }) ∧
      (∀ bs : List Byte, x.rx.length < 2 → msgOk bs = true → to_ (.put bs true) { x with rx := x.rx ++ [(0, bs)] }) ∧
      (∀ bs : List Byte, x.rx.length < 2 → msgOk bs = false → Turns (.put bs true) s b) ∧
      (∀ d bs r, x.tx = (d, bs) :: r → to_ .get { x with tx := r, out := leBytes 2 bs.length ++ bs }) ∧
      (x.tx = [] → to_ .get { x with out := leBytes 2 0 }) ∧
      to_ .status { x with out := leBytes 1 ((if x.tx = [] then 0 else 1) + (if 2 ≤ x.rx.length then 2 else 0)) } ∧
      (∀ l f d, (used → Turns (.phyPoll m l f d) s (b.hpUpd m fun y => { y with link := l, fast := f, full := d })) ∧ (¬used → Turns (.phyPoll m l f d) s b)) ∧
      (∀ f : List Byte, let c := Instr.ethFrameRx m f
        let none_ := Turns c s b
        let cut := Turns c s (b.hpUpd m fun y => { y with discard := min 65535 (y.discard + 1) })
        let answers := fun (dst : Nat) (bs : List Byte) => Turns c s (b.hpUpd m fun y => { y with tx := y.tx ++ [(dst, bs)] })
        let ptp := (ptpAt f).isSome = true ∧ Fld.NT_PTP_CFG_EN b.cfg m = true
        let e := beAt f (etherAt f) 2
        let o := etherAt f + 2
        let h := o + 4 * (beAt f o 1 % 16)
        let src := beAt f (o + 12) 4
        let mine := slice f 0 6 = macBytes b m
        let all := slice f 0 6 = List.replicate 6 0xFF
        let asks := beAt f (o + 6) 2 = 1 ∧ beAt f (o + 24) 4 = ownIp b m
        let payload := slice f (h + 8) (beAt f (h + 4) 2 - 8)
        let sum := beAt f (h + 2) 2 + 0x0800
        (¬used → none_) ∧ (used → 1518 < f.length → cut) ∧ (used → f.length ≤ 1518 → ptp → none_) ∧
        (used → f.length ≤ 1518 → ¬ptp →
          (¬mine → ¬all → cut) ∧ (¬mine → all → e ≠ 0x0806 → cut) ∧ ((mine ∨ all) → e = 0x0806 → ¬asks → none_) ∧ (mine → e ≠ 0x0800 → e ≠ 0x0806 → none_) ∧
          ((mine ∨ all) → e = 0x0806 → asks → answers (beAt f (o + 14) 4) (slice f o 6 ++ [0, 2] ++ macBytes b m ++ (leBytes 4 (ownIp b m)).reverse ++ slice f (o + 8) 10)) ∧
          (mine → e = 0x0800 → beAt f (o + 16) 4 ≠ ownIp b m → none_) ∧
          (mine → e = 0x0800 → beAt f (o + 16) 4 = ownIp b m →
            (beAt f (o + 9) 1 = 17 → beAt f (h + 2) 2 = 4960 → msgOk payload = true → Turns c s (b.hpUpd m fun y => { y with rx := y.rx ++ [(src * 65536 + beAt f h 2, payload)] })) ∧
            (beAt f (o + 9) 1 = 17 → (beAt f (h + 2) 2 ≠ 4960 ∨ msgOk payload = false) → none_) ∧
            (beAt f (o + 9) 1 = 1 → beAt f h 1 = 8 → answers src ([0] ++ slice f (h + 1) 1 ++ (leBytes 2 (sum % 65536 + sum / 65536)).reverse ++ slice f (h + 4) (beAt f (o + 2) 2 - (h - o) - 4))) ∧
            (beAt f (o + 9) 1 ≠ 17 → ¬(beAt f (o + 9) 1 = 1 ∧ beAt f h 1 = 8) → none_)))))
end

