-- ==== Sys2Proof/Laws/Tab.lean ====
section
/-! SUPPORT. Laws of the sparse tables: a read after a write gives the value written, a write leaves every other key alone, and every operation keeps the canonical form. -/

namespace Sys2Proof.Machine

theorem tabFind_erase_same {α : Type} (t : Tab α) (i : Nat) : tabFind (tabErase t i) i = none := by
  induction t with
  | nil => rfl
  | cons e r ih =>
    obtain ⟨k, v⟩ := e
    by_cases h : k = i <;> simp_all [tabErase, tabFind]

theorem tabFind_erase_ne {α : Type} (t : Tab α) (i j : Nat) (hij : j ≠ i) : tabFind (tabErase t i) j = tabFind t j := by
  induction t with
  | nil => rfl
  | cons e r ih =>
    obtain ⟨k, v⟩ := e
    by_cases h : k = i
    · subst h; simp_all [tabErase, tabFind, Ne.symm hij]
    · by_cases h2 : k = j <;> simp_all [tabErase, tabFind]

theorem tabFind_insert_same {α : Type} (t : Tab α) (i : Nat) (x : α) : tabFind (tabInsert t i x) i = some x := by
  induction t with
  | nil => simp [tabInsert, tabFind]
  | cons e r ih =>
    obtain ⟨k, v⟩ := e
    by_cases h1 : i < k
    · simp [tabInsert, tabFind, h1]
    · by_cases h2 : i = k
      · simp [tabInsert, tabFind, h2]
      · simp [tabInsert, tabFind, h1, h2, Ne.symm h2, ih]

theorem tabFind_insert_ne {α : Type} (t : Tab α) (i j : Nat) (x : α) (hij : j ≠ i) :
    tabFind (tabInsert t i x) j = tabFind t j := by
  induction t with
  | nil => simp [tabInsert, tabFind, Ne.symm hij]
  | cons e r ih =>
    obtain ⟨k, v⟩ := e
    by_cases h1 : i < k
    · simp [tabInsert, tabFind, h1, Ne.symm hij]
    · by_cases h2 : i = k
      · subst h2; simp [tabInsert, tabFind, Ne.symm hij]
      · rw [tabInsert, if_neg h1, if_neg h2]
        simp [tabFind, ih]

/-- A read after a write to the same key gives the value written. -/
@[simp] theorem tabGet_set_same {α : Type} [DecidableEq α] (d : α) (t : Tab α) (i : Nat) (v : α) : tabGet d (tabSet d t i v) i = v := by
  by_cases h : v = d
  · simp [tabGet, tabSet, h, tabFind_erase_same]
  · simp [tabGet, tabSet, h, tabFind_insert_same]

/-- A write leaves every other key alone. -/
theorem tabGet_set_ne {α : Type} [DecidableEq α] (d : α) (t : Tab α) (i j : Nat) (v : α) (hij : j ≠ i) :
    tabGet d (tabSet d t i v) j = tabGet d t j := by
  by_cases h : v = d
  · simp [tabGet, tabSet, h, tabFind_erase_ne t i j hij]
  · simp [tabGet, tabSet, h, tabFind_insert_ne t i j v hij]

@[simp] theorem tabGet_upd_same {α : Type} [DecidableEq α] (d : α) (t : Tab α) (i : Nat) (f : α → α) :
    tabGet d (tabUpd d t i f) i = f (tabGet d t i) := tabGet_set_same d t i _

theorem tabGet_upd_ne {α : Type} [DecidableEq α] (d : α) (t : Tab α) (i j : Nat) (f : α → α) (hij : j ≠ i) :
    tabGet d (tabUpd d t i f) j = tabGet d t j := tabGet_set_ne d t i j _ hij

/-- Of two values written to one entry, neither the default, the second stands. -/
theorem tabSet_set {α : Type} [DecidableEq α] (d : α) (t : Tab α) (i : Nat) (v w : α) (hv : v ≠ d) (hw : w ≠ d) : tabSet d (tabSet d t i v) i w = tabSet d t i w := by
  simp only [tabSet, hv, hw, if_false]
  induction t with
  | nil => simp [tabInsert]
  | cons e r ih =>
    obtain ⟨k, x⟩ := e
    by_cases h1 : i < k
    · simp [tabInsert, h1]
    · by_cases h2 : i = k
      · subst h2; simp [tabInsert]
      · simp [tabInsert, h1, h2, ih]

/-- Two updates of one entry are one. -/
theorem tabUpd_upd {α : Type} [DecidableEq α] (d : α) (t : Tab α) (i : Nat) (f g : α → α) (hf : f (tabGet d t i) ≠ d) (hg : g (f (tabGet d t i)) ≠ d) :
    tabUpd d (tabUpd d t i f) i g = tabUpd d t i fun x => g (f x) := by
  unfold tabUpd; rw [tabGet_set_same, tabSet_set _ _ _ _ _ hf hg]

/-- Updates that agree on the value at the key agree. -/
theorem tabUpd_congr {α : Type} [DecidableEq α] (d : α) (t : Tab α) (i : Nat) (f g : α → α) (h : f (tabGet d t i) = g (tabGet d t i)) :
    tabUpd d t i f = tabUpd d t i g := by
  unfold tabUpd; rw [h]

/-- A value read through a table that a list of values was written to: the value of that place, or what stood there. -/
theorem tabGet_fill {α : Type} [DecidableEq α] (d : α) (l : List α) (t : Tab α) (a j : Nat) :
    tabGet d (tabFill d t a l) j = if a ≤ j ∧ j < a + l.length then l.getD (j - a) d else tabGet d t j := by
  induction l generalizing t a with
  | nil => simp [tabFill]
  | cons x r ih =>
    rw [tabFill, ih]
    by_cases h : j = a
    · subst h; simp
    · rw [tabGet_set_ne d t a j x h]
      by_cases h2 : a ≤ j ∧ j < a + (x :: r).length
      · have h3 : a + 1 ≤ j ∧ j < a + 1 + r.length := by simp at h2; omega
        have h4 : j - a = (j - (a + 1)) + 1 := by omega
        rw [if_pos h3, if_pos h2, h4, List.getD_cons_succ]
      · have h3 : ¬(a + 1 ≤ j ∧ j < a + 1 + r.length) := by simp at h2; omega
        rw [if_neg h3, if_neg h2]

/-! ### The canonical form -/

theorem tabAbove_iff {α : Type} (i : Nat) (t : Tab α) : tabAbove i t = true ↔ ∀ e ∈ t, i < e.1 := by simp [tabAbove]

theorem tabWf_filter {α : Type} [DecidableEq α] (d : α) (t : Tab α) (p : Nat × α → Bool) (h : tabWf d t = true) :
    tabWf d (t.filter p) = true := by
  induction t with
  | nil => rfl
  | cons e r ih =>
    obtain ⟨k, v⟩ := e
    simp only [tabWf, Bool.and_eq_true, decide_eq_true_eq] at h
    obtain ⟨⟨hv, ha⟩, hr⟩ := h
    by_cases hp : p (k, v)
    · simp only [List.filter_cons, hp, if_true, tabWf, Bool.and_eq_true, decide_eq_true_eq]
      refine ⟨⟨hv, ?_⟩, ih hr⟩
      rw [tabAbove_iff] at ha ⊢
      exact fun e he => ha e (List.mem_filter.mp he).1
    · simpa [List.filter_cons, hp] using ih hr

theorem mem_tabInsert {α : Type} (t : Tab α) (i : Nat) (x : α) (e : Nat × α) (h : e ∈ tabInsert t i x) : e = (i, x) ∨ e ∈ t := by
  induction t with
  | nil => simp [tabInsert] at h; exact .inl h
  | cons a r ih =>
    obtain ⟨k, v⟩ := a
    simp only [tabInsert] at h
    split at h
    · simpa using h
    · split at h
      · simp at h; rcases h with h | h <;> simp [h]
      · simp at h
        rcases h with h | h
        · simp [h]
        · rcases ih h with h | h <;> simp [h]

theorem tabWf_insert {α : Type} [DecidableEq α] (d : α) (t : Tab α) (i : Nat) (x : α) (hx : x ≠ d) (h : tabWf d t = true) :
    tabWf d (tabInsert t i x) = true := by
  induction t with
  | nil => simp [tabInsert, tabWf, tabAbove, hx]
  | cons e r ih =>
    obtain ⟨k, v⟩ := e
    have h0 := h
    simp only [tabWf, Bool.and_eq_true, decide_eq_true_eq] at h
    obtain ⟨⟨hv, ha⟩, hr⟩ := h
    have ha' := (tabAbove_iff k r).mp ha
    simp only [tabInsert]
    split
    · rename_i hik
      rw [tabWf, h0]
      simp only [Bool.and_true, Bool.and_eq_true, decide_eq_true_eq]
      refine ⟨hx, (tabAbove_iff _ _).mpr ?_⟩
      intro e he
      rcases List.mem_cons.mp he with h | h
      · simp [h, hik]
      · exact Nat.lt_trans hik (ha' e h)
    · split
      · rename_i h1 h2
        subst h2
        simp [tabWf, hx, ha, hr]
      · rename_i h1 h2
        simp only [tabWf, Bool.and_eq_true, decide_eq_true_eq]
        refine ⟨⟨hv, (tabAbove_iff _ _).mpr ?_⟩, ih hr⟩
        intro e he
        rcases mem_tabInsert r i x e he with h | h
        · simp [h]; omega
        · exact ha' e h

/-- A write keeps the canonical form. -/
theorem tabWf_set {α : Type} [DecidableEq α] (d : α) (t : Tab α) (i : Nat) (v : α) (h : tabWf d t = true) :
    tabWf d (tabSet d t i v) = true := by
  unfold tabSet
  split
  · exact tabWf_filter d t _ h
  · rename_i hv; exact tabWf_insert d t i v hv h

theorem tabWf_upd {α : Type} [DecidableEq α] (d : α) (t : Tab α) (i : Nat) (f : α → α) (h : tabWf d t = true) :
    tabWf d (tabUpd d t i f) = true := tabWf_set d t i _ h

/-- Writing a list of values keeps the canonical form. -/
theorem tabWf_fill {α : Type} [DecidableEq α] (d : α) (l : List α) (t : Tab α) (a : Nat) (h : tabWf d t = true) :
    tabWf d (tabFill d t a l) = true := by
  induction l generalizing t a with
  | nil => exact h
  | cons x r ih => exact ih _ _ (tabWf_set d t a x h)

/-- Removing a range keeps the canonical form. -/
theorem tabWf_clear {α : Type} [DecidableEq α] (d : α) (t : Tab α) (lo hi : Nat) (h : tabWf d t = true) :
    tabWf d (tabClear t lo hi) = true := tabWf_filter d t _ h

end Sys2Proof.Machine
end

