-- ==== Sys2Proof/Laws/State.lean ====
section
/-! SUPPORT. Laws of the state: what an update of one unit leaves in that unit, in every other unit, and in the fields that guards read. -/

namespace Sys2Proof.Machine

/-- After an update of unit `i` of tile `t`, the unit reads as the update left it. -/
@[simp] theorem grpAt_grpUpd (b : Block) (t i : Nat) (f) : (b.grpUpd t i f).grpAt t i = f (b.grpAt t i) := tabGet_upd_same _ _ _ _

/-- An update of unit `i` of tile `t` leaves every other unit alone. -/
theorem grpAt_grpUpd_ne (b : Block) (t i t' i' : Nat) (f) (h : i < 4) (h' : i' < 4) (hne : ¬(t' = t ∧ i' = i)) :
    (b.grpUpd t i f).grpAt t' i' = b.grpAt t' i' := tabGet_upd_ne _ _ _ _ _ (by omega)

/-- Updates that agree on the unit's value agree. -/
theorem grpUpd_congr (b : Block) (t i : Nat) (f g) (h : f (b.grpAt t i) = g (b.grpAt t i)) : b.grpUpd t i f = b.grpUpd t i g := by
  unfold Block.grpUpd; rw [tabUpd_congr _ _ _ _ _ h]

@[simp] theorem grpUpd_cfg (b : Block) (t i : Nat) (f) : (b.grpUpd t i f).cfg = b.cfg := rfl

@[simp] theorem grpUpd_run (b : Block) (t i : Nat) (f) : (b.grpUpd t i f).run = b.run := rfl

/-- After an update of unit `i` of tile `t`, the unit reads as the update left it. -/
@[simp] theorem spAt_spUpd (b : Block) (t i : Nat) (f) : (b.spUpd t i f).spAt t i = f (b.spAt t i) := tabGet_upd_same _ _ _ _

/-- An update of unit `i` of tile `t` leaves every other unit alone. -/
theorem spAt_spUpd_ne (b : Block) (t i t' i' : Nat) (f) (h : i < 32) (h' : i' < 32) (hne : ¬(t' = t ∧ i' = i)) :
    (b.spUpd t i f).spAt t' i' = b.spAt t' i' := tabGet_upd_ne _ _ _ _ _ (by omega)

/-- Updates that agree on the unit's value agree. -/
theorem spUpd_congr (b : Block) (t i : Nat) (f g) (h : f (b.spAt t i) = g (b.spAt t i)) : b.spUpd t i f = b.spUpd t i g := by
  unfold Block.spUpd; rw [tabUpd_congr _ _ _ _ _ h]

@[simp] theorem spUpd_cfg (b : Block) (t i : Nat) (f) : (b.spUpd t i f).cfg = b.cfg := rfl

@[simp] theorem spUpd_run (b : Block) (t i : Nat) (f) : (b.spUpd t i f).run = b.run := rfl

/-- After an update of unit `i` of tile `t`, the unit reads as the update left it. -/
@[simp] theorem secAt_secUpd (b : Block) (t i : Nat) (f) : (b.secUpd t i f).secAt t i = f (b.secAt t i) := tabGet_upd_same _ _ _ _

/-- An update of unit `i` of tile `t` leaves every other unit alone. -/
theorem secAt_secUpd_ne (b : Block) (t i t' i' : Nat) (f) (h : i < 256) (h' : i' < 256) (hne : ¬(t' = t ∧ i' = i)) :
    (b.secUpd t i f).secAt t' i' = b.secAt t' i' := tabGet_upd_ne _ _ _ _ _ (by omega)

/-- Updates that agree on the unit's value agree. -/
theorem secUpd_congr (b : Block) (t i : Nat) (f g) (h : f (b.secAt t i) = g (b.secAt t i)) : b.secUpd t i f = b.secUpd t i g := by
  unfold Block.secUpd; rw [tabUpd_congr _ _ _ _ _ h]

@[simp] theorem secUpd_cfg (b : Block) (t i : Nat) (f) : (b.secUpd t i f).cfg = b.cfg := rfl

@[simp] theorem secUpd_run (b : Block) (t i : Nat) (f) : (b.secUpd t i f).run = b.run := rfl

/-- After an update of unit `i` of tile `t`, the unit reads as the update left it. -/
@[simp] theorem ctxAt_ctxUpd (b : Block) (t i : Nat) (f) : (b.ctxUpd t i f).ctxAt t i = f (b.ctxAt t i) := tabGet_upd_same _ _ _ _

/-- An update of unit `i` of tile `t` leaves every other unit alone. -/
theorem ctxAt_ctxUpd_ne (b : Block) (t i t' i' : Nat) (f) (h : i < 32) (h' : i' < 32) (hne : ¬(t' = t ∧ i' = i)) :
    (b.ctxUpd t i f).ctxAt t' i' = b.ctxAt t' i' := tabGet_upd_ne _ _ _ _ _ (by omega)

/-- Updates that agree on the unit's value agree. -/
theorem ctxUpd_congr (b : Block) (t i : Nat) (f g) (h : f (b.ctxAt t i) = g (b.ctxAt t i)) : b.ctxUpd t i f = b.ctxUpd t i g := by
  unfold Block.ctxUpd; rw [tabUpd_congr _ _ _ _ _ h]

@[simp] theorem ctxUpd_cfg (b : Block) (t i : Nat) (f) : (b.ctxUpd t i f).cfg = b.cfg := rfl

@[simp] theorem ctxUpd_run (b : Block) (t i : Nat) (f) : (b.ctxUpd t i f).run = b.run := rfl

/-- After an update of unit `i` of tile `t`, the unit reads as the update left it. -/
@[simp] theorem histAt_histUpd (b : Block) (t i : Nat) (f) : (b.histUpd t i f).histAt t i = f (b.histAt t i) := tabGet_upd_same _ _ _ _

/-- An update of unit `i` of tile `t` leaves every other unit alone. -/
theorem histAt_histUpd_ne (b : Block) (t i t' i' : Nat) (f) (h : i < 32) (h' : i' < 32) (hne : ¬(t' = t ∧ i' = i)) :
    (b.histUpd t i f).histAt t' i' = b.histAt t' i' := tabGet_upd_ne _ _ _ _ _ (by omega)

/-- Updates that agree on the unit's value agree. -/
theorem histUpd_congr (b : Block) (t i : Nat) (f g) (h : f (b.histAt t i) = g (b.histAt t i)) : b.histUpd t i f = b.histUpd t i g := by
  unfold Block.histUpd; rw [tabUpd_congr _ _ _ _ _ h]

@[simp] theorem histUpd_cfg (b : Block) (t i : Nat) (f) : (b.histUpd t i f).cfg = b.cfg := rfl

@[simp] theorem histUpd_run (b : Block) (t i : Nat) (f) : (b.histUpd t i f).run = b.run := rfl

/-- After an update of unit `i` of tile `t`, the unit reads as the update left it. -/
@[simp] theorem schedAt_schedUpd (b : Block) (t i : Nat) (f) : (b.schedUpd t i f).schedAt t i = f (b.schedAt t i) := tabGet_upd_same _ _ _ _

/-- An update of unit `i` of tile `t` leaves every other unit alone. -/
theorem schedAt_schedUpd_ne (b : Block) (t i t' i' : Nat) (f) (h : i < 8) (h' : i' < 8) (hne : ¬(t' = t ∧ i' = i)) :
    (b.schedUpd t i f).schedAt t' i' = b.schedAt t' i' := tabGet_upd_ne _ _ _ _ _ (by omega)

/-- Updates that agree on the unit's value agree. -/
theorem schedUpd_congr (b : Block) (t i : Nat) (f g) (h : f (b.schedAt t i) = g (b.schedAt t i)) : b.schedUpd t i f = b.schedUpd t i g := by
  unfold Block.schedUpd; rw [tabUpd_congr _ _ _ _ _ h]

@[simp] theorem schedUpd_cfg (b : Block) (t i : Nat) (f) : (b.schedUpd t i f).cfg = b.cfg := rfl

@[simp] theorem schedUpd_run (b : Block) (t i : Nat) (f) : (b.schedUpd t i f).run = b.run := rfl

/-- After an update of unit `i` of tile `t`, the unit reads as the update left it. -/
@[simp] theorem modeAt_modeUpd (b : Block) (t i : Nat) (f) : (b.modeUpd t i f).modeAt t i = f (b.modeAt t i) := tabGet_upd_same _ _ _ _

/-- An update of unit `i` of tile `t` leaves every other unit alone. -/
theorem modeAt_modeUpd_ne (b : Block) (t i t' i' : Nat) (f) (h : i < 16) (h' : i' < 16) (hne : ¬(t' = t ∧ i' = i)) :
    (b.modeUpd t i f).modeAt t' i' = b.modeAt t' i' := tabGet_upd_ne _ _ _ _ _ (by omega)

/-- Updates that agree on the unit's value agree. -/
theorem modeUpd_congr (b : Block) (t i : Nat) (f g) (h : f (b.modeAt t i) = g (b.modeAt t i)) : b.modeUpd t i f = b.modeUpd t i g := by
  unfold Block.modeUpd; rw [tabUpd_congr _ _ _ _ _ h]

@[simp] theorem modeUpd_cfg (b : Block) (t i : Nat) (f) : (b.modeUpd t i f).cfg = b.cfg := rfl

@[simp] theorem modeUpd_run (b : Block) (t i : Nat) (f) : (b.modeUpd t i f).run = b.run := rfl

/-- After an update of unit `i` of tile `t`, the unit reads as the update left it. -/
@[simp] theorem natAt_natUpd (b : Block) (t i : Nat) (f) : (b.natUpd t i f).natAt t i = f (b.natAt t i) := tabGet_upd_same _ _ _ _

/-- An update of unit `i` of tile `t` leaves every other unit alone. -/
theorem natAt_natUpd_ne (b : Block) (t i t' i' : Nat) (f) (h : i < 16) (h' : i' < 16) (hne : ¬(t' = t ∧ i' = i)) :
    (b.natUpd t i f).natAt t' i' = b.natAt t' i' := tabGet_upd_ne _ _ _ _ _ (by omega)

/-- Updates that agree on the unit's value agree. -/
theorem natUpd_congr (b : Block) (t i : Nat) (f g) (h : f (b.natAt t i) = g (b.natAt t i)) : b.natUpd t i f = b.natUpd t i g := by
  unfold Block.natUpd; rw [tabUpd_congr _ _ _ _ _ h]

@[simp] theorem natUpd_cfg (b : Block) (t i : Nat) (f) : (b.natUpd t i f).cfg = b.cfg := rfl

@[simp] theorem natUpd_run (b : Block) (t i : Nat) (f) : (b.natUpd t i f).run = b.run := rfl

/-- After an update of unit `i` of tile `t`, the unit reads as the update left it. -/
@[simp] theorem qdAt_qdUpd (b : Block) (t i : Nat) (f) : (b.qdUpd t i f).qdAt t i = f (b.qdAt t i) := tabGet_upd_same _ _ _ _

/-- An update of unit `i` of tile `t` leaves every other unit alone. -/
theorem qdAt_qdUpd_ne (b : Block) (t i t' i' : Nat) (f) (h : i < 8) (h' : i' < 8) (hne : ¬(t' = t ∧ i' = i)) :
    (b.qdUpd t i f).qdAt t' i' = b.qdAt t' i' := tabGet_upd_ne _ _ _ _ _ (by omega)

/-- Updates that agree on the unit's value agree. -/
theorem qdUpd_congr (b : Block) (t i : Nat) (f g) (h : f (b.qdAt t i) = g (b.qdAt t i)) : b.qdUpd t i f = b.qdUpd t i g := by
  unfold Block.qdUpd; rw [tabUpd_congr _ _ _ _ _ h]

@[simp] theorem qdUpd_cfg (b : Block) (t i : Nat) (f) : (b.qdUpd t i f).cfg = b.cfg := rfl

@[simp] theorem qdUpd_run (b : Block) (t i : Nat) (f) : (b.qdUpd t i f).run = b.run := rfl

/-- After an update of unit `i` of tile `t`, the unit reads as the update left it. -/
@[simp] theorem prbAt_prbUpd (b : Block) (t i : Nat) (f) : (b.prbUpd t i f).prbAt t i = f (b.prbAt t i) := tabGet_upd_same _ _ _ _

/-- An update of unit `i` of tile `t` leaves every other unit alone. -/
theorem prbAt_prbUpd_ne (b : Block) (t i t' i' : Nat) (f) (h : i < 4) (h' : i' < 4) (hne : ¬(t' = t ∧ i' = i)) :
    (b.prbUpd t i f).prbAt t' i' = b.prbAt t' i' := tabGet_upd_ne _ _ _ _ _ (by omega)

/-- Updates that agree on the unit's value agree. -/
theorem prbUpd_congr (b : Block) (t i : Nat) (f g) (h : f (b.prbAt t i) = g (b.prbAt t i)) : b.prbUpd t i f = b.prbUpd t i g := by
  unfold Block.prbUpd; rw [tabUpd_congr _ _ _ _ _ h]

@[simp] theorem prbUpd_cfg (b : Block) (t i : Nat) (f) : (b.prbUpd t i f).cfg = b.cfg := rfl

@[simp] theorem prbUpd_run (b : Block) (t i : Nat) (f) : (b.prbUpd t i f).run = b.run := rfl

/-- After an update of unit `i` of tile `t`, the unit reads as the update left it. -/
@[simp] theorem genAt_genUpd (b : Block) (t i : Nat) (f) : (b.genUpd t i f).genAt t i = f (b.genAt t i) := tabGet_upd_same _ _ _ _

/-- An update of unit `i` of tile `t` leaves every other unit alone. -/
theorem genAt_genUpd_ne (b : Block) (t i t' i' : Nat) (f) (h : i < 16) (h' : i' < 16) (hne : ¬(t' = t ∧ i' = i)) :
    (b.genUpd t i f).genAt t' i' = b.genAt t' i' := tabGet_upd_ne _ _ _ _ _ (by omega)

/-- Updates that agree on the unit's value agree. -/
theorem genUpd_congr (b : Block) (t i : Nat) (f g) (h : f (b.genAt t i) = g (b.genAt t i)) : b.genUpd t i f = b.genUpd t i g := by
  unfold Block.genUpd; rw [tabUpd_congr _ _ _ _ _ h]

@[simp] theorem genUpd_cfg (b : Block) (t i : Nat) (f) : (b.genUpd t i f).cfg = b.cfg := rfl

@[simp] theorem genUpd_run (b : Block) (t i : Nat) (f) : (b.genUpd t i f).run = b.run := rfl

/-- After an update of unit `i` of tile `t`, the unit reads as the update left it. -/
@[simp] theorem pulseAt_pulseUpd (b : Block) (t i : Nat) (f) : (b.pulseUpd t i f).pulseAt t i = f (b.pulseAt t i) := tabGet_upd_same _ _ _ _

/-- An update of unit `i` of tile `t` leaves every other unit alone. -/
theorem pulseAt_pulseUpd_ne (b : Block) (t i t' i' : Nat) (f) (h : i < 4) (h' : i' < 4) (hne : ¬(t' = t ∧ i' = i)) :
    (b.pulseUpd t i f).pulseAt t' i' = b.pulseAt t' i' := tabGet_upd_ne _ _ _ _ _ (by omega)

/-- Updates that agree on the unit's value agree. -/
theorem pulseUpd_congr (b : Block) (t i : Nat) (f g) (h : f (b.pulseAt t i) = g (b.pulseAt t i)) : b.pulseUpd t i f = b.pulseUpd t i g := by
  unfold Block.pulseUpd; rw [tabUpd_congr _ _ _ _ _ h]

@[simp] theorem pulseUpd_cfg (b : Block) (t i : Nat) (f) : (b.pulseUpd t i f).cfg = b.cfg := rfl

@[simp] theorem pulseUpd_run (b : Block) (t i : Nat) (f) : (b.pulseUpd t i f).run = b.run := rfl

/-- After an update of unit `i` of tile `t`, the unit reads as the update left it. -/
@[simp] theorem followAt_followUpd (b : Block) (t i : Nat) (f) : (b.followUpd t i f).followAt t i = f (b.followAt t i) := tabGet_upd_same _ _ _ _

/-- An update of unit `i` of tile `t` leaves every other unit alone. -/
theorem followAt_followUpd_ne (b : Block) (t i t' i' : Nat) (f) (h : i < 16) (h' : i' < 16) (hne : ¬(t' = t ∧ i' = i)) :
    (b.followUpd t i f).followAt t' i' = b.followAt t' i' := tabGet_upd_ne _ _ _ _ _ (by omega)

/-- Updates that agree on the unit's value agree. -/
theorem followUpd_congr (b : Block) (t i : Nat) (f g) (h : f (b.followAt t i) = g (b.followAt t i)) : b.followUpd t i f = b.followUpd t i g := by
  unfold Block.followUpd; rw [tabUpd_congr _ _ _ _ _ h]

@[simp] theorem followUpd_cfg (b : Block) (t i : Nat) (f) : (b.followUpd t i f).cfg = b.cfg := rfl

@[simp] theorem followUpd_run (b : Block) (t i : Nat) (f) : (b.followUpd t i f).run = b.run := rfl

/-- After an update of unit `i` of tile `t`, the unit reads as the update left it. -/
@[simp] theorem xmAt_xmUpd (b : Block) (t i : Nat) (f) : (b.xmUpd t i f).xmAt t i = f (b.xmAt t i) := tabGet_upd_same _ _ _ _

/-- An update of unit `i` of tile `t` leaves every other unit alone. -/
theorem xmAt_xmUpd_ne (b : Block) (t i t' i' : Nat) (f) (h : i < 8) (h' : i' < 8) (hne : ¬(t' = t ∧ i' = i)) :
    (b.xmUpd t i f).xmAt t' i' = b.xmAt t' i' := tabGet_upd_ne _ _ _ _ _ (by omega)

/-- Updates that agree on the unit's value agree. -/
theorem xmUpd_congr (b : Block) (t i : Nat) (f g) (h : f (b.xmAt t i) = g (b.xmAt t i)) : b.xmUpd t i f = b.xmUpd t i g := by
  unfold Block.xmUpd; rw [tabUpd_congr _ _ _ _ _ h]

@[simp] theorem xmUpd_cfg (b : Block) (t i : Nat) (f) : (b.xmUpd t i f).cfg = b.cfg := rfl

@[simp] theorem xmUpd_run (b : Block) (t i : Nat) (f) : (b.xmUpd t i f).run = b.run := rfl

/-- After an update of unit `i` of tile `t`, the unit reads as the update left it. -/
@[simp] theorem cmpAt_cmpUpd (b : Block) (t i : Nat) (f) : (b.cmpUpd t i f).cmpAt t i = f (b.cmpAt t i) := tabGet_upd_same _ _ _ _

/-- An update of unit `i` of tile `t` leaves every other unit alone. -/
theorem cmpAt_cmpUpd_ne (b : Block) (t i t' i' : Nat) (f) (h : i < 4) (h' : i' < 4) (hne : ¬(t' = t ∧ i' = i)) :
    (b.cmpUpd t i f).cmpAt t' i' = b.cmpAt t' i' := tabGet_upd_ne _ _ _ _ _ (by omega)

/-- Updates that agree on the unit's value agree. -/
theorem cmpUpd_congr (b : Block) (t i : Nat) (f g) (h : f (b.cmpAt t i) = g (b.cmpAt t i)) : b.cmpUpd t i f = b.cmpUpd t i g := by
  unfold Block.cmpUpd; rw [tabUpd_congr _ _ _ _ _ h]

@[simp] theorem cmpUpd_cfg (b : Block) (t i : Nat) (f) : (b.cmpUpd t i f).cfg = b.cfg := rfl

@[simp] theorem cmpUpd_run (b : Block) (t i : Nat) (f) : (b.cmpUpd t i f).run = b.run := rfl

/-- After an update of unit `i` of tile `t`, the unit reads as the update left it. -/
@[simp] theorem nxAt_nxUpd (b : Block) (t i : Nat) (f) : (b.nxUpd t i f).nxAt t i = f (b.nxAt t i) := tabGet_upd_same _ _ _ _

/-- An update of unit `i` of tile `t` leaves every other unit alone. -/
theorem nxAt_nxUpd_ne (b : Block) (t i t' i' : Nat) (f) (h : i < 8) (h' : i' < 8) (hne : ¬(t' = t ∧ i' = i)) :
    (b.nxUpd t i f).nxAt t' i' = b.nxAt t' i' := tabGet_upd_ne _ _ _ _ _ (by omega)

/-- Updates that agree on the unit's value agree. -/
theorem nxUpd_congr (b : Block) (t i : Nat) (f g) (h : f (b.nxAt t i) = g (b.nxAt t i)) : b.nxUpd t i f = b.nxUpd t i g := by
  unfold Block.nxUpd; rw [tabUpd_congr _ _ _ _ _ h]

@[simp] theorem nxUpd_cfg (b : Block) (t i : Nat) (f) : (b.nxUpd t i f).cfg = b.cfg := rfl

@[simp] theorem nxUpd_run (b : Block) (t i : Nat) (f) : (b.nxUpd t i f).run = b.run := rfl

/-- After an update of entry `i`, the entry reads as the update left it. -/
@[simp] theorem seqAt_seqUpd (b : Block) (i : Nat) (f) : (b.seqUpd i f).seqAt i = f (b.seqAt i) := tabGet_upd_same _ _ _ _

/-- An update of entry `i` leaves every other entry alone. -/
theorem seqAt_seqUpd_ne (b : Block) (i j : Nat) (f) (hne : j ≠ i) : (b.seqUpd i f).seqAt j = b.seqAt j := tabGet_upd_ne _ _ _ _ _ hne

/-- Updates that agree on the unit's value agree. -/
theorem seqUpd_congr (b : Block) (i : Nat) (f g) (h : f (b.seqAt i) = g (b.seqAt i)) : b.seqUpd i f = b.seqUpd i g := by
  unfold Block.seqUpd; rw [tabUpd_congr _ _ _ _ _ h]

@[simp] theorem seqUpd_cfg (b : Block) (i : Nat) (f) : (b.seqUpd i f).cfg = b.cfg := rfl

@[simp] theorem seqUpd_run (b : Block) (i : Nat) (f) : (b.seqUpd i f).run = b.run := rfl

/-- After an update of entry `i`, the entry reads as the update left it. -/
@[simp] theorem aqAt_aqUpd (b : Block) (i : Nat) (f) : (b.aqUpd i f).aqAt i = f (b.aqAt i) := tabGet_upd_same _ _ _ _

/-- An update of entry `i` leaves every other entry alone. -/
theorem aqAt_aqUpd_ne (b : Block) (i j : Nat) (f) (hne : j ≠ i) : (b.aqUpd i f).aqAt j = b.aqAt j := tabGet_upd_ne _ _ _ _ _ hne

/-- Updates that agree on the unit's value agree. -/
theorem aqUpd_congr (b : Block) (i : Nat) (f g) (h : f (b.aqAt i) = g (b.aqAt i)) : b.aqUpd i f = b.aqUpd i g := by
  unfold Block.aqUpd; rw [tabUpd_congr _ _ _ _ _ h]

@[simp] theorem aqUpd_cfg (b : Block) (i : Nat) (f) : (b.aqUpd i f).cfg = b.cfg := rfl

@[simp] theorem aqUpd_run (b : Block) (i : Nat) (f) : (b.aqUpd i f).run = b.run := rfl

/-- After an update of entry `i`, the entry reads as the update left it. -/
@[simp] theorem plgAt_plgUpd (b : Block) (i : Nat) (f) : (b.plgUpd i f).plgAt i = f (b.plgAt i) := tabGet_upd_same _ _ _ _

/-- An update of entry `i` leaves every other entry alone. -/
theorem plgAt_plgUpd_ne (b : Block) (i j : Nat) (f) (hne : j ≠ i) : (b.plgUpd i f).plgAt j = b.plgAt j := tabGet_upd_ne _ _ _ _ _ hne

/-- Updates that agree on the unit's value agree. -/
theorem plgUpd_congr (b : Block) (i : Nat) (f g) (h : f (b.plgAt i) = g (b.plgAt i)) : b.plgUpd i f = b.plgUpd i g := by
  unfold Block.plgUpd; rw [tabUpd_congr _ _ _ _ _ h]

@[simp] theorem plgUpd_cfg (b : Block) (i : Nat) (f) : (b.plgUpd i f).cfg = b.cfg := rfl

@[simp] theorem plgUpd_run (b : Block) (i : Nat) (f) : (b.plgUpd i f).run = b.run := rfl

/-- After an update of entry `i`, the entry reads as the update left it. -/
@[simp] theorem blAt_blUpd (b : Block) (i : Nat) (f) : (b.blUpd i f).blAt i = f (b.blAt i) := tabGet_upd_same _ _ _ _

/-- An update of entry `i` leaves every other entry alone. -/
theorem blAt_blUpd_ne (b : Block) (i j : Nat) (f) (hne : j ≠ i) : (b.blUpd i f).blAt j = b.blAt j := tabGet_upd_ne _ _ _ _ _ hne

/-- Updates that agree on the unit's value agree. -/
theorem blUpd_congr (b : Block) (i : Nat) (f g) (h : f (b.blAt i) = g (b.blAt i)) : b.blUpd i f = b.blUpd i g := by
  unfold Block.blUpd; rw [tabUpd_congr _ _ _ _ _ h]

@[simp] theorem blUpd_cfg (b : Block) (i : Nat) (f) : (b.blUpd i f).cfg = b.cfg := rfl

@[simp] theorem blUpd_run (b : Block) (i : Nat) (f) : (b.blUpd i f).run = b.run := rfl

/-- After an update of entry `i`, the entry reads as the update left it. -/
@[simp] theorem blnxAt_blnxUpd (b : Block) (i : Nat) (f) : (b.blnxUpd i f).blnxAt i = f (b.blnxAt i) := tabGet_upd_same _ _ _ _

/-- An update of entry `i` leaves every other entry alone. -/
theorem blnxAt_blnxUpd_ne (b : Block) (i j : Nat) (f) (hne : j ≠ i) : (b.blnxUpd i f).blnxAt j = b.blnxAt j := tabGet_upd_ne _ _ _ _ _ hne

/-- Updates that agree on the unit's value agree. -/
theorem blnxUpd_congr (b : Block) (i : Nat) (f g) (h : f (b.blnxAt i) = g (b.blnxAt i)) : b.blnxUpd i f = b.blnxUpd i g := by
  unfold Block.blnxUpd; rw [tabUpd_congr _ _ _ _ _ h]

@[simp] theorem blnxUpd_cfg (b : Block) (i : Nat) (f) : (b.blnxUpd i f).cfg = b.cfg := rfl

@[simp] theorem blnxUpd_run (b : Block) (i : Nat) (f) : (b.blnxUpd i f).run = b.run := rfl

/-- After an update of entry `i`, the entry reads as the update left it. -/
@[simp] theorem blStampAt_blStampUpd (b : Block) (i : Nat) (f) : (b.blStampUpd i f).blStampAt i = f (b.blStampAt i) := tabGet_upd_same _ _ _ _

/-- An update of entry `i` leaves every other entry alone. -/
theorem blStampAt_blStampUpd_ne (b : Block) (i j : Nat) (f) (hne : j ≠ i) : (b.blStampUpd i f).blStampAt j = b.blStampAt j := tabGet_upd_ne _ _ _ _ _ hne

/-- Updates that agree on the unit's value agree. -/
theorem blStampUpd_congr (b : Block) (i : Nat) (f g) (h : f (b.blStampAt i) = g (b.blStampAt i)) : b.blStampUpd i f = b.blStampUpd i g := by
  unfold Block.blStampUpd; rw [tabUpd_congr _ _ _ _ _ h]

@[simp] theorem blStampUpd_cfg (b : Block) (i : Nat) (f) : (b.blStampUpd i f).cfg = b.cfg := rfl

@[simp] theorem blStampUpd_run (b : Block) (i : Nat) (f) : (b.blStampUpd i f).run = b.run := rfl

/-- After an update of entry `i`, the entry reads as the update left it. -/
@[simp] theorem teAt_teUpd (b : Block) (i : Nat) (f) : (b.teUpd i f).teAt i = f (b.teAt i) := tabGet_upd_same _ _ _ _

/-- An update of entry `i` leaves every other entry alone. -/
theorem teAt_teUpd_ne (b : Block) (i j : Nat) (f) (hne : j ≠ i) : (b.teUpd i f).teAt j = b.teAt j := tabGet_upd_ne _ _ _ _ _ hne

/-- Updates that agree on the unit's value agree. -/
theorem teUpd_congr (b : Block) (i : Nat) (f g) (h : f (b.teAt i) = g (b.teAt i)) : b.teUpd i f = b.teUpd i g := by
  unfold Block.teUpd; rw [tabUpd_congr _ _ _ _ _ h]

@[simp] theorem teUpd_cfg (b : Block) (i : Nat) (f) : (b.teUpd i f).cfg = b.cfg := rfl

@[simp] theorem teUpd_run (b : Block) (i : Nat) (f) : (b.teUpd i f).run = b.run := rfl

/-- After an update of entry `i`, the entry reads as the update left it. -/
@[simp] theorem teoAt_teoUpd (b : Block) (i : Nat) (f) : (b.teoUpd i f).teoAt i = f (b.teoAt i) := tabGet_upd_same _ _ _ _

/-- An update of entry `i` leaves every other entry alone. -/
theorem teoAt_teoUpd_ne (b : Block) (i j : Nat) (f) (hne : j ≠ i) : (b.teoUpd i f).teoAt j = b.teoAt j := tabGet_upd_ne _ _ _ _ _ hne

/-- Updates that agree on the unit's value agree. -/
theorem teoUpd_congr (b : Block) (i : Nat) (f g) (h : f (b.teoAt i) = g (b.teoAt i)) : b.teoUpd i f = b.teoUpd i g := by
  unfold Block.teoUpd; rw [tabUpd_congr _ _ _ _ _ h]

@[simp] theorem teoUpd_cfg (b : Block) (i : Nat) (f) : (b.teoUpd i f).cfg = b.cfg := rfl

@[simp] theorem teoUpd_run (b : Block) (i : Nat) (f) : (b.teoUpd i f).run = b.run := rfl

/-- After an update of entry `i`, the entry reads as the update left it. -/
@[simp] theorem ptpAt_ptpUpd (b : Block) (i : Nat) (f) : (b.ptpUpd i f).ptpAt i = f (b.ptpAt i) := tabGet_upd_same _ _ _ _

/-- An update of entry `i` leaves every other entry alone. -/
theorem ptpAt_ptpUpd_ne (b : Block) (i j : Nat) (f) (hne : j ≠ i) : (b.ptpUpd i f).ptpAt j = b.ptpAt j := tabGet_upd_ne _ _ _ _ _ hne

/-- Updates that agree on the unit's value agree. -/
theorem ptpUpd_congr (b : Block) (i : Nat) (f g) (h : f (b.ptpAt i) = g (b.ptpAt i)) : b.ptpUpd i f = b.ptpUpd i g := by
  unfold Block.ptpUpd; rw [tabUpd_congr _ _ _ _ _ h]

@[simp] theorem ptpUpd_cfg (b : Block) (i : Nat) (f) : (b.ptpUpd i f).cfg = b.cfg := rfl

@[simp] theorem ptpUpd_run (b : Block) (i : Nat) (f) : (b.ptpUpd i f).run = b.run := rfl

/-- After an update of entry `i`, the entry reads as the update left it. -/
@[simp] theorem fpAt_fpUpd (b : Block) (i : Nat) (f) : (b.fpUpd i f).fpAt i = f (b.fpAt i) := tabGet_upd_same _ _ _ _

/-- An update of entry `i` leaves every other entry alone. -/
theorem fpAt_fpUpd_ne (b : Block) (i j : Nat) (f) (hne : j ≠ i) : (b.fpUpd i f).fpAt j = b.fpAt j := tabGet_upd_ne _ _ _ _ _ hne

/-- Updates that agree on the unit's value agree. -/
theorem fpUpd_congr (b : Block) (i : Nat) (f g) (h : f (b.fpAt i) = g (b.fpAt i)) : b.fpUpd i f = b.fpUpd i g := by
  unfold Block.fpUpd; rw [tabUpd_congr _ _ _ _ _ h]

@[simp] theorem fpUpd_cfg (b : Block) (i : Nat) (f) : (b.fpUpd i f).cfg = b.cfg := rfl

@[simp] theorem fpUpd_run (b : Block) (i : Nat) (f) : (b.fpUpd i f).run = b.run := rfl

/-- After an update of entry `i`, the entry reads as the update left it. -/
@[simp] theorem sessAt_sessUpd (b : Block) (i : Nat) (f) : (b.sessUpd i f).sessAt i = f (b.sessAt i) := tabGet_upd_same _ _ _ _

/-- An update of entry `i` leaves every other entry alone. -/
theorem sessAt_sessUpd_ne (b : Block) (i j : Nat) (f) (hne : j ≠ i) : (b.sessUpd i f).sessAt j = b.sessAt j := tabGet_upd_ne _ _ _ _ _ hne

/-- Updates that agree on the unit's value agree. -/
theorem sessUpd_congr (b : Block) (i : Nat) (f g) (h : f (b.sessAt i) = g (b.sessAt i)) : b.sessUpd i f = b.sessUpd i g := by
  unfold Block.sessUpd; rw [tabUpd_congr _ _ _ _ _ h]

@[simp] theorem sessUpd_cfg (b : Block) (i : Nat) (f) : (b.sessUpd i f).cfg = b.cfg := rfl

@[simp] theorem sessUpd_run (b : Block) (i : Nat) (f) : (b.sessUpd i f).run = b.run := rfl

/-- After an update of entry `i`, the entry reads as the update left it. -/
@[simp] theorem hpAt_hpUpd (b : Block) (i : Nat) (f) : (b.hpUpd i f).hpAt i = f (b.hpAt i) := tabGet_upd_same _ _ _ _

/-- An update of entry `i` leaves every other entry alone. -/
theorem hpAt_hpUpd_ne (b : Block) (i j : Nat) (f) (hne : j ≠ i) : (b.hpUpd i f).hpAt j = b.hpAt j := tabGet_upd_ne _ _ _ _ _ hne

/-- Updates that agree on the unit's value agree. -/
theorem hpUpd_congr (b : Block) (i : Nat) (f g) (h : f (b.hpAt i) = g (b.hpAt i)) : b.hpUpd i f = b.hpUpd i g := by
  unfold Block.hpUpd; rw [tabUpd_congr _ _ _ _ _ h]

@[simp] theorem hpUpd_cfg (b : Block) (i : Nat) (f) : (b.hpUpd i f).cfg = b.cfg := rfl

@[simp] theorem hpUpd_run (b : Block) (i : Nat) (f) : (b.hpUpd i f).run = b.run := rfl

/-- After an update of entry `i`, the entry reads as the update left it. -/
@[simp] theorem zoneAt_zoneUpd (b : Block) (i : Nat) (f) : (b.zoneUpd i f).zoneAt i = f (b.zoneAt i) := tabGet_upd_same _ _ _ _

/-- An update of entry `i` leaves every other entry alone. -/
theorem zoneAt_zoneUpd_ne (b : Block) (i j : Nat) (f) (hne : j ≠ i) : (b.zoneUpd i f).zoneAt j = b.zoneAt j := tabGet_upd_ne _ _ _ _ _ hne

/-- Updates that agree on the unit's value agree. -/
theorem zoneUpd_congr (b : Block) (i : Nat) (f g) (h : f (b.zoneAt i) = g (b.zoneAt i)) : b.zoneUpd i f = b.zoneUpd i g := by
  unfold Block.zoneUpd; rw [tabUpd_congr _ _ _ _ _ h]

@[simp] theorem zoneUpd_cfg (b : Block) (i : Nat) (f) : (b.zoneUpd i f).cfg = b.cfg := rfl

@[simp] theorem zoneUpd_run (b : Block) (i : Nat) (f) : (b.zoneUpd i f).run = b.run := rfl

/-- After an update of entry `i`, the entry reads as the update left it. -/
@[simp] theorem sfAxAt_sfAxUpd (b : Block) (i : Nat) (f) : (b.sfAxUpd i f).sfAxAt i = f (b.sfAxAt i) := tabGet_upd_same _ _ _ _

/-- An update of entry `i` leaves every other entry alone. -/
theorem sfAxAt_sfAxUpd_ne (b : Block) (i j : Nat) (f) (hne : j ≠ i) : (b.sfAxUpd i f).sfAxAt j = b.sfAxAt j := tabGet_upd_ne _ _ _ _ _ hne

/-- Updates that agree on the unit's value agree. -/
theorem sfAxUpd_congr (b : Block) (i : Nat) (f g) (h : f (b.sfAxAt i) = g (b.sfAxAt i)) : b.sfAxUpd i f = b.sfAxUpd i g := by
  unfold Block.sfAxUpd; rw [tabUpd_congr _ _ _ _ _ h]

@[simp] theorem sfAxUpd_cfg (b : Block) (i : Nat) (f) : (b.sfAxUpd i f).cfg = b.cfg := rfl

@[simp] theorem sfAxUpd_run (b : Block) (i : Nat) (f) : (b.sfAxUpd i f).run = b.run := rfl

/-- After an update of entry `i`, the entry reads as the update left it. -/
@[simp] theorem connAt_connUpd (b : Block) (i : Nat) (f) : (b.connUpd i f).connAt i = f (b.connAt i) := tabGet_upd_same _ _ _ _

/-- An update of entry `i` leaves every other entry alone. -/
theorem connAt_connUpd_ne (b : Block) (i j : Nat) (f) (hne : j ≠ i) : (b.connUpd i f).connAt j = b.connAt j := tabGet_upd_ne _ _ _ _ _ hne

/-- Updates that agree on the unit's value agree. -/
theorem connUpd_congr (b : Block) (i : Nat) (f g) (h : f (b.connAt i) = g (b.connAt i)) : b.connUpd i f = b.connUpd i g := by
  unfold Block.connUpd; rw [tabUpd_congr _ _ _ _ _ h]

@[simp] theorem connUpd_cfg (b : Block) (i : Nat) (f) : (b.connUpd i f).cfg = b.cfg := rfl

@[simp] theorem connUpd_run (b : Block) (i : Nat) (f) : (b.connUpd i f).run = b.run := rfl

/-- After an update of entry `i`, the entry reads as the update left it. -/
@[simp] theorem tempAt_tempUpd (b : Block) (i : Nat) (f) : (b.tempUpd i f).tempAt i = f (b.tempAt i) := tabGet_upd_same _ _ _ _

/-- An update of entry `i` leaves every other entry alone. -/
theorem tempAt_tempUpd_ne (b : Block) (i j : Nat) (f) (hne : j ≠ i) : (b.tempUpd i f).tempAt j = b.tempAt j := tabGet_upd_ne _ _ _ _ _ hne

/-- Updates that agree on the unit's value agree. -/
theorem tempUpd_congr (b : Block) (i : Nat) (f g) (h : f (b.tempAt i) = g (b.tempAt i)) : b.tempUpd i f = b.tempUpd i g := by
  unfold Block.tempUpd; rw [tabUpd_congr _ _ _ _ _ h]

@[simp] theorem tempUpd_cfg (b : Block) (i : Nat) (f) : (b.tempUpd i f).cfg = b.cfg := rfl

@[simp] theorem tempUpd_run (b : Block) (i : Nat) (f) : (b.tempUpd i f).run = b.run := rfl

/-- After an update of entry `i`, the entry reads as the update left it. -/
@[simp] theorem marginAt_marginUpd (b : Block) (i : Nat) (f) : (b.marginUpd i f).marginAt i = f (b.marginAt i) := tabGet_upd_same _ _ _ _

/-- An update of entry `i` leaves every other entry alone. -/
theorem marginAt_marginUpd_ne (b : Block) (i j : Nat) (f) (hne : j ≠ i) : (b.marginUpd i f).marginAt j = b.marginAt j := tabGet_upd_ne _ _ _ _ _ hne

/-- Updates that agree on the unit's value agree. -/
theorem marginUpd_congr (b : Block) (i : Nat) (f g) (h : f (b.marginAt i) = g (b.marginAt i)) : b.marginUpd i f = b.marginUpd i g := by
  unfold Block.marginUpd; rw [tabUpd_congr _ _ _ _ _ h]

@[simp] theorem marginUpd_cfg (b : Block) (i : Nat) (f) : (b.marginUpd i f).cfg = b.cfg := rfl

@[simp] theorem marginUpd_run (b : Block) (i : Nat) (f) : (b.marginUpd i f).run = b.run := rfl

/-- After an update of entry `i`, the entry reads as the update left it. -/
@[simp] theorem barrierAt_barrierUpd (b : Block) (i : Nat) (f) : (b.barrierUpd i f).barrierAt i = f (b.barrierAt i) := tabGet_upd_same _ _ _ _

/-- An update of entry `i` leaves every other entry alone. -/
theorem barrierAt_barrierUpd_ne (b : Block) (i j : Nat) (f) (hne : j ≠ i) : (b.barrierUpd i f).barrierAt j = b.barrierAt j := tabGet_upd_ne _ _ _ _ _ hne

/-- Updates that agree on the unit's value agree. -/
theorem barrierUpd_congr (b : Block) (i : Nat) (f g) (h : f (b.barrierAt i) = g (b.barrierAt i)) : b.barrierUpd i f = b.barrierUpd i g := by
  unfold Block.barrierUpd; rw [tabUpd_congr _ _ _ _ _ h]

@[simp] theorem barrierUpd_cfg (b : Block) (i : Nat) (f) : (b.barrierUpd i f).cfg = b.cfg := rfl

@[simp] theorem barrierUpd_run (b : Block) (i : Nat) (f) : (b.barrierUpd i f).run = b.run := rfl

/-- After an update of entry `i`, the entry reads as the update left it. -/
@[simp] theorem bankAt_bankUpd (b : Block) (i : Nat) (f) : (b.bankUpd i f).bankAt i = f (b.bankAt i) := tabGet_upd_same _ _ _ _

/-- An update of entry `i` leaves every other entry alone. -/
theorem bankAt_bankUpd_ne (b : Block) (i j : Nat) (f) (hne : j ≠ i) : (b.bankUpd i f).bankAt j = b.bankAt j := tabGet_upd_ne _ _ _ _ _ hne

/-- Updates that agree on the unit's value agree. -/
theorem bankUpd_congr (b : Block) (i : Nat) (f g) (h : f (b.bankAt i) = g (b.bankAt i)) : b.bankUpd i f = b.bankUpd i g := by
  unfold Block.bankUpd; rw [tabUpd_congr _ _ _ _ _ h]

@[simp] theorem bankUpd_cfg (b : Block) (i : Nat) (f) : (b.bankUpd i f).cfg = b.cfg := rfl

@[simp] theorem bankUpd_run (b : Block) (i : Nat) (f) : (b.bankUpd i f).run = b.run := rfl

/-! ### The state -/

@[simp] theorem withPending_clk (s : State) (q : List Instr) : (s.withPending q).clk = s.clk := rfl
@[simp] theorem withPending_b (s : State) (q : List Instr) : (s.withPending q).b = s.b := rfl
@[simp] theorem withPending_pending (s : State) (q : List Instr) : (s.withPending q).pending = q := rfl
@[simp] theorem mapB_clk (s : State) (f : Block → Block) : (s.mapB f).clk = s.clk := rfl
@[simp] theorem mapB_pending (s : State) (f : Block → Block) : (s.mapB f).pending = s.pending := rfl
@[simp] theorem mapB_b (s : State) (f : Block → Block) : (s.mapB f).b = f s.b := rfl

end Sys2Proof.Machine
end

