-- ==== Sys2Proof/Laws/Ops.lean ====
section
/-! SUPPORT. Laws of the shared operations: what each way of acting on the block answers, and what the sparse operations keep. -/

namespace Sys2Proof.Machine

/-- A command on the block always gives a next state, in which lattice, reset and queue stand. -/
theorem onBlock_next (f : Nat → Block → Block) (s : State) : onBlock f s = .next { s with b := f s.clk.lattice s.b } := rfl

/-- On a tile that runs, a tile command acts. -/
theorem onTile_live (t : Nat) (f : Nat → Block → Block) (s : State) (h : tileLive s.b t = true) :
    onTile t f s = .next { s with b := f s.clk.lattice s.b } := by simp [onTile, onBlock, h]

/-- On any other tile it has no effect. -/
theorem onTile_dead (t : Nat) (f : Nat → Block → Block) (s : State) (h : tileLive s.b t = false) :
    onTile t f s = .next s := by simp [onTile, onBlock, h]

theorem onPowered_on (t : Nat) (f : Nat → Block → Block) (s : State) (h : tileOn s.b t = true) :
    onPowered t f s = .next { s with b := f s.clk.lattice s.b } := by simp [onPowered, onBlock, h]

theorem onPowered_off (t : Nat) (f : Nat → Block → Block) (s : State) (h : tileOn s.b t = false) :
    onPowered t f s = .next s := by simp [onPowered, onBlock, h]

theorem onRun_on (f : Nat → Block → Block) (s : State) (h : s.b.run.on = true) :
    onRun f s = .next { s with b := f s.clk.lattice s.b } := by simp [onRun, onBlock, h]

theorem onRun_off (f : Nat → Block → Block) (s : State) (h : s.b.run.on = false) :
    onRun f s = .next s := by simp [onRun, onBlock, h]

theorem onHub_up (f : Nat → Block → Block) (s : State) (h : s.clk.up = true) :
    onHub f s = .next { s with b := f s.clk.lattice s.b } := by simp [onHub, onBlock, h]

theorem onHub_down (f : Nat → Block → Block) (s : State) (h : s.clk.up = false) :
    onHub f s = .next s := by simp [onHub, onBlock, h]

/-- Where the block cannot tell the difference, a tile command answers a state that differs in the block only. -/
theorem onTile_frame (t : Nat) (f : Nat → Block → Block) (s : State) :
    onTile t f s = .next { s with b := if tileLive s.b t then f s.clk.lattice s.b else s.b } := rfl

/-- An action marked as done at this tick is not done again. -/
theorem once_done (a : Nat) (f : Block → Block) (b : Block) (h : b.marks.contains a = true) : once a f b = b := by
  simp only [once, h, if_true]

/-- An action not yet marked is done, and marked. -/
theorem once_first (a : Nat) (f : Block → Block) (b : Block) (h : b.marks.contains a = false) :
    once a f b = f { b with marks := a :: b.marks } := by
  simp only [once, h]; rfl

/-- A tile that runs is powered. -/
theorem tileLive_on (b : Block) (t : Nat) (h : tileLive b t = true) : tileOn b t = true := by
  simp [tileLive] at h; exact h.1.1

theorem tileOn_run (b : Block) (t : Nat) (h : tileOn b t = true) : b.run.on = true ∧ t < b.run.tileSet := by
  simpa [tileOn] using h

/-- A registration that waits, or the present tick. -/
theorem firstOf_eq (o : Option Nat) (n : Nat) : firstOf o n = some (o.getD n) := by cases o <;> rfl

/-- Folding an operation that keeps a property of the block keeps it. -/
theorem forL_keeps {α : Type} (P : Block → Prop) (l : List α) (f : α → Block → Block) (b : Block)
    (h : ∀ x c, P c → P (f x c)) (hb : P b) : P (forL l f b) := by
  unfold forL
  induction l generalizing b with
  | nil => exact hb
  | cons x r ih => exact ih _ (h x b hb)

theorem forN_keeps (P : Block → Prop) (n : Nat) (f : Nat → Block → Block) (b : Block)
    (h : ∀ i c, P c → P (f i c)) (hb : P b) : P (forN n f b) := forL_keeps P (List.range n) f b h hb

/-- An entry of the log goes to its ring, and nothing else changes (R600). -/
theorem logAppend_frame (e : LogEntry) (b : Block) :
    ∃ nv bk, logAppend e b = { b with nv := nv, bk := bk } ∧ nv.replace = b.nv.replace := by
  unfold logAppend; dsimp only
  split
  · exact ⟨_, _, rfl, rfl⟩
  · split
    · refine ⟨_, _, rfl, ?_⟩; unfold logToNvm; rfl
    · exact ⟨_, _, rfl, rfl⟩

/-- An event changes the event log, its tail and its marks, and nothing else (R600, R601). -/
theorem logEvent_frame (now code source data : Nat) (b : Block) :
    ∃ hl nv bk, logEvent now code source data b = { b with hl := hl, nv := nv, bk := bk } ∧ hl.st = b.hl.st ∧
      hl.edges = b.hl.edges ∧ nv.replace = b.nv.replace := by
  unfold logEvent; dsimp only
  have key := fun e => logAppend_frame e
      { b with nv := { b.nv with logSeq := b.nv.logSeq + 1 }
               hl := { b.hl with marks := tabSet {} b.hl.marks (code * 256 + source) { at_ := some now, sup := 0 } } }
  split
  all_goals (try split)
  all_goals first
    | exact ⟨_, _, _, rfl, rfl, rfl, rfl⟩
    | (obtain ⟨nv, bk, h, h'⟩ := key _; rw [h]; exact ⟨_, nv, bk, rfl, rfl, rfl, h'⟩)

/-- Bytes written to the memory stack read back; every other byte stands. -/
theorem memWrite_read (a j : Nat) (bs : List Byte) (b : Block) :
    tabGet 0 (memWrite a bs b).mem j = if a ≤ j ∧ j < a + bs.length then bs.getD (j - a) 0 else tabGet 0 b.mem j :=
  tabGet_fill 0 bs b.mem a j

/-- A write to the memory stack keeps its canonical form. -/
theorem memWrite_wf (a : Nat) (bs : List Byte) (b : Block) (h : tabWf 0 b.mem = true) : tabWf 0 (memWrite a bs b).mem = true :=
  tabWf_fill 0 bs b.mem a h

end Sys2Proof.Machine
end

