-- ==== Sys2Proof/Laws/Faults.lean ====
section
/-! SUPPORT. Laws of the fault of an axis: what it may change, and the cause that the safety engine finds recorded. -/

namespace Sys2Proof.Machine

theorem OnlyLog.trans {b c d : Block} (h : OnlyLog b c) (h' : OnlyLog c d) : OnlyLog b d := by
  unfold OnlyLog at *; rw [h', h]

/-- An event changes the event log, its tail and its marks, and nothing else (R600, R601). -/
theorem logEvent_log (now code source data : Nat) (b : Block) : OnlyLog b (logEvent now code source data b) := by
  have key : ∀ e c, OnlyLog c (logAppend e c) := by
    intro e c; unfold logAppend OnlyLog; dsimp only
    split
    · rfl
    · split
      · obtain ⟨l, h⟩ : ∃ l, logToNvm ((c.bk.tail ++ [e]).headD {}) c.nv = { c.nv with log := l } := ⟨_, rfl⟩
        rw [h]
      · rfl
  unfold logEvent; dsimp only
  split
  all_goals (try split)
  all_goals first
    | rfl
    | exact OnlyLog.trans (by unfold OnlyLog; rfl) (key _ _)

theorem OnlyFaults.refl (b : Block) : OnlyFaults b b := ⟨rfl, fun _ _ => rfl⟩

theorem OnlyFaults.trans {b c d : Block} (h : OnlyFaults b c) (h' : OnlyFaults c d) : OnlyFaults b d := by
  refine ⟨?_, fun t q => ?_⟩
  · rw [h'.1, h.1]
  · rw [h'.2 t q, h.2 t q]

theorem memberEvent_only (t j : Nat) (b : Block) : OnlyFaults b (memberEvent t j b) := by
  unfold memberEvent; split
  · split <;> exact ⟨rfl, fun _ _ => rfl⟩
  · exact ⟨rfl, fun _ _ => rfl⟩

/-- An update of a channel that only changes its armed reference. -/
theorem qdUpd_only (t k : Nat) (f : Qd → Qd) (b : Block) (h : f (b.qdAt t k) = { b.qdAt t k with armed := (f (b.qdAt t k)).armed }) :
    OnlyFaults b (b.qdUpd t k f) := by
  refine ⟨rfl, fun t' q => ?_⟩
  by_cases e : t' * 8 + q = t * 8 + k
  · show tabGet {} (tabUpd {} b.qd (t * 8 + k) f) (t' * 8 + q) = { tabGet {} b.qd (t' * 8 + q) with armed := (tabGet {} (tabUpd {} b.qd (t * 8 + k) f) (t' * 8 + q)).armed }
    rw [e, tabGet_upd_same]; exact h
  · show tabGet {} (tabUpd {} b.qd (t * 8 + k) f) (t' * 8 + q) = { tabGet {} b.qd (t' * 8 + q) with armed := (tabGet {} (tabUpd {} b.qd (t * 8 + k) f) (t' * 8 + q)).armed }
    rw [tabGet_upd_ne _ _ _ _ _ e]

theorem genEnd_only (t j : Nat) (f : Gen → Gen) (b : Block) : OnlyFaults b (genEnd t j f b) := by
  have h : OnlyFaults b (b.genUpd t j f) := ⟨rfl, fun _ _ => rfl⟩
  unfold genEnd
  dsimp only
  split
  · split
    · exact OnlyFaults.trans h (qdUpd_only _ _ _ _ rfl)
    · exact h
  · exact h

theorem motionDown_only (now t j : Nat) (b : Block) : OnlyFaults b (motionDown now t j b) := by
  unfold motionDown
  exact OnlyFaults.trans (genEnd_only _ _ _ _) (OnlyFaults.trans ⟨rfl, fun _ _ => rfl⟩ (memberEvent_only _ _ _))

theorem immStop_only (now t j : Nat) (b : Block) : OnlyFaults b (immStop now t j b) := by
  unfold immStop; refine OnlyFaults.trans ?_ (memberEvent_only _ _ _); exact ⟨rfl, fun _ _ => rfl⟩

theorem discardEnable_only (t j : Nat) (b : Block) : OnlyFaults b (discardEnable t j b) := by
  unfold discardEnable; split <;> exact ⟨rfl, fun _ _ => rfl⟩

theorem acqEvent_only (now t e : Nat) (b : Block) : OnlyFaults b (acqEvent now t e b) := ⟨rfl, fun _ _ => rfl⟩

theorem homingFault_only (t j : Nat) (b : Block) : OnlyFaults b (homingFault t j b) := genEnd_only _ _ _ _

theorem tileFault_only (now t j : Nat) (b : Block) : OnlyFaults b (tileFault now t j b) := by
  unfold tileFault; split
  · refine OnlyFaults.trans ?_ (acqEvent_only _ _ _ _)
    refine OnlyFaults.trans ?_ (discardEnable_only _ _ _)
    refine OnlyFaults.trans (c := immStop now t j (homingFault t j b)) ?_ ⟨rfl, fun _ _ => rfl⟩
    exact OnlyFaults.trans (homingFault_only _ _ _) (immStop_only _ _ _ _)
  · refine OnlyFaults.trans ?_ (acqEvent_only _ _ _ _)
    refine OnlyFaults.trans ?_ (discardEnable_only _ _ _)
    exact OnlyFaults.trans (c := b.nxUpd t (j - 8) _) ⟨rfl, fun _ _ => rfl⟩ (motionDown_only _ _ _ _)
  · refine OnlyFaults.trans ?_ (acqEvent_only _ _ _ _)
    exact OnlyFaults.trans (c := b.genUpd t j _) ⟨rfl, fun _ _ => rfl⟩ (motionDown_only _ _ _ _)
  · exact OnlyFaults.trans (c := b.genUpd t j _) ⟨rfl, fun _ _ => rfl⟩ (motionDown_only _ _ _ _)

theorem axFaultN_only (n now cause t j : Nat) (b : Block) : OnlyFaults b (axFaultN n now cause t j b) := by
  induction n generalizing now cause t j b with
  | zero => exact OnlyFaults.refl b
  | succ n ih =>
    rw [axFaultN]
    split
    · exact OnlyFaults.refl b
    · split
      · exact discardEnable_only t j b
      · split
        · exact OnlyFaults.refl b
        · apply forL_keeps (OnlyFaults b)
          · intro p c hc
            exact OnlyFaults.trans (OnlyFaults.trans hc (show OnlyFaults c (c.followUpd _ _ _) from ⟨rfl, fun _ _ => rfl⟩)) (ih _ _ _ _ _)
          · exact OnlyFaults.trans (c := b.sfAxUpd (axNo t j) _) ⟨rfl, fun _ _ => rfl⟩ (tileFault_only _ _ _ _)

/-- A fault of an axis changes what OnlyFaults names, and nothing else. -/
theorem axFault_only (now cause t j : Nat) (b : Block) : OnlyFaults b (axFault now cause t j b) := axFaultN_only _ _ _ _ _ _

theorem axFaults_only (now cause : Nat) (l : List (Nat × Nat)) (b : Block) : OnlyFaults b (axFaults now cause l b) :=
  forL_keeps (OnlyFaults b) l _ b (fun _ _ hc => OnlyFaults.trans hc (axFault_only _ _ _ _ _)) (OnlyFaults.refl b)

/-- The reaction of the tile to a fault leaves the safety engine's records alone. -/
theorem tileFault_sf (now t j : Nat) (b : Block) : (tileFault now t j b).sf = b.sf := by
  have hm : ∀ t j (c : Block), (memberEvent t j c).sf = c.sf := by
    intro t j c; unfold memberEvent; split
    · split <;> rfl
    · rfl
  have hd : ∀ t j (c : Block), (discardEnable t j c).sf = c.sf := by
    intro t j c; unfold discardEnable; split <;> rfl
  have ha : ∀ now t e (c : Block), (acqEvent now t e c).sf = c.sf := fun _ _ _ _ => rfl
  have hg : ∀ t j f (c : Block), (genEnd t j f c).sf = c.sf := by
    intro t j f c; unfold genEnd; dsimp only; split
    · split <;> rfl
    · rfl
  have hw : ∀ now t j (c : Block), (motionDown now t j c).sf = c.sf := by
    intro now t j c; unfold motionDown; rw [hm]; exact hg _ _ _ _
  have hi : ∀ now t j (c : Block), (immStop now t j c).sf = c.sf := by
    intro now t j c; unfold immStop; rw [hm]; rfl
  unfold tileFault; split
  · rw [ha, hd]; exact (hi now t j (homingFault t j b)).trans (hg _ _ _ _)
  · rw [ha, hd, hw]; rfl
  · rw [ha, hw]; rfl
  · rw [hw]; rfl

/-- A recorded fault stays recorded until the safety engine takes it. -/
theorem axFaultN_keeps (a n now cause t j : Nat) (v : Nat × Nat) (b : Block) (h : (b.sfAxAt a).fault = some v) :
    ((axFaultN n now cause t j b).sfAxAt a).fault = some v := by
  induction n generalizing now cause t j b with
  | zero => exact h
  | succ n ih =>
    rw [axFaultN]
    split
    · exact h
    · split
      · unfold discardEnable; split <;> exact h
      · split
        · exact h
        · rename_i hr
          apply forL_keeps (fun c => (c.sfAxAt a).fault = some v)
          · intro p c hc; exact ih _ _ _ _ _ hc
          · have hne : axNo t j ≠ a := by
              intro e; rw [← e] at h; simp [faultRuns, h] at hr
            show (tabGet {} (tileFault now t j _).sf.axes a).fault = some v
            rw [tileFault_sf]
            simp only [Block.sfAxUpd]
            rw [tabGet_upd_ne _ _ _ _ _ (by omega)]; exact h

/-- The fault of an axis in use that is neither disabled nor in a fault reaction is recorded for the next evaluation. -/
theorem axFault_cause (now cause t j : Nat) (b : Block) (hu : slotTy b t j ≠ .unused) (hd : axDisabled b t j = false)
    (hr : faultRuns b t j = false) : ((axFault now cause t j b).sfAxAt (axNo t j)).fault = some (cause, now) := by
  show ((axFaultN (127 + 1) now cause t j b).sfAxAt (axNo t j)).fault = _
  rw [axFaultN]
  simp only [hu, hd, hr, if_false, Bool.false_eq_true]
  apply forL_keeps (fun c => (c.sfAxAt (axNo t j)).fault = some (cause, now))
  · intro p c hc; exact axFaultN_keeps _ _ _ _ _ _ _ _ hc
  · show (tabGet {} (tileFault now t j _).sf.axes (axNo t j)).fault = _
    rw [tileFault_sf]
    simp only [Block.sfAxUpd]
    rw [tabGet_upd_same]

/-- What a member event, the end of a homing, a disable of the motion of a slot leave of native axes and of the safety engine. -/
theorem memberEvent_kept (t j : Nat) (b : Block) : (memberEvent t j b).nat = b.nat ∧ (memberEvent t j b).sf = b.sf ∧ (memberEvent t j b).gen = b.gen ∧ (memberEvent t j b).follow = b.follow ∧ (memberEvent t j b).pulse = b.pulse ∧ (memberEvent t j b).nx = b.nx := by
  unfold memberEvent; split
  · split <;> exact ⟨rfl, rfl, rfl, rfl, rfl, rfl⟩
  · exact ⟨rfl, rfl, rfl, rfl, rfl, rfl⟩

theorem genEnd_kept (t j : Nat) (f : Gen → Gen) (b : Block) : (genEnd t j f b).nat = b.nat ∧ (genEnd t j f b).sf = b.sf ∧ (genEnd t j f b).gen = (b.genUpd t j f).gen ∧ (genEnd t j f b).follow = b.follow ∧ (genEnd t j f b).pulse = b.pulse ∧ (genEnd t j f b).nx = b.nx := by
  unfold genEnd; dsimp only; split
  · split <;> exact ⟨rfl, rfl, rfl, rfl, rfl, rfl⟩
  · exact ⟨rfl, rfl, rfl, rfl, rfl, rfl⟩

/-- The motion of a slot goes down: what its generator and its clutch hold after it, and that native axes, safety records, pulse-train and networked axes stand (R268, R293, R312). -/
theorem motionDown_kept (now t j : Nat) (b : Block) :
    (motionDown now t j b).nat = b.nat ∧ (motionDown now t j b).sf = b.sf ∧ (motionDown now t j b).pulse = b.pulse ∧ (motionDown now t j b).nx = b.nx ∧
    (motionDown now t j b).gen = (b.genUpd t j fun g => { g with req := { g.req with down := firstOf g.req.down now }, hm := homeEnd .fault g.hm }).gen ∧
    (motionDown now t j b).follow = (b.followUpd t j fun f => { f with cl := { f.cl with down := firstOf f.cl.down now, pending := false } }).follow := by
  unfold motionDown
  obtain ⟨m1, m2, m3, m4, m5, m6⟩ := memberEvent_kept t j ((genEnd t j (fun g => { g with req := { g.req with down := firstOf g.req.down now }, hm := homeEnd .fault g.hm }) b).followUpd t j
      fun f => { f with cl := { f.cl with down := firstOf f.cl.down now, pending := false } })
  obtain ⟨g1, g2, g3, g4, g5, g6⟩ := genEnd_kept t j (fun g => { g with req := { g.req with down := firstOf g.req.down now }, hm := homeEnd .fault g.hm }) b
  refine ⟨m1.trans g1, m2.trans g2, m5.trans g5, m6.trans g6, m3.trans g3, m4.trans ?_⟩
  simp only [Block.followUpd, g4]

/-- A fault leaves every native axis as it is, but for an enable that waits (R16). -/
def NatKept (b c : Block) : Prop :=
  ∀ t j, c.natAt t j = { b.natAt t j with wait := (c.natAt t j).wait, enPending := (c.natAt t j).enPending, enRefused := (c.natAt t j).enRefused }

theorem NatKept.of_eq {b c : Block} (h : c.nat = b.nat) : NatKept b c := by
  intro t j; unfold Block.natAt; rw [h]

theorem NatKept.trans {b c d : Block} (h : NatKept b c) (h' : NatKept c d) : NatKept b d := by
  intro t j; rw [h' t j, h t j]

theorem discardEnable_nat (t j : Nat) (b : Block) : NatKept b (discardEnable t j b) := by
  have key : NatKept b (b.natUpd t j fun a => if a.wait.isSome || a.enPending then { a with wait := none, enPending := false, enRefused := true } else a) := by
    intro t' j'
    by_cases e : t' * 16 + j' = t * 16 + j
    · have h : ∀ c : Block, c.natAt t' j' = c.natAt t j := fun c => by unfold Block.natAt; rw [e]
      rw [h, h, natAt_natUpd]; split <;> rfl
    · have h : ∀ f, (b.natUpd t j f).natAt t' j' = b.natAt t' j' := fun f => tabGet_upd_ne _ _ _ _ _ e
      rw [h]
  unfold discardEnable; split
  · exact NatKept.of_eq rfl
  · exact NatKept.of_eq rfl
  · exact key
  · exact key
  · exact NatKept.of_eq rfl

theorem tileFault_nat (now t j : Nat) (b : Block) : NatKept b (tileFault now t j b) := by
  have hi : ∀ (c : Block), (immStop now t j c).nat = c.nat := fun c => (memberEvent_kept t j _).1
  unfold tileFault; split
  · refine NatKept.trans (c := (immStop now t j (homingFault t j b)).followUpd t j _) (NatKept.of_eq ?_) (NatKept.trans (discardEnable_nat t j _) (NatKept.of_eq rfl))
    exact (hi _).trans (genEnd_kept t j _ b).1
  · refine NatKept.trans (c := motionDown now t j _) (NatKept.of_eq ?_) (NatKept.trans (discardEnable_nat t j _) (NatKept.of_eq rfl))
    exact (motionDown_kept now t j _).1
  · exact NatKept.of_eq (motionDown_kept now t j _).1
  · exact NatKept.of_eq (motionDown_kept now t j _).1

theorem axFaultN_nat (n now cause t j : Nat) (b : Block) : NatKept b (axFaultN n now cause t j b) := by
  induction n generalizing now cause t j b with
  | zero => exact NatKept.of_eq rfl
  | succ n ih =>
    rw [axFaultN]
    split
    · exact NatKept.of_eq rfl
    · split
      · exact discardEnable_nat t j b
      · split
        · exact NatKept.of_eq rfl
        · apply forL_keeps (NatKept b)
          · intro p c hc; exact NatKept.trans (NatKept.trans hc (NatKept.of_eq (c := c.followUpd _ _ _) rfl)) (ih _ _ _ _ _)
          · exact NatKept.trans (c := b.sfAxUpd (axNo t j) _) (NatKept.of_eq rfl) (tileFault_nat _ _ _ _)

/-- A fault of an axis leaves trips, gate-enable and modulator of every native axis. -/
theorem axFault_nat (now cause t j : Nat) (b : Block) : NatKept b (axFault now cause t j b) := axFaultN_nat _ _ _ _ _ _

end Sys2Proof.Machine
end

