-- ==== Sys2Proof/Laws/Engine.lean ====
section
/-! SUPPORT. Laws of the safety engine: what each of its actions on an axis may change. -/

namespace Sys2Proof

open Sys2Proof.Machine

theorem OnlyEngine.trans {b c d : Block} (h : OnlyEngine b c) (h' : OnlyEngine c d) : OnlyEngine b d := by
  unfold OnlyEngine at *; rw [h', h]

theorem OnlyFaults.engine {b c : Block} (h : OnlyFaults b c) : OnlyEngine b c := by
  obtain ⟨h, -⟩ := h; unfold OnlyEngine; rw [h]

theorem OnlyLog.engine {b c : Block} (h : OnlyLog b c) : OnlyEngine b c := by
  unfold OnlyLog at h; unfold OnlyEngine; rw [h]

theorem SameAxis.refl (b : Block) (t j : Nat) : SameAxis b b t j := ⟨rfl, rfl⟩

theorem SameAxis.trans {b c d : Block} {t j : Nat} (h : SameAxis b c t j) (h' : SameAxis c d t j) : SameAxis b d t j :=
  ⟨by rw [h'.1, h.1], by rw [h'.2, h.2]⟩

theorem SameAxis.of_eq {b c : Block} (h : c.nat = b.nat) (h' : c.sf.axes = b.sf.axes) (t j : Nat) : SameAxis b c t j := by
  refine ⟨?_, ?_⟩
  · unfold Block.sfAxAt; rw [h']
  · unfold Block.natAt; rw [h]

/-- The frame of what touches no axis but for faults registered and enables discarded. -/
def AllSame (b c : Block) : Prop := OnlyEngine b c ∧ ∀ t j, SameAxis b c t j

theorem AllSame.refl (b : Block) : AllSame b b := ⟨rfl, fun t j => .refl b t j⟩

theorem AllSame.trans {b c d : Block} (h : AllSame b c) (h' : AllSame c d) : AllSame b d := ⟨h.1.trans h'.1, fun t j => (h.2 t j).trans (h'.2 t j)⟩

theorem AllSame.of_eq {b c : Block} (h : OnlyEngine b c) (hn : c.nat = b.nat) (hs : c.sf.axes = b.sf.axes) : AllSame b c := ⟨h, .of_eq hn hs⟩

theorem AllSame.beside {a : Nat} {b c : Block} (h : AllSame b c) : Beside a b c := ⟨h.1, fun t j _ => h.2 t j⟩

theorem Beside.refl (a : Nat) (b : Block) : Beside a b b := (AllSame.refl b).beside

theorem Beside.trans {a : Nat} {b c d : Block} (h : Beside a b c) (h' : Beside a c d) : Beside a b d := ⟨h.1.trans h'.1, fun t j k => (h.2 t j k).trans (h'.2 t j k)⟩

theorem logEvent_same (now code source data : Nat) (b : Block) : AllSame b (logEvent now code source data b) := by
  have h := logEvent_log now code source data b
  exact .of_eq h.engine (by rw [h]) (by rw [h])

theorem acqEvent_same (now t e : Nat) (b : Block) : AllSame b (acqEvent now t e b) := .of_eq rfl rfl rfl

theorem discardEnable_same (t j : Nat) (b : Block) : AllSame b (discardEnable t j b) := by
  refine ⟨(discardEnable_only t j b).engine, fun t' j' => ⟨?_, discardEnable_nat t j b t' j'⟩⟩
  have : (discardEnable t j b).sf = b.sf := by unfold discardEnable; split <;> rfl
  unfold Block.sfAxAt; rw [this]

theorem tileFault_same (now t j : Nat) (b : Block) : AllSame b (tileFault now t j b) := by
  refine ⟨(tileFault_only now t j b).engine, fun t' j' => ⟨?_, tileFault_nat now t j b t' j'⟩⟩
  unfold Block.sfAxAt; rw [tileFault_sf]

theorem genEnd_same (t j : Nat) (f : Gen → Gen) (b : Block) : AllSame b (genEnd t j f b) := by
  obtain ⟨h1, h2, -⟩ := genEnd_kept t j f b
  exact .of_eq (genEnd_only t j f b).engine h1 (by rw [h2])

theorem followUpd_same (t j : Nat) (f : Follow → Follow) (b : Block) : AllSame b (b.followUpd t j f) := .of_eq rfl rfl rfl

theorem faultSet_same (a : Nat) (o) (b : Block) : AllSame b (b.sfAxUpd a fun x => { x with fault := o }) := by
  refine ⟨rfl, fun t j => ⟨?_, rfl⟩⟩
  by_cases h : axNo t j = a
  · subst h; rw [sfAxAt_sfAxUpd]
  · rw [sfAxAt_sfAxUpd_ne _ _ _ _ h]

theorem forL_same {α : Type} (l : List α) (f : α → Block → Block) (b : Block) (h : ∀ x c, AllSame c (f x c)) : AllSame b (forL l f b) :=
  forL_keeps (AllSame b) l f b (fun x c hc => hc.trans (h x c)) (.refl b)

theorem axFaultN_same (n now cause t j : Nat) (b : Block) : AllSame b (axFaultN n now cause t j b) := by
  induction n generalizing now cause t j b with
  | zero => exact .refl b
  | succ n ih =>
    rw [axFaultN]
    split
    · exact .refl b
    · split
      · exact discardEnable_same t j b
      · split
        · exact .refl b
        · exact ((faultSet_same _ _ b).trans (tileFault_same now t j _)).trans (forL_same _ _ _ fun p c => (followUpd_same _ _ _ c).trans (ih _ _ _ _ _))

theorem axFault_same (now cause t j : Nat) (b : Block) : AllSame b (axFault now cause t j b) := axFaultN_same _ _ _ _ _ _

theorem mastersLost_same (now t j : Nat) (b : Block) : AllSame b (mastersLost now t j b) :=
  forL_same _ _ _ fun _ c => (followUpd_same _ _ _ c).trans (axFault_same _ _ _ _ _)

theorem stuck_same (v : Bool) (b : Block) : AllSame b { b with sf := { b.sf with stuck := v } } := .of_eq rfl rfl rfl

theorem btFailed_same (v : Bool) (b : Block) : AllSame b { b with sf := { b.sf with btFailed := v } } := .of_eq rfl rfl rfl

theorem sfAxUpd_beside (a : Nat) (f : SfAx → SfAx) (b : Block) : Beside a b (b.sfAxUpd a f) :=
  ⟨rfl, fun t j h => ⟨by rw [sfAxAt_sfAxUpd_ne _ _ _ _ h], rfl⟩⟩

theorem axNo_split (a : Nat) : axNo (a / 16) (a % 16) = a := by unfold axNo; omega

theorem natUpd_beside (t j : Nat) (f : NatAx → NatAx) (b : Block) : Beside (axNo t j) b (b.natUpd t j f) := by
  refine ⟨rfl, fun t' j' h => ⟨rfl, ?_⟩⟩
  rw [show (b.natUpd t j f).natAt t' j' = b.natAt t' j' from tabGet_upd_ne _ _ _ _ _ (by unfold axNo at h; omega)]

theorem natUpd_beside' (a : Nat) (f : NatAx → NatAx) (b : Block) : Beside a b (b.natUpd (a / 16) (a % 16) f) := by
  have := natUpd_beside (a / 16) (a % 16) f b; rwa [axNo_split] at this

theorem btEnd_beside (t j r : Nat) (b : Block) : Beside (axNo t j) b (btEnd t j r b) := by
  unfold btEnd; dsimp only; split
  · exact .refl _ b
  · exact sfAxUpd_beside _ _ b
  · exact (sfAxUpd_beside _ _ b).trans (natUpd_beside t j _ _)

theorem btEnd_beside' (a r : Nat) (b : Block) : Beside a b (btEnd (a / 16) (a % 16) r b) := by
  have := btEnd_beside (a / 16) (a % 16) r b; rwa [axNo_split] at this

theorem axisDone_beside (now t j : Nat) (b : Block) : Beside (axNo t j) b (axisDone now t j b) := by
  have h1 : AllSame b (forL (chansOf b t j) (fun k => fun x =>
      x.qdUpd t k fun q => { q with fb := { q.fb with on := false, due := none }, posSrc := q.posL, spdSrc := q.spdL }) b) :=
    forL_same _ _ _ fun _ c => .of_eq rfl rfl rfl
  have h2 := h1.beside.trans (sfAxUpd_beside (axNo t j) (fun a => { a with react := none, stop := none, graceReg := none }) _)
  unfold axisDone; dsimp only; split
  · exact (h2.trans (sfAxUpd_beside _ _ _)).trans (logEvent_same _ _ _ _ _).beside
  · exact h2

theorem axisDone_beside' (now a : Nat) (b : Block) : Beside a b (axisDone now (a / 16) (a % 16) b) := by
  have := axisDone_beside now (a / 16) (a % 16) b; rwa [axNo_split] at this

theorem brakeEngage_beside (now a : Nat) (b : Block) : Beside a b (brakeEngage now a b) := sfAxUpd_beside _ _ _

theorem brakeRelease_beside (now a : Nat) (b : Block) : Beside a b (brakeRelease now a b) := sfAxUpd_beside _ _ _

theorem natHold_beside (a : Nat) (b : Block) : Beside a b (natHold (a / 16) (a % 16) b) := natUpd_beside' _ _ _

theorem natUnhold_beside (a : Nat) (b : Block) : Beside a b (natUnhold (a / 16) (a % 16) b) := natUpd_beside' _ _ _

theorem permitOff_beside (now a : Nat) (b : Block) : Beside a b (permitOff now a b) := by
  have h1 := sfAxUpd_beside a (fun x => { x with permit := false, grantAt := none, rmAt := none }) b
  have h2 := h1.trans (natUpd_beside' a (fun n => { n with gate := false, pwm := .off }) _)
  unfold permitOff; dsimp only; split
  · split
    · exact (h2.trans (stuck_same true _).beside).trans (axFault_same _ _ _ _ _).beside
    · split
      · exact h2.trans (sfAxUpd_beside _ _ _)
      · exact h2
  · exact h1

theorem faultEnd_beside (now a : Nat) (b : Block) : Beside a b (faultEnd now a b) :=
  ((natUpd_beside' a _ b).trans (permitOff_beside now a _)).trans (axisDone_beside' now a _)

theorem natReact_beside (now a : Nat) (took : Bool) (b : Block) : Beside a b (natReact now a took b) := by
  have h1 := ((natHold_beside a b).trans (acqEvent_same now (a / 16) 8 _).beside).trans
    (natUpd_beside' a (fun n => { n with fromAlign := n.fromAlign || decide (n.st = .aligning), st := .faultHold, brakeWait := false, brakeEnd := none }) _)
  unfold natReact; dsimp only; split
  · exact h1.trans (faultEnd_beside _ _ _)
  · cases took
    · simp only [Bool.false_eq_true, if_false]
      have h2 := h1.trans (brakeEngage_beside now a _)
      split
      · exact h2.trans (faultEnd_beside _ _ _)
      · exact h2.trans (sfAxUpd_beside _ _ _)
    · simp only [if_true]
      split
      · exact h1.trans (faultEnd_beside _ _ _)
      · exact h1.trans (sfAxUpd_beside _ _ _)

theorem nxReact_beside (now a : Nat) (b : Block) : Beside a b (nxReact now a b) := by
  unfold nxReact; split
  · exact permitOff_beside _ _ _
  · dsimp only; split
    · exact (brakeEngage_beside now a b).trans (permitOff_beside _ _ _)
    · exact (brakeEngage_beside now a b).trans (sfAxUpd_beside _ _ _)

theorem beginReact_beside (now cause a : Nat) (b : Block) : Beside a b (beginReact now cause a b) := by
  unfold beginReact; dsimp only; split
  · exact .refl a b
  · split
    · exact (sfAxUpd_beside a _ b).trans (discardEnable_same _ _ _).beside
    · split
      · exact sfAxUpd_beside a _ b
      · have h1 := (btEnd_beside' a 4 b).trans (logEvent_same now 0x0013 0 (a * 256 + cause) _).beside
        generalize logEvent now 0x0013 0 (a * 256 + cause) (btEnd (a / 16) (a % 16) 4 b) = b1 at h1 ⊢
        have h2 : Beside a b (if (b.sfAxAt a).fault.isNone = true then mastersLost now (a / 16) (a % 16) (tileFault now (a / 16) (a % 16) b1) else b1) := by
          split
          · exact (h1.trans (tileFault_same _ _ _ _).beside).trans (mastersLost_same _ _ _ _).beside
          · exact h1
        generalize (if (b.sfAxAt a).fault.isNone = true then mastersLost now (a / 16) (a % 16) (tileFault now (a / 16) (a % 16) b1) else b1) = b2 at h2 ⊢
        have h3 := (h2.trans (discardEnable_same (a / 16) (a % 16) b2).beside).trans (sfAxUpd_beside a (fun x =>
          { x with react := some now, fault := none, stop := none, relReq := false, brkReq := none, stoTest := none
                   flt := x.flt || decide (cause ≠ 0), cause := if cause = 0 then x.cause else if x.flt then x.cause else cause }) _)
        split
        · exact h3.trans (natReact_beside _ _ _ _)
        · exact h3.trans (natReact_beside _ _ _ _)
        · exact h3.trans (nxReact_beside _ _ _)
        · exact h3

theorem permitDue_beside (now a : Nat) (b : Block) : Beside a b (permitDue now a b) := by
  unfold permitDue; split
  · split
    · split
      · exact faultEnd_beside _ _ _
      · exact permitOff_beside _ _ _
    · exact .refl a b
  · exact .refl a b

theorem beginStop_beside (now : Nat) (grace : Bool) (a : Nat) (b : Block) : Beside a b (beginStop now grace a b) := by
  unfold beginStop; dsimp only; split
  · exact .refl a b
  · split
    · exact (discardEnable_same _ _ _).beside
    · split
      · exact beginReact_beside _ _ _ _
      · split
        · exact .refl a b
        · split
          · split
            · exact .refl a b
            · exact (((btEnd_beside' a 4 b).trans (discardEnable_same _ _ _).beside).trans (sfAxUpd_beside a _ _)).trans (genEnd_same _ _ _ _).beside
          · split
            · exact .refl a b
            · exact (((btEnd_beside' a 4 b).trans (discardEnable_same _ _ _).beside).trans (sfAxUpd_beside a _ _)).trans (genEnd_same _ _ _ _).beside

theorem graceEnter_beside (now cause a : Nat) (b : Block) : Beside a b (graceEnter now cause a b) :=
  (sfAxUpd_beside a _ b).trans (logEvent_same _ _ _ _ _).beside

theorem graceTake_beside (now a : Nat) (b : Block) : Beside a b (graceTake now a b) := by
  unfold graceTake; dsimp only; split
  · split
    · exact graceEnter_beside _ _ _ _
    · exact .refl a b
  · exact .refl a b

theorem graceCheck_beside (now a : Nat) (b : Block) : Beside a b (graceCheck now a b) := by
  unfold graceCheck; dsimp only; split
  · exact .refl a b
  · split
    · exact beginReact_beside _ _ _ _
    · split
      · split
        · exact beginStop_beside _ _ _ _
        · exact .refl a b
      · exact .refl a b

theorem graceEval_beside (now a : Nat) (b : Block) : Beside a b (graceEval now a b) := (graceTake_beside now a b).trans (graceCheck_beside now a _)

theorem btRef_beside (b : Block) (a : Nat) (sign : Int) (c : Block) : Beside a c (btRef b a sign c) := natUpd_beside' _ _ _

theorem btFail_beside (now a : Nat) (b : Block) : Beside a b (btFail now a b) := by
  unfold btFail; dsimp only; split
  · exact (((btFailed_same true b).beside.trans (btEnd_beside' a 2 _)).trans (natUnhold_beside a _)).trans (graceEnter_beside _ _ _ _)
  · exact ((btFailed_same true b).beside.trans (beginReact_beside _ _ _ _)).trans (sfAxUpd_beside a _ _)

theorem btEval_beside (now a : Nat) (b : Block) : Beside a b (btEval now a b) := by
  unfold btEval; dsimp only; split
  · exact .refl a b
  · split
    · split
      · exact btEnd_beside' a 4 b
      · exact ((natHold_beside a b).trans (sfAxUpd_beside a _ _)).trans (brakeEngage_beside _ _ _)
    · exact .refl a b
  · split
    · exact (sfAxUpd_beside a _ b).trans (btRef_beside _ _ _ _)
    · exact .refl a b
  · split
    · exact btFail_beside _ _ _
    · split
      · exact (sfAxUpd_beside a _ b).trans (btRef_beside _ _ _ _)
      · exact .refl a b
  · split
    · exact ((btEnd_beside' a 1 b).trans (sfAxUpd_beside a _ _)).trans (natUnhold_beside a _)
    · split
      · exact btFail_beside _ _ _
      · exact .refl a b

theorem stopEval_beside (now a : Nat) (b : Block) : Beside a b (stopEval now a b) := by
  unfold stopEval; split
  · split
    · exact (sfAxUpd_beside a _ b).trans (beginReact_beside _ _ _ _)
    · split
      · exact beginReact_beside _ _ _ _
      · exact .refl a b
  · exact .refl a b

theorem permitEval_beside (now a : Nat) (b : Block) : Beside a b (permitEval now a b) := by
  unfold permitEval; dsimp only; split
  · exact .refl a b
  · split
    · split
      · exact (permitOff_beside _ _ _).trans (discardEnable_same _ _ _).beside
      · exact .refl a b
    · split
      · exact sfAxUpd_beside a _ b
      · exact .refl a b

theorem stoTestEval_beside (now a : Nat) (b : Block) : Beside a b (stoTestEval now a b) := by
  unfold stoTestEval; dsimp only; split
  · split
    · split
      · exact (permitOff_beside _ _ _).trans (sfAxUpd_beside a _ _)
      · exact .refl a b
    · split
      · exact sfAxUpd_beside a _ b
      · exact .refl a b
  · exact .refl a b

theorem brakeAsked_beside (now a : Nat) (b : Block) : Beside a b (brakeAsked now a b) := by
  unfold brakeAsked; split
  · exact (((sfAxUpd_beside a _ b).trans (brakeEngage_beside _ _ _)).trans (natHold_beside a _)).trans (natUpd_beside' a _ _)
  · exact .refl a b

theorem brakeEval_beside (now a : Nat) (b : Block) : Beside a b (brakeEval now a b) := by
  unfold brakeEval; dsimp only; split
  · exact .refl a b
  · have h1 := brakeAsked_beside now a b
    split
    · split
      · exact h1
      · exact h1.trans (brakeEngage_beside _ _ _)
    · split
      · exact h1.trans (brakeRelease_beside _ _ _)
      · exact h1

theorem diagEval_beside (now a : Nat) (b : Block) : Beside a b (diagEval now a b) := by
  unfold diagEval; dsimp only
  have h1 : Beside a b (if (axDiag b a).2 = true then { b with sf := { b.sf with stuck := true } } else b) := by
    split
    · exact (stuck_same true b).beside
    · exact .refl a b
  by_cases h : (axDiag b a).1 = 0
  · rw [if_pos h]; exact h1
  · rw [if_neg h]; exact h1.trans (beginReact_beside _ _ _ _)

theorem faultEval_beside (now a : Nat) (b : Block) : Beside a b (faultEval now a b) := by
  unfold faultEval; split
  · split
    · exact beginReact_beside _ _ _ _
    · exact .refl a b
  · exact .refl a b

/-- One axis at an evaluation: the other axes, the zones and the rest of the module stand (R503). -/
theorem axEval_beside (now a : Nat) (b : Block) : Beside a b (axEval now a b) :=
  (((((((diagEval_beside now a b).trans (faultEval_beside now a _)).trans (graceEval_beside now a _)).trans (stopEval_beside now a _)).trans (btEval_beside now a _)).trans
    (brakeEval_beside now a _)).trans (stoTestEval_beside now a _)).trans (permitEval_beside now a _)

theorem grantEffect_beside (now a : Nat) (b : Block) : Beside a b (grantEffect now a b) := by
  unfold grantEffect; dsimp only; split
  · split
    · exact (sfAxUpd_beside a _ b).trans (natUpd_beside' a _ _)
    · exact sfAxUpd_beside a _ b
  · exact .refl a b

/-- Axes one after another: the module keeps the frame of the engine, an axis of the list is acted on once, in a module that left it as it was, and is left so afterwards. -/
theorem axes_loop (f : Nat → Block → Block) (h : ∀ a c, Beside a c (f a c)) (l : List Nat) (hn : l.Nodup) (b : Block) :
    OnlyEngine b (forL l f b) ∧ ∀ t j, (axNo t j ∉ l → SameAxis b (forL l f b) t j) ∧
      (axNo t j ∈ l → ∃ c, OnlyEngine b c ∧ SameAxis b c t j ∧ SameAxis (f (axNo t j) c) (forL l f b) t j) := by
  induction l generalizing b with
  | nil => exact ⟨rfl, fun t j => ⟨fun _ => .refl _ _ _, fun k => absurd k (List.not_mem_nil)⟩⟩
  | cons a r ih =>
    rw [List.nodup_cons] at hn
    obtain ⟨i1, i2⟩ := ih hn.2 (f a b)
    have e : forL (a :: r) f b = forL r f (f a b) := rfl
    have ha := h a b
    rw [e]
    refine ⟨ha.1.trans i1, fun t j => ⟨fun k => ?_, fun k => ?_⟩⟩
    · rw [List.mem_cons, not_or] at k
      exact (ha.2 t j k.1).trans ((i2 t j).1 k.2)
    · by_cases e' : axNo t j = a
      · subst e'
        exact ⟨b, rfl, .refl b t j, (i2 t j).1 hn.1⟩
      · rw [List.mem_cons] at k
        obtain ⟨c, k1, k2, k3⟩ := (i2 t j).2 (k.resolve_left e')
        exact ⟨c, ha.1.trans k1, (ha.2 t j e').trans k2, k3⟩

end Sys2Proof
end

