-- ==== Sys2Proof/Laws/Exec.lean ====
section
/-! SUPPORT. Each command's arm of exec, one equation per constructor. -/

namespace Sys2Proof.Machine

@[simp] theorem exec_latticeTick (pins : List Pin) (st : State) : exec (.latticeTick pins) st = execLatticeTick pins st := rfl

@[simp] theorem exec_refLost (st : State) : exec (.refLost) st = execRefLost st := rfl

@[simp] theorem exec_sampleInstant (t : Fin 8) (g : Fin 4) (st : State) : exec (.sampleInstant t g) st = execSampleInstant t g st := rfl

@[simp] theorem exec_applyInstant (t : Fin 8) (g : Fin 4) (st : State) : exec (.applyInstant t g) st = execApplyInstant t g st := rfl

@[simp] theorem exec_frameComplete (t : Fin 8) (g : Fin 4) (st : State) : exec (.frameComplete t g) st = execFrameComplete t g st := rfl

@[simp] theorem exec_paceRampStart (st : State) : exec (.paceRampStart) st = execPaceRampStart st := rfl

@[simp] theorem exec_paceRampSettled (st : State) : exec (.paceRampSettled) st = execPaceRampSettled st := rfl

@[simp] theorem exec_tlGrpClear (t : Fin 8) (mask : BitVec 4) (st : State) : exec (.tlGrpClear t mask) st = execTlGrpClear t mask st := rfl

@[simp] theorem exec_setpointReceived (t : Fin 8) (n : Fin 32) (st : State) : exec (.setpointReceived t n) st = execSetpointReceived t n st := rfl

@[simp] theorem exec_setpointTakesEffect (t : Fin 8) (n : Fin 32) (st : State) : exec (.setpointTakesEffect t n) st = execSetpointTakesEffect t n st := rfl

@[simp] theorem exec_extrapolationStart (t : Fin 8) (n : Fin 32) (st : State) : exec (.extrapolationStart t n) st = execExtrapolationStart t n st := rfl

@[simp] theorem exec_lateSetpointFault (t : Fin 8) (n : Fin 32) (st : State) : exec (.lateSetpointFault t n) st = execLateSetpointFault t n st := rfl

@[simp] theorem exec_stagingWrite (k : Fin 8) (addr : Nat) (v : Word) (st : State) : exec (.stagingWrite k addr v) st = execStagingWrite k addr v st := rfl

@[simp] theorem exec_commit (k : Fin 8) (asap : Bool) (st : State) : exec (.commit k asap) st = execCommit k asap st := rfl

@[simp] theorem exec_commitChecksDone (st : State) : exec (.commitChecksDone) st = execCommitChecksDone st := rfl

@[simp] theorem exec_abort (k : Fin 8) (st : State) : exec (.abort k) st = execAbort k st := rfl

@[simp] theorem exec_discard (k : Fin 8) (st : State) : exec (.discard k) st = execDiscard k st := rfl

@[simp] theorem exec_diePrepared (d : Fin 9) (st : State) : exec (.diePrepared d) st = execDiePrepared d st := rfl

@[simp] theorem exec_commitDecision (st : State) : exec (.commitDecision) st = execCommitDecision st := rfl

@[simp] theorem exec_commitApply (st : State) : exec (.commitApply) st = execCommitApply st := rfl

@[simp] theorem exec_store (k : Fin 8) (st : State) : exec (.store k) st = execStore k st := rfl

@[simp] theorem exec_storeDone (st : State) : exec (.storeDone) st = execStoreDone st := rfl

@[simp] theorem exec_imgInstall (k : Fin 8) (s : Fin 2) (st : State) : exec (.imgInstall k s) st = execImgInstall k s st := rfl

@[simp] theorem exec_imgNext (s : Fin 2) (st : State) : exec (.imgNext s) st = execImgNext s st := rfl

@[simp] theorem exec_imgStageSlot (k : Fin 8) (s : Fin 2) (st : State) : exec (.imgStageSlot k s) st = execImgStageSlot k s st := rfl

@[simp] theorem exec_imgConfirm (st : State) : exec (.imgConfirm) st = execImgConfirm st := rfl

@[simp] theorem exec_imageVerifyDone (st : State) : exec (.imageVerifyDone) st = execImageVerifyDone st := rfl

@[simp] theorem exec_boot (st : State) : exec (.boot) st = execBoot st := rfl

@[simp] theorem exec_schedSeal (t : Fin 8) (sc : Fin 8) (st : State) : exec (.schedSeal t sc) st = execSchedSeal t sc st := rfl

@[simp] theorem exec_schedSealDone (t : Fin 8) (sc : Fin 8) (st : State) : exec (.schedSealDone t sc) st = execSchedSealDone t sc st := rfl

@[simp] theorem exec_schedUnseal (t : Fin 8) (sc : Fin 8) (st : State) : exec (.schedUnseal t sc) st = execSchedUnseal t sc st := rfl

@[simp] theorem exec_schedReselect (t : Fin 8) (sc : Fin 8) (st : State) : exec (.schedReselect t sc) st = execSchedReselect t sc st := rfl

@[simp] theorem exec_modeNow (t : Fin 8) (j : Fin 16) (mode : BitVec 2) (st : State) : exec (.modeNow t j mode) st = execModeNow t j mode st := rfl

@[simp] theorem exec_modeArm (t : Fin 8) (j : Fin 16) (armed : Bool) (mode : BitVec 2) (st : State) : exec (.modeArm t j armed mode) st = execModeArm t j armed mode st := rfl

@[simp] theorem exec_axEnable (t : Fin 8) (j : Fin 4) (st : State) : exec (.axEnable t j) st = execAxEnable t j st := rfl

@[simp] theorem exec_axDisable (t : Fin 8) (j : Fin 4) (st : State) : exec (.axDisable t j) st = execAxDisable t j st := rfl

@[simp] theorem exec_axAlign (t : Fin 8) (j : Fin 4) (st : State) : exec (.axAlign t j) st = execAxAlign t j st := rfl

@[simp] theorem exec_gateEnableAssert (t : Fin 8) (j : Fin 4) (st : State) : exec (.gateEnableAssert t j) st = execGateEnableAssert t j st := rfl

@[simp] theorem exec_prechargeEnd (t : Fin 8) (j : Fin 4) (st : State) : exec (.prechargeEnd t j) st = execPrechargeEnd t j st := rfl

@[simp] theorem exec_axDisableComplete (t : Fin 8) (j : Fin 4) (st : State) : exec (.axDisableComplete t j) st = execAxDisableComplete t j st := rfl

@[simp] theorem exec_brakeHoldEnd (t : Fin 8) (j : Fin 4) (st : State) : exec (.brakeHoldEnd t j) st = execBrakeHoldEnd t j st := rfl

@[simp] theorem exec_alignComplete (t : Fin 8) (j : Fin 4) (st : State) : exec (.alignComplete t j) st = execAlignComplete t j st := rfl

@[simp] theorem exec_updatePoint (t : Fin 8) (j : Fin 4) (st : State) : exec (.updatePoint t j) st = execUpdatePoint t j st := rfl

@[simp] theorem exec_edgeCalibration (t : Fin 8) (j : Fin 4) (st : State) : exec (.edgeCalibration t j) st = execEdgeCalibration t j st := rfl

@[simp] theorem exec_edgeCoarse (t : Fin 8) (j : Fin 4) (st : State) : exec (.edgeCoarse t j) st = execEdgeCoarse t j st := rfl

@[simp] theorem exec_dfTrip (t : Fin 8) (j : Fin 4) (st : State) : exec (.dfTrip t j) st = execDfTrip t j st := rfl

@[simp] theorem exec_ocTrip (t : Fin 8) (j : Fin 4) (st : State) : exec (.ocTrip t j) st = execOcTrip t j st := rfl

@[simp] theorem exec_sdStuck (t : Fin 8) (j : Fin 4) (st : State) : exec (.sdStuck t j) st = execSdStuck t j st := rfl

@[simp] theorem exec_sumTrip (t : Fin 8) (j : Fin 4) (st : State) : exec (.sumTrip t j) st = execSumTrip t j st := rfl

@[simp] theorem exec_axTripClear (t : Fin 8) (j : Fin 4) (mask : Word) (st : State) : exec (.axTripClear t j mask) st = execAxTripClear t j mask st := rfl

@[simp] theorem exec_faultHoldEnd (t : Fin 8) (j : Fin 4) (st : State) : exec (.faultHoldEnd t j) st = execFaultHoldEnd t j st := rfl

@[simp] theorem exec_stepperHold (t : Fin 8) (j : Fin 4) (st : State) : exec (.stepperHold t j) st = execStepperHold t j st := rfl

@[simp] theorem exec_qdCount (t : Fin 8) (q : Fin 8) (ts : Nat) (a : Bool) (b : Bool) (st : State) : exec (.qdCount t q ts a b) st = execQdCount t q ts a b st := rfl

@[simp] theorem exec_indexEvent (t : Fin 8) (q : Fin 8) (ts : Nat) (z : Bool) (st : State) : exec (.indexEvent t q ts z) st = execIndexEvent t q ts z st := rfl

@[simp] theorem exec_setPos (t : Fin 8) (q : Fin 8) (st : State) : exec (.setPos t q) st = execSetPos t q st := rfl

@[simp] theorem exec_idxArm (t : Fin 8) (q : Fin 8) (st : State) : exec (.idxArm t q) st = execIdxArm t q st := rfl

@[simp] theorem exec_idxDisarm (t : Fin 8) (q : Fin 8) (st : State) : exec (.idxDisarm t q) st = execIdxDisarm t q st := rfl

@[simp] theorem exec_illLeak (t : Fin 8) (q : Fin 8) (st : State) : exec (.illLeak t q) st = execIllLeak t q st := rfl

@[simp] theorem exec_standstill (t : Fin 8) (q : Fin 8) (st : State) : exec (.standstill t q) st = execStandstill t q st := rfl

@[simp] theorem exec_probeEdge (t : Fin 8) (p : Fin 4) (ts : Nat) (rising : Bool) (st : State) : exec (.probeEdge t p ts rising) st = execProbeEdge t p ts rising st := rfl

@[simp] theorem exec_prbPop (t : Fin 8) (p : Fin 4) (st : State) : exec (.prbPop t p) st = execPrbPop t p st := rfl

@[simp] theorem exec_prbFlush (t : Fin 8) (p : Fin 4) (st : State) : exec (.prbFlush t p) st = execPrbFlush t p st := rfl

@[simp] theorem exec_rxFault (t : Fin 8) (q : Fin 8) (st : State) : exec (.rxFault t q) st = execRxFault t q st := rfl

@[simp] theorem exec_qdFaultClear (t : Fin 8) (q : Fin 8) (mask : Word) (st : State) : exec (.qdFaultClear t q mask) st = execQdFaultClear t q mask st := rfl

@[simp] theorem exec_pgStart (t : Fin 8) (j : Fin 16) (st : State) : exec (.pgStart t j) st = execPgStart t j st := rfl

@[simp] theorem exec_pgStop (t : Fin 8) (j : Fin 16) (st : State) : exec (.pgStop t j) st = execPgStop t j st := rfl

@[simp] theorem exec_pgHome (t : Fin 8) (j : Fin 16) (st : State) : exec (.pgHome t j) st = execPgHome t j st := rfl

@[simp] theorem exec_pgSeal (t : Fin 8) (j : Fin 16) (st : State) : exec (.pgSeal t j) st = execPgSeal t j st := rfl

@[simp] theorem exec_pgSealDone (t : Fin 8) (j : Fin 16) (st : State) : exec (.pgSealDone t j) st = execPgSealDone t j st := rfl

@[simp] theorem exec_pgUnseal (t : Fin 8) (j : Fin 16) (st : State) : exec (.pgUnseal t j) st = execPgUnseal t j st := rfl

@[simp] theorem exec_prefetchArrival (t : Fin 8) (j : Fin 16) (st : State) : exec (.prefetchArrival t j) st = execPrefetchArrival t j st := rfl

@[simp] theorem exec_immediateStop (t : Fin 8) (j : Fin 4) (st : State) : exec (.immediateStop t j) st = execImmediateStop t j st := rfl

@[simp] theorem exec_pulseDue (t : Fin 8) (j : Fin 4) (st : State) : exec (.pulseDue t j) st = execPulseDue t j st := rfl

@[simp] theorem exec_pulseIssue (t : Fin 8) (j : Fin 4) (st : State) : exec (.pulseIssue t j) st = execPulseIssue t j st := rfl

@[simp] theorem exec_stepPulseEnd (t : Fin 8) (j : Fin 4) (st : State) : exec (.stepPulseEnd t j) st = execStepPulseEnd t j st := rfl

@[simp] theorem exec_pgAxEnable (t : Fin 8) (j : Fin 4) (st : State) : exec (.pgAxEnable t j) st = execPgAxEnable t j st := rfl

@[simp] theorem exec_pgAxDisable (t : Fin 8) (j : Fin 4) (st : State) : exec (.pgAxDisable t j) st = execPgAxDisable t j st := rfl

@[simp] theorem exec_homingTimeout (t : Fin 8) (j : Fin 16) (st : State) : exec (.homingTimeout t j) st = execHomingTimeout t j st := rfl

@[simp] theorem exec_feedInstant (gr : Fin 8) (st : State) : exec (.feedInstant gr) st = execFeedInstant gr st := rfl

@[simp] theorem exec_plgStart (gr : Fin 8) (st : State) : exec (.plgStart gr) st = execPlgStart gr st := rfl

@[simp] theorem exec_plgHold (gr : Fin 8) (st : State) : exec (.plgHold gr) st = execPlgHold gr st := rfl

@[simp] theorem exec_plgResume (gr : Fin 8) (st : State) : exec (.plgResume gr) st = execPlgResume gr st := rfl

@[simp] theorem exec_plgStop (gr : Fin 8) (st : State) : exec (.plgStop gr) st = execPlgStop gr st := rfl

@[simp] theorem exec_plgFeedWrite (gr : Fin 8) (v : Word) (st : State) : exec (.plgFeedWrite gr v) st = execPlgFeedWrite gr v st := rfl

@[simp] theorem exec_plgMemberEvent (gr : Fin 8) (st : State) : exec (.plgMemberEvent gr) st = execPlgMemberEvent gr st := rfl

@[simp] theorem exec_clutchEngage (t : Fin 8) (j : Fin 16) (st : State) : exec (.clutchEngage t j) st = execClutchEngage t j st := rfl

@[simp] theorem exec_clutchDisengage (t : Fin 8) (j : Fin 16) (st : State) : exec (.clutchDisengage t j) st = execClutchDisengage t j st := rfl

@[simp] theorem exec_clutchZero (t : Fin 8) (j : Fin 16) (st : State) : exec (.clutchZero t j) st = execClutchZero t j st := rfl

@[simp] theorem exec_remoteMasterValue (t : Fin 8) (x : Fin 8) (st : State) : exec (.remoteMasterValue t x) st = execRemoteMasterValue t x st := rfl

@[simp] theorem exec_camSeal (t : Fin 8) (j : Fin 16) (st : State) : exec (.camSeal t j) st = execCamSeal t j st := rfl

@[simp] theorem exec_camSealDone (t : Fin 8) (j : Fin 16) (st : State) : exec (.camSealDone t j) st = execCamSealDone t j st := rfl

@[simp] theorem exec_camUnseal (t : Fin 8) (j : Fin 16) (st : State) : exec (.camUnseal t j) st = execCamUnseal t j st := rfl

@[simp] theorem exec_camReselect (t : Fin 8) (j : Fin 16) (st : State) : exec (.camReselect t j) st = execCamReselect t j st := rfl

@[simp] theorem exec_camFetchArrival (t : Fin 8) (j : Fin 16) (st : State) : exec (.camFetchArrival t j) st = execCamFetchArrival t j st := rfl

@[simp] theorem exec_cmpArm (t : Fin 8) (c : Fin 4) (st : State) : exec (.cmpArm t c) st = execCmpArm t c st := rfl

@[simp] theorem exec_cmpDisarm (t : Fin 8) (c : Fin 4) (st : State) : exec (.cmpDisarm t c) st = execCmpDisarm t c st := rfl

@[simp] theorem exec_cmpClear (t : Fin 8) (c : Fin 4) (st : State) : exec (.cmpClear t c) st = execCmpClear t c st := rfl

@[simp] theorem exec_comparePulseEnd (t : Fin 8) (c : Fin 4) (st : State) : exec (.comparePulseEnd t c) st = execComparePulseEnd t c st := rfl

@[simp] theorem exec_nxEnable (t : Fin 8) (j : Fin 8) (st : State) : exec (.nxEnable t j) st = execNxEnable t j st := rfl

@[simp] theorem exec_nxDisable (t : Fin 8) (j : Fin 8) (st : State) : exec (.nxDisable t j) st = execNxDisable t j st := rfl

@[simp] theorem exec_nxEnableTimeout (t : Fin 8) (j : Fin 8) (st : State) : exec (.nxEnableTimeout t j) st = execNxEnableTimeout t j st := rfl

@[simp] theorem exec_nxDisableTimeout (t : Fin 8) (j : Fin 8) (st : State) : exec (.nxDisableTimeout t j) st = execNxDisableTimeout t j st := rfl

@[simp] theorem exec_nxFeedbackReceived (t : Fin 8) (j : Fin 8) (st : State) : exec (.nxFeedbackReceived t j) st = execNxFeedbackReceived t j st := rfl

@[simp] theorem exec_nxSetpointAtHub (t : Fin 8) (j : Fin 8) (st : State) : exec (.nxSetpointAtHub t j) st = execNxSetpointAtHub t j st := rfl

@[simp] theorem exec_nop (t : Fin 8) (st : State) : exec (.nop t) st = execNop t st := rfl

@[simp] theorem exec_ld (t : Fin 8) (st : State) : exec (.ld t) st = execLd t st := rfl

@[simp] theorem exec_st (t : Fin 8) (st : State) : exec (.st t) st = execSt t st := rfl

@[simp] theorem exec_mvm (t : Fin 8) (st : State) : exec (.mvm t) st = execMvm t st := rfl

@[simp] theorem exec_ldi (t : Fin 8) (st : State) : exec (.ldi t) st = execLdi t st := rfl

@[simp] theorem exec_mov (t : Fin 8) (st : State) : exec (.mov t) st = execMov t st := rfl

@[simp] theorem exec_mova (t : Fin 8) (st : State) : exec (.mova t) st = execMova t st := rfl

@[simp] theorem exec_aadd (t : Fin 8) (st : State) : exec (.aadd t) st = execAadd t st := rfl

@[simp] theorem exec_add (t : Fin 8) (st : State) : exec (.add t) st = execAdd t st := rfl

@[simp] theorem exec_sub (t : Fin 8) (st : State) : exec (.sub t) st = execSub t st := rfl

@[simp] theorem exec_ash (t : Fin 8) (st : State) : exec (.ash t) st = execAsh t st := rfl

@[simp] theorem exec_and (t : Fin 8) (st : State) : exec (.and t) st = execAnd t st := rfl

@[simp] theorem exec_or (t : Fin 8) (st : State) : exec (.or t) st = execOr t st := rfl

@[simp] theorem exec_xor (t : Fin 8) (st : State) : exec (.xor t) st = execXor t st := rfl

@[simp] theorem exec_cmp (t : Fin 8) (st : State) : exec (.cmp t) st = execCmp t st := rfl

@[simp] theorem exec_abs (t : Fin 8) (st : State) : exec (.abs t) st = execAbs t st := rfl

@[simp] theorem exec_mul (t : Fin 8) (st : State) : exec (.mul t) st = execMul t st := rfl

@[simp] theorem exec_mac (t : Fin 8) (st : State) : exec (.mac t) st = execMac t st := rfl

@[simp] theorem exec_msu (t : Fin 8) (st : State) : exec (.msu t) st = execMsu t st := rfl

@[simp] theorem exec_vmac (t : Fin 8) (st : State) : exec (.vmac t) st = execVmac t st := rfl

@[simp] theorem exec_accr (t : Fin 8) (st : State) : exec (.accr t) st = execAccr t st := rfl

@[simp] theorem exec_aclr (t : Fin 8) (st : State) : exec (.aclr t) st = execAclr t st := rfl

@[simp] theorem exec_bfly (t : Fin 8) (st : State) : exec (.bfly t) st = execBfly t st := rfl

@[simp] theorem exec_bscale (t : Fin 8) (st : State) : exec (.bscale t) st = execBscale t st := rfl

@[simp] theorem exec_srch (t : Fin 8) (st : State) : exec (.srch t) st = execSrch t st := rfl

@[simp] theorem exec_mbsnap (t : Fin 8) (st : State) : exec (.mbsnap t) st = execMbsnap t st := rfl

@[simp] theorem exec_mbout (t : Fin 8) (st : State) : exec (.mbout t) st = execMbout t st := rfl

@[simp] theorem exec_mbpost (t : Fin 8) (st : State) : exec (.mbpost t) st = execMbpost t st := rfl

@[simp] theorem exec_br (t : Fin 8) (st : State) : exec (.br t) st = execBr t st := rfl

@[simp] theorem exec_dbnz (t : Fin 8) (st : State) : exec (.dbnz t) st = execDbnz t st := rfl

@[simp] theorem exec_call (t : Fin 8) (st : State) : exec (.call t) st = execCall t st := rfl

@[simp] theorem exec_ret (t : Fin 8) (st : State) : exec (.ret t) st = execRet t st := rfl

@[simp] theorem exec_reti (t : Fin 8) (st : State) : exec (.reti t) st = execReti t st := rfl

@[simp] theorem exec_rep (t : Fin 8) (st : State) : exec (.rep t) st = execRep t st := rfl

@[simp] theorem exec_wait (t : Fin 8) (st : State) : exec (.wait t) st = execWait t st := rfl

@[simp] theorem exec_evclr (t : Fin 8) (st : State) : exec (.evclr t) st = execEvclr t st := rfl

@[simp] theorem exec_setie (t : Fin 8) (st : State) : exec (.setie t) st = execSetie t st := rfl

@[simp] theorem exec_xfer (t : Fin 8) (st : State) : exec (.xfer t) st = execXfer t st := rfl

@[simp] theorem exec_halt (t : Fin 8) (st : State) : exec (.halt t) st = execHalt t st := rfl

@[simp] theorem exec_sqDispatch (t : Fin 8) (st : State) : exec (.sqDispatch t) st = execSqDispatch t st := rfl

@[simp] theorem exec_sqXferDone (t : Fin 8) (c : Fin 4) (st : State) : exec (.sqXferDone t c) st = execSqXferDone t c st := rfl

@[simp] theorem exec_mailboxStale (t : Fin 8) (m : Fin 16) (st : State) : exec (.mailboxStale t m) st = execMailboxStale t m st := rfl

@[simp] theorem exec_sqHalt (t : Fin 8) (st : State) : exec (.sqHalt t) st = execSqHalt t st := rfl

@[simp] theorem exec_sqRun (t : Fin 8) (st : State) : exec (.sqRun t) st = execSqRun t st := rfl

@[simp] theorem exec_sqReset (t : Fin 8) (st : State) : exec (.sqReset t) st = execSqReset t st := rfl

@[simp] theorem exec_sqClrStats (t : Fin 8) (st : State) : exec (.sqClrStats t) st = execSqClrStats t st := rfl

@[simp] theorem exec_sqDoorbell (t : Fin 8) (v : Word) (st : State) : exec (.sqDoorbell t v) st = execSqDoorbell t v st := rfl

@[simp] theorem exec_localMemoryWrite (t : Fin 8) (addr : BitVec 16) (v : Word) (st : State) : exec (.localMemoryWrite t addr v) st = execLocalMemoryWrite t addr v st := rfl

@[simp] theorem exec_acqRow (t : Fin 8) (st : State) : exec (.acqRow t) st = execAcqRow t st := rfl

@[simp] theorem exec_blockWriteback (t : Fin 8) (st : State) : exec (.blockWriteback t) st = execBlockWriteback t st := rfl

@[simp] theorem exec_triggerTimerExpiry (t : Fin 8) (i : Fin 2) (st : State) : exec (.triggerTimerExpiry t i) st = execTriggerTimerExpiry t i st := rfl

@[simp] theorem exec_aqArm (tiles : BitVec 8) (asap : Bool) (st : State) : exec (.aqArm tiles asap) st = execAqArm tiles asap st := rfl

@[simp] theorem exec_aqDisarm (tiles : BitVec 8) (st : State) : exec (.aqDisarm tiles) st = execAqDisarm tiles st := rfl

@[simp] theorem exec_aqForce (st : State) : exec (.aqForce) st = execAqForce st := rfl

@[simp] theorem exec_armTick (st : State) : exec (.armTick) st = execArmTick st := rfl

@[simp] theorem exec_aqStop (t : Fin 8) (st : State) : exec (.aqStop t) st = execAqStop t st := rfl

@[simp] theorem exec_aqRelease (t : Fin 8) (s : Fin 16) (st : State) : exec (.aqRelease t s) st = execAqRelease t s st := rfl

@[simp] theorem exec_aqClrStats (t : Fin 8) (st : State) : exec (.aqClrStats t) st = execAqClrStats t st := rfl

@[simp] theorem exec_firingAtHub (t : Fin 8) (st : State) : exec (.firingAtHub t) st = execFiringAtHub t st := rfl

@[simp] theorem exec_setTriggerSend (st : State) : exec (.setTriggerSend) st = execSetTriggerSend st := rfl

@[simp] theorem exec_setTriggerReceived (t : Fin 8) (st : State) : exec (.setTriggerReceived t) st = execSetTriggerReceived t st := rfl

@[simp] theorem exec_rearm (t : Fin 8) (st : State) : exec (.rearm t) st = execRearm t st := rfl

@[simp] theorem exec_acqStopComplete (t : Fin 8) (st : State) : exec (.acqStopComplete t) st = execAcqStopComplete t st := rfl

@[simp] theorem exec_cycleStart (st : State) : exec (.cycleStart) st = execCycleStart st := rfl

@[simp] theorem exec_matrixStart (st : State) : exec (.matrixStart) st = execMatrixStart st := rfl

@[simp] theorem exec_rekey (p : Fin 12) (st : State) : exec (.rekey p) st = execRekey p st := rfl

@[simp] theorem exec_downWindowAssembly (p : Fin 12) (st : State) : exec (.downWindowAssembly p) st = execDownWindowAssembly p st := rfl

@[simp] theorem exec_arbitratingDownWindow (p : Fin 12) (st : State) : exec (.arbitratingDownWindow p) st = execArbitratingDownWindow p st := rfl

@[simp] theorem exec_keyOfferRetry (p : Fin 12) (st : State) : exec (.keyOfferRetry p) st = execKeyOfferRetry p st := rfl

@[simp] theorem exec_windowClose (p : Fin 12) (st : State) : exec (.windowClose p) st = execWindowClose p st := rfl

@[simp] theorem exec_feedbackFrameRx (p : Fin 12) (c : RxCopy) (st : State) : exec (.feedbackFrameRx p c) st = execFeedbackFrameRx p c st := rfl

@[simp] theorem exec_setpointFrameRx (p : Fin 12) (c : RxCopy) (st : State) : exec (.setpointFrameRx p c) st = execSetpointFrameRx p c st := rfl

@[simp] theorem exec_safetyFrameRx (p : Fin 12) (c : RxCopy) (st : State) : exec (.safetyFrameRx p c) st = execSafetyFrameRx p c st := rfl

@[simp] theorem exec_dataFrameRx (p : Fin 12) (c : RxCopy) (st : State) : exec (.dataFrameRx p c) st = execDataFrameRx p c st := rfl

@[simp] theorem exec_startupFrameRx (p : Fin 12) (c : RxCopy) (st : State) : exec (.startupFrameRx p c) st = execStartupFrameRx p c st := rfl

@[simp] theorem exec_joinFrameRx (p : Fin 12) (c : RxCopy) (st : State) : exec (.joinFrameRx p c) st = execJoinFrameRx p c st := rfl

@[simp] theorem exec_keyFrameRx (p : Fin 12) (c : RxCopy) (st : State) : exec (.keyFrameRx p c) st = execKeyFrameRx p c st := rfl

@[simp] theorem exec_channelUp (p : Fin 12) (chB : Bool) (st : State) : exec (.channelUp p chB) st = execChannelUp p chB st := rfl

@[simp] theorem exec_channelDown (p : Fin 12) (chB : Bool) (st : State) : exec (.channelDown p chB) st = execChannelDown p chB st := rfl

@[simp] theorem exec_quicksetDecision (st : State) : exec (.quicksetDecision) st = execQuicksetDecision st := rfl

@[simp] theorem exec_quicksetExpired (st : State) : exec (.quicksetExpired) st = execQuicksetExpired st := rfl

@[simp] theorem exec_blPortEnable (p : Fin 12) (st : State) : exec (.blPortEnable p) st = execBlPortEnable p st := rfl

@[simp] theorem exec_blPortDisable (p : Fin 12) (st : State) : exec (.blPortDisable p) st = execBlPortDisable p st := rfl

@[simp] theorem exec_blClrStats (p : Fin 12) (st : State) : exec (.blClrStats p) st = execBlClrStats p st := rfl

@[simp] theorem exec_ntRateWrite (v : Word) (st : State) : exec (.ntRateWrite v) st = execNtRateWrite v st := rfl

@[simp] theorem exec_ntStep (st : State) : exec (.ntStep) st = execNtStep st := rfl

@[simp] theorem exec_ntStepEffect (st : State) : exec (.ntStepEffect) st = execNtStepEffect st := rfl

@[simp] theorem exec_ntCapture (st : State) : exec (.ntCapture) st = execNtCapture st := rfl

@[simp] theorem exec_teArm (u : Fin 32) (st : State) : exec (.teArm u) st = execTeArm u st := rfl

@[simp] theorem exec_teDisarm (u : Fin 32) (st : State) : exec (.teDisarm u) st = execTeDisarm u st := rfl

@[simp] theorem exec_timedEventFire (u : Fin 32) (st : State) : exec (.timedEventFire u) st = execTimedEventFire u st := rfl

@[simp] theorem exec_teoPulseEnd (k : Fin 8) (st : State) : exec (.teoPulseEnd k) st = execTeoPulseEnd k st := rfl

@[simp] theorem exec_captureRecord (u : Fin 32) (st : State) : exec (.captureRecord u) st = execCaptureRecord u st := rfl

@[simp] theorem exec_ptpRx (m : Fin 2) (stamp : Nat) (frame : List Byte) (st : State) : exec (.ptpRx m stamp frame) st = execPtpRx m stamp frame st := rfl

@[simp] theorem exec_ptpTx (m : Fin 2) (stamp : Nat) (st : State) : exec (.ptpTx m stamp) st = execPtpTx m stamp st := rfl

@[simp] theorem exec_ptpTsPop (m : Fin 2) (st : State) : exec (.ptpTsPop m) st = execPtpTsPop m st := rfl

@[simp] theorem exec_fieldExchange (st : State) : exec (.fieldExchange) st = execFieldExchange st := rfl

@[simp] theorem exec_fieldFrameRx (m : Fin 4) (ok : Bool) (st : State) : exec (.fieldFrameRx m ok) st = execFieldFrameRx m ok st := rfl

@[simp] theorem exec_fieldFrameApply (m : Fin 4) (st : State) : exec (.fieldFrameApply m) st = execFieldFrameApply m st := rfl

@[simp] theorem exec_inputAccepted (m : Fin 4) (k : Fin 16) (st : State) : exec (.inputAccepted m k) st = execInputAccepted m k st := rfl

@[simp] theorem exec_linkLost (m : Fin 4) (st : State) : exec (.linkLost m) st = execLinkLost m st := rfl

@[simp] theorem exec_fieldWdExpired (m : Fin 4) (st : State) : exec (.fieldWdExpired m) st = execFieldWdExpired m st := rfl

@[simp] theorem exec_safetyWdExpired (m : Fin 4) (st : State) : exec (.safetyWdExpired m) st = execSafetyWdExpired m st := rfl

@[simp] theorem exec_wdRelease (m : Fin 4) (st : State) : exec (.wdRelease m) st = execWdRelease m st := rfl

@[simp] theorem exec_fioClrCnt (m : Fin 4) (st : State) : exec (.fioClrCnt m) st = execFioClrCnt m st := rfl

@[simp] theorem exec_fioOutSet (m : Fin 4) (mask : BitVec 16) (st : State) : exec (.fioOutSet m mask) st = execFioOutSet m mask st := rfl

@[simp] theorem exec_fioOutClr (m : Fin 4) (mask : BitVec 16) (st : State) : exec (.fioOutClr m mask) st = execFioOutClr m mask st := rfl

@[simp] theorem exec_overload (m : Fin 4) (k : Fin 16) (st : State) : exec (.overload m k) st = execOverload m k st := rfl

@[simp] theorem exec_overtemp (m : Fin 4) (k : Fin 16) (st : State) : exec (.overtemp m k) st = execOvertemp m k st := rfl

@[simp] theorem exec_openLoad (m : Fin 4) (k : Fin 16) (st : State) : exec (.openLoad m k) st = execOpenLoad m k st := rfl

@[simp] theorem exec_readback (m : Fin 4) (k : Fin 16) (st : State) : exec (.readback m k) st = execReadback m k st := rfl

@[simp] theorem exec_lpLow (m : Fin 4) (low : Bool) (st : State) : exec (.lpLow m low) st = execLpLow m low st := rfl

@[simp] theorem exec_transferFail (m : Fin 4) (st : State) : exec (.transferFail m) st = execTransferFail m st := rfl

@[simp] theorem exec_fioDiagClear (m : Fin 4) (k : Fin 16) (mask : Word) (st : State) : exec (.fioDiagClear m k mask) st = execFioDiagClear m k mask st := rfl

@[simp] theorem exec_safetyEvaluation (st : State) : exec (.safetyEvaluation) st = execSafetyEvaluation st := rfl

@[simp] theorem exec_safetyDecisionEffect (st : State) : exec (.safetyDecisionEffect) st = execSafetyDecisionEffect st := rfl

@[simp] theorem exec_engineStall (st : State) : exec (.engineStall) st = execEngineStall st := rfl

@[simp] theorem exec_safetyDiagCycle (fail : Fin 6) (st : State) : exec (.safetyDiagCycle fail) st = execSafetyDiagCycle fail st := rfl

@[simp] theorem exec_zoneReset (z : Fin 16) (st : State) : exec (.zoneReset z) st = execZoneReset z st := rfl

@[simp] theorem exec_ack (t : Fin 8) (j : Fin 16) (st : State) : exec (.ack t j) st = execAck t j st := rfl

@[simp] theorem exec_stoTest (t : Fin 8) (j : Fin 4) (st : State) : exec (.stoTest t j) st = execStoTest t j st := rfl

@[simp] theorem exec_btStart (t : Fin 8) (j : Fin 4) (st : State) : exec (.btStart t j) st = execBtStart t j st := rfl

@[simp] theorem exec_brakeTestStep (t : Fin 8) (j : Fin 4) (st : State) : exec (.brakeTestStep t j) st = execBrakeTestStep t j st := rfl

@[simp] theorem exec_sfVerify (v : Word) (st : State) : exec (.sfVerify v) st = execSfVerify v st := rfl

@[simp] theorem exec_safetyPduRx (c : Fin 48) (st : State) : exec (.safetyPduRx c) st = execSafetyPduRx c st := rfl

@[simp] theorem exec_safetyConnExpiry (c : Fin 48) (st : State) : exec (.safetyConnExpiry c) st = execSafetyConnExpiry c st := rfl

@[simp] theorem exec_safetyPduSend (c : Fin 48) (st : State) : exec (.safetyPduSend c) st = execSafetyPduSend c st := rfl

@[simp] theorem exec_graceExpiry (t : Fin 8) (j : Fin 16) (st : State) : exec (.graceExpiry t j) st = execGraceExpiry t j st := rfl

@[simp] theorem exec_stopTimeout (t : Fin 8) (j : Fin 16) (st : State) : exec (.stopTimeout t j) st = execStopTimeout t j st := rfl

@[simp] theorem exec_stoDue (t : Fin 8) (j : Fin 16) (st : State) : exec (.stoDue t j) st = execStoDue t j st := rfl

@[simp] theorem exec_btDue (t : Fin 8) (j : Fin 16) (st : State) : exec (.btDue t j) st = execBtDue t j st := rfl

@[simp] theorem exec_newChallenge (st : State) : exec (.newChallenge) st = execNewChallenge st := rfl

@[simp] theorem exec_challengeExpiry (st : State) : exec (.challengeExpiry) st = execChallengeExpiry st := rfl

@[simp] theorem exec_submit (bank : Fin 11) (st : State) : exec (.submit bank) st = execSubmit bank st := rfl

@[simp] theorem exec_tokenCheckDone (st : State) : exec (.tokenCheckDone) st = execTokenCheckDone st := rfl

@[simp] theorem exec_enrol (bank : Fin 11) (st : State) : exec (.enrol bank) st = execEnrol bank st := rfl

@[simp] theorem exec_attest (bank : Fin 11) (st : State) : exec (.attest bank) st = execAttest bank st := rfl

@[simp] theorem exec_endService (st : State) : exec (.endService) st = execEndService st := rfl

@[simp] theorem exec_fieldServiceExpiry (st : State) : exec (.fieldServiceExpiry) st = execFieldServiceExpiry st := rfl

@[simp] theorem exec_lifecycleTransition (st : State) : exec (.lifecycleTransition) st = execLifecycleTransition st := rfl

@[simp] theorem exec_generateIdentity (st : State) : exec (.generateIdentity) st = execGenerateIdentity st := rfl

@[simp] theorem exec_hello (p : Fin 3) (st : State) : exec (.hello p) st = execHello p st := rfl

@[simp] theorem exec_finish (p : Fin 3) (st : State) : exec (.finish p) st = execFinish p st := rfl

@[simp] theorem exec_handshakeTimeout (k : Fin 8) (st : State) : exec (.handshakeTimeout k) st = execHandshakeTimeout k st := rfl

@[simp] theorem exec_request (p : Fin 3) (st : State) : exec (.request p) st = execRequest p st := rfl

@[simp] theorem exec_plainRequest (p : Fin 3) (st : State) : exec (.plainRequest p) st = execPlainRequest p st := rfl

@[simp] theorem exec_safetyMessage (p : Fin 3) (st : State) : exec (.safetyMessage p) st = execSafetyMessage p st := rfl

@[simp] theorem exec_close (p : Fin 3) (st : State) : exec (.close p) st = execClose p st := rfl

@[simp] theorem exec_sessionIdleExpiry (k : Fin 8) (st : State) : exec (.sessionIdleExpiry k) st = execSessionIdleExpiry k st := rfl

@[simp] theorem exec_sessionEnd (k : Fin 8) (st : State) : exec (.sessionEnd k) st = execSessionEnd k st := rfl

@[simp] theorem exec_tamperDetect (n : Fin 2) (st : State) : exec (.tamperDetect n) st = execTamperDetect n st := rfl

@[simp] theorem exec_marginMeasure (t : Fin 8) (margin : Int) (st : State) : exec (.marginMeasure t margin) st = execMarginMeasure t margin st := rfl

@[simp] theorem exec_eccCorrected (mem : Fin 3) (addr : Nat) (st : State) : exec (.eccCorrected mem addr) st = execEccCorrected mem addr st := rfl

@[simp] theorem exec_eccUncorrectable (mem : Fin 3) (addr : Nat) (st : State) : exec (.eccUncorrectable mem addr) st = execEccUncorrectable mem addr st := rfl

@[simp] theorem exec_healthWindow (st : State) : exec (.healthWindow) st = execHealthWindow st := rfl

@[simp] theorem exec_holdupMeasure (tenths : Nat) (st : State) : exec (.holdupMeasure tenths) st = execHoldupMeasure tenths st := rfl

@[simp] theorem exec_supplyFault (s : Fin 9) (dev : Int) (st : State) : exec (.supplyFault s dev) st = execSupplyFault s dev st := rfl

@[simp] theorem exec_temperatureRead (s : Fin 10) (v : Int) (st : State) : exec (.temperatureRead s v) st = execTemperatureRead s v st := rfl

@[simp] theorem exec_logNvmWrite (st : State) : exec (.logNvmWrite) st = execLogNvmWrite st := rfl

@[simp] theorem exec_replaceClear (mask : Word) (st : State) : exec (.replaceClear mask) st = execReplaceClear mask st := rfl

@[simp] theorem exec_logSel (seq : Word) (st : State) : exec (.logSel seq) st = execLogSel seq st := rfl

@[simp] theorem exec_stStart (op : BitVec 4) (target : BitVec 4) (st : State) : exec (.stStart op target) st = execStStart op target st := rfl

@[simp] theorem exec_stAbort (st : State) : exec (.stAbort) st = execStAbort st := rfl

@[simp] theorem exec_selftestSaveDone (st : State) : exec (.selftestSaveDone) st = execSelftestSaveDone st := rfl

@[simp] theorem exec_selftestTestDone (pass : Bool) (detail : Word) (st : State) : exec (.selftestTestDone pass detail) st = execSelftestTestDone pass detail st := rfl

@[simp] theorem exec_selftestRestoreDone (st : State) : exec (.selftestRestoreDone) st = execSelftestRestoreDone st := rfl

@[simp] theorem exec_tapInstruction (code : Fin 7) (st : State) : exec (.tapInstruction code) st = execTapInstruction code st := rfl

@[simp] theorem exec_cmdRead (k : Fin 8) (n : Nat) (addr : Nat) (st : State) : exec (.cmdRead k n addr) st = execCmdRead k n addr st := rfl

@[simp] theorem exec_cmdWrite (k : Fin 8) (addr : Nat) (data : List Word) (st : State) : exec (.cmdWrite k addr data) st = execCmdWrite k addr data st := rfl

@[simp] theorem exec_cmdStage (k : Fin 8) (addr : Nat) (data : List Word) (st : State) : exec (.cmdStage k addr data) st = execCmdStage k addr data st := rfl

@[simp] theorem exec_cmdCommit (k : Fin 8) (asap : Bool) (tick : Nat) (st : State) : exec (.cmdCommit k asap tick) st = execCmdCommit k asap tick st := rfl

@[simp] theorem exec_cmdStore (k : Fin 8) (st : State) : exec (.cmdStore k) st = execCmdStore k st := rfl

@[simp] theorem exec_cmdXferRead (k : Fin 8) (target : Nat) (n : Nat) (index : Nat) (ofs : Nat) (st : State) : exec (.cmdXferRead k target n index ofs) st = execCmdXferRead k target n index ofs st := rfl

@[simp] theorem exec_cmdXferWrite (k : Fin 8) (target : Nat) (last : Bool) (index : Nat) (ofs : Nat) (data : List Byte) (st : State) : exec (.cmdXferWrite k target last index ofs data) st = execCmdXferWrite k target last index ofs data st := rfl

@[simp] theorem exec_cmdSetpoint (k : Fin 8) (tile : Nat) (input : Nat) (apply : Nat) (value : DWord) (st : State) : exec (.cmdSetpoint k tile input apply value) st = execCmdSetpoint k tile input apply value st := rfl

@[simp] theorem exec_put (msg : List Byte) (whole : Bool) (st : State) : exec (.put msg whole) st = execPut msg whole st := rfl

@[simp] theorem exec_get (st : State) : exec (.get) st = execGet st := rfl

@[simp] theorem exec_status (st : State) : exec (.status) st = execStatus st := rfl

@[simp] theorem exec_ethFrameRx (m : Fin 2) (frame : List Byte) (st : State) : exec (.ethFrameRx m frame) st = execEthFrameRx m frame st := rfl

@[simp] theorem exec_phyPoll (m : Fin 2) (link : Bool) (fast : Bool) (full : Bool) (st : State) : exec (.phyPoll m link fast full) st = execPhyPoll m link fast full st := rfl

@[simp] theorem exec_powerFailWarning (st : State) : exec (.powerFailWarning) st = execPowerFailWarning st := rfl

@[simp] theorem exec_powerFailClear (st : State) : exec (.powerFailClear) st = execPowerFailClear st := rfl

@[simp] theorem exec_railReset (st : State) : exec (.railReset) st = execRailReset st := rfl

@[simp] theorem exec_registerWrite (k : Fin 8) (addr : Nat) (v : Word) (st : State) : exec (.registerWrite k addr v) st = execRegisterWrite k addr v st := rfl

@[simp] theorem exec_invalidCopyRx (p : Fin 12) (c : RxCopy) (st : State) : exec (.invalidCopyRx p c) st = execInvalidCopyRx p c st := rfl

@[simp] theorem exec_attestDone (st : State) : exec (.attestDone) st = execAttestDone st := rfl

@[simp] theorem exec_enrolCheckDone (st : State) : exec (.enrolCheckDone) st = execEnrolCheckDone st := rfl

@[simp] theorem exec_selftestAccepted (st : State) : exec (.selftestAccepted) st = execSelftestAccepted st := rfl

@[simp] theorem exec_brakeOpen (t : Fin 8) (j : Fin 16) (st : State) : exec (.brakeOpen t j) st = execBrakeOpen t j st := rfl

@[simp] theorem exec_fieldCommandAtHub (m : Fin 4) (k : Fin 16) (st : State) : exec (.fieldCommandAtHub m k) st = execFieldCommandAtHub m k st := rfl

@[simp] theorem exec_illegalInstruction (t : Fin 8) (st : State) : exec (.illegalInstruction t) st = execIllegalInstruction t st := rfl

@[simp] theorem exec_fetchFault (t : Fin 8) (st : State) : exec (.fetchFault t) st = execFetchFault t st := rfl

@[simp] theorem exec_supplyRecovered (s : Fin 9) (st : State) : exec (.supplyRecovered s) st = execSupplyRecovered s st := rfl

@[simp] theorem exec_supplySourceChange (mains : Bool) (vaux : Bool) (st : State) : exec (.supplySourceChange mains vaux) st = execSupplySourceChange mains vaux st := rfl

end Sys2Proof.Machine
end

