-- ==== Sys2Proof/Laws/Keeps.lean ====
section
/-! SUPPORT. Laws of the writes and requests of hosts: whatever they do to the block, the lattice, the reset of the hub and the queue stand. -/

namespace Sys2Proof.Machine

/-- Two states with the same lattice, reset and queue. -/
def SameClk (s u : State) : Prop := u.clk = s.clk ∧ u.pending = s.pending

theorem SameClk.refl (s : State) : SameClk s s := ⟨rfl, rfl⟩

theorem SameClk.trans {s u v : State} (h : SameClk s u) (h' : SameClk u v) : SameClk s v := ⟨h'.1.trans h.1, h'.2.trans h.2⟩

theorem mapB_same (s : State) (f : Block → Block) : SameClk s (s.mapB f) := ⟨rfl, rfl⟩

theorem whenBit_same (v i : Nat) (f : State → Host.Outcome State Fault Refusal) (s : State) (h : ∀ s, SameClk s (afterRow (f s) s)) :
    SameClk s (whenBit v i f s) := by
  unfold whenBit; split
  · exact h s
  · exact .refl s

theorem cmdA_same (r : RegId) (i j v : Nat) (s : State) : SameClk s (cmdA r i j v s) := by
  unfold cmdA; dsimp only
  split
  all_goals
    first
      | exact ⟨rfl, rfl⟩
      | (split <;> exact ⟨rfl, rfl⟩)
      | (refine SameClk.trans ?_ (whenBit_same _ _ _ _ fun _ => ⟨rfl, rfl⟩)
         refine SameClk.trans ?_ (whenBit_same _ _ _ _ fun _ => ⟨rfl, rfl⟩)
         exact whenBit_same _ _ _ _ fun _ => ⟨rfl, rfl⟩)
      | (refine SameClk.trans ?_ (whenBit_same _ _ _ _ fun _ => ⟨rfl, rfl⟩)
         exact whenBit_same _ _ _ _ fun _ => ⟨rfl, rfl⟩)

theorem cmdB_same (r : RegId) (i j v : Nat) (s : State) : SameClk s (cmdB r i j v s) := by
  have w : ∀ (v i : Nat) (f : State → Host.Outcome State Fault Refusal) (s u : State), (∀ s, SameClk s (afterRow (f s) s)) → SameClk s u → SameClk s (whenBit v i f u) :=
    fun v i f s u h h' => h'.trans (whenBit_same v i f u h)
  unfold cmdB; dsimp only
  split
  all_goals
    repeat (first | exact ⟨rfl, rfl⟩ | (refine w _ _ _ _ _ (fun _ => ⟨rfl, rfl⟩) ?_))

theorem cmdC_same (r : RegId) (i j v : Nat) (s : State) : SameClk s (cmdC r i j v s) := by
  have w : ∀ (v i : Nat) (f : State → Host.Outcome State Fault Refusal) (s u : State), (∀ s, SameClk s (afterRow (f s) s)) → SameClk s u → SameClk s (whenBit v i f u) :=
    fun v i f s u h h' => h'.trans (whenBit_same v i f u h)
  unfold cmdC; dsimp only
  split
  all_goals
    repeat (first | exact ⟨rfl, rfl⟩ | (refine w _ _ _ _ _ (fun _ => ⟨rfl, rfl⟩) ?_) | split)

theorem cmdHub_same (k : Nat) (r : RegId) (i v : Nat) (s : State) : SameClk s (cmdHub k r i v s).2 := by
  have w : ∀ (v i : Nat) (f : State → Host.Outcome State Fault Refusal) (s u : State), (∀ s, SameClk s (afterRow (f s) s)) → SameClk s u → SameClk s (whenBit v i f u) :=
    fun v i f s u h h' => h'.trans (whenBit_same v i f u h)
  unfold cmdHub; dsimp only
  split
  all_goals
    repeat (first | exact ⟨rfl, rfl⟩ | (refine w _ _ _ _ _ (fun _ => ⟨rfl, rfl⟩) ?_) | split)

/-- A register write keeps the lattice, the reset of the hub and the queue. -/
theorem regWrite_same (k a v : Nat) (s : State) : SameClk s (regWrite k a v s).2 := by
  unfold regWrite; dsimp only
  split
  · split <;> exact ⟨rfl, rfl⟩
  · split
    · exact ⟨rfl, rfl⟩
    · exact ⟨rfl, rfl⟩
    · split
      · exact ⟨rfl, rfl⟩
      · split
        · exact ⟨rfl, rfl⟩
        · exact (mapB_same _ _).trans ((cmdA_same _ _ _ _ _).trans ((cmdB_same _ _ _ _ _).trans ((cmdC_same _ _ _ _ _).trans (cmdHub_same _ _ _ _ _))))

theorem writeWords_same (k : Nat) (ws : List Word) (a : Nat) (s : State) : SameClk s (writeWords k a ws s).2 := by
  induction ws generalizing a s with
  | nil => exact .refl s
  | cons v r ih =>
    unfold writeWords; dsimp only; split
    · exact regWrite_same _ _ _ _
    · exact (regWrite_same _ _ _ _).trans (ih _ _)

theorem stageWords_same (k : Nat) (ws : List Word) (a : Nat) (s : State) : SameClk s (stageWords k a ws s).2 := by
  induction ws generalizing a s with
  | nil => exact .refl s
  | cons v r ih =>
    unfold stageWords; dsimp only; split
    · exact .refl s
    · exact SameClk.trans ⟨rfl, rfl⟩ (ih _ _)

/-- A command of a request keeps the lattice, the reset of the hub and the queue. -/
theorem runCmd_same (k : Nat) (c : HCmd) (s : State) : SameClk s (runCmd k c s).2.2 := by
  cases c <;> unfold runCmd <;> first | exact ⟨rfl, rfl⟩ | exact writeWords_same _ _ _ _ | exact stageWords_same _ _ _ _

theorem runWrites_same (k : Nat) (cs : List HCmd) (s : State) : SameClk s (runWrites k cs s).2 := by
  induction cs generalizing s with
  | nil => exact .refl s
  | cons c r ih =>
    have h : SameClk s (if (runCmd k c s).1.1 ≠ 0 then ((c, some (runCmd k c s).1.1) :: r.map fun d => (d, some 7), (runCmd k c s).2.2)
        else ((c, some 0) :: (runWrites k r (runCmd k c s).2.2).1, (runWrites k r (runCmd k c s).2.2).2)).2 := by
      split
      · exact runCmd_same _ _ _
      · exact (runCmd_same _ _ _).trans (ih _)
    cases c <;> first | exact h | exact ih s

theorem runReads_same (k : Nat) (cs : List (HCmd × Option Nat)) (s : State) : SameClk s (runReads k cs s).2 := by
  induction cs generalizing s with
  | nil => exact .refl s
  | cons c r ih =>
    obtain ⟨c, o⟩ := c
    cases o with
    | some e => exact ih s
    | none => exact (runCmd_same k c s).trans (ih _)

theorem runCmds_same (k n : Nat) (cs : List HCmd) (done : List CmdRes) (s : State) : SameClk s (runCmds k n cs done s).2 := by
  induction n generalizing cs done s with
  | zero => exact .refl s
  | succ n ih =>
    cases cs with
    | nil => exact .refl s
    | cons c r =>
      unfold runCmds; dsimp only
      split
      · split
        · exact (runWrites_same _ _ _).trans (runReads_same _ _ _)
        · exact ((runWrites_same _ _ _).trans (runReads_same _ _ _)).trans (ih _ _ _)
      · split
        · exact runCmd_same _ _ _
        · split
          · exact runCmd_same _ _ _
          · exact (runCmd_same _ _ _).trans (ih _ _ _)

theorem reqBegin_same (k : Nat) (q : Req) (s : State) : SameClk s (reqBegin k q s).2 := by
  unfold reqBegin; dsimp only
  split
  · dsimp only; split <;> exact ⟨rfl, rfl⟩
  · exact runCmds_same _ _ _ _ _

theorem reqResume_same (k : Nat) (q : Req) (s : State) : SameClk s (reqResume k q s).2 := by
  unfold reqResume; dsimp only
  split
  · split
    · exact .refl s
    · exact runCmds_same _ _ _ _ _
  · exact .refl s

theorem reqServe_same (k n : Nat) (s : State) : SameClk s (reqServe k n s) := by
  induction n generalizing s with
  | zero => exact .refl s
  | succ n ih =>
    unfold reqServe
    split
    · exact .refl s
    · rename_i q r _
      have h : SameClk s (if q.done.isEmpty && decide (q.wait = .none) then reqBegin k q s else reqResume k q s).2 := by
        split
        · exact reqBegin_same _ _ _
        · exact reqResume_same _ _ _
      generalize (if q.done.isEmpty && decide (q.wait = .none) then reqBegin k q s else reqResume k q s) = x at h ⊢
      dsimp only
      split
      · exact h
      · split
        · exact h.trans (mapB_same _ _)
        · exact (h.trans (mapB_same _ _)).trans (ih _)

/-- What waits in the sessions, once served, leaves the lattice, the reset of the hub and the queue. -/
theorem reqServeAll_same (s : State) : SameClk s (reqServeAll s) := by
  unfold reqServeAll
  generalize List.range 8 = l
  induction l generalizing s with
  | nil => exact .refl s
  | cons k r ih =>
    rw [List.foldl_cons]
    refine SameClk.trans ?_ (ih _)
    dsimp only; split
    · exact (mapB_same _ _).trans (reqServe_same _ _ _)
    · exact mapB_same _ _

theorem requestOp_same (p : Nat) (s : State) : SameClk s (requestOp p s) := by
  unfold requestOp; dsimp only
  split
  · exact .refl s
  · split
    · exact ⟨rfl, rfl⟩
    · split
      · exact ⟨rfl, rfl⟩
      · refine SameClk.trans ?_ (mapB_same _ _)
        split
        · exact SameClk.trans ⟨rfl, rfl⟩ (reqServe_same _ _ _)
        · exact ⟨rfl, rfl⟩

theorem plainOp_same (p : Nat) (s : State) : SameClk s (plainOp p s) := by
  unfold plainOp; dsimp only
  split
  · exact .refl s
  · split
    · exact ⟨rfl, rfl⟩
    · have h := fun k q c => reqBegin_same k q { s with b := c }
      exact ⟨(h _ _ _).1, (h _ _ _).2⟩

theorem oneCmd_same (k : Nat) (c : HCmd) (s : State) : SameClk s (oneCmd k c s) := by
  unfold oneCmd; dsimp only
  split
  · exact .refl s
  · split
    · refine SameClk.trans ?_ (mapB_same _ _)
      split
      · exact mapB_same _ _
      · exact .refl s
    · exact (runCmd_same _ _ _).trans (mapB_same _ _)

end Sys2Proof.Machine
end

