-- ==== Sys2Proof/Laws/Nvm.lean ====
section
/-! SUPPORT. Laws of the write operations on the NVM (R593): what they may change. -/

namespace Sys2Proof

open Sys2Proof.Machine

theorem OnlyWear.refl (b : Block) : OnlyWear b b := rfl

theorem OnlyWear.trans {b c d : Block} (h : OnlyWear b c) (h' : OnlyWear c d) : OnlyWear b d := by unfold OnlyWear at *; rw [h', h]

theorem OnlyLog.wear {b c : Block} (h : OnlyLog b c) : OnlyWear b c := by
  unfold OnlyLog at h; unfold OnlyWear; rw [h]

theorem setReplace_wear (now m : Nat) (b : Block) : OnlyWear b (setReplace now m b) := by
  unfold setReplace; dsimp only; split
  · exact .refl b
  · exact OnlyWear.trans (c := { b with nv := { b.nv with replace := b.nv.replace + (BitVec.ofNat 32 m &&& ~~~BitVec.ofNat 32 b.nv.replace).toNat } }) rfl (logEvent_log _ _ _ _ _).wear

theorem bumpBlock_wear (now k : Nat) (b : Block) : OnlyWear b (bumpBlock now k b) := by
  unfold bumpBlock; dsimp only; split
  · exact (OnlyWear.trans (c := { b with nv := { b.nv with wear := tabSet 0 b.nv.wear (k % 256) (tabGet 0 b.nv.wear (k % 256) + 1) } }) rfl (logEvent_log _ _ _ _ _).wear).trans (setReplace_wear _ _ _)
  · exact rfl

/-- A write operation on the NVM changes the counts of its blocks, and with a worn block REPLACE and the event log. -/
theorem nvWrite_wear (now : Nat) (b : Block) : OnlyWear b (nvWrite now b) :=
  forL_keeps (OnlyWear b) _ _ _ (fun _ _ h => h.trans (bumpBlock_wear _ _ _)) rfl

end Sys2Proof
end

