-- ==== Sys2Proof/Laws/Tiles.lean ====
section
/-! SUPPORT. Laws of the engines of the tiles: what a frame, from its sample instant to its apply instant, and the fault of an axis may change. -/

set_option linter.all false

namespace Sys2Proof.Machine

theorem OnlyTiles.refl (b : Block) : OnlyTiles b b := rfl

theorem OnlyTiles.trans {b c d : Block} (h : OnlyTiles b c) (h' : OnlyTiles c d) : OnlyTiles b d := by
  unfold OnlyTiles at *; rw [h', h]

theorem forL_ot {α : Type} (l : List α) (f : α → Block → Block) (b0 b : Block) (h : ∀ x c, OnlyTiles b0 c → OnlyTiles b0 (f x c)) (hb : OnlyTiles b0 b) :
    OnlyTiles b0 (forL l f b) := forL_keeps (OnlyTiles b0) l f b h hb

theorem forN_ot (n : Nat) (f : Nat → Block → Block) (b0 b : Block) (h : ∀ x c, OnlyTiles b0 c → OnlyTiles b0 (f x c)) (hb : OnlyTiles b0 b) :
    OnlyTiles b0 (forN n f b) := forL_ot _ f b0 b h hb

theorem once_ot (a : Nat) (f : Block → Block) (b0 b : Block) (h : ∀ c, OnlyTiles b0 c → OnlyTiles b0 (f c)) (hb : OnlyTiles b0 b) :
    OnlyTiles b0 (once a f b) := by
  unfold once; split
  · exact hb
  · exact h _ (by unfold OnlyTiles at *; rw [hb])

theorem marks_ot {b0 b : Block} (h : OnlyTiles b0 b) (x) : OnlyTiles b0 { b with marks := x } := by
  unfold OnlyTiles at *; rw [h]

theorem draws_ot {b0 b : Block} (h : OnlyTiles b0 b) (x) : OnlyTiles b0 { b with draws := x } := by
  unfold OnlyTiles at *; rw [h]

theorem grp_ot {b0 b : Block} (h : OnlyTiles b0 b) (x) : OnlyTiles b0 { b with grp := x } := by
  unfold OnlyTiles at *; rw [h]

theorem sec_ot {b0 b : Block} (h : OnlyTiles b0 b) (x) : OnlyTiles b0 { b with sec := x } := by
  unfold OnlyTiles at *; rw [h]

theorem ctx_ot {b0 b : Block} (h : OnlyTiles b0 b) (x) : OnlyTiles b0 { b with ctx := x } := by
  unfold OnlyTiles at *; rw [h]

theorem hist_ot {b0 b : Block} (h : OnlyTiles b0 b) (x) : OnlyTiles b0 { b with hist := x } := by
  unfold OnlyTiles at *; rw [h]

theorem sched_ot {b0 b : Block} (h : OnlyTiles b0 b) (x) : OnlyTiles b0 { b with sched := x } := by
  unfold OnlyTiles at *; rw [h]

theorem mode_ot {b0 b : Block} (h : OnlyTiles b0 b) (x) : OnlyTiles b0 { b with mode := x } := by
  unfold OnlyTiles at *; rw [h]

theorem nat_ot {b0 b : Block} (h : OnlyTiles b0 b) (x) : OnlyTiles b0 { b with nat := x } := by
  unfold OnlyTiles at *; rw [h]

theorem qd_ot {b0 b : Block} (h : OnlyTiles b0 b) (x) : OnlyTiles b0 { b with qd := x } := by
  unfold OnlyTiles at *; rw [h]

theorem prb_ot {b0 b : Block} (h : OnlyTiles b0 b) (x) : OnlyTiles b0 { b with prb := x } := by
  unfold OnlyTiles at *; rw [h]

theorem gen_ot {b0 b : Block} (h : OnlyTiles b0 b) (x) : OnlyTiles b0 { b with gen := x } := by
  unfold OnlyTiles at *; rw [h]

theorem pulse_ot {b0 b : Block} (h : OnlyTiles b0 b) (x) : OnlyTiles b0 { b with pulse := x } := by
  unfold OnlyTiles at *; rw [h]

theorem plg_ot {b0 b : Block} (h : OnlyTiles b0 b) (x) : OnlyTiles b0 { b with plg := x } := by
  unfold OnlyTiles at *; rw [h]

theorem follow_ot {b0 b : Block} (h : OnlyTiles b0 b) (x) : OnlyTiles b0 { b with follow := x } := by
  unfold OnlyTiles at *; rw [h]

theorem xm_ot {b0 b : Block} (h : OnlyTiles b0 b) (x) : OnlyTiles b0 { b with xm := x } := by
  unfold OnlyTiles at *; rw [h]

theorem cmp_ot {b0 b : Block} (h : OnlyTiles b0 b) (x) : OnlyTiles b0 { b with cmp := x } := by
  unfold OnlyTiles at *; rw [h]

theorem nx_ot {b0 b : Block} (h : OnlyTiles b0 b) (x) : OnlyTiles b0 { b with nx := x } := by
  unfold OnlyTiles at *; rw [h]

theorem blnx_ot {b0 b : Block} (h : OnlyTiles b0 b) (x) : OnlyTiles b0 { b with blnx := x } := by
  unfold OnlyTiles at *; rw [h]

theorem fp_ot {b0 b : Block} (h : OnlyTiles b0 b) (x) : OnlyTiles b0 { b with fp := x } := by
  unfold OnlyTiles at *; rw [h]

theorem seq_ot {b0 b : Block} (h : OnlyTiles b0 b) (x) : OnlyTiles b0 { b with seq := x } := by
  unfold OnlyTiles at *; rw [h]

theorem aq_ot {b0 b : Block} (h : OnlyTiles b0 b) (x) : OnlyTiles b0 { b with aq := x } := by
  unfold OnlyTiles at *; rw [h]

theorem hl_ot {b0 b : Block} (h : OnlyTiles b0 b) (x) : OnlyTiles b0 { b with hl := x } := by
  unfold OnlyTiles at *; rw [h]

theorem bk_ot {b0 b : Block} (h : OnlyTiles b0 b) (x) : OnlyTiles b0 { b with bk := x } := by
  unfold OnlyTiles at *; rw [h]

theorem log_ot {b0 b : Block} (h : OnlyTiles b0 b) (l : List LogEntry) (n : Nat) : OnlyTiles b0 { b with nv := { b.nv with log := l, logSeq := n } } := by
  unfold OnlyTiles at *; rw [h]

theorem logSeq_ot {b0 b : Block} (h : OnlyTiles b0 b) (n : Nat) : OnlyTiles b0 { b with nv := { b.nv with logSeq := n } } := by
  unfold OnlyTiles at *; rw [h]

theorem grpUpd_ot {b0 b : Block} (h : OnlyTiles b0 b) (t i : Nat) (f : Grp → Grp) : OnlyTiles b0 (b.grpUpd t i f) := grp_ot h _

theorem secUpd_ot {b0 b : Block} (h : OnlyTiles b0 b) (t i : Nat) (f : Sec → Sec) : OnlyTiles b0 (b.secUpd t i f) := sec_ot h _

theorem ctxUpd_ot {b0 b : Block} (h : OnlyTiles b0 b) (t i : Nat) (f : Ctx → Ctx) : OnlyTiles b0 (b.ctxUpd t i f) := ctx_ot h _

theorem histUpd_ot {b0 b : Block} (h : OnlyTiles b0 b) (t i : Nat) (f : List (Nat × Word) → List (Nat × Word)) : OnlyTiles b0 (b.histUpd t i f) := hist_ot h _

theorem schedUpd_ot {b0 b : Block} (h : OnlyTiles b0 b) (t i : Nat) (f : Sched → Sched) : OnlyTiles b0 (b.schedUpd t i f) := sched_ot h _

theorem modeUpd_ot {b0 b : Block} (h : OnlyTiles b0 b) (t i : Nat) (f : ModeS → ModeS) : OnlyTiles b0 (b.modeUpd t i f) := mode_ot h _

theorem natUpd_ot {b0 b : Block} (h : OnlyTiles b0 b) (t i : Nat) (f : NatAx → NatAx) : OnlyTiles b0 (b.natUpd t i f) := nat_ot h _

theorem qdUpd_ot {b0 b : Block} (h : OnlyTiles b0 b) (t i : Nat) (f : Qd → Qd) : OnlyTiles b0 (b.qdUpd t i f) := qd_ot h _

theorem prbUpd_ot {b0 b : Block} (h : OnlyTiles b0 b) (t i : Nat) (f : Prb → Prb) : OnlyTiles b0 (b.prbUpd t i f) := prb_ot h _

theorem genUpd_ot {b0 b : Block} (h : OnlyTiles b0 b) (t i : Nat) (f : Gen → Gen) : OnlyTiles b0 (b.genUpd t i f) := gen_ot h _

theorem pulseUpd_ot {b0 b : Block} (h : OnlyTiles b0 b) (t i : Nat) (f : Pulse → Pulse) : OnlyTiles b0 (b.pulseUpd t i f) := pulse_ot h _

theorem followUpd_ot {b0 b : Block} (h : OnlyTiles b0 b) (t i : Nat) (f : Follow → Follow) : OnlyTiles b0 (b.followUpd t i f) := follow_ot h _

theorem xmUpd_ot {b0 b : Block} (h : OnlyTiles b0 b) (t i : Nat) (f : XMaster → XMaster) : OnlyTiles b0 (b.xmUpd t i f) := xm_ot h _

theorem cmpUpd_ot {b0 b : Block} (h : OnlyTiles b0 b) (t i : Nat) (f : Cmp → Cmp) : OnlyTiles b0 (b.cmpUpd t i f) := cmp_ot h _

theorem nxUpd_ot {b0 b : Block} (h : OnlyTiles b0 b) (t i : Nat) (f : Nx → Nx) : OnlyTiles b0 (b.nxUpd t i f) := nx_ot h _

theorem seqUpd_ot {b0 b : Block} (h : OnlyTiles b0 b) (i : Nat) (f : Seq → Seq) : OnlyTiles b0 (b.seqUpd i f) := seq_ot h _

theorem aqUpd_ot {b0 b : Block} (h : OnlyTiles b0 b) (i : Nat) (f : Aq → Aq) : OnlyTiles b0 (b.aqUpd i f) := aq_ot h _

theorem plgUpd_ot {b0 b : Block} (h : OnlyTiles b0 b) (i : Nat) (f : Plg → Plg) : OnlyTiles b0 (b.plgUpd i f) := plg_ot h _

theorem blnxUpd_ot {b0 b : Block} (h : OnlyTiles b0 b) (i : Nat) (f : BlNx → BlNx) : OnlyTiles b0 (b.blnxUpd i f) := blnx_ot h _

theorem fpUpd_ot {b0 b : Block} (h : OnlyTiles b0 b) (i : Nat) (f : FPair → FPair) : OnlyTiles b0 (b.fpUpd i f) := fp_ot h _

theorem tempUpd_ot {b0 b : Block} (h : OnlyTiles b0 b) (i : Nat) (f : Temp → Temp) : OnlyTiles b0 (b.tempUpd i f) := hl_ot h _

theorem marginUpd_ot {b0 b : Block} (h : OnlyTiles b0 b) (i : Nat) (f : Margin → Margin) : OnlyTiles b0 (b.marginUpd i f) := hl_ot h _

theorem barrierUpd_ot {b0 b : Block} (h : OnlyTiles b0 b) (i : Nat) (f : Barrier → Barrier) : OnlyTiles b0 (b.barrierUpd i f) := hl_ot h _

theorem fly_ot {b0 b : Block} (h : OnlyTiles b0 b) (l) : OnlyTiles b0 { b with nt := { b.nt with fly := l } } := by
  unfold OnlyTiles at *; rw [h]

theorem sfAxUpd_ot {b0 b : Block} (h : OnlyTiles b0 b) (a : Nat) (f : SfAx → SfAx) : OnlyTiles b0 (b.sfAxUpd a f) := by
  unfold OnlyTiles Block.sfAxUpd at *; rw [h]

theorem acqEvent_ot (now : Nat) (t : Nat) (e : Nat) {b0 b : Block} (h : OnlyTiles b0 b) : OnlyTiles b0 (acqEvent now t e b) := by
  unfold acqEvent
  (try dsimp only)
  (repeat' first | with_reducible exact h | with_reducible assumption | with_reducible apply aqUpd_ot | (intro _ _ _) | (intro _ _) | split)

theorem genEnd_ot (t : Nat) (j : Nat) (f : Gen → Gen) {b0 b : Block} (h : OnlyTiles b0 b) : OnlyTiles b0 (genEnd t j f b) := by
  unfold genEnd
  (try dsimp only)
  (repeat' first | with_reducible exact h | with_reducible assumption | with_reducible apply qdUpd_ot | with_reducible apply genUpd_ot | (intro _ _ _) | (intro _ _) | split)

theorem memberEvent_ot (t : Nat) (j : Nat) {b0 b : Block} (h : OnlyTiles b0 b) : OnlyTiles b0 (memberEvent t j b) := by
  unfold memberEvent
  (try dsimp only)
  (repeat' first | with_reducible exact h | with_reducible assumption | with_reducible apply plgUpd_ot | (intro _ _ _) | (intro _ _) | split)

theorem motionDown_ot (now : Nat) (t : Nat) (j : Nat) {b0 b : Block} (h : OnlyTiles b0 b) : OnlyTiles b0 (motionDown now t j b) := by
  unfold motionDown
  (try dsimp only)
  (repeat' first | with_reducible exact h | with_reducible assumption | with_reducible apply genEnd_ot | with_reducible apply memberEvent_ot | with_reducible apply followUpd_ot | (intro _ _ _) | (intro _ _) | split)

theorem discardEnable_ot (t : Nat) (j : Nat) {b0 b : Block} (h : OnlyTiles b0 b) : OnlyTiles b0 (discardEnable t j b) := by
  unfold discardEnable
  (try dsimp only)
  (repeat' first | with_reducible exact h | with_reducible assumption | with_reducible apply natUpd_ot | with_reducible apply pulseUpd_ot | with_reducible apply nxUpd_ot | (intro _ _ _) | (intro _ _) | split)

theorem homingFault_ot (t : Nat) (j : Nat) {b0 b : Block} (h : OnlyTiles b0 b) : OnlyTiles b0 (homingFault t j b) := by
  unfold homingFault
  (try dsimp only)
  (repeat' first | with_reducible exact h | with_reducible assumption | with_reducible apply genEnd_ot | (intro _ _ _) | (intro _ _) | split)

theorem immStop_ot (now : Nat) (t : Nat) (j : Nat) {b0 b : Block} (h : OnlyTiles b0 b) : OnlyTiles b0 (immStop now t j b) := by
  unfold immStop
  (try dsimp only)
  (repeat' first | with_reducible exact h | with_reducible assumption | with_reducible apply memberEvent_ot | with_reducible apply pulseUpd_ot | (intro _ _ _) | (intro _ _) | split)

theorem tileFault_ot (now : Nat) (t : Nat) (j : Nat) {b0 b : Block} (h : OnlyTiles b0 b) : OnlyTiles b0 (tileFault now t j b) := by
  unfold tileFault
  (try dsimp only)
  (repeat' first | with_reducible exact h | with_reducible assumption | with_reducible apply acqEvent_ot | with_reducible apply motionDown_ot | with_reducible apply discardEnable_ot | with_reducible apply homingFault_ot | with_reducible apply immStop_ot | with_reducible apply genUpd_ot | with_reducible apply followUpd_ot | with_reducible apply nxUpd_ot | (intro _ _ _) | (intro _ _) | split)

theorem axFaultN_ot (n now cause t j : Nat) {b0 b : Block} (h : OnlyTiles b0 b) : OnlyTiles b0 (axFaultN n now cause t j b) := by
  induction n generalizing now cause t j b with
  | zero => exact h
  | succ n ih =>
    rw [axFaultN]
    (repeat' first | exact h | with_reducible assumption | with_reducible apply discardEnable_ot | with_reducible apply forL_ot | with_reducible apply ih | with_reducible apply tileFault_ot | with_reducible apply followUpd_ot | with_reducible apply sfAxUpd_ot | split | intro _ _ _)

theorem axFault_ot (now : Nat) (cause : Nat) (t : Nat) (j : Nat) {b0 b : Block} (h : OnlyTiles b0 b) : OnlyTiles b0 (axFault now cause t j b) := by
  unfold axFault
  (try dsimp only)
  (repeat' first | with_reducible exact h | with_reducible assumption | with_reducible apply axFaultN_ot | (intro _ _ _) | (intro _ _) | split)

theorem axFaults_ot (now : Nat) (cause : Nat) (l : List (Nat × Nat)) {b0 b : Block} (h : OnlyTiles b0 b) : OnlyTiles b0 (axFaults now cause l b) := by
  unfold axFaults
  (try dsimp only)
  (repeat' first | with_reducible exact h | with_reducible assumption | with_reducible apply axFault_ot | with_reducible apply forL_ot | (intro _ _ _) | (intro _ _) | split)

theorem stSuspend_ot (now : Nat) (t : Nat) {b0 b : Block} (h : OnlyTiles b0 b) : OnlyTiles b0 (stSuspend now t b) := by
  unfold stSuspend
  dsimp only
  split
  · split
    · split
      · exact hl_ot h _
      · exact h
    · exact h
  · exact h

theorem genEffects_ot (s : Nat) (t : Nat) (j : Nat) (o : GenOut) {b0 b : Block} (h : OnlyTiles b0 b) : OnlyTiles b0 (genEffects s t j o b) := by
  unfold genEffects
  (try dsimp only)
  (repeat' first | with_reducible exact h | with_reducible assumption | with_reducible apply immStop_ot | with_reducible apply qdUpd_ot | with_reducible apply pulseUpd_ot | with_reducible apply plgUpd_ot | (intro _ _ _) | (intro _ _) | split)

theorem genSample_ot (s : Nat) (t : Nat) (j : Nat) {b0 b : Block} (h : OnlyTiles b0 b) : OnlyTiles b0 (genSample s t j b) := by
  unfold genSample
  (try dsimp only)
  (repeat' first | with_reducible exact h | with_reducible assumption | with_reducible apply genEnd_ot | with_reducible apply genEffects_ot | with_reducible apply qdUpd_ot | (intro _ _ _) | (intro _ _) | split)

theorem cmpReport_ot (now : Nat) (t : Nat) (c : Nat) {b0 b : Block} (h : OnlyTiles b0 b) : OnlyTiles b0 (cmpReport now t c b) := by
  unfold cmpReport
  exact fly_ot (acqEvent_ot now t c h) _

theorem cmpSample_ot (s : Nat) (t : Nat) (c : Nat) {b0 b : Block} (h : OnlyTiles b0 b) : OnlyTiles b0 (cmpSample s t c b) := by
  unfold cmpSample
  (try dsimp only)
  (repeat' first | with_reducible exact h | with_reducible assumption | with_reducible apply cmpReport_ot | with_reducible apply cmpUpd_ot | (intro _ _ _) | (intro _ _) | split)

theorem plgStarve_ot (now : Nat) (g : Nat) {b0 b : Block} (h : OnlyTiles b0 b) : OnlyTiles b0 (plgStarve now g b) := by
  unfold plgStarve
  (try dsimp only)
  (repeat' first | with_reducible exact h | with_reducible assumption | with_reducible apply plgUpd_ot | (intro _ _ _) | (intro _ _) | split)

theorem plgBegin_ot (now g : Nat) {b0 b : Block} (h : OnlyTiles b0 b) : OnlyTiles b0 (plgBegin now g b) := by
  unfold plgBegin; (try dsimp only)
  (repeat' first | with_reducible exact h | with_reducible assumption | with_reducible apply plgUpd_ot | with_reducible apply forL_ot | with_reducible apply genUpd_ot | split | (intro _ _ _))

theorem plgTransit_ot (now g : Nat) {b0 b : Block} (h : OnlyTiles b0 b) : OnlyTiles b0 (plgTransit now g b).1 := by
  unfold plgTransit; dsimp only
  (repeat' first | with_reducible exact h | with_reducible apply plgUpd_ot | with_reducible apply plgBegin_ot | split)

theorem plgFeed_ot (now : Nat) (g : Nat) {b0 b : Block} (h : OnlyTiles b0 b) : OnlyTiles b0 (plgFeed now g b) := by
  have h' := plgTransit_ot now g (plgUpd_ot h g fun p => { p with fedAt := now, fOld := p.f })
  unfold plgFeed
  generalize plgTransit now g (b.plgUpd g fun p => { p with fedAt := now, fOld := p.f }) = r at h'
  obtain ⟨c, started⟩ := r
  dsimp only at h' ⊢
  (repeat' first | with_reducible exact h' | with_reducible apply plgUpd_ot | split)

theorem feedAll_ot (now : Nat) {b0 b : Block} (h : OnlyTiles b0 b) : OnlyTiles b0 (feedAll now b) := by
  unfold feedAll
  (try dsimp only)
  (repeat' first | with_reducible exact h | with_reducible assumption | with_reducible apply plgStarve_ot | with_reducible apply plgFeed_ot | with_reducible apply forN_ot | with_reducible apply once_ot | (intro _ _ _) | (intro _ _) | split)

theorem logAppend_ot (e : LogEntry) {b0 b : Block} (h : OnlyTiles b0 b) : OnlyTiles b0 (logAppend e b) := by
  obtain ⟨tail, saved, h'⟩ : ∃ k l n, logAppend e b = { b with bk := k, nv := { b.nv with log := l, logSeq := n } } := by
    unfold logAppend; dsimp only
    split
    · exact ⟨_, _, _, rfl⟩
    · split
      · exact ⟨_, _, _, rfl⟩
      · exact ⟨_, _, _, rfl⟩
  obtain ⟨n, h'⟩ := h'
  rw [h']; unfold OnlyTiles at *; rw [h]

theorem logEvent_ot (now : Nat) (code : Nat) (source : Nat) (data : Nat) {b0 b : Block} (h : OnlyTiles b0 b) : OnlyTiles b0 (logEvent now code source data b) := by
  have e1 := fun m (n : Nat) => hl_ot h { b.hl with marks := m, suppressed := n }
  have e2 : ∀ n x, OnlyTiles b0 { b with nv := { b.nv with logSeq := n }, hl := x } := fun n x => by
    unfold OnlyTiles at *; rw [h]
  unfold logEvent; dsimp only
  split
  all_goals (try split)
  all_goals first | exact e1 _ _ | exact logAppend_ot _ (e2 _ _)

theorem axisDone_ot (now : Nat) (t : Nat) (j : Nat) {b0 b : Block} (h : OnlyTiles b0 b) : OnlyTiles b0 (axisDone now t j b) := by
  unfold axisDone
  (try dsimp only)
  (repeat' first | with_reducible exact h | with_reducible assumption | with_reducible apply logEvent_ot | with_reducible apply qdUpd_ot | with_reducible apply sfAxUpd_ot | with_reducible apply forL_ot | (intro _ _ _) | (intro _ _) | split)

theorem nxEnableOp_ot (now : Nat) (t : Nat) (j : Nat) {b0 b : Block} (h : OnlyTiles b0 b) : OnlyTiles b0 (nxEnableOp now t j b) := by
  unfold nxEnableOp
  (try dsimp only)
  (repeat' first | with_reducible exact h | with_reducible assumption | with_reducible apply nxUpd_ot | (intro _ _ _) | (intro _ _) | split)

theorem nxDone_ot (now : Nat) (t : Nat) (j : Nat) (timeout : Bool) {b0 b : Block} (h : OnlyTiles b0 b) : OnlyTiles b0 (nxDone now t j timeout b) := by
  unfold nxDone
  (try dsimp only)
  (repeat' first | with_reducible exact h | with_reducible assumption | with_reducible apply axisDone_ot | with_reducible apply nxEnableOp_ot | with_reducible apply nxUpd_ot | (intro _ _ _) | (intro _ _) | split)

theorem rampsArm_ot (t : Nat) (j : Nat) {b0 b : Block} (h : OnlyTiles b0 b) : OnlyTiles b0 (rampsArm t j b) := by
  unfold rampsArm
  (try dsimp only)
  (repeat' first | with_reducible exact h | with_reducible assumption | with_reducible apply ctxUpd_ot | with_reducible apply forL_ot | (intro _ _ _) | (intro _ _) | split)

theorem nxSample_ot (now : Nat) (t : Nat) (j : Nat) {b0 b : Block} (h : OnlyTiles b0 b) : OnlyTiles b0 (nxSample now t j b) := by
  unfold nxSample
  (try dsimp only)
  (repeat' first | with_reducible exact h | with_reducible assumption | with_reducible apply nxDone_ot | with_reducible apply axFault_ot | with_reducible apply rampsArm_ot | with_reducible apply nxUpd_ot | with_reducible apply sfAxUpd_ot | (intro _ _ _) | (intro _ _) | split)

theorem fallbackLost_ot (now : Nat) (t : Nat) (src : Nat) {b0 b : Block} (h : OnlyTiles b0 b) : OnlyTiles b0 (fallbackLost now t src b) := by
  unfold fallbackLost
  (try dsimp only)
  (repeat' first | with_reducible exact h | with_reducible assumption | with_reducible apply axFault_ot | with_reducible apply forL_ot | (intro _ _ _) | (intro _ _) | split)

theorem chanFault_ot (now : Nat) (t : Nat) (k : Nat) {b0 b : Block} (h : OnlyTiles b0 b) : OnlyTiles b0 (chanFault now t k b) := by
  unfold chanFault
  (try dsimp only)
  (repeat' first | with_reducible exact h | with_reducible assumption | with_reducible apply axFault_ot | with_reducible apply fallbackLost_ot | with_reducible apply qdUpd_ot | (intro _ _ _) | (intro _ _) | split)

theorem chanFreeze_ot (s : Nat) (t : Nat) (k : Nat) {b0 b : Block} (h : OnlyTiles b0 b) : OnlyTiles b0 (chanFreeze s t k b) := by
  unfold chanFreeze
  (try dsimp only)
  (repeat' first | with_reducible exact h | with_reducible assumption | with_reducible apply chanFault_ot | with_reducible apply qdUpd_ot | (intro _ _ _) | (intro _ _) | split)

theorem indexShift_ot (s : Nat) (t : Nat) (k : Nat) {b0 b : Block} (h : OnlyTiles b0 b) : OnlyTiles b0 (indexShift s t k b) := by
  unfold indexShift
  (try dsimp only)
  (repeat' first | with_reducible exact h | with_reducible assumption | with_reducible apply genUpd_ot | with_reducible apply followUpd_ot | with_reducible apply forN_ot | (intro _ _ _) | (intro _ _) | split)

theorem chanSample_ot (s : Nat) (t : Nat) (k : Nat) {b0 b : Block} (h : OnlyTiles b0 b) : OnlyTiles b0 (chanSample s t k b) := by
  unfold chanSample
  (try dsimp only)
  (repeat' first | with_reducible exact h | with_reducible assumption | with_reducible apply indexShift_ot | with_reducible apply qdUpd_ot | (intro _ _ _) | (intro _ _) | split)

theorem fallbackStart_ot (s : Nat) (t : Nat) (k : Nat) (old : DWord) {b0 b : Block} (h : OnlyTiles b0 b) : OnlyTiles b0 (fallbackStart s t k old b) := by
  unfold fallbackStart
  (try dsimp only)
  (repeat' first | with_reducible exact h | with_reducible assumption | with_reducible apply qdUpd_ot | with_reducible apply sfAxUpd_ot | (intro _ _ _) | (intro _ _) | split)

theorem fallbackRead_ot (s : Nat) (t : Nat) (k : Nat) {b0 b : Block} (h : OnlyTiles b0 b) : OnlyTiles b0 (fallbackRead s t k b) := by
  unfold fallbackRead
  (try dsimp only)
  (repeat' first | with_reducible exact h | with_reducible assumption | with_reducible apply qdUpd_ot | (intro _ _ _) | (intro _ _) | split)

theorem fallbackAll_ot (s : Nat) (t : Nat) (ks : List Nat) (old : Block) {b0 b : Block} (h : OnlyTiles b0 b) : OnlyTiles b0 (fallbackAll s t ks old b) := by
  unfold fallbackAll
  (try dsimp only)
  (repeat' first | with_reducible exact h | with_reducible assumption | with_reducible apply fallbackStart_ot | with_reducible apply fallbackRead_ot | with_reducible apply forL_ot | with_reducible apply forN_ot | (intro _ _ _) | (intro _ _) | split)

theorem chansSample_ot (s : Nat) (t : Nat) {b0 b : Block} (h : OnlyTiles b0 b) : OnlyTiles b0 (chansSample s t b) := by
  unfold chansSample
  (try dsimp only)
  (repeat' first | with_reducible exact h | with_reducible assumption | with_reducible apply nxSample_ot | with_reducible apply chanFreeze_ot | with_reducible apply chanSample_ot | with_reducible apply fallbackAll_ot | with_reducible apply forL_ot | with_reducible apply forN_ot | (intro _ _ _) | (intro _ _) | split)

theorem natPrecharge_ot (t : Nat) (j : Nat) (u : Int) (s : Int) {b0 b : Block} (h : OnlyTiles b0 b) : OnlyTiles b0 (natPrecharge t j u s b) := by
  unfold natPrecharge
  (try dsimp only)
  (repeat' first | with_reducible exact h | with_reducible assumption | with_reducible apply natUpd_ot | with_reducible apply sfAxUpd_ot | (intro _ _ _) | (intro _ _) | split)

theorem natGate_ot (now : Nat) (t : Nat) (j : Nat) {b0 b : Block} (h : OnlyTiles b0 b) : OnlyTiles b0 (natGate now t j b) := by
  unfold natGate
  (try dsimp only)
  (repeat' first | with_reducible exact h | with_reducible assumption | with_reducible apply rampsArm_ot | with_reducible apply natPrecharge_ot | with_reducible apply natUpd_ot | (intro _ _ _) | (intro _ _) | split)

theorem xmArrive_ot (t : Nat) (x : Nat) (v : DWord × DWord × Nat) {b0 b : Block} (h : OnlyTiles b0 b) : OnlyTiles b0 (xmArrive t x v b) := by
  unfold xmArrive
  (try dsimp only)
  (repeat' first | with_reducible exact h | with_reducible assumption | with_reducible apply xmUpd_ot | (intro _ _ _) | (intro _ _) | split)

theorem xmDeliver_ot (x : Nat) (t : Nat) (lim : Option Nat) {b0 b : Block} (h : OnlyTiles b0 b) : OnlyTiles b0 (xmDeliver x t lim b) := by
  unfold xmDeliver
  (try dsimp only)
  (repeat' first | with_reducible exact h | with_reducible assumption | with_reducible apply xmArrive_ot | (intro _ _ _) | (intro _ _) | split)

theorem followSample_ot (s : Nat) (t : Nat) (j : Nat) {b0 b : Block} (h : OnlyTiles b0 b) : OnlyTiles b0 (followSample s t j b) := by
  unfold followSample
  (try dsimp only)
  (repeat' first | with_reducible exact h | with_reducible assumption | with_reducible apply axFault_ot | with_reducible apply xmDeliver_ot | with_reducible apply followUpd_ot | (intro _ _ _) | (intro _ _) | split)

theorem pulseEnable_ot (now : Nat) (t : Nat) (j : Nat) {b0 b : Block} (h : OnlyTiles b0 b) : OnlyTiles b0 (pulseEnable now t j b) := by
  unfold pulseEnable
  (try dsimp only)
  (repeat' first | with_reducible exact h | with_reducible assumption | with_reducible apply pulseUpd_ot | (intro _ _ _) | (intro _ _) | split)

theorem pulseState_ot (now : Nat) (t : Nat) (j : Nat) {b0 b : Block} (h : OnlyTiles b0 b) : OnlyTiles b0 (pulseState now t j b) := by
  unfold pulseState
  (try dsimp only)
  (repeat' first | with_reducible exact h | with_reducible assumption | with_reducible apply axisDone_ot | with_reducible apply pulseEnable_ot | with_reducible apply rampsArm_ot | with_reducible apply pulseUpd_ot | (intro _ _ _) | (intro _ _) | split)

theorem modeSample_ot (s : Nat) (t : Nat) (j : Nat) {b0 b : Block} (h : OnlyTiles b0 b) : OnlyTiles b0 (modeSample s t j b) := by
  unfold modeSample
  (try dsimp only)
  (repeat' first | with_reducible exact h | with_reducible assumption | with_reducible apply modeUpd_ot | (intro _ _ _) | (intro _ _) | split)

theorem latchTile_ot (s : Nat) (t : Nat) {b0 b : Block} (h : OnlyTiles b0 b) : OnlyTiles b0 (latchTile s t b) := by
  unfold latchTile
  (try dsimp only)
  (repeat' first | with_reducible exact h | with_reducible assumption | with_reducible apply genSample_ot | with_reducible apply cmpSample_ot | with_reducible apply feedAll_ot | with_reducible apply chansSample_ot | with_reducible apply natGate_ot | with_reducible apply followSample_ot | with_reducible apply pulseState_ot | with_reducible apply modeSample_ot | with_reducible apply pulseUpd_ot | with_reducible apply forL_ot | with_reducible apply forN_ot | (intro _ _ _) | (intro _ _) | split)

theorem sampleGroup_ot (s : Nat) (t : Nat) (g : Nat) {b0 b : Block} (h : OnlyTiles b0 b) : OnlyTiles b0 (sampleGroup s t g b) := by
  unfold sampleGroup
  (try dsimp only)
  (repeat' first | with_reducible exact h | with_reducible assumption | with_reducible apply stSuspend_ot | with_reducible apply latchTile_ot | with_reducible apply grpUpd_ot | with_reducible apply seqUpd_ot | with_reducible apply once_ot | (intro _ _ _) | (intro _ _) | split)

theorem ctxCommit_ot (s : Nat) (t : Nat) (r : CtxRes) {b0 b : Block} (h : OnlyTiles b0 b) : OnlyTiles b0 (ctxCommit s t r b) := by
  unfold ctxCommit
  (try dsimp only)
  (repeat' first | with_reducible exact h | with_reducible assumption | with_reducible apply secUpd_ot | with_reducible apply ctxUpd_ot | with_reducible apply schedUpd_ot | with_reducible apply forL_ot | (intro _ _ _) | (intro _ _) | split)

theorem natCommit_ot (t : Nat) (r : NatRes) {b0 b : Block} (h : OnlyTiles b0 b) : OnlyTiles b0 (natCommit t r b) := by
  unfold natCommit
  (try dsimp only)
  (repeat' first | with_reducible exact h | with_reducible assumption | with_reducible apply natUpd_ot | (intro _ _ _) | (intro _ _) | split)

theorem modeCommit_ot (s : Nat) (t : Nat) (m : Nat × Nat) {b0 b : Block} (h : OnlyTiles b0 b) : OnlyTiles b0 (modeCommit s t m b) := by
  unfold modeCommit
  (try dsimp only)
  (repeat' first | with_reducible exact h | with_reducible assumption | with_reducible apply modeUpd_ot | (intro _ _ _) | (intro _ _) | split)

theorem completeFrame_ot (now : Nat) (t : Nat) (g : Nat) {b0 b : Block} (h : OnlyTiles b0 b) : OnlyTiles b0 (completeFrame now t g b) := by
  unfold completeFrame
  (try dsimp only)
  (repeat' first | with_reducible exact h | with_reducible assumption | with_reducible apply ctxCommit_ot | with_reducible apply natCommit_ot | with_reducible apply modeCommit_ot | with_reducible apply grpUpd_ot | with_reducible apply forL_ot | (intro _ _ _) | (intro _ _) | split)

theorem natLoad_ot (now : Nat) (t : Nat) (r : NatRes) {b0 b : Block} (h : OnlyTiles b0 b) : OnlyTiles b0 (natLoad now t r b) := by
  unfold natLoad
  (try dsimp only)
  (repeat' first | with_reducible exact h | with_reducible assumption | with_reducible apply natUpd_ot | (intro _ _ _) | (intro _ _) | split)

theorem ctxDest_ot (now : Nat) (sample : Nat) (t : Nat) (r : CtxRes) (w : Word) {b0 b : Block} (h : OnlyTiles b0 b) : OnlyTiles b0 (ctxDest now sample t r w b) := by
  unfold ctxDest
  (try dsimp only)
  (repeat' first | with_reducible exact h | with_reducible assumption | with_reducible apply natUpd_ot | with_reducible apply seqUpd_ot | with_reducible apply blnxUpd_ot | (intro _ _ _) | (intro _ _) | split)

theorem ctxApply_ot (now : Nat) (sample : Nat) (t : Nat) (r : CtxRes) {b0 b : Block} (h : OnlyTiles b0 b) : OnlyTiles b0 (ctxApply now sample t r b) := by
  unfold ctxApply
  (try dsimp only)
  (repeat' first | with_reducible exact h | with_reducible assumption | with_reducible apply ctxDest_ot | with_reducible apply ctxUpd_ot | with_reducible apply histUpd_ot | (intro _ _ _) | (intro _ _) | split)

theorem fieldSend_ot (now : Nat) (t : Nat) (g : Nat) {b0 b : Block} (h : OnlyTiles b0 b) : OnlyTiles b0 (fieldSend now t g b) := by
  unfold fieldSend
  (try dsimp only)
  (repeat' first | with_reducible exact h | with_reducible assumption | with_reducible apply fpUpd_ot | with_reducible apply forN_ot | (intro _ _ _) | (intro _ _) | split)

theorem pulseApply_ot (sample : Nat) (t : Nat) (p : PulseGoal) {b0 b : Block} (h : OnlyTiles b0 b) : OnlyTiles b0 (pulseApply sample t p b) := by
  unfold pulseApply
  (try dsimp only)
  (repeat' first | with_reducible exact h | with_reducible assumption | with_reducible apply pulseUpd_ot | (intro _ _ _) | (intro _ _) | split)

theorem grpMiss_ot (now : Nat) (t : Nat) (g : Nat) {b0 b : Block} (h : OnlyTiles b0 b) : OnlyTiles b0 (grpMiss now t g b) := by
  unfold grpMiss
  dsimp only
  have h' := acqEvent_ot now t 9 (draws_ot (grpUpd_ot h t g fun x => { x with minSlack := 0, lastSlack := 0, consec := satAdd 255 x.consec 1, lastCtx := missContext b t g, count := satAdd 65535 x.count 1, lastMiss := now % 2 ^ 32 }) (b.draws + 1))
  split
  · split
    · exact axFaults_ot _ _ _ h'
    · exact h'
  · split
    · exact axFaults_ot _ _ _ h'
    · exact h'

theorem tileAlive_ot (t : Nat) {b0 b : Block} (h : OnlyTiles b0 b) : OnlyTiles b0 (tileAlive t b) := by
  unfold tileAlive
  (try dsimp only)
  (repeat' first | with_reducible exact h | with_reducible assumption | with_reducible apply fpUpd_ot | with_reducible apply forN_ot | (intro _ _ _) | (intro _ _) | split)

theorem nxRepeat_ot (now : Nat) (t : Nat) (f : Frame) {b0 b : Block} (h : OnlyTiles b0 b) : OnlyTiles b0 (nxRepeat now t f b) := by
  unfold nxRepeat
  (try dsimp only)
  (repeat' first | with_reducible exact h | with_reducible assumption | with_reducible apply ctxDest_ot | with_reducible apply forL_ot | (intro _ _ _) | (intro _ _) | split)

theorem applyGroup_ot (now : Nat) (t : Nat) (g : Nat) {b0 b : Block} (h : OnlyTiles b0 b) : OnlyTiles b0 (applyGroup now t g b) := by
  unfold applyGroup
  (try dsimp only)
  (repeat' first | with_reducible exact h | with_reducible assumption | with_reducible apply natLoad_ot | with_reducible apply ctxApply_ot | with_reducible apply fieldSend_ot | with_reducible apply pulseApply_ot | with_reducible apply grpMiss_ot | with_reducible apply tileAlive_ot | with_reducible apply nxRepeat_ot | with_reducible apply grpUpd_ot | with_reducible apply seqUpd_ot | with_reducible apply forL_ot | (intro _ _ _) | (intro _ _) | split)

end Sys2Proof.Machine
end

