-- ==== Sys2Proof/Tests/Slice0.lean ====
section
/-! SUPPORT. Tests: well-formedness, and witnesses of the statements' hypotheses. -/

namespace Sys2Proof.Tests

open Sys2Proof.Machine

set_option Elab.async false

/-- A module whose image gives it eight tiles, running. -/
def runB : Block := { run := { on := true, tileSet := 8 } }

/-- A machine that is up, at tick `now`, with module `b`. -/
def at' (now : Nat) (b : Block) : State := { clk := { lattice := now, up := true }, b := b }

/-- The running module with registers at the given words. -/
def cfgB (l : List (Nat × Nat)) : Block := { runB with cfg := l.map fun p => (p.1, BitVec.ofNat 32 p.2) }

/-! ### Ill-formed commands: one for each check -/

theorem test_wf_pins : wellFormed (.latticeTick [.transfer 0 false 256]) = false ∧ wellFormed (.latticeTick [.receiving 0 false (some (2 ^ 64))]) = false ∧
    wellFormed (.latticeTick [.vbat 65536]) = false ∧ wellFormed (.latticeTick [.supply 65536 0]) = false ∧ wellFormed (.latticeTick [.supply 240 65536]) = false := by decide

theorem test_wf_address : wellFormed (.stagingWrite 0 2 0) = false ∧ wellFormed (.stagingWrite 0 (2 ^ 32) 0) = false ∧ wellFormed (.registerWrite 0 3 0) = false ∧
    wellFormed (.registerWrite 0 0x20000 0) = true := by decide

theorem test_wf_stamps : wellFormed (.qdCount 0 0 (2 ^ 64) true true) = false ∧ wellFormed (.indexEvent 0 0 (2 ^ 64) true) = false ∧ wellFormed (.probeEdge 0 0 (2 ^ 64) true) = false ∧
    wellFormed (.ptpRx 0 (2 ^ 64) []) = false ∧ wellFormed (.ptpTx 0 (2 ^ 64)) = false := by decide

theorem test_wf_copies : let c : RxCopy := { stamp := 2 ^ 64 }
    wellFormed (.feedbackFrameRx 0 c) = false ∧ wellFormed (.setpointFrameRx 0 c) = false ∧ wellFormed (.safetyFrameRx 0 c) = false ∧ wellFormed (.dataFrameRx 0 c) = false ∧
    wellFormed (.startupFrameRx 0 c) = false ∧ wellFormed (.joinFrameRx 0 c) = false ∧ wellFormed (.keyFrameRx 0 c) = false ∧ wellFormed (.invalidCopyRx 0 c) = false := by decide

theorem test_wf_commands : wellFormed (.eccCorrected 0 (2 ^ 32)) = false ∧ wellFormed (.eccUncorrectable 0 (2 ^ 32)) = false ∧ wellFormed (.cmdRead 0 65536 0) = false ∧
    wellFormed (.cmdRead 0 1 (2 ^ 32)) = false ∧ wellFormed (.cmdWrite 0 (2 ^ 32) []) = false ∧ wellFormed (.cmdStage 0 (2 ^ 32) []) = false ∧ wellFormed (.cmdCommit 0 false (2 ^ 64)) = false := by decide

theorem test_wf_transfers : wellFormed (.cmdXferRead 0 256 4 0 0) = false ∧ wellFormed (.cmdXferRead 0 1 65536 0 0) = false ∧ wellFormed (.cmdXferRead 0 1 4 256 0) = false ∧
    wellFormed (.cmdXferRead 0 1 4 0 (2 ^ 32)) = false ∧ wellFormed (.cmdXferWrite 0 128 false 0 0 []) = false ∧ wellFormed (.cmdXferWrite 0 1 false 256 0 []) = false ∧
    wellFormed (.cmdXferWrite 0 1 false 0 (2 ^ 32) []) = false := by decide

theorem test_wf_setpoint : wellFormed (.cmdSetpoint 0 256 0 0 0) = false ∧ wellFormed (.cmdSetpoint 0 0 256 0 0) = false ∧ wellFormed (.cmdSetpoint 0 0 0 (2 ^ 64) 0) = false := by decide

/-- Data of `n` entries is too long for a 16-bit length exactly from 65,536 on. -/
theorem test_wf_lengths (n : Nat) (d : List Word) (bs : List Byte) (hd : d.length = n) (hb : bs.length = n) (h : 65536 ≤ n) :
    wellFormed (.cmdWrite 0 0 d) = false ∧ wellFormed (.cmdStage 0 0 d) = false ∧ wellFormed (.cmdXferWrite 0 1 false 0 0 bs) = false ∧ wellFormed (.put bs true) = false ∧
    wellFormed (.dataFrameRx 0 { bytes := bs }) = false := by
  have hf : fits 16 n = false := by simp [fits]; omega
  refine ⟨?_, ?_, ?_, ?_, ?_⟩ <;> simp [wellFormed, copyOk, hd, hb, hf]

/-! ### Values that the specification or a published standard gives -/

/-- The check values of CRC-32 and CRC-32C over the digits 1 to 9, as published for the two polynomials that R87 and R538 name. -/
theorem test_crc_check_values : let digits : List Byte := [0x31, 0x32, 0x33, 0x34, 0x35, 0x36, 0x37, 0x38, 0x39]
    crc32 digits = 0xCBF43926 ∧ crc32c digits = 0xE3069283 := by decide +kernel

/-- The emergency stop of the example after R533: the decision at 8,001,375,000 takes effect at 8,001,500,000. -/
theorem test_zone_decision_tick : let b : Block := { cfgB [(0x70120, 0x80000000), (0x70124, 0x55)] with sf := { zones := [(2, { demand := false, inForce := false })] } }
    ((zoneEval 8001375000 2 b).zoneAt 2).due = some (8001500000, true) := by decide +kernel

/-- A decision tick that comes with a die unprepared rejects the commit with PREPARE_TIMEOUT, code 0x1D (R99, R104). -/
theorem test_prepare_timeout : (commitDecision 90000 { cm := { ph := .accepted, apply := 100000, dies := 257, prepared := 256 } }).cm.code = 0x1D := by decide +kernel

/-! ### Hypotheses of LatticeMoves are met -/

theorem wit_LatticeMoves_boot : Gives .boot State.reset (fun _ => True) ∧ State.reset.clk.up = false := ⟨⟨_, rfl, trivial⟩, rfl⟩

theorem wit_LatticeMoves_tick : (at' 20 {}).clk.up = true := by decide

/-! ### Hypotheses of InvKept are met -/

theorem wit_InvKept : Inv (at' 20 {}) ∧ step (at' 20 {}) = .next (at' 20 {}) := ⟨⟨rfl, fun h => by cases h⟩, rfl⟩

/-! ### Hypotheses of SupplyAndReference are met -/

/-- The running module with a pulse-train axis at slot 4 of tile 0 that is enabled, the loss of its reference registered at 124,990. -/
def refB : Block := { cfgB [(0x10020010, 3)] with pulse := [(0, { st := .enabled })], refLost := true, sf := { refDue := some 124990 } }

theorem wit_SupplyAndReference_refLost : (at' 20 {}).clk.up = true ∧ (at' 20 {}).b.refLost = false ∧ refB.run.on = true ∧ 125000 % 125000 = 0 ∧
    refB.marks.contains 400 = false ∧ refB.sf.fault = false := by decide +kernel

/-- The evaluation that follows the loss of the reference begins the reaction of an enabled axis (R52), and not that of a disabled one (R673). -/
theorem test_reference_reaction : ((evaluate 125000 refB).sfAxAt 4).flt = true ∧ ((evaluate 125000 refB).pulseAt 0 0).imm = some 125000 ∧
    ((evaluate 125000 { refB with pulse := [] }).sfAxAt 4).flt = false := by decide +kernel

/-- OVERLOAD on a released brake channel is a BRAKE_DIAG fault, FLT_CAUSE 5 (R501, R510). -/
theorem test_brake_overload : (axDiag { cfgB [(0x71000, 0x8C000000)] with fp := tabSet {} [] 0 { diag := (List.replicate 12 0) ++ [4] } } 0).1 = 5 := by decide +kernel

theorem wit_SupplyAndReference_rise : let b := { cfgB [(0x1000C, 1)] with paceNow := 1, cm := { ph := .accepted, apply := 10, staged := [(0x1000C, 0)] } }
    targetPace b < b.paceNow ∧ b.cm.rise = false ∧ b.cm.apply ≤ 0 + 2000000 := by decide +kernel

/-! ### Hypotheses of SetPointReceived are met -/

/-- The running module whose input 0 of tile 0 has an interval of 1 µs; `x` is its record, and one set-point for `a` is on its way. -/
def spB (a : Nat) (x : SpIn) : Block := { cfgB [(0x10001100, 100)] with sp := tabSet {} [] 0 x, spFly := [{ dst := 0, apply := a, val := 7 }] }

theorem wit_SetPointReceived : let e : SpFly := { dst := 0, apply := 1234, val := 7 }
    tileLive (spB 1234 {}) 0 = true ∧ spI (spB 1234 {}) 0 0 ≠ 0 ∧ spI runB 0 0 = 0 ∧ (spB 1234 {}).spFly.find? (fun f => decide (f.dst = 0)) = some e ∧ spineServes (spB 1234 {}) (pktSp e) = true ∧
    -- a set-point of class 1 goes before one of class 5
    spineServes { spB 1234 {} with spFly := [{ e with cls5 := true }, e] } (pktSp { e with cls5 := true }) = false ∧
    -- older, repeat, late, replaced, fifth, queued
    (1230 < ({ cnt := 1, cur := { at_ := 1240 } } : SpIn).cur.at_) ∧ (({ cnt := 1, cur := { at_ := 1230 } } : SpIn).cur.at_ = 1230) ∧
    (1230 < 2000) ∧ ((({ queue := [{ at_ := 1230 }] } : SpIn).queue.any fun q => decide (q.at_ = 1230)) = true) ∧
    (({ queue := [{ at_ := 1240 }, { at_ := 1250 }, { at_ := 1260 }, { at_ := 1270 }] } : SpIn).queue.length = 4) := by decide +kernel

/-! ### Hypotheses of SetPointTakesEffect are met -/

theorem wit_SetPointTakesEffect : let x : SpIn := { cnt := 1, cur := { at_ := 100 }, queue := [{ at_ := 1230 }] }
    let b := spB 0 x
    tileLive b 0 = true ∧ b.spAt 0 0 = x ∧ x.late = [] ∧ 1230 ≤ 1240 ∧ x.cnt ≠ 0 ∧ spI b 0 0 ≠ 0 ∧ x.cur.at_ + spI b 0 0 + 10 ≤ 1240 ∧
    x.signalled = false ∧ spExpiry b 0 0 x ≤ 1240 ∧ 200 < spExpiry b 0 0 x := by decide +kernel

/-! ### Hypotheses of RateGroups are met -/

/-- The running module whose group 0 of tile 0 has a period of 5 µs and applies 2 µs after its sample; `x` is the group's record. -/
def grpB (x : Grp) : Block := { cfgB [(0x10001010, 500), (0x10001020, 200)] with grp := tabSet {} [] 0 x }

theorem wit_RateGroups : let f : Frame := { sample := 5000, apply := 7000 }
    let d : Frame := { f with done := some 6000 }
    let b := grpB { frames := [f] }
    let c := grpB { frames := [d] }
    tileLive b 0 = true ∧ tileOn b 0 = true ∧ isSample b 5000 0 0 = true ∧ (b.grpAt 0 0).lastSample ≠ some 5000 ∧ b.hl.st.st ≠ .accepted ∧
    (b.grpAt 0 0).frames.find? (fun y => y.done.isNone) = some f ∧ f.sample < 6000 ∧
    (c.grpAt 0 0).frames.find? (fun y => decide (y.apply = 7000)) = some d ∧ d.done = some 6000 ∧
    (b.grpAt 0 0).frames.find? (fun y => decide (y.apply = 7000)) = some f ∧ f.done = none := by decide +kernel

/-! ### Hypotheses of SchedulesAndModes are met -/

/-- A gain-schedule bank of one region and one section, all coefficients 0, with its checksum. -/
def bankOne : List Byte := let h : List Byte := [1, 1] ++ List.replicate 98 0; h ++ leBytes 4 (crc32 h)

/-- The running module with a context on schedule 0 of tile 0 and the bank of one region in bank 0. -/
def schedB : Block :=
  { cfgB [(0x10010000, 0x80100)] with run := { runB.run with parts := [{ id := 1, kind := 3, owner := 16, size := 2 }] }, mem := tabFill 0 [] 0 bankOne }

theorem wit_GainSchedules : readSched runB 0 0 (shadowNo none) = none ∧ tileLive runB 0 = true ∧ tileLive schedB 0 = true ∧
    (readSched schedB 0 0 (shadowNo none)).isSome = true ∧ ({} : Sched).shadow = .empty := by decide +kernel

theorem wit_ControlModes : let b := cfgB [(0x10010000, 0x100), (0x10010008, 0xA00000), (0x10010040, 0x100), (0x10010048, 0x800000), (0x10013404, 1000)]
    tileLive b 0 = true ∧ altOf b 0 0 2 = none ∧ altOf b 0 0 1 ≠ none ∧ (b.modeAt 0 0).active ≠ 1 ∧
    Fld.CE_MODE_AT_HI_TICK b.cfg 0 0 * 2 ^ 32 + Fld.CE_MODE_AT_LO_TICK b.cfg 0 0 = 1000 := by decide +kernel

/-! ### Hypotheses of NativeEnable are met -/

/-- The running module with a granted native axis in slot 0 of tile 0, in state `x`. -/
def natB (x : NatAx) : Block := { cfgB [(0x10020000, 1)] with nat := tabSet {} [] 0 x, sf := { axes := [(0, { permit := true })] } }

theorem wit_NativeEnable : tileLive (natB {}) 0 = true ∧ natRefused (natB {}) 0 0 = false ∧ natRefused runB 0 0 = true ∧
    safetyStops (natB { st := .disabling }) 0 0 = false ∧ safetyStops { natB { st := .disabling } with sf := { axes := [(0, { fault := some (1, 0) })] } } 0 0 = true := by
  decide +kernel

/-! ### Hypotheses of NativeDisable are met -/

theorem wit_NativeDisable : tileLive (natB { st := .enabled }) 0 = true ∧ ((natB { st := .enabled }).sfAxAt (axNo 0 0)).stop = none ∧
    ((natB { st := .enabled }).sfAxAt (axNo 0 0)).bt.st = .idle ∧ ({ st := .disabling, brakeEnd := some 10 } : NatAx).brakeEnd = some 10 := by decide +kernel

theorem wit_NativeDisable_stop : (({ natB { st := .enabled } with sf := { axes := [(0, { stop := some (0, false) })] } } : Block).sfAxAt (axNo 0 0)).stop ≠ none := by decide +kernel

/-! ### Hypotheses of NativeSequence are met -/

/-- The native axis in state `x` whose current loops (contexts 0 and 1) run in group 0 at 100 µs, applied 2 µs after the sample. -/
def natC (x : NatAx) : Block :=
  { natB x with cfg := [(0x10001010, 10000), (0x10001020, 200), (0x10010000, 0x10000100), (0x10010040, 0x20000100), (0x10020000, 1)] }

theorem wit_NativeSequence : isSample (natC {}) 100000 0 (curGroup (natC {}) 0 0) = true ∧ updatePointAt (natC {}) 100000 0 0 = some (400000, 100000) ∧
    isValley (natC {}) 0 0 100000 = true ∧ 4 * (((0 : Nat) : Int) + 1000 * Fld.AX_PWM_MIN_PRE_T (natC {}).cfg 0 0) ≤ 400000 ∧
    ({ wait := some (50000, false) } : NatAx).wait = some (50000, false) ∧ tileLive (natC {}) 0 = true ∧
    0 + Fld.AX_ALIGN_T_ALIGN_T (natC {}).cfg 0 0 * 1000000 ≤ 100000 ∧ 4 * (((0 : Nat)) : Int) < 400000 ∧ isSample (natC {}) 100010 0 (curGroup (natC {}) 0 0) = false ∧
    updatePointAt (natC {}) 50000 0 0 = none := by decide +kernel

/-! ### Hypotheses of StageTrips are met -/

theorem wit_StageTrips : isNative (natC { st := .enabled, gate := true }) 0 0 = true ∧ axDisabled (natC { st := .enabled }) 0 0 = false ∧
    faultRuns (natC { st := .enabled }) 0 0 = false := by decide +kernel

theorem wit_StageTrips_sum : let b := { natC { trips := { sumRun := 1 } } with cfg := [(0x10020000, 1), (0x1002013c, 5)] }
    tileLive b 0 = true ∧ isNative b 0 0 = true ∧ Fld.AX_SD_CFG_IN2_VBUS b.cfg 0 0 = false ∧ Fld.AX_SUM_LIMIT b.cfg 0 0 ≠ 0 ∧ max 1 (Fld.AX_SD_CFG_SUM_N b.cfg 0 0) ≤ 1 := by decide +kernel

/-! ### Hypotheses of EdgeAndTripClear are met -/

theorem wit_EdgeAndTripClear : tileLive (natC {}) 0 = true ∧ isNative (natC {}) 0 0 = true ∧ isNative runB 0 0 = false ∧ slotTy (cfgB [(0x10020000, 2)]) 0 0 = .nstep ∧
    slotTy (natC {}) 0 0 ≠ .nstep := by decide +kernel

/-! ### Hypotheses of QuadratureCount are met -/

/-- The running module with channel 0 of tile 0 assigned to slot 0 (a three-phase axis) and its nQRF monitored. -/
def qdB (x : Qd) : Block := { cfgB [(0x10020000, 1), (0x10030004, 0x100)] with qd := tabSet {} [] 0 x }

theorem wit_QuadratureCount : tileLive (qdB {}) 0 = true ∧ qdAdmits (qdB {}) (1010 + Fld.QD_CFG_FILT (qdB {}).cfg 0 0) 0 0 1000 true false = true ∧
    qdAdmits (qdB {}) (1010 + Fld.QD_CFG_FILT (qdB {}).cfg 0 0) 0 0 1000 true true = true ∧ qdAdmits (qdB {}) (1010 + Fld.QD_CFG_FILT (qdB {}).cfg 0 0) 0 0 1000 false false = true ∧
    qdAdmits (qdB {}) 1000 0 0 1000 true false = false := by decide +kernel

/-! ### Hypotheses of IndexAndReference are met -/

theorem wit_IndexAndReference : tileLive (qdB {}) 0 = true ∧ chanUsed (qdB {}) 0 0 = true ∧ Fld.QD_CFG_IDX_GATE (qdB {}).cfg 0 0 = false ∧ chanUsed runB 0 0 = false ∧
    zAdmits (qdB {}) (1010 + Fld.QD_CFG_FILT (qdB {}).cfg 0 0) 0 0 1000 true = true ∧ zAdmits (qdB { z := true }) (1010 + Fld.QD_CFG_FILT (qdB {}).cfg 0 0) 0 0 1000 false = true ∧
    zAdmits (qdB {}) 1000 0 0 1000 true = false ∧ (({ armed := some (5, 0) } : Qd).armed = some (5, 0)) ∧
    Fld.QD_CFG_IDX_GATE [(0x10030000, 0x2C00)] 0 0 = true := by decide +kernel

/-! ### Hypotheses of FeedbackFaults are met -/

theorem wit_FeedbackFaults : let b := { qdB {} with cfg := [(0x10020000, 1), (0x10030000, 0x8400), (0x10030004, 0x100)] }
    tileLive b 0 = true ∧ chanUsed b 0 0 = true ∧ Fld.QD_ILL_ILL_LEAK b.cfg 0 0 ≠ 0 ∧ 4000000 % (Fld.QD_ILL_ILL_LEAK b.cfg 0 0 * 1000) = 0 ∧
    4000010 % (Fld.QD_ILL_ILL_LEAK b.cfg 0 0 * 1000) ≠ 0 ∧ Fld.QD_CFG_RX_EN b.cfg 0 0 = true ∧ Fld.QD_ASSIGN_SLOT b.cfg 0 0 = 0 ∧ fallbackUsers b 0 0x30 = [] ∧
    Fld.QD_FB_CFG_FB_EN b.cfg 0 0 = false ∧ slotTy b 0 0 ≠ .unused ∧ axDisabled { b with nat := [(0, { st := .enabled })] } 0 0 = false ∧ faultRuns b 0 0 = false ∧
    0 + 1000 * Fld.QD_STILL_STILL_T b.cfg 0 0 ≤ 10000000000 := by decide +kernel

theorem wit_FeedbackFaults_fallback : Fld.QD_FB_CFG_FB_EN [(0x10030024, 0x8000)] 0 0 = true ∧ ¬(slotTy (cfgB [(0x10020000, 2)]) 0 0 = .n3ph) := by decide +kernel

/-! ### Hypotheses of Probes are met -/

theorem wit_Probes : let b := cfgB [(0x10030400, 0xFFFFFFFF)]
    let f := Fld.QD_PRB_CFG_FILT b.cfg 0 0
    tileLive b 0 = true ∧ Fld.QD_PRB_CFG_EN b.cfg 0 0 = true ∧ bit (Fld.QD_PRB_CFG_EDGE b.cfg 0 0) 0 = true ∧
    firstTick f 1000 (1010 + f + (10 - f % 10) % 10) = true ∧ true ≠ (b.prbAt 0 0).level ∧ heldFor f 1000 (b.prbAt 0 0).inp = true := by decide +kernel

/-! ### Hypotheses of ProfileCommands are met -/

/-- The running module with a profile generator (record `g`) on slot `j` of type `ty`, enabled. -/
def genB (j ty : Nat) (g : Gen) : Block :=
  { runB with cfg := [(0x10020000 + 4 * j, BitVec.ofNat 32 ty), (0x10040000 + 0x100 * j, 0x80000000)], gen := tabSet {} [] j g
              pulse := [(0, { st := .enabled })], nat := [(0, { st := .enabled })] }

theorem wit_ProfileCommands : let b := genB 0 1 { shadow := .sealed }
    let p := genB 4 3 {}
    tileLive b 0 = true ∧ plgOf b 0 0 = none ∧ moveOk b 0 0 = true ∧ moveOk runB 0 0 = false ∧ (b.genAt 0 0).st = .idle ∧ (b.genAt 0 0).shadow = .sealed ∧
    (b.genAt 0 0).uncertain = false ∧ slotTy b 0 0 ≠ .pulse ∧ slotTy p 0 4 = .pulse ∧ plgOf p 0 4 = none ∧ moveOk p 0 4 = true ∧
    plgOf (cfgB [(0x10050000, 0x80000000), (0x30000, 0x80000000)]) 0 0 = some 0 := by decide +kernel

/-! ### Hypotheses of ProfileBanks are met -/

theorem wit_ProfileBanks : tileLive (genB 0 1 {}) 0 = true ∧ plgOf (genB 0 1 {}) 0 0 = none ∧ hasGen (genB 0 1 {}) 0 0 = true ∧ hasGen runB 0 0 = false ∧
    profileErr (bankBytes runB.mem (profileBank runB 0 0 0)) 0 0 ≠ 0 ∧ spineServes (genB 0 1 { fetch := 16 }) (pktTable 0 0) = true ∧
    slotTy (genB 0 1 {}) 0 0 ≠ .pulse ∧ slotTy (genB 4 3 {}) 0 4 = .pulse ∧ 0 + Fld.PG_HOME_TO_HOME_TO (genB 0 1 {}).cfg 0 0 * 1000000 ≤ 10 ^ 12 ∧
    hasGen { cfgB [(0x10020000, 1), (0x10040000, 0x80000000), (0x10050000, 0x80000000), (0x30000, 0x80000000)] with gen := [(0, { shadow := .fetching })] } 0 0 = true := by decide +kernel

/-- A bank of one record of 2^16 ticks, without its checksum. -/
def profileBytes : List Byte := ([1#8, 0#8, 0#8, 0#8] ++ List.replicate 28 0#8) ++ ([0#8, 0#8, 1#8, 0#8, 2#8] ++ List.replicate 27 0#8)

theorem wit_ProfileBanks_valid : profileErr (profileBytes ++ leBytes 4 (crc32 profileBytes)) 1 0 = 0 := by decide +kernel

/-! ### Hypotheses of PulseTrainEnable are met -/

theorem wit_PulseTrainEnable : tileLive (genB 4 3 {}) 0 = true ∧ slotTy (genB 4 3 {}) 0 (4 + 0) = .pulse ∧ enableBarred (genB 4 3 {}) 0 4 = false ∧
    slotTy runB 0 4 ≠ .pulse ∧ safetyStops runB 0 4 = false ∧ safetyStops { runB with sf := { axes := [(4, { fault := some (1, 0) })] } } 0 (4 + 0) = true := by decide +kernel

/-! ### Hypotheses of StepPulses are met -/

theorem wit_StepPulses : let b := genB 4 3 {}
    let g := pulseCfg b 0 (4 + 0)
    tileLive b 0 = true ∧ slotTy b 0 (4 + 0) = .pulse ∧ slotTy runB 0 4 ≠ .pulse ∧ crosses 0 1 ((pulseQ g 0 : Int) * 2 ^ 40) = false ∧ crosses (2 ^ 48 - 1) 1 ((pulseQ g 0 : Int) * 2 ^ 40) = true ∧
    crosses (2 ^ 48 - 1) 1 (2 ^ 48) = true ∧ 0 + 10 * g.stepW ≤ 10000 ∧ 0 + 10 * g.dirSetup ≤ 10000 ∧ 0 + 10 * g.resSetup ≤ 10000 := by decide +kernel

/-! ### Hypotheses of PleachedGroups are met -/

/-- The running module with pleached group 0 (record `p`) with members and a feed period of 10 μs. -/
def plgB (p : Plg) : Block := { cfgB [(0x30000, 0x800003E8)] with plg := tabSet {} [] 0 p }

theorem wit_PleachedGroups : let b := plgB { st := .running }
    b.run.on = true ∧ Fld.GR_PLG_CFG_EN b.cfg 0 = true ∧ Fld.GR_PLG_CFG_EN runB.cfg 0 = false ∧ Fld.GR_PLG_CFG_FEED_P b.cfg 0 ≠ 0 ∧
    ((0 : Int) - 10 * Fld.GR_PLG_PHASE_PHASE b.cfg 0) % (10 * Fld.GR_PLG_CFG_FEED_P b.cfg 0) = 0 ∧ b.marks.contains 100 = false ∧
    (b.plgAt 0).cmds = [] ∧ (b.plgAt 0).ev = none ∧ (b.plgAt 0).lim = none ∧ plgLimited b 0 = false ∧ plgStartOk b 10000 0 = false ∧
    plgDue 10000 [(.hold, 0)] = some .hold ∧ plgDue 10000 [(.start, 0), (.resume, 0)] = some .resume ∧ plgDue 10000 [(.stop, 0), (.feed 5, 0)] = some .stop ∧ plgDue 9999 [(.stop, 0)] = none ∧
    ((10 : Int) - 10 * Fld.GR_PLG_PHASE_PHASE b.cfg 0) % (10 * Fld.GR_PLG_CFG_FEED_P b.cfg 0) ≠ 0 := by decide +kernel

/-- A group whose one member, an enabled virtual slot, is ready to start. -/
theorem wit_PleachedGroups_start : plgStartOk { genB 8 5 { shadow := .sealed } with
    cfg := [(0x30000, 0x800003E8), (0x10020020, 5), (0x10050400, 0x80000000)], plg := [(0, { sealed := true })] } 10000 0 = true := by decide +kernel

/-! ### Hypotheses of Clutches are met -/

theorem wit_Clutches : tileLive runB 0 = true ∧ Fld.GR_FOLLOW_MODE runB.cfg 0 0 ≠ 2 ∧ axDisabled runB 0 0 = true ∧
    axDisabled (genB 0 1 {}) 0 0 = false ∧ Fld.GR_FOLLOW_MODE (cfgB [(0x10050000, 0x200000)]).cfg 0 0 = 2 := by decide +kernel

/-! ### Hypotheses of Cams are met -/

/-- A cam of two points, 1/256 apart, without its checksum. -/
def camBytes : List Byte := (2#8 :: List.replicate 31 0#8) ++ (List.replicate 33 0#8 ++ (1#8 :: List.replicate 30 0#8))

theorem wit_Cams : tileLive runB 0 = true ∧ slotTy runB 0 0 = .unused ∧ slotTy (genB 0 1 {}) 0 0 ≠ .unused ∧ (camFind [{}, { x := 256 }] 0 0).isSome = true ∧ camFind [] 0 0 = none ∧ camValid (bankBytes runB.mem (camBank runB 0 0 0)) 0 0 = false ∧ Fld.GR_XM_EN runB.cfg 0 0 = false ∧
    Fld.GR_XM_EN (cfgB [(0x10050800, 0x8000)]).cfg 0 0 = true := by decide +kernel

theorem wit_Cams_valid : camValid (camBytes ++ leBytes 4 (crc32 camBytes)) 1 0 = true := by decide +kernel

/-! ### Hypotheses of Compares are met -/

theorem wit_Compares : let b := cfgB [(0x10050C00, 0x80000000)]
    tileLive runB 0 = true ∧ Fld.GR_CMP_CFG_EN runB.cfg 0 0 = false ∧ Fld.GR_CMP_CFG_EN b.cfg 0 0 = true ∧ ¬(0x30 ≤ Fld.GR_CMP_CFG_SRC b.cfg 0 0) ∧ slotTy b 0 0 ≠ .pulse ∧
    (cmpSee .pos 5 0 { armed := true, c := 5 }).2 = true ∧ (cmpSee .pos 4 0 { armed := true, c := 5 }).2 = false := by decide +kernel

/-! ### Hypotheses of NetworkedAxes are met -/

theorem wit_NetworkedAxes : let b : Block := { cfgB [(0x10020020, 4)] with nx := tabSet {} [] 0 { pReady := true }, blnx := tabSet {} [] 0 { lost := false } }
    tileLive b 0 = true ∧ spineServes b (pktFb b 0 0) = true ∧ spineServes b (pktNx 0 0) = true ∧ spineServes { b with fp := tabSet {} [] 0 ({ fly := [{ ch := 0 }] } : FPair) } (pktNx 0 10) = false ∧ stopRuns { runB with sf := { axes := [(8, { stop := some (0, false) })] } } 0 8 = true ∧ slotTy b 0 (8 + 0) = .networked ∧ enableBarred b 0 8 = false ∧ (b.nxAt 0 0).pReady = true ∧ (b.blnxAt 0).lost = false ∧
    safetyStops b 0 8 = false ∧ stopRuns b 0 8 = false ∧ (b.nxAt 0 0).st = .disabled ∧
    safetyStops { b with sf := { axes := [(8, { fault := some (1, 0) })] } } 0 (8 + 0) = true := by decide +kernel

/-! ### Hypotheses of SequencerData are met -/

/-- The running module with 64 words of code, the word `w` at program counter 0 of sequencer 0. -/
def seqB (w : Nat) : Block := { cfgB [(0x10060000, 0x10040)] with seq := [(0, { st := .running, mem := tabSet 0 [] 0 (BitVec.ofNat 32 w) })] }

/-- The first word of a sequencer with opcode `op` and other bits `r`. -/
def word (op r : Nat) : Nat := op * 2 ^ 26 + r

theorem wit_SequencerData : tileLive (seqB 0) 0 = true ∧
    (∀ op ∈ [0, 4, 5, 8, 9, 10, 11, 12, 13, 14, 15, 16, 17, 18, 20, 21, 25, 33, 34, 47, 48],
      sqDispatchDue ((seqB (word op 0)).seqAt 0) = false ∧ ((seqB (word op 0)).seqAt 0).st = .running ∧ ((seqB (word op 0)).seqAt 0).r.pc.toNat < Fld.SQ_CFG_CODE_LEN (seqB 0).cfg 0 ∧
      (sqRead ((seqB (word op 0)).seqAt 0) 0).toNat = word op 0 ∧ bits (word op 0) 26 6 = op ∧ bits (word op 0) 0 8 = 0 ∧ bits (word op 0) 16 5 = 0) ∧
    bits (word 8 1) 0 8 ≠ 0 ∧ signed 6 (bits (word 10 0x3F00) 8 6) = -1 := by decide +kernel

/-! ### Hypotheses of SequencerMemory are met -/

/-- Sequencer 0 with word `w`, A0 = 0x8000 and A1 = 0x9000. -/
def seqA (w : Nat) : Block :=
  { seqB w with seq := [(0, { ({ st := .running, mem := tabSet 0 [] 0 (BitVec.ofNat 32 w) } : Seq) with r := { a := ((Vector.replicate 16 0).set 0 0x8000).set 1 0x9000 } })] }

theorem wit_SequencerMemory : let x := (seqA (word 1 0x40000)).seqAt 0
    tileLive (seqA 0) 0 = true ∧
    (∀ op ∈ [1, 2, 3, 6, 7, 19, 24, 26, 32, 49], let w := word op 0x40000
      let y := (seqA w).seqAt 0
      sqDispatchDue y = false ∧ y.st = .running ∧ y.r.pc.toNat < Fld.SQ_CFG_CODE_LEN (seqA w).cfg 0 ∧
      (sqRead y 0).toNat = w ∧ bits w 26 6 = op ∧ bits w 0 9 = 0 ∧ bits w 12 2 ≠ 3 ∧ bits w 10 2 ≠ 3 ∧ bits w 4 2 ≠ 3) ∧
    (sqPost x.r 1 0 0).toOption.isSome = true ∧ sqEa x.r 1 0 = 0x9000 ∧ sqEa x.r 0 1 = 0x8001 ∧ Fld.SQ_CFG_CODE_LEN (seqA 0).cfg 0 ≤ 0x8000 ∧
    sqEa x.r 2 0 < Fld.SQ_CFG_CODE_LEN (seqA 0).cfg 0 ∧ (x.ch.get 0).busy = false ∧ 6 ≤ bits (word 6 0x3800) 11 3 := by decide +kernel

/-! ### Hypotheses of SequencerFlow are met -/

theorem wit_SequencerFlow : (∀ op ∈ [0x28, 0x29, 0x2A, 0x2B, 0x2C, 0x2D, 0x2E, 0x3F, 0x16], let w := word op 0
      let y := (seqB w).seqAt 0
      tileLive (seqB w) 0 = true ∧ y.haltReq = false ∧ sqDispatchDue y = false ∧ y.st = .running ∧ y.r.pc.toNat < Fld.SQ_CFG_CODE_LEN (seqB w).cfg 0 ∧
      (sqRead y 0).toNat = w ∧ bits w 26 6 = op ∧ bits w 16 6 = 0 ∧ bits w 16 5 = 0 ∧ y.rep = 0 ∧ y.repRan = false ∧ y.r.stack = [] ∧ y.depth = 0) ∧
    (let y : Seq := { st := .running, depth := 1, r := { pc := 0x41, stack := [1] } }
     Fld.SQ_CFG_CODE_LEN (seqB 0).cfg 0 ≤ y.r.pc.toNat ∧ sqDispatchDue y = false ∧ y.r.stack = 1 :: [] ∧ y.depth ≠ 0) ∧
    bits (word 0x28 0x2000000) 22 4 = 8 ∧ (({} : Seq).st ≠ .running) := by decide +kernel

/-! ### Hypotheses of SequencerControl are met -/

theorem wit_SequencerControl : let d : Seq := { st := .running, ev := [(3, 10)], r := { ie := true, even := 8 } }
    let b := seqB 0
    tileLive b 0 = true ∧ sqDispatchDue d = true ∧ d.ev.find? (fun p => d.r.even.getLsbD p.1) = some (3, 10) ∧ sqDispatchDue {} = false ∧
    (let x : Seq := { ch := (Vector.replicate 4 {}).set 1 { busy := true, dir := 1, len := 2, part := 1 }, mb := { posted := [(0, 5)] } }
     (x.ch.get 1).busy = true ∧ (x.ch.get 1).dir = 1 ∧ (x.ch.get 0).busy = false ∧ tabFind x.mb.posted 0 = some 5 ∧ x.mb.stale.getLsbD 0 = false) ∧
    Fld.SQ_MBTO_TO (cfgB [(0x10060180, 1)]).cfg 0 0 ≠ 0 ∧ 5 + 1000 * Fld.SQ_MBTO_TO (cfgB [(0x10060180, 1)]).cfg 0 0 ≤ 100000000 ∧
    (∀ d ∈ [0, 1, 2], let q : Xfer := { busy := true, dir := d, len := 2, part := 1, tile := 1 }
      let c : Block := { b with run := { b.run with parts := [{ id := 1, base := 1, size := 1 }] }, seq := [(0, { ch := (Vector.replicate 4 {}).set 1 q })], badMem := [16385] }
      spineServes c (pktXfer 0 q) = true ∧ (c.run.parts.find? (fun p => decide (p.id = q.part))).isSome = true ∧ badIn c (65536 + 4 * 0) 4 = false ∧ badIn c (65536 + 4 * 1) 4 = true ∧
      spineServes { c with spFly := [{ dst := 0, at_ := 0, src := 0 }, { dst := 32, at_ := 0, src := 0 }] } (pktXfer 0 { q with dir := 2 }) = false) ∧
    ¬(Fld.SQ_CFG_CODE_LEN b.cfg 0 = 0 ∧ Fld.SQ_CFG_ENTRY b.cfg 0 = 0) ∧ (Fld.SQ_CFG_CODE_LEN runB.cfg 0 = 0 ∧ Fld.SQ_CFG_ENTRY runB.cfg 0 = 0) := by decide +kernel

/-! ### Hypotheses of AcquisitionRows are met -/

/-- The running module with acquisition unit 0 (record `u`), its group's period 1 μs, and a partition of two data blocks. -/
def aqB (u : Aq) : Block :=
  { cfgB [(0x10001010, 100), (0x10070000, 0x80000003)] with aq := tabSet {} [] 0 u
                                                            run := { runB.run with parts := [{ id := 1, kind := 4, base := 0, size := 1, owner := 16 }] } }

theorem wit_AcquisitionRows : let u : Aq := { st := .armed }
    let b := aqB u
    let on : Tab Word := [(4, 0x40000001), (0xC0, 0x04400000)]
    tileLive b 0 = true ∧ isSample b 1000 0 (aqGrp u) = true ∧ isSample b 10 0 (aqGrp u) = false ∧ aqTrigEn u = false ∧ u.smp % max 1 (aqDiv u) = 0 ∧ u.trig = none ∧
    (1 % max 1 (aqDiv { u with lat := [(4, 2)] }) ≠ 0) ∧ (partOf b 4 0).isSome = true ∧ aqExpiry u 0 ≤ 10 ^ 6 ∧ 0 < aqExpiry u 0 ∧ aqPost u = 1 ∧ aqPost { u with lat := [(12, 2)] } = 2 ∧
    spineServes b (pktAq 0 { u with q := [.desc 1] }) = true ∧ spineServes { b with spFly := [{ dst := 0, at_ := 0, src := 0 }] } (pktAq 0 { u with q := [.desc 1] }) = true ∧
    (AqWrite.desc 0 :: (List.replicate 16 (AqWrite.block {}))).filter (fun w => match w with
      | AqWrite.block _ => true
      | AqWrite.desc _ => false) = List.replicate 16 (AqWrite.block {}) ∧
    aqTrigEn { u with lat := on } = true ∧ bits (tabGet 0 on 0xC0).toNat 26 6 = 1 ∧ bits (tabGet 0 on 0xC0).toNat 10 6 = 0 ∧ bit (tabGet 0 on 0xC0).toNat 22 = true := by decide +kernel

/-! ### Hypotheses of AcquisitionArms are met -/

theorem wit_AcquisitionArms : let b := aqB {}
    b.run.on = true ∧ Fld.AQ_RING_EN b.cfg 0 = true ∧ Fld.AQ_RING_SLOTS b.cfg 0 = 0 ∧ tileLive b 0 = true ∧ bit 1 0 = true ∧ bit 1 1 = false ∧ tileLive { b with hl := { b.hl with st := { b.hl.st with tile := some 7 } } } 7 = false ∧
    aqBlocked b 0 = false ∧ aqBlocked { b with cm := { b.cm with ph := .accepted, rings := [0] } } 0 = true ∧
    ((List.range 1).find? fun k => !bit 0 k) = some 0 ∧ ((List.range 1).find? fun k => !bit 1 k) = none ∧
    aqRepeat {} = false ∧ aqRepeat { lat := [(4, 0x80000000)] } = true := by decide +kernel

/-! ### Hypotheses of SetTriggers are met -/

theorem wit_SetTriggers : runB.run.on = true ∧ runB.aqHub.held = none ∧ runB.aqHub.last = none ∧ tileLive runB 0 = true ∧
    ([((5, 0) : Nat × Nat)].find? fun f => decide (f.2 = (0 : Fin 8).val)) = some (5, 0) ∧
    ([((0, 5, 8) : Nat × Nat × Nat)].find? fun f => decide (f.1 = (0 : Fin 8).val)) = some (0, 5, 8) ∧
    aqStAt { hist := [(0, .armed)] } 5 = .armed ∧ aqStAt { hist := [(0, .rearming)] } 5 = .rearming ∧ aqStAt { hist := [(0, .triggered)] } 5 = .triggered ∧
    aqStAt { hist := [(0, .stopping)] } 5 = .stopping ∧ aqStAt {} 5 = .idle := by decide +kernel

/-! ### Hypotheses of BerathPorts are met -/

/-- The running module with port 0 of the star in use on both channels (record `x`), its network in state `n`. -/
def blB (n : NetSt) (x : BlPort) : Block := { cfgB [(0x50100, 0xE0000000)] with bl := tabSet {} [] 0 x, net := { st := n } }

theorem wit_BerathPorts : (blB .run {}).run.on = true ∧ Fld.BL_PORT_CFG_EN (blB .run {}).cfg 0 = true ∧ Fld.BL_PORT_CFG_EN runB.cfg 0 = false ∧
    bit (Fld.BL_PORT_CFG_CHAN (blB .run {}).cfg 0) 1 = true ∧ ((blB .run { st := .listen }).blAt 0).st = .listen ∧ (blB .run {}).net.st = .run ∧
    Fld.BL_NX_BIND_EN (cfgB [(0x51000, 0x80000000)]).cfg 0 = true ∧ Fld.BL_NX_BIND_PORT (cfgB [(0x51000, 0x80000000)]).cfg 0 = 0 := by decide +kernel

/-! ### Hypotheses of BerathTime are met -/

/-- One basic cycle of 25 μs, four to a matrix, with a SETPOINT, an arbitrating and a FEEDBACK window of port 0. -/
def blTab : BlTable :=
  { valid := true, cycle := 2500, matrix := 4, guard := 10
    wins := [{ port := 0, ofs := 180, len := 200, ftype := 2, maxlen := 8, mask := 15 }, { port := 0, kind := 1, ofs := 500, len := 300, maxlen := 8, mask := 15 },
             { port := 0, up := true, ofs := 1000, len := 200, ftype := 3, maxlen := 6, mask := 15 }] }

/-- A running network with `blTab`. -/
def netB (x : BlPort) : Block := { blB .run x with net := { st := .run, tables := [(0, blTab)] } }

theorem wit_BerathTime : let b := netB { st := .run }
    b.run.on = true ∧ isCycle b 25000 = true ∧ isMatrix b 25000 = false ∧ isMatrix b 100000 = true ∧ isCycle b 10 = false ∧ b.marks.contains 320 = false ∧
    (blDownAt b 1600 0 (· == 0)).isSome = true ∧ (blDownAt b 10 0 (· == 0)) = none ∧ (blDownAt b 4800 0 (· == 1)).isSome = true ∧ (blDownAt b 10 0 (· == 1)) = none ∧
    (blClosing b 12100 0).length = 1 ∧ blClosing b 10 0 = [] ∧ Fld.BL_PORT_CFG_SEAL b.cfg 0 = false ∧ hasUpWin b 1 = false ∧ blFrameNs false 1 ≤ 10 * 300 ∧
    Fld.BL_PORT_CFG_COLDSTART (cfgB [(0x50100, 0xF0000000)]).cfg 0 = true ∧ Fld.BL_NET_CFG_START (cfgB [(0x50000, 0x60000000)]).cfg = 1 ∧
    Fld.BL_NET_CFG_QS_FALLBACK (cfgB [(0x50000, 0x60000000)]).cfg = true ∧ Fld.BL_NET_CFG_QS_WAIT (cfgB [(0x50000, 0x60000000)]).cfg * 1000000 ≤ 10 := by decide +kernel

/-- A STARTUP frame of port 0 in mode 0. -/
def startup : List Byte := blFrame none [] (fhMake 6 false false 0 0x80 5 0 0 0 0) (List.replicate 20 0)

theorem wit_BerathTime_startup : blShape startup = true ∧ fhType startup = 6 ∧ fhLen startup = 5 ∧ fhSrc startup = 0 ∧ fhSealed startup = false ∧
    bits (leAt (fhPayload startup) 7 1) 0 3 = Fld.BL_MODE_MODE runB.cfg ∧ blChan (cfgB [(0x50100, 0xF0000000)]).cfg 0 false = true := by decide +kernel

/-! ### Hypotheses of BerathFrames are met -/

/-- A FEEDBACK frame of port 0, window 2, in the first cycle; and the copy of it stamped at `stamp`. -/
def feedback : List Byte := blFrame none [] (fhMake 3 false false 0 0x80 6 0 0 0 2) (List.replicate 24 0)
/-- The copy of `feedback` on channel A. -/
def fbCopy (stamp : Nat) : RxCopy := { stamp := stamp, bytes := feedback }

/-- The FEEDBACK window of `blTab`. -/
def fbWin : BlWin := { port := 0, up := true, ofs := 1000, len := 200, ftype := 3, maxlen := 6, mask := 15 }

theorem wit_BerathFrames : let b := netB { st := .run }
    let x : BlPort := { st := .run, upA := true }
    blJudge b.cfg b.net (blRxTick (fbCopy 10000)) 0 x (fbCopy 10000) = .ok (2, fbWin, 0) ∧ blTakes b.cfg 0 x fbWin 3 = true ∧ (blTake 2 0 fbWin (fbCopy 10000) x).2 = true ∧
    blTakes b.cfg 0 { x with st := .blocked } fbWin 3 = false ∧ (blTake 2 0 fbWin (fbCopy 10000) { x with occs := [{ win := 2, got := [(0, true, [])] }] }).2 = false ∧
    blJudge b.cfg b.net (blRxTick (fbCopy 100)) 0 x (fbCopy 100) = .error .blocked ∧ blJudge b.cfg b.net (blRxTick (fbCopy 12000)) 0 x (fbCopy 12000) = .error .clipped ∧
    blJudge b.cfg b.net (blRxTick (fbCopy 10000)) 0 x { fbCopy 10000 with clean := false } = .error .invalid ∧ blJudge b.cfg b.net (blRxTick (fbCopy 10000)) 0 {} (fbCopy 10000) = .error .ignored ∧
    fhType feedback = 3 ∧ fhLen feedback = 6 ∧ leAt (fhPayload feedback) 22 1 < 8 ∧ nxSlotOf (cfgB [(0x51000, 0x80000000)]).cfg 0 0 = some 0 := by decide +kernel

/-! ### Hypotheses of PortKeys are met -/

/-- A KEY frame of port 0 in window 1 of the first cycle, with an ACCEPT of key `id`; the copy of it. -/
def accept (id : Nat) : RxCopy :=
  { stamp := 5000, bytes := blFrame none [] (fhMake 9 false false 0 0x80 54 0 0 0 1) (leBytes 1 2 ++ leBytes 1 id ++ List.replicate 214 0) }

/-- `netB` with a sealed port and its arbitrating window towards the star. -/
def sealB (x : BlPort) : Block :=
  { cfgB [(0x50100, 0xE8000000), (0x80200, 5)] with
    bl := tabSet {} [] 0 x
    net := { st := .run, tables := [(0, { blTab with wins := [{ port := 0, up := true, ofs := 180, len := 10, ftype := 3, mask := 15 }, { port := 0, up := true, kind := 1, ofs := 400, len := 1500, maxlen := 64, mask := 15 }] })] } }

theorem wit_PortKeys : Fld.BL_PORT_CFG_SEAL (sealB {}).cfg 0 = true ∧ Fld.SEC_PORT_CFG_REKEY_M (sealB {}).cfg 0 ≠ 0 ∧ Fld.SEC_PORT_CFG_REKEY_M (sealB {}).cfg 0 ≤ 5 ∧
    0 + 8 ≤ (blCycleAt (sealB {}).net (blNow (sealB {}).net) 1000000).2.2 ∧ fhType (accept 1).bytes = 9 ∧ leAt (fhPayload (accept 1).bytes) 0 1 = 2 ∧
    leAt (fhPayload (accept 1).bytes) 1 1 = 1 ∧ (fhPayload (accept 1).bytes).length = 216 := by decide +kernel

/-- The arbitrating window of `sealB` towards the star. -/
def keyWin : BlWin := { port := 0, up := true, kind := 1, ofs := 400, len := 1500, maxlen := 64, mask := 15 }

theorem wit_PortKeys_taken : let x : BlPort := { st := .run, upA := true, key := { kex := 1, nextId := 1 } }
    let b := sealB x
    blJudge b.cfg b.net (blRxTick (accept 1)) 0 x (accept 1) = .ok (1, keyWin, 0) ∧ blTakes b.cfg 0 x keyWin 9 = true ∧ (blTake 1 0 keyWin (accept 1) x).2 = true ∧ keyWin.kind = 1 := by decide +kernel

/-! ### Hypotheses of NetworkTime are met -/

/-- An Ethernet PTP message of a type. -/
def ptpFrame (ty : Nat) : List Byte := List.replicate 12 0 ++ [0x88, 0xF7] ++ leBytes 1 ty ++ [2] ++ List.replicate 42 0

theorem wit_NetworkTime : ptpAt (ptpFrame 0) = some (0, 14) ∧ ptpType (ptpFrame 0) 14 = 0 ∧ ptpType (ptpFrame 8) 14 = 8 ∧ ptpAt [] = none ∧
    Fld.NT_PTP_CFG_EN (cfgB [(0x60C00, 0x80000000)]).cfg 0 = true ∧ Fld.NT_PTP_CFG_EN runB.cfg 0 = false := by decide +kernel

/-! ### Hypotheses of TimedEvents are met -/

theorem wit_TimedEvents : runB.run.on = true ∧ (teCfg runB 0).mode ≠ 3 ∧ (teCfg (cfgB [(0x60100, 0x30000000)]) 0).mode = 3 ∧
    ((({ armed := true } : Te).arming = none) ∧ ({ armed := true } : Te).mode = 0) ∧ ((([(3, 7)] : List (Nat × Nat)).find? fun f => decide (f.1 = (3 : Fin 32).val)) = some (3, 7)) := by decide +kernel

/-! ### Hypotheses of FieldExchange are met -/

/-- The running module with field pair 0 (record `x`). -/
def fieldB (x : FPair) : Block := { runB with fp := tabSet {} [] 0 x }

theorem wit_FieldExchange : let x : FPair := { fout := some { sAlive := 1, alive := 1 }, fin := some {} }
    (fieldB x).run.on = true ∧ (fieldB x).hl.st.pair ≠ some 0 ∧ (500 % 20000 = 500) ∧ (fieldB x).marks.contains 300 = false ∧ (500 ≤ 2500 % 20000 ∧ 2500 % 20000 ≤ 2500) ∧
    fWdDue (Fld.FIO_WD_WD_T (fieldB x).cfg 0) 2500 x = false ∧ fSwdDue 2500 x = false ∧ x.failed = false ∧ (1 ≠ x.sRef) ∧ (1 ≠ x.refAlive) ∧ (fieldB x).marks.contains 310 = false ∧
    fFunc 0x60000000 = .out ∧ fFunc 0x80000000 = .brake ∧ (fieldB x).fpAt 0 = x ∧ fSwdDue 202500 { x with sAt := some 0 } = true ∧
    fWdDue (Fld.FIO_WD_WD_T (fieldB x).cfg 0) 1000002500 { x with refAt := some 0 } = true ∧ (2 ≤ ({ missRow := 2 } : FPair).missRow) := by decide +kernel

/-! ### Hypotheses of FieldWatchdogs are met -/

theorem wit_FieldWatchdogs : let x : FPair := { refAt := some 0, sAt := some 0 }
    (fieldB x).run.on = true ∧ (fieldB x).fpAt 0 = x ∧ x.refAt = some 0 ∧ 0 + 1000000 * Fld.FIO_WD_WD_T (fieldB x).cfg 0 ≤ 10 ^ 9 ∧ 0 + 1020000 * Fld.FIO_WD_WD_T (fieldB x).cfg 0 ≤ 10 ^ 9 ∧
    0 + 100000 ≤ 10 ^ 9 ∧ runB.run.tileSet = 8 ∧ x.failed = false := by decide +kernel

/-! ### Hypotheses of FieldChannels are met -/

theorem wit_FieldChannels : let f : FCmd := { ch := 2, level := true }
    runB.run.on = true ∧ ((runB.fpAt 0).ch.get 0) = {} ∧ Fld.FIO_CH_CFG_SRC (cfgB [(0x20000100, 0x60000000)]).cfg 0 0 = 0 ∧
    ([f] : List FCmd).find? (fun f => decide (f.ch = (2 : Fin 16).val)) = some f ∧ spineServes (fieldB { fly := [f] }) (pktField f.tile f.at_) = true ∧
    fFunc 0x60000000 = .out ∧ fFunc 0 = .unused ∧ bit (0x20000000 : Word).toNat 29 = true := by decide +kernel

/-! ### Hypotheses of SafetyEvaluations are met -/

/-- The running module with zone 0 in use on field channel 0 and the zone's record `x`. -/
def zoneB (cfg : Nat) (x : Zone) : Block := { cfgB [(0x70100, 0x80000000 + cfg), (0x70104, 0x40)] with sf := { zones := tabSet {} [] 0 x } }

theorem wit_SafetyEvaluations : (zoneB 0 {}).run.on = true ∧ 0 < (zoneB 0 {}).run.tileSet ∧ slotTy (cfgB [(0x10020000, 1)]) 0 0 ≠ .unused ∧ (zoneB 0 {}).sf.refDue = none ∧ (zoneB 0 {}).sf.fault = false ∧ 125000 % 125000 = 0 ∧ (zoneB 0 {}).marks.contains 400 = false ∧
    Fld.SF_ZONE_CFG_EN (zoneB 0 {}).cfg 0 = true ∧ Fld.SF_ZONE_CFG_RST_SRC (zoneB 0 {}).cfg 0 = 0 ∧ (zoneSrcs (zoneB 0 {}) 0).getD 0 0 = 0x40 ∧
    zoneSrc (zoneB 0 {}) 125000 0 0x40 = false ∧
    (zoneEval 125000 0 { zoneB 0 {} with fp := tabSet {} [] 0 { level := 1, levelPrev := 1, valid := 1 } }).zoneAt 0 = { healthy := true, bits := 1 } ∧
    ((zoneEval 125000 0 { zoneB 0 { resetReg := true } with fp := tabSet {} [] 0 { level := 1, valid := 1 } }).zoneAt 0).due = some (250000, false) := by decide +kernel

/-! ### Hypotheses of SafetyDecisions are met -/

theorem wit_SafetyDecisions : let b : Block := { cfgB [(0x10020000, 1)] with nat := tabSet {} [] 0 { st := .sto }, sf := { axes := tabSet {} [] 0 { grantAt := some 125000 } } }
    b.run.on = true ∧ 0 < b.run.tileSet ∧ slotTy b 0 0 = .n3ph ∧ isNative b 0 0 = true ∧ ((decisionEffect 125000 b).sfAxAt 0).permit = true ∧ ((decisionEffect 125000 b).natAt 0 0).st = .disabled ∧
    ((engineFault 125000 2 { b with nat := tabSet {} [] 0 { st := .enabled, gate := true } }).natAt 0 0).st = .sto ∧
    ((decisionEffect 250000 (zoneB 0 { due := some (250000, false) })).zoneAt 0).inForce = false ∧ axDisabled { b with nat := tabSet {} [] 0 { st := .enabled } } 0 0 = false := by
  decide +kernel

/-- The running module with an enabled three-phase axis of zone 0 in slot 0 of tile 0 and a demand of that zone that is due at 250 000 ns. -/
def demandB (cat brake : Nat) : Block := { cfgB [(0x10020000, 1), (0x70100, 0x80000000 + cat), (0x71000, brake + 1), (0x71004, 0x10000)] with nat := tabSet {} [] 0 { st := .enabled, gate := true }, sf := { axes := tabSet {} [] 0 { permit := true, brkCmd := true }, zones := tabSet {} [] 0 { due := some (250000, true), inForce := false } } }

theorem wit_SafetyDecisions_zones : ((decisionEffect 250000 (demandB 0 0)).natAt 0 0).st = .sto ∧ ((decisionEffect 250000 (demandB 0x40000000 0)).sfAxAt 0).stop = some (250000, false) ∧
    ((decisionEffect 250000 (demandB 0 0x80000000)).sfAxAt 0).rmAt = some 1250000 ∧ (decisionEffect 249990 (demandB 0 0)).natAt 0 0 = (demandB 0 0).natAt 0 0 ∧
    bit (Fld.SF_AX_CFG_ZONES (demandB 0 0).cfg 0) 0 = true ∧ axDisabled (demandB 0 0) 0 0 = false ∧ brakeOf (demandB 0 0) 0 = none ∧ ((demandB 0 0).zoneAt 0).inForce = false := by
  decide +kernel

/-! ### Hypotheses of SafetyRequests are met -/

/-- The running module with a three-phase axis and its brake in slot 0 of tile 0: native record `n`, safety record `x`. -/
def brkB (n : NatAx) (x : SfAx) : Block := { cfgB [(0x10020000, 1), (0x71000, 0x80000000)] with nat := tabSet {} [] 0 n, sf := { axes := tabSet {} [] 0 x } }

theorem wit_SafetyRequests : let b := brkB { st := .enabled } {}
    b.run.on = true ∧ brakeOf b 0 = some (0, 0) ∧ slotTy b 0 0 = .n3ph ∧ (b.genAt 0 0).st = .idle ∧ zoneHolds b 0 = false ∧ isNative b 0 0 = true ∧
    tripped (b.natAt 0 0) = false ∧ qdFaulted b 0 0 = false ∧ srcBars b 0 0 = false ∧ (b.fpAt 0).diag.getD 0 0 / 2 = 0 ∧
    ((btStartOp 5 0 b).sfAxAt 0).bt.st = .requested ∧ ((stoTestOp 5 0 (brkB { st := .disabled } { permit := true })).sfAxAt 0).stoTest = some 5 ∧
    Fld.SF_AX_STO_STO_INT (cfgB [(0x71018, 1)]).cfg 0 = 1 := by decide +kernel

/-! ### Hypotheses of SafetyTimers are met -/

theorem wit_SafetyTimers : let b := brkB { st := .enabled, gate := true, hold := some (1, 2) } { brkCmd := true, permit := true }
    let bt := fun (st : BtSt) (now : Nat) => btEval now 0 { b with sf := { axes := tabSet {} [] 0 { brkCmd := true, permit := true, bt := { st := st, qh := 2, p0 := 100000000000 } } } }
    b.run.on = true ∧ isNative b 0 0 = true ∧ axDisabled b 0 0 = false ∧ brakeOf b 0 ≠ none ∧ tileLive b 0 = true ∧
    ((bt .requested 125000).sfAxAt 0).bt.st = .engage ∧ ((bt .engage 125000).sfAxAt 0).bt.st = .pos ∧ ((bt .pos 125000).sfAxAt 0).bt.result = 2 ∧ ((bt .neg 12500000000000).sfAxAt 0).bt.result = 1 ∧
    ((stopEval 12500000000000 0 { b with sf := { axes := tabSet {} [] 0 { stop := some (0, true), brkCmd := true } } }).sfAxAt 0).cause = 4 ∧
    ((graceEval 125000 0 { b with sf := { axes := tabSet {} [] 0 { graceReg := some (0, 1) } } }).sfAxAt 0).grace = some (125000, 1) ∧
    ((permitDue 125000 0 { b with nat := tabSet {} [] 0 { st := .faultHold, gate := true }, sf := { axes := tabSet {} [] 0 { rmAt := some 5, permit := true } } }).natAt 0 0).st = .sto := by
  decide +kernel

/-- `demandB` without a demand, with STOP_T of 1 ms and the safety record `x`. -/
def stopB (x : SfAx) : Block := { cfgB [(0x10020000, 1), (0x71004, 1)] with nat := tabSet {} [] 0 { st := .enabled, gate := true }, sf := { axes := tabSet {} [] 0 x } }

theorem wit_SafetyTimers_stops : ((stopEval 125000 0 (stopB { stop := some (0, true) })).sfAxAt 0).cause = 4 ∧ ((stopEval 1000000 0 (stopB { stop := some (0, false) })).sfAxAt 0).stopTimeout = true ∧
    stopEval 125000 0 (stopB { stop := some (125000, true) }) = stopB { stop := some (125000, true) } ∧
    ((stopEval 1000000 0 { stopB { stop := some (0, true) } with nat := tabSet {} [] 0 { st := .disabled } }).sfAxAt 0).flt = false ∧
    ((graceEval 125000 0 (stopB { grace := some (0, 1), graceExp := some 124990 })).sfAxAt 0).stop = some (125000, true) ∧
    graceEval 125000 0 (stopB { grace := some (0, 1), graceExp := some 125000 }) = stopB { grace := some (0, 1), graceExp := some 125000 } ∧
    ((graceEval 125000 0 { stopB { grace := some (0, 1), graceExp := some 125000 } with qd := tabSet {} [] 0 { spdSrc := 1 } }).sfAxAt 0).cause = 3 := by
  decide +kernel

/-! ### Hypotheses of SafetyConnections are met -/

/-- The running module with connection 0 in use and its record `x`. -/
def connB (x : Conn) : Block := { cfgB [(0x73000, 0x80000000)] with sf := { conns := tabSet {} [] 0 x } }

theorem wit_SafetyConnections : (connB {}).run.on = true ∧ Fld.SF_CONN_CFG_EN (connB {}).cfg 0 = true ∧ pduOk (Fld.SF_CONN_UID_UID (connB {}).cfg 0) 0 ((connForm 7 0 (connB {})).connAt 0).pdu = true ∧
    ((connRx 0 (connB { st := .starting, rx := [(5, ((connForm 7 0 (connB {})).connAt 0).pdu)] })).connAt 0).base = true ∧
    ((connExpire 9 0 (connB { st := .run, accAt := some 0 })).connAt 0).st = .run ∧ Fld.SF_CONN_WT_W_T (connB {}).cfg 0 = 2000 := by decide +kernel

/-- Connection 0 by way of session 0, open with the SAFETY role. -/
def connSB : Block := { cfgB [(0x73000, 0xC0000000)] with sess := tabSet {} [] 0 { st := .open_, roles := 31, port := 1 } }

theorem wit_SafetyConnections_send : Fld.SF_CONN_CFG_EN connSB.cfg 0 = true ∧ Fld.SF_CONN_CFG_PATH connSB.cfg 0 = true ∧ Fld.SF_CONN_CFG_SESSION connSB.cfg 0 = 0 ∧ hasRoles connSB 0 roleSafety = true ∧
    Fld.SF_CONN_SEND_SEND_P connSB.cfg 0 = 4 ∧ (connSB.connAt 0).sendAt + 4 * 1000000 ≤ 4000000 ∧ (connSB.sessAt 0).txCtr + 1 < 2 ^ 32 ∧ (connSB.sessAt 0).port ≠ 2 ∧
    (reached 2000000 ((connB { st := .run, accAt := some 0 }).connAt 0 |>.accAt.map (· + 2000 * 1000))) = true := by decide +kernel

/-! ### Hypotheses of Staging are met -/

/-- The running module with session 0 open with the given roles and commit engine `m`. -/
def comB (roles : Nat) (m : Commit) : Block := { runB with sess := tabSet {} [] 0 { st := .open_, roles := roles }, cm := m, nv := { life := .owned } }

theorem wit_Staging : (comB 31 {}).run.on = true ∧ hasRoles (comB 31 {}) 0 4 = true ∧ hasRoles (comB 1 {}) 0 4 = false ∧ roleConfigure = 4 ∧
    regAt 0x10020000 = some (.AX_SLOT_TYPE, [0, 0]) ∧ sgMask .AX_SLOT_TYPE ≠ 0 ∧ hasRoles (comB 31 {}) 0 (stageRole 0x10020000) = true ∧
    (stageOp 0 0x10020000 5 (comB 31 {})).1 = 0 ∧ (stageOp 0 0x10020000 5 { comB 31 {} with run := {} }).1 = 3 ∧ (stageOp 0 0x10020000 5 (comB 31 { owner := some 1 })).1 = 0x87 := by
  decide +kernel

theorem wit_Staging_waits : NoneWaits (comB 31 {}) := by unfold NoneWaits; decide +kernel

/-! ### Hypotheses of CommitPath are met -/

theorem wit_CommitPath : let b := fun (p : CmPh) => comB 31 { ph := p, owner := some 0, apply := 100000, dies := 256, prepared := 256, staged := [(0x10020000, 2)] }
    (b .idle).run.on = true ∧ hasRoles (b .idle) 0 4 = true ∧ (b .idle).nv.life = .owned ∧ (commitDecision 90000 (b .accepted)).cm.ph = .go ∧
    (commitDecision 90000 { b .accepted with cm := { (b .accepted).cm with prepared := 0 } }).cm.code = 0x1D ∧
    tabGet 0 (commitApplyOp 100000 (b .go)).cfg 0x10020000 = 2 ∧ (commitApplyOp 100000 (b .accepted)).hl.commitFault = true ∧
    (diePrepared 0 8 { b .accepted with cm := { (b .accepted).cm with prepared := 0 } }).cm.prepared = 256 ∧
    (checksDoneOp 0 { b .checking with nv := {} }).cm.code = 5 := by decide +kernel

/-! ### Hypotheses of Images are met -/

theorem wit_Images : (at' 0 (comB 31 {})).clk.up = true ∧ hasRoles (comB 31 {}) 0 4 = true ∧ (comB 31 { image := some [] }).cm.image = some [] ∧ State.reset.clk.up = false ∧
    (verifyImg {} []).1 = 1 ∧ (verifyDone (comB 31 { imgBusy := 2 })).cm.imgCode = 1 := by decide +kernel

/-! ### Hypotheses of LifeCycle are met -/

theorem wit_LifeCycle : let s := at' 600000000000 { comB 31 { owner := some 0, ph := .checking } with tr := { drawnAt := some 0, journal := some { to_ := .returned, restart := true } }, nv := { life := .fieldService }, bk := { tampCfg := 5 } }
    s.clk.up = true ∧ s.b.nv.life = .fieldService ∧ s.b.tr.serviceEnd ≤ s.clk.lattice ∧ 0 + 600000000000 ≤ s.clk.lattice ∧ bit s.b.bk.tampCfg (4 * 0) = true ∧ bit s.b.bk.tampCfg (4 * 0 + 2) = true ∧
    bit 1 (4 * 0 + 2) = false ∧ (s.b.sessAt 0).st = .open_ ∧ (s.b.sessAt 0).lastAt + Fld.SEC_IDLE_IDLE_T s.b.cfg * 1000000000 ≤ s.clk.lattice ∧ (State.reset.b.nv.life = .blank) ∧ (s.b.sessAt 1).st = .closed ∧
    bit s.b.bk.tampCfg (4 * 1) = false ∧ testRuns s.b = false ∧ State.reset.b.tr.journal = none ∧ State.reset.b.tr.drawnAt = none := by decide +kernel

/-! ### Hypotheses of BankActions are met -/

theorem wit_BankActions : let f := fun (l : Life) (o : Option SecOp) => ({ nv := { life := l, keys := { identity := true } }, tr := { op := o, enrolStrap := true, vbatOk := true } } : Block)
    (submitOp 0 (f .owned none)).tr.op.isSome = true ∧ (enrolOp 0 (f .manufactured none)).tr.op.isSome = true ∧ (attestOp 0 (f .owned none)).tr.op.isSome = true ∧
    ((tokenDone 0 (f .owned (some { kind := 1 }))).bankAt 0).code = 1 ∧ ((enrolDone 0 (f .manufactured (some { kind := 2 }))).bankAt 0).code = 1 ∧ parseToken [] = none ∧
    ((enrolOp 0 { f .manufactured none with tr := {} }).bankAt 0).code = 7 ∧ ((enrolOp 0 { f .manufactured none with tr := { enrolStrap := true } }).bankAt 0).code = 8 ∧ ((enrolOp 0 (f .owned none)).bankAt 0).code = 6 ∧
    ((submitOp 0 { f .owned none with pw := { pfWarn := true } }).bankAt 0).code = 13 ∧ ((submitOp 0 (f .owned (some {}))).bankAt 0).code = 14 ∧ ((attestOp 0 (f .owned (some {}))).bankAt 0).code = 14 ∧
    ((attestOp 0 { f .owned none with nv := { life := .owned } }).bankAt 0).code = 6 ∧ (attestOp 0 (f .retired none)) = f .retired none := by decide +kernel

/-! ### Hypotheses of SessionMessages are met -/

/-- A message of a kind for a session, with a payload and `t` more bytes. -/
def msgOf (kind k t : Nat) (pl : List Byte) : List Byte := msgHead kind k pl.length 1 ++ pl ++ leBytes t 0

/-- The running module, OWNED, with session 0 in state `st` and a message waiting at port 0 from source 5. -/
def portB (st : SessSt) (m : List Byte) : Block := { comB 31 {} with sess := tabSet {} [] 0 { st := st, src := 5, roles := 31 }, hp := tabSet {} [] 0 { rx := [(5, m)] } }

theorem wit_SessionMessages : roleSafety = 8 ∧ (∀ kind ∈ [1, 3, 4, 6, 7, 8], msgKind (msgOf kind 0 16 []) = kind ∧ msgSess (msgOf kind 0 16 []) = 0 ∧ msgSess (msgOf kind 9 0 []) = 9) ∧
    msgLen (msgOf 1 255 0 (leBytes 116 0)) = 116 ∧ freeSess (portB .handshake []) = some 1 ∧ ((portB .open_ (msgOf 4 0 16 [])).sessAt 0).st = .open_ ∧
    ((portB .handshake []).hpAt 0).tx.length < 8 ∧ ((portB .handshake []).hpAt 0).rx.length = 1 ∧ parseReq [] = none ∧ (parseReq (leBytes 4 1 ++ leBytes 2 1 ++ leBytes 2 0)).isSome = true ∧
    finishCerts (leBytes 8 0) 1 4 = some ([[]], 8) := by decide +kernel

/-! ### Hypotheses of HealthMonitors are met -/

theorem wit_HealthMonitors : let s := at' 3600000000000 { runB with pw := { mains := true } }
    s.clk.up = true ∧ tileOn s.b 0 = true ∧ s.b.paceChanging = false ∧ s.clk.lattice % 3600000000000 = 0 ∧ s.b.marks.contains 500 = false ∧ s.b.pw.pfWarn = false ∧ bit s.b.hl.supplies 0 = false ∧
    bit 1 0 = true ∧ ((marginOp 0 0 10 s.b).marginAt 0).mean = 10 ∧ (eccCorrect 0 0 { hl := { ecc0 := (64, 0) } }).nv.replace = 2 ∧ ((tempOp 0 0 1840 s.b).tempAt 0).crit = true ∧
    (holdupOp 0 169 s.b).nv.replace = 32 ∧ (replaceClear 0 4 { nv := { replace := 4 } }).nv.replace = 0 ∧ (supplyOp 0 8 0 s.b).nv.replace = 64 := by decide +kernel

/-! ### Hypotheses of SelfTests are met -/

theorem wit_SelfTests : let b := fun (l : Life) (x : SelfTest) => ({ nv := { life := l }, hl := { st := x } } : Block)
    stRefuse (b .returned { tap := 6 }) 1 0 = 0 ∧ stRefuse (b .owned {}) 1 0 = 1 ∧ (stStartOp 5 1 0 (b .returned { tap := 6 })).hl.st.reqAt = some 5 ∧
    (stAccept 5 (b .returned { op := 1, reqAt := some 5 })).hl.st.st = .running ∧ (stTested 5 false 9 (b .returned { st := .running })).hl.st.result = 2 ∧ tapSelects .owned 6 = 0 ∧
    stOnTile 1 0 = true ∧ tileOn runB 0 = true ∧ testRuns (b .returned { st := .running }) = true := by decide +kernel

/-! ### Hypotheses of UnpoweredTiles are met -/

theorem wit_UnpoweredTiles : let b := { comB 31 {} with run := { on := true, tileSet := 2 } }
    (at' 0 b).clk.up = true ∧ tileOn b 7 = false ∧ (b.sessAt 0).st = .open_ ∧ 0x10000000 + 0x1000000 * 7 ≤ 0x17020000 ∧ 0x17020000 < 0x10000000 + 0x1000000 * 8 ∧
    reqStatuses 0 0 b [.read 0x17020000 1] = [3] ∧ (regWrite 0 0x17020000 0 (at' 0 b)).1 = 3 := by decide +kernel

/-! ### Hypotheses of HostCommands are met -/

theorem wit_HostCommands : let b := { comB 31 {} with run := { on := true, tileSet := 8, parts := [{ id := 1, kind := 1, base := 0, size := 1 }] } }
    (at' 0 b).clk.up = true ∧ (b.sessAt 0).st = .open_ ∧ hasRoles b 0 4 = true ∧ (readStatus b 0 = 0) ∧ regAt 0 = some (.ID_REV, []) ∧ writeStatus 0 0 0x10400000 5 b = 0 ∧ localAt 0x10400000 = some (0, 0) ∧
    stageStatus b 0 0x10020000 = 0 ∧ sgMask .AX_SLOT_TYPE ≠ 0 ∧ writeStatus 0 0 0x10020000 5 b = 0 ∧ regAt (regAddr .CM_APPLY_LO []) = some (.CM_APPLY_LO, []) ∧ writeStatus 0 0 (regAddr .CM_APPLY_LO []) 5 b = 0 ∧
    (partIdx b 1).isSome = true ∧ partIdx b 2 = none ∧ badIn b 0 4 = false ∧ badIn { b with badMem := [0] } 0 4 = true ∧ hitsLocked b 0 4 = false ∧
    setpointStatus { b with cfg := [(0x10001100, 0x14)] } 0 0 0 = 0 := by decide +kernel

/-! ### Hypotheses of HostPorts are met -/

theorem wit_HostPorts : let b : Block := { nv := { life := .manufactured } }
    (at' 0 b).clk.up = true ∧ State.reset.clk.up = false ∧ b.nv.life ≠ .blank ∧ b.run.on = false ∧ (b.hpAt 2).rx.length < 2 ∧ msgOk (leBytes 4 0x0101C960 ++ leBytes 12 255) = true ∧ msgOk [] = false ∧ (ptpAt (leBytes 60 0)).isSome = false ∧
    slice (leBytes 60 0) 0 6 ≠ List.replicate 6 0xFF ∧ (slice (leBytes 60 0) 0 6).head? = some 0 ∧ (macBytes b 0).head? = some 2 := by decide +kernel

end Sys2Proof.Tests
end

section
/-! Settling the scope family: the lattice invariant, the module after reset. -/

namespace Sys2Proof.Proofs

open Sys2Proof.Machine

/-- The state inside a conditional keeps the clock when both branches do. -/
theorem sameClk_ite {p : Prop} [Decidable p] {s u v : State} (hu : SameClk s u) (hv : SameClk s v) : SameClk s (if p then u else v) := by
  split
  · exact hu
  · exact hv

/-- A command outside `movesLattice` leaves lattice, reset of the hub and queue (R49). -/
theorem exec_keeps_clk (c : Instr) (s : State) (h : movesLattice c = false) : SameClk s (afterRow (exec c s) s) := by
  cases c with
  | latticeTick _ => simp [movesLattice] at h
  | boot => simp [movesLattice] at h
  | railReset => simp [movesLattice] at h
  | lifecycleTransition => simp [movesLattice] at h
  | registerWrite k a v => exact sameClk_ite ((regWrite_same _ _ _ _).trans (mapB_same _ _)) (.refl s)
  | request p => exact sameClk_ite (requestOp_same _ _) (.refl s)
  | plainRequest p => exact sameClk_ite (plainOp_same _ _) (.refl s)
  | cmdRead k n a => exact oneCmd_same _ _ _
  | cmdWrite k a ws => exact oneCmd_same _ _ _
  | cmdStage k a ws => exact oneCmd_same _ _ _
  | cmdCommit k asap tick => exact oneCmd_same _ _ _
  | cmdStore k => exact oneCmd_same _ _ _
  | cmdXferRead k tg n q ofs => exact oneCmd_same _ _ _
  | cmdXferWrite k tg last q ofs bytes => exact oneCmd_same _ _ _
  | cmdSetpoint k tile input ap v => exact oneCmd_same _ _ _
  | commitChecksDone => exact sameClk_ite ((mapB_same _ _).trans (reqServeAll_same _)) (.refl s)
  | storeDone => exact sameClk_ite ((mapB_same _ _).trans (reqServeAll_same _)) (.refl s)
  | imageVerifyDone => exact sameClk_ite ((mapB_same _ _).trans (reqServeAll_same _)) (.refl s)
  | _ => exact ⟨rfl, rfl⟩

/-- The invariant speaks of the clock alone. -/
theorem inv_of_clk {s u : State} (hs : Inv s) (h : u.clk = s.clk) : Inv u := by
  unfold Inv; rw [h]; exact hs

/-- Where the lattice stands at 0 the invariant holds. -/
theorem inv_of_zero {u : State} (h : u.clk.lattice = 0) : Inv u := ⟨by rw [h], fun _ => h⟩

/-- A tick adds 10 to the lattice of a module out of reset, and nothing to one in reset. -/
theorem latticeStep_clk (pins : List Pin) (s : State) :
    (latticeStep pins s).clk = { s.clk with lattice := if s.clk.up then s.clk.lattice + 10 else s.clk.lattice } := by
  unfold latticeStep
  split
  · exact (reqServeAll_same _).1
  · rfl

theorem inv_latticeStep (pins : List Pin) {s : State} (hs : Inv s) : Inv (latticeStep pins s) := by
  obtain ⟨h10, h0⟩ := hs
  unfold Inv
  rw [latticeStep_clk]
  cases hup : s.clk.up with
  | true => simp; omega
  | false => simpa using ⟨h10, h0 hup⟩

theorem inv_lifeDone {s : State} (hs : Inv s) : Inv (lifeDone s) := by
  unfold lifeDone
  split
  · exact hs
  · dsimp only
    split
    · exact inv_of_zero rfl
    · exact hs

/-- Every command keeps the invariant of the lattice. -/
theorem inv_exec (c : Instr) {s : State} (hs : Inv s) : Inv (afterRow (exec c s) s) := by
  by_cases h : movesLattice c = false
  · exact inv_of_clk hs (exec_keeps_clk c s h).1
  · cases c with
    | latticeTick pins => exact inv_latticeStep pins hs
    | boot =>
      show Inv (if s.clk.up then s else _)
      split
      · exact hs
      · exact inv_of_zero rfl
    | railReset => exact inv_of_zero rfl
    | lifecycleTransition =>
      show Inv (if s.clk.up then lifeDone s else s)
      split
      · exact inv_lifeDone hs
      · exact hs
    | _ => exact absurd rfl h

/-- Settles O4: the commands that do not move the lattice keep it, and the four that do leave it on a tick, at 0 in reset. -/
theorem invKept : Obligations.InvKept := by
  intro s u hs hu
  unfold step at hu
  split at hu
  · cases hu; exact hs
  · rename_i c q hq
    have h := inv_exec c (s := s.withPending q) hs
    rw [hu] at h
    exact h

/-- Settles O5: every unit of the empty block reads as its record's defaults, and no tile is powered. -/
theorem resetState : Obligations.ResetState := by
  refine ⟨inv_of_zero rfl, rfl, rfl, rfl, rfl, rfl, rfl, rfl, ?_⟩
  refine ⟨fun _ => rfl, fun _ => rfl, rfl, rfl, fun _ _ => rfl, fun _ => rfl, rfl, rfl, rfl, ?_⟩
  exact ⟨fun _ _ => rfl, fun _ => rfl, fun _ _ => rfl⟩

end Sys2Proof.Proofs
end

section
/-! What a command on a tile that runs answers, and the enabling of native axes (R14, R15, R199 to R202). -/

namespace Sys2Proof.Proofs

open Sys2Proof.Machine

/-- A command of a tile that runs turns the module into what its operation makes of it. -/
theorem turns_onTile {c : Instr} {t : Nat} {f : Nat → Block → Block} {s : State} {y : Block} (hc : exec c s = onTile t f s)
    (hl : tileLive s.b t = true) (hf : f s.clk.lattice s.b = y) : Turns c s y := by
  unfold Turns; rw [hc, onTile_live t f s hl, hf]

theorem gives_onTile {c : Instr} {t : Nat} {f : Nat → Block → Block} {s : State} {P : State → Prop} (hc : exec c s = onTile t f s)
    (hl : tileLive s.b t = true) (hf : P { s with b := f s.clk.lattice s.b }) : Gives c s P :=
  ⟨_, by rw [hc, onTile_live t f s hl], hf⟩

/-! ### Updates of a unit, written with the value they leave -/

theorem natUpd_value (b : Block) (t j : Nat) (f : NatAx → NatAx) : b.natUpd t j f = b.natUpd t j fun _ => f (b.natAt t j) := natUpd_congr _ _ _ _ _ rfl

theorem pulseUpd_value (b : Block) (t i : Nat) (f : Pulse → Pulse) : b.pulseUpd t i f = b.pulseUpd t i fun _ => f (b.pulseAt t i) := pulseUpd_congr _ _ _ _ _ rfl

theorem nxUpd_value (b : Block) (t i : Nat) (f : Nx → Nx) : b.nxUpd t i f = b.nxUpd t i fun _ => f (b.nxAt t i) := nxUpd_congr _ _ _ _ _ rfl

/-! ### Enabling and aligning a native axis -/

section
variable {now t j : Nat} {al : Bool} {b : Block}

theorem natEnable_disabled (h : (b.natAt t j).st = .disabled) :
    natEnable now t j al b =
      if (b.natAt t j).wait.isSome then b
      else if natRefused b t j then b.natUpd t j fun a => { a with enRefused := true }
      else b.natUpd t j fun a => { a with wait := some (now, al) } := by simp only [natEnable, h]

theorem natEnable_started (h : (b.natAt t j).st = .precharge ∨ (b.natAt t j).st = .enabled) :
    natEnable now t j al b = if al then b.natUpd t j fun a => { a with enRefused := true } else b := by
  obtain h | h := h <;> simp only [natEnable, h]

theorem natEnable_disabling (h : (b.natAt t j).st = .disabling) :
    natEnable now t j al b =
      if safetyStops b t j then b.natUpd t j fun a => { a with enRefused := true }
      else if (b.natAt t j).enPending then b
      else b.natUpd t j fun a => { a with enPending := true, pendAlign := al } := by simp only [natEnable, h]

theorem natEnable_stopped (h : (b.natAt t j).st = .aligning ∨ (b.natAt t j).st = .faultHold ∨ (b.natAt t j).st = .sto) :
    natEnable now t j al b = b.natUpd t j fun a => { a with enRefused := true } := by
  obtain h | h | h := h <;> simp only [natEnable, h]

end

/-- Settles O11: ENABLE and ALIGN are one operation, and each state of the axis has one equation for it. -/
theorem nativeEnable : Obligations.NativeEnable := by
  intro t j s x al hl hx
  subst hx
  have acts : ∀ {y}, natEnable s.clk.lattice t j al s.b = y → Turns (if al then .axAlign t j else .axEnable t j) s y := fun h =>
    turns_onTile (f := fun now => natEnable now t j al) (by cases al <;> rfl) hl h
  refine ⟨fun hst hw hr => acts ?_, fun hst hw hr => acts ?_, fun hst hw => acts ?_, fun hst => acts ?_,
    fun hst hs => acts ?_, fun hst hs hp => acts ?_, fun hst hs hp => acts ?_, fun hst => acts ?_⟩
  · rw [natEnable_disabled hst, if_neg (by simp [hw]), if_neg (by simp [hr])]; exact natUpd_value _ _ _ _
  · rw [natEnable_disabled hst, if_neg (by simp [hw]), if_pos hr]; exact natUpd_value _ _ _ _
  · simp [natEnable_disabled hst, Option.isSome_iff_ne_none.2 hw]
  · rw [natEnable_started hst, natUpd_value]
  · rw [natEnable_disabling hst, if_pos hs]; exact natUpd_value _ _ _ _
  · rw [natEnable_disabling hst, if_neg (by simp [hs]), if_neg (by simp [hp])]; exact natUpd_value _ _ _ _
  · simp [natEnable_disabling hst, hs, hp]
  · rw [natEnable_stopped hst]; exact natUpd_value _ _ _ _

end Sys2Proof.Proofs
end

section
/-! Disabling native axes (R14, R201): what the end of a brake test and the way down of an axis leave. -/

namespace Sys2Proof.Proofs

open Sys2Proof.Machine

/-- An update of one native axis leaves every other alone; the axes are told apart by their safety numbers. -/
theorem natAt_natUpd_other (b : Block) {t j t' j' : Nat} (f : NatAx → NatAx) (h : axNo t' j' ≠ axNo t j) :
    (b.natUpd t j f).natAt t' j' = b.natAt t' j' := tabGet_upd_ne _ _ _ _ _ (by unfold axNo at h; omega)

/-! ### The end of a brake test -/

section
variable (t j r : Nat) (b : Block)

theorem btEnd_of_idle (h : (b.sfAxAt (axNo t j)).bt.st = .idle) : btEnd t j r b = b := by simp only [btEnd, h]

/-- A brake test that ends changes nothing of its axis but the test itself and the value that the q reference holds. -/
theorem btEnd_axis : (btEnd t j r b).sfAxAt (axNo t j) = { b.sfAxAt (axNo t j) with bt := ((btEnd t j r b).sfAxAt (axNo t j)).bt } ∧
    ((btEnd t j r b).sfAxAt (axNo t j)).bt.st = .idle ∧ (btEnd t j r b).natAt t j = { b.natAt t j with hold := ((btEnd t j r b).natAt t j).hold } := by
  unfold btEnd; dsimp only; split
  · next h => exact ⟨rfl, h, rfl⟩
  · rw [sfAxAt_sfAxUpd]; exact ⟨rfl, rfl, rfl⟩
  · rw [natAt_natUpd]
    generalize hc : b.sfAxUpd (axNo t j) _ = c
    have hs : ∀ f, (c.natUpd t j f).sfAxAt (axNo t j) = c.sfAxAt (axNo t j) := fun _ => rfl
    rw [hs, ← hc, sfAxAt_sfAxUpd]
    exact ⟨rfl, rfl, rfl⟩

theorem btEnd_only : OnlyFaults b (btEnd t j r b) := by
  unfold btEnd; dsimp only; split <;> exact ⟨rfl, fun _ _ => rfl⟩

theorem btEnd_kept : (btEnd t j r b).gen = b.gen ∧ (btEnd t j r b).follow = b.follow := by
  unfold btEnd; dsimp only; split <;> exact ⟨rfl, rfl⟩

theorem btEnd_sf_other {a : Nat} (h : a ≠ axNo t j) : (btEnd t j r b).sfAxAt a = b.sfAxAt a := by
  unfold btEnd; dsimp only; split
  · rfl
  · exact sfAxAt_sfAxUpd_ne _ _ _ _ h
  · exact sfAxAt_sfAxUpd_ne _ _ _ _ h

theorem btEnd_nat_other {t' j' : Nat} (h : axNo t' j' ≠ axNo t j) : (btEnd t j r b).natAt t' j' = b.natAt t' j' := by
  unfold btEnd; dsimp only; split
  · rfl
  · rfl
  · exact natAt_natUpd_other _ _ h

end

/-! ### The way down -/

/-- A native axis as its disable begins (R201). -/
def goingDown (now : Nat) (brake : Bool) (x : NatAx) : NatAx :=
  { x with fromAlign := x.fromAlign || decide (x.st = .aligning), st := .disabling, disAt := now, brakeWait := brake, brakeEnd := none }

/-- What the safety engine holds of an axis whose disable begins. -/
def releaseEnds (now : Nat) (brake : Bool) (x : SfAx) : SfAx := { x with relReq := false, brkReq := if brake then some now else x.brkReq }

section
variable (now t j : Nat) (brake : Bool) (b : Block)

theorem natDown_eq : natDown now t j brake b =
    motionDown now t j ((btEnd t j 4 (b.natUpd t j (goingDown now brake))).sfAxUpd (axNo t j) (releaseEnds now brake)) := rfl

theorem natDown_only : OnlyFaults b (natDown now t j brake b) :=
  have h1 : OnlyFaults b (b.natUpd t j (goingDown now brake)) := ⟨rfl, fun _ _ => rfl⟩
  have h2 : ∀ c : Block, OnlyFaults c (c.sfAxUpd (axNo t j) (releaseEnds now brake)) := fun _ => ⟨rfl, fun _ _ => rfl⟩
  OnlyFaults.trans (OnlyFaults.trans (OnlyFaults.trans h1 (btEnd_only _ _ _ _)) (h2 _)) (motionDown_only _ _ _ _)

theorem natDown_nat (t' j' : Nat) : (natDown now t j brake b).natAt t' j' = (btEnd t j 4 (b.natUpd t j (goingDown now brake))).natAt t' j' := by
  rw [natDown_eq]; unfold Block.natAt; rw [(motionDown_kept _ _ _ _).1]; rfl

theorem natDown_sf (a : Nat) : (natDown now t j brake b).sfAxAt a =
    ((btEnd t j 4 (b.natUpd t j (goingDown now brake))).sfAxUpd (axNo t j) (releaseEnds now brake)).sfAxAt a := by
  rw [natDown_eq]; unfold Block.sfAxAt; rw [(motionDown_kept _ _ _ _).2.1]

theorem natDown_nat_self : (natDown now t j brake b).natAt t j =
    { goingDown now brake (b.natAt t j) with hold := ((natDown now t j brake b).natAt t j).hold } := by
  rw [natDown_nat]
  obtain ⟨-, -, h⟩ := btEnd_axis t j 4 (b.natUpd t j (goingDown now brake))
  rw [natAt_natUpd] at h
  exact h

theorem natDown_nat_idle (h : (b.sfAxAt (axNo t j)).bt.st = .idle) : (natDown now t j brake b).natAt t j = goingDown now brake (b.natAt t j) := by
  rw [natDown_nat, btEnd_of_idle t j 4 (b.natUpd t j (goingDown now brake)) h, natAt_natUpd]

theorem natDown_sf_self : ((natDown now t j brake b).sfAxAt (axNo t j)).bt.st = .idle ∧
    (natDown now t j brake b).sfAxAt (axNo t j) =
      releaseEnds now brake { b.sfAxAt (axNo t j) with bt := ((natDown now t j brake b).sfAxAt (axNo t j)).bt } := by
  obtain ⟨hs, hi, -⟩ := btEnd_axis t j 4 (b.natUpd t j (goingDown now brake))
  rw [natDown_sf, sfAxAt_sfAxUpd]
  exact ⟨hi, congrArg (releaseEnds now brake) hs⟩

theorem natDown_gen (t' j' : Nat) : (natDown now t j brake b).genAt t' j' =
    (b.genUpd t j fun g => { g with req := { g.req with down := firstOf g.req.down now }, hm := homeEnd .fault g.hm }).genAt t' j' := by
  obtain ⟨-, -, -, -, hg, -⟩ := motionDown_kept now t j ((btEnd t j 4 (b.natUpd t j (goingDown now brake))).sfAxUpd (axNo t j) (releaseEnds now brake))
  have hb : ((btEnd t j 4 (b.natUpd t j (goingDown now brake))).sfAxUpd (axNo t j) (releaseEnds now brake)).gen = b.gen := (btEnd_kept _ _ _ _).1
  rw [natDown_eq]; unfold Block.genAt; rw [hg]; unfold Block.genUpd; rw [hb]

theorem natDown_follow (t' j' : Nat) : (natDown now t j brake b).followAt t' j' =
    (b.followUpd t j fun f => { f with cl := { f.cl with down := firstOf f.cl.down now, pending := false } }).followAt t' j' := by
  obtain ⟨-, -, -, -, -, hf⟩ := motionDown_kept now t j ((btEnd t j 4 (b.natUpd t j (goingDown now brake))).sfAxUpd (axNo t j) (releaseEnds now brake))
  have hb : ((btEnd t j 4 (b.natUpd t j (goingDown now brake))).sfAxUpd (axNo t j) (releaseEnds now brake)).follow = b.follow := (btEnd_kept _ _ _ _).2
  rw [natDown_eq]; unfold Block.followAt; rw [hf]; unfold Block.followUpd; rw [hb]

theorem natDown_nat_other {t' j' : Nat} (h : axNo t' j' ≠ axNo t j) : (natDown now t j brake b).natAt t' j' = b.natAt t' j' := by
  rw [natDown_nat, btEnd_nat_other _ _ _ _ h, natAt_natUpd_other _ _ h]

theorem natDown_sf_other {a : Nat} (h : a ≠ axNo t j) : (natDown now t j brake b).sfAxAt a = b.sfAxAt a := by
  rw [natDown_sf, sfAxAt_sfAxUpd_ne _ _ _ _ h, btEnd_sf_other _ _ _ _ h]; rfl

end

/-! ### DISABLE -/

theorem natDisable_disabled {now t j : Nat} {b : Block} (h : (b.natAt t j).st = .disabled) :
    natDisable now t j b = b.natUpd t j fun a => { a with wait := none } := by simp only [natDisable, h]

theorem natDisable_disabling {now t j : Nat} {b : Block} (h : (b.natAt t j).st = .disabling) :
    natDisable now t j b = b.natUpd t j fun a => { a with enPending := false } := by simp only [natDisable, h]

theorem natDisable_started {now t j : Nat} {b : Block} (h : (b.natAt t j).st = .precharge ∨ (b.natAt t j).st = .enabled ∨ (b.natAt t j).st = .aligning) :
    natDisable now t j b = if stopRuns b t j then b else natDown now t j (Fld.AX_PWM_CFG_DIS_MODE b.cfg t j && Fld.SF_AX_CFG_BRK_EN b.cfg (axNo t j)) b := by
  obtain h | h | h := h <;> simp only [natDisable, h] <;> rfl

/-- Settles O12: in the running states a disable is `natDown`, whose parts act on different tables; the rest is a case each of `natDisable` and `natBrakeEnd`. -/
theorem nativeDisable : Obligations.NativeDisable := by
  intro t j s x hl hx
  subst hx
  have acts : ∀ {y}, natDisable s.clk.lattice t j s.b = y → Turns (.axDisable t j) s y := turns_onTile (exec_axDisable t j s) hl
  have ends : ∀ {y}, natBrakeEnd s.clk.lattice t j s.b = y → Turns (.brakeHoldEnd t j) s y := turns_onTile (exec_brakeHoldEnd t j s) hl
  refine ⟨fun hst => acts ?_, fun hst => acts ?_, fun hst => acts ?_, fun hst hr => acts ?_, fun hst hr => ?_, fun e he hle hst => ends ?_, fun h => ends ?_⟩
  · exact (natDisable_disabled hst).trans (natUpd_value _ _ _ _)
  · exact (natDisable_disabling hst).trans (natUpd_value _ _ _ _)
  · obtain hst | hst := hst <;> simp only [natDisable, hst]
  · rw [natDisable_started hst, if_pos (by simpa [stopRuns, Option.isSome_iff_ne_none] using hr)]
  · have hs : stopRuns s.b t j = false := by simp [stopRuns, hr]
    refine gives_onTile (exec_axDisable t j s) hl ?_
    simp only [natDisable_started hst, hs, Bool.false_eq_true, if_false]
    generalize (Fld.AX_PWM_CFG_DIS_MODE s.b.cfg t j && Fld.SF_AX_CFG_BRK_EN s.b.cfg (axNo t j)) = brake
    obtain ⟨hbt, hsf⟩ := natDown_sf_self s.clk.lattice t j brake s.b
    refine ⟨natDown_only _ _ _ _ _, natDown_nat_self _ _ _ _ _, natDown_nat_idle _ _ _ _ _, ?_, hbt, fun hb => ?_, fun hb => ?_, ?_, ?_, ?_, fun t' j' hne => ?_, fun a' hne => ?_⟩
    · rw [hsf]; rfl
    · rw [hsf, hb]; rfl
    · rw [hsf, hb]; rfl
    · rw [natDown_gen, genAt_genUpd]; exact firstOf_eq _ _
    · rw [natDown_follow, followAt_followUpd]; exact firstOf_eq _ _
    · rw [natDown_follow, followAt_followUpd]
    · exact natDown_nat_other _ _ _ _ _ (by unfold axNo; omega)
    · exact natDown_sf_other _ _ _ _ _ hne
  · unfold natBrakeEnd; rw [natUpd_value]; simp only [he, hle, hst, decide_true, Bool.and_true, if_true]
  · refine (natUpd_value _ _ _ _).trans (natUpd_congr _ _ _ _ _ ?_)
    cases he : (s.b.natAt t j).brakeEnd with
    | none => simp
    | some e => dsimp only; rw [if_neg (by rcases h with h | h <;> simp [h, he])]

end Sys2Proof.Proofs
end

section
/-! Enabling, disabling and the immediate stop of pulse-train axes (R269 to R271, R281, R293, R304). -/

namespace Sys2Proof.Proofs

open Sys2Proof.Machine

/-! ### Frames of the shared operations -/

/-- A member event touches pleached groups alone (R304). -/
theorem memberEvent_frame (t j : Nat) (b : Block) : memberEvent t j b = { b with plg := (memberEvent t j b).plg } := by
  unfold memberEvent; split
  · split <;> rfl
  · rfl

theorem memberEvent_plg {t j m : Nat} {b : Block} (hm : plgOf b t j = some m) (hst : (b.plgAt m).st ≠ .idle) :
    memberEvent t j b = b.plgUpd m fun p => { p with evSent := true } := by
  simp only [memberEvent, hm, hst, if_false]

theorem memberEvent_none {t j : Nat} {b : Block} (hm : plgOf b t j = none) : memberEvent t j b = b := by simp only [memberEvent, hm]

/-- The end of a homing touches its generator and the index reference armed in a channel (R289, R293). -/
theorem genEnd_frame (t j : Nat) (f : Gen → Gen) (b : Block) :
    genEnd t j f b = { b with gen := (b.genUpd t j f).gen, qd := (genEnd t j f b).qd } := by
  unfold genEnd; dsimp only; split
  · split <;> rfl
  · rfl

/-- The fault of a homing, as a function of the generator (R293). -/
def homingFails (g : Gen) : Gen := { g with fl := { g.fl with faultStop := g.fl.faultStop || decide (g.st ≠ .idle) }, hm := homeEnd .fault g.hm }

theorem homeEnd_st_ne_index (r : HomeRes) (h : Homing) : (homeEnd r h).st ≠ .index := by
  unfold homeEnd; split
  · next hoff => simp [hoff]
  · simp

theorem homeEnd_ref (r : HomeRes) (h : Homing) : (homeEnd r h).ref = h.ref := by unfold homeEnd; split <;> rfl

/-- A homing that leaves INDEX without its reference disarms its channel. -/
theorem homingFault_qd_index {t j k : Nat} {b : Block} (hst : (b.genAt t j).hm.st = .index) (href : (b.genAt t j).hm.ref = none) (hk : posChan b t j = some k) :
    (homingFault t j b).qd = (b.qdUpd t k fun q => { q with armed := none }).qd := by
  have hk' : posChan (b.genUpd t j homingFails) t j = some k := hk
  show (genEnd t j homingFails b).qd = _
  unfold genEnd; dsimp only
  rw [if_pos (by simp [homingFails, homeEnd_st_ne_index, homeEnd_ref, hst, href]), hk]
  rfl

/-- Any other homing leaves the channels alone. -/
theorem homingFault_qd_other {t j : Nat} {b : Block} (h : (b.genAt t j).hm.st ≠ .index ∨ (b.genAt t j).hm.ref ≠ none ∨ posChan b t j = none) :
    (homingFault t j b).qd = b.qd := by
  show (genEnd t j homingFails b).qd = _
  unfold genEnd; dsimp only
  rcases h with h | h | h
  · rw [if_neg (by simp [h])]; rfl
  · rw [if_neg (by simp [homingFails, homeEnd_ref, Option.isNone_iff_eq_none, h])]; rfl
  · split
    · rw [h]; rfl
    · rfl

/-! ### ENABLE -/

section
variable {now t i : Nat} {b : Block}

theorem pulseEnable_disabled (h : (b.pulseAt t i).st = .disabled) :
    pulseEnable now t (4 + i) b =
      if (b.pulseAt t i).wait.isSome then b
      else if decide (slotTy b t (4 + i) ≠ .pulse) || enableBarred b t (4 + i) then b.pulseUpd t i fun p => { p with enRefused := true }
      else b.pulseUpd t i fun p => { p with wait := some now } := by
  simp only [pulseEnable, Nat.add_sub_cancel_left, h]

theorem pulseEnable_enabled (h : (b.pulseAt t i).st = .enabled) : pulseEnable now t (4 + i) b = b := by
  simp only [pulseEnable, Nat.add_sub_cancel_left, h]

theorem pulseEnable_disabling (h : (b.pulseAt t i).st = .disabling) :
    pulseEnable now t (4 + i) b =
      if safetyStops b t (4 + i) then b.pulseUpd t i fun p => { p with enRefused := true } else b.pulseUpd t i fun p => { p with enPending := true } := by
  simp only [pulseEnable, Nat.add_sub_cancel_left, h]

/-! ### DISABLE -/

theorem pulseDisable_disabled (h : (b.pulseAt t i).st = .disabled) :
    pulseDisable now t (4 + i) b = b.pulseUpd t i fun p => { p with wait := none } := by
  simp only [pulseDisable, Nat.add_sub_cancel_left, h]

theorem pulseDisable_disabling (h : (b.pulseAt t i).st = .disabling) :
    pulseDisable now t (4 + i) b = b.pulseUpd t i fun p => { p with enPending := false } := by
  simp only [pulseDisable, Nat.add_sub_cancel_left, h]

variable (now t i b) in
/-- The module of an enabled pulse-train axis at its disable, before the group of the axis hears of it. -/
def pulseDown : Block :=
  { b with gen := (b.genUpd t (4 + i) homingFails).gen, qd := (homingFault t (4 + i) b).qd
           follow := (b.followUpd t (4 + i) fun f => { f with cl := { f.cl with down := firstOf f.cl.down now, pending := false } }).follow
           pulse := (b.pulseUpd t i fun p => { p with st := .disabling, disAt := now, imm := firstOf p.imm now }).pulse }

theorem pulseDisable_enabled (h : (b.pulseAt t i).st = .enabled) : pulseDisable now t (4 + i) b = memberEvent t (4 + i) (pulseDown now t i b) := by
  have hp : ∀ c : Block, (c.pulseUpd t i fun p => { p with st := .disabling, disAt := now }).pulseUpd t i (fun p => { p with imm := firstOf p.imm now }) =
      c.pulseUpd t i fun p => { p with st := .disabling, disAt := now, imm := firstOf p.imm now } := fun c => by
    unfold Block.pulseUpd
    rw [tabUpd_upd _ _ _ _ _ (fun e => by cases congrArg Pulse.st e) (fun e => by cases congrArg Pulse.st e)]
  simp only [pulseDisable, immStop, Nat.add_sub_cancel_left, h, hp]
  rw [show homingFault t (4 + i) b = { b with gen := (b.genUpd t (4 + i) homingFails).gen, qd := (homingFault t (4 + i) b).qd } from genEnd_frame _ _ _ _]
  rfl

/-! ### The immediate stop -/

theorem pulseHalt_due {p : Pulse} {c : Nat} (hc : p.imm = some c) (hlt : c < now) :
    pulseHalt now p = ({ p with imm := none, w := 0, held := [], haltAt := now }, decide (p.w ≠ 0) || !p.held.isEmpty) := by
  simp only [pulseHalt, hc, hlt, if_true]

theorem pulseHalt_waits {p : Pulse} (h : p.imm = none ∨ ∃ c, p.imm = some c ∧ now ≤ c) : pulseHalt now p = (p, false) := by
  obtain h | ⟨c, hc, hle⟩ := h
  · simp only [pulseHalt, h]
  · simp only [pulseHalt, hc, Nat.not_lt.2 hle, if_false]

end

/-- Settles O22: one equation for each state of the axis, the way down of an enabled one as `pulseDown`, and the immediate stop by `pulseHalt`. -/
theorem pulseTrainEnable : Obligations.PulseTrainEnable := by
  intro t i s x g hl hx hg
  subst hx hg
  have en : ∀ {y}, pulseEnable s.clk.lattice t (4 + i) s.b = y → Turns (.pgAxEnable t i) s y := turns_onTile (exec_pgAxEnable t i s) hl
  have dis : ∀ {y}, pulseDisable s.clk.lattice t (4 + i) s.b = y → Turns (.pgAxDisable t i) s y := turns_onTile (exec_pgAxDisable t i s) hl
  have imm : ∀ {y}, pulseHaltAt s.clk.lattice t (4 + i) s.b = y → Turns (.immediateStop t i) s y := turns_onTile (exec_immediateStop t i s) hl
  refine ⟨fun hst hw hty hb => en ?_, fun hst hw hb => en ?_, fun h => en ?_, fun hst hs => en ?_, fun hst hs => en ?_, fun hst => dis ?_, fun hst => dis ?_, fun hst => ?_,
    fun c hc hlt => imm ?_, fun h => imm ?_⟩
  · rw [pulseEnable_disabled hst, if_neg (by simp [hw]), if_neg (by simp [hty, hb])]; exact pulseUpd_value _ _ _ _
  · rw [pulseEnable_disabled hst, if_neg (by simp [hw]), if_pos (by simpa using hb)]; exact pulseUpd_value _ _ _ _
  · obtain ⟨hst, hw⟩ | hst := h
    · rw [pulseEnable_disabled hst, if_pos (Option.isSome_iff_ne_none.2 hw)]
    · exact pulseEnable_enabled hst
  · rw [pulseEnable_disabling hst, if_neg (by simp [hs])]; exact pulseUpd_value _ _ _ _
  · rw [pulseEnable_disabling hst, if_pos hs]; exact pulseUpd_value _ _ _ _
  · exact (pulseDisable_disabled hst).trans (pulseUpd_value _ _ _ _)
  · exact (pulseDisable_disabling hst).trans (pulseUpd_value _ _ _ _)
  · refine gives_onTile (exec_pgAxDisable t i s) hl ?_
    dsimp only
    rw [pulseDisable_enabled hst, memberEvent_frame]
    refine ⟨rfl, ?_, ?_, ?_, ?_, ?_, ?_, ?_⟩
    · show (s.b.pulseUpd t i fun p => { p with st := .disabling, disAt := s.clk.lattice, imm := firstOf p.imm s.clk.lattice }).pulse = _
      rw [pulseUpd_value]; simp only [firstOf_eq]
    · show (s.b.genUpd t (4 + i) homingFails).gen = _
      exact congrArg Block.gen (genUpd_congr _ _ _ _ _ rfl)
    · show (s.b.followUpd t (4 + i) fun f => { f with cl := { f.cl with down := firstOf f.cl.down s.clk.lattice, pending := false } }).follow = _
      simp only [firstOf_eq]
    · exact fun k h1 h2 h3 => homingFault_qd_index h1 h2 h3
    · exact homingFault_qd_other
    · intro m hm hst
      show (memberEvent t (4 + i) (pulseDown s.clk.lattice t i s.b)).plg = _
      rw [memberEvent_plg (show plgOf (pulseDown s.clk.lattice t i s.b) t (4 + i) = some m from hm) hst]; rfl
    · intro hm
      show (memberEvent t (4 + i) (pulseDown s.clk.lattice t i s.b)).plg = _
      rw [memberEvent_none (show plgOf (pulseDown s.clk.lattice t i s.b) t (4 + i) = none from hm)]; rfl
  · simp only [pulseHaltAt, Nat.add_sub_cancel_left, pulseHalt_due hc hlt]
    rw [if_pos (by simp [hc])]
    have moves : (decide ((s.b.pulseAt t i).w ≠ 0) || !(s.b.pulseAt t i).held.isEmpty || decide ((s.b.genAt t (4 + i)).st ≠ .idle)) =
        decide ((s.b.pulseAt t i).w ≠ 0 ∨ (s.b.pulseAt t i).held ≠ [] ∨ (s.b.genAt t (4 + i)).st ≠ .idle) := by
      rw [Bool.eq_iff_iff]; simp [or_assoc]
    simp only [moves]
    refine genUpd_congr _ _ _ _ _ ?_
    rw [show ∀ f, (s.b.pulseUpd t i f).genAt t (4 + i) = s.b.genAt t (4 + i) from fun _ => rfl]
    generalize decide ((s.b.pulseAt t i).w ≠ 0 ∨ (s.b.pulseAt t i).held ≠ [] ∨ (s.b.genAt t (4 + i)).st ≠ .idle) = moved
    cases moved <;> simp
  · simp only [pulseHaltAt, Nat.add_sub_cancel_left, pulseHalt_waits h]
    rw [if_neg (by cases (s.b.pulseAt t i).imm <;> simp)]

end Sys2Proof.Proofs
end

section
/-! Enabling, disabling, timeouts, feedback and set-points of networked axes (R14, R15, R25, R46, R48, R323 to R327). -/

namespace Sys2Proof.Proofs

open Sys2Proof.Machine

/-! ### The service of a packet -/

theorem spineServe_waits {p : Pkt} {f : Block → Block} {b : Block} (h : spineServes b p = false) : spineServe p f b = b := by
  simp only [spineServe, h, Bool.false_eq_true, if_false]

theorem spineServe_goes {p : Pkt} {f : Block → Block} {b : Block} (h : spineServes b p = true) :
    spineServe p f b = { f b with turns := spineServed (f b) p } := by
  simp only [spineServe, h, if_true]

/-! ### The completion of a disable -/

theorem logEvent_nx (now code source data : Nat) (b : Block) : (logEvent now code source data b).nx = b.nx := by
  obtain ⟨hl, nv, bk, h, -⟩ := logEvent_frame now code source data b
  rw [h]

/-- The end of a disable or of a fault reaction leaves networked axes alone (R245, R534). -/
theorem axisDone_nx (now t j : Nat) (b : Block) : (axisDone now t j b).nx = b.nx := by
  have h := forL_keeps (fun c => c.nx = b.nx) (chansOf b t j) (fun k => fun x =>
    x.qdUpd t k fun q => { q with fb := { q.fb with on := false, due := none }, posSrc := q.posL, spdSrc := q.spdL }) b (fun _ _ hc => hc) rfl
  unfold axisDone; dsimp only; split
  · exact (logEvent_nx _ _ _ _ _).trans h
  · exact h

/-! ### ENABLE and DISABLE of slot 8 + `i` -/

section
variable {now t i : Nat} {b : Block}

/-- What a networked slot must meet to be enabled (R325). -/
def nxReady (b : Block) (t i : Nat) : Prop :=
  slotTy b t (8 + i) = .networked ∧ enableBarred b t (8 + i) = false ∧ (b.nxAt t i).pReady = true ∧ (b.blnxAt (8 * t + i)).lost = false ∧
    Fld.BL_NX_BIND_BIND_DN b.cfg (8 * t + i) ≠ 0xFF

theorem nxEnableOp_ready (h : (b.nxAt t i).st = .disabled) (hr : nxReady b t i) :
    nxEnableOp now t (8 + i) b = b.nxUpd t i fun n => { n with st := .enabling, since := now } := by
  obtain ⟨hty, hbar, hp, hl, hb⟩ := hr
  simp only [nxEnableOp, nxLost, Nat.add_sub_cancel_left, h]
  rw [if_neg (by simp [hty, hbar, hp, hl, hb])]

theorem nxEnableOp_not_ready (h : (b.nxAt t i).st = .disabled) (hr : ¬nxReady b t i) :
    nxEnableOp now t (8 + i) b = b.nxUpd t i fun n => { n with enRefused := true } := by
  simp only [nxEnableOp, nxLost, Nat.add_sub_cancel_left, h]
  refine if_pos (by_contra fun hc => hr ?_)
  simpa [nxReady, and_assoc] using hc

theorem nxEnableOp_started (h : (b.nxAt t i).st = .enabling ∨ (b.nxAt t i).st = .enabled) : nxEnableOp now t (8 + i) b = b := by
  obtain h | h := h <;> simp only [nxEnableOp, Nat.add_sub_cancel_left, h]

theorem nxEnableOp_disabling (h : (b.nxAt t i).st = .disabling) :
    nxEnableOp now t (8 + i) b =
      if safetyStops b t (8 + i) then b.nxUpd t i fun n => { n with enRefused := true } else b.nxUpd t i fun n => { n with enPending := true } := by
  simp only [nxEnableOp, Nat.add_sub_cancel_left, h]

theorem nxEnableOp_faultStop (h : (b.nxAt t i).st = .faultStop) : nxEnableOp now t (8 + i) b = b.nxUpd t i fun n => { n with enRefused := true } := by
  simp only [nxEnableOp, Nat.add_sub_cancel_left, h]

theorem nxDisableOp_stopped (h : (b.nxAt t i).st = .disabled ∨ (b.nxAt t i).st = .faultStop) : nxDisableOp now t (8 + i) b = b := by
  obtain h | h := h <;> simp only [nxDisableOp, Nat.add_sub_cancel_left, h]

theorem nxDisableOp_disabling (h : (b.nxAt t i).st = .disabling) : nxDisableOp now t (8 + i) b = b.nxUpd t i fun n => { n with enPending := false } := by
  simp only [nxDisableOp, Nat.add_sub_cancel_left, h]

variable (now t i b) in
/-- The module of a networked axis at its disable, before its motion goes down (R326). -/
def nxDown : Block := (b.nxUpd t i fun n => { n with st := .disabling, since := now }).sfAxUpd (axNo t (8 + i)) fun a => { a with relReq := false }

theorem nxDisableOp_started (h : (b.nxAt t i).st = .enabling ∨ (b.nxAt t i).st = .enabled) :
    nxDisableOp now t (8 + i) b = if stopRuns b t (8 + i) then b else motionDown now t (8 + i) (nxDown now t i b) := by
  obtain h | h := h <;> simp only [nxDisableOp, Nat.add_sub_cancel_left, h] <;> rfl

/-! ### Timeouts -/

/-- A networked slot after OFF_TO (R326). -/
def nxOff (n : Nx) : Nx := { n with st := .disabled, offTimeout := true, enPending := false }

variable (now t i b) in
/-- The module at the end of a disable by OFF_TO, before an ENABLE that was held acts. -/
def nxTimedOut : Block := axisDone now t (8 + i) (b.nxUpd t i nxOff)

theorem nxTimedOut_nx : (nxTimedOut now t i b).nx = (b.nxUpd t i nxOff).nx := axisDone_nx _ _ _ _

theorem nxTimedOut_nxAt : (nxTimedOut now t i b).nxAt t i = nxOff (b.nxAt t i) := by
  unfold Block.nxAt; rw [nxTimedOut_nx]; exact nxAt_nxUpd _ _ _ _

theorem nxDone_timeout :
    nxDone now t (8 + i) true b =
      if (b.nxAt t i).enPending && decide ((b.nxAt t i).st = .disabling) then nxEnableOp now t (8 + i) (nxTimedOut now t i b) else nxTimedOut now t i b := by
  simp only [nxDone, Nat.add_sub_cancel_left, Bool.or_true]; rfl

theorem nxOffExpire_due (h : (b.nxAt t i).st = .disabling ∨ (b.nxAt t i).st = .faultStop) (hd : (b.nxAt t i).since + Fld.GR_NX_CFG_OFF_TO b.cfg t i * 1000000 ≤ now) :
    nxOffExpire now t (8 + i) b = nxDone now t (8 + i) true b := by
  simp only [nxOffExpire, Nat.add_sub_cancel_left]
  rw [if_pos (by simp [h, hd])]

/-- An ENABLE that was held acts at the end of the disable: the slot is ENABLING, or the ENABLE is refused. -/
theorem nxDone_held (hp : (b.nxAt t i).enPending = true) (hst : (b.nxAt t i).st = .disabling) :
    (nxDone now t (8 + i) true b).nxAt t i = { nxOff (b.nxAt t i) with st := .enabling, since := now } ∨
      (nxDone now t (8 + i) true b).nxAt t i = { nxOff (b.nxAt t i) with enRefused := true } := by
  rw [nxDone_timeout, if_pos (by simp [hp, hst])]
  have hoff : ((nxTimedOut now t i b).nxAt t i).st = .disabled := by rw [nxTimedOut_nxAt]; rfl
  by_cases hr : nxReady (nxTimedOut now t i b) t i
  · left; rw [nxEnableOp_ready hoff hr, nxAt_nxUpd, nxTimedOut_nxAt]
  · right; rw [nxEnableOp_not_ready hoff hr, nxAt_nxUpd, nxTimedOut_nxAt]

/-! ### Feedback and set-points -/

theorem nxFeedback_none (h : (b.blnxAt (8 * t + i)).relay = []) : nxFeedback t i b = b := by simp only [nxFeedback, h]

/-- A relayed record as the feedback of its slot (R323). -/
def nxHears (f : NxRelay) (n : Nx) : Nx :=
  { n with fb := { pos := f.pos, vel := f.vel, t := f.tf, ready := bit f.status 0, enabled := bit f.status 1, fault := bit f.status 2 } }

variable (t i b) in
/-- The module with the oldest relayed record `f` of a slot registered, `r` still to come. -/
def nxHeard (f : NxRelay) (r : List NxRelay) : Block :=
  { b with nx := (b.nxUpd t i (nxHears f)).nx, blnx := (b.blnxUpd (8 * t + i) fun x => { x with relay := r }).blnx }

theorem nxFeedback_goes {f : NxRelay} {r : List NxRelay} (h : (b.blnxAt (8 * t + i)).relay = f :: r) (hs : spineServes b (pktFb b (8 * t + i) f.at_) = true) :
    nxFeedback t i b = { nxHeard t i b f r with turns := spineServed (nxHeard t i b f r) (pktFb b (8 * t + i) f.at_) } := by
  simp only [nxFeedback, h]; exact spineServe_goes hs

theorem nxFeedback_waits {f : NxRelay} {r : List NxRelay} (h : (b.blnxAt (8 * t + i)).relay = f :: r) (hs : spineServes b (pktFb b (8 * t + i) f.at_) = false) :
    nxFeedback t i b = b := by
  simp only [nxFeedback, h]; exact spineServe_waits hs

theorem nxAtHub_none {k : Nat} (h : (b.blnxAt k).fly = []) : nxAtHub now k b = b := by simp only [nxAtHub, h]

variable (now b) in
/-- The module with the oldest set-point on its way registered at the hub. -/
def nxArrived (k : Nat) (f : Nat × NxRec) (l : List (Nat × NxRec)) : Block := b.blnxUpd k fun x => { x with fly := l, newer := x.newer ++ [(now, f.2)] }

theorem nxAtHub_goes {k : Nat} {f : Nat × NxRec} {l : List (Nat × NxRec)} (h : (b.blnxAt k).fly = f :: l) (hs : spineServes b (pktNx k f.1) = true) :
    nxAtHub now k b = { nxArrived now b k f l with turns := spineServed (nxArrived now b k f l) (pktNx k f.1) } := by
  simp only [nxAtHub, h]; exact spineServe_goes hs

theorem nxAtHub_waits {k : Nat} {f : Nat × NxRec} {l : List (Nat × NxRec)} (h : (b.blnxAt k).fly = f :: l) (hs : spineServes b (pktNx k f.1) = false) :
    nxAtHub now k b = b := by
  simp only [nxAtHub, h]; exact spineServe_waits hs

end

/-- Settles O28: each command by the state of the slot, a timeout by what `axisDone` leaves of the slot, the arrivals by the service of the spine. -/
theorem networkedAxes : Obligations.NetworkedAxes := by
  intro t i s n hl hn
  subst hn
  have en : ∀ {y}, nxEnableOp s.clk.lattice t (8 + i) s.b = y → Turns (.nxEnable t i) s y := turns_onTile (exec_nxEnable t i s) hl
  have dis : ∀ {y}, nxDisableOp s.clk.lattice t (8 + i) s.b = y → Turns (.nxDisable t i) s y := turns_onTile (exec_nxDisable t i s) hl
  have enTo : ∀ {y}, nxEnExpire s.clk.lattice t (8 + i) s.b = y → Turns (.nxEnableTimeout t i) s y := turns_onTile (exec_nxEnableTimeout t i s) hl
  have offTo : ∀ {y}, nxOffExpire s.clk.lattice t (8 + i) s.b = y → Turns (.nxDisableTimeout t i) s y := turns_onTile (exec_nxDisableTimeout t i s) hl
  have fb : ∀ {y}, nxFeedback t i s.b = y → Turns (.nxFeedbackReceived t i) s y := turns_onTile (exec_nxFeedbackReceived t i s) hl
  have sp : ∀ {y}, nxAtHub s.clk.lattice (8 * t + i) s.b = y → Turns (.nxSetpointAtHub t i) s y := turns_onTile (exec_nxSetpointAtHub t i s) hl
  refine ⟨fun hst hr => en ?_, fun hst hr => en ?_, fun hst => en ?_, fun hst hs => en ?_, fun hst hs => en ?_, fun hst => en ?_,
    fun hst => dis ?_, fun hst => dis ?_, fun hst hs => dis ?_, fun hst hs => ?_, fun hst hd => enTo ?_, fun h => enTo ?_, fun hst hd => ?_, fun h => offTo ?_,
    fun f r hf hs => ?_, fun f r hf hs => fb ?_, fun hf => fb ?_, fun f l hf hs => ?_, fun f l hf hs => sp ?_, fun hf => sp ?_⟩
  · exact (nxEnableOp_ready hst hr).trans (nxUpd_value _ _ _ _)
  · exact (nxEnableOp_not_ready hst hr).trans (nxUpd_value _ _ _ _)
  · exact nxEnableOp_started hst
  · rw [nxEnableOp_disabling hst, if_neg (by simp [hs])]; exact nxUpd_value _ _ _ _
  · rw [nxEnableOp_disabling hst, if_pos hs]; exact nxUpd_value _ _ _ _
  · exact (nxEnableOp_faultStop hst).trans (nxUpd_value _ _ _ _)
  · exact nxDisableOp_stopped hst
  · exact (nxDisableOp_disabling hst).trans (nxUpd_value _ _ _ _)
  · rw [nxDisableOp_started hst, if_pos hs]
  · refine gives_onTile (exec_nxDisable t i s) hl ?_
    dsimp only
    rw [nxDisableOp_started hst, if_neg (by simp [hs])]
    obtain ⟨hnat, hsf, hpulse, hnx, hgen, hfollow⟩ := motionDown_kept s.clk.lattice t (8 + i) (nxDown s.clk.lattice t i s.b)
    refine ⟨OnlyFaults.trans (c := nxDown s.clk.lattice t i s.b) ⟨rfl, fun _ _ => rfl⟩ (motionDown_only _ _ _ _), ?_, hsf, ?_, ?_, hpulse, hnat⟩
    · rw [hnx]
      show (s.b.nxUpd t i fun n => { n with st := .disabling, since := s.clk.lattice }).nx = _
      rw [nxUpd_value]
    · rw [hgen]; simp only [firstOf_eq]; rfl
    · rw [hfollow]; simp only [firstOf_eq]; rfl
  · simp only [nxEnExpire, Nat.add_sub_cancel_left]
    rw [if_pos (by simp [hst, hd])]; exact nxUpd_value _ _ _ _
  · simp only [nxEnExpire, Nat.add_sub_cancel_left]
    exact if_neg (by rcases h with h | h <;> simp [h])
  · refine gives_onTile (exec_nxDisableTimeout t i s) hl ?_
    dsimp only
    rw [nxOffExpire_due hst hd]
    refine ⟨nxDone_ot _ _ _ _ (OnlyTiles.refl _), fun h => ?_, fun hp hdis => nxDone_held hp hdis⟩
    rw [nxDone_timeout, if_neg (by rcases h with h | h <;> simp [h]), nxTimedOut_nx]
    exact congrArg Block.nx (nxUpd_value _ _ _ _)
  · simp only [nxOffExpire, Nat.add_sub_cancel_left]
    exact if_neg (by rcases h with h | h <;> simp [h])
  · refine gives_onTile (exec_nxFeedbackReceived t i s) hl ?_
    dsimp only
    rw [nxFeedback_goes hf hs]
    refine ⟨?_, rfl, rfl⟩
    show (s.b.nxUpd t i (nxHears f)).nx = _
    rw [nxUpd_value]; rfl
  · exact nxFeedback_waits hf hs
  · exact nxFeedback_none hf
  · refine gives_onTile (exec_nxSetpointAtHub t i s) hl ?_
    dsimp only
    rw [nxAtHub_goes hf hs]
    exact ⟨rfl, rfl⟩
  · exact nxAtHub_waits hf hs
  · exact nxAtHub_none hf

end Sys2Proof.Proofs
end

section
/-! What single actions of the safety engine leave in the axis that they act on (R45, R207, R511, R517, R519, R521, R524). -/

namespace Sys2Proof.Proofs

open Sys2Proof.Machine

/-! ### Axes by their safety number -/

theorem axNo_div {t j : Nat} (h : j < 16) : axNo t j / 16 = t := by unfold axNo; omega

theorem axNo_mod {t j : Nat} (h : j < 16) : axNo t j % 16 = j := by unfold axNo; omega

/-- The native axis with safety number `a`. -/
def natOf (b : Block) (a : Nat) : NatAx := b.natAt (a / 16) (a % 16)

@[simp] theorem natOf_sfAxUpd (b : Block) (a a' : Nat) (f : SfAx → SfAx) : natOf (b.sfAxUpd a' f) a = natOf b a := rfl

@[simp] theorem sfAxAt_natUpd (b : Block) (a t j : Nat) (f : NatAx → NatAx) : (b.natUpd t j f).sfAxAt a = b.sfAxAt a := rfl

@[simp] theorem natOf_natUpd (b : Block) (a : Nat) (f : NatAx → NatAx) : natOf (b.natUpd (a / 16) (a % 16) f) a = f (natOf b a) := natAt_natUpd _ _ _ _

/-- What touches no axis leaves the safety record of each, but for a fault that it registers. -/
theorem sf_of_same {b c : Block} (h : AllSame b c) (a : Nat) : c.sfAxAt a = { b.sfAxAt a with fault := (c.sfAxAt a).fault } := by
  have := (h.2 (a / 16) (a % 16)).1
  rwa [axNo_split] at this

theorem nat_of_same {b c : Block} (h : AllSame b c) (a : Nat) :
    natOf c a = { natOf b a with wait := (natOf c a).wait, enPending := (natOf c a).enPending, enRefused := (natOf c a).enRefused } :=
  (h.2 (a / 16) (a % 16)).2

/-! ### Registers stand under the engine -/

theorem cfg_of_engine {b c : Block} (h : OnlyEngine b c) : c.cfg = b.cfg := by rw [h]

theorem run_of_engine {b c : Block} (h : OnlyEngine b c) : c.run = b.run := by rw [h]

theorem zones_of_engine {b c : Block} (h : OnlyEngine b c) : c.sf.zones = b.sf.zones := by rw [h]

theorem slotTy_of_cfg {b c : Block} (h : c.cfg = b.cfg) (t j : Nat) : slotTy c t j = slotTy b t j := by unfold slotTy; rw [h]

theorem isNative_of_cfg {b c : Block} (h : c.cfg = b.cfg) (t j : Nat) : isNative c t j = isNative b t j := by
  unfold isNative; rw [slotTy_of_cfg h]

theorem brakeOf_of_cfg {b c : Block} (h : c.cfg = b.cfg) (a : Nat) : brakeOf c a = brakeOf b a := by unfold brakeOf; rw [h]

/-- The slot of a native axis is of one of the two native types. -/
theorem slotTy_of_native {b : Block} {t j : Nat} (h : isNative b t j = true) : slotTy b t j = .n3ph ∨ slotTy b t j = .nstep := by
  simp only [isNative, Bool.and_eq_true, Bool.or_eq_true, decide_eq_true_eq] at h
  exact h.2

/-- A native axis counts as disabled by its own state. -/
theorem axDisabled_of_native {b : Block} {t j : Nat} (h : isNative b t j = true) :
    axDisabled b t j = (decide ((b.natAt t j).st = .disabled) || decide ((b.natAt t j).st = .sto)) := by
  obtain h | h := slotTy_of_native h <;> simp only [axDisabled, h]

/-- Native axes in the same state, of the same configuration, count as disabled alike. -/
theorem axDisabled_congr {b c : Block} {t j : Nat} (hn : isNative b t j = true) (hc : c.cfg = b.cfg) (hs : (c.natAt t j).st = (b.natAt t j).st) :
    axDisabled c t j = axDisabled b t j := by
  rw [axDisabled_of_native hn, axDisabled_of_native (by rw [isNative_of_cfg hc]; exact hn), hs]

/-! ### The removal of a permissive -/

/-- The safety record of an axis without permissive. -/
def permitGone (x : SfAx) : SfAx := { x with permit := false, grantAt := none, rmAt := none }

/-- A native axis whose stage is off. -/
def stageOff (n : NatAx) : NatAx := { n with gate := false, pwm := .off }

section
variable (now a : Nat) (b : Block)

/-- The removal of a permissive: the record, the stage of a native axis, and what its readback says (R45, R519, R521). -/
theorem permitOff_eq : permitOff now a b =
    if isNative b (a / 16) (a % 16) then
      let c := (b.sfAxUpd a permitGone).natUpd (a / 16) (a % 16) stageOff
      if genReads c (a / 16) (a % 16) then axFault now 7 (a / 16) (a % 16) { c with sf := { c.sf with stuck := true } }
      else if (b.sfAxAt a).permit then c.sfAxUpd a fun x => { x with stoPass := some now, stoDue := false }
      else c
    else b.sfAxUpd a permitGone := rfl

/-- A stuck readback registers a fault, and touches no axis besides. -/
theorem stuckFault_same (t j : Nat) (c : Block) : AllSame c (axFault now 7 t j { c with sf := { c.sf with stuck := true } }) :=
  (stuck_same true c).trans (axFault_same _ _ _ _ _)

/-- The permissive, a grant and a removal that wait go; only the record of the STO test and a fault by a stuck readback may change besides. -/
theorem permitOff_sf : (permitOff now a b).sfAxAt a =
    { permitGone (b.sfAxAt a) with stoPass := ((permitOff now a b).sfAxAt a).stoPass, stoDue := ((permitOff now a b).sfAxAt a).stoDue
                                   fault := ((permitOff now a b).sfAxAt a).fault } := by
  rw [permitOff_eq]; dsimp only; split
  · split
    · rw [sf_of_same (stuckFault_same now _ _ _) a, sfAxAt_natUpd, sfAxAt_sfAxUpd]
    · split <;> simp only [sfAxAt_sfAxUpd, sfAxAt_natUpd]
  · rw [sfAxAt_sfAxUpd]

/-- The stage of a native axis goes off with its permissive. -/
theorem permitOff_nat (hn : isNative b (a / 16) (a % 16) = true) : natOf (permitOff now a b) a =
    { stageOff (natOf b a) with wait := (natOf (permitOff now a b) a).wait, enPending := (natOf (permitOff now a b) a).enPending
                                enRefused := (natOf (permitOff now a b) a).enRefused } := by
  rw [permitOff_eq, if_pos hn]; dsimp only; split
  · rw [nat_of_same (stuckFault_same now _ _ _) a, natOf_natUpd, natOf_sfAxUpd]
  · split <;> simp only [natOf_natUpd, natOf_sfAxUpd]

/-! ### The end of a disable or of a fault reaction -/

/-- The safety record of an axis after the end of a reaction or a stop: nothing runs; grace mode, if it ran, leaves FLT set (R245, R534). -/
theorem axisDone_sf (t j : Nat) (c : Block) : (axisDone now t j c).nat = c.nat ∧
    (axisDone now t j c).sfAxAt (axNo t j) =
      { c.sfAxAt (axNo t j) with
        react := none, stop := none, graceReg := none, grace := none
        graceExp := ((axisDone now t j c).sfAxAt (axNo t j)).graceExp
        flt := (c.sfAxAt (axNo t j)).flt || (c.sfAxAt (axNo t j)).grace.isSome, cause := ((axisDone now t j c).sfAxAt (axNo t j)).cause } := by
  have hkeeps := forL_keeps (fun d => d.nat = c.nat ∧ d.sf = c.sf) (chansOf c t j) (fun k => fun x =>
    x.qdUpd t k fun q => { q with fb := { q.fb with on := false, due := none }, posSrc := q.posL, spdSrc := q.spdL }) c (fun _ _ h => h) ⟨rfl, rfl⟩
  unfold axisDone; dsimp only
  generalize forL (chansOf c t j) _ c = d at hkeeps ⊢
  obtain ⟨hnat, hsf⟩ := hkeeps
  have hd : d.sfAxAt (axNo t j) = c.sfAxAt (axNo t j) := by unfold Block.sfAxAt; rw [hsf]
  rw [sfAxAt_sfAxUpd, hd]
  split
  · next hg =>
    have hg : (c.sfAxAt (axNo t j)).grace = some _ := hg
    have hl := logEvent_log now 0x0014 0 (axNo t j * 256)
    refine ⟨by rw [hl]; exact hnat, ?_⟩
    rw [show ∀ e : Block, (logEvent now 0x0014 0 (axNo t j * 256) e).sfAxAt (axNo t j) = e.sfAxAt (axNo t j) from fun e => by
      unfold Block.sfAxAt; rw [hl]]
    simp only [sfAxAt_sfAxUpd, hd, hg, Option.isSome_some, Bool.or_true]
  · next hg =>
    have hg : (c.sfAxAt (axNo t j)).grace = none := hg
    refine ⟨hnat, ?_⟩
    simp only [sfAxAt_sfAxUpd, hd, hg, Option.isSome_none, Bool.or_false]

/-- The end of a native fault reaction on the safety record: no permissive, no reaction, no stop, no grace mode (R207, R534). -/
theorem faultEnd_sf : (faultEnd now a b).sfAxAt a =
    { permitGone (b.sfAxAt a) with
      react := none, stop := none, graceReg := none, grace := none, graceExp := ((faultEnd now a b).sfAxAt a).graceExp
      flt := (b.sfAxAt a).flt || (b.sfAxAt a).grace.isSome, cause := ((faultEnd now a b).sfAxAt a).cause
      stoPass := ((faultEnd now a b).sfAxAt a).stoPass, stoDue := ((faultEnd now a b).sfAxAt a).stoDue, fault := ((faultEnd now a b).sfAxAt a).fault } := by
  unfold faultEnd; dsimp only
  generalize hc : b.natUpd (a / 16) (a % 16) _ = c
  have hx : c.sfAxAt a = b.sfAxAt a := by rw [← hc]; rfl
  obtain ⟨-, hd⟩ := axisDone_sf now (a / 16) (a % 16) (permitOff now a c)
  rw [axNo_split] at hd
  rw [hd, permitOff_sf, hx]
  rfl

theorem faultEnd_nat (hn : isNative b (a / 16) (a % 16) = true) :
    (natOf (faultEnd now a b) a).st = .sto ∧ (natOf (faultEnd now a b) a).gate = false ∧ (natOf (faultEnd now a b) a).pwm = .off := by
  unfold faultEnd; dsimp only
  generalize hc : b.natUpd (a / 16) (a % 16) _ = c
  have hst : (natOf c a).st = .sto := by rw [← hc, natOf_natUpd]
  have hn' : isNative c (a / 16) (a % 16) = true := by rw [← hc]; exact hn
  have hnat : natOf (axisDone now (a / 16) (a % 16) (permitOff now a c)) a = natOf (permitOff now a c) a := by
    unfold natOf Block.natAt; rw [(axisDone_sf now (a / 16) (a % 16) (permitOff now a c)).1]
  rw [hnat, permitOff_nat now a c hn']
  exact ⟨hst, rfl, rfl⟩

end

end Sys2Proof.Proofs
end

section
/-! A fault of the engine (R506, R511): every axis loses its permissive, and an enabled native axis ends in STO. -/

namespace Sys2Proof.Proofs

open Sys2Proof.Machine

/-- The safety record of an axis as a fault of the engine begins: the brake is commanded engaged, every request ends. -/
def engineSilences (now : Nat) (x : SfAx) : SfAx :=
  { x with brkCmd := false, brkOpen := false, relAt := none, engAt := some now, relReq := false, brkReq := none, stoTest := none, fault := none }

/-- The safety record of a native axis that a fault of the engine trips. -/
def engineTrips (now : Nat) (x : SfAx) : SfAx := { x with flt := true, cause := 10, react := some now }

section
variable (now a : Nat) (b : Block)

/-- What a fault of the engine does to an enabled native axis. -/
def engineStops : Block :=
  faultEnd now a (mastersLost now (a / 16) (a % 16) <| tileFault now (a / 16) (a % 16) <| acqEvent now (a / 16) 8 <|
    (logEvent now 0x0013 0 (a * 256 + 10) (btEnd (a / 16) (a % 16) 4 b)).sfAxUpd a (engineTrips now))

/-- The module with the brake of an axis commanded engaged and its requests ended. -/
def engineSilenced : Block := (brakeEngage now a b).sfAxUpd a fun x => { x with relReq := false, brkReq := none, stoTest := none, fault := none }

/-- What a fault of the engine does to one axis. -/
def engineOff : Block :=
  let x := engineSilenced now a b
  let y := discardEnable (a / 16) (a % 16) x
  if isNative x (a / 16) (a % 16) then (if axDisabled y (a / 16) (a % 16) then permitOff now a y else engineStops now a y)
  else if slotTy x (a / 16) (a % 16) = .networked then permitOff now a y
  else permitOff now a x

theorem engineFault_eq (cause : Nat) (h : b.sf.fault = false) : engineFault now cause b =
    let c := logEvent now 0x0012 0 cause { b with sf := { b.sf with fault := true, cause := cause, faultAt := now } }
    forL (sfAxes c) (engineOff now) c := by
  simp only [engineFault, h, Bool.false_eq_true, if_false]; rfl

/-! ### The frame of one axis -/

theorem engineSilenced_beside : Beside a b (engineSilenced now a b) := (brakeEngage_beside now a b).trans (sfAxUpd_beside a _ _)

/-- Before the reaction of a tripped axis ends, its brake test and its requests end, and the tile reacts. -/
theorem engineStops_beside : Beside a b (engineStops now a b) :=
  ((((((btEnd_beside' a 4 b).trans (logEvent_same _ _ _ _ _).beside).trans (sfAxUpd_beside a _ _)).trans (acqEvent_same _ _ _ _).beside).trans
    (tileFault_same _ _ _ _).beside).trans (mastersLost_same _ _ _ _).beside).trans (faultEnd_beside _ _ _)

theorem engineOff_beside : Beside a b (engineOff now a b) := by
  have hx := engineSilenced_beside now a b
  have hy := hx.trans (discardEnable_same (a / 16) (a % 16) _).beside
  unfold engineOff; dsimp only
  split
  · split
    · exact hy.trans (permitOff_beside _ _ _)
    · exact hy.trans (engineStops_beside _ _ _)
  · split
    · exact hy.trans (permitOff_beside _ _ _)
    · exact hx.trans (permitOff_beside _ _ _)

/-! ### What it leaves of the axis -/

theorem engineSilenced_sf : (engineSilenced now a b).sfAxAt a = engineSilences now (b.sfAxAt a) := by
  unfold engineSilenced brakeEngage; rw [sfAxAt_sfAxUpd, sfAxAt_sfAxUpd]; rfl

/-- The tripped axis before the end of its reaction: its record but for its brake test and faults, and its native axis but for the value that a brake test held. -/
theorem engineStops_before : ∃ c, engineStops now a b = faultEnd now a c ∧ c.cfg = b.cfg ∧
    c.sfAxAt a = { engineTrips now (b.sfAxAt a) with bt := (c.sfAxAt a).bt, fault := (c.sfAxAt a).fault } := by
  refine ⟨_, rfl, ?_, ?_⟩
  · exact cfg_of_engine ((((((btEnd_beside' a 4 b).trans (logEvent_same now 0x0013 0 (a * 256 + 10) _).beside).trans (sfAxUpd_beside a (engineTrips now) _)).trans
      (acqEvent_same now (a / 16) 8 _).beside).trans (tileFault_same now (a / 16) (a % 16) _).beside).trans (mastersLost_same now (a / 16) (a % 16) _).beside).1
  · obtain ⟨hbt, -, -⟩ := btEnd_axis (a / 16) (a % 16) 4 b
    rw [axNo_split] at hbt
    rw [sf_of_same (((acqEvent_same now (a / 16) 8 _).trans (tileFault_same now (a / 16) (a % 16) _)).trans (mastersLost_same now (a / 16) (a % 16) _)) a, sfAxAt_sfAxUpd,
      sf_of_same (logEvent_same now 0x0013 0 (a * 256 + 10) _) a, hbt]
    rfl

/-- What a fault of the engine leaves of the safety record of an axis that is in use. -/
def Silent (x : SfAx) : Prop := x.permit = false ∧ x.brkCmd = false ∧ x.grantAt = none ∧ x.relReq = false

theorem silent_permitOff (h : (b.sfAxAt a).brkCmd = false) (h' : (b.sfAxAt a).relReq = false) : Silent ((permitOff now a b).sfAxAt a) := by
  rw [permitOff_sf]; exact ⟨rfl, h, rfl, h'⟩

theorem silent_faultEnd (h : (b.sfAxAt a).brkCmd = false) (h' : (b.sfAxAt a).relReq = false) : Silent ((faultEnd now a b).sfAxAt a) := by
  rw [faultEnd_sf]; exact ⟨rfl, h, rfl, h'⟩

theorem engineStops_axis (h : (b.sfAxAt a).brkCmd = false) (h' : (b.sfAxAt a).relReq = false) (hn : isNative b (a / 16) (a % 16) = true) :
    Silent ((engineStops now a b).sfAxAt a) ∧ ((engineStops now a b).sfAxAt a).flt = true ∧
      (natOf (engineStops now a b) a).st = .sto ∧ (natOf (engineStops now a b) a).gate = false ∧ (natOf (engineStops now a b) a).pwm = .off := by
  obtain ⟨c, he, hcfg, hc⟩ := engineStops_before now a b
  rw [he]
  refine ⟨silent_faultEnd _ _ _ (by rw [hc]; exact h) (by rw [hc]; exact h'), by rw [faultEnd_sf, hc]; rfl, faultEnd_nat now a c ?_⟩
  rw [isNative_of_cfg hcfg]; exact hn

theorem engineOff_native (hn : isNative b (a / 16) (a % 16) = true) : engineOff now a b =
    let y := discardEnable (a / 16) (a % 16) (engineSilenced now a b)
    if axDisabled y (a / 16) (a % 16) then permitOff now a y else engineStops now a y := by
  have hn' : isNative (engineSilenced now a b) (a / 16) (a % 16) = true := hn
  simp only [engineOff, hn', if_true]

theorem engineOff_sf : Silent ((engineOff now a b).sfAxAt a) := by
  have hx := engineSilenced_sf now a b
  have hy := sf_of_same (discardEnable_same (a / 16) (a % 16) (engineSilenced now a b)) a
  rw [hx] at hy
  have hcfg : (discardEnable (a / 16) (a % 16) (engineSilenced now a b)).cfg = (engineSilenced now a b).cfg := cfg_of_engine (discardEnable_same _ _ _).1
  unfold engineOff; dsimp only
  split
  · next hn =>
    split
    · exact silent_permitOff _ _ _ (by rw [hy]; rfl) (by rw [hy]; rfl)
    · exact (engineStops_axis _ _ _ (by rw [hy]; rfl) (by rw [hy]; rfl) (by rw [isNative_of_cfg hcfg]; exact hn)).1
  · split
    · exact silent_permitOff _ _ _ (by rw [hy]; rfl) (by rw [hy]; rfl)
    · exact silent_permitOff _ _ _ (by rw [hx]; rfl) (by rw [hx]; rfl)

/-- A native axis after a fault of the engine: its stage is off, and it is in STO with FLT unless it was disabled. -/
theorem engineOff_nat (hn : isNative b (a / 16) (a % 16) = true) : (natOf (engineOff now a b) a).gate = false ∧ (natOf (engineOff now a b) a).pwm = .off ∧
    (axDisabled b (a / 16) (a % 16) = false → (natOf (engineOff now a b) a).st = .sto ∧ ((engineOff now a b).sfAxAt a).flt = true) := by
  rw [engineOff_native _ _ _ hn]
  dsimp only
  have hsame := discardEnable_same (a / 16) (a % 16) (engineSilenced now a b)
  have hx := engineSilenced_sf now a b
  generalize discardEnable (a / 16) (a % 16) (engineSilenced now a b) = y at hsame ⊢
  have hcfg : y.cfg = b.cfg := (cfg_of_engine hsame.1 :)
  have hst : (y.natAt (a / 16) (a % 16)).st = (b.natAt (a / 16) (a % 16)).st := (congrArg NatAx.st (nat_of_same hsame a) :)
  have hy := sf_of_same hsame a
  rw [hx] at hy
  have hn' := (isNative_of_cfg hcfg (a / 16) (a % 16)).trans hn
  rw [axDisabled_congr hn hcfg hst]
  cases hd : axDisabled b (a / 16) (a % 16) with
  | true =>
    rw [if_pos rfl, permitOff_nat _ _ _ hn']
    exact ⟨rfl, rfl, fun h => by simp at h⟩
  | false =>
    obtain ⟨-, hflt, hsto, hgate, hpwm⟩ := engineStops_axis now a y (by rw [hy]; rfl) (by rw [hy]; rfl) hn'
    rw [if_neg (by simp)]
    exact ⟨hgate, hpwm, fun _ => ⟨hsto, hflt⟩⟩

end

/-! ### Every axis -/

theorem nodup_sfAxes (b : Block) : (sfAxes b).Nodup := List.Nodup.filter _ List.nodup_range

theorem mem_sfAxes {b : Block} {t j : Nat} (hj : j < 16) : axNo t j ∈ sfAxes b ↔ t < b.run.tileSet ∧ slotTy b t j ≠ .unused := by
  unfold sfAxes
  rw [List.mem_filter, List.mem_range, axNo_div hj, axNo_mod hj, decide_eq_true_iff]
  unfold axNo
  constructor
  · rintro ⟨h, h'⟩; exact ⟨by omega, h'⟩
  · rintro ⟨h, h'⟩; exact ⟨by omega, h'⟩

/-- The module as the fault of the engine is registered. -/
def faultSet (now cause : Nat) (b : Block) : Block := { b with sf := { b.sf with fault := true, cause := cause, faultAt := now } }

/-- What a fault of the engine leaves of every axis (R511). -/
theorem engineFault_axes (now cause : Nat) (b : Block) (h : b.sf.fault = false) : OnlyEngine (faultSet now cause b) (engineFault now cause b) ∧
    ∀ t j, j < 16 → t < b.run.tileSet → slotTy b t j ≠ .unused →
      Silent ((engineFault now cause b).sfAxAt (axNo t j)) ∧
      (isNative b t j = true → ((engineFault now cause b).natAt t j).gate = false ∧ ((engineFault now cause b).natAt t j).pwm = .off ∧
        (axDisabled b t j = false → ((engineFault now cause b).natAt t j).st = .sto ∧ ((engineFault now cause b).sfAxAt (axNo t j)).flt = true)) := by
  rw [engineFault_eq _ _ _ h]
  dsimp only
  have hlog := logEvent_same now 0x0012 0 cause (faultSet now cause b)
  change AllSame _ (logEvent now 0x0012 0 cause { b with sf := _ }) at hlog
  generalize logEvent now 0x0012 0 cause { b with sf := _ } = c at hlog ⊢
  obtain ⟨hfr, hax⟩ := axes_loop (engineOff now) (engineOff_beside now) (sfAxes c) (nodup_sfAxes c) c
  refine ⟨hlog.1.trans hfr, fun t j hj ht hu => ?_⟩
  have hcfg : c.cfg = b.cfg := (cfg_of_engine hlog.1 :)
  have hrun : c.run = b.run := (run_of_engine hlog.1 :)
  have hmem : axNo t j ∈ sfAxes c := (mem_sfAxes hj).2 ⟨by rw [hrun]; exact ht, by rw [slotTy_of_cfg hcfg]; exact hu⟩
  obtain ⟨d, hd, hcd, hdu⟩ := (hax t j).2 hmem
  have hdcfg : d.cfg = b.cfg := (cfg_of_engine hd).trans hcfg
  have hst : (d.natAt t j).st = (b.natAt t j).st := (congrArg NatAx.st hcd.2 :).trans (congrArg NatAx.st (hlog.2 t j).2 :)
  obtain ⟨hs, hn⟩ := hdu
  have hoff := engineOff_nat now (axNo t j) d
  unfold natOf at hoff
  rw [axNo_div hj, axNo_mod hj, isNative_of_cfg hdcfg] at hoff
  rw [hs, hn]
  refine ⟨engineOff_sf now (axNo t j) d, fun hnat => ?_⟩
  obtain ⟨hg, hp, hr⟩ := hoff hnat
  exact ⟨hg, hp, fun hdis => hr ((axDisabled_congr hnat hdcfg hst).trans hdis)⟩

end Sys2Proof.Proofs
end

section
/-! Decisions about zones (R504, R517): a commanded stop and a fault reaction of a native axis. -/

namespace Sys2Proof.Proofs

open Sys2Proof.Machine

section
variable {now a : Nat} {b : Block}

/-- A native slot is in use and none of a pulse-train axis. -/
theorem slotTy_ne_of_native {t j : Nat} (hn : isNative b t j = true) : slotTy b t j ≠ .unused ∧ slotTy b t j ≠ .pulse := by
  obtain h | h := slotTy_of_native hn <;> simp [h]

/-- What a cause that the engine has not yet acted on finds: a native axis in use that neither reacts nor stops. -/
structure Fresh (b : Block) (a : Nat) : Prop where
  native : isNative b (a / 16) (a % 16) = true
  enabled : axDisabled b (a / 16) (a % 16) = false
  react : (b.sfAxAt a).react = none
  stop : (b.sfAxAt a).stop = none

/-! ### A commanded stop -/

variable (now a b) in
/-- A brake test ends and an enable that waits is discarded, as every cause begins. -/
def causeBegins : Block := discardEnable (a / 16) (a % 16) (btEnd (a / 16) (a % 16) 4 b)

theorem beginStop_fresh (h : Fresh b a) : beginStop now false a b =
    genEnd (a / 16) (a % 16) (pgSafeStop now (Fld.PG_FB_DECEL_DEC (causeBegins a b).cfg (a / 16) (a % 16))) ((causeBegins a b).sfAxUpd a fun x => { x with stop := some (now, false) }) := by
  obtain ⟨hu, hp⟩ := slotTy_ne_of_native h.native
  simp only [beginStop, hu, hp, h.enabled, h.react, h.stop, if_false, Bool.false_eq_true, Option.isSome_none]
  rfl

theorem causeBegins_sf : (causeBegins a b).sfAxAt a = { b.sfAxAt a with bt := ((causeBegins a b).sfAxAt a).bt, fault := ((causeBegins a b).sfAxAt a).fault } := by
  obtain ⟨hbt, -, -⟩ := btEnd_axis (a / 16) (a % 16) 4 b
  rw [axNo_split] at hbt
  unfold causeBegins
  rw [sf_of_same (discardEnable_same (a / 16) (a % 16) _) a, hbt]

theorem causeBegins_st : (natOf (causeBegins a b) a).st = (natOf b a).st := by
  obtain ⟨-, -, hbt⟩ := btEnd_axis (a / 16) (a % 16) 4 b
  exact (congrArg NatAx.st (nat_of_same (discardEnable_same (a / 16) (a % 16) _) a) :).trans (congrArg NatAx.st hbt :)

/-- A category-1 decision on a native axis: the stop is commanded, permissive and state stand. -/
theorem beginStop_axis (h : Fresh b a) : ((beginStop now false a b).sfAxAt a).stop = some (now, false) ∧
    ((beginStop now false a b).sfAxAt a).permit = (b.sfAxAt a).permit ∧ ((beginStop now false a b).sfAxAt a).grantAt = (b.sfAxAt a).grantAt ∧
    (natOf (beginStop now false a b) a).st = (natOf b a).st := by
  rw [beginStop_fresh h]
  have hsame := genEnd_same (a / 16) (a % 16) (pgSafeStop now (Fld.PG_FB_DECEL_DEC (causeBegins a b).cfg (a / 16) (a % 16))) ((causeBegins a b).sfAxUpd a fun x => { x with stop := some (now, false) })
  rw [sf_of_same hsame a, nat_of_same hsame a, sfAxAt_sfAxUpd, causeBegins_sf]
  exact ⟨rfl, rfl, rfl, causeBegins_st⟩

/-! ### A fault reaction -/

/-- The safety record of an axis as its fault reaction begins with cause 0 (R518). -/
def reactBegins (now : Nat) (x : SfAx) : SfAx := { x with react := some now, fault := none, stop := none, relReq := false, brkReq := none, stoTest := none }

variable (a b) in
/-- The brake was already commanded engaged by a lower cause (R529). -/
def brakeTook : Bool :=
  !(b.sfAxAt a).brkCmd && (b.sfAxAt a).engAt.isSome && ((b.sfAxAt a).stop.isSome || decide ((b.sfAxAt a).bt.st ≠ .idle)
    || (isNative b (a / 16) (a % 16) && decide ((b.natAt (a / 16) (a % 16)).st = .disabling)))

variable (now a b) in
/-- The module as a fault reaction by a zone begins: a brake test has ended, the tile and the followers react unless they did before. -/
def reactReady : Block :=
  let c := logEvent now 0x0013 0 (a * 256 + 0) (btEnd (a / 16) (a % 16) 4 b)
  discardEnable (a / 16) (a % 16) (if (b.sfAxAt a).fault.isNone then mastersLost now (a / 16) (a % 16) (tileFault now (a / 16) (a % 16) c) else c)

theorem reactReady_same : AllSame (btEnd (a / 16) (a % 16) 4 b) (reactReady now a b) := by
  have hc := logEvent_same now 0x0013 0 (a * 256 + 0) (btEnd (a / 16) (a % 16) 4 b)
  unfold reactReady; dsimp only; split
  · exact ((hc.trans (tileFault_same _ _ _ _)).trans (mastersLost_same _ _ _ _)).trans (discardEnable_same _ _ _)
  · exact hc.trans (discardEnable_same _ _ _)

theorem reactReady_cfg : (reactReady now a b).cfg = b.cfg :=
  (cfg_of_engine (reactReady_same (now := now)).1).trans (cfg_of_engine (btEnd_beside' a 4 b).1)

theorem reactReady_sf : (reactReady now a b).sfAxAt a = { b.sfAxAt a with bt := ((reactReady now a b).sfAxAt a).bt, fault := ((reactReady now a b).sfAxAt a).fault } := by
  obtain ⟨hbt, -, -⟩ := btEnd_axis (a / 16) (a % 16) 4 b
  rw [axNo_split] at hbt
  rw [sf_of_same reactReady_same a, hbt]

variable (now a b) in
/-- The module with the reaction on record. -/
def reactOnRecord : Block := (reactReady now a b).sfAxUpd a (reactBegins now)

theorem reactOnRecord_cfg : (reactOnRecord now a b).cfg = b.cfg := reactReady_cfg

theorem reactOnRecord_sf : (reactOnRecord now a b).sfAxAt a = { reactBegins now (b.sfAxAt a) with bt := ((reactOnRecord now a b).sfAxAt a).bt } := by
  unfold reactOnRecord
  rw [sfAxAt_sfAxUpd, reactReady_sf]
  rfl

/-- A zone's reaction of a native axis is `natReact`. -/
theorem beginReact_fresh (h : Fresh b a) : beginReact now 0 a b = natReact now a (brakeTook a b) (reactOnRecord now a b) := by
  obtain ⟨hu, -⟩ := slotTy_ne_of_native h.native
  have heq : beginReact now 0 a b = match slotTy (reactOnRecord now a b) (a / 16) (a % 16) with
      | .n3ph | .nstep => natReact now a (brakeTook a b) (reactOnRecord now a b)
      | .networked => nxReact now a (reactOnRecord now a b)
      | _ => reactOnRecord now a b := by
    simp only [beginReact, hu, h.enabled, h.react, if_false, Bool.false_eq_true, Option.isSome_none, ne_eq, not_true, decide_false, Bool.or_false, if_true]
    rfl
  rw [heq, slotTy_of_cfg reactOnRecord_cfg]
  obtain hn | hn := slotTy_of_native h.native <;> simp only [hn]

variable (now a b) in
/-- A native axis in FAULT_HOLD, its references held (R207). -/
def heldFault : Block :=
  (acqEvent now (a / 16) 8 (natHold (a / 16) (a % 16) b)).natUpd (a / 16) (a % 16) fun n =>
    { n with fromAlign := n.fromAlign || decide (n.st = .aligning), st := .faultHold, brakeWait := false, brakeEnd := none }

theorem heldFault_sf : (heldFault now a b).sfAxAt a = b.sfAxAt a := rfl

theorem heldFault_nat : (natOf (heldFault now a b) a).st = .faultHold ∧ (natOf (heldFault now a b) a).hold ≠ none := by
  have hh : (natOf (natHold (a / 16) (a % 16) b) a).hold = some (natRefs b (a / 16) (a % 16)) := by
    unfold natHold; rw [natOf_natUpd]
  unfold heldFault
  rw [natOf_natUpd]
  exact ⟨rfl, fun hnone => by cases hh.symm.trans hnone⟩

theorem natReact_eq {took : Bool} : natReact now a took b =
    match brakeOf (heldFault now a b) a with
    | none => faultEnd now a (heldFault now a b)
    | some _ =>
      let c := if took then heldFault now a b else brakeEngage now a (heldFault now a b)
      let e := (c.sfAxAt a).engAt.getD now + engNs c a
      if e ≤ now then faultEnd now a c else c.sfAxUpd a fun x => { x with rmAt := some e } := rfl

theorem natReact_unbraked {took : Bool} (hb : brakeOf b a = none) : natReact now a took b = faultEnd now a (heldFault now a b) := by
  rw [natReact_eq, show brakeOf (heldFault now a b) a = none from hb]

variable (now a b) in
/-- A native axis in FAULT_HOLD, its brake commanded engaged now. -/
def brakedFault : Block := brakeEngage now a (heldFault now a b)

theorem brakedFault_sf : (brakedFault now a b).sfAxAt a = { b.sfAxAt a with brkCmd := false, brkOpen := false, relAt := none, engAt := some now } := by
  unfold brakedFault brakeEngage; rw [sfAxAt_sfAxUpd, heldFault_sf]

theorem brakedFault_cfg : (brakedFault now a b).cfg = b.cfg := by
  simp only [brakedFault, brakeEngage, heldFault, natHold, acqEvent, sfAxUpd_cfg, natUpd_cfg, aqUpd_cfg]

theorem engNs_of_cfg {b c : Block} (h : c.cfg = b.cfg) (a : Nat) : engNs c a = engNs b a := by unfold engNs; rw [h]

/-- With a brake and an engage time the permissive goes at the end of the time. -/
theorem natReact_braked (hb : brakeOf b a ≠ none) (ht : 0 < engNs b a) :
    natReact now a false b = (brakedFault now a b).sfAxUpd a fun x => { x with rmAt := some (now + engNs b a) } := by
  obtain ⟨p, hp⟩ := Option.ne_none_iff_exists'.1 hb
  have heng : ((brakeEngage now a (heldFault now a b)).sfAxAt a).engAt = some now := (congrArg SfAx.engAt (brakedFault_sf (now := now) (a := a) (b := b)) :)
  have hns : engNs (brakeEngage now a (heldFault now a b)) a = engNs b a := engNs_of_cfg brakedFault_cfg a
  rw [natReact_eq, show brakeOf (heldFault now a b) a = some p from hp]
  simp only [Bool.false_eq_true, if_false, heng, hns, Option.getD_some]
  rw [if_neg (by omega)]
  rfl

/-- A category-0 decision on a native axis without a brake: STO at once, gate-enable inactive (R517). -/
theorem beginReact_unbraked (h : Fresh b a) (hb : brakeOf b a = none) :
    (natOf (beginReact now 0 a b) a).st = .sto ∧ (natOf (beginReact now 0 a b) a).gate = false ∧ ((beginReact now 0 a b).sfAxAt a).permit = false ∧
      ((beginReact now 0 a b).sfAxAt a).flt = ((b.sfAxAt a).flt || (b.sfAxAt a).grace.isSome) ∧ ((beginReact now 0 a b).sfAxAt a).grantAt = none := by
  have hcfg := reactOnRecord_cfg (now := now) (a := a) (b := b)
  have hsf := reactOnRecord_sf (now := now) (a := a) (b := b)
  rw [beginReact_fresh h, natReact_unbraked ((brakeOf_of_cfg hcfg a).trans hb)]
  generalize reactOnRecord now a b = c at hcfg hsf ⊢
  obtain ⟨hst, hgate, -⟩ := faultEnd_nat now a (heldFault now a c) ((isNative_of_cfg hcfg _ _).trans h.native)
  rw [faultEnd_sf, heldFault_sf, hsf]
  exact ⟨hst, hgate, rfl, rfl, rfl⟩

/-- With a brake: FAULT_HOLD, references held, the brake commanded engaged, and the permissive goes at the end of the engage time (R524). -/
theorem beginReact_braked (h : Fresh b a) (hb : brakeOf b a ≠ none) (hcmd : (b.sfAxAt a).brkCmd = true) (ht : 0 < engNs b a) :
    (natOf (beginReact now 0 a b) a).st = .faultHold ∧ (natOf (beginReact now 0 a b) a).hold ≠ none ∧ ((beginReact now 0 a b).sfAxAt a).brkCmd = false ∧
      ((beginReact now 0 a b).sfAxAt a).rmAt = some (now + engNs b a) ∧ ((beginReact now 0 a b).sfAxAt a).permit = (b.sfAxAt a).permit ∧
      ((beginReact now 0 a b).sfAxAt a).flt = (b.sfAxAt a).flt ∧ ((beginReact now 0 a b).sfAxAt a).grantAt = (b.sfAxAt a).grantAt := by
  have hcfg := reactOnRecord_cfg (now := now) (a := a) (b := b)
  have hsf := reactOnRecord_sf (now := now) (a := a) (b := b)
  have htook : brakeTook a b = false := by simp [brakeTook, hcmd]
  rw [beginReact_fresh h, htook]
  generalize reactOnRecord now a b = c at hcfg hsf ⊢
  have heng : engNs c a = engNs b a := engNs_of_cfg hcfg a
  obtain ⟨hst, hhold⟩ := heldFault_nat (now := now) (a := a) (b := c)
  rw [natReact_braked (by rw [brakeOf_of_cfg hcfg]; exact hb) (by rw [heng]; exact ht), heng, sfAxAt_sfAxUpd, brakedFault_sf, hsf]
  exact ⟨hst, hhold, rfl, rfl, rfl, rfl, rfl⟩

end

end Sys2Proof.Proofs
end

section
/-! The decisions of an evaluation take effect (R504): zones in order, then grants; and the commands of the engine's own faults. -/

namespace Sys2Proof.Proofs

open Sys2Proof.Machine

/-! ### One zone -/

/-- A decision about the zone is due. -/
def ZoneDue (now : Nat) (b : Block) (z : Nat) : Prop := ∃ e d, (b.zoneAt z).due = some (e, d) ∧ e ≤ now

/-- A zone whose decision, if one is due, has come into force. -/
def zoneTaken (now : Nat) (x : Zone) : Zone :=
  match x.due with
  | some (e, d) => if e ≤ now then { x with due := none, inForce := d } else x
  | none => x

/-- What a zone that demands does to one of its axes, by its category. -/
def zoneAct (now : Nat) (cat : Bool) (a : Nat) (b : Block) : Block := if cat then beginStop now false a b else beginReact now 0 a b

/-- The frame of decisions: the zones, and what the engine does to axes. -/
def ZoneFrame (b c : Block) : Prop := OnlyEngine { b with sf := { b.sf with zones := c.sf.zones } } c

theorem zoneFrame_refl (b : Block) : ZoneFrame b b := rfl

theorem zoneFrame_trans {b c d : Block} (h : ZoneFrame b c) (h' : ZoneFrame c d) : ZoneFrame b d := by
  unfold ZoneFrame OnlyEngine at *; rw [h', h]

theorem zoneFrame_engine {b c d : Block} (h : ZoneFrame b c) (h' : OnlyEngine c d) : ZoneFrame b d := by
  refine zoneFrame_trans h ?_
  unfold ZoneFrame; rw [zones_of_engine h']; exact h'

theorem cfg_of_zoneFrame {b c : Block} (h : ZoneFrame b c) : c.cfg = b.cfg := by rw [h]

theorem run_of_zoneFrame {b c : Block} (h : ZoneFrame b c) : c.run = b.run := by rw [h]

theorem zoneAxes_congr {b c : Block} (h : ZoneFrame b c) (z : Nat) : zoneAxes c z = zoneAxes b z := by
  unfold zoneAxes sfAxes; rw [run_of_zoneFrame h, cfg_of_zoneFrame h]
  simp only [slotTy_of_cfg (cfg_of_zoneFrame h)]

theorem mem_zoneAxes {b : Block} {t j z : Nat} (hj : j < 16) :
    axNo t j ∈ zoneAxes b z ↔ (t < b.run.tileSet ∧ slotTy b t j ≠ .unused) ∧ bit (Fld.SF_AX_CFG_ZONES b.cfg (axNo t j)) z = true := by
  unfold zoneAxes; rw [List.mem_filter, mem_sfAxes hj]

theorem zoneAct_beside (now : Nat) (cat : Bool) (a : Nat) (b : Block) : Beside a b (zoneAct now cat a b) := by
  cases cat
  · exact beginReact_beside _ _ _ _
  · exact beginStop_beside _ _ _ _

section
variable {now z : Nat} {b : Block}

theorem zoneEffect_not_due (h : ¬ZoneDue now b z) : zoneEffect now z b = b := by
  unfold zoneEffect; dsimp only; split
  · next e d hd => exact if_neg fun hle => h ⟨e, d, hd, hle⟩
  · rfl

/-- A due decision comes into force, and a new demand acts on the axes of its zone. -/
theorem zoneEffect_due {e : Nat} {d : Bool} (hd : (b.zoneAt z).due = some (e, d)) (hle : e ≤ now) : zoneEffect now z b =
    if d && !(b.zoneAt z).inForce then
      forL (zoneAxes b z) (zoneAct now (Fld.SF_ZONE_CFG_CAT b.cfg z)) (b.zoneUpd z fun x => { x with due := none, inForce := d })
    else b.zoneUpd z fun x => { x with due := none, inForce := d } := by
  simp only [zoneEffect, hd, hle, if_true]
  cases hcat : Fld.SF_ZONE_CFG_CAT b.cfg z <;> simp only [zoneUpd_cfg, hcat, if_true, if_false, Bool.false_eq_true] <;> rfl

theorem zoneTaken_not_due (h : ¬ZoneDue now b z) : zoneTaken now (b.zoneAt z) = b.zoneAt z := by
  unfold zoneTaken; split
  · next e d hd => exact if_neg fun hle => h ⟨e, d, hd, hle⟩
  · rfl

theorem zoneTaken_due {e : Nat} {d : Bool} (hd : (b.zoneAt z).due = some (e, d)) (hle : e ≤ now) :
    zoneTaken now (b.zoneAt z) = { b.zoneAt z with due := none, inForce := d } := by
  simp only [zoneTaken, hd, hle, if_true]

theorem nodup_zoneAxes : (zoneAxes b z).Nodup := List.Nodup.filter _ (nodup_sfAxes b)

theorem zoneAt_of_zones {b c : Block} (h : c.sf.zones = b.sf.zones) (z : Nat) : c.zoneAt z = b.zoneAt z := by unfold Block.zoneAt; rw [h]

theorem zoneUpd_frame (f : Zone → Zone) : ZoneFrame b (b.zoneUpd z f) := rfl

theorem zoneUpd_same (f : Zone → Zone) (t j : Nat) : SameAxis b (b.zoneUpd z f) t j := .of_eq rfl rfl t j

/-- One zone: the frame, the zones afterwards, and what it leaves of an axis outside it. -/
theorem zoneEffect_spec : ZoneFrame b (zoneEffect now z b) ∧
    (∀ z', (zoneEffect now z b).zoneAt z' = if z' = z then zoneTaken now (b.zoneAt z') else b.zoneAt z') ∧
    ∀ t j, (ZoneDue now b z → axNo t j ∉ zoneAxes b z) → SameAxis b (zoneEffect now z b) t j := by
  by_cases hdue : ZoneDue now b z
  · obtain ⟨e, d, hd, hle⟩ := hdue
    have hz : ∀ z', (b.zoneUpd z fun x => { x with due := none, inForce := d }).zoneAt z' = if z' = z then zoneTaken now (b.zoneAt z') else b.zoneAt z' := by
      intro z'
      by_cases hzz : z' = z
      · subst hzz; rw [if_pos rfl, zoneTaken_due hd hle, zoneAt_zoneUpd]
      · rw [if_neg hzz, zoneAt_zoneUpd_ne _ _ _ _ hzz]
    rw [zoneEffect_due hd hle]
    split
    · obtain ⟨hfr, hax⟩ := axes_loop (zoneAct now (Fld.SF_ZONE_CFG_CAT b.cfg z)) (zoneAct_beside now _) (zoneAxes b z) nodup_zoneAxes
        (b.zoneUpd z fun x => { x with due := none, inForce := d })
      refine ⟨zoneFrame_engine (zoneUpd_frame _) hfr, fun z' => ?_, fun t j h => (zoneUpd_same _ t j).trans ((hax t j).1 (h ⟨e, d, hd, hle⟩))⟩
      rw [zoneAt_of_zones (zones_of_engine hfr), hz]
    · exact ⟨zoneUpd_frame _, hz, fun t j _ => zoneUpd_same _ t j⟩
  · rw [zoneEffect_not_due hdue]
    refine ⟨zoneFrame_refl b, fun z' => ?_, fun t j _ => .refl b t j⟩
    split
    · next hzz => subst hzz; rw [zoneTaken_not_due hdue]
    · rfl

/-- A new demand acts on each axis of its zone once, in a module that left the axis as it was, and it is left so afterwards. -/
theorem zoneEffect_acts {e t j : Nat} (hd : (b.zoneAt z).due = some (e, true)) (hle : e ≤ now) (hin : (b.zoneAt z).inForce = false) (hmem : axNo t j ∈ zoneAxes b z) :
    ∃ c, c.cfg = b.cfg ∧ SameAxis b c t j ∧ SameAxis (zoneAct now (Fld.SF_ZONE_CFG_CAT b.cfg z) (axNo t j) c) (zoneEffect now z b) t j := by
  rw [zoneEffect_due hd hle, if_pos (by simp [hin])]
  obtain ⟨-, hax⟩ := axes_loop (zoneAct now (Fld.SF_ZONE_CFG_CAT b.cfg z)) (zoneAct_beside now _) (zoneAxes b z) nodup_zoneAxes
    (b.zoneUpd z fun x => { x with due := none, inForce := true })
  obtain ⟨c, hc, hsame, hacted⟩ := (hax t j).2 hmem
  exact ⟨c, (cfg_of_engine hc :), (zoneUpd_same _ t j).trans hsame, hacted⟩

end

/-! ### Every zone -/

/-- Zones one after another: the frame, the zones afterwards, and what they leave of an axis outside all that are due. -/
theorem zones_loop (now : Nat) (l : List Nat) (hn : l.Nodup) (b : Block) : ZoneFrame b (forL l (zoneEffect now) b) ∧
    (∀ z, (forL l (zoneEffect now) b).zoneAt z = if z ∈ l then zoneTaken now (b.zoneAt z) else b.zoneAt z) ∧
    ∀ t j, (∀ z ∈ l, ZoneDue now b z → axNo t j ∉ zoneAxes b z) → SameAxis b (forL l (zoneEffect now) b) t j := by
  induction l generalizing b with
  | nil => exact ⟨zoneFrame_refl b, fun z => by simp [forL], fun t j _ => .refl b t j⟩
  | cons z r ih =>
    obtain ⟨hz, hr⟩ := List.nodup_cons.1 hn
    obtain ⟨hfr, hzo, hax⟩ := zoneEffect_spec (now := now) (z := z) (b := b)
    obtain ⟨ifr, izo, iax⟩ := ih hr (zoneEffect now z b)
    have hcons : forL (z :: r) (zoneEffect now) b = forL r (zoneEffect now) (zoneEffect now z b) := rfl
    rw [hcons]
    refine ⟨zoneFrame_trans hfr ifr, fun z' => ?_, fun t j h => ?_⟩
    · rw [izo z', hzo z']
      by_cases hzz : z' = z
      · subst hzz; simp [hz]
      · simp [hzz]
    · refine (hax t j (h z List.mem_cons_self)).trans (iax t j fun z' hz' hdue => ?_)
      have hne : z' ≠ z := fun hzz => hz (hzz ▸ hz')
      rw [zoneAxes_congr hfr]
      refine h z' (List.mem_cons_of_mem z hz') ?_
      unfold ZoneDue at hdue ⊢
      rwa [hzo z', if_neg hne] at hdue

/-- Of the due zones only `z` holds the axis, and it demands anew: `z` acts on it, and no other zone touches it. -/
theorem zones_act {now e t j z : Nat} {l : List Nat} (hn : l.Nodup) (hz : z ∈ l) {b : Block} (hd : (b.zoneAt z).due = some (e, true)) (hle : e ≤ now)
    (hin : (b.zoneAt z).inForce = false) (hmem : axNo t j ∈ zoneAxes b z) (honly : ∀ z' ∈ l, ZoneDue now b z' → axNo t j ∈ zoneAxes b z' → z' = z) :
    ∃ c, c.cfg = b.cfg ∧ SameAxis b c t j ∧ SameAxis (zoneAct now (Fld.SF_ZONE_CFG_CAT b.cfg z) (axNo t j) c) (forL l (zoneEffect now) b) t j := by
  obtain ⟨l₁, l₂, rfl⟩ := List.append_of_mem hz
  obtain ⟨hn₁, hn₂, hdisj⟩ := List.nodup_append.1 hn
  obtain ⟨hz₂, hn₂⟩ := List.nodup_cons.1 hn₂
  have hz₁ : z ∉ l₁ := fun h => hdisj z h z List.mem_cons_self rfl
  have hsplit : forL (l₁ ++ z :: l₂) (zoneEffect now) b = forL l₂ (zoneEffect now) (zoneEffect now z (forL l₁ (zoneEffect now) b)) := by
    unfold forL; rw [List.foldl_append]; rfl
  obtain ⟨fr₁, zo₁, ax₁⟩ := zones_loop now l₁ hn₁ b
  generalize forL l₁ (zoneEffect now) b = b₁ at hsplit fr₁ zo₁ ax₁
  have same₁ : SameAxis b b₁ t j := ax₁ t j fun z' h' hdue hm => hz₁ (honly z' (List.mem_append_left _ h') hdue hm ▸ h')
  have hzone : b₁.zoneAt z = b.zoneAt z := by rw [zo₁ z, if_neg hz₁]
  obtain ⟨c, hcfg, hsame, hacted⟩ := zoneEffect_acts (now := now) (z := z) (b := b₁) (t := t) (j := j) (by rw [hzone]; exact hd) hle (by rw [hzone]; exact hin)
    (by rw [zoneAxes_congr fr₁]; exact hmem)
  obtain ⟨fr, zo, -⟩ := zoneEffect_spec (now := now) (z := z) (b := b₁)
  obtain ⟨-, -, ax₂⟩ := zones_loop now l₂ hn₂ (zoneEffect now z b₁)
  rw [cfg_of_zoneFrame fr₁] at hacted hcfg
  refine ⟨c, hcfg, same₁.trans hsame, ?_⟩
  rw [hsplit]
  refine hacted.trans (ax₂ t j fun z' h' hdue hm => ?_)
  have hne : z' ≠ z := fun hzz => hz₂ (hzz ▸ h')
  have hz' : z' ∉ l₁ := fun h => hdisj z' h z' (List.mem_cons_of_mem z h') rfl
  rw [zoneAxes_congr (zoneFrame_trans fr₁ fr)] at hm
  refine hne (honly z' (List.mem_append_right _ (List.mem_cons_of_mem z h')) ?_ hm)
  unfold ZoneDue at hdue ⊢
  rwa [zo z', if_neg hne, zo₁ z', if_neg hz'] at hdue

/-! ### Grants -/

section
variable {now a : Nat} {b : Block}

theorem grantEffect_not_due (h : (b.sfAxAt a).grantAt = none ∨ ∃ e, (b.sfAxAt a).grantAt = some e ∧ now < e) : grantEffect now a b = b := by
  unfold grantEffect
  obtain h | ⟨e, h, hlt⟩ := h
  · simp [reached, h]
  · simp [reached, h, hlt]

theorem grantEffect_sf {e : Nat} (h : (b.sfAxAt a).grantAt = some e) (hle : e ≤ now) : (grantEffect now a b).sfAxAt a =
    { b.sfAxAt a with permit := true, grantAt := none, stoTest := none, stoPass := some ((b.sfAxAt a).stoPass.getD now) } := by
  have hr : reached now (b.sfAxAt a).grantAt = true := by simp [reached, h, hle]
  unfold grantEffect; rw [if_pos hr]; dsimp only
  split <;> simp only [sfAxAt_natUpd, sfAxAt_sfAxUpd, firstOf_eq]

theorem grantEffect_nat {e : Nat} (h : (b.sfAxAt a).grantAt = some e) (hle : e ≤ now) (hn : isNative b (a / 16) (a % 16) = true) :
    (natOf (grantEffect now a b) a).st = if (natOf b a).st = .sto then .disabled else (natOf b a).st := by
  have hr : reached now (b.sfAxAt a).grantAt = true := by simp [reached, h, hle]
  unfold grantEffect; rw [if_pos hr]; dsimp only
  rw [if_pos (show isNative (b.sfAxUpd a _) (a / 16) (a % 16) = true from hn), natOf_natUpd, natOf_sfAxUpd]

end

/-- Grants one after another: an axis in use gets its own, another nothing. -/
theorem grants_loop (now : Nat) (b c : Block) (hcfg : c.cfg = b.cfg) : OnlyEngine c (forL (sfAxes b) (grantEffect now) c) ∧ ∀ t j, j < 16 →
    (¬(t < b.run.tileSet ∧ slotTy b t j ≠ .unused) → SameAxis c (forL (sfAxes b) (grantEffect now) c) t j) ∧
    (t < b.run.tileSet → slotTy b t j ≠ .unused →
      ∃ d, d.cfg = b.cfg ∧ SameAxis c d t j ∧ SameAxis (grantEffect now (axNo t j) d) (forL (sfAxes b) (grantEffect now) c) t j) := by
  obtain ⟨hfr, hax⟩ := axes_loop (grantEffect now) (grantEffect_beside now) (sfAxes b) (nodup_sfAxes b) c
  refine ⟨hfr, fun t j hj => ⟨fun h => (hax t j).1 (mt (mem_sfAxes hj).1 h), fun ht hu => ?_⟩⟩
  obtain ⟨d, hd, hsame, hgrant⟩ := (hax t j).2 ((mem_sfAxes hj).2 ⟨ht, hu⟩)
  exact ⟨d, (cfg_of_engine hd).trans hcfg, hsame, hgrant⟩

theorem grantAt_of_same {b c : Block} {t j : Nat} (h : SameAxis b c t j) : (c.sfAxAt (axNo t j)).grantAt = (b.sfAxAt (axNo t j)).grantAt :=
  (congrArg SfAx.grantAt h.1 :)

/-- An axis without a grant that is due is left alone by the grants. -/
theorem grants_none {now t j : Nat} {b c : Block} (hcfg : c.cfg = b.cfg) (hj : j < 16)
    (h : (c.sfAxAt (axNo t j)).grantAt = none ∨ ∃ e, (c.sfAxAt (axNo t j)).grantAt = some e ∧ now < e) : SameAxis c (forL (sfAxes b) (grantEffect now) c) t j := by
  obtain ⟨-, hax⟩ := grants_loop now b c hcfg
  obtain ⟨hout, hin⟩ := hax t j hj
  by_cases hu : t < b.run.tileSet ∧ slotTy b t j ≠ .unused
  · obtain ⟨d, -, hsame, hgrant⟩ := hin hu.1 hu.2
    rw [← grantAt_of_same hsame] at h
    rw [grantEffect_not_due h] at hgrant
    exact hsame.trans hgrant
  · exact hout hu

/-! ### The axes under a decision -/

theorem natOf_axNo {t j : Nat} (b : Block) (hj : j < 16) : natOf b (axNo t j) = b.natAt t j := by unfold natOf; rw [axNo_div hj, axNo_mod hj]

/-- An axis that neither reacts nor stops is so in every module that leaves it as it was. -/
theorem fresh_of_same {b c : Block} {t j : Nat} (hj : j < 16) (hn : isNative b t j = true) (hd : axDisabled b t j = false)
    (hr : (b.sfAxAt (axNo t j)).react = none) (hs : (b.sfAxAt (axNo t j)).stop = none) (hcfg : c.cfg = b.cfg) (hsame : SameAxis b c t j) : Fresh c (axNo t j) := by
  obtain ⟨hsf, hnat⟩ := hsame
  refine ⟨?_, ?_, by rw [hsf]; exact hr, by rw [hsf]; exact hs⟩
  · rw [axNo_div hj, axNo_mod hj, isNative_of_cfg hcfg]; exact hn
  · rw [axNo_div hj, axNo_mod hj, axDisabled_congr hn hcfg (by rw [hnat])]; exact hd

/-- What the engine's decisions of the tick `now` turn the module into. -/
def decided (now : Nat) (b : Block) : Block := forL (sfAxes b) (grantEffect now) (forL (List.range 16) (zoneEffect now) b)

theorem decisionEffect_eq {now : Nat} {b : Block} (h : b.sf.fault = false) : decisionEffect now b = decided now b := by
  simp only [decisionEffect, h, Bool.false_eq_true, if_false]; rfl

theorem decided_frame (now : Nat) (b : Block) : ZoneFrame b (decided now b) ∧ ∀ z < 16, (decided now b).zoneAt z = zoneTaken now (b.zoneAt z) := by
  obtain ⟨hfr, hz, -⟩ := zones_loop now (List.range 16) List.nodup_range b
  obtain ⟨hgr, -⟩ := grants_loop now b _ (cfg_of_zoneFrame hfr)
  refine ⟨zoneFrame_engine hfr hgr, fun z hlt => ?_⟩
  unfold decided
  rw [zoneAt_of_zones (zones_of_engine hgr), hz z, if_pos (List.mem_range.2 hlt)]

/-- No due zone holds the axis. -/
def Untouched (now : Nat) (b : Block) (a : Nat) : Prop := ∀ z < 16, ZoneDue now b z → ¬bit (Fld.SF_AX_CFG_ZONES b.cfg a) z = true

section
variable {now t j : Nat} {b : Block} (hj : j < 16)
include hj

/-- An axis that is not in use is left alone. -/
theorem decided_unused (h : b.run.tileSet ≤ t ∨ slotTy b t j = .unused) : SameAxis b (decided now b) t j := by
  have hu : ¬(t < b.run.tileSet ∧ slotTy b t j ≠ .unused) := by rintro ⟨h1, h2⟩; rcases h with h | h; exacts [by omega, h2 h]
  obtain ⟨hfr, -, hax⟩ := zones_loop now (List.range 16) List.nodup_range b
  have hz := hax t j fun z _ _ hm => hu ((mem_zoneAxes hj).1 hm).1
  exact hz.trans (((grants_loop now b _ (cfg_of_zoneFrame hfr)).2 t j hj).1 hu)

theorem zones_untouched (h : Untouched now b (axNo t j)) : SameAxis b (forL (List.range 16) (zoneEffect now) b) t j :=
  (zones_loop now (List.range 16) List.nodup_range b).2.2 t j fun z hz hdue hm => h z (List.mem_range.1 hz) hdue ((mem_zoneAxes hj).1 hm).2

/-- A grant that is due gives the permissive, and takes a native axis from STO to DISABLED. -/
theorem decided_grant (h : Untouched now b (axNo t j)) (ht : t < b.run.tileSet) (hu : slotTy b t j ≠ .unused) {e : Nat}
    (hg : (b.sfAxAt (axNo t j)).grantAt = some e) (hle : e ≤ now) : (decided now b).sfAxAt (axNo t j) =
      { b.sfAxAt (axNo t j) with permit := true, grantAt := none, stoTest := none, stoPass := some ((b.sfAxAt (axNo t j)).stoPass.getD now)
                                 fault := ((decided now b).sfAxAt (axNo t j)).fault } ∧
    (isNative b t j = true → ((decided now b).natAt t j).st = if (b.natAt t j).st = .sto then .disabled else (b.natAt t j).st) := by
  have hfr := (zones_loop now (List.range 16) List.nodup_range b).1
  obtain ⟨d, hcfg, hsame, hgrant⟩ := ((grants_loop now b _ (cfg_of_zoneFrame hfr)).2 t j hj).2 ht hu
  have hbd := (zones_untouched hj h).trans hsame
  have hgd : (d.sfAxAt (axNo t j)).grantAt = some e := (grantAt_of_same hbd).trans hg
  obtain ⟨hsf, hnat⟩ := hgrant
  change (decided now b).sfAxAt (axNo t j) = _ at hsf
  refine ⟨?_, fun hn => ?_⟩
  · rw [hsf, grantEffect_sf hgd hle, hbd.1]
  · have hst := grantEffect_nat (now := now) hgd hle (by rw [axNo_div hj, axNo_mod hj, isNative_of_cfg hcfg]; exact hn)
    rw [natOf_axNo _ hj, natOf_axNo _ hj, show (d.natAt t j).st = (b.natAt t j).st from (congrArg NatAx.st hbd.2 :)] at hst
    exact (congrArg NatAx.st hnat :).trans hst

theorem decided_no_grant (h : Untouched now b (axNo t j))
    (hg : (b.sfAxAt (axNo t j)).grantAt = none ∨ ∃ e, (b.sfAxAt (axNo t j)).grantAt = some e ∧ now < e) : SameAxis b (decided now b) t j := by
  have hz := zones_untouched hj h
  rw [← grantAt_of_same hz] at hg
  exact hz.trans (grants_none (cfg_of_zoneFrame (zones_loop now (List.range 16) List.nodup_range b).1) hj hg)

/-- A native axis that only `z` of the due zones holds, and that has no grant: the decision acts on it once, and nothing else touches it. -/
theorem decided_act {z e : Nat} (hz : z < 16) (hd : (b.zoneAt z).due = some (e, true)) (hle : e ≤ now) (hin : (b.zoneAt z).inForce = false)
    (honly : ∀ z' < 16, ZoneDue now b z' → bit (Fld.SF_AX_CFG_ZONES b.cfg (axNo t j)) z' = true → z' = z)
    (hmem : bit (Fld.SF_AX_CFG_ZONES b.cfg (axNo t j)) z = true) (ht : t < b.run.tileSet) (hu : slotTy b t j ≠ .unused)
    (hkeeps : ∀ c, c.cfg = b.cfg → SameAxis b c t j → ((zoneAct now (Fld.SF_ZONE_CFG_CAT b.cfg z) (axNo t j) c).sfAxAt (axNo t j)).grantAt = none) :
    ∃ c, c.cfg = b.cfg ∧ SameAxis b c t j ∧ SameAxis (zoneAct now (Fld.SF_ZONE_CFG_CAT b.cfg z) (axNo t j) c) (decided now b) t j := by
  obtain ⟨c, hcfg, hsame, hact⟩ := zones_act (now := now) (t := t) (j := j) List.nodup_range (List.mem_range.2 hz) hd hle hin ((mem_zoneAxes hj).2 ⟨⟨ht, hu⟩, hmem⟩)
    fun z' hz' hdue hm => honly z' (List.mem_range.1 hz') hdue ((mem_zoneAxes hj).1 hm).2
  refine ⟨c, hcfg, hsame, hact.trans (grants_none (cfg_of_zoneFrame (zones_loop now (List.range 16) List.nodup_range b).1) hj (.inl ?_))⟩
  exact (grantAt_of_same hact).trans (hkeeps c hcfg hsame)

end

end Sys2Proof.Proofs
end

section
/-! The commands of decisions and of the engine's faults (R504, R506, R510, R511, R517). -/

namespace Sys2Proof.Proofs

open Sys2Proof.Machine

/-- A command of the running module turns it into what its operation makes of it. -/
theorem turns_onRun {c : Instr} {f : Nat → Block → Block} {s : State} {y : Block} (hc : exec c s = onRun f s) (hr : s.b.run.on = true)
    (hf : f s.clk.lattice s.b = y) : Turns c s y := by
  unfold Turns; rw [hc, onRun_on f s hr, hf]

theorem gives_onRun {c : Instr} {f : Nat → Block → Block} {s : State} {P : State → Prop} (hc : exec c s = onRun f s) (hr : s.b.run.on = true)
    (hf : P { s with b := f s.clk.lattice s.b }) : Gives c s P :=
  ⟨_, by rw [hc, onRun_on f s hr], hf⟩

/-- A cycle whose diagnostics fail is a fault of the engine, with the diagnostic as its cause. -/
theorem diagCycle_fails {f : Fin 6} (hf : f ≠ 0) (s : State) : exec (.safetyDiagCycle f) s = onRun (fun now => engineFault now f) s := by
  have hv : f.val ≠ 0 := fun h => hf (Fin.ext h)
  show onRun (fun now b => if f.val = 0 then b else engineFault now f b) s = _
  simp only [hv, if_false]

theorem diagCycle_passes (s : State) : exec (.safetyDiagCycle 0) s = onRun (fun _ b => b) s := rfl

theorem engineFault_again {now cause : Nat} {b : Block} (h : b.sf.fault = true) : engineFault now cause b = b := by simp only [engineFault, h, if_true]

theorem decisionEffect_faulted {now : Nat} {b : Block} (h : b.sf.fault = true) : decisionEffect now b = b := by simp only [decisionEffect, h, if_true]

/-! ### A decision that strikes one axis -/

/-- A stop decision of zone `z`, due at `e`, is the only one due that names slot `j` of tile `t`: a native axis that runs, with no shutdown and no grant under way. -/
structure Struck (now : Nat) (b : Block) (t j z e : Nat) : Prop where
  due : (b.zoneAt z).due = some (e, true)
  past : e ≤ now
  calm : (b.zoneAt z).inForce = false
  alone : ∀ z' < 16, ZoneDue now b z' → bit (Fld.SF_AX_CFG_ZONES b.cfg (axNo t j)) z' = true → z' = z
  member : bit (Fld.SF_AX_CFG_ZONES b.cfg (axNo t j)) z = true
  tile : t < b.run.tileSet
  native : isNative b t j = true
  enabled : axDisabled b t j = false
  react : (b.sfAxAt (axNo t j)).react = none
  stop : (b.sfAxAt (axNo t j)).stop = none
  grant : (b.sfAxAt (axNo t j)).grantAt = none

section
variable {now t j z e : Nat} {b : Block} (h : Struck now b t j z e) (hj : j < 16) (hz : z < 16)
include h hj

theorem Struck.fresh {c : Block} (hc : c.cfg = b.cfg) (hs : SameAxis b c t j) : Fresh c (axNo t j) := fresh_of_same hj h.native h.enabled h.react h.stop hc hs

include hz

/-- The axis ends as the zone's category acts on it, from a block in which it stood as before. -/
theorem Struck.acted {cat : Bool} (hcat : Fld.SF_ZONE_CFG_CAT b.cfg z = cat)
    (hkeeps : ∀ c, c.cfg = b.cfg → SameAxis b c t j → ((zoneAct now cat (axNo t j) c).sfAxAt (axNo t j)).grantAt = none) :
    ∃ c, c.cfg = b.cfg ∧ SameAxis b c t j ∧ SameAxis (zoneAct now cat (axNo t j) c) (decided now b) t j := by
  subst hcat
  exact decided_act hj hz h.due h.past h.calm h.alone h.member h.tile (slotTy_ne_of_native h.native).1 hkeeps

/-- With CAT 1 the axis is commanded stopped (R517). -/
theorem decided_stops (hcat : Fld.SF_ZONE_CFG_CAT b.cfg z = true) : let y := (decided now b).sfAxAt (axNo t j)
    y.stop = some (now, false) ∧ y.permit = (b.sfAxAt (axNo t j)).permit ∧ ((decided now b).natAt t j).st = (b.natAt t j).st := by
  obtain ⟨c, hcfg, hsame, ⟨hsf, hnat⟩⟩ := h.acted hj hz hcat fun c hc hs => ((beginStop_axis (h.fresh hj hc hs)).2.2.1).trans ((grantAt_of_same hs).trans h.grant)
  obtain ⟨hstop, hpermit, -, hstate⟩ := beginStop_axis (now := now) (h.fresh hj hcfg hsame)
  rw [natOf_axNo _ hj, natOf_axNo _ hj] at hstate
  exact ⟨(congrArg SfAx.stop hsf :).trans hstop, (congrArg SfAx.permit hsf :).trans (hpermit.trans (congrArg SfAx.permit hsame.1 :)),
    (congrArg NatAx.st hnat :).trans (hstate.trans (congrArg NatAx.st hsame.2 :))⟩

/-- With CAT 0 an axis without a brake is STO at once (R511). -/
theorem decided_unbraked (hcat : Fld.SF_ZONE_CFG_CAT b.cfg z = false) (hbr : brakeOf b (axNo t j) = none) : let y := (decided now b).sfAxAt (axNo t j)
    ((decided now b).natAt t j).st = .sto ∧ ((decided now b).natAt t j).gate = false ∧ y.permit = false ∧
      ((b.sfAxAt (axNo t j)).grace = none → y.flt = (b.sfAxAt (axNo t j)).flt) := by
  have hbrake : ∀ c : Block, c.cfg = b.cfg → brakeOf c (axNo t j) = none := fun c hc => (brakeOf_of_cfg hc _).trans hbr
  obtain ⟨c, hcfg, hsame, ⟨hsf, hnat⟩⟩ := h.acted hj hz hcat fun c hc hs => (beginReact_unbraked (h.fresh hj hc hs) (hbrake c hc)).2.2.2.2
  obtain ⟨hsto, hgate, hpermit, hflt, -⟩ := beginReact_unbraked (now := now) (h.fresh hj hcfg hsame) (hbrake c hcfg)
  rw [natOf_axNo _ hj] at hsto hgate
  refine ⟨(congrArg NatAx.st hnat :).trans hsto, (congrArg NatAx.gate hnat :).trans hgate, (congrArg SfAx.permit hsf :).trans hpermit, fun hgrace => ?_⟩
  refine (congrArg SfAx.flt hsf :).trans (hflt.trans ?_)
  rw [hsame.1]; simp [hgrace]

/-- With CAT 0 an axis with a brake is held while the brake engages, and keeps its permissive until then (R511). -/
theorem decided_braked (hcat : Fld.SF_ZONE_CFG_CAT b.cfg z = false) (hbr : brakeOf b (axNo t j) ≠ none) (hcmd : (b.sfAxAt (axNo t j)).brkCmd = true)
    (heng : 0 < Fld.SF_AX_TIME_BRK_ENG_T b.cfg (axNo t j)) : let x := b.sfAxAt (axNo t j)
    let y := (decided now b).sfAxAt (axNo t j)
    ((decided now b).natAt t j).st = .faultHold ∧ ((decided now b).natAt t j).hold ≠ none ∧ y.brkCmd = false ∧ y.rmAt = some (now + Fld.SF_AX_TIME_BRK_ENG_T b.cfg (axNo t j) * 1000000) ∧
      y.permit = x.permit ∧ y.flt = x.flt := by
  have hbrake : ∀ c : Block, c.cfg = b.cfg → brakeOf c (axNo t j) ≠ none := fun c hc => by rw [brakeOf_of_cfg hc]; exact hbr
  have hcmd' : ∀ c : Block, SameAxis b c t j → (c.sfAxAt (axNo t j)).brkCmd = true := fun c hs => (congrArg SfAx.brkCmd hs.1 :).trans hcmd
  have hns : ∀ c : Block, c.cfg = b.cfg → 0 < engNs c (axNo t j) := fun c hc => by rw [engNs_of_cfg hc]; exact Nat.mul_pos heng (by decide)
  obtain ⟨c, hcfg, hsame, ⟨hsf, hnat⟩⟩ := h.acted hj hz hcat fun c hc hs =>
    (beginReact_braked (h.fresh hj hc hs) (hbrake c hc) (hcmd' c hs) (hns c hc)).2.2.2.2.2.2.trans ((grantAt_of_same hs).trans h.grant)
  obtain ⟨hst, hhold, hbrk, hrm, hpermit, hflt, -⟩ := beginReact_braked (now := now) (h.fresh hj hcfg hsame) (hbrake c hcfg) (hcmd' c hsame) (hns c hcfg)
  rw [natOf_axNo _ hj] at hst hhold
  rw [engNs_of_cfg hcfg] at hrm
  refine ⟨(congrArg NatAx.st hnat :).trans hst, ?_, (congrArg SfAx.brkCmd hsf :).trans hbrk, (congrArg SfAx.rmAt hsf :).trans hrm,
    (congrArg SfAx.permit hsf :).trans (hpermit.trans (congrArg SfAx.permit hsame.1 :)), (congrArg SfAx.flt hsf :).trans (hflt.trans (congrArg SfAx.flt hsame.1 :))⟩
  exact fun hn => hhold ((congrArg NatAx.hold hnat :).symm.trans hn)

end

/-- Settles O46: a fault of the engine by `engineFault_axes`, decisions by the zones that are due and the grants that follow them, a struck axis by its zone's category. -/
theorem safetyDecisions : Obligations.SafetyDecisions := by
  intro s hrun
  dsimp only
  refine ⟨fun hf => ⟨turns_onRun (exec_safetyDecisionEffect s) hrun (decisionEffect_faulted hf), turns_onRun (exec_engineStall s) hrun (engineFault_again hf), fun f => ?_⟩,
    turns_onRun (diagCycle_passes s) hrun rfl, fun hf => ?_, fun f hf h0 => ?_, fun hf => ?_⟩
  · by_cases h0 : f = 0
    · subst h0; exact turns_onRun (diagCycle_passes s) hrun rfl
    · exact turns_onRun (diagCycle_fails h0 s) hrun (engineFault_again hf)
  · obtain ⟨hfr, hax⟩ := engineFault_axes s.clk.lattice 1 s.b hf
    refine gives_onRun (exec_engineStall s) hrun ⟨rfl, hfr, fun t j ht hu => ?_⟩
    obtain ⟨⟨hp, hb, hg, hr⟩, hn⟩ := hax t j j.isLt ht hu
    exact ⟨hp, hb, hg, hr, hn⟩
  · obtain ⟨hfr, hax⟩ := engineFault_axes s.clk.lattice f s.b hf
    refine gives_onRun (diagCycle_fails h0 s) hrun ⟨rfl, hfr, fun t j ht hu => ?_⟩
    obtain ⟨⟨hp, hb, hg, hr⟩, hn⟩ := hax t j j.isLt ht hu
    exact ⟨hp, hb, hg, hr, hn⟩
  · refine gives_onRun (exec_safetyDecisionEffect s) hrun ?_
    dsimp only
    rw [decisionEffect_eq hf]
    obtain ⟨hfr, hzones⟩ := decided_frame s.clk.lattice s.b
    refine ⟨rfl, hfr, fun z => ⟨fun e d hd hle => ?_, fun hnd => ?_⟩, fun t j => ⟨decided_unused j.isLt, fun ht hu hz => ?_, ?_⟩⟩
    · rw [hzones z z.isLt, zoneTaken_due hd hle]
    · rw [hzones z z.isLt, zoneTaken_not_due hnd]
    · have huntouched : Untouched s.clk.lattice s.b (axNo t j) := fun z hz' hdue => hz ⟨z, hz'⟩ hdue
      exact ⟨fun e hg hle => decided_grant j.isLt huntouched ht hu hg hle, decided_no_grant j.isLt huntouched⟩
    · intro z e hd hle hin honly hmem ht hn hen hre hst hgr
      have honly' : ∀ z' < 16, ZoneDue s.clk.lattice s.b z' → bit (Fld.SF_AX_CFG_ZONES s.b.cfg (axNo t j)) z' = true → z' = z.val := fun z' h' hdue hm =>
        congrArg Fin.val (honly ⟨z', h'⟩ hdue hm)
      have hstruck : Struck s.clk.lattice s.b t j z e := ⟨hd, hle, hin, honly', hmem, ht, hn, hen, hre, hst, hgr⟩
      exact ⟨decided_stops hstruck j.isLt z.isLt, decided_unbraked hstruck j.isLt z.isLt, decided_braked hstruck j.isLt z.isLt⟩

end Sys2Proof.Proofs
end

section
/-! The end of a session, and what the hub does with its other commands (R91, R576). -/

namespace Sys2Proof.Proofs

open Sys2Proof.Machine

/-! ### Commands of the hub -/

/-- A command of the hub turns it into what its operation makes of it. -/
theorem turns_onHub {c : Instr} {f : Nat → Block → Block} {s : State} {y : Block} (hc : exec c s = onHub f s) (hu : s.clk.up = true)
    (hf : f s.clk.lattice s.b = y) : Turns c s y := by
  unfold Turns; rw [hc, onHub_up f s hu, hf]

theorem gives_onHub {c : Instr} {f : Nat → Block → Block} {s : State} {P : State → Prop} (hc : exec c s = onHub f s) (hu : s.clk.up = true)
    (hf : P { s with b := f s.clk.lattice s.b }) : Gives c s P :=
  ⟨_, by rw [hc, onHub_up f s hu], hf⟩

/-! ### The end of a session -/

/-- The action under way once bank `k` has gone: its result has no bank to go to. -/
def detach (k : Nat) (op : Option SecOp) : Option SecOp := op.map fun o => if o.bank = k then { o with bank := 11 } else o

theorem sessEnd_closed {now k : Nat} {b : Block} (h : (b.sessAt k).st = .closed) : sessEnd now k b = b := by simp only [sessEnd, h, if_true]

/-- The commit engine after the owner of a commit that was being checked has gone: staging is empty, CM_RESULT says so. -/
def orphaned (b : Block) : Commit := { (stagingEmpty (setResult { code := 0x1E, item := some 0 } b)).cm with rise := false }

theorem cmReject_session (now : Nat) (b : Block) : cmReject now { code := 0x1E, item := some 0 } b =
    { b with cm := orphaned b, net := { b.net with next := none }, draws := b.draws + 1,
             paceChanging := b.paceChanging || b.cm.rise, paceEnd := if b.cm.rise then now + 2000000 else b.paceEnd } := by
  cases hr : b.cm.rise <;> simp [cmReject, riseBack, stagingEmpty, setResult, orphaned, hr]

/-- A commit survives the end of session `k`: another owns it, or it has been accepted. -/
def Survives (k : Nat) (cm : Commit) : Prop := cm.owner ≠ some k ∨ cm.ph = .accepted ∨ cm.ph = .go

theorem commitSessEnd_survives {now k : Nat} {b : Block} (h : Survives k b.cm) : commitSessEnd now k b = b := by
  unfold commitSessEnd
  rcases h with h | h | h
  · rw [if_neg h]
  · rw [h]; exact ite_self _
  · rw [h]; exact ite_self _

theorem commitSessEnd_idle {now k : Nat} {b : Block} (ho : b.cm.owner = some k) (h : b.cm.ph = .idle) : commitSessEnd now k b = stagingEmpty b := by
  unfold commitSessEnd; rw [if_pos ho, h]

theorem commitSessEnd_checking {now k : Nat} {b : Block} (ho : b.cm.owner = some k) (h : b.cm.ph = .checking) :
    commitSessEnd now k b = cmReject now { code := 0x1E, item := some 0 } b := by
  unfold commitSessEnd; rw [if_pos ho, h]

/-- Three ways a session's end meets the commit engine. -/
theorem survives_or (k : Nat) (cm : Commit) : Survives k cm ∨ (¬Survives k cm ∧ cm.owner = some k ∧ (cm.ph = .idle ∨ cm.ph = .checking)) := by
  unfold Survives
  by_cases ho : cm.owner = some k
  · cases hp : cm.ph <;> simp [ho]
  · exact .inl (.inl ho)

/-- What a session's end makes of sessions, banks and the action under way. -/
def sessGone (k : Nat) (b : Block) : Block :=
  { b with sess := (b.sessUpd k sessClear).sess, tr := { (b.bankUpd k fun _ => {}).tr with op := detach k b.tr.op } }

theorem sessEnd_commit {now k : Nat} {b : Block} (h : (b.sessAt k).st ≠ .closed) :
    sessEnd now k b = { commitSessEnd now k (b.sessUpd k sessClear) with
      tr := { ((commitSessEnd now k (b.sessUpd k sessClear)).bankUpd k fun _ => {}).tr with op := detach k (commitSessEnd now k (b.sessUpd k sessClear)).tr.op } } := by
  simp only [sessEnd, h, if_false]
  generalize commitSessEnd now k (b.sessUpd k sessClear) = c
  cases ho : c.tr.op with
  | none => simp [Block.bankUpd, detach, ho]
  | some o => by_cases hb : o.bank = k <;> simp [Block.bankUpd, detach, ho, hb]

theorem sessEnd_survives {now k : Nat} {b : Block} (h : (b.sessAt k).st ≠ .closed) (hs : Survives k b.cm) : sessEnd now k b = sessGone k b := by
  rw [sessEnd_commit h, commitSessEnd_survives (b := b.sessUpd k sessClear) hs]; rfl

theorem sessEnd_idle {now k : Nat} {b : Block} (h : (b.sessAt k).st ≠ .closed) (ho : b.cm.owner = some k) (hp : b.cm.ph = .idle) :
    sessEnd now k b = { sessGone k b with cm := (stagingEmpty b).cm } := by
  rw [sessEnd_commit h, commitSessEnd_idle (b := b.sessUpd k sessClear) ho hp]; rfl

theorem sessEnd_checking {now k : Nat} {b : Block} (h : (b.sessAt k).st ≠ .closed) (ho : b.cm.owner = some k) (hp : b.cm.ph = .checking) :
    sessEnd now k b = { sessGone k b with
      cm := orphaned b, net := { b.net with next := none }, draws := b.draws + 1
      paceChanging := b.paceChanging || b.cm.rise, paceEnd := if b.cm.rise then now + 2000000 else b.paceEnd } := by
  rw [sessEnd_commit h, commitSessEnd_checking (b := b.sessUpd k sessClear) ho hp, cmReject_session]; rfl

/-- Whatever becomes of the commit engine, sessions and trust are those of `sessGone`. -/
theorem sessEnd_gone {now k : Nat} {b : Block} (h : (b.sessAt k).st ≠ .closed) :
    (sessEnd now k b).sess = (sessGone k b).sess ∧ (sessEnd now k b).tr = (sessGone k b).tr := by
  rcases survives_or k b.cm with hs | ⟨-, ho, hp | hp⟩
  · rw [sessEnd_survives h hs]; exact ⟨rfl, rfl⟩
  · rw [sessEnd_idle h ho hp]; exact ⟨rfl, rfl⟩
  · rw [sessEnd_checking h ho hp]; exact ⟨rfl, rfl⟩

/-- What the end of a session may change (R576). -/
def OnlySession (b c : Block) : Prop :=
  c = { b with sess := c.sess, tr := { b.tr with banks := c.tr.banks, op := c.tr.op }, cm := c.cm, net := { b.net with next := c.net.next }, draws := c.draws
               paceChanging := c.paceChanging, paceEnd := c.paceEnd }

theorem OnlySession.trans {b c d : Block} (h : OnlySession b c) (h' : OnlySession c d) : OnlySession b d := by unfold OnlySession at *; rw [h', h]

theorem sessEnd_session (now k : Nat) (b : Block) : OnlySession b (sessEnd now k b) := by
  by_cases h : (b.sessAt k).st = .closed
  · rw [sessEnd_closed h]; rfl
  · rcases survives_or k b.cm with hs | ⟨-, ho, hp | hp⟩
    · rw [sessEnd_survives h hs]; rfl
    · rw [sessEnd_idle h ho hp]; rfl
    · rw [sessEnd_checking h ho hp]; rfl

theorem sessEndAll_session (now : Nat) (b : Block) : OnlySession b (sessEndAll now b) :=
  forL_keeps (OnlySession b) _ _ _ (fun _ _ h => h.trans (sessEnd_session _ _ _)) rfl

theorem sessEndAll_nv (now : Nat) (b : Block) : (sessEndAll now b).nv = b.nv := by rw [sessEndAll_session]

theorem sessEndAll_bk (now : Nat) (b : Block) : (sessEndAll now b).bk = b.bk := by rw [sessEndAll_session]

theorem sessAt_sessEnd (now k : Nat) (b : Block) : ((sessEnd now k b).sessAt k).st = .closed := by
  by_cases h : (b.sessAt k).st = .closed
  · rw [sessEnd_closed h, h]
  · have hs : (sessEnd now k b).sessAt k = (b.sessUpd k sessClear).sessAt k := congrArg (fun t => tabGet ({} : Sess) t k) (sessEnd_gone h).1
    rw [hs, sessAt_sessUpd]; rfl

theorem sessAt_sessEnd_ne {now k q : Nat} {b : Block} (hq : q ≠ k) : (sessEnd now k b).sessAt q = b.sessAt q := by
  by_cases h : (b.sessAt k).st = .closed
  · rw [sessEnd_closed h]
  · exact (congrArg (fun t => tabGet ({} : Sess) t q) (sessEnd_gone h).1).trans (sessAt_sessUpd_ne b k q sessClear hq)

end Sys2Proof.Proofs
end

section
/-! A tamper detection with ZEROISE (R584): port keys, sessions and a store in progress go. -/

namespace Sys2Proof.Proofs

open Sys2Proof.Machine

/-- A loop whose round `k` establishes `P k`, which no other round undoes, ends with every `P k`. -/
theorem forN_each {P : Nat → Block → Prop} {f : Nat → Block → Block} (hit : ∀ k b, P k (f k b)) (keep : ∀ k i b, i ≠ k → P k b → P k (f i b))
    (n : Nat) (b : Block) : ∀ k < n, P k (forN n f b) := by
  induction n with
  | zero => exact fun k hk => absurd hk (Nat.not_lt_zero k)
  | succ n ih =>
    intro k hk
    have hlast : forN (n + 1) f b = f n (forN n f b) := by simp [forN, List.range_succ]
    rw [hlast]
    by_cases hn : k = n
    · rw [hn]; exact hit n _
    · exact keep k n _ (Ne.symm hn) (ih k (by omega))

/-- After the end of every session none is left. -/
theorem sessEndAll_closed (now : Nat) (b : Block) (k : Nat) (hk : k < 8) : ((sessEndAll now b).sessAt k).st = .closed :=
  forN_each (P := fun k c => (c.sessAt k).st = .closed) (sessAt_sessEnd now)
    (fun k i c hi h => by rw [sessAt_sessEnd_ne (Ne.symm hi)]; exact h) 8 b k hk

/-! ### The keys of the ports -/

/-- What the loss of the port keys may change: the ports, the hub's records of networked slots, the draws, and what a fault of axes reaches. -/
def OnlyPorts (b c : Block) : Prop :=
  c = { b with bl := c.bl, blnx := c.blnx, draws := c.draws, nat := c.nat, gen := c.gen, pulse := c.pulse, plg := c.plg, follow := c.follow, nx := c.nx, aq := c.aq, qd := c.qd
               sf := { b.sf with axes := c.sf.axes } }

theorem OnlyPorts.trans {b c d : Block} (h : OnlyPorts b c) (h' : OnlyPorts c d) : OnlyPorts b d := by unfold OnlyPorts at *; rw [h', h]

theorem ports_of_faults {b c : Block} (h : OnlyFaults b c) : OnlyPorts b c ∧ c.bl = b.bl := by
  obtain ⟨h, -⟩ := h
  exact ⟨by unfold OnlyPorts; rw [h], by rw [h]⟩

/-- The frame of the loss of a networked source: no port changes. -/
def OnlyLost (b c : Block) : Prop := OnlyPorts b c ∧ c.bl = b.bl

theorem OnlyLost.refl (b : Block) : OnlyLost b b := ⟨rfl, rfl⟩

theorem OnlyLost.trans {b c d : Block} (h : OnlyLost b c) (h' : OnlyLost c d) : OnlyLost b d := ⟨h.1.trans h'.1, h'.2.trans h.2⟩

theorem axFault_lost (now cause t j : Nat) (b : Block) : OnlyLost b (axFault now cause t j b) := ports_of_faults (axFault_only now cause t j b)

theorem fallbackLost_lost (now t src : Nat) (b : Block) : OnlyLost b (fallbackLost now t src b) := by
  refine forL_keeps (OnlyLost b) _ _ _ (fun q c h => h.trans ?_) (.refl b)
  split
  · exact axFault_lost _ _ _ _ c
  · exact .refl c

theorem nxLose_lost (now k : Nat) (b : Block) : OnlyLost b (nxLose now k b) := by
  unfold nxLose
  split
  · exact .refl b
  · exact (OnlyLost.trans (c := b.blnxUpd k fun x => { x with lost := true }) ⟨rfl, rfl⟩ (fallbackLost_lost _ _ _ _)).trans (axFault_lost _ _ _ _ _)

/-- A new state of a port reads as the update left it, and no other port changes. -/
theorem blSet_ports (now p : Nat) (f : BlPort → BlPort) (b : Block) : OnlyPorts b (blSet now p f b) ∧ (blSet now p f b).bl = (b.blUpd p f).bl := by
  unfold blSet
  dsimp only
  have hupd : OnlyPorts b (b.blUpd p f) := rfl
  split
  · obtain ⟨hports, hbl⟩ := forL_keeps (OnlyLost (b.blUpd p f)) (nxOfPort (b.blUpd p f) p) (nxLose now) _ (fun k c h => h.trans (nxLose_lost now k c)) (.refl _)
    exact ⟨hupd.trans hports, hbl⟩
  · exact ⟨hupd, rfl⟩

theorem blAt_congr {b c : Block} (h : b.bl = c.bl) (p : Nat) : b.blAt p = c.blAt p := congrArg (fun t => tabGet ({} : BlPort) t p) h

theorem blSet_at (now p : Nat) (f : BlPort → BlPort) (b : Block) : (blSet now p f b).blAt p = f (b.blAt p) :=
  (blAt_congr (blSet_ports now p f b).2 p).trans (blAt_blUpd b p f)

theorem blSet_at_ne {now p q : Nat} (f : BlPort → BlPort) {b : Block} (hq : q ≠ p) : (blSet now p f b).blAt q = b.blAt q :=
  (blAt_congr (blSet_ports now p f b).2 q).trans (blAt_blUpd_ne b p q f hq)

theorem keyOffer_ports (p : Nat) (b : Block) : OnlyPorts b (keyOffer p b) := rfl

theorem nextDraw_blAt (b : Block) (p : Nat) : (nextDraw b).blAt p = b.blAt p := rfl

theorem keyOffer_at_ne {p q : Nat} {b : Block} (hq : q ≠ p) : (keyOffer p b).blAt q = b.blAt q := by
  unfold keyOffer
  dsimp only
  rw [nextDraw_blAt, blAt_blUpd_ne _ _ _ _ hq]

/-- A port without its key: it is not in RUN, and holds none. -/
def Keyless (p : Nat) (b : Block) : Prop := (b.blAt p).st ≠ .run ∧ (b.blAt p).key.ok = false ∧ (b.blAt p).key.key = []

theorem Keyless.of_at {p : Nat} {b c : Block} (h : Keyless p b) (ha : c.blAt p = b.blAt p) : Keyless p c := by unfold Keyless; rw [ha]; exact h

theorem keyOffer_keyless {p : Nat} {b : Block} (h : Keyless p b) : Keyless p (keyOffer p b) := by
  unfold Keyless keyOffer
  dsimp only
  rw [nextDraw_blAt, blAt_blUpd]
  exact h

theorem blIntegrate_ports (now p : Nat) (b : Block) : OnlyPorts b (blIntegrate now p b) := by
  unfold blIntegrate
  dsimp only
  split
  · exact (blSet_ports _ _ _ b).1.trans (keyOffer_ports p _)
  · exact (blSet_ports _ _ _ b).1

theorem blIntegrate_keyless (now p : Nat) (b : Block) : Keyless p (blIntegrate now p b) := by
  have hset : ∀ f : BlPort → BlPort, (f (b.blAt p)).st = .integrating → (f (b.blAt p)).key.ok = false → (f (b.blAt p)).key.key = [] → Keyless p (blSet now p f b) := by
    intro f hst hok hkey
    unfold Keyless
    rw [blSet_at, hst]
    exact ⟨by decide, hok, hkey⟩
  unfold blIntegrate
  dsimp only
  split
  · exact keyOffer_keyless (hset _ rfl rfl rfl)
  · exact hset _ rfl rfl rfl

theorem blIntegrate_at_ne {now p q : Nat} {b : Block} (hq : q ≠ p) : (blIntegrate now p b).blAt q = b.blAt q := by
  unfold blIntegrate
  dsimp only
  split
  · rw [keyOffer_at_ne hq, blSet_at_ne _ hq]
  · rw [blSet_at_ne _ hq]

/-- Port `p` loses its key if it is sealed (R584). -/
def portKeyGone (now p : Nat) (x : Block) : Block :=
  if Fld.BL_PORT_CFG_SEAL x.cfg p then
    if (x.blAt p).st = .run then blIntegrate now p x
    else x.blUpd p fun pt => { pt with key := { pt.key with ok := false, key := [], keyId := 0, kex := 0, next := [], activate := none } }
  else x

theorem portKeysGone_eq (now : Nat) (b : Block) : portKeysGone now b = forN 12 (portKeyGone now) b := rfl

theorem portKeyGone_ports (now p : Nat) (x : Block) : OnlyPorts x (portKeyGone now p x) := by
  unfold portKeyGone
  split
  · split
    · exact blIntegrate_ports now p x
    · rfl
  · rfl

theorem portKeyGone_keyless (now p : Nat) (x : Block) (hs : Fld.BL_PORT_CFG_SEAL x.cfg p = true) : Keyless p (portKeyGone now p x) := by
  unfold portKeyGone
  rw [if_pos hs]
  split
  · exact blIntegrate_keyless now p x
  · next hrun =>
    unfold Keyless
    rw [blAt_blUpd]
    exact ⟨hrun, rfl, rfl⟩

theorem portKeyGone_at_ne {now p q : Nat} {x : Block} (hq : q ≠ p) : (portKeyGone now p x).blAt q = x.blAt q := by
  unfold portKeyGone
  split
  · split
    · exact blIntegrate_at_ne hq
    · exact blAt_blUpd_ne x p q _ hq
  · rfl

theorem cfg_of_ports {b c : Block} (h : OnlyPorts b c) : c.cfg = b.cfg := by rw [h]

theorem portKeysGone_ports (now : Nat) (b : Block) : OnlyPorts b (portKeysGone now b) :=
  forL_keeps (OnlyPorts b) _ _ _ (fun _ _ h => h.trans (portKeyGone_ports _ _ _)) rfl

theorem portKeysGone_keyless (now : Nat) (b : Block) (p : Nat) (hp : p < 12) (hs : Fld.BL_PORT_CFG_SEAL b.cfg p = true) : Keyless p (portKeysGone now b) := by
  have hgone := forN_each (P := fun p x => Fld.BL_PORT_CFG_SEAL x.cfg p = true → Keyless p x) (f := portKeyGone now)
    (fun k x h => portKeyGone_keyless now k x (by rwa [cfg_of_ports (portKeyGone_ports now k x)] at h))
    (fun k i x hi hx h => (hx (by rwa [cfg_of_ports (portKeyGone_ports now i x)] at h)).of_at (portKeyGone_at_ne (Ne.symm hi))) 12 b p hp
  rw [portKeysGone_eq]
  exact hgone (by rwa [← portKeysGone_eq, cfg_of_ports (portKeysGone_ports now b)])

/-! ### The detection -/

theorem storeAbandon_none (b : Block) : (storeAbandon b).storeOp = none := by
  unfold storeAbandon
  cases h : b.storeOp with
  | none => exact h
  | some o => rfl

theorem storeAbandon_st (b : Block) : (b.storeOp ≠ none → (storeAbandon b).storeSt = 4) ∧ (b.storeOp = none → (storeAbandon b).storeSt = b.storeSt) := by
  unfold storeAbandon
  cases h : b.storeOp with
  | none => exact ⟨fun h => absurd rfl h, fun _ => rfl⟩
  | some o => exact ⟨fun _ => rfl, fun h => nomatch h⟩

/-- The frame of an abandoned store. -/
theorem storeAbandon_frame (b : Block) : storeAbandon b = { b with storeOp := (storeAbandon b).storeOp, storeSt := (storeAbandon b).storeSt } := by
  unfold storeAbandon
  split <;> rfl

/-- What a tamper detection with ZEROISE does beside its marks (R584). -/
def zeroise (now : Nat) (b : Block) : Block := sessEndAll now (storeAbandon (portKeysGone now b))

/-- The frame of ZEROISE: NVM, backup domain, registers, memory, image stand; the ports are those left without keys. -/
def OnlyZeroise (b c : Block) : Prop :=
  c.nv = b.nv ∧ c.bk = b.bk ∧ c.cfg = b.cfg ∧ c.mem = b.mem ∧ c.run = b.run

theorem OnlyZeroise.trans {b c d : Block} (h : OnlyZeroise b c) (h' : OnlyZeroise c d) : OnlyZeroise b d := by
  obtain ⟨h1, h2, h3, h4, h5⟩ := h
  obtain ⟨k1, k2, k3, k4, k5⟩ := h'
  exact ⟨k1.trans h1, k2.trans h2, k3.trans h3, k4.trans h4, k5.trans h5⟩

theorem zeroise_frame (now : Nat) (b : Block) : OnlyZeroise b (zeroise now b) := by
  have hp : OnlyZeroise b (portKeysGone now b) := by rw [portKeysGone_ports now b]; exact ⟨rfl, rfl, rfl, rfl, rfl⟩
  have hs : ∀ c : Block, OnlyZeroise c (storeAbandon c) := fun c => by rw [storeAbandon_frame]; exact ⟨rfl, rfl, rfl, rfl, rfl⟩
  have he : ∀ c : Block, OnlyZeroise c (sessEndAll now c) := fun c => by rw [sessEndAll_session now c]; exact ⟨rfl, rfl, rfl, rfl, rfl⟩
  exact hp.trans ((hs _).trans (he _))

theorem zeroise_store (now : Nat) (b : Block) :
    (zeroise now b).storeOp = none ∧ (b.storeOp ≠ none → (zeroise now b).storeSt = 4) ∧ (b.storeOp = none → (zeroise now b).storeSt = b.storeSt) := by
  have hop : (zeroise now b).storeOp = (storeAbandon (portKeysGone now b)).storeOp := by unfold zeroise; rw [sessEndAll_session]
  have hst : (zeroise now b).storeSt = (storeAbandon (portKeysGone now b)).storeSt := by unfold zeroise; rw [sessEndAll_session]
  have hpop : (portKeysGone now b).storeOp = b.storeOp := by rw [portKeysGone_ports now b]
  have hpst : (portKeysGone now b).storeSt = b.storeSt := by rw [portKeysGone_ports now b]
  obtain ⟨hsome, hnone⟩ := storeAbandon_st (portKeysGone now b)
  rw [hpop, hpst] at *
  exact ⟨hop.trans (storeAbandon_none _), fun h => hst.trans (hsome h), fun h => hst.trans (hnone h)⟩

theorem zeroise_keyless (now : Nat) (b : Block) (p : Nat) (hp : p < 12) (hs : Fld.BL_PORT_CFG_SEAL b.cfg p = true) : Keyless p (zeroise now b) := by
  have hbl : (zeroise now b).bl = (portKeysGone now b).bl := by
    unfold zeroise
    rw [sessEndAll_session, storeAbandon_frame]
  exact (portKeysGone_keyless now b p hp hs).of_at (blAt_congr hbl p)

end Sys2Proof.Proofs
end

section
/-! Transitions of the life cycle (R548, R559, R565, R568). -/

namespace Sys2Proof.Proofs

open Sys2Proof.Machine

/-! ### The end of a field service (R568) -/

/-- A test that has been told to stop restores its saved tile first (R607). -/
def restoring (st : SelfTest) : SelfTest := { st with aborting := true, st := .restoring }

/-- A test that had saved no tile has ended, aborted. -/
def endedTest (st : SelfTest) : SelfTest := { st with st := .idle, result := 3, reqAt := none, aborting := false, pair := none, resume := none }

/-- The self-test after an abort. -/
def abortedTest (b : Block) : SelfTest :=
  if testRuns b = false then b.hl.st else if b.hl.st.tile ≠ none then restoring b.hl.st else endedTest b.hl.st

/-- A block with another self-test state. -/
def withTest (b : Block) (st : SelfTest) : Block := { b with hl := { b.hl with st := st } }

theorem stAbort_none (now : Nat) {b : Block} (hr : testRuns b = false) : stAbort now b = b := by simp [stAbort, hr]

theorem stAbort_saved (now : Nat) {b : Block} (hr : testRuns b = true) (ht : b.hl.st.tile ≠ none) : stAbort now b = withTest b (restoring b.hl.st) := by
  have hs : b.hl.st.tile.isSome = true := Option.isSome_iff_ne_none.2 ht
  simp [stAbort, hr, hs, withTest, restoring]

theorem stAbort_ends (now : Nat) {b : Block} (hr : testRuns b = true) (ht : b.hl.st.tile = none) : OnlyLog (withTest b (endedTest b.hl.st)) (stAbort now b) := by
  have hend : stAbort now b = logEvent now 0x0050 0 (2 ^ 24 * b.hl.st.op + 2 ^ 16 * b.hl.st.target + 3) (withTest b (endedTest b.hl.st)) := by
    simp [stAbort, hr, ht, stEnd, withTest, endedTest]
  rw [hend]
  exact logEvent_log _ _ _ _ _

theorem stAbort_log (now : Nat) (b : Block) : OnlyLog (withTest b (abortedTest b)) (stAbort now b) := by
  unfold abortedTest
  cases hr : testRuns b with
  | false => rw [if_pos rfl, stAbort_none now hr]; exact rfl
  | true =>
    rw [if_neg (by decide)]
    by_cases ht : b.hl.st.tile = none
    · rw [if_neg (by simp [ht])]; exact stAbort_ends now hr ht
    · rw [if_pos ht, stAbort_saved now hr ht]; exact rfl

/-- The test access port after it has been restricted (R568). -/
def restricted (st : SelfTest) : SelfTest := { st with tap := if st.tap ≤ 1 then st.tap else 0 }

theorem withTest_log {b c : Block} (h : OnlyLog b c) (f : SelfTest → SelfTest) : OnlyLog (withTest b (f b.hl.st)) (withTest c (f c.hl.st)) := by
  unfold OnlyLog at *; rw [h]; rfl

theorem setLife_log (now : Nat) (l : Life) (b : Block) : OnlyLog { b with nv := { b.nv with life := l } } (setLife now l b) := logEvent_log _ _ _ _ _

theorem withLife_log {b c : Block} (h : OnlyLog b c) (l : Life) : OnlyLog { b with nv := { b.nv with life := l } } { c with nv := { c.nv with life := l } } := by
  unfold OnlyLog at *; rw [h]

/-- A field service ends: OWNED, the port restricted, a self-test aborted; the rest is the wear and the log of the journal's write. -/
theorem serviceEndOp_wear (now : Nat) (b : Block) :
    OnlyWear { b with nv := { b.nv with life := .owned }, hl := { b.hl with st := restricted (abortedTest b) } } (serviceEndOp now b) := by
  have htap : OnlyLog (withTest b (restricted (abortedTest b))) (tapRestrict (stAbort now b)) := withTest_log (stAbort_log now b) restricted
  exact (OnlyLog.trans (withLife_log htap .owned) (setLife_log now .owned (tapRestrict (stAbort now b)))).wear.trans (nvWrite_wear now _)

/-! ### Transitions (R559) -/

theorem eraseFor_log {b c : Block} (h : OnlyLog b c) (l : Life) : OnlyLog (eraseFor l b) (eraseFor l c) := by
  unfold OnlyLog at *
  rw [h]
  cases l <;> rfl

/-- What a completed journal makes of the module, but for the wear and the log of its write. -/
def journaled (j : LifeJournal) (b : Block) : Block := eraseFor j.to_ { b with tr := { b.tr with journal := none }, nv := { b.nv with life := j.to_ } }

/-- The block in which a transition of the life cycle has been written to NVM. -/
def transited (now : Nat) (j : LifeJournal) (b : Block) : Block := nvWrite now (eraseFor j.to_ (setLife now j.to_ { b with tr := { b.tr with journal := none } }))

theorem transited_wear (now : Nat) (j : LifeJournal) (b : Block) : OnlyWear (journaled j b) (transited now j b) :=
  (eraseFor_log (setLife_log now j.to_ { b with tr := { b.tr with journal := none } }) j.to_).wear.trans (nvWrite_wear now _)

theorem lifeDone_none {s : State} (h : s.b.tr.journal = none) : lifeDone s = s := by unfold lifeDone; rw [h]

theorem lifeDone_some {s : State} {j : LifeJournal} (h : s.b.tr.journal = some j) : lifeDone s =
    if j.restart then Machine.resetState { s with b := sessEndAll s.clk.lattice (transited s.clk.lattice j s.b) } else { s with b := transited s.clk.lattice j s.b } := by
  unfold lifeDone; rw [h]; rfl

end Sys2Proof.Proofs
end

section
/-! Challenges, transitions, tamper inputs and the ends of sessions as commands (R548, R559, R561, R565, R568, R576, R584). -/

namespace Sys2Proof.Proofs

open Sys2Proof.Machine

/-! ### The challenge (R561) -/

theorem challengeTick_past {now : Nat} {b : Block} (h : ∃ t, b.tr.drawnAt = some t ∧ t + 600000000000 ≤ now) : challengeTick now b = challengeEnd b := by
  obtain ⟨t, ht, hle⟩ := h
  have hnot : ¬now < t + 600000000000 := Nat.not_lt.2 hle
  simp [challengeTick, challengeOk, ht, hnot]

theorem challengeTick_valid {now : Nat} {b : Block} (h : ∀ t, b.tr.drawnAt = some t → now < t + 600000000000) : challengeTick now b = b := by
  cases hd : b.tr.drawnAt with
  | none => simp [challengeTick, hd]
  | some t => simp [challengeTick, challengeOk, hd, h t hd]

/-! ### The field service (R568) -/

/-- What the end of a field service leaves, as the three cases of its self-test. -/
theorem serviceEndOp_test {now : Nat} {b : Block} : (serviceEndOp now b).hl.st = restricted (abortedTest b) := by
  rw [serviceEndOp_wear now b]

/-! ### Transitions (R559) -/

theorem volatileReset_nv (b : Block) : (volatileReset b).nv = b.nv := rfl

theorem volatileReset_bk (b : Block) : (volatileReset b).bk = b.bk := rfl

/-- The transition's block names what it changes in NVM and in the backup domain. -/
theorem transited_kept (now : Nat) (j : LifeJournal) (b : Block) : let u := transited now j b
    u.nv.life = j.to_ ∧ u.tr.journal = none ∧
      ((j.to_ = .returned → u.nv.slotA = {} ∧ u.nv.slotB = {} ∧ u.nv.next = none ∧ u.nv.setA = {} ∧ u.nv.setB = {} ∧
          u.nv.keys = { b.nv.keys with owner := [], recovery := [], secret := [], verified := 0, revoked := [] }) ∧
        (j.to_ = .retired → u.nv.slotA = {} ∧ u.nv.slotB = {} ∧ u.nv.next = none ∧ u.nv.setA = {} ∧ u.nv.setB = {} ∧
          u.nv.keys = { b.nv.keys with identity := false, pub := [], cert := [] }) ∧
        (j.to_ ≠ .returned → j.to_ ≠ .retired → u.nv.keys = b.nv.keys ∧ u.nv.slotA = b.nv.slotA ∧ u.nv.slotB = b.nv.slotB ∧ u.nv.next = b.nv.next ∧
          u.nv.setA = b.nv.setA ∧ u.nv.setB = b.nv.setB)) ∧
      u.nv.rollback = b.nv.rollback ∧ u.nv.bootCount = b.nv.bootCount ∧ u.bk.seedGone = (if j.to_ = .returned then false else b.bk.seedGone) := by
  intro u
  have hu : OnlyWear (journaled j b) u := transited_wear now j b
  rw [hu]
  obtain ⟨l, r⟩ := j
  cases l <;> simp [journaled, eraseFor, eraseOwned]

theorem transited_frame (now : Nat) (j : LifeJournal) (b : Block) : let u := transited now j b
    OnlyWear { b with nv := { b.nv with life := j.to_, keys := u.nv.keys, slotA := u.nv.slotA, slotB := u.nv.slotB, next := u.nv.next, setA := u.nv.setA, setB := u.nv.setB }
                      bk := { b.bk with seedGone := u.bk.seedGone }, tr := { b.tr with journal := none } } u := by
  intro u
  have hu : OnlyWear (journaled j b) u := transited_wear now j b
  generalize u = c at hu
  unfold OnlyWear
  rw [hu]
  obtain ⟨l, r⟩ := j
  cases l <;> rfl

end Sys2Proof.Proofs
end

section
/-! Settling O53: each command of the life cycle by the lemma about its operation. -/

namespace Sys2Proof.Proofs

open Sys2Proof.Machine

/-! ### Tamper inputs (R583, R584) -/

/-- Input `n` is watched (R583). -/
def Watched (b : Block) (n : Nat) : Prop := bit b.bk.tampCfg (4 * n) = true ∧ (b.nv.life = .owned ∨ b.nv.life = .fieldService)

theorem tampWatched_iff (b : Block) (n : Nat) : tampWatched b n = true ↔ Watched b n := by
  simp [tampWatched, tampEn, Watched]

/-- A detection marked in the backup domain. -/
def tamperMarked (n : Nat) (b : Block) : Block :=
  { b with bk := { b.bk with tampered := true, tamp0 := b.bk.tamp0 || decide (n = 0), tamp1 := b.bk.tamp1 || decide (n = 1)
                             seedGone := b.bk.seedGone || bit b.bk.tampCfg (4 * n + 2) } }

/-- The detection marked and logged. -/
def tamperLogged (now n : Nat) (b : Block) : Block := logEvent now 0x0007 0 (n + (if tampZero b n then 256 else 0)) (tamperMarked n b)

theorem tamperLogged_log (now n : Nat) (b : Block) : OnlyLog (tamperMarked n b) (tamperLogged now n b) := logEvent_log _ _ _ _ _

theorem tamperDetect_unwatched {up : Bool} {now n : Nat} {b : Block} (h : ¬Watched b n) : tamperDetect up now n b = b := by
  unfold tamperDetect; rw [if_neg (fun hw => h ((tampWatched_iff b n).1 hw))]

theorem tamperDetect_marks {up : Bool} {now n : Nat} {b : Block} (h : Watched b n) (hz : bit b.bk.tampCfg (4 * n + 2) = false ∨ up = false) :
    tamperDetect up now n b = tamperLogged now n b := by
  unfold tamperDetect tamperOp
  rw [if_pos ((tampWatched_iff b n).2 h), if_neg (by rcases hz with hz | hz <;> simp [tampZero, hz])]
  rfl

theorem tamperDetect_zeroise {now n : Nat} {b : Block} (h : Watched b n) (hz : bit b.bk.tampCfg (4 * n + 2) = true) :
    tamperDetect true now n b = journal .returned true (zeroise now (tamperLogged now n b)) := by
  unfold tamperDetect tamperOp
  rw [if_pos ((tampWatched_iff b n).2 h), if_pos (by simp [tampZero, hz])]
  rfl

/-- What ZEROISE leaves of the module that detected (R584). -/
theorem zeroised {now : Nat} {n : Fin 2} {b u : Block} (hz : bit b.bk.tampCfg (4 * n.val + 2) = true) (hu : u = journal .returned true (zeroise now (tamperLogged now n b))) :
    u.bk.tampered = true ∧ (n = 0 → u.bk.tamp0 = true) ∧ (n = 1 → u.bk.tamp1 = true) ∧ u.bk.seedGone = true ∧ u.nv.life = b.nv.life ∧ u.nv.keys = b.nv.keys ∧
      u.cfg = b.cfg ∧ u.mem = b.mem ∧ u.run = b.run ∧ u.tr.journal = some { to_ := .returned, restart := true } ∧
      u.storeOp = none ∧ (b.storeOp ≠ none → u.storeSt = 4) ∧ (b.storeOp = none → u.storeSt = b.storeSt) ∧ (∀ k : Fin 8, (u.sessAt k).st = .closed) ∧
      ∀ p : Fin 12, Fld.BL_PORT_CFG_SEAL b.cfg p = true → (u.blAt p).st ≠ .run ∧ (u.blAt p).key.ok = false ∧ (u.blAt p).key.key = [] := by
  have hlog := tamperLogged_log now n b
  generalize tamperLogged now n b = c at hlog hu
  obtain ⟨hnv, hbk, hcfg, hmem, hrun⟩ := zeroise_frame now c
  have hstore := zeroise_store now c
  have hkeys : ∀ p < 12, Fld.BL_PORT_CFG_SEAL c.cfg p = true → Keyless p (zeroise now c) := zeroise_keyless now c
  have hclosed : ∀ k < 8, ((zeroise now c).sessAt k).st = .closed := sessEndAll_closed now _
  generalize zeroise now c = d at *
  have hccfg : c.cfg = b.cfg := by rw [hlog]; rfl
  have hbits : c.bk.tampered = true ∧ c.bk.tamp0 = (b.bk.tamp0 || decide (n.val = 0)) ∧ c.bk.tamp1 = (b.bk.tamp1 || decide (n.val = 1)) ∧ c.bk.seedGone = true := by
    rw [hlog]; exact ⟨rfl, rfl, rfl, by simp [tamperMarked, hz]⟩
  have hcnv : c.nv.life = b.nv.life ∧ c.nv.keys = b.nv.keys := by rw [hlog]; exact ⟨rfl, rfl⟩
  have hcrest : c.mem = b.mem ∧ c.run = b.run ∧ c.storeOp = b.storeOp ∧ c.storeSt = b.storeSt := by rw [hlog]; exact ⟨rfl, rfl, rfl, rfl⟩
  obtain ⟨ht, ht0, ht1, hseed⟩ := hbits
  obtain ⟨hlife, hkey⟩ := hcnv
  obtain ⟨hcm, hcr, hcop, hcst⟩ := hcrest
  obtain ⟨hop, hsome, hnone⟩ := hstore
  rw [hcop] at hsome hnone
  rw [hcst] at hnone
  rw [hu]
  refine ⟨(congrArg Backup.tampered hbk).trans ht, fun h => (congrArg Backup.tamp0 hbk).trans (by rw [ht0]; simp [h]), fun h => (congrArg Backup.tamp1 hbk).trans (by rw [ht1]; simp [h]),
    (congrArg Backup.seedGone hbk).trans hseed, (congrArg Nvm.life hnv).trans hlife, (congrArg Nvm.keys hnv).trans hkey, hcfg.trans hccfg, hmem.trans hcm, hrun.trans hcr, rfl, hop, hsome, hnone,
    fun k => hclosed k k.isLt, fun p hp => hkeys p p.isLt (by rwa [hccfg])⟩

/-! ### Ends of sessions (R576) -/

theorem bankAt_sessGone (k : Nat) (b : Block) : (sessGone k b).bankAt k = {} := bankAt_bankUpd b k fun _ => {}

theorem bankAt_sessGone_ne {k q : Nat} (b : Block) (h : q ≠ k) : (sessGone k b).bankAt q = b.bankAt q := bankAt_bankUpd_ne b k q (fun _ => {}) h

/-- A session that was not closed has gone: its own record and bank, and the commit it owned while it could not yet be accepted. -/
theorem sessEnd_open (now : Nat) (k : Fin 8) (b : Block) (h : (b.sessAt k).st ≠ .closed) : let u := sessEnd now k b
    u.sessAt k = { class5 := (b.sessAt k).class5 } ∧ u.bankAt k = {} ∧ (∀ q : Fin 8, q ≠ k → u.sessAt q = b.sessAt q) ∧ (∀ q : Fin 11, q.val ≠ k.val → u.bankAt q = b.bankAt q) ∧
      u.tr = { b.tr with banks := u.tr.banks, op := u.tr.op } ∧ u.tr.op = detach k b.tr.op ∧
      (Survives k b.cm → u = { b with sess := u.sess, tr := u.tr }) ∧
      (¬Survives k b.cm → Unstaged u.cm ∧ (b.cm.ph = .idle → u = { b with sess := u.sess, tr := u.tr, cm := u.cm }) ∧
        (b.cm.ph = .checking → u.cm.code = 0x1E ∧
          u = { b with sess := u.sess, tr := u.tr, cm := u.cm, net := { b.net with next := none }, draws := b.draws + 1, paceChanging := u.paceChanging, paceEnd := u.paceEnd })) := by
  intro u
  obtain ⟨hsess, htr⟩ := sessEnd_gone (now := now) h
  have hbank : ∀ q, u.bankAt q = (sessGone k b).bankAt q := fun q => congrArg (fun t : Trust => tabGet ({} : SecBank) t.banks q) htr
  have hat : u.sessAt k = sessClear (b.sessAt k) := (congrArg (fun t => tabGet ({} : Sess) t k.val) hsess).trans (sessAt_sessUpd b k sessClear)
  refine ⟨hat, (hbank k).trans (bankAt_sessGone k b), fun q hq => sessAt_sessEnd_ne (fun h => hq (Fin.ext h)), fun q hq => (hbank q).trans (bankAt_sessGone_ne b hq), ?_, ?_, fun hs => ?_, fun hs => ?_⟩
  · show (sessEnd now k b).tr = { b.tr with banks := (sessEnd now k b).tr.banks, op := (sessEnd now k b).tr.op }
    rw [htr]; rfl
  · exact congrArg Trust.op htr
  · have hu : u = sessGone k b := sessEnd_survives h hs
    rw [hu]; rfl
  · obtain hsv | ⟨-, ho, hp⟩ := survives_or k b.cm
    · exact absurd hsv hs
    rcases hp with hp | hp
    · have hu : u = { sessGone k b with cm := (stagingEmpty b).cm } := sessEnd_idle h ho hp
      rw [hu]
      exact ⟨⟨rfl, rfl, rfl, rfl⟩, fun _ => rfl, fun hc => absurd (hp.symm.trans hc) (by decide)⟩
    · have hu : u = _ := sessEnd_checking (now := now) h ho hp
      rw [hu]
      exact ⟨⟨rfl, rfl, rfl, rfl⟩, fun hi => absurd (hp.symm.trans hi) (by decide), fun _ => ⟨rfl, rfl⟩⟩

theorem sessIdle_due {now k : Nat} {b : Block} (h : (b.sessAt k).st = .open_ ∧ (b.sessAt k).lastAt + Fld.SEC_IDLE_IDLE_T b.cfg * 1000000000 ≤ now) :
    sessIdle now k b = sessEnd now k b := by
  obtain ⟨ho, hle⟩ := h
  simp [sessIdle, ho, hle]

theorem sessIdle_not_due {now k : Nat} {b : Block} (h : ¬((b.sessAt k).st = .open_ ∧ (b.sessAt k).lastAt + Fld.SEC_IDLE_IDLE_T b.cfg * 1000000000 ≤ now)) :
    sessIdle now k b = b := by
  simp only [sessIdle, ← Bool.decide_and, h, decide_false, Bool.false_eq_true, if_false]

/-! ### The obligation -/

/-- The self-test after the end of a field service, by what it was doing. -/
theorem serviceEnded (now : Nat) (b : Block) : let u := serviceEndOp now b
    let tap := if b.hl.st.tap ≤ 1 then b.hl.st.tap else 0
    OnlyWear { b with nv := { b.nv with life := .owned }, hl := { b.hl with st := u.hl.st } } u ∧
      (testRuns b = false → u.hl.st = { b.hl.st with tap := tap }) ∧
      (testRuns b = true → b.hl.st.tile ≠ none → u.hl.st = { b.hl.st with tap := tap, aborting := true, st := .restoring }) ∧
      (testRuns b = true → b.hl.st.tile = none →
        u.hl.st = { b.hl.st with tap := tap, st := .idle, result := 3, reqAt := none, aborting := false, pair := none, resume := none }) := by
  intro u tap
  have hst : u.hl.st = restricted (abortedTest b) := serviceEndOp_test
  rw [hst]
  refine ⟨serviceEndOp_wear now b, fun hr => ?_, fun hr ht => ?_, fun hr ht => ?_⟩
  · rw [abortedTest, if_pos hr]; rfl
  · rw [abortedTest, if_neg (by simp [hr]), if_pos ht]; rfl
  · rw [abortedTest, if_neg (by simp [hr]), if_neg (by simp [ht])]; rfl

/-- Settles O53: challenges by `challengeTick`, the ends of a field service by `serviceEnded`, transitions by `transited_kept`, tamper inputs by `zeroised`, sessions by
`sessEnd_open`. -/
theorem lifeCycle : Obligations.LifeCycle := by
  intro s
  dsimp only
  refine ⟨fun hu hl => ?_, fun hu hl => ?_, fun hu ht => ?_, fun hu ht => ?_, fun hu hl => ?_, fun hu hl => ?_, fun hu hl ht => ?_, fun hu hl => ?_, fun hu hj => ?_, fun j hu hj => ?_,
    fun hu hl => ?_, fun hu hl => ?_, fun n => ⟨fun hw => ?_, fun hw hz => ?_, fun hw hz hu => ?_⟩, fun k hu => ⟨fun hc => ?_, fun hc => ?_, fun hd => ?_, fun hd => ?_⟩⟩
  · exact turns_onHub (exec_newChallenge s) hu (by rw [newChallengeOp, if_neg hl]; rfl)
  · exact turns_onHub (exec_newChallenge s) hu (by rw [newChallengeOp, if_pos hl])
  · exact turns_onHub (exec_challengeExpiry s) hu (challengeTick_past ht)
  · exact turns_onHub (exec_challengeExpiry s) hu (challengeTick_valid ht)
  · refine gives_onHub (exec_endService s) hu ⟨rfl, ?_⟩
    rw [endServiceOp, if_pos hl]
    exact serviceEnded _ _
  · exact turns_onHub (exec_endService s) hu (by rw [endServiceOp, if_neg hl])
  · refine gives_onHub (exec_fieldServiceExpiry s) hu ⟨rfl, ?_⟩
    rw [serviceTick, if_pos (by simp [hl, ht])]
    exact serviceEnded _ _
  · refine turns_onHub (exec_fieldServiceExpiry s) hu ?_
    rw [serviceTick, if_neg (by rcases hl with hl | hl <;> simp [hl])]
  · show Host.Outcome.next (if s.clk.up then lifeDone s else s) = _
    rw [if_pos hu, lifeDone_none hj]
  · obtain ⟨hlife, hjn, hkept, hroll, hboot, hseed⟩ := transited_kept s.clk.lattice j s.b
    have hexec : exec .lifecycleTransition s = .next (lifeDone s) := by show Host.Outcome.next (if s.clk.up then lifeDone s else s) = _; rw [if_pos hu]
    rw [lifeDone_some hj] at hexec
    cases hr : j.restart with
    | false =>
      rw [if_neg (by simp [hr])] at hexec
      exact ⟨_, hexec, hlife, hjn, rfl, hkept, hroll, hboot, hseed, fun _ => ⟨rfl, transited_frame s.clk.lattice j s.b⟩, fun h => absurd h (by decide)⟩
    | true =>
      rw [if_pos hr] at hexec
      generalize transited s.clk.lattice j s.b = c at hexec hlife hkept hroll hboot hseed
      have hnv : (volatileReset (sessEndAll s.clk.lattice c)).nv = c.nv := (volatileReset_nv _).trans (sessEndAll_nv _ c)
      have hbk : (volatileReset (sessEndAll s.clk.lattice c)).bk = c.bk := (volatileReset_bk _).trans (sessEndAll_bk _ c)
      refine ⟨_, hexec, ?_⟩
      dsimp only [Machine.resetState]
      rw [hnv, hbk]
      exact ⟨hlife, rfl, rfl, hkept, hroll, hboot, hseed, fun h => absurd h (by decide), fun _ => ⟨rfl, rfl, rfl, rfl, rfl, rfl⟩⟩
  · exact turns_onHub (exec_generateIdentity s) hu (by rw [identityOp, if_pos hl]; rfl)
  · exact turns_onHub (exec_generateIdentity s) hu (by rw [identityOp, if_neg hl])
  · exact congrArg (fun b => Host.Outcome.next { s with b := b }) (tamperDetect_unwatched (now := s.clk.lattice) (up := s.clk.up) hw)
  · refine ⟨_, rfl, rfl, ?_⟩
    show OnlyLog (tamperMarked n s.b) (tamperDetect s.clk.up s.clk.lattice n s.b)
    rw [tamperDetect_marks hw hz]
    exact tamperLogged_log _ _ _
  · obtain ⟨u, hd⟩ : ∃ u, u = journal .returned true (zeroise s.clk.lattice (tamperLogged s.clk.lattice n s.b)) := ⟨_, rfl⟩
    refine ⟨{ s with b := u }, ?_, rfl, zeroised hz hd⟩
    show Host.Outcome.next { s with b := tamperDetect s.clk.up s.clk.lattice n s.b } = _
    rw [hu, tamperDetect_zeroise hw hz, hd]
  · exact turns_onHub (exec_sessionEnd k s) hu (sessEnd_closed hc)
  · exact gives_onHub (exec_sessionEnd k s) hu ⟨rfl, sessEnd_open s.clk.lattice k s.b hc⟩
  · exact turns_onHub (exec_sessionIdleExpiry k s) hu (sessIdle_not_due hd)
  · refine gives_onHub (exec_sessionIdleExpiry k s) hu ?_
    dsimp only
    rw [sessIdle_due hd]
    have hopen : (s.b.sessAt k).st ≠ .closed := by rw [hd.1]; decide
    exact ⟨rfl, sessEnd_open s.clk.lattice k s.b hopen⟩

end Sys2Proof.Proofs
end

section
/-! What a command row of a session comes to (R618, R619): nothing while the session is not ready, its first bad status, or its effect and its result. -/

namespace Sys2Proof.Proofs

open Sys2Proof.Machine

/-! ### Results of a session -/

/-- The block with a result as the session's last, and what that command still waits for. -/
def withResult (k op status : Nat) (data : List Byte) (w : Wait) (b : Block) : Block :=
  b.sessUpd k fun x => { x with last := { op := op, status := status, data := data }, lastWait := w }

/-- Two updates of a session that leave a record each are one. -/
theorem sessUpd_sessUpd (b : Block) (k : Nat) (f g : Sess → Sess) (hf : f (b.sessAt k) ≠ {}) (hg : g (f (b.sessAt k)) ≠ {}) :
    (b.sessUpd k f).sessUpd k g = b.sessUpd k fun x => g (f x) :=
  congrArg (fun t => { b with sess := t }) (tabUpd_upd ({} : Sess) b.sess k f g hf hg)

theorem last_ne_default (x : Sess) {op : Nat} (hop : op ≠ 0) (status : Nat) (data : List Byte) (w : Wait) :
    { x with last := { op := op, status := status, data := data }, lastWait := w } ≠ ({} : Sess) :=
  fun h => hop (congrArg (fun y : Sess => y.last.op) h)

/-- A result over another of the same command: the later one stands. -/
theorem withResult_withResult {k op op' : Nat} (hop : op ≠ 0) (hop' : op' ≠ 0) (st st' : Nat) (d d' : List Byte) (w w' : Wait) (b : Block) :
    withResult k op' st' d' w' (withResult k op st d w b) = withResult k op' st' d' w' b :=
  sessUpd_sessUpd b k _ _ (last_ne_default _ hop st d w) (last_ne_default _ hop' st' d' w')

/-- A result whose wait is set afterwards. -/
theorem setLast_waits {k op : Nat} (hop : op ≠ 0) (st : Nat) (d : List Byte) (w : Wait) (b : Block) :
    ((setLast k op st d b).sessUpd k fun y => { y with lastWait := w }) = withResult k op st d w b :=
  sessUpd_sessUpd b k _ _ (last_ne_default _ hop st d .none) (last_ne_default _ hop st d w)

/-! ### One command -/

/-- The bytes of response data that a command takes. -/
def respLen (b : Block) (c : HCmd) : Nat :=
  match c with
  | .read _ n => 4 * n
  | .commit _ _ => 16
  | .store => 4
  | .xread target index _ n => xreadLen b target index n 0
  | _ => 0

theorem respTooLong_one (b : Block) (c : HCmd) : respTooLong b [c] = decide (1440 < 8 + (4 + respLen b c)) := by
  have hsum : ((respLens b [c] []).map fun n => 4 + n).sum = 4 + respLen b c := by cases c <;> simp [respLens, respLen]
  unfold respTooLong
  rw [hsum]

/-- The status of a request of one command. -/
def oneStatus (now k : Nat) (b : Block) (c : HCmd) : Nat := if 1440 < 8 + (4 + respLen b c) then 1 else cmdStatus now k b c

theorem firstBad_one (e : Nat) : firstBad [e] = e := by
  by_cases h : e = 0 <;> simp [firstBad, h]

theorem reqStatuses_one (now k : Nat) (b : Block) (c : HCmd) : firstBad (reqStatuses now k b [c]) = oneStatus now k b c := by
  unfold reqStatuses oneStatus
  rw [respTooLong_one]
  by_cases hl : 1440 < 8 + (4 + respLen b c)
  · simp [hl, firstBad]
  · by_cases h0 : cmdStatus now k b c = 0 <;> simp [hl, h0, firstBad]

/-- A session that takes commands: the hub has left reset and the session is open. -/
def Ready (s : State) (k : Nat) : Prop := s.clk.up = true ∧ (s.b.sessAt k).st = .open_

theorem oneCmd_unready {s : State} {k : Nat} (c : HCmd) (h : ¬Ready s k) : oneCmd k c s = s := by
  unfold oneCmd
  rw [if_pos]
  by_cases hu : s.clk.up = true
  · have hst : (s.b.sessAt k).st ≠ .open_ := fun ho => h ⟨hu, ho⟩
    simp [hst]
  · simp [hu]

theorem oneCmd_refused {s : State} {k : Nat} {c : HCmd} (h : Ready s k) (he : oneStatus s.clk.lattice k s.b c ≠ 0) (hv : asksVerify c = false) :
    oneCmd k c s = { s with b := withResult k (cmdOp c) (oneStatus s.clk.lattice k s.b c) [] .none s.b } := by
  obtain ⟨hu, ho⟩ := h
  unfold oneCmd
  simp only [hu, ho, reqStatuses_one, hv]
  rw [if_neg (by simp), if_pos he]
  rfl

theorem oneCmd_runs {s : State} {k : Nat} {c : HCmd} (h : Ready s k) (he : oneStatus s.clk.lattice k s.b c = 0) (hop : cmdOp c ≠ 0) :
    oneCmd k c s = (runCmd k c s).2.2.mapB fun b =>
      withResult k (cmdOp c) (runCmd k c s).1.1 (if (runCmd k c s).1.1 = 0 then (runCmd k c s).1.2 else []) (runCmd k c s).2.1 b := by
  obtain ⟨hu, ho⟩ := h
  unfold oneCmd
  simp only [hu, ho, reqStatuses_one, he]
  rw [if_neg (by simp), if_neg (by simp)]
  exact congrArg (State.mapB _) (funext fun b => setLast_waits hop _ _ _ b)

/-- A refused command leaves its status and nothing else. -/
theorem turns_refused {i : Instr} {s : State} {k : Nat} {c : HCmd} {e op : Nat} (hi : exec i s = .next (oneCmd k c s)) (h : Ready s k)
    (hop : cmdOp c = op) (hs : oneStatus s.clk.lattice k s.b c = e) (he : e ≠ 0) (hv : asksVerify c = false) :
    Turns i s (withResult k op e [] .none s.b) := by
  unfold Turns
  rw [hi, oneCmd_refused h (by rw [hs]; exact he) hv, hs, hop]

/-- A command that passes its checks leaves the block it makes with its result. -/
theorem exec_runs {i : Instr} {s u : State} {k : Nat} {c : HCmd} {e op : Nat} {data : List Byte} {w : Wait} (hi : exec i s = .next (oneCmd k c s)) (h : Ready s k)
    (hop : cmdOp c = op) (hop0 : op ≠ 0) (hs : oneStatus s.clk.lattice k s.b c = 0) (hr : runCmd k c s = ((e, data), w, u)) :
    exec i s = .next (u.mapB fun b => withResult k op e (if e = 0 then data else []) w b) := by
  rw [hi, oneCmd_runs h hs (by rw [hop]; exact hop0), hr, hop]

theorem turns_runs {i : Instr} {s : State} {y : Block} {k : Nat} {c : HCmd} {e op : Nat} {data : List Byte} {w : Wait} (hi : exec i s = .next (oneCmd k c s))
    (h : Ready s k) (hop : cmdOp c = op) (hop0 : op ≠ 0) (hs : oneStatus s.clk.lattice k s.b c = 0) (hr : runCmd k c s = ((e, data), w, { s with b := y })) :
    Turns i s (withResult k op e (if e = 0 then data else []) w y) := exec_runs hi h hop hop0 hs hr

/-! ### Commands out of range -/

theorem oneStatus_bad (now k op : Nat) (b : Block) : oneStatus now k b (.bad op) = 1 := by simp [oneStatus, respLen, cmdStatus]

theorem fielded_bad {op : Nat} {ok : Bool} {c : HCmd} (h : ok = false) : fielded op ok c = .bad op := by unfold fielded; rw [h]; rfl

theorem fielded_ok {op : Nat} {ok : Bool} {c : HCmd} (h : ok = true) : fielded op ok c = c := by unfold fielded; rw [h]; rfl

/-- A command row whose fields are out of range is malformed. -/
theorem turns_malformed {i : Instr} {s : State} {k op : Nat} {ok : Bool} {c : HCmd} (hi : exec i s = .next (oneCmd k (fielded op ok c) s)) (h : Ready s k) (hok : ok = false) :
    Turns i s (withResult k op 1 [] .none s.b) := by
  rw [fielded_bad hok] at hi
  exact turns_refused hi h rfl (oneStatus_bad _ _ _ _) (by decide) rfl

end Sys2Proof.Proofs
end

section
/-! READ, WRITE and STAGE commands of a session, word by word (R618, R619). -/

namespace Sys2Proof.Proofs

open Sys2Proof.Machine

/-! ### Statuses -/

theorem firstBad_zero {l : List Nat} (h : ∀ e ∈ l, e = 0) : firstBad l = 0 := by
  have hnone : l.find? (fun e => decide (e ≠ 0)) = none := List.find?_eq_none.2 fun e he => by simp [h e he]
  unfold firstBad; rw [hnone]; rfl

theorem firstBad_first {l : List Nat} {i e : Nat} (hi : l[i]? = some e) (he : e ≠ 0) (hz : ∀ j < i, ∀ x, l[j]? = some x → x = 0) : firstBad l = e := by
  obtain ⟨hlt, hget⟩ := List.getElem?_eq_some_iff.1 hi
  have hsome : l.find? (fun e => decide (e ≠ 0)) = some e := by
    refine List.find?_eq_some_iff_getElem.2 ⟨by simp [he], i, hlt, hget, fun j hj => ?_⟩
    simp [hz j hj _ (List.getElem?_eq_getElem (by omega))]
  unfold firstBad; rw [hsome]; rfl

theorem cmdStatus_read (now : Nat) (k : Fin 8) (b : Block) (a n : Nat) :
    cmdStatus now k b (.read a n) = firstBad ((List.range n).map fun i => readStatus b (a + 4 * i)) := by
  simp [cmdStatus, Nat.not_le.2 k.isLt]

theorem cmdStatus_write (now : Nat) (k : Fin 8) (b : Block) (a : Nat) (ws : List Word) :
    cmdStatus now k b (.write a ws) = firstBad (((List.range ws.length).zip ws).map fun e => writeStatus now k (a + 4 * e.1) e.2.toNat b) := by
  simp [cmdStatus, Nat.not_le.2 k.isLt]

theorem cmdStatus_stage (now : Nat) (k : Fin 8) (b : Block) (a : Nat) (ws : List Word) :
    cmdStatus now k b (.stage a ws) = firstBad ((List.range ws.length).map fun i => stageStatus b k (a + 4 * i)) := by
  simp [cmdStatus, Nat.not_le.2 k.isLt]

/-- A command whose response fits has the status of its own checks. -/
theorem oneStatus_fits {now k : Nat} {b : Block} {c : HCmd} (h : respLen b c ≤ 1428) : oneStatus now k b c = cmdStatus now k b c := by
  unfold oneStatus; rw [if_neg (by omega)]

theorem firstBad_range {f : Nat → Nat} {n i : Nat} (hi : i < n) (he : f i ≠ 0) (hz : ∀ j < i, f j = 0) : firstBad ((List.range n).map f) = f i := by
  refine firstBad_first (i := i) (by simp [hi]) he fun j hj x hx => ?_
  have hjn : j < n := by omega
  simp [hjn] at hx
  rw [← hx, hz j hj]

theorem firstBad_range_zero {f : Nat → Nat} {n : Nat} (hz : ∀ i < n, f i = 0) : firstBad ((List.range n).map f) = 0 := by
  refine firstBad_zero fun e he => ?_
  obtain ⟨i, hi, rfl⟩ := List.mem_map.1 he
  exact hz i (List.mem_range.1 hi)

theorem zip_range_get {α : Type} (l : List α) (i : Nat) (v : α) (h : l[i]? = some v) : ((List.range l.length).zip l)[i]? = some (i, v) := by
  obtain ⟨hlt, -⟩ := List.getElem?_eq_some_iff.1 h
  rw [List.getElem?_zip_eq_some]
  exact ⟨by simp [hlt], h⟩

theorem firstBad_words {f : Nat → Word → Nat} {ws : List Word} {i : Nat} {v : Word} (hi : ws[i]? = some v) (he : f i v ≠ 0)
    (hz : ∀ j < i, ∀ v', ws[j]? = some v' → f j v' = 0) : firstBad (((List.range ws.length).zip ws).map fun e => f e.1 e.2) = f i v := by
  refine firstBad_first (i := i) (by rw [List.getElem?_map, zip_range_get ws i v hi]; rfl) he fun j hj x hx => ?_
  obtain ⟨hlt, -⟩ := List.getElem?_eq_some_iff.1 hi
  have hget : ws[j]? = some (ws[j]'(by omega)) := List.getElem?_eq_getElem _
  rw [List.getElem?_map, zip_range_get ws j _ hget] at hx
  rw [← Option.some.inj hx]
  exact hz j hj _ hget

theorem firstBad_words_zero {f : Nat → Word → Nat} {ws : List Word} (hz : ∀ i < ws.length, f i (ws.getD i 0) = 0) :
    firstBad (((List.range ws.length).zip ws).map fun e => f e.1 e.2) = 0 := by
  refine firstBad_zero fun e he => ?_
  obtain ⟨⟨i, v⟩, hm, rfl⟩ := List.mem_map.1 he
  obtain ⟨n, hn⟩ := List.mem_iff_getElem?.1 hm
  rw [List.getElem?_zip_eq_some] at hn
  obtain ⟨hr, hv⟩ := hn
  obtain ⟨hlt, -⟩ := List.getElem?_eq_some_iff.1 hv
  have hin : i = n := by
    have : n < ws.length := hlt
    simpa [this] using hr.symm
  have := hz n hlt
  rw [List.getD_eq_getElem?_getD, hv] at this
  rw [hin]; exact this

/-! ### Words read -/

/-- What reads may change: the latches of the _HI registers, and whether the record of a unit counts as read (R460). -/
def OnlyRead (b c : Block) : Prop := c = { b with hiLatch := c.hiLatch, te := c.te }

theorem OnlyRead.trans {b c d : Block} (h : OnlyRead b c) (h' : OnlyRead c d) : OnlyRead b d := by unfold OnlyRead at *; rw [h', h]

theorem readEffect_only (now bank : Nat) (r : RegId) (ix : List Nat) (b : Block) : OnlyRead b (readEffect now bank r ix b) := by
  have hl : ∀ l : List (RegId × Nat), OnlyRead b (forL l (fun p x =>
      { x with hiLatch := tabSet 0 x.hiLatch (regAddr p.1 ix) (mergeBits p.2 (tabGet 0 x.hiLatch (regAddr p.1 ix)) (BitVec.ofNat 32 (roLive now bank x p.1 ix))) }) b) :=
    fun l => forL_keeps (OnlyRead b) l _ b (fun _ _ h => h.trans rfl) rfl
  unfold readEffect
  split
  · exact (hl _).trans rfl
  · exact (hl _).trans rfl
  · exact hl _

theorem wordRead_only (now k a : Nat) (b : Block) : OnlyRead b (wordRead now k a b).2 := by
  unfold wordRead
  split
  · rfl
  · rfl
  · split
    · exact readEffect_only _ _ _ _ _
    · rfl

/-- Each word of a READ is the word at its address, read when only reads have come before it. -/
theorem wordsRead_spec (now k n a : Nat) (b : Block) : (wordsRead now k n a b).1.length = n ∧ OnlyRead b (wordsRead now k n a b).2 ∧
    ∀ i < n, ∃ c, OnlyRead b c ∧ (i = 0 → c = b) ∧ (wordsRead now k n a b).1[i]? = some (wordRead now k (a + 4 * i) c).1 := by
  induction n generalizing a b with
  | zero => exact ⟨rfl, rfl, fun i hi => absurd hi (Nat.not_lt_zero i)⟩
  | succ n ih =>
    obtain ⟨hlen, honly, hget⟩ := ih (a + 4) (wordRead now k a b).2
    have hfirst := wordRead_only now k a b
    refine ⟨congrArg (· + 1) hlen, hfirst.trans honly, fun i hi => ?_⟩
    cases i with
    | zero => exact ⟨b, rfl, fun _ => rfl, rfl⟩
    | succ i =>
      obtain ⟨c, hc, -, hi'⟩ := hget i (by omega)
      refine ⟨c, hfirst.trans hc, fun h => absurd h (by omega), ?_⟩
      rw [show a + 4 * (i + 1) = a + 4 + 4 * i from by omega]
      exact hi'

theorem wordRead_buf {now k a o : Nat} {b : Block} (h : secBufAt a = some o) : (wordRead now k a b).1 = BitVec.ofNat 32 (leNat (tabBytes 0 (b.bankAt k).buf o 4)) := by
  unfold wordRead; rw [h]

theorem wordRead_local {now k a t w : Nat} {b : Block} (h : secBufAt a = none) (hl : localAt a = some (t, w)) : (wordRead now k a b).1 = tabGet 0 (b.seqAt t).mem w := by
  unfold wordRead; rw [h, hl]

theorem wordRead_reg {now k a : Nat} {b : Block} {r : RegId} {ix : List Nat} (h : secBufAt a = none) (hl : localAt a = none) (hr : regAt a = some (r, ix)) :
    (wordRead now k a b).1 = regWordAt now k b r ix a := by
  unfold wordRead; rw [h, hl, hr]

/-- The command row of a READ in range. -/
theorem cmdRead_row {k : Fin 8} {s : State} {n a : Nat} (h1 : 1 ≤ n) (hn : n ≤ 256) (ha : a < 2 ^ 32) :
    exec (.cmdRead k n a) s = .next (oneCmd k (.read a n) s) := by
  rw [exec_cmdRead, execCmdRead, fielded_ok (decide_eq_true ⟨h1, hn, ha⟩)]

theorem oneStatus_read (now : Nat) (k : Fin 8) (b : Block) {a n : Nat} (hn : n ≤ 256) :
    oneStatus now k b (.read a n) = firstBad ((List.range n).map fun i => readStatus b (a + 4 * i)) := by
  rw [oneStatus_fits (by simp only [respLen]; omega), cmdStatus_read]

/-- The first word that a READ may not read decides its status. -/
theorem cmdRead_refused {k : Fin 8} {s : State} {n a i : Nat} (h : Ready s k) (h1 : 1 ≤ n) (hn : n ≤ 256) (ha : a < 2 ^ 32) (hi : i < n)
    (he : readStatus s.b (a + 4 * i) ≠ 0) (hz : ∀ j < i, readStatus s.b (a + 4 * j) = 0) :
    Turns (.cmdRead k n a) s (withResult k 1 (readStatus s.b (a + 4 * i)) [] .none s.b) := by
  have hs : oneStatus s.clk.lattice k s.b (.read a n) = readStatus s.b (a + 4 * i) := by
    rw [oneStatus_read _ _ _ hn]; exact firstBad_range (f := fun i => readStatus s.b (a + 4 * i)) hi he hz
  exact turns_refused (cmdRead_row h1 hn ha) h rfl hs he rfl

/-- A READ whose words all pass returns them (R618). -/
theorem cmdRead_gives {k : Fin 8} {s : State} {n a : Nat} (h : Ready s k) (h1 : 1 ≤ n) (hn : n ≤ 256) (ha : a < 2 ^ 32) (hz : ∀ i, i < n → readStatus s.b (a + 4 * i) = 0) :
    Gives (.cmdRead k n a) s fun u => ∃ (ws : List Word) (y : Block), ws.length = n ∧ y = { s.b with hiLatch := y.hiLatch, te := y.te } ∧
      u = { s with b := withResult k 1 0 (ws.flatMap fun w => leBytes 4 w.toNat) .none y } ∧
      ∀ i < n, (∀ o, secBufAt (a + 4 * i) = some o → ws[i]? = some (BitVec.ofNat 32 (leNat (tabBytes 0 (s.b.bankAt k).buf o 4)))) ∧
        (∀ t w, secBufAt (a + 4 * i) = none → localAt (a + 4 * i) = some (t, w) → ws[i]? = some (tabGet 0 (s.b.seqAt t).mem w)) ∧
        (∀ r ix, i = 0 → secBufAt a = none → localAt a = none → regAt a = some (r, ix) → ws[0]? = some (regWordAt s.clk.lattice k s.b r ix a)) := by
  have hi : exec (.cmdRead k n a) s = .next (oneCmd k (.read a n) s) := cmdRead_row h1 hn ha
  have hs : oneStatus s.clk.lattice k s.b (.read a n) = 0 := by
    rw [oneStatus_read _ _ _ hn, firstBad_range_zero hz]
  obtain ⟨hlen, honly, hget⟩ := wordsRead_spec s.clk.lattice k n a s.b
  refine ⟨_, exec_runs (op := 1) hi h rfl (by decide) hs rfl, _, _, hlen, honly, rfl, fun i hin => ?_⟩
  obtain ⟨c, hcr, hc0, hci⟩ := hget i hin
  have hbank : c.bankAt k = s.b.bankAt k := by rw [hcr]; rfl
  have hseq : ∀ t, c.seqAt t = s.b.seqAt t := fun t => by rw [hcr]; rfl
  refine ⟨fun o ho => ?_, fun t w hb hl => ?_, fun r ix h0 hb hl hr => ?_⟩
  · rw [hci, wordRead_buf ho, hbank]
  · rw [hci, wordRead_local hb hl, hseq]
  · subst h0
    rw [hci, hc0 rfl]
    exact congrArg some (wordRead_reg hb hl hr)

/-! ### Words written -/

theorem oneStatus_write (now : Nat) (k : Fin 8) (b : Block) (a : Nat) (ws : List Word) :
    oneStatus now k b (.write a ws) = firstBad (((List.range ws.length).zip ws).map fun e => writeStatus now k (a + 4 * e.1) e.2.toNat b) := by
  rw [oneStatus_fits (by simp [respLen]), cmdStatus_write]

theorem cmdWrite_row {k : Fin 8} {s : State} {a : Nat} {ws : List Word} (h1 : 1 ≤ ws.length) (hn : ws.length ≤ 256) (ha : a < 2 ^ 32) :
    exec (.cmdWrite k a ws) s = .next (oneCmd k (.write a ws) s) := by
  rw [exec_cmdWrite, execCmdWrite, fielded_ok (decide_eq_true ⟨h1, hn, ha⟩)]

/-- The first word that a WRITE may not write decides its status. -/
theorem cmdWrite_refused {k : Fin 8} {s : State} {a i : Nat} {ws : List Word} {v : Word} (h : Ready s k) (hn : ws.length ≤ 256) (ha : a < 2 ^ 32) (hi : ws[i]? = some v)
    (he : writeStatus s.clk.lattice k (a + 4 * i) v.toNat s.b ≠ 0) (hz : ∀ j < i, ∀ v', ws[j]? = some v' → writeStatus s.clk.lattice k (a + 4 * j) v'.toNat s.b = 0)
    (hv : ∀ j < ws.length, a + 4 * j ≠ regAddr .SF_VERIFY []) :
    Turns (.cmdWrite k a ws) s (withResult k 2 (writeStatus s.clk.lattice k (a + 4 * i) v.toNat s.b) [] .none s.b) := by
  obtain ⟨hlt, -⟩ := List.getElem?_eq_some_iff.1 hi
  have hs : oneStatus s.clk.lattice k s.b (.write a ws) = writeStatus s.clk.lattice k (a + 4 * i) v.toNat s.b := by
    rw [oneStatus_write]; exact firstBad_words (f := fun i v => writeStatus s.clk.lattice k (a + 4 * i) v.toNat s.b) hi he hz
  have hask : asksVerify (.write a ws) = false := by
    simp only [asksVerify, List.any_eq_false, List.mem_range, decide_eq_true_eq]
    exact hv
  exact turns_refused (cmdWrite_row (by omega) hn ha) h rfl hs he hask

/-- A WRITE whose words all pass writes them in order (R619). -/
theorem cmdWrite_writes {k : Fin 8} {s : State} {a : Nat} {ws : List Word} (h : Ready s k) (h1 : 1 ≤ ws.length) (hn : ws.length ≤ 256) (ha : a < 2 ^ 32)
    (hz : ∀ i < ws.length, writeStatus s.clk.lattice k (a + 4 * i) (ws.getD i 0).toNat s.b = 0) :
    exec (.cmdWrite k a ws) s = .next ((writeWords k a ws s).2.mapB (withResult k 2 (writeWords k a ws s).1 [] .none)) := by
  have hs : oneStatus s.clk.lattice k s.b (.write a ws) = 0 := by
    rw [oneStatus_write]; exact firstBad_words_zero (f := fun i v => writeStatus s.clk.lattice k (a + 4 * i) v.toNat s.b) hz
  have hrun := exec_runs (op := 2) (cmdWrite_row h1 hn ha) h rfl (by decide) hs rfl
  simpa using hrun

theorem execRegisterWrite_up {k : Fin 8} {s : State} {a : Nat} {v : Word} (hu : s.clk.up = true) :
    exec (.registerWrite k a v) s = .next ((regWrite k a v.toNat s).2.mapB (withResult k 2 (regWrite k a v.toNat s).1 [] .none)) := by
  rw [exec_registerWrite, execRegisterWrite, if_pos hu]; rfl

theorem writeWords_one (k a : Nat) (v : Word) (s : State) : writeWords k a [v] s = regWrite k a v.toNat s := by
  unfold writeWords
  dsimp only
  split
  · rfl
  · next h =>
    have h0 : (regWrite k a v.toNat s).1 = 0 := not_not.1 h
    unfold writeWords
    exact Prod.ext h0.symm rfl

/-- A write that is refused leaves the state, but for what asking for SF_VERIFY turns (R546). -/
theorem regWrite_refused {k a v : Nat} {s : State} (he : writeStatus s.clk.lattice k a v s.b ≠ 0) :
    regWrite k a v s = (writeStatus s.clk.lattice k a v s.b, if a = regAddr .SF_VERIFY [] then s.mapB (verifyTurned k) else s) := by
  unfold regWrite; rw [if_pos he]

/-- A WRITE of one word is a register write (R619). -/
theorem cmdWrite_one {k : Fin 8} {s : State} {a : Nat} {v : Word} (h : Ready s k) (ha : a < 2 ^ 32) : exec (.cmdWrite k a [v]) s = exec (.registerWrite k a v) s := by
  have hstat : oneStatus s.clk.lattice k s.b (.write a [v]) = writeStatus s.clk.lattice k a v.toNat s.b := by
    rw [oneStatus_write]; exact firstBad_one _
  have hrow : exec (.cmdWrite k a [v]) s = .next (oneCmd k (.write a [v]) s) := cmdWrite_row (Nat.le_refl 1) (by simp) ha
  rw [execRegisterWrite_up h.1]
  by_cases he : writeStatus s.clk.lattice k a v.toNat s.b = 0
  · have hrun := exec_runs (op := 2) hrow h rfl (by decide) (hstat.trans he) rfl
    rw [hrun]
    simp only [writeWords_one, ite_self]
  · rw [hrow, regWrite_refused he]
    unfold oneCmd
    obtain ⟨hu, ho⟩ := h
    simp only [hu, ho, reqStatuses_one, hstat]
    rw [if_neg (by simp), if_pos he]
    by_cases hv : a = regAddr .SF_VERIFY []
    · simp [asksVerify, hv, cmdOp]
      rfl
    · simp [asksVerify, hv]
      rfl

end Sys2Proof.Proofs
end

section
/-! STAGE, COMMIT, STORE and SETPOINT commands of a session (R619, R628, R629). -/

namespace Sys2Proof.Proofs

open Sys2Proof.Machine

/-! ### Staging -/

theorem oneStatus_stage (now : Nat) (k : Fin 8) (b : Block) (a : Nat) (ws : List Word) :
    oneStatus now k b (.stage a ws) = firstBad ((List.range ws.length).map fun i => stageStatus b k (a + 4 * i)) := by
  rw [oneStatus_fits (by simp [respLen]), cmdStatus_stage]

theorem cmdStage_row {k : Fin 8} {s : State} {a : Nat} {ws : List Word} (h1 : 1 ≤ ws.length) (hn : ws.length ≤ 256) (ha : a < 2 ^ 32) :
    exec (.cmdStage k a ws) s = .next (oneCmd k (.stage a ws) s) := by
  rw [exec_cmdStage, execCmdStage, fielded_ok (decide_eq_true ⟨h1, hn, ha⟩)]

/-- The first word that a STAGE may not stage decides its status. -/
theorem cmdStage_refused {k : Fin 8} {s : State} {a i : Nat} {ws : List Word} (h : Ready s k) (hn : ws.length ≤ 256) (ha : a < 2 ^ 32) (hi : i < ws.length)
    (he : stageStatus s.b k (a + 4 * i) ≠ 0) (hz : ∀ j < i, stageStatus s.b k (a + 4 * j) = 0) :
    Turns (.cmdStage k a ws) s (withResult k 3 (stageStatus s.b k (a + 4 * i)) [] .none s.b) := by
  have hs : oneStatus s.clk.lattice k s.b (.stage a ws) = stageStatus s.b k (a + 4 * i) := by
    rw [oneStatus_stage]; exact firstBad_range (f := fun i => stageStatus s.b k (a + 4 * i)) hi he hz
  exact turns_refused (cmdStage_row (by omega) hn ha) h rfl hs he rfl

/-- A STAGE whose words all pass stages them in order. -/
theorem cmdStage_stages {k : Fin 8} {s : State} {a : Nat} {ws : List Word} (h : Ready s k) (h1 : 1 ≤ ws.length) (hn : ws.length ≤ 256) (ha : a < 2 ^ 32)
    (hz : ∀ i < ws.length, stageStatus s.b k (a + 4 * i) = 0) :
    exec (.cmdStage k a ws) s = .next ((stageWords k a ws s).2.mapB (withResult k 3 (stageWords k a ws s).1 [] .none)) := by
  have hs : oneStatus s.clk.lattice k s.b (.stage a ws) = 0 := by
    rw [oneStatus_stage]; exact firstBad_range_zero (f := fun i => stageStatus s.b k (a + 4 * i)) hz
  have hrun := exec_runs (op := 3) (cmdStage_row h1 hn ha) h rfl (by decide) hs rfl
  simpa using hrun

/-- With an image running, a staging write of a register has the status that STAGE checks, and leaves the block when that is not 0. -/
theorem stageOp_status {k a : Nat} {v : Word} {b : Block} (hrun : b.run.on = true) (hb : secBufAt a = none) (hl : localAt a = none) (he : stageStatus b k a ≠ 0) :
    stageOp k a v b = (stageStatus b k a, b) := by
  have hread : ∀ r ix, regAt a = some (r, ix) → readStatus b a = addrStatus b a := by
    intro r ix hr
    unfold readStatus
    by_cases ha : a % 4 ≠ 0
    · simp [ha, addrStatus]
    · simp [ha, hb, hl, hr, hrun]
      exact fun h0 => h0.symm
  cases hr : regAt a with
  | none =>
    have hs : stageStatus b k a = addrStatus b a := by
      unfold stageStatus readStatus addrStatus
      by_cases ha : a % 4 ≠ 0 <;> simp [ha, hb, hl, hr]
    rw [hs] at he ⊢
    unfold stageOp; rw [if_pos he]
  | some p =>
    obtain ⟨r, ix⟩ := p
    unfold stageStatus at he ⊢
    unfold stageOp
    rw [hread r ix hr] at he ⊢
    by_cases h0 : addrStatus b a = 0
    · by_cases hm : sgMask r = 0
      · simp [h0, hr, hm]
      · have hrole : hasRoles b k (stageRole a) = false := by
          by_contra hrole
          simp [h0, hr, hm, hrole] at he
        simp [h0, hr, hm, stageWord, hrole]
    · simp [h0]

theorem stageWord_kept (k a : Nat) (v : Word) (b : Block) : (stageWord k a v b).1 = 0 ∨ (stageWord k a v b).2 = b := by
  unfold stageWord
  dsimp only
  split
  · exact .inr rfl
  · split
    · exact .inr rfl
    · split
      · exact .inr rfl
      · exact .inl rfl

/-- A staging write that is turned away leaves the block. -/
theorem stageOp_fails {k a : Nat} {v : Word} {b : Block} (h : (stageOp k a v b).1 ≠ 0) : (stageOp k a v b).2 = b := by
  have hkept : (stageOp k a v b).1 = 0 ∨ (stageOp k a v b).2 = b := by
    unfold stageOp
    dsimp only
    by_cases he : addrStatus b a ≠ 0
    · rw [if_pos he]; exact .inr rfl
    · rw [if_neg he]
      cases regAt a with
      | none => exact .inr rfl
      | some p =>
        dsimp only
        split
        · exact .inr rfl
        · exact stageWord_kept k a v b
  exact hkept.resolve_left h

theorem stageWords_one (k a : Nat) (v : Word) (s : State) : stageWords k a [v] s = ((stageOp k a v s.b).1, { s with b := (stageOp k a v s.b).2 }) := by
  unfold stageWords
  dsimp only
  by_cases h0 : (stageOp k a v s.b).1 = 0
  · rw [if_neg (not_not.2 h0), h0]; rfl
  · rw [if_pos h0, stageOp_fails h0]

/-- A STAGE of one register is a staging write (R619). -/
theorem cmdStage_one {k : Fin 8} {s : State} {a : Nat} {v : Word} (h : Ready s k) (ha : a < 2 ^ 32) (hrun : s.b.run.on = true) (hb : secBufAt a = none)
    (hl : localAt a = none) : exec (.cmdStage k a [v]) s = exec (.stagingWrite k a v) s := by
  have hstat : oneStatus s.clk.lattice k s.b (.stage a [v]) = stageStatus s.b k a := by rw [oneStatus_stage]; exact firstBad_one _
  have hrow : exec (.cmdStage k a [v]) s = .next (oneCmd k (.stage a [v]) s) := cmdStage_row (Nat.le_refl 1) (by simp) ha
  have hright : exec (.stagingWrite k a v) s = .next { s with b := withResult k 3 (stageOp k a v s.b).1 [] .none (stageOp k a v s.b).2 } := by
    rw [exec_stagingWrite, execStagingWrite, onRun_on _ _ hrun]; rfl
  by_cases he : stageStatus s.b k a = 0
  · rw [hright, exec_runs (op := 3) hrow h rfl (by decide) (hstat.trans he) rfl]
    simp only [stageWords_one, ite_self]
    rfl
  · rw [hright, stageOp_status hrun hb hl he]
    exact turns_refused hrow h rfl hstat he rfl

/-! ### COMMIT and STORE -/

/-- A COMMIT or a STORE. -/
def Configures (c : HCmd) : Prop := (∃ asap tick, c = .commit asap tick) ∨ c = .store

theorem cmdStatus_configures (now : Nat) (k : Fin 8) (b : Block) {c : HCmd} (hc : Configures c) :
    oneStatus now k b c = if !b.run.on then 5 else if hasRoles b k roleConfigure then 0 else 4 := by
  have hk : ¬8 ≤ k.val := Nat.not_le.2 k.isLt
  obtain ⟨asap, tick, rfl⟩ | rfl := hc
  · rw [oneStatus_fits (by simp [respLen])]; simp only [cmdStatus, hk, false_and, if_false]
  · rw [oneStatus_fits (by simp [respLen])]; simp only [cmdStatus, hk, false_and, if_false]

theorem configures_off {now : Nat} {k : Fin 8} {b : Block} {c : HCmd} (hc : Configures c) (hr : b.run.on = false) : oneStatus now k b c = 5 := by
  rw [cmdStatus_configures now k b hc, hr]; rfl

theorem configures_role {now : Nat} {k : Fin 8} {b : Block} {c : HCmd} (hc : Configures c) (hr : b.run.on = true) (hm : ¬hasRoles b k 4 = true) : oneStatus now k b c = 4 := by
  rw [cmdStatus_configures now k b hc, hr, if_neg (by decide)]; exact if_neg hm

theorem configures_ok {now : Nat} {k : Fin 8} {b : Block} {c : HCmd} (hc : Configures c) (hr : b.run.on = true) (hm : hasRoles b k 4 = true) : oneStatus now k b c = 0 := by
  rw [cmdStatus_configures now k b hc, hr, if_neg (by decide)]; exact if_pos hm

theorem cmdCommit_row {k : Fin 8} {s : State} {asap : Bool} {tick : Nat} (ht : tick < 2 ^ 64) :
    exec (.cmdCommit k asap tick) s = .next (oneCmd k (.commit asap tick) s) := by
  rw [exec_cmdCommit, execCmdCommit, fielded_ok (decide_eq_true ht)]

theorem cmdStore_row {k : Fin 8} {s : State} : exec (.cmdStore k) s = .next (oneCmd k .store s) := rfl

theorem tabFind_set_ne {α : Type} [DecidableEq α] (d : α) (t : Tab α) (i j : Nat) (v : α) (h : j ≠ i) : tabFind (tabSet d t i v) j = tabFind t j := by
  unfold tabSet
  split
  · exact tabFind_erase_ne t i j h
  · exact tabFind_insert_ne t i j v h

/-- Whatever an unlisted key reads as, a key not written to reads as before. -/
theorem tabGet_set_other {α : Type} [DecidableEq α] (d d' : α) (t : Tab α) (i j : Nat) (v : α) (h : j ≠ i) : tabGet d' (tabSet d t i v) j = tabGet d' t j := by
  unfold tabGet; rw [tabFind_set_ne d t i j v h]

/-- The registers with CM_APPLY naming a tick. -/
def namedCfg (cfg : Tab Word) (tick : Nat) : Tab Word :=
  tabSet 0 (tabSet 0 cfg (regAddr .CM_APPLY_LO []) (BitVec.ofNat 32 tick)) (regAddr .CM_APPLY_HI []) (BitVec.ofNat 32 (tick / 2 ^ 32))

theorem applyLo_ne_applyHi : regAddr .CM_APPLY_LO [] ≠ regAddr .CM_APPLY_HI [] := by decide

theorem namedCfg_lo (cfg : Tab Word) (tick : Nat) : tabGet 0 (namedCfg cfg tick) (regAddr .CM_APPLY_LO []) = BitVec.ofNat 32 tick := by
  unfold namedCfg; rw [tabGet_set_ne _ _ _ _ _ applyLo_ne_applyHi, tabGet_set_same]

theorem namedCfg_hi (cfg : Tab Word) (tick : Nat) : tabGet 0 (namedCfg cfg tick) (regAddr .CM_APPLY_HI []) = BitVec.ofNat 32 (tick / 2 ^ 32) := tabGet_set_same _ _ _ _

theorem namedCfg_other (cfg : Tab Word) (tick : Nat) (a : Nat) (d : Word) (hlo : a ≠ regAddr .CM_APPLY_LO []) (hhi : a ≠ regAddr .CM_APPLY_HI []) :
    tabGet d (namedCfg cfg tick) a = tabGet d cfg a := by
  unfold namedCfg; rw [tabGet_set_other _ _ _ _ _ _ hhi, tabGet_set_other _ _ _ _ _ _ hlo]

/-- Low and high word of a tick together are the tick. -/
theorem tick_words {tick : Nat} (ht : tick < 2 ^ 64) : (BitVec.ofNat 32 tick).toNat + 2 ^ 32 * (BitVec.ofNat 32 (tick / 2 ^ 32)).toNat = tick := by
  simp only [BitVec.toNat_ofNat]
  omega

/-- Staging is another session's, or a commit is under way: a COMMIT of session `k` is turned away (R91). -/
def CommitBusy (k : Nat) (cm : Commit) : Prop := cm.ph ≠ .idle ∨ (cm.owner ≠ none ∧ cm.owner ≠ some k)

theorem commitBusy_iff (k : Nat) (cm : Commit) : (cm.ph ≠ .idle || (cm.owner.isSome && cm.owner ≠ some k)) = true ↔ CommitBusy k cm := by
  simp [CommitBusy, Option.isSome_iff_ne_none]

theorem commitOp_busy {now k : Nat} {asap : Bool} {b : Block} (h : CommitBusy k b.cm) : commitOp now k asap b = setResult { code := codeBusy, item := some 0 } b := by
  unfold commitOp
  dsimp only
  rw [if_pos ((commitBusy_iff k b.cm).2 h)]

theorem commitOp_begins {now k tick : Nat} {asap : Bool} {b : Block} (h : ¬CommitBusy k b.cm) (hr : hasRoles b k 4 = true) (ht : tick < 2 ^ 64) :
    commitOp now k asap { b with cfg := namedCfg b.cfg tick } =
      { b with cfg := namedCfg b.cfg tick, cm := { b.cm with owner := some k, ph := .checking, asap := asap, named := tick, regAt := now } } := by
  have hr' : hasRoles { b with cfg := namedCfg b.cfg tick } k roleConfigure = true := hr
  unfold commitOp
  dsimp only
  rw [if_neg (fun hb => h ((commitBusy_iff k b.cm).1 hb)), hr', if_neg (by decide), namedCfg_lo, namedCfg_hi, tick_words ht]

/-- The command that names a tick and commits, as the operation on the block. -/
theorem commitCmd_eq (k : Nat) (asap : Bool) (tick : Nat) (s : State) : commitCmd k asap tick s =
    (if s.b.cm.ph ≠ .idle || (s.b.cm.owner.isSome && s.b.cm.owner ≠ some k) then 0x87 else 0,
      { s with b := commitOp s.clk.lattice k asap { s.b with cfg := namedCfg s.b.cfg tick } }) := rfl

theorem runCmd_commit_busy {k : Nat} {asap : Bool} {tick : Nat} {s : State} (h : CommitBusy k s.b.cm) : runCmd k (.commit asap tick) s =
    ((0x87, []), .none, { s with b := setResult { code := codeBusy, item := some 0 } { s.b with cfg := namedCfg s.b.cfg tick } }) := by
  unfold runCmd
  dsimp only
  rw [commitCmd_eq, if_pos ((commitBusy_iff k s.b.cm).2 h), commitOp_busy (b := { s.b with cfg := namedCfg s.b.cfg tick }) h]
  rfl

theorem runCmd_commit_begins {k : Nat} {asap : Bool} {tick : Nat} {s : State} (h : ¬CommitBusy k s.b.cm) (hr : hasRoles s.b k 4 = true) (ht : tick < 2 ^ 64) :
    runCmd k (.commit asap tick) s = ((0, []), .commit,
      { s with b := { s.b with cfg := namedCfg s.b.cfg tick, cm := { s.b.cm with owner := some k, ph := .checking, asap := asap, named := tick, regAt := s.clk.lattice } } }) := by
  unfold runCmd
  dsimp only
  rw [commitCmd_eq, if_neg (fun hb => h ((commitBusy_iff k s.b.cm).1 hb)), commitOp_begins h hr ht]
  rfl

/-- A COMMIT that nothing holds begins its checks, and waits for them (R619). -/
theorem cmdCommit_begins {k : Fin 8} {s : State} {asap : Bool} {tick : Nat} (h : Ready s k) (ht : tick < 2 ^ 64) (hrun : s.b.run.on = true) (hm : hasRoles s.b k 4 = true)
    (hb : ¬CommitBusy k s.b.cm) : Turns (.cmdCommit k asap tick) s (withResult k 4 0 [] .commit
      { s.b with cfg := namedCfg s.b.cfg tick, cm := { s.b.cm with owner := some k, ph := .checking, asap := asap, named := tick, regAt := s.clk.lattice } }) :=
  turns_runs (cmdCommit_row ht) h rfl (by decide) (configures_ok (.inl ⟨asap, tick, rfl⟩) hrun hm) (runCmd_commit_begins hb hm ht)

theorem cmdCommit_busy {k : Fin 8} {s : State} {asap : Bool} {tick : Nat} (h : Ready s k) (ht : tick < 2 ^ 64) (hrun : s.b.run.on = true) (hm : hasRoles s.b k 4 = true)
    (hb : CommitBusy k s.b.cm) : Turns (.cmdCommit k asap tick) s (withResult k 4 0x87 [] .none (setResult { code := codeBusy, item := some 0 } { s.b with cfg := namedCfg s.b.cfg tick })) :=
  turns_runs (cmdCommit_row ht) h rfl (by decide) (configures_ok (.inl ⟨asap, tick, rfl⟩) hrun hm) (runCmd_commit_busy hb)

/-! STORE -/

theorem storeOp_running {now : Nat} {b : Block} (h : b.storeOp ≠ none) : storeOp now b = { b with storeSt := 3 } := by
  unfold storeOp; rw [if_pos (Option.isSome_iff_ne_none.2 h)]

theorem storeOp_powerFail {now : Nat} {b : Block} (h : b.storeOp = none) (hp : b.pw.pfWarn = true) : storeOp now b = { b with storeSt := 2 } := by
  unfold storeOp; rw [h, hp]; rfl

theorem storeOp_begins {now : Nat} {b : Block} (h : b.storeOp = none) (hp : b.pw.pfWarn = false) : (storeOp now b).storeOp.isSome = true := by
  unfold storeOp
  rw [h, hp, if_neg (by decide), if_neg (by decide), nvWrite_wear]
  rfl

theorem runCmd_store_running {k : Nat} {s : State} (h : s.b.storeOp ≠ none) : runCmd k .store s = ((0x43, []), .none, { s with b := { s.b with storeSt := 3 } }) := by
  have hs : s.b.storeOp.isSome = true := Option.isSome_iff_ne_none.2 h
  simp only [runCmd, storeOp_running h, hs, if_true]
  rfl

theorem runCmd_store_powerFail {k : Nat} {s : State} (h : s.b.storeOp = none) (hp : s.b.pw.pfWarn = true) :
    runCmd k .store s = ((0x42, []), .none, { s with b := { s.b with storeSt := 2 } }) := by
  simp only [runCmd, storeOp_powerFail h hp, h]
  rfl

theorem runCmd_store_begins {k : Nat} {s : State} (h : s.b.storeOp = none) (hp : s.b.pw.pfWarn = false) :
    runCmd k .store s = ((0, []), .store, { s with b := storeOp s.clk.lattice s.b }) := by
  simp only [runCmd, storeOp_begins h hp, h]
  rfl

/-- A STORE that begins is the STORE of the session, and waits for its end. -/
theorem cmdStore_begins {k : Fin 8} {s : State} (hready : Ready s k) (hrun : s.b.run.on = true) (hm : hasRoles s.b k 4 = true) (h : s.b.storeOp = none) (hp : s.b.pw.pfWarn = false) :
    ∃ w, exec (.store k) s = .next w ∧ exec (.cmdStore k) s = .next (w.mapB (withResult k 5 0 [] .store)) := by
  have hstore : exec (.store k) s = .next { s with b := withResult k 5 0 [] .none (storeOp s.clk.lattice s.b) } := by
    rw [exec_store, execStore, onRun_on _ _ hrun, storeCmd, if_neg (by simp [roleConfigure, hm])]
    rfl
  refine ⟨_, hstore, ?_⟩
  rw [exec_runs (op := 5) cmdStore_row hready rfl (by decide) (configures_ok (.inr rfl) hrun hm) (runCmd_store_begins h hp)]
  exact congrArg Host.Outcome.next (congrArg (fun b => { s with b := b }) (withResult_withResult (by decide) (by decide) 0 0 [] [] .none .store _).symm)

end Sys2Proof.Proofs
end

section
/-! SETPOINT commands and transfer reads of a session (R624, R626 to R629). -/

namespace Sys2Proof.Proofs

open Sys2Proof.Machine

/-! ### Set-points (R628, R629) -/

theorem cmdSetpoint_row {k : Fin 8} {s : State} {tile input ap : Nat} {v : DWord} (ht : tile < 8) (hi : input < 32) (ha : ap < 2 ^ 64) :
    exec (.cmdSetpoint k tile input ap v) s = .next (oneCmd k (.setpoint tile input ap v.toInt) s) := by
  rw [exec_cmdSetpoint, execCmdSetpoint, fielded_ok (decide_eq_true ⟨ht, hi, ha⟩)]

theorem oneStatus_setpoint (now : Nat) (k : Fin 8) (b : Block) (tile input ap : Nat) (v : Int) :
    oneStatus now k b (.setpoint tile input ap v) = setpointStatus b k tile input := by
  have hk : ¬8 ≤ k.val := Nat.not_le.2 k.isLt
  rw [oneStatus_fits (by simp [respLen])]; simp only [cmdStatus, hk, false_and, if_false]

/-- A tile that runs takes set-points at an input that an interval feeds. -/
def Fed (b : Block) (tile input : Nat) : Prop := tileOn b tile = true ∧ spI b tile input ≠ 0

theorem setpointStatus_unfed {b : Block} {k tile input : Nat} (h : ¬Fed b tile input) : setpointStatus b k tile input = 3 := by
  unfold setpointStatus
  rw [if_pos]
  by_cases ht : tileOn b tile = true
  · have hz : spI b tile input = 0 := by
      by_contra hz
      exact h ⟨ht, hz⟩
    simp [hz]
  · simp [ht]

theorem setpointStatus_fed {b : Block} {k tile input : Nat} (h : Fed b tile input) : setpointStatus b k tile input =
    if !hasRoles b k roleOperate then 4 else if Fld.BL_SPIN_EN b.cfg tile input then 5 else 0 := by
  obtain ⟨ht, hz⟩ := h
  unfold setpointStatus
  rw [if_neg (by simp [ht, hz])]

theorem setpoint_refused {k : Fin 8} {s : State} {tile input ap : Nat} {v : DWord} {e : Nat} (h : Ready s k) (ht : tile < 8) (hi : input < 32) (ha : ap < 2 ^ 64)
    (hs : setpointStatus s.b k tile input = e) (he : e ≠ 0) : Turns (.cmdSetpoint k tile input ap v) s (withResult k 8 e [] .none s.b) :=
  turns_refused (cmdSetpoint_row ht hi ha) h rfl ((oneStatus_setpoint _ _ _ _ _ _ _).trans hs) he rfl

/-- A set-point on its way, at what was left of the session's credit and its count of class 5. -/
def setpointSent (now k tile input ap : Nat) (v : Int) (low : Bool) (y : Block) (fly : List SpFly) : Block :=
  { y with spFly := fly ++ [{ dst := 32 * tile + input, apply := ap, val := v, src := k, cls5 := low, at_ := now }] }

theorem setpointOp_paid {now k tile input ap : Nat} {v : Int} {b : Block} (hr : b.run.spRate.getD k 0 ≠ 0) (hc : 1000000000 ≤ spCredit now k b) :
    setpointOp now k tile input ap v b =
      setpointSent now k tile input ap v false (b.sessUpd k fun z => { z with credit := spCredit now k b - 1000000000, creditAt := now }) b.spFly := by
  have hpaid : (decide (b.run.spRate.getD k 0 ≠ 0) && decide (1000000000 ≤ spCredit now k b)) = true := by rw [decide_eq_true hr, decide_eq_true hc]; rfl
  unfold setpointOp
  simp only [hpaid, if_true]
  rfl

theorem setpointOp_counted {now k tile input ap : Nat} {v : Int} {b : Block} (h : b.run.spRate.getD k 0 = 0 ∨ spCredit now k b < 1000000000) :
    setpointOp now k tile input ap v b =
      setpointSent now k tile input ap v true (b.sessUpd k fun z => { z with credit := spCredit now k b, creditAt := now, class5 := min 0xFFFFFFFF (z.class5 + 1) }) b.spFly := by
  have hpaid : (decide (b.run.spRate.getD k 0 ≠ 0) && decide (1000000000 ≤ spCredit now k b)) = false := by
    rcases h with h | h
    · rw [decide_eq_false (not_not.2 h), Bool.false_and]
    · rw [decide_eq_false (Nat.not_le.2 h), Bool.and_false]
  unfold setpointOp
  simp only [hpaid, Bool.false_eq_true, if_false]
  rfl

/-- A set-point that passes goes on its way (R628). -/
theorem setpoint_sent {k : Fin 8} {s : State} {tile input ap : Nat} {v : DWord} (h : Ready s k) (ht : tile < 8) (hi : input < 32) (ha : ap < 2 ^ 64)
    (hs : setpointStatus s.b k tile input = 0) :
    Turns (.cmdSetpoint k tile input ap v) s (withResult k 8 0 [] .none (setpointOp s.clk.lattice k tile input ap v.toInt s.b)) :=
  turns_runs (cmdSetpoint_row ht hi ha) h rfl (by decide) ((oneStatus_setpoint _ _ _ _ _ _ _).trans hs) rfl

/-! ### Transfer reads (R624) -/

/-- The fields of a transfer read are in range. -/
def ReadRange (tg n q ofs : Nat) : Prop := 4 ≤ n ∧ n ≤ 1024 ∧ n % 4 = 0 ∧ 1 ≤ tg ∧ tg ≤ 7 ∧ q < 256 ∧ ofs < 2 ^ 32

theorem cmdXferRead_row {k : Fin 8} {s : State} {tg n q ofs : Nat} (hr : ReadRange tg n q ofs) :
    exec (.cmdXferRead k tg n q ofs) s = .next (oneCmd k (.xread tg q ofs n) s) := by
  obtain ⟨h4, hn, hw, ht, ht', hq, ho⟩ := hr
  rw [exec_cmdXferRead, execCmdXferRead, fielded_ok (decide_eq_true ⟨h4, hn, hw, ht, ht', hq, ho⟩)]

theorem cmdStatus_xread (now : Nat) (k : Fin 8) (b : Block) (tg q ofs n : Nat) : cmdStatus now k b (.xread tg q ofs n) = xreadStatus b tg q ofs n := by
  have hk : ¬8 ≤ k.val := Nat.not_le.2 k.isLt
  simp only [cmdStatus, hk, false_and, if_false]

theorem xread_refused {k : Fin 8} {s : State} {tg n q ofs e : Nat} (h : Ready s k) (hr : ReadRange tg n q ofs) (hs : oneStatus s.clk.lattice k s.b (.xread tg q ofs n) = e)
    (he : e ≠ 0) : Turns (.cmdXferRead k tg n q ofs) s (withResult k 6 e [] .none s.b) :=
  turns_refused (cmdXferRead_row hr) h rfl hs he rfl

/-- A transfer read whose bytes fit a response has the status of its target. -/
theorem oneStatus_xread {now : Nat} {k : Fin 8} {b : Block} {tg q ofs n : Nat} (hl : xreadLen b tg q n 0 ≤ 1428) :
    oneStatus now k b (.xread tg q ofs n) = xreadStatus b tg q ofs n := by
  rw [oneStatus_fits (c := .xread tg q ofs n) hl, cmdStatus_xread]

/-- A target without a queue returns as many bytes as asked for. -/
theorem xreadLen_plain {b : Block} {tg q n : Nat} (h4 : tg ≠ 4) (h6 : tg ≠ 6) : xreadLen b tg q n 0 = n := by simp [xreadLen, h4, h6]

theorem oneStatus_xread_plain {now : Nat} {k : Fin 8} {b : Block} {tg q ofs n : Nat} (hr : ReadRange tg n q ofs) (h4 : tg ≠ 4) (h6 : tg ≠ 6) :
    oneStatus now k b (.xread tg q ofs n) = xreadStatus b tg q ofs n := by
  obtain ⟨-, hn, -⟩ := hr
  exact oneStatus_xread (by rw [xreadLen_plain h4 h6]; omega)

/-- A transfer read at a misaligned offset is malformed, however long its item. -/
theorem oneStatus_xread_misaligned {now : Nat} {k : Fin 8} {b : Block} {tg q ofs n : Nat} (h : ofs % 4 ≠ 0) : oneStatus now k b (.xread tg q ofs n) = 1 := by
  unfold oneStatus
  rw [cmdStatus_xread]
  unfold xreadStatus
  rw [if_pos h, ite_self]

/-- The block after a transfer read from the memory stack, and its status. -/
theorem xread_memory {k : Fin 8} {s : State} {tg n q ofs base : Nat} (h : Ready s k) (hr : ReadRange tg n q ofs) (h4 : tg ≠ 4) (h6 : tg ≠ 6) (hs : xreadStatus s.b tg q ofs n = 0)
    (hx : xread tg q ofs n s.b = if badIn s.b base n then ((6, []), s.b) else ((0, tabBytes 0 s.b.mem base n), s.b)) :
    (badIn s.b base n = false → Turns (.cmdXferRead k tg n q ofs) s (withResult k 6 0 (tabBytes 0 s.b.mem base n) .none s.b)) ∧
      (badIn s.b base n = true → Turns (.cmdXferRead k tg n q ofs) s (withResult k 6 6 [] .none s.b)) := by
  have hone := (oneStatus_xread_plain (now := s.clk.lattice) (k := k) hr h4 h6).trans hs
  refine ⟨fun hb => ?_, fun hb => ?_⟩
  · exact turns_runs (e := 0) (data := tabBytes 0 s.b.mem base n) (cmdXferRead_row hr) h rfl (by decide) hone (by unfold runCmd; dsimp only; rw [hx, hb]; rfl)
  · exact turns_runs (e := 6) (data := []) (cmdXferRead_row hr) h rfl (by decide) hone (by unfold runCmd; dsimp only; rw [hx, hb]; rfl)

/-- A transfer read that has passed and returns bytes. -/
theorem xread_gets {k : Fin 8} {s : State} {tg n q ofs : Nat} {data : List Byte} {y : Block} (h : Ready s k) (hr : ReadRange tg n q ofs)
    (hs : oneStatus s.clk.lattice k s.b (.xread tg q ofs n) = 0) (hx : xread tg q ofs n s.b = ((0, data), y)) :
    Turns (.cmdXferRead k tg n q ofs) s (withResult k 6 0 data .none y) :=
  turns_runs (e := 0) (data := data) (cmdXferRead_row hr) h rfl (by decide) hs (by unfold runCmd; dsimp only; rw [hx])

/-! Queues of ports -/

/-- The receive queue of a port of the star is in use. -/
def PortUsed (b : Block) (q : Nat) : Prop := q < 12 ∧ Fld.BL_PORT_CFG_EN b.cfg q = true

/-- The receive queue of a PTP port is in use. -/
def PtpUsed (b : Block) (q : Nat) : Prop := q < 2 ∧ Fld.NT_PTP_CFG_EN b.cfg q = true

theorem portUsed_iff (b : Block) (q : Nat) : (decide (q < 12) && Fld.BL_PORT_CFG_EN b.cfg q) = true ↔ PortUsed b q := by simp [PortUsed]

theorem ptpUsed_iff (b : Block) (q : Nat) : (decide (q < 2) && Fld.NT_PTP_CFG_EN b.cfg q) = true ↔ PtpUsed b q := by simp [PtpUsed]

theorem xqueue_port {b : Block} {q : Nat} (h : PortUsed b q) : xqueue b 4 q = (b.blAt q).rxq := by
  unfold xqueue; rw [if_pos rfl, if_pos ((portUsed_iff b q).2 h)]

theorem xqueue_port_unused {b : Block} {q : Nat} (h : ¬PortUsed b q) : xqueue b 4 q = [] := by
  unfold xqueue; rw [if_pos rfl, if_neg (fun hu => h ((portUsed_iff b q).1 hu))]

theorem xqueue_ptp {b : Block} {q : Nat} (h : PtpUsed b q) : xqueue b 6 q = (b.ptpAt q).rx := by
  unfold xqueue; rw [if_neg (by decide), if_pos rfl, if_pos ((ptpUsed_iff b q).2 h)]

theorem xqueue_ptp_unused {b : Block} {q : Nat} (h : ¬PtpUsed b q) : xqueue b 6 q = [] := by
  unfold xqueue; rw [if_neg (by decide), if_pos rfl, if_neg (fun hu => h ((ptpUsed_iff b q).1 hu))]

theorem xreadLen_queue (b : Block) {tg : Nat} (q n : Nat) (h : tg = 4 ∨ tg = 6) : xreadLen b tg q n 0 = ((xqueue b tg q).headD []).length := by
  unfold xreadLen; rw [if_pos h]; rfl

/-- An item too long for a response makes the read malformed (R618). -/
theorem oneStatus_xread_long {now : Nat} {k : Fin 8} {b : Block} {tg q ofs n : Nat} (hl : 1428 < xreadLen b tg q n 0) : oneStatus now k b (.xread tg q ofs n) = 1 := by
  unfold oneStatus
  rw [if_pos]
  show 1440 < 8 + (4 + xreadLen b tg q n 0)
  omega

end Sys2Proof.Proofs
end

section
/-! What each target of a transfer read answers (R624, R626, R627). -/

namespace Sys2Proof.Proofs

open Sys2Proof.Machine

/-- No partition has the index, or the bytes leave the one that has it. -/
def NoPart (b : Block) (q ofs n : Nat) : Prop := partIdx b q = none ∨ ∃ p, partIdx b q = some p ∧ p.size * 65536 < ofs + n

theorem xreadStatus_noPart {b : Block} {q ofs n : Nat} (ha : ofs % 4 = 0) (h : NoPart b q ofs n) : xreadStatus b 1 q ofs n = 3 := by
  unfold xreadStatus
  rw [if_neg (not_not.2 ha)]
  rcases h with h | ⟨p, h, hlt⟩
  · simp only [h]
  · simp only [h, if_pos hlt]

theorem xreadStatus_part {b : Block} {q ofs n : Nat} {p : Part} (ha : ofs % 4 = 0) (h : partIdx b q = some p) (hle : ofs + n ≤ p.size * 65536) : xreadStatus b 1 q ofs n = 0 := by
  unfold xreadStatus
  rw [if_neg (not_not.2 ha)]
  simp only [h, if_neg (Nat.not_lt.2 hle)]

theorem xread_part {b : Block} {q ofs n : Nat} {p : Part} (h : partIdx b q = some p) : xread 1 q ofs n b =
    if badIn b (p.base * 65536 + ofs) n then ((6, []), b) else ((0, tabBytes 0 b.mem (p.base * 65536 + ofs) n), b) := by
  unfold xread; simp only [h]

theorem xreadStatus_stage_out {b : Block} {q ofs n : Nat} (ha : ofs % 4 = 0) (h : q ≠ 0 ∨ 4 * 1024 * 1024 < ofs + n) : xreadStatus b 2 q ofs n = 3 := by
  unfold xreadStatus
  rw [if_neg (not_not.2 ha)]
  exact if_pos h

theorem xreadStatus_stage {b : Block} {ofs n : Nat} (ha : ofs % 4 = 0) (h : ofs + n ≤ 4 * 1024 * 1024) : xreadStatus b 2 0 ofs n = 0 := by
  have hin : ¬((0 : Nat) ≠ 0 ∨ stageSize < ofs + n) := fun hor => hor.elim (fun h0 => h0 rfl) (Nat.not_lt.2 h)
  unfold xreadStatus
  rw [if_neg (not_not.2 ha)]
  exact if_neg hin

theorem xread_stage (b : Block) (q ofs n : Nat) : xread 2 q ofs n b =
    if badIn b (4032 * 65536 + ofs) n then ((6, []), b) else ((0, tabBytes 0 b.mem (4032 * 65536 + ofs) n), b) := rfl

theorem xreadStatus_port {b : Block} {q ofs n : Nat} (ha : ofs % 4 = 0) : (PortUsed b q → xreadStatus b 4 q ofs n = 0) ∧ (¬PortUsed b q → xreadStatus b 4 q ofs n = 3) := by
  unfold xreadStatus
  rw [if_neg (not_not.2 ha)]
  exact ⟨fun h => if_pos ((portUsed_iff b q).2 h), fun h => if_neg fun hu => h ((portUsed_iff b q).1 hu)⟩

theorem xreadStatus_ptp {b : Block} {q ofs n : Nat} (ha : ofs % 4 = 0) : (PtpUsed b q → xreadStatus b 6 q ofs n = 0) ∧ (¬PtpUsed b q → xreadStatus b 6 q ofs n = 3) := by
  unfold xreadStatus
  rw [if_neg (not_not.2 ha)]
  exact ⟨fun h => if_pos ((ptpUsed_iff b q).2 h), fun h => if_neg fun hu => h ((ptpUsed_iff b q).1 hu)⟩

/-- The certificate's length, padded to whole words. -/
def certLen (b : Block) : Nat := (b.nv.keys.cert.length + 3) / 4 * 4

theorem length_slice (l : List Byte) (o n : Nat) : (slice l o n).length = n := by
  simp only [slice, List.length_append, List.length_replicate, List.length_take, List.length_drop]
  omega

theorem xreadStatus_cert_out {b : Block} {q ofs n : Nat} (ha : ofs % 4 = 0) (h : q ≠ 0 ∨ certLen b < ofs + n) : xreadStatus b 7 q ofs n = 3 := by
  have hlen : (certBytes b).length = certLen b := length_slice _ _ _
  unfold xreadStatus
  rw [if_neg (not_not.2 ha)]
  exact if_pos (by rw [hlen]; exact h)

theorem xreadStatus_cert {b : Block} {ofs n : Nat} (ha : ofs % 4 = 0) (h : ofs + n ≤ certLen b) : xreadStatus b 7 0 ofs n = 0 := by
  have hlen : (certBytes b).length = certLen b := length_slice _ _ _
  have hin : ¬((0 : Nat) ≠ 0 ∨ (certBytes b).length < ofs + n) := by rw [hlen]; exact fun hor => hor.elim (fun h0 => h0 rfl) (Nat.not_lt.2 h)
  unfold xreadStatus
  rw [if_neg (not_not.2 ha)]
  exact if_neg hin

/-- Targets that only take writes. -/
theorem xreadStatus_writeOnly {b : Block} {tg q ofs n : Nat} (ha : ofs % 4 = 0) (h : tg = 3 ∨ tg = 5) : xreadStatus b tg q ofs n = 3 := by
  unfold xreadStatus
  rw [if_neg (not_not.2 ha)]
  rcases h with rfl | rfl <;> rfl

/-! ### Queues -/

theorem xread_portItem {b : Block} {q ofs n : Nat} (h : PortUsed b q) :
    xread 4 q ofs n b = ((0, (b.blAt q).rxq.headD []), b.blUpd q fun z => { z with rxq := (b.blAt q).rxq.drop 1 }) := by
  have hupd : (b.blUpd q fun z => { z with rxq := z.rxq.drop 1 }) = b.blUpd q fun z => { z with rxq := (b.blAt q).rxq.drop 1 } := blUpd_congr _ _ _ _ rfl
  rw [← hupd, ← xqueue_port h]
  rfl

theorem xread_ptpItem {b : Block} {q ofs n : Nat} (h : PtpUsed b q) :
    xread 6 q ofs n b = ((0, (b.ptpAt q).rx.headD []), b.ptpUpd q fun z => { z with rx := (b.ptpAt q).rx.drop 1 }) := by
  have hupd : (b.ptpUpd q fun z => { z with rx := z.rx.drop 1 }) = b.ptpUpd q fun z => { z with rx := (b.ptpAt q).rx.drop 1 } := ptpUpd_congr _ _ _ _ rfl
  rw [← hupd, ← xqueue_ptp h]
  rfl

/-- The oldest item of a port of the star: too long for a response, or returned and gone. -/
theorem xferRead_port {k : Fin 8} {s : State} {n q ofs : Nat} (h : Ready s k) (hr : ReadRange 4 n q ofs) (ha : ofs % 4 = 0) (hu : PortUsed s.b q) :
    (1428 < ((s.b.blAt q).rxq.headD []).length → Turns (.cmdXferRead k 4 n q ofs) s (withResult k 6 1 [] .none s.b)) ∧
      (((s.b.blAt q).rxq.headD []).length ≤ 1428 → Turns (.cmdXferRead k 4 n q ofs) s
        (withResult k 6 0 ((s.b.blAt q).rxq.headD []) .none (s.b.blUpd q fun z => { z with rxq := (s.b.blAt q).rxq.drop 1 }))) := by
  have hlen : xreadLen s.b 4 q n 0 = ((s.b.blAt q).rxq.headD []).length := by rw [xreadLen_queue _ _ _ (.inl rfl), xqueue_port hu]
  refine ⟨fun hl => xread_refused h hr (oneStatus_xread_long (by rw [hlen]; exact hl)) (by decide), fun hl => ?_⟩
  exact xread_gets h hr ((oneStatus_xread (by rw [hlen]; exact hl)).trans ((xreadStatus_port ha).1 hu)) (xread_portItem hu)

theorem xferRead_port_unused {k : Fin 8} {s : State} {n q ofs : Nat} (h : Ready s k) (hr : ReadRange 4 n q ofs) (ha : ofs % 4 = 0) (hu : ¬PortUsed s.b q) :
    Turns (.cmdXferRead k 4 n q ofs) s (withResult k 6 3 [] .none s.b) := by
  have hlen : xreadLen s.b 4 q n 0 = 0 := by rw [xreadLen_queue _ _ _ (.inl rfl), xqueue_port_unused hu]; rfl
  exact xread_refused h hr ((oneStatus_xread (by rw [hlen]; omega)).trans ((xreadStatus_port ha).2 hu)) (by decide)

/-- The oldest item of a PTP port: too long for a response, or returned and gone. -/
theorem xferRead_ptp {k : Fin 8} {s : State} {n q ofs : Nat} (h : Ready s k) (hr : ReadRange 6 n q ofs) (ha : ofs % 4 = 0) (hu : PtpUsed s.b q) :
    (1428 < ((s.b.ptpAt q).rx.headD []).length → Turns (.cmdXferRead k 6 n q ofs) s (withResult k 6 1 [] .none s.b)) ∧
      (((s.b.ptpAt q).rx.headD []).length ≤ 1428 → Turns (.cmdXferRead k 6 n q ofs) s
        (withResult k 6 0 ((s.b.ptpAt q).rx.headD []) .none (s.b.ptpUpd q fun z => { z with rx := (s.b.ptpAt q).rx.drop 1 }))) := by
  have hlen : xreadLen s.b 6 q n 0 = ((s.b.ptpAt q).rx.headD []).length := by rw [xreadLen_queue _ _ _ (.inr rfl), xqueue_ptp hu]
  refine ⟨fun hl => xread_refused h hr (oneStatus_xread_long (by rw [hlen]; exact hl)) (by decide), fun hl => ?_⟩
  exact xread_gets h hr ((oneStatus_xread (by rw [hlen]; exact hl)).trans ((xreadStatus_ptp ha).1 hu)) (xread_ptpItem hu)

theorem xferRead_ptp_unused {k : Fin 8} {s : State} {n q ofs : Nat} (h : Ready s k) (hr : ReadRange 6 n q ofs) (ha : ofs % 4 = 0) (hu : ¬PtpUsed s.b q) :
    Turns (.cmdXferRead k 6 n q ofs) s (withResult k 6 3 [] .none s.b) := by
  have hlen : xreadLen s.b 6 q n 0 = 0 := by rw [xreadLen_queue _ _ _ (.inr rfl), xqueue_ptp_unused hu]; rfl
  exact xread_refused h hr ((oneStatus_xread (by rw [hlen]; omega)).trans ((xreadStatus_ptp ha).2 hu)) (by decide)

end Sys2Proof.Proofs
end

section
/-! Transfer writes of a session, target by target (R625 to R627). -/

namespace Sys2Proof.Proofs

open Sys2Proof.Machine

/-! ### Checks -/

/-- The fields of a transfer write are in range. -/
def WriteRange (tg q ofs : Nat) (data : List Byte) : Prop := 1 ≤ tg ∧ tg ≤ 7 ∧ q < 256 ∧ ofs < 2 ^ 32 ∧ data.length < 65536

theorem cmdXferWrite_row {k : Fin 8} {s : State} {tg q ofs : Nat} {last : Bool} {data : List Byte} (hr : WriteRange tg q ofs data) :
    exec (.cmdXferWrite k tg last q ofs data) s = .next (oneCmd k (.xwrite tg last q ofs data) s) := by
  obtain ⟨ht, ht', hq, ho, hn⟩ := hr
  rw [exec_cmdXferWrite, execCmdXferWrite, fielded_ok (decide_eq_true ⟨ht, ht', hq, ho, hn⟩)]

theorem oneStatus_xwrite (now : Nat) (k : Fin 8) (b : Block) (tg : Nat) (last : Bool) (q ofs : Nat) (data : List Byte) :
    oneStatus now k b (.xwrite tg last q ofs data) = xwriteStatus b k tg q ofs data := by
  have hk : ¬8 ≤ k.val := Nat.not_le.2 k.isLt
  rw [oneStatus_fits (by simp [respLen])]; simp only [cmdStatus, hk, false_and, if_false]

theorem xwrite_refused {k : Fin 8} {s : State} {tg q ofs e : Nat} {last : Bool} {data : List Byte} (h : Ready s k) (hr : WriteRange tg q ofs data)
    (hs : xwriteStatus s.b k tg q ofs data = e) (he : e ≠ 0) : Turns (.cmdXferWrite k tg last q ofs data) s (withResult k 7 e [] .none s.b) :=
  turns_refused (cmdXferWrite_row hr) h rfl ((oneStatus_xwrite _ _ _ _ _ _ _ _).trans hs) he rfl

/-- A transfer write that has passed its checks: the block it makes, its status, and the wait of a LAST write of the staged image. -/
theorem xwrite_turns {k : Fin 8} {s : State} {tg q ofs e : Nat} {last : Bool} {data : List Byte} {y : Block} (h : Ready s k) (hr : WriteRange tg q ofs data)
    (hs : xwriteStatus s.b k tg q ofs data = 0) (hx : xwrite k tg last q ofs data s.b = (e, y)) :
    Turns (.cmdXferWrite k tg last q ofs data) s (withResult k 7 e [] (if decide (e = 0) && last && decide (tg = 2) then .image else .none) y) := by
  have hrun : runCmd k (.xwrite tg last q ofs data) s = ((e, []), if decide (e = 0) && last && decide (tg = 2) then .image else .none, { s with b := y }) := by
    unfold runCmd; dsimp only; rw [hx]
  have hturn := turns_runs (op := 7) (cmdXferWrite_row hr) h rfl (by decide) ((oneStatus_xwrite _ _ _ _ _ _ _ _).trans hs) hrun
  rwa [ite_self] at hturn

/-- A transfer write that does not fit its target's format, or is misaligned. -/
def Misfit (tg ofs n : Nat) : Prop := (tg = 3 ∧ (n < 4 ∨ 260 < n ∨ n % 4 ≠ 0)) ∨ (tg = 5 ∧ n < 4) ∨ ofs % 4 ≠ 0

theorem xwriteStatus_misfit {b : Block} {k tg q ofs : Nat} {data : List Byte} (h : Misfit tg ofs data.length) : xwriteStatus b k tg q ofs data = 1 := by
  unfold xwriteStatus; exact if_pos h

/-- What a target needs: the CONFIGURE or OPERATE role, and that nothing refuses the write. -/
def roleStatus (b : Block) (k need : Nat) (refused : Bool) : Nat := if !hasRoles b k need then 4 else if refused then 5 else 0

theorem roleStatus_role {b : Block} {k need : Nat} {refused : Bool} (h : ¬hasRoles b k need = true) : roleStatus b k need refused = 4 := by simp [roleStatus, h]

theorem roleStatus_may {b : Block} {k need : Nat} {refused : Bool} (h : hasRoles b k need = true) : roleStatus b k need refused = if refused then 5 else 0 := by simp [roleStatus, h]

theorem xwriteStatus_readOnly {b : Block} {k tg q ofs : Nat} {data : List Byte} (hm : ¬Misfit tg ofs data.length) (h : tg = 4 ∨ tg = 6 ∨ tg = 7) :
    xwriteStatus b k tg q ofs data = 3 := by
  unfold xwriteStatus
  dsimp only
  unfold Misfit at hm
  rw [if_neg hm]
  rcases h with rfl | rfl | rfl <;> rfl

theorem xwriteStatus_noPart {b : Block} {k q ofs : Nat} {data : List Byte} (hm : ¬Misfit 1 ofs data.length) (h : NoPart b q ofs data.length) :
    xwriteStatus b k 1 q ofs data = 3 := by
  unfold xwriteStatus
  dsimp only
  unfold Misfit at hm
  rw [if_neg hm]
  rcases h with h | ⟨p, h, hlt⟩
  · simp only [h]
  · simp only [h, if_pos hlt]

theorem xwriteStatus_part {b : Block} {k q ofs : Nat} {data : List Byte} {p : Part} (hm : ¬Misfit 1 ofs data.length) (h : partIdx b q = some p) (hle : ofs + data.length ≤ p.size * 65536) :
    xwriteStatus b k 1 q ofs data = roleStatus b k 4 (decide (p.kind = 4) || hitsLocked b (p.base * 65536 + ofs) data.length) := by
  unfold xwriteStatus
  dsimp only
  unfold Misfit at hm
  rw [if_neg hm]
  simp only [h, if_neg (Nat.not_lt.2 hle)]
  rfl

theorem xwriteStatus_stage_out {b : Block} {k q ofs : Nat} {data : List Byte} (hm : ¬Misfit 2 ofs data.length) (h : q ≠ 0 ∨ 4 * 1024 * 1024 < ofs + data.length) :
    xwriteStatus b k 2 q ofs data = 3 := by
  unfold xwriteStatus
  dsimp only
  unfold Misfit at hm
  rw [if_neg hm]
  exact if_pos h

theorem xwriteStatus_stage {b : Block} {k ofs : Nat} {data : List Byte} (hm : ¬Misfit 2 ofs data.length) (h : ofs + data.length ≤ 4 * 1024 * 1024) :
    xwriteStatus b k 2 0 ofs data = roleStatus b k 4 (stageHeld b k) := by
  have hin : ¬((0 : Nat) ≠ 0 ∨ stageSize < ofs + data.length) := fun hor => hor.elim (fun h0 => h0 rfl) (Nat.not_lt.2 h)
  unfold xwriteStatus
  dsimp only
  unfold Misfit at hm
  rw [if_neg hm]
  exact if_neg hin

theorem xwriteStatus_port {b : Block} {k q ofs : Nat} {data : List Byte} (hm : ¬Misfit 3 ofs data.length) :
    (PortUsed b q → xwriteStatus b k 3 q ofs data = roleStatus b k 2 false) ∧ (¬PortUsed b q → xwriteStatus b k 3 q ofs data = 3) := by
  unfold xwriteStatus
  dsimp only
  unfold Misfit at hm
  rw [if_neg hm]
  exact ⟨fun h => if_pos ((portUsed_iff b q).2 h), fun h => if_neg fun hu => h ((portUsed_iff b q).1 hu)⟩

theorem xwriteStatus_ptp {b : Block} {k q ofs : Nat} {data : List Byte} (hm : ¬Misfit 5 ofs data.length) :
    (PtpUsed b q → xwriteStatus b k 5 q ofs data = roleStatus b k 2 false) ∧ (¬PtpUsed b q → xwriteStatus b k 5 q ofs data = 3) := by
  unfold xwriteStatus
  dsimp only
  unfold Misfit at hm
  rw [if_neg hm]
  exact ⟨fun h => if_pos ((ptpUsed_iff b q).2 h), fun h => if_neg fun hu => h ((ptpUsed_iff b q).1 hu)⟩

end Sys2Proof.Proofs
end

section
/-! What a transfer write stores, queues or stages once its checks have passed (R625 to R627). -/

namespace Sys2Proof.Proofs

open Sys2Proof.Machine

/-! ### Bytes stored -/

/-- Block `y` is `b` with `data` written to the memory stack from `base` on; a word written whole is good again. -/
def Stored (base : Nat) (data : List Byte) (b y : Block) : Prop :=
  y = { b with mem := y.mem, badMem := y.badMem } ∧ (∀ a, tabGet 0 y.mem a = if base ≤ a ∧ a < base + data.length then data.getD (a - base) 0 else tabGet 0 b.mem a) ∧
    ∀ w, w ∈ y.badMem ↔ w ∈ b.badMem ∧ ¬(base ≤ 4 * w ∧ 4 * w + 4 ≤ base + data.length)

theorem memWrite_stored (base : Nat) (data : List Byte) (b : Block) : Stored base data b (memWrite base data b) :=
  ⟨rfl, fun a => memWrite_read base a data b, fun w => by
    simp only [memWrite, List.mem_filter, Bool.not_eq_true', Bool.and_eq_false_iff, decide_eq_false_iff_not, and_congr_right_iff]
    omega⟩

/-! ### Partitions -/

theorem xwrite_part {k q ofs : Nat} {last : Bool} {data : List Byte} {b : Block} {p : Part} (h : partIdx b q = some p) :
    xwrite k 1 last q ofs data b = (0, memWrite (p.base * 65536 + ofs) data b) := by
  unfold xwrite; simp only [h]

/-- A transfer write to a target without LAST: status and block, and nothing to wait for. -/
theorem xwrite_turns_plain {k : Fin 8} {s : State} {tg q ofs e : Nat} {last : Bool} {data : List Byte} {y : Block} (h : Ready s k) (hr : WriteRange tg q ofs data)
    (hs : xwriteStatus s.b k tg q ofs data = 0) (hx : xwrite k tg last q ofs data s.b = (e, y)) (hw : tg ≠ 2 ∨ last = false ∨ e ≠ 0) :
    Turns (.cmdXferWrite k tg last q ofs data) s (withResult k 7 e [] .none y) := by
  have hturn := xwrite_turns h hr hs hx
  rwa [if_neg (by rcases hw with hw | hw | hw <;> simp [hw])] at hturn

/-- A transfer write to a partition: the role, what locks it, and the bytes stored. -/
theorem xferWrite_partition {k : Fin 8} {s : State} {q ofs : Nat} {last : Bool} {data : List Byte} {p : Part} (h : Ready s k) (hr : WriteRange 1 q ofs data)
    (hm : ¬Misfit 1 ofs data.length) (hp : partIdx s.b q = some p) (hle : ofs + data.length ≤ p.size * 65536) : let base := p.base * 65536 + ofs
    (¬hasRoles s.b k 4 = true → Turns (.cmdXferWrite k 1 last q ofs data) s (withResult k 7 4 [] .none s.b)) ∧
      (hasRoles s.b k 4 = true → (p.kind = 4 ∨ hitsLocked s.b base data.length = true) → Turns (.cmdXferWrite k 1 last q ofs data) s (withResult k 7 5 [] .none s.b)) ∧
      (hasRoles s.b k 4 = true → p.kind ≠ 4 → hitsLocked s.b base data.length = false →
        Gives (.cmdXferWrite k 1 last q ofs data) s fun u => ∃ y, Stored base data s.b y ∧ u = { s with b := withResult k 7 0 [] .none y }) := by
  have hstatus := xwriteStatus_part (k := k) hm hp hle
  refine ⟨fun hrole => xwrite_refused h hr (hstatus.trans (roleStatus_role hrole)) (by decide), fun hrole hk => ?_, fun hrole hk hl => ?_⟩
  · have hrefused : (decide (p.kind = 4) || hitsLocked s.b (p.base * 65536 + ofs) data.length) = true := by rcases hk with hk | hk <;> simp [hk]
    exact xwrite_refused h hr (hstatus.trans ((roleStatus_may hrole).trans (if_pos hrefused))) (by decide)
  · have hopen : xwriteStatus s.b k 1 q ofs data = 0 := by rw [hstatus, roleStatus_may hrole]; simp [hk, hl]
    exact ⟨_, xwrite_turns_plain h hr hopen (xwrite_part hp) (.inl (by decide)), _, memWrite_stored _ _ _, rfl⟩

/-! ### The staged image -/

/-- Staging is held against a transfer write of session `k` (R625). -/
def Held (k : Nat) (cm : Commit) : Prop := (cm.owner ≠ none ∧ cm.owner ≠ some k) ∨ (cm.image ≠ none ∧ (cm.ph = .accepted ∨ cm.ph = .go))

theorem stageHeld_iff (b : Block) (k : Nat) : stageHeld b k = true ↔ Held k b.cm := by simp [stageHeld, Held, Option.isSome_iff_ne_none]

theorem stageStatus_held {k ofs : Nat} {b : Block} {data : List Byte} (hm : ¬Misfit 2 ofs data.length) (hle : ofs + data.length ≤ 4 * 1024 * 1024) (hrole : hasRoles b k 4 = true) :
    (Held k b.cm → xwriteStatus b k 2 0 ofs data = 5) ∧ (¬Held k b.cm → xwriteStatus b k 2 0 ofs data = 0) := by
  rw [xwriteStatus_stage hm hle, roleStatus_may hrole]
  exact ⟨fun h => if_pos ((stageHeld_iff b k).2 h), fun h => if_neg fun hh => h ((stageHeld_iff b k).1 hh)⟩

/-- The bytes of a staged image that have been written. -/
def stagedLen (y : Block) : Nat := min (4 * 1024 * 1024) (leNat (tabBytes 0 y.mem (4032 * 65536 + 12) 4))

/-- The commit engine with the staged image handed over for verification. -/
def imageStaged (k : Nat) (cm : Commit) (y : Block) : Commit :=
  { cm with owner := some k, imgBusy := 1, imgBytes := tabBytes 0 y.mem (4032 * 65536) (stagedLen y), imgDone := false, imgBad := badIn y (4032 * 65536) (stagedLen y) }

theorem xwrite_stage_busy {k q ofs : Nat} {last : Bool} {data : List Byte} {b : Block} (h : b.cm.ph ≠ .idle) :
    xwrite k 2 last q ofs data b = (if last then 0x87 else 0, memWrite (4032 * 65536 + ofs) data b) := by
  have hph : (memWrite (stageBase + ofs) data b).cm.ph ≠ .idle := h
  unfold xwrite
  dsimp only
  rw [if_pos hph]
  cases last <;> rfl

theorem xwrite_stage_part {k q ofs : Nat} {data : List Byte} {b : Block} (h : b.cm.ph = .idle) :
    xwrite k 2 false q ofs data b = (0, { memWrite (4032 * 65536 + ofs) data b with cm := { b.cm with owner := some k } }) := by
  have hph : ¬(memWrite (stageBase + ofs) data b).cm.ph ≠ .idle := not_not.2 h
  unfold xwrite
  dsimp only
  rw [if_neg hph]
  rfl

theorem xwrite_stage_last {k q ofs : Nat} {data : List Byte} {b : Block} (h : b.cm.ph = .idle) :
    xwrite k 2 true q ofs data b = (0, { memWrite (4032 * 65536 + ofs) data b with cm := imageStaged k b.cm (memWrite (4032 * 65536 + ofs) data b) }) := by
  have hph : ¬(memWrite (stageBase + ofs) data b).cm.ph ≠ .idle := not_not.2 h
  unfold xwrite
  dsimp only
  rw [if_neg hph]
  rfl

/-- A transfer write to the staged image: the role, who holds staging, and the bytes stored; LAST hands the image over. -/
theorem xferWrite_image {k : Fin 8} {s : State} {ofs : Nat} {last : Bool} {data : List Byte} (h : Ready s k) (hr : WriteRange 2 0 ofs data)
    (hm : ¬Misfit 2 ofs data.length) (hle : ofs + data.length ≤ 4 * 1024 * 1024) : let base := 4032 * 65536 + ofs
    let c := Instr.cmdXferWrite k 2 last 0 ofs data
    (¬hasRoles s.b k 4 = true → Turns c s (withResult k 7 4 [] .none s.b)) ∧
      (hasRoles s.b k 4 = true → Held k s.b.cm → Turns c s (withResult k 7 5 [] .none s.b)) ∧
      (hasRoles s.b k 4 = true → ¬Held k s.b.cm → s.b.cm.ph ≠ .idle →
        Gives c s fun u => ∃ y, Stored base data s.b y ∧ u = { s with b := withResult k 7 (if last = true then 0x87 else 0) [] .none y }) ∧
      (hasRoles s.b k 4 = true → ¬Held k s.b.cm → s.b.cm.ph = .idle → last = false →
        Gives c s fun u => ∃ y, Stored base data s.b y ∧ u = { s with b := withResult k 7 0 [] .none { y with cm := { s.b.cm with owner := some k } } }) ∧
      (hasRoles s.b k 4 = true → ¬Held k s.b.cm → s.b.cm.ph = .idle → last = true →
        Gives c s fun u => ∃ y, Stored base data s.b y ∧ u = { s with b := withResult k 7 0 [] .image { y with cm := imageStaged k s.b.cm y } }) := by
  have hopen : hasRoles s.b k 4 = true → ¬Held k s.b.cm → xwriteStatus s.b k 2 0 ofs data = 0 := fun hrole => (stageStatus_held hm hle hrole).2
  refine ⟨fun hrole => xwrite_refused h hr ((xwriteStatus_stage hm hle).trans (roleStatus_role hrole)) (by decide),
    fun hrole hh => xwrite_refused h hr ((stageStatus_held hm hle hrole).1 hh) (by decide), fun hrole hh hph => ?_, fun hrole hh hph hlast => ?_, fun hrole hh hph hlast => ?_⟩
  · have hlast : (2 : Nat) ≠ 2 ∨ last = false ∨ (if last = true then 0x87 else 0) ≠ 0 := by cases last <;> simp
    exact ⟨_, xwrite_turns_plain h hr (hopen hrole hh) (xwrite_stage_busy hph) hlast, _, memWrite_stored _ _ _, rfl⟩
  · subst hlast
    exact ⟨_, xwrite_turns_plain h hr (hopen hrole hh) (xwrite_stage_part hph) (.inr (.inl rfl)), _, memWrite_stored _ _ _, rfl⟩
  · subst hlast
    exact ⟨_, xwrite_turns h hr (hopen hrole hh) (xwrite_stage_last hph), _, memWrite_stored _ _ _, rfl⟩

/-! ### Queues -/

theorem xwrite_port {k q ofs : Nat} {last : Bool} {data : List Byte} {b : Block} : xwrite k 3 last q ofs data b =
    if (b.blAt q).fwdq.length + (b.blAt q).hostq.length < 8 then
      (0, b.blUpd q fun z => { z with hostq := z.hostq ++ [(decide (leAt data 1 1 ≠ 0), leAt data 0 1, data.drop 4)] })
    else (5, b.blUpd q fun z => { z with fwdDrop := min 255 (z.fwdDrop + 1) }) := rfl

theorem xwrite_ptp {k q ofs : Nat} {last : Bool} {data : List Byte} {b : Block} : xwrite k 5 last q ofs data b =
    if (b.ptpAt q).txq.length < 16 then
      (0, b.ptpUpd q fun z => { z with txq := z.txq ++ [{ frame := data.drop 4, tsReq := bit (leAt data 0 4) 0, oneStep := bit (leAt data 0 4) 1 }] })
    else (5, b.ptpUpd q fun z => { z with txOvf := true }) := rfl

/-- A transfer write to the queue of a port of the star: the role, and room for 8 items. -/
theorem xferWrite_port {k : Fin 8} {s : State} {q ofs : Nat} {last : Bool} {data : List Byte} (h : Ready s k) (hr : WriteRange 3 q ofs data) (hm : ¬Misfit 3 ofs data.length)
    (hu : PortUsed s.b q) : let l := (s.b.blAt q).fwdq.length + (s.b.blAt q).hostq.length
    let c := Instr.cmdXferWrite k 3 last q ofs data
    (¬hasRoles s.b k 2 = true → Turns c s (withResult k 7 4 [] .none s.b)) ∧
      (hasRoles s.b k 2 = true → l < 8 →
        Turns c s (withResult k 7 0 [] .none (s.b.blUpd q fun z => { z with hostq := z.hostq ++ [(decide (leAt data 1 1 ≠ 0), leAt data 0 1, data.drop 4)] }))) ∧
      (hasRoles s.b k 2 = true → 8 ≤ l → Turns c s (withResult k 7 5 [] .none (s.b.blUpd q fun z => { z with fwdDrop := min 255 (z.fwdDrop + 1) }))) := by
  have hstatus := (xwriteStatus_port (k := k) hm).1 hu
  refine ⟨fun hrole => xwrite_refused h hr (hstatus.trans (roleStatus_role hrole)) (by decide), fun hrole hl => ?_, fun hrole hl => ?_⟩
  · exact xwrite_turns_plain h hr (hstatus.trans (roleStatus_may hrole)) (xwrite_port.trans (if_pos hl)) (.inl (by decide))
  · exact xwrite_turns_plain h hr (hstatus.trans (roleStatus_may hrole)) (xwrite_port.trans (if_neg (Nat.not_lt.2 hl))) (.inl (by decide))

/-- A transfer write to the queue of a PTP port: the role, and room for 16 frames. -/
theorem xferWrite_ptp {k : Fin 8} {s : State} {q ofs : Nat} {last : Bool} {data : List Byte} (h : Ready s k) (hr : WriteRange 5 q ofs data) (hm : ¬Misfit 5 ofs data.length)
    (hu : PtpUsed s.b q) : let c := Instr.cmdXferWrite k 5 last q ofs data
    (¬hasRoles s.b k 2 = true → Turns c s (withResult k 7 4 [] .none s.b)) ∧
      (hasRoles s.b k 2 = true → (s.b.ptpAt q).txq.length < 16 → Turns c s (withResult k 7 0 [] .none
        (s.b.ptpUpd q fun z => { z with txq := z.txq ++ [{ frame := data.drop 4, tsReq := bit (leAt data 0 4) 0, oneStep := bit (leAt data 0 4) 1 }] }))) ∧
      (hasRoles s.b k 2 = true → 16 ≤ (s.b.ptpAt q).txq.length → Turns c s (withResult k 7 5 [] .none (s.b.ptpUpd q fun z => { z with txOvf := true }))) := by
  have hstatus := (xwriteStatus_ptp (k := k) hm).1 hu
  refine ⟨fun hrole => xwrite_refused h hr (hstatus.trans (roleStatus_role hrole)) (by decide), fun hrole hl => ?_, fun hrole hl => ?_⟩
  · exact xwrite_turns_plain h hr (hstatus.trans (roleStatus_may hrole)) (xwrite_ptp.trans (if_pos hl)) (.inl (by decide))
  · exact xwrite_turns_plain h hr (hstatus.trans (roleStatus_may hrole)) (xwrite_ptp.trans (if_neg (Nat.not_lt.2 hl))) (.inl (by decide))

end Sys2Proof.Proofs
end

section
/-! Register writes of a session (R7, R91, R361, R619). -/

namespace Sys2Proof.Proofs

open Sys2Proof.Machine

/-- A register write of which the status and the block are known. -/
theorem registerWrite_turns {k : Fin 8} {s : State} {a e : Nat} {v : Word} {y : Block} (hu : s.clk.up = true) (hw : regWrite k a v.toNat s = (e, { s with b := y })) :
    Turns (.registerWrite k a v) s (withResult k 2 e [] .none y) := by
  unfold Turns
  rw [execRegisterWrite_up hu, hw]
  rfl

theorem registerWrite_gives {k : Fin 8} {s u : State} {a e : Nat} {v : Word} (hu : s.clk.up = true) (hw : regWrite k a v.toNat s = (e, u)) :
    exec (.registerWrite k a v) s = .next (u.mapB (withResult k 2 e [] .none)) := by rw [execRegisterWrite_up hu, hw]

theorem registerWrite_down {k : Fin 8} {s : State} {a : Nat} {v : Word} (hu : s.clk.up = false) : Turns (.registerWrite k a v) s s.b := by
  unfold Turns
  rw [exec_registerWrite, execRegisterWrite, if_neg (by simp [hu])]

/-! ### Refusals -/

theorem verifyTurned_eq (k : Nat) (b : Block) : verifyTurned k b = if b.run.on = true ∧ ¬hasRoles b k 8 = true then { b with sf := { b.sf with verifyErr := true } } else b := by
  have hiff : (b.run.on && !hasRoles b k roleSafety) = true ↔ b.run.on = true ∧ ¬hasRoles b k 8 = true := by simp [roleSafety]
  unfold verifyTurned
  exact if_congr hiff rfl rfl

theorem registerWrite_refused {k : Fin 8} {s : State} {a : Nat} {v : Word} (hu : s.clk.up = true) (he : writeStatus s.clk.lattice k a v.toNat s.b ≠ 0) :
    (a ≠ regAddr .SF_VERIFY [] → Turns (.registerWrite k a v) s (withResult k 2 (writeStatus s.clk.lattice k a v.toNat s.b) [] .none s.b)) ∧
      (a = regAddr .SF_VERIFY [] → Turns (.registerWrite k a v) s (withResult k 2 (writeStatus s.clk.lattice k a v.toNat s.b) [] .none (verifyTurned k s.b))) := by
  have hw := regWrite_refused he
  refine ⟨fun ha => ?_, fun ha => ?_⟩
  · rw [if_neg ha] at hw
    exact registerWrite_turns hu hw
  · rw [if_pos ha] at hw
    exact registerWrite_turns hu hw

/-! ### Bank buffers and local memory -/

theorem regWrite_buf {k a v o : Nat} {s : State} (he : writeStatus s.clk.lattice k a v s.b = 0) (hb : secBufAt a = some o) :
    regWrite k a v s = (0, { s with b := s.b.bankUpd k fun z => { z with buf := tabFill 0 z.buf o (leBytes 4 v) } }) := by
  unfold regWrite
  dsimp only
  rw [if_neg (not_not.2 he), hb]
  rfl

/-- A word address in sequencer local memory names a tile and a word of its 64 Ki. -/
theorem localAt_range {a t w : Nat} (h : localAt a = some (t, w)) : t < 8 ∧ w < 65536 := by
  unfold localAt at h
  split at h
  · next hr =>
    obtain ⟨h1, h2, h3, h4⟩ := hr
    simp only [Option.some.injEq, Prod.mk.injEq] at h
    obtain ⟨rfl, rfl⟩ := h
    omega
  · exact absurd h (by simp)

/-- A word that may be written may be read. -/
theorem readStatus_of_write {now k a v : Nat} {b : Block} (he : writeStatus now k a v b = 0) : readStatus b a = 0 := by
  by_contra hne
  unfold writeStatus at he
  dsimp only at he
  rw [if_pos hne] at he
  exact hne he

/-- A write of local memory that passes: the tile runs, and the word lies outside the code. -/
theorem writeStatus_local {now k a v t w : Nat} {b : Block} (he : writeStatus now k a v b = 0) (hb : secBufAt a = none) (hl : localAt a = some (t, w)) :
    tileLive b t = true ∧ ¬w < Fld.SQ_CFG_CODE_LEN b.cfg t := by
  have hread := readStatus_of_write he
  refine ⟨?_, fun hlt => ?_⟩
  · unfold readStatus at hread
    by_cases ha : a % 4 = 0
    · simp only [ha, hb, hl] at hread
      by_contra hlive
      simp only [tileStatus, hlive] at hread
      revert hread
      cases tileOn b t <;> simp
    · simp [ha] at hread
  · unfold writeStatus at he
    simp only [hread, hb, hl, hlt, if_true] at he
    revert he
    cases hasRoles b k roleOperate <;> simp

theorem regWrite_local {k a v t w : Nat} {s : State} (he : writeStatus s.clk.lattice k a v s.b = 0) (hb : secBufAt a = none) (hl : localAt a = some (t, w)) :
    regWrite k a v s = (0, { s with b := s.b.seqUpd t fun z => { z with mem := tabSet 0 (s.b.seqAt t).mem w (BitVec.ofNat 32 v) } }) := by
  obtain ⟨ht, hw⟩ := localAt_range hl
  obtain ⟨hlive, hcode⟩ := writeStatus_local he hb hl
  have htile : (Fin.ofNat 8 t).val = t := Nat.mod_eq_of_lt ht
  have hword : (BitVec.ofNat 16 w).toNat = w := by rw [BitVec.toNat_ofNat]; exact Nat.mod_eq_of_lt hw
  have hexec : execLocalMemoryWrite (Fin.ofNat 8 t) (BitVec.ofNat 16 w) (BitVec.ofNat 32 v) s =
      .next { s with b := s.b.seqUpd t fun z => { z with mem := tabSet 0 z.mem w (BitVec.ofNat 32 v) } } := by
    unfold execLocalMemoryWrite
    rw [htile, hword, onTile_live _ _ _ hlive, localWrite, if_neg hcode]
  have hupd : (s.b.seqUpd t fun z => { z with mem := tabSet 0 z.mem w (BitVec.ofNat 32 v) }) = s.b.seqUpd t fun z => { z with mem := tabSet 0 (s.b.seqAt t).mem w (BitVec.ofNat 32 v) } :=
    seqUpd_congr _ _ _ _ rfl
  unfold regWrite
  dsimp only
  rw [if_neg (not_not.2 he), hb, hl]
  dsimp only
  rw [hexec, hupd]
  rfl

/-! ### Registers -/

theorem regWrite_reg {k a v : Nat} {s : State} {r : RegId} {ix : List Nat} (he : writeStatus s.clk.lattice k a v s.b = 0) (hb : secBufAt a = none) (hl : localAt a = none)
    (hr : regAt a = some (r, ix)) :
    regWrite k a v s = if sgMask r ≠ 0 then ((stageOp k a (BitVec.ofNat 32 v) s.b).1, { s with b := (stageOp k a (BitVec.ofNat 32 v) s.b).2 }) else regAct k r ix a v s := by
  unfold regWrite
  dsimp only
  rw [if_neg (not_not.2 he), hb, hl]
  dsimp only
  rw [hr]

end Sys2Proof.Proofs
end

section
/-! Register writes by the kind of register: staged fields, read-write fields, AX_CTRL (R7, R91, R674). -/

namespace Sys2Proof.Proofs

open Sys2Proof.Machine

/-- A write that passes addresses a register that answers. -/
theorem addrStatus_of_write {now k a v : Nat} {b : Block} (he : writeStatus now k a v b = 0) (hb : secBufAt a = none) (hl : localAt a = none) : addrStatus b a = 0 := by
  have hread := readStatus_of_write he
  by_contra haddr
  unfold readStatus at hread
  by_cases ha : a % 4 = 0
  · simp [ha, hb, hl, haddr] at hread
  · simp [ha] at hread

theorem regWrite_staged {k a v : Nat} {s : State} {r : RegId} {ix : List Nat} (he : writeStatus s.clk.lattice k a v s.b = 0) (hb : secBufAt a = none) (hl : localAt a = none)
    (hr : regAt a = some (r, ix)) (hm : sgMask r ≠ 0) :
    regWrite k a v s = ((stageWord k a (BitVec.ofNat 32 v) s.b).1, { s with b := (stageWord k a (BitVec.ofNat 32 v) s.b).2 }) := by
  have hstage : stageOp k a (BitVec.ofNat 32 v) s.b = stageWord k a (BitVec.ofNat 32 v) s.b := by
    unfold stageOp
    dsimp only
    rw [if_neg (not_not.2 (addrStatus_of_write he hb hl)), hr]
    exact if_neg hm
  rw [regWrite_reg he hb hl hr, if_pos hm, hstage]

/-! ### Read-write fields -/

/-- Registers whose RW fields are all that a write of them changes. -/
def plainRegs : List RegId :=
  [.CM_APPLY_LO, .CM_APPLY_HI, .CM_PEEK_ADDR, .CE_MODE_AT_LO, .CE_MODE_AT_HI, .QD_REFVAL_LO, .QD_REFVAL_HI, .GR_CMP_POS_LO, .GR_CMP_POS_HI, .GR_CMP_PITCH_LO, .GR_CMP_PITCH_HI, .GR_CMP_COUNT,
    .AQ_HUB_ARM_LO, .AQ_HUB_ARM_HI, .NT_STEP_LO, .NT_STEP_HI, .NT_EV_CFG, .NT_EV_T_LO, .NT_EV_T_HI, .NT_EV_PER, .NT_EV_WIDTH, .SEC_IDLE]

/-- The registers with the RW fields of one written. -/
def rwWritten (r : RegId) (a v : Nat) (cfg : Tab Word) : Tab Word :=
  tabSet (regDef r).reset cfg a (mergeBits (regDef r).rw (tabGet (regDef r).reset cfg a) (BitVec.ofNat 32 v))

theorem plainRegs_masks : ∀ r ∈ plainRegs, sgMask r = 0 ∧ ¬((regDef r).rw = 0 ∨ r = .CE_MODE ∨ r = .SEC_TAMPER ∨ r = .SEC_RTC_LO ∨ r = .SEC_RTC_HI ∨ r = .GR_PLG_FEED ∨ r = .HL_LOG_SEL ∨ r = .NT_RATE) := by
  decide

/-- A write of such a register clears no flag and gives no command. -/
theorem regAct_plain {r : RegId} (hr : r ∈ plainRegs) (k : Nat) (ix : List Nat) (a v : Nat) (s : State) : regAct k r ix a v s = (0, { s with b := rwSet r a v s.b }) := by
  simp only [plainRegs, List.mem_cons, List.not_mem_nil, or_false] at hr
  rcases hr with rfl | rfl | rfl | rfl | rfl | rfl | rfl | rfl | rfl | rfl | rfl | rfl | rfl | rfl | rfl | rfl | rfl | rfl | rfl | rfl | rfl | rfl <;> rfl

theorem regWrite_plain {k a v : Nat} {s : State} {r : RegId} {ix : List Nat} (he : writeStatus s.clk.lattice k a v s.b = 0) (hb : secBufAt a = none) (hl : localAt a = none)
    (hr : regAt a = some (r, ix)) (hp : r ∈ plainRegs) : regWrite k a v s = (0, { s with b := { s.b with cfg := rwWritten r a v s.b.cfg } }) := by
  obtain ⟨hsg, hrw⟩ := plainRegs_masks r hp
  have hset : rwSet r a v s.b = { s.b with cfg := rwWritten r a v s.b.cfg } := by
    unfold rwSet
    dsimp only
    rw [if_neg hrw]
    rfl
  rw [regWrite_reg he hb hl hr, if_neg (not_not.2 hsg), regAct_plain hp, hset]

theorem rwWritten_same (r : RegId) (a v : Nat) (cfg : Tab Word) :
    tabGet (regDef r).reset (rwWritten r a v cfg) a = mergeBits (regDef r).rw (tabGet (regDef r).reset cfg a) (BitVec.ofNat 32 v) := tabGet_set_same _ _ _ _

theorem rwWritten_other (r : RegId) {a a' : Nat} (v : Nat) (cfg : Tab Word) (h : a' ≠ a) (d : Word) : tabGet d (rwWritten r a v cfg) a' = tabGet d cfg a' :=
  tabGet_set_other _ _ _ _ _ _ h

/-! ### AX_CTRL -/

/-- The bits of AX_CTRL in order: enable, disable, align. -/
def axCtrl (t : Fin 8) (j : Fin 4) (v : Nat) (s : State) : State :=
  whenBit v 2 (execAxAlign t j) (whenBit v 1 (execAxDisable t j) (whenBit v 0 (execAxEnable t j) s))

theorem regAct_axCtrl (k : Nat) (t : Fin 8) (j : Fin 4) (a v : Nat) (s : State) : regAct k .AX_CTRL [t.val, j.val] a v s = (0, axCtrl t j v s) := by
  have ht : Fin.ofNat 8 t.val = t := Fin.ext (Nat.mod_eq_of_lt t.isLt)
  have hj : Fin.ofNat 4 j.val = j := Fin.ext (Nat.mod_eq_of_lt j.isLt)
  show (0, axCtrl (Fin.ofNat 8 t.val) (Fin.ofNat 4 j.val) v s) = _
  rw [ht, hj]

theorem regWrite_axCtrl {k a v : Nat} {s : State} {t : Fin 8} {j : Fin 4} (he : writeStatus s.clk.lattice k a v s.b = 0) (hb : secBufAt a = none) (hl : localAt a = none)
    (hr : regAt a = some (.AX_CTRL, [t.val, j.val])) : regWrite k a v s = (0, axCtrl t j v s) := by
  rw [regWrite_reg he hb hl hr, if_neg (by decide), regAct_axCtrl]

theorem axCtrl_enable {t : Fin 8} {j : Fin 4} {v : Nat} {s : State} (h : v % 8 = 1) : axCtrl t j v s = afterRow (execAxEnable t j s) s := by
  have h0 : bit v 0 = true := by simp [bit]; omega
  have h1 : bit v 1 = false := by simp [bit]; omega
  have h2 : bit v 2 = false := by simp [bit]; omega
  simp [axCtrl, whenBit, h0, h1, h2]

theorem axCtrl_disable {t : Fin 8} {j : Fin 4} {v : Nat} {s : State} (h : v % 8 = 2) : axCtrl t j v s = afterRow (execAxDisable t j s) s := by
  have h0 : bit v 0 = false := by simp [bit]; omega
  have h1 : bit v 1 = true := by simp [bit]; omega
  have h2 : bit v 2 = false := by simp [bit]; omega
  simp [axCtrl, whenBit, h0, h1, h2]

theorem axCtrl_align {t : Fin 8} {j : Fin 4} {v : Nat} {s : State} (h : v % 8 = 4) : axCtrl t j v s = afterRow (execAxAlign t j s) s := by
  have h0 : bit v 0 = false := by simp [bit]; omega
  have h1 : bit v 1 = false := by simp [bit]; omega
  have h2 : bit v 2 = true := by simp [bit]; omega
  simp [axCtrl, whenBit, h0, h1, h2]

end Sys2Proof.Proofs
end

section
/-! Settling O59: each command row by the lemma about its command. -/

namespace Sys2Proof.Proofs

open Sys2Proof.Machine

/-- A row of a session that is not ready does nothing. -/
theorem turns_unready {i : Instr} {s : State} {k : Nat} {c : HCmd} (hi : exec i s = .next (oneCmd k c s)) (h : ¬Ready s k) : Turns i s s.b := by
  unfold Turns; rw [hi, oneCmd_unready c h]

/-- Settles O59: rows out of range by `turns_malformed`, refusals by `turns_refused`, effects by the lemma about each command's operation. -/
theorem hostCommands : Obligations.HostCommands := by
  intro k s
  dsimp only
  refine ⟨fun hready => ?_, fun hready => ?_, fun hu a v => registerWrite_down hu, fun hu a v => ?_⟩
  · intro n a ws asap tick tg q ofs last bytes tile input ap v
    have hnot : ¬Ready s k := hready
    exact ⟨turns_unready rfl hnot, turns_unready rfl hnot, turns_unready rfl hnot, turns_unready rfl hnot, turns_unready rfl hnot, turns_unready rfl hnot, turns_unready rfl hnot,
      turns_unready rfl hnot⟩
  · have h : Ready s k := hready
    refine ⟨fun n a hr => turns_malformed rfl h (decide_eq_false hr), fun a ws hr => ⟨turns_malformed rfl h (decide_eq_false hr), turns_malformed rfl h (decide_eq_false hr)⟩,
      fun asap tick hr => turns_malformed rfl h (decide_eq_false hr), fun tg n q ofs hr => turns_malformed rfl h (decide_eq_false hr),
      fun tg last q ofs data hr => turns_malformed rfl h (decide_eq_false hr), fun tile input ap v hr => turns_malformed rfl h (decide_eq_false hr),
      fun n a i h1 hn ha hi he hz => cmdRead_refused h h1 hn ha hi he hz, fun n a h1 hn ha hz => cmdRead_gives h h1 hn ha hz,
      fun a ws i v hn ha hi he hz hv => cmdWrite_refused h hn ha hi he hz hv, fun a v ha => cmdWrite_one h ha, fun a ws h1 hn ha hz => cmdWrite_writes h h1 hn ha hz,
      fun a ws i hn ha hi he hz => cmdStage_refused h hn ha hi he hz, fun a v ha hr hb hl => cmdStage_one h ha hr hb hl, fun a ws h1 hn ha hz => cmdStage_stages h h1 hn ha hz,
      fun asap tick ht hr => ?_, fun asap tick ht hr hm => ?_, fun asap tick ht hr hm => ⟨fun hp ho => ?_, fun hb => ?_⟩,
      fun hr hm h0 hp => cmdStore_begins h hr hm h0 hp, fun hr hm h0 hp => ?_, fun hr hm h0 => ?_, fun tg n q ofs h4 hn hw ht ht' hq ho => ?_,
      fun tg last q ofs data hn ht ht' hq ho => ?_, fun tile input ap v ht hi ha => ?_⟩
    · exact ⟨turns_refused (cmdCommit_row ht) h rfl (configures_off (.inl ⟨asap, tick, rfl⟩) hr) (by decide) rfl, turns_refused cmdStore_row h rfl (configures_off (.inr rfl) hr) (by decide) rfl⟩
    · exact ⟨turns_refused (cmdCommit_row ht) h rfl (configures_role (.inl ⟨asap, tick, rfl⟩) hr hm) (by decide) rfl,
        turns_refused cmdStore_row h rfl (configures_role (.inr rfl) hr hm) (by decide) rfl⟩
    · have hnot : ¬CommitBusy k s.b.cm := fun hb => hb.elim (fun h0 => h0 hp) fun h0 => ho.elim h0.1 h0.2
      exact ⟨_, cmdCommit_begins h ht hr hm hnot, namedCfg s.b.cfg tick, ⟨namedCfg_lo _ _, namedCfg_hi _ _, fun a d => namedCfg_other _ _ a d⟩, rfl⟩
    · exact ⟨_, cmdCommit_busy h ht hr hm hb, namedCfg s.b.cfg tick, _, _, ⟨namedCfg_lo _ _, namedCfg_hi _ _, fun a d => namedCfg_other _ _ a d⟩, rfl⟩
    · exact turns_runs cmdStore_row h rfl (by decide) (configures_ok (.inr rfl) hr hm) (runCmd_store_powerFail h0 hp)
    · exact turns_runs cmdStore_row h rfl (by decide) (configures_ok (.inr rfl) hr hm) (runCmd_store_running h0)
    · have hrange : ReadRange tg n q ofs := ⟨h4, hn, hw, ht, ht', hq, ho⟩
      have hplain : ∀ e, tg ≠ 4 → tg ≠ 6 → xreadStatus s.b tg q ofs n = e → e ≠ 0 → Turns (.cmdXferRead k tg n q ofs) s (withResult k 6 e [] .none s.b) :=
        fun e h4 h6 hs he => xread_refused h hrange ((oneStatus_xread_plain hrange h4 h6).trans hs) he
      refine ⟨fun ha => xread_refused h hrange (oneStatus_xread_misaligned ha) (by decide), fun ha hw => ?_, fun ha h1 hp => ?_, fun p ha h1 hp hle => ?_, fun ha h2 hout => ?_,
        fun ha h2 h0 hle => ?_, fun ha h4 hu => ?_, fun ha h4 hq hen => ?_, fun ha h6 hu => ?_, fun ha h6 hq hen => ?_, fun ha h7 hout => ?_, fun ha h7 h0 hle => ?_⟩
      · exact hplain 3 (by omega) (by omega) (xreadStatus_writeOnly ha hw) (by decide)
      · subst h1; exact hplain 3 (by decide) (by decide) (xreadStatus_noPart ha hp) (by decide)
      · subst h1; exact xread_memory h hrange (by decide) (by decide) (xreadStatus_part ha hp hle) (xread_part hp)
      · subst h2; exact hplain 3 (by decide) (by decide) (xreadStatus_stage_out ha hout) (by decide)
      · subst h2 h0; exact xread_memory h hrange (by decide) (by decide) (xreadStatus_stage ha hle) (xread_stage _ _ _ _)
      · subst h4; exact xferRead_port_unused h hrange ha hu
      · subst h4; exact xferRead_port h hrange ha ⟨hq, hen⟩
      · subst h6; exact xferRead_ptp_unused h hrange ha hu
      · subst h6; exact xferRead_ptp h hrange ha ⟨hq, hen⟩
      · subst h7; exact hplain 3 (by decide) (by decide) (xreadStatus_cert_out ha hout) (by decide)
      · subst h7 h0; exact xread_gets h hrange ((oneStatus_xread_plain hrange (by decide) (by decide)).trans (xreadStatus_cert ha hle)) rfl
    · have hrange : WriteRange tg q ofs data := ⟨ht, ht', hq, ho, hn⟩
      refine ⟨fun hm => xwrite_refused h hrange (xwriteStatus_misfit hm) (by decide), fun hm ht => xwrite_refused h hrange (xwriteStatus_readOnly hm ht) (by decide), fun hm h1 hp => ?_,
        fun p hm h1 hp hle => ?_, fun hm h2 hout => ?_, fun hm h2 h0 hle => ?_, fun hm h3 hu => ?_, fun hm h3 hq hen => ?_, fun hm h5 hu => ?_, fun hm h5 hq hen => ?_⟩
      · subst h1; exact xwrite_refused h hrange (xwriteStatus_noPart hm hp) (by decide)
      · subst h1; exact xferWrite_partition h hrange hm hp hle
      · subst h2; exact xwrite_refused h hrange (xwriteStatus_stage_out hm hout) (by decide)
      · subst h2 h0; exact xferWrite_image h hrange hm hle
      · subst h3; exact xwrite_refused h hrange ((xwriteStatus_port hm).2 hu) (by decide)
      · subst h3; exact xferWrite_port h hrange hm ⟨hq, hen⟩
      · subst h5; exact xwrite_refused h hrange ((xwriteStatus_ptp hm).2 hu) (by decide)
      · subst h5; exact xferWrite_ptp h hrange hm ⟨hq, hen⟩
    · refine ⟨fun hf => setpoint_refused h ht hi ha (setpointStatus_unfed hf) (by decide), fun hf hm => ?_, fun hf hm he => ?_, fun hf hm he => ?_⟩
      · exact setpoint_refused h ht hi ha ((setpointStatus_fed hf).trans (if_pos (by simp [roleOperate, hm]))) (by decide)
      · exact setpoint_refused h ht hi ha ((setpointStatus_fed hf).trans ((if_neg (by simp [roleOperate, hm])).trans (if_pos he))) (by decide)
      · have hturn := setpoint_sent (v := v) h ht hi ha ((setpointStatus_fed hf).trans ((if_neg (by simp [roleOperate, hm])).trans (if_neg (by simp [he]))))
        refine ⟨fun hrate hcredit => ?_, fun hnone => ?_⟩
        · rw [setpointOp_paid hrate hcredit] at hturn
          exact hturn
        · rw [setpointOp_counted hnone] at hturn
          exact hturn
  · refine ⟨fun he ha => (registerWrite_refused hu he).1 ha, fun he ha => ?_, fun o he hb => registerWrite_turns hu (regWrite_buf he hb), fun t w he hb hl => ?_,
      fun r ix he hb hl hr hm => ?_, fun r ix he hb hl hr hp => ?_, fun t j he hb hl hr => ⟨fun hv => ?_, fun hv => ?_, fun hv => ?_⟩⟩
    · have hturn := (registerWrite_refused hu he).2 ha
      rw [verifyTurned_eq] at hturn
      exact hturn
    · refine ⟨_, registerWrite_turns hu (regWrite_local he hb hl), _, rfl, ?_, fun w' hw => tabGet_set_ne _ _ _ _ _ hw⟩
      rw [tabGet_set_same, BitVec.ofNat_toNat, BitVec.setWidth_eq]
    · have hword := regWrite_staged he hb hl hr hm
      rw [BitVec.ofNat_toNat, BitVec.setWidth_eq] at hword
      exact registerWrite_turns hu hword
    · refine ⟨_, registerWrite_turns hu (regWrite_plain he hb hl hr hp), _, rfl, ?_, fun a' ha d => rwWritten_other r _ _ ha d⟩
      rw [rwWritten_same, BitVec.ofNat_toNat, BitVec.setWidth_eq]
    · exact ⟨afterRow (execAxEnable t j s) s, rfl, registerWrite_gives hu ((regWrite_axCtrl he hb hl hr).trans (congrArg (Prod.mk 0) (axCtrl_enable hv)))⟩
    · exact ⟨afterRow (execAxDisable t j s) s, rfl, registerWrite_gives hu ((regWrite_axCtrl he hb hl hr).trans (congrArg (Prod.mk 0) (axCtrl_disable hv)))⟩
    · exact ⟨afterRow (execAxAlign t j s) s, rfl, registerWrite_gives hu ((regWrite_axCtrl he hb hl hr).trans (congrArg (Prod.mk 0) (axCtrl_align hv)))⟩

end Sys2Proof.Proofs
end

section
/-! What becomes of a set-point on its way to an input (R25, R77 to R79). -/

namespace Sys2Proof.Proofs

open Sys2Proof.Machine

/-- A set-point of apply time `a` is newer than the one in force, or the first (R79). -/
def SpNewer (x : SpIn) (a : Nat) : Prop := x.cnt = 0 ∨ x.cur.at_ < a

section
variable {reg at_ : Nat} {v : Int} {x : SpIn}

theorem spReceive_stale (hc : x.cnt ≠ 0) (ha : truncTick at_ < x.cur.at_) : spReceive reg at_ v x = { x with stale := min 255 (x.stale + 1) } := by
  simp only [spReceive]
  rw [if_pos (by simp [hc, ha])]
  rfl

theorem spReceive_repeat (hc : x.cnt ≠ 0) (ha : truncTick at_ = x.cur.at_) : spReceive reg at_ v x = x := by
  simp only [spReceive]
  rw [if_neg (by simp [ha]), if_pos (by simp [hc, ha])]

/-- A newer set-point is late, replaces, overruns or joins the queue. -/
theorem spReceive_newer (h : SpNewer x (truncTick at_)) : spReceive reg at_ v x =
    let e : SpEntry := { at_ := truncTick at_, val := v }
    if truncTick at_ < reg then { x with lateArrival := min 255 (x.lateArrival + 1), late := x.late ++ [{ tick := reg + 10, sp := e }] }
    else if x.queue.any (fun q => decide (q.at_ = truncTick at_)) then { x with queue := x.queue.map fun q => if q.at_ = truncTick at_ then e else q }
    else if x.queue.length = 4 then { x with overrun := true }
    else { x with queue := spInsert e x.queue } := by
  have hold : ¬(x.cnt ≠ 0 ∧ truncTick at_ < x.cur.at_) := fun ⟨hc, hlt⟩ => by rcases h with h | h <;> omega
  have hsame : ¬(x.cnt ≠ 0 ∧ truncTick at_ = x.cur.at_) := fun ⟨hc, heq⟩ => by rcases h with h | h <;> omega
  simp only [spReceive]
  rw [if_neg (by simpa using hold), if_neg (by simpa using hsame)]
  rfl

theorem any_at_of_mem {l : List SpEntry} {a : Nat} (h : ∃ q ∈ l, q.at_ = a) : l.any (fun q => decide (q.at_ = a)) = true := by simpa using h

theorem any_at_of_not_mem {l : List SpEntry} {a : Nat} (h : ∀ q ∈ l, q.at_ ≠ a) : l.any (fun q => decide (q.at_ = a)) = false := by simpa using h

end

/-- A queue with one more set-point holds it and every one before. -/
theorem spInsert_perm (e : SpEntry) (l : List SpEntry) : (spInsert e l).Perm (e :: l) := by
  induction l with
  | nil => exact List.Perm.refl _
  | cons x r ih =>
    unfold spInsert
    split
    · exact List.Perm.refl _
    · exact (ih.cons x).trans (List.Perm.swap e x r)

/-- A served packet leaves what its operation makes of the block, with the turns as the spine gives them. -/
theorem spineServe_served {p : Pkt} {f : Block → Block} {b y : Block} (hs : spineServes b p = true) (hf : f b = y) :
    spineServe p f b = { y with turns := spineServed y p } := by rw [spineServe_goes hs, hf]

theorem turnsOnly_of_served {x y : Block} {ts : List (Nat × Nat × Nat)} (h : x = { y with turns := ts }) : x = { y with turns := x.turns } := by rw [h]

section
variable {t : Fin 8} {n : Fin 32} {e : SpFly}

theorem spArrive_none {now : Nat} {b : Block} (h : b.spFly.find? (fun f => decide (f.dst = 32 * t.val + n.val)) = none) : spArrive now t n b = b := by
  unfold spArrive; rw [h]

theorem spArrive_some {now : Nat} {b : Block} (h : b.spFly.find? (fun f => decide (f.dst = 32 * t.val + n.val)) = some e) :
    spArrive now t n b = spineServe (pktSp e) (fun x => spRegister now t n e.apply e.val { x with spFly := x.spFly.erase e }) b := by
  unfold spArrive; rw [h]

/-- A served set-point of an unused input goes; the turn of its source aside, nothing else changes. -/
theorem spArrive_unused {now : Nat} {b : Block} (h : b.spFly.find? (fun f => decide (f.dst = 32 * t.val + n.val)) = some e) (hs : spineServes b (pktSp e) = true)
    (hi : spI b t n = 0) : spArrive now t n b = { b with spFly := b.spFly.erase e, turns := (spArrive now t n b).turns } := by
  refine turnsOnly_of_served (y := { b with spFly := b.spFly.erase e }) ((spArrive_some h).trans (spineServe_served hs ?_))
  unfold spRegister
  exact if_pos hi

/-- A served set-point is received by its input at the next tick. -/
theorem spArrive_used {now : Nat} {b : Block} {y : SpIn} (h : b.spFly.find? (fun f => decide (f.dst = 32 * t.val + n.val)) = some e)
    (hs : spineServes b (pktSp e) = true) (hi : spI b t n ≠ 0) (hy : spReceive (now + 10) e.apply e.val (b.spAt t n) = y) :
    spArrive now t n b = { { b with spFly := b.spFly.erase e }.spUpd t n fun _ => y with turns := (spArrive now t n b).turns } := by
  refine turnsOnly_of_served (y := { b with spFly := b.spFly.erase e }.spUpd t n fun _ => y) ((spArrive_some h).trans (spineServe_served hs ?_))
  unfold spRegister
  exact (if_neg hi).trans (spUpd_congr _ _ _ _ _ hy)

end

/-- Settles O7: the oldest set-point on its way is found, served or not, and `spReceive` compares it. -/
theorem setPointReceived : Obligations.SetPointReceived := by
  intro t n s x hl hx
  subst hx
  have acts : ∀ {y}, spArrive s.clk.lattice t n s.b = y → Turns (.setpointReceived t n) s y := turns_onTile (exec_setpointReceived t n s) hl
  have gives : ∀ {P : State → Prop}, P { s with b := spArrive s.clk.lattice t n s.b } → Gives (.setpointReceived t n) s P := gives_onTile (exec_setpointReceived t n s) hl
  refine ⟨fun h => acts (spArrive_none h), fun e h hs => acts ?_, fun e h hs hi => gives (spArrive_unused h hs hi), fun e h hs hi => ?_⟩
  · rw [spArrive_some h, spineServe_waits hs]
  · have received : ∀ {y}, spReceive (s.clk.lattice + 10) e.apply e.val (s.b.spAt t n) = y → Gives (.setpointReceived t n) s fun u =>
        u.b = { { s.b with spFly := s.b.spFly.erase e }.spUpd t n fun _ => y with turns := u.b.turns } := fun hy => gives (spArrive_used h hs hi hy)
    refine ⟨fun hc ha => received (spReceive_stale hc ha), fun hc ha => received (spReceive_repeat hc ha), fun hn ha => received ?_, fun hn ha hq => received ?_,
      fun hn ha hq h4 => received ?_, fun hn ha hq h4 => ?_⟩
    · rw [spReceive_newer hn]; exact if_pos ha
    · rw [spReceive_newer hn]; exact (if_neg (Nat.not_lt.2 ha)).trans (if_pos (any_at_of_mem hq))
    · rw [spReceive_newer hn]
      exact (if_neg (Nat.not_lt.2 ha)).trans ((if_neg (Bool.eq_false_iff.1 (any_at_of_not_mem hq))).trans (if_pos h4))
    · have hp := spInsert_perm { at_ := truncTick e.apply, val := e.val } (s.b.spAt t n).queue
      refine gives ⟨_, spArrive_used h hs hi ?_, hp.length_eq, hp.mem_iff.2 (List.mem_cons_self ..), fun q hq => hp.mem_iff.2 (List.mem_cons_of_mem _ hq)⟩
      rw [spReceive_newer hn]
      exact (if_neg (Nat.not_lt.2 ha)).trans ((if_neg (Bool.eq_false_iff.1 (any_at_of_not_mem hq))).trans (if_neg (by omega)))

end Sys2Proof.Proofs
end

section
/-! Shadow banks of profiles, prefetched records and the timeout of a homing (R258, R260, R264, R292, R293, R301). -/

namespace Sys2Proof.Proofs

open Sys2Proof.Machine

theorem genUpd_value (b : Block) (t j : Nat) (f : Gen → Gen) : b.genUpd t j f = b.genUpd t j fun _ => f (b.genAt t j) := genUpd_congr _ _ _ _ _ rfl

/-- The group of a member compares its shadows (R301); a slot of no group has nothing to compare. -/
def regrouped (now t j : Nat) (b : Block) : Block :=
  match plgOf b t j with
  | some k => plgCompare now k b
  | none => b

/-- The shadow bank of a slot: its place, its bytes and its whole records among the first 16. -/
def shadowPlace (b : Block) (t j : Nat) : Option (Nat × Nat) := profileBank b t j (shadowNo (b.genAt t j).active)

def shadowBytes (b : Block) (t j : Nat) : List Byte := bankBytes b.mem (shadowPlace b t j)

def shadowGood (b : Block) (t j : Nat) : Nat := goodRecs b (shadowPlace b t j) 0 (min (leAt (shadowBytes b t j) 0 4) 16)

/-- The first failed condition of the shadow bank, or 0 (R260). -/
def shadowErr (b : Block) (t j : Nat) : Nat := profileErr (shadowBytes b t j) (Fld.PG_CFG_BANK_SIZE b.cfg t j) (Fld.PG_MIN_DUR_MIN_DUR b.cfg t j)

/-- What the check of the shadow bank loads. -/
def shadowLoad (b : Block) (t j : Nat) : PgBank :=
  { count := leAt (shadowBytes b t j) 0 4, rel := bit (leAt (shadowBytes b t j) 8 4) 0,
    buf := if shadowErr b t j = 0 then bankSegs b.mem (shadowPlace b t j) 0 (shadowGood b t j) else [], next := shadowGood b t j }

/-- The generator with its shadow sealed and the first records loaded. -/
def sealedGen (now : Nat) (b : Block) (t j : Nat) : Gen :=
  { b.genAt t j with
    shadow := .sealed, sealedAt := now
    shadowBank := { count := leAt (shadowBytes b t j) 0 4, rel := bit (leAt (shadowBytes b t j) 8 4) 0,
                    buf := bankSegs b.mem (shadowPlace b t j) 0 (shadowGood b t j), next := shadowGood b t j } }

/-- The generator with its shadow emptied by a failed check. -/
def failedGen (b : Block) (t j : Nat) : Gen :=
  { b.genAt t j with shadow := .empty, fl := { (b.genAt t j).fl with sealErr := true, errCode := shadowErr b t j } }

section
variable {now t j : Nat} {b : Block}

theorem regrouped_none (h : plgOf b t j = none) : regrouped now t j b = b := by unfold regrouped; rw [h]

theorem regrouped_some {k : Nat} (h : plgOf b t j = some k) : regrouped now t j b = plgCompare now k b := by unfold regrouped; rw [h]

/-! ### SEAL and UNSEAL -/

theorem pgSeal_empty {g : Gen} (h : g.shadow = .empty) : pgSeal g = { g with shadow := .fetching } := if_pos h

theorem pgSeal_other {g : Gen} (h : g.shadow ≠ .empty) : pgSeal g = g := if_neg h

/-- The end of the check: the shadow is sealed or emptied, and the group compares. -/
theorem genSealDone_checks (hg : hasGen b t j = true) (hf : (b.genAt t j).shadow = .fetching) :
    genSealDone now t j b = regrouped now t j (b.genUpd t j fun _ => if shadowErr b t j = 0 then sealedGen now b t j else failedGen b t j) := by
  have hchecked : pgSealDone now (shadowErr b t j) (shadowLoad b t j) (b.genAt t j) = if shadowErr b t j = 0 then sealedGen now b t j else failedGen b t j := by
    rw [pgSealDone, if_pos hf]
    by_cases he : shadowErr b t j = 0
    · rw [if_pos he, if_pos he, shadowLoad, if_pos he]; rfl
    · rw [if_neg he, if_neg he]; rfl
  rw [← genUpd_congr b t j _ _ hchecked]
  unfold genSealDone
  rw [if_pos (by simp [hg, hf])]
  rfl

theorem genSealDone_other (h : hasGen b t j = false ∨ (b.genAt t j).shadow ≠ .fetching) : genSealDone now t j b = b := by
  unfold genSealDone
  rw [if_neg (by simpa [or_iff_not_imp_left] using h)]

theorem genUnseal_eq : genUnseal now t j b = regrouped now t j (b.genUpd t j fun _ => pgUnseal (b.genAt t j)) := by
  unfold genUnseal
  rw [genUpd_value b t j pgUnseal]
  rfl

/-! ### Prefetch -/

/-- The generator with the records that it requested, as far as they are whole. -/
def fetchedGen (b : Block) (t j : Nat) : Gen :=
  let g := b.genAt t j
  let q := profileBank b t j (g.active.getD 0)
  let m := goodRecs b q g.bank.next (min g.fetch (g.bank.count - g.bank.next))
  { g with bank := { g.bank with buf := g.bank.buf ++ bankSegs b.mem q g.bank.next m, next := g.bank.next + m }, fetch := 0 }

theorem genPrefetch_requested (h : (b.genAt t j).fetch ≠ 0) : genPrefetch t j b = b.genUpd t j fun _ => fetchedGen b t j :=
  genUpd_congr _ _ _ _ _ (if_neg h)

/-! ### The timeout of a homing -/

/-- HOME_TO has passed and no reference was registered (R292). -/
def HomeOverdue (now homeTo : Nat) (g : Gen) : Prop :=
  g.st = .homing ∧ g.hm.st ≠ .off ∧ g.hm.st ≠ .settle ∧ g.hm.ref = none ∧ g.hm.start + homeTo * 1000000 ≤ now

theorem HomeOverdue.ref {homeTo : Nat} {g : Gen} (h : HomeOverdue now homeTo g) : g.hm.ref = none := by obtain ⟨-, -, -, href, -⟩ := h; exact href

/-- A homing ended by its timeout. -/
def timedOut (g : Gen) : Gen := { g with hm := { g.hm with st := .off, res := .timeout } }

theorem homeTimeout_due {homeTo dec : Nat} {pulse : Bool} {g : Gen} (h : HomeOverdue now homeTo g) :
    homeTimeout now homeTo dec pulse g = ({ timedOut g with req := if pulse then g.req else stopReq now dec g.req }, pulse) := by
  obtain ⟨hst, hoff, hsettle, href, hto⟩ := h
  unfold homeTimeout
  dsimp only
  rw [if_pos (by simp [hst, hoff, hsettle, href, hto])]
  rfl

theorem homeTimeout_early {homeTo dec : Nat} {pulse : Bool} {g : Gen} (h : ¬HomeOverdue now homeTo g) : homeTimeout now homeTo dec pulse g = (g, false) := by
  unfold homeTimeout
  refine if_neg fun hd => h ?_
  simpa [HomeOverdue, Option.isNone_iff_eq_none, and_assoc, and_left_comm, and_comm] using hd

/-- The channel that homing armed for its index, disarmed. -/
def indexDisarmed (t j : Nat) (b : Block) : Block :=
  match posChan b t j with
  | some k => b.qdUpd t k fun q => { q with armed := none }
  | none => b

/-- The end of a homing that leaves INDEX without its reference disarms the channel (R289). -/
theorem genEnd_off {g : Gen} (hoff : g.hm.st = .off) (href : g.hm.ref = none) : genEnd t j (fun _ => g) b =
    if (b.genAt t j).hm.st = .index then indexDisarmed t j (b.genUpd t j fun _ => g) else b.genUpd t j fun _ => g := by
  unfold genEnd
  dsimp only
  rw [genAt_genUpd, hoff, href]
  by_cases hi : (b.genAt t j).hm.st = .index
  · rw [if_pos (by simp [hi]), if_pos hi]; rfl
  · rw [if_neg (by simp [hi]), if_neg hi]

theorem genEnd_same_homing {g : Gen} (h : g.hm = (b.genAt t j).hm) : genEnd t j (fun _ => g) b = b.genUpd t j fun _ => g := by
  unfold genEnd
  dsimp only
  rw [genAt_genUpd, h]
  exact if_neg (by simp)

theorem immStop_alone (h : plgOf b t j = none) : immStop now t j b = b.pulseUpd t (j - 4) fun p => { p with imm := firstOf p.imm now } := by
  unfold immStop; rw [memberEvent_none (show plgOf (b.pulseUpd t (j - 4) _) t j = none from h)]

theorem plgOf_genEnd {f : Gen → Gen} : plgOf (genEnd t j f b) t j = plgOf b t j := by rw [genEnd_frame]; rfl

theorem genHomeTimeout_eq : genHomeTimeout now t j b =
    let r := homeTimeout now (Fld.PG_HOME_TO_HOME_TO b.cfg t j) (Fld.PG_FB_DECEL_DEC b.cfg t j) (decide (slotTy b t j = .pulse)) (b.genAt t j)
    if r.2 then immStop now t j (genEnd t j (fun _ => r.1) b) else genEnd t j (fun _ => r.1) b := rfl

/-- The stop that a request leaves: a registration that waits stands, with the larger deceleration (R266). -/
def stopAsked (now dec : Nat) (q : PgReq) : Nat × Nat :=
  match q.stop with
  | some (r, d) => (r, max d dec)
  | none => (now, dec)

theorem stopReq_eq (now dec : Nat) (q : PgReq) : stopReq now dec q = { q with stop := some (stopAsked now dec q), starve := false } := by
  cases hq : q.stop <;> simp only [stopReq, stopAsked, hq]

theorem genHomeTimeout_early (h : ¬HomeOverdue now (Fld.PG_HOME_TO_HOME_TO b.cfg t j) (b.genAt t j)) :
    genHomeTimeout now t j b = b.genUpd t j fun _ => b.genAt t j := by
  rw [genHomeTimeout_eq, homeTimeout_early h]
  exact genEnd_same_homing rfl

/-- A ramped stop for a servo axis. -/
theorem genHomeTimeout_servo (h : HomeOverdue now (Fld.PG_HOME_TO_HOME_TO b.cfg t j) (b.genAt t j)) (hty : slotTy b t j ≠ .pulse) :
    genHomeTimeout now t j b = genEnd t j (fun _ => { timedOut (b.genAt t j) with req := stopReq now (Fld.PG_FB_DECEL_DEC b.cfg t j) (b.genAt t j).req }) b := by
  rw [genHomeTimeout_eq, homeTimeout_due h, decide_eq_false hty]
  rfl

/-- An immediate stop for a pulse-train axis. -/
theorem genHomeTimeout_pulse (h : HomeOverdue now (Fld.PG_HOME_TO_HOME_TO b.cfg t j) (b.genAt t j)) (hty : slotTy b t j = .pulse) :
    genHomeTimeout now t j b = immStop now t j (genEnd t j (fun _ => timedOut (b.genAt t j)) b) := by
  rw [genHomeTimeout_eq, homeTimeout_due h, decide_eq_true hty]
  rfl

end

/-- Settles O21: each command is its operation on the generator; the end of a check and UNSEAL have the group compare afterwards. -/
theorem profileBanks : Obligations.ProfileBanks := by
  intro t j s g hl hg
  subst hg
  have seals : ∀ {y}, (if hasGen s.b t j then s.b.genUpd t j pgSeal else s.b) = y → Turns (.pgSeal t j) s y := turns_onTile (exec_pgSeal t j s) hl
  have checked : ∀ {y}, genSealDone s.clk.lattice t j s.b = y → Turns (.pgSealDone t j) s y := turns_onTile (exec_pgSealDone t j s) hl
  have unseals : ∀ {y}, genUnseal s.clk.lattice t j s.b = y → Turns (.pgUnseal t j) s y := turns_onTile (exec_pgUnseal t j s) hl
  have arrives : ∀ {y}, (if (s.b.genAt t j).fetch = 0 then s.b else spineServe (pktTable t (s.b.genAt t j).fetchAt) (genPrefetch t j) s.b) = y →
    Turns (.prefetchArrival t j) s y := turns_onTile (exec_prefetchArrival t j s) hl
  have timeout : ∀ {y}, genHomeTimeout s.clk.lattice t j s.b = y → Turns (.homingTimeout t j) s y := turns_onTile (exec_homingTimeout t j s) hl
  refine ⟨fun hg he => seals ?_, fun hg he => seals ?_, fun hg => seals ?_, fun hp hg hf he => checked ?_, fun hp hg hf he => checked ?_, fun k hp hg hf => checked ?_,
    fun h => checked (genSealDone_other h), fun hp hs => unseals ?_, fun hp hs => unseals ?_, fun k hp => unseals ?_, fun hf hs => arrives ?_, fun h => arrives ?_,
    fun ho hty => timeout ?_, fun ho hty hp => timeout ?_, fun ho => timeout (genHomeTimeout_early ho)⟩
  · rw [if_pos hg, genUpd_value, pgSeal_empty he]
  · rw [if_pos hg, genUpd_value, pgSeal_other he]
  · rw [if_neg (by simp [hg])]
  · rw [genSealDone_checks hg hf, if_pos (show shadowErr s.b t j = 0 from he)]; exact regrouped_none hp
  · rw [genSealDone_checks hg hf, if_neg (show shadowErr s.b t j ≠ 0 from he)]; exact regrouped_none hp
  · rw [genSealDone_checks hg hf]; exact regrouped_some hp
  · rw [genUnseal_eq, pgUnseal, if_pos hs]; exact regrouped_none hp
  · rw [genUnseal_eq, pgUnseal, if_neg hs]; exact regrouped_none hp
  · rw [genUnseal_eq]; exact regrouped_some hp
  · rw [if_neg hf, spineServe_goes hs, genPrefetch_requested hf]; rfl
  · rcases h with h | h
    · exact if_pos h
    · rw [spineServe_waits h, ite_self]
  · have hoff := genEnd_off (t := t) (j := j) (b := s.b)
      (g := { timedOut (s.b.genAt t j) with req := stopReq s.clk.lattice (Fld.PG_FB_DECEL_DEC s.b.cfg t j) (s.b.genAt t j).req }) rfl (HomeOverdue.ref (g := s.b.genAt t j) ho)
    rw [genHomeTimeout_servo ho hty, hoff, stopReq_eq]
    rfl
  · have hoff := genEnd_off (t := t) (j := j) (b := s.b) (g := timedOut (s.b.genAt t j)) rfl (HomeOverdue.ref (g := s.b.genAt t j) ho)
    rw [genHomeTimeout_pulse ho hty, immStop_alone (plgOf_genEnd.trans hp), hoff]
    simp only [firstOf_eq]
    rfl

end Sys2Proof.Proofs
end

section
/-! Channels of a field pair (R476, R482, R484 to R486, R500, R502). -/

namespace Sys2Proof.Proofs

open Sys2Proof.Machine

/-! ### Bits of a number -/

theorem bit_testBit (v i : Nat) : bit v i = v.testBit i := Nat.testBit_eq_decide_div_mod_eq.symm

theorem bit_toNat {w : Nat} (v : BitVec w) (i : Nat) : bit v.toNat i = v.getLsbD i := by rw [bit_testBit, BitVec.testBit_toNat]

theorem bitsOf_succ (n : Nat) (f : Nat → Bool) : bitsOf (n + 1) f = flag (f n) n + bitsOf n f := by
  simp [bitsOf, List.range_succ, Nat.add_comm]

theorem bitsOf_lt (n : Nat) (f : Nat → Bool) : bitsOf n f < 2 ^ n := by
  induction n with
  | zero => simp [bitsOf]
  | succ n ih =>
    have hflag : flag (f n) n ≤ 2 ^ n := by unfold flag; split <;> simp
    rw [bitsOf_succ, Nat.pow_succ]
    omega

/-- The number of a predicate has the predicate as its bits. -/
theorem bit_bitsOf {n i : Nat} (f : Nat → Bool) (h : i < n) : bit (bitsOf n f) i = f i := by
  rw [bit_testBit]
  induction n with
  | zero => exact absurd h (Nat.not_lt_zero i)
  | succ n ih =>
    have hlow := Nat.testBit_lt_two_pow (bitsOf_lt n f)
    rw [bitsOf_succ]
    rcases Nat.lt_succ_iff_lt_or_eq.1 h with hi | rfl
    · cases hf : f n
      · simpa [flag] using ih hi
      · rw [flag, if_pos rfl, Nat.testBit_two_pow_add_gt hi]; exact ih hi
    · cases hf : f i
      · simpa [flag] using hlow
      · rw [flag, if_pos rfl, Nat.testBit_two_pow_add_eq, hlow]; rfl

/-! ### Pairs and channels -/

/-- The frame of a command on pair `m`: nothing but this pair changes. -/
def OnlyPair (m : Fin 4) (s u : State) : Prop := u = { s with b := { s.b with fp := u.b.fp } } ∧ ∀ i : Fin 4, i ≠ m → u.b.fpAt i = s.b.fpAt i

theorem onlyPair_fpUpd (m : Fin 4) (s : State) (f : FPair → FPair) : OnlyPair m s { s with b := s.b.fpUpd m f } :=
  ⟨rfl, fun _ hi => fpAt_fpUpd_ne _ _ _ _ fun h => hi (Fin.ext h)⟩

theorem fpAt_of_fp {b c : Block} (h : c.fp = b.fp) (i : Nat) : c.fpAt i = b.fpAt i := by unfold Block.fpAt; rw [h]

theorem vset_get_same {α : Type} {n : Nat} (v : Vector α n) (i : Fin n) (x : α) : (vset v i x).get i = x := by
  simp [vset, Vector.get_eq_getElem]

theorem vset_get_other {α : Type} {n : Nat} (v : Vector α n) (i j : Fin n) (x : α) (h : j ≠ i) : (vset v i x).get j = v.get j := by
  have hne : i.val ≠ j.val := fun he => h (Fin.ext he.symm)
  simp [vset, Vector.get_eq_getElem, hne]

/-- What a command on channel `k` of pair `m` leaves: the channel as `d`, and every other as it was. -/
def ChannelIs (m : Fin 4) (k : Fin 16) (s : State) (d : FCh) (u : State) : Prop :=
  OnlyPair m s u ∧ u.b.fpAt m = { s.b.fpAt m with ch := (u.b.fpAt m).ch } ∧ (u.b.fpAt m).ch.get k = d ∧
    ∀ j : Fin 16, j ≠ k → (u.b.fpAt m).ch.get j = (s.b.fpAt m).ch.get j

section
variable {m : Fin 4} {k : Fin 16} {s : State}

theorem fieldCh_channel (f : FCh → FCh) {d : FCh} (hd : f ((s.b.fpAt m).ch.get k) = d) : ChannelIs m k s d { s with b := fieldCh m k f s.b } := by
  have hpair : (fieldCh m k f s.b).fpAt m = { s.b.fpAt m with ch := vset (s.b.fpAt m).ch k d } := by
    unfold fieldCh; rw [fpAt_fpUpd, hd]
  refine ⟨onlyPair_fpUpd m s _, ?_, ?_, fun j hj => ?_⟩
  · dsimp only; rw [hpair]
  · dsimp only; rw [hpair]; exact vset_get_same _ _ _
  · dsimp only; rw [hpair]; exact vset_get_other _ _ _ _ hj

/-- A command that runs `f` on one channel leaves that channel as `f` makes it. -/
theorem gives_channel {i : Instr} {f : FCh → FCh} {d : FCh} (hi : exec i s = onRun (fun _ => fieldCh m k f) s) (hr : s.b.run.on = true)
    (hd : f ((s.b.fpAt m).ch.get k) = d) : Gives i s (ChannelIs m k s d) := gives_onRun hi hr (fieldCh_channel f hd)

/-! ### Host commands (R484) -/

/-- OUT_SET and OUT_CLR: the masked channels whose source is the host take the level, and no other. -/
theorem fioOut_gives {i : Instr} {mask : BitVec 16} {v : Bool} (hi : exec i s = onRun (fun _ => fioOutOp m mask.toNat v) s) (hr : s.b.run.on = true) :
    Gives i s fun u => OnlyPair m s u ∧ u.b.fpAt m = { s.b.fpAt m with host := (u.b.fpAt m).host } ∧
      ∀ j : Fin 16, (mask.getLsbD j = true → Fld.FIO_CH_CFG_SRC s.b.cfg m j = 0 → bit (u.b.fpAt m).host j = v) ∧
        ((mask.getLsbD j = false ∨ ¬Fld.FIO_CH_CFG_SRC s.b.cfg m j = 0) → bit (u.b.fpAt m).host j = bit (s.b.fpAt m).host j) := by
  have hpair := fpAt_fpUpd s.b m fun p =>
    { p with host := bitsOf 16 fun k => if bit mask.toNat k && decide (Fld.FIO_CH_CFG_SRC s.b.cfg m k = 0) then v else bit p.host k }
  refine gives_onRun hi hr ⟨onlyPair_fpUpd m s _, ?_, fun j => ?_⟩
  · dsimp only [fioOutOp]; rw [hpair]
  · dsimp only [fioOutOp]
    rw [hpair, bit_bitsOf _ j.isLt, bit_toNat]
    exact ⟨fun hm hs => if_pos (by simp [hm, hs]), fun h => if_neg (by simpa [imp_iff_not_or] using h)⟩

/-! ### Mailbox commands (R485) -/

theorem fieldAtHub_none {b : Block} (h : (b.fpAt m).fly.find? (fun f => decide (f.ch = k.val)) = none) : fieldAtHub m k b = b := by
  unfold fieldAtHub; rw [h]

/-- The pair with mailbox command `f` registered. -/
def registered (k : Fin 16) (f : FCmd) (p : FPair) : FPair :=
  { p with fly := p.fly.erase f, mbx := bitsOf 16 fun i => if i = k then f.level else bit p.mbx i }

theorem fieldAtHub_some {b : Block} {f : FCmd} (h : (b.fpAt m).fly.find? (fun f => decide (f.ch = k.val)) = some f) :
    fieldAtHub m k b = spineServe (pktField f.tile f.at_) (fun x => x.fpUpd m (registered k f)) b := by
  unfold fieldAtHub; rw [h]; rfl

/-- A mailbox command that the spine serves is registered, and its source's turn goes on. -/
theorem fieldAtHub_served {b : Block} {f : FCmd} (h : (b.fpAt m).fly.find? (fun f => decide (f.ch = k.val)) = some f) (hs : spineServes b (pktField f.tile f.at_) = true) :
    fieldAtHub m k b = { b with fp := (b.fpUpd m (registered k f)).fp, turns := spineServed (b.fpUpd m (registered k f)) (pktField f.tile f.at_) } :=
  (fieldAtHub_some h).trans (spineServe_goes hs)

theorem fieldAtHub_waits {b : Block} {f : FCmd} (h : (b.fpAt m).fly.find? (fun f => decide (f.ch = k.val)) = some f) (hs : spineServes b (pktField f.tile f.at_) = false) :
    fieldAtHub m k b = b := (fieldAtHub_some h).trans (spineServe_waits hs)

theorem registered_mbx (f : FCmd) (p : FPair) (j : Fin 16) : bit (registered k f p).mbx j = if j = k then f.level else bit p.mbx j := by
  unfold registered
  rw [bit_bitsOf _ j.isLt]
  simp only [Fin.ext_iff]

end

/-! ### Diagnostics (R482, R500, R502) -/

section
variable {c : FCh}

theorem fIsOut_iff (cfg : Word) : fIsOut cfg = true ↔ fFunc cfg = .out ∨ fFunc cfg = .brake ∨ fFunc cfg = .testSrc := by
  simp [fIsOut, or_assoc]

theorem fOlWatched_iff (c : FCh) : fOlWatched c = true ↔ c.cmd = true ∧ bit c.par.toNat 29 = true ∧ (fFunc c.cfg = .out ∨ fFunc c.cfg = .brake) := by
  simp [fOlWatched, fOlEn, and_assoc]

theorem fRbWatched_iff (c : FCh) : fRbWatched c = true ↔ fIsOut c.cfg = true ∧ c.overload = false ∧ c.overtemp = false := by
  simp [fRbWatched, and_assoc]

theorem fOverloadNow_trips (hs : c.sw = true) (ho : c.overload = false) :
    fOverloadNow c = { c with overload := true, off := true, sw := false, limAt := none } := if_pos (by simp [hs, ho])

theorem fOverloadNow_stands (h : c.sw = false ∨ c.overload = true) : fOverloadNow c = c := if_neg (by simpa [imp_iff_not_or] using h)

/-- A record that is set or stays. -/
theorem openLoad_set (h : fOlWatched c = true) : { c with openLoad := c.openLoad || fOlWatched c } = { c with openLoad := true } := by rw [h, Bool.or_true]

theorem openLoad_stays (h : fOlWatched c = false) : { c with openLoad := c.openLoad || fOlWatched c } = c := by rw [h, Bool.or_false]

theorem readback_set (h : fRbWatched c = true) : { c with readback := c.readback || fRbWatched c } = { c with readback := true } := by rw [h, Bool.or_true]

theorem readback_stays (h : fRbWatched c = false) : { c with readback := c.readback || fRbWatched c } = c := by rw [h, Bool.or_false]

/-- A written bit clears its diagnostic exactly if the cause is absent; the switch-off ends with the last of OVERLOAD and OVERTEMP (R500). -/
theorem fDiagClear_eq (w : Word) (c : FCh) : fDiagClear w.toNat (decide (c.acc ≠ c.cmd)) c = { c with
    xshort := c.xshort && !(w.getLsbD 5 && !c.dark)
    openLoad := c.openLoad && !(w.getLsbD 4 && !(c.lowCur && c.cmd && bit c.par.toNat 29 && (decide (fFunc c.cfg = .out) || decide (fFunc c.cfg = .brake))))
    overtemp := c.overtemp && !(w.getLsbD 3 && !c.hot), overload := c.overload && !(w.getLsbD 2 && !c.limit), readback := c.readback && !(w.getLsbD 1 && (c.acc == c.cmd))
    off := c.off && ((c.overtemp && !(w.getLsbD 3 && !c.hot)) || (c.overload && !(w.getLsbD 2 && !c.limit))) } := by
  have hsame : (!decide (c.acc ≠ c.cmd)) = (c.acc == c.cmd) := by cases c.acc <;> cases c.cmd <;> rfl
  simp only [fDiagClear, fOlWatched, fOlEn, bit_toNat, hsame, Bool.and_assoc]

end

/-- Settles O44: every command acts on one pair, and all but the host and mailbox commands on one channel of it. -/
theorem fieldChannels : Obligations.FieldChannels := by
  intro m k s x c hr hx hc
  subst hx hc
  have watched := fOlWatched_iff ((s.b.fpAt m).ch.get k)
  have isOut := fIsOut_iff ((s.b.fpAt m).ch.get k).cfg
  have rbWatched := fRbWatched_iff ((s.b.fpAt m).ch.get k)
  refine ⟨fun mask => fioOut_gives (exec_fioOutSet m mask s) hr, fun mask => fioOut_gives (exec_fioOutClr m mask s) hr, fun f hf hs => ?_, fun f hf hs => ?_, fun hf => ?_,
    fun h => gives_channel (exec_inputAccepted m k s) hr (if_neg h), fun h => gives_channel (exec_inputAccepted m k s) hr (if_pos h),
    fun hs ho => gives_channel (exec_overload m k s) hr (fOverloadNow_trips hs ho), fun h => gives_channel (exec_overload m k s) hr (fOverloadNow_stands h),
    fun h => gives_channel (exec_overtemp m k s) hr (if_pos (isOut.2 h)), fun h => gives_channel (exec_overtemp m k s) hr (if_neg (mt isOut.1 h)),
    fun h => gives_channel (exec_openLoad m k s) hr (openLoad_set (watched.2 h)),
    fun h => gives_channel (exec_openLoad m k s) hr (openLoad_stays (Bool.eq_false_iff.2 (mt watched.1 h))),
    fun h ho ht => gives_channel (exec_readback m k s) hr (readback_set (rbWatched.2 ⟨isOut.2 h, ho, ht⟩)),
    fun h => gives_channel (exec_readback m k s) hr (readback_stays (Bool.eq_false_iff.2 fun hw => ?_)),
    fun w => gives_channel (exec_fioDiagClear m k w s) hr (fDiagClear_eq w _)⟩
  · obtain ⟨-, hothers⟩ := onlyPair_fpUpd m s (registered k f)
    have hfp : (fieldAtHub m k s.b).fp = (s.b.fpUpd m (registered k f)).fp := by rw [fieldAtHub_served hf hs]
    have hpair := (fpAt_of_fp hfp m).trans (fpAt_fpUpd s.b m (registered k f))
    refine gives_onRun (exec_fieldCommandAtHub m k s) hr ⟨?_, fun i hi => (fpAt_of_fp hfp i).trans (hothers i hi), ?_, ?_, fun j hj => ?_⟩
    · dsimp only; rw [hfp, fieldAtHub_served hf hs]; rfl
    · dsimp only; rw [hpair]; rfl
    · dsimp only; rw [hpair]; exact (registered_mbx f _ k).trans (if_pos rfl)
    · dsimp only; rw [hpair]; exact (registered_mbx f _ j).trans (if_neg hj)
  · exact turns_onRun (exec_fieldCommandAtHub m k s) hr (fieldAtHub_waits hf hs)
  · exact turns_onRun (exec_fieldCommandAtHub m k s) hr (fieldAtHub_none hf)
  · obtain ⟨ho, hl, ht⟩ := rbWatched.1 hw
    rcases h with h | h | h
    · exact h (isOut.1 ho)
    · exact absurd h (by simp [hl])
    · exact absurd h (by simp [ht])

end Sys2Proof.Proofs
end

section
/-! Accesses to the address range of an unpowered tile, and its lands (R36, R37). -/

namespace Sys2Proof.Proofs

open Sys2Proof.Machine

/-- The address range of tile `t`. -/
def InTile (t : Fin 8) (a : Nat) : Prop := 0x10000000 + 0x1000000 * t.val ≤ a ∧ a < 0x10000000 + 0x1000000 * (t.val + 1)

/-- The access errors: ALIGN, ADDRESS, ROLE, REFUSED. -/
def AccessErrors : List Nat := [2, 3, 4, 5]

/-- A status is 0 or an access error. -/
def IsStatus (e : Nat) : Prop := e = 0 ∨ e ∈ AccessErrors

theorem isStatus_of_le {e : Nat} (h : e = 0 ∨ 2 ≤ e ∧ e ≤ 5) : IsStatus e := by simp only [IsStatus, AccessErrors, List.mem_cons, List.not_mem_nil]; omega

theorem IsStatus.ite {p : Prop} [Decidable p] {e e' : Nat} (h : IsStatus e) (h' : IsStatus e') : IsStatus (if p then e else e') := by split <;> assumption

theorem isStatus_zero : IsStatus 0 := .inl rfl

/-! ### Statuses of an access -/

section
variable {b : Block} {t : Fin 8} {a : Nat}

theorem tileStatus_off (h : tileOn b t = false) : tileStatus b t = 3 := by unfold tileStatus; rw [h]; rfl

theorem tileStatus_cases (b : Block) (t : Nat) : IsStatus (tileStatus b t) :=
  .ite (isStatus_of_le (by decide)) (.ite isStatus_zero (isStatus_of_le (by decide)))

theorem addrInst_tiles (hlo : 0x10000000 ≤ a) (hhi : a < 0x18000000) : addrInst a = 0x10 + (a - 0x10000000) / 0x1000000 := by
  unfold addrInst; rw [if_pos (by rw [Bool.and_eq_true, decide_eq_true_eq, decide_eq_true_eq]; exact ⟨hlo, hhi⟩)]

theorem addrInst_elsewhere (h : ¬(0x10000000 ≤ a ∧ a < 0x18000000)) : ¬(0x10 ≤ addrInst a ∧ addrInst a < 0x20) := by
  unfold addrInst
  rw [if_neg (by simpa using h)]
  split <;> omega

theorem addrInst_inTile (h : InTile t a) : addrInst a = 0x10 + t := by
  obtain ⟨hlo, hhi⟩ := h
  have ht := t.isLt
  have hlow : 0x10000000 ≤ a := Nat.le_trans (Nat.le_add_right _ _) hlo
  have hhigh : a < 0x18000000 := Nat.lt_of_lt_of_le hhi (Nat.add_le_add_left (Nat.mul_le_mul_left 0x1000000 ht) 0x10000000)
  refine (addrInst_tiles hlow hhigh).trans ?_
  omega

/-- No register of an unpowered tile can be accessed. -/
theorem addrStatus_off (ha : InTile t a) (h : tileOn b t = false) : addrStatus b a ≠ 0 := by
  have ht := t.isLt
  unfold addrStatus
  split
  · decide
  · split
    · decide
    · simp only [addrInst_inTile ha]
      rw [if_pos (by omega), Nat.add_sub_cancel_left, tileStatus_off h]
      decide

theorem addrStatus_cases (b : Block) (a : Nat) : IsStatus (addrStatus b a) := by
  refine .ite (isStatus_of_le (by decide)) ?_
  split
  · exact isStatus_of_le (by decide)
  · exact .ite (tileStatus_cases _ _) isStatus_zero

theorem secBufAt_inTile (h : InTile t a) : secBufAt a = none := by
  obtain ⟨hlo, -⟩ := h
  exact if_neg (by omega)

theorem localAt_inTile (h : InTile t a) {p : Nat × Nat} (hl : localAt a = some p) : p.1 = t := by
  obtain ⟨hlo, hhi⟩ := h
  unfold localAt at hl
  split at hl
  · cases hl; dsimp only; omega
  · cases hl

theorem readStatus_off (ha : InTile t a) (h : tileOn b t = false) : readStatus b a ≠ 0 := by
  unfold readStatus
  split
  · decide
  · rw [if_neg (by simp [secBufAt_inTile ha])]
    split
    · next p hl =>
      have hp := localAt_inTile ha hl
      dsimp only at hp
      rw [hp, tileStatus_off h]
      decide
    · dsimp only
      rw [if_pos (addrStatus_off ha h)]
      exact addrStatus_off ha h

theorem readStatus_cases (b : Block) (a : Nat) : IsStatus (readStatus b a) := by
  refine .ite (isStatus_of_le (by decide)) (.ite isStatus_zero ?_)
  split
  · exact tileStatus_cases _ _
  · refine .ite (addrStatus_cases b a) ?_
    split
    · exact .ite isStatus_zero (isStatus_of_le (by decide))
    · exact isStatus_of_le (by decide)

theorem writeStatus_off {now k v : Nat} (ha : InTile t a) (h : tileOn b t = false) : writeStatus now k a v b ≠ 0 :=
  fun hw => readStatus_off ha h (readStatus_of_write hw)

theorem writeStatus_cases (now k a v : Nat) (b : Block) : IsStatus (writeStatus now k a v b) := by
  have role : IsStatus 4 := isStatus_of_le (by decide)
  have refused : IsStatus 5 := isStatus_of_le (by decide)
  refine .ite (readStatus_cases b a) (.ite isStatus_zero ?_)
  split
  · exact .ite role (.ite refused isStatus_zero)
  · split
    · exact isStatus_of_le (by decide)
    · exact .ite (.ite isStatus_zero role) (.ite role (.ite refused isStatus_zero))

theorem stageStatus_off {k : Nat} (ha : InTile t a) (h : tileOn b t = false) : stageStatus b k a ≠ 0 := by
  have hread := readStatus_off ha h
  unfold stageStatus
  dsimp only
  rw [if_pos hread]
  exact hread

theorem stageStatus_cases (b : Block) (k a : Nat) : IsStatus (stageStatus b k a) := by
  have refused : IsStatus 5 := isStatus_of_le (by decide)
  refine .ite (readStatus_cases b a) ?_
  split
  · exact .ite refused (.ite isStatus_zero (isStatus_of_le (by decide)))
  · exact refused

end

/-- The first word that fails. -/
theorem exists_first {p : Nat → Prop} {i : Nat} (h : p i) : ∃ j ≤ i, p j ∧ ∀ l < j, ¬p l := by
  classical
  exact ⟨Nat.find ⟨i, h⟩, Nat.find_min' _ h, Nat.find_spec ⟨i, h⟩, fun l hl => Nat.find_min _ hl⟩

/-! ### The commands -/

/-- Command `c` ends with an access error as the result of session `k`, and changes nothing else. -/
def AccessRefused (c : Instr) (k : Fin 8) (op : Nat) (s : State) : Prop := ∃ e ∈ AccessErrors, Turns c s (withResult k op e [] .none s.b)

section
variable {k t : Fin 8} {s : State} {a : Nat}

theorem cmdRead_off {n i : Nat} (h : Ready s k) (hoff : tileOn s.b t = false) (h1 : 1 ≤ n) (hn : n ≤ 256) (ha : a < 2 ^ 32) (hi : i < n) (hin : InTile t (a + 4 * i)) :
    AccessRefused (.cmdRead k n a) k 1 s := by
  obtain ⟨j, hj, he, hz⟩ := exists_first (p := fun i => readStatus s.b (a + 4 * i) ≠ 0) (readStatus_off hin hoff)
  exact ⟨_, (readStatus_cases s.b _).resolve_left he, cmdRead_refused h h1 hn ha (by omega) he fun l hl => not_not.1 (hz l hl)⟩

/-- No word of a WRITE that reaches a tile is SF_VERIFY. -/
theorem verify_out_of_reach {ws : List Word} {i : Nat} (hn : ws.length ≤ 256) (hi : i < ws.length) (hin : InTile t (a + 4 * i)) :
    ∀ j < ws.length, a + 4 * j ≠ regAddr .SF_VERIFY [] := by
  obtain ⟨hlo, -⟩ := hin
  have hv : regAddr .SF_VERIFY [] = 0x70004 := by decide
  omega

theorem cmdWrite_off {ws : List Word} {i : Nat} (h : Ready s k) (hoff : tileOn s.b t = false) (hn : ws.length ≤ 256) (ha : a < 2 ^ 32) (hi : i < ws.length)
    (hin : InTile t (a + 4 * i)) : AccessRefused (.cmdWrite k a ws) k 2 s := by
  have hbad : ∃ v, ws[i]? = some v ∧ writeStatus s.clk.lattice k (a + 4 * i) v.toNat s.b ≠ 0 := ⟨_, List.getElem?_eq_getElem hi, writeStatus_off hin hoff⟩
  obtain ⟨j, hj, ⟨v, hv, he⟩, hz⟩ := exists_first (p := fun i => ∃ v, ws[i]? = some v ∧ writeStatus s.clk.lattice k (a + 4 * i) v.toNat s.b ≠ 0) hbad
  exact ⟨_, (writeStatus_cases _ _ _ _ _).resolve_left he, cmdWrite_refused h hn ha hv he (fun l hl v' hv' => by_contra fun hne => hz l hl ⟨v', hv', hne⟩)
    (verify_out_of_reach hn hi hin)⟩

theorem cmdStage_off {ws : List Word} {i : Nat} (h : Ready s k) (hoff : tileOn s.b t = false) (hn : ws.length ≤ 256) (ha : a < 2 ^ 32) (hi : i < ws.length)
    (hin : InTile t (a + 4 * i)) : AccessRefused (.cmdStage k a ws) k 3 s := by
  obtain ⟨j, hj, he, hz⟩ := exists_first (p := fun i => stageStatus s.b k (a + 4 * i) ≠ 0) (stageStatus_off hin hoff)
  exact ⟨_, (stageStatus_cases s.b k _).resolve_left he, cmdStage_refused h hn ha (by omega) he fun l hl => not_not.1 (hz l hl)⟩

theorem registerWrite_off {v : Word} (hu : s.clk.up = true) (hoff : tileOn s.b t = false) (hin : InTile t a) : AccessRefused (.registerWrite k a v) k 2 s := by
  have he : writeStatus s.clk.lattice k a v.toNat s.b ≠ 0 := writeStatus_off hin hoff
  have hne : a ≠ regAddr .SF_VERIFY [] := verify_out_of_reach (a := a) (ws := [v]) (i := 0) (by simp) (by simp) hin 0 (by simp)
  exact ⟨_, (writeStatus_cases _ _ _ _ _).resolve_left he, (registerWrite_refused hu he).1 hne⟩

theorem stageOp_addr {v : Word} {b : Block} (he : addrStatus b a ≠ 0) : stageOp k a v b = (addrStatus b a, b) := if_pos he

theorem stagingWrite_off {v : Word} (hrun : s.b.run.on = true) (hoff : tileOn s.b t = false) (hin : InTile t a) : AccessRefused (.stagingWrite k a v) k 3 s := by
  have he := addrStatus_off hin hoff
  refine ⟨_, (addrStatus_cases s.b a).resolve_left he, turns_onRun (exec_stagingWrite k a v s) hrun ?_⟩
  rw [stageOp_addr he]
  rfl

end

/-! ### The lands (R37) -/

theorem tileLand_off {b : Block} {t : Fin 8} (x : Land) (h : tileOn b t = false) : tileLand b t x = .hiZ := by
  unfold tileLand; rw [h]; rfl

/-- Settles O58: the first word that fails gives the session's result, and each land is a land of its tile. -/
theorem unpoweredTiles : Obligations.UnpoweredTiles := by
  intro k s t hu hoff
  refine ⟨fun n a i ho h1 hn ha hi hin => cmdRead_off ⟨hu, ho⟩ hoff h1 hn ha hi hin,
    fun a ws i ho hn ha hi hin => ⟨cmdWrite_off ⟨hu, ho⟩ hoff hn ha hi hin, cmdStage_off ⟨hu, ho⟩ hoff hn ha hi hin⟩,
    fun a v hin => registerWrite_off hu hoff hin, fun a v hr hin => stagingWrite_off hr hoff hin, fun now j i n hs y => ?_⟩
  exact ⟨tileLand_off _ hoff, tileLand_off _ hoff, tileLand_off _ hoff, tileLand_off _ hoff, tileLand_off _ hoff, tileLand_off _ hoff, tileLand_off _ hoff⟩

end Sys2Proof.Proofs
end


section
/-! Staging writes, DISCARD and ABORT of a session (R91, R92, R103). -/

namespace Sys2Proof.Proofs

open Sys2Proof.Machine

/-! ### The status of an address -/

/-- An address in the range of a tile that is not powered. -/
def Unpowered (b : Block) (a : Nat) : Prop := 0x10000000 ≤ a ∧ a < 0x18000000 ∧ b.run.tileSet ≤ (a - 0x10000000) / 0x1000000

/-- An address in the range of a tile under test, or of one whose test has just ended. -/
def Tested (b : Block) (a : Nat) : Prop :=
  0x10000000 ≤ a ∧ a < 0x18000000 ∧ (b.hl.st.tile = some ((a - 0x10000000) / 0x1000000) ∨ b.hl.st.resume = some ((a - 0x10000000) / 0x1000000))

section
variable {b : Block} {a : Nat} {r : RegId} {ix : List Nat}

theorem addrStatus_unaligned (h : a % 4 ≠ 0) : addrStatus b a = 2 := if_pos h

theorem addrStatus_unknown (h : a % 4 = 0) (hr : regAt a = none) : addrStatus b a = 3 := by
  unfold addrStatus; rw [if_neg (not_not.2 h), hr]

theorem addrStatus_known (h : a % 4 = 0) (hr : regAt a = some (r, ix)) :
    addrStatus b a = if 0x10 ≤ addrInst a ∧ addrInst a < 0x20 then tileStatus b (addrInst a - 0x10) else 0 := by
  unfold addrStatus; rw [if_neg (not_not.2 h), hr]

theorem addrStatus_tiles (h : a % 4 = 0) (hr : regAt a = some (r, ix)) (hlo : 0x10000000 ≤ a) (hhi : a < 0x18000000) :
    addrStatus b a = tileStatus b ((a - 0x10000000) / 0x1000000) := by
  rw [addrStatus_known h hr, addrInst_tiles hlo hhi, if_pos (by omega), Nat.add_sub_cancel_left]

theorem addrStatus_unpowered (h : a % 4 = 0) (hu : Unpowered b a) : addrStatus b a = 3 := by
  obtain ⟨hlo, hhi, hset⟩ := hu
  cases hr : regAt a with
  | none => exact addrStatus_unknown h hr
  | some p => rw [addrStatus_tiles h hr hlo hhi]; exact tileStatus_off (t := ⟨_, by omega⟩) (by simp [tileOn, hset])

theorem tileOn_of_not_unpowered (hrun : b.run.on = true) (hu : ¬Unpowered b a) (hlo : 0x10000000 ≤ a) (hhi : a < 0x18000000) :
    tileOn b ((a - 0x10000000) / 0x1000000) = true := by
  have hset : (a - 0x10000000) / 0x1000000 < b.run.tileSet := Nat.not_le.1 fun h => hu ⟨hlo, hhi, h⟩
  simp [tileOn, hrun, hset]

theorem tileStatus_on {t : Nat} (h : tileOn b t = true) : tileStatus b t = if b.hl.st.tile = some t ∨ b.hl.st.resume = some t then 5 else 0 := by
  have hlive : tileLive b t = decide ¬(b.hl.st.tile = some t ∨ b.hl.st.resume = some t) := by simp [tileLive, h]
  unfold tileStatus
  rw [h, hlive]
  by_cases ht : b.hl.st.tile = some t ∨ b.hl.st.resume = some t <;> simp [ht]

theorem addrStatus_tested (hrun : b.run.on = true) (h : a % 4 = 0) (hr : regAt a = some (r, ix)) (hu : ¬Unpowered b a) (ht : Tested b a) : addrStatus b a = 5 := by
  obtain ⟨hlo, hhi, ht⟩ := ht
  rw [addrStatus_tiles h hr hlo hhi, tileStatus_on (tileOn_of_not_unpowered hrun hu hlo hhi)]
  exact if_pos ht

theorem addrStatus_ok (hrun : b.run.on = true) (h : a % 4 = 0) (hr : regAt a = some (r, ix)) (hu : ¬Unpowered b a) (ht : ¬Tested b a) : addrStatus b a = 0 := by
  by_cases hin : 0x10000000 ≤ a ∧ a < 0x18000000
  · obtain ⟨hlo, hhi⟩ := hin
    rw [addrStatus_tiles h hr hlo hhi, tileStatus_on (tileOn_of_not_unpowered hrun hu hlo hhi)]
    exact if_neg fun hn => ht ⟨hlo, hhi, hn⟩
  · rw [addrStatus_known h hr, if_neg (addrInst_elsewhere hin)]

/-! ### The word that is staged -/

variable {k : Nat} {v : Word}

theorem stageOp_unstaged (he : addrStatus b a = 0) (hr : regAt a = some (r, ix)) (hm : sgMask r = 0) : stageOp k a v b = (5, b) := by
  unfold stageOp; rw [hr]
  exact (if_neg (not_not.2 he)).trans (if_pos hm)

theorem stageOp_word (he : addrStatus b a = 0) (hr : regAt a = some (r, ix)) (hm : sgMask r ≠ 0) : stageOp k a v b = stageWord k a v b := by
  unfold stageOp; rw [hr]
  exact (if_neg (not_not.2 he)).trans (if_neg hm)

theorem stageWord_role (h : ¬hasRoles b k (stageRole a) = true) : stageWord k a v b = (4, b) := if_pos (by simp [h])

variable (b a v) in
/-- The staged words with the word at its place: its old one where the register is listed, else the end (R91). -/
def stagedList : List (Nat × Word) :=
  if b.cm.staged.any (fun e => decide (e.1 = a)) then b.cm.staged.map fun e => if e.1 = a then (a, v) else e else b.cm.staged ++ [(a, v)]

theorem stageWord_eq (h : hasRoles b k (stageRole a) = true) : stageWord k a v b =
    if b.cm.ph ≠ .idle || (b.cm.owner.isSome && b.cm.owner ≠ some k) then (0x87, b)
    else if !b.cm.staged.any (fun e => decide (e.1 = a)) && decide (4096 ≤ b.cm.staged.length) then (0x88, b)
    else (0, { b with cm := { b.cm with owner := some k, staged := stagedList b a v } }) := by
  unfold stageWord
  exact if_neg (by simp [h])

theorem stageWord_busy (h : hasRoles b k (stageRole a) = true) (hb : CommitBusy k b.cm) : stageWord k a v b = (0x87, b) := by
  rw [stageWord_eq h]; exact if_pos ((commitBusy_iff k b.cm).2 hb)

theorem stageWord_full (h : hasRoles b k (stageRole a) = true) (hb : ¬CommitBusy k b.cm) (hl : (b.cm.staged.any fun e => decide (e.1 = a)) = false)
    (hf : 4096 ≤ b.cm.staged.length) : stageWord k a v b = (0x88, b) := by
  rw [stageWord_eq h]; exact (if_neg (mt (commitBusy_iff k b.cm).1 hb)).trans (if_pos (by rw [hl]; simpa using hf))

theorem stageWord_placed (h : hasRoles b k (stageRole a) = true) (hb : ¬CommitBusy k b.cm)
    (hf : (b.cm.staged.any fun e => decide (e.1 = a)) = true ∨ b.cm.staged.length < 4096) :
    stageWord k a v b = (0, { b with cm := { b.cm with owner := some k, staged := stagedList b a v } }) := by
  rw [stageWord_eq h]
  refine (if_neg (mt (commitBusy_iff k b.cm).1 hb)).trans (if_neg fun hn => ?_)
  rw [Bool.and_eq_true, Bool.not_eq_true', decide_eq_true_eq] at hn
  rcases hf with hf | hf
  · rw [hf] at hn; exact absurd hn.1 (by decide)
  · omega

theorem stagedList_listed (hl : (b.cm.staged.any fun e => decide (e.1 = a)) = true) : stagedList b a v = b.cm.staged.map fun e => if e.1 = a then (a, v) else e := if_pos hl

theorem stagedList_new (hl : (b.cm.staged.any fun e => decide (e.1 = a)) = false) : stagedList b a v = b.cm.staged ++ [(a, v)] := if_neg (Bool.eq_false_iff.1 hl)

/-- Staging is free for session `k`, or its own (R91). -/
theorem not_commitBusy_iff (k : Nat) (cm : Commit) : ¬CommitBusy k cm ↔ cm.ph = .idle ∧ (cm.owner = none ∨ cm.owner = some k) := by
  simp [CommitBusy, or_iff_not_imp_left]

/-! ### DISCARD and ABORT -/

theorem discardCmd_role (h : ¬hasRoles b k 4 = true) : discardCmd k b = (4, b) := if_pos (by simp [roleConfigure, h])

theorem discardRefused_iff (k : Nat) (b : Block) : discardRefused k b = true ↔ ¬(b.cm.ph = .idle ∧ b.cm.owner = some k) := by
  simp [discardRefused, imp_iff_not_or]

theorem discardCmd_refused (h : hasRoles b k 4 = true) (ho : ¬(b.cm.ph = .idle ∧ b.cm.owner = some k)) : discardCmd k b = (5, b) :=
  (if_neg (by simp [roleConfigure, h])).trans (if_pos ((discardRefused_iff k b).2 ho))

theorem discardCmd_owner (h : hasRoles b k 4 = true) (ho : b.cm.ph = .idle ∧ b.cm.owner = some k) : discardCmd k b = (0, stagingEmpty b) := by
  have hr : discardRefused k b = false := Bool.eq_false_iff.2 fun hn => (discardRefused_iff k b).1 hn ho
  have hop : discardOp k b = stagingEmpty b := if_pos (by simp [roleConfigure, h, hr])
  rw [discardCmd, if_neg (by simp [roleConfigure, h]), hr, hop]
  rfl

variable {now : Nat}

theorem abortCmd_role (h : ¬hasRoles b k 4 = true) : abortCmd now k b = (4, b) := if_pos (by simp [roleConfigure, h])

theorem abortRefused_iff (now : Nat) (b : Block) : abortRefused now b = true ↔ (b.cm.ph = .accepted ∨ b.cm.ph = .go) ∧ b.cm.apply ≤ now + 10000 := by
  simp [abortRefused]

theorem abortCmd_late (h : hasRoles b k 4 = true) (hp : b.cm.ph = .accepted ∨ b.cm.ph = .go) (ha : b.cm.apply ≤ now + 10000) : abortCmd now k b = (5, b) :=
  (if_neg (by simp [roleConfigure, h])).trans (if_pos ((abortRefused_iff now b).2 ⟨hp, ha⟩))

theorem abortCmd_early (h : hasRoles b k 4 = true) (he : (b.cm.ph = .idle ∨ b.cm.ph = .checking) ∨ now + 10000 < b.cm.apply) : abortCmd now k b = (0, abortOp now b) := by
  refine (if_neg (by simp [roleConfigure, h])).trans (if_neg fun hr => ?_)
  obtain ⟨hp, ha⟩ := (abortRefused_iff now b).1 hr
  rcases he with (he | he) | he
  · simp [he] at hp
  · simp [he] at hp
  · omega

/-- Outside a commit, and past the decision, there is nothing to abort (R103). -/
theorem abortOp_none (hp : b.cm.ph = .idle ∨ b.cm.ph = .go) : abortOp now b = b := by
  unfold abortOp
  rcases hp with hp | hp <;> exact if_neg (by simp [hp])

theorem abortOp_rejects (hp : b.cm.ph = .checking ∨ (b.cm.ph = .accepted ∧ now + 10000 < b.cm.apply)) :
    abortOp now b = cmReject now { code := 0x1E, item := some 0 } b := if_pos (by simpa using hp)

end

/-! ### Command rows -/

section
variable {k : Fin 8} {s : State} {c : Instr} {op e : Nat}

/-- A row whose operation leaves status `e` and changes the commit engine alone. -/
theorem answers_row {f : Nat → Block → Nat × Block} {cm : Commit} (hc : exec c s = onRun (fun now b => withStatus k op (f now b)) s) (hr : s.b.run.on = true)
    (hf : f s.clk.lattice s.b = (e, { s.b with cm := cm })) : Answers c s k op e cm := by
  refine turns_onRun hc hr ?_
  rw [hf]
  rfl

/-- A row whose operation leaves the block. -/
theorem answers_kept {f : Nat → Block → Nat × Block} (hc : exec c s = onRun (fun now b => withStatus k op (f now b)) s) (hr : s.b.run.on = true)
    (hf : f s.clk.lattice s.b = (e, s.b)) : Answers c s k op e s.b.cm := answers_row hc hr hf

end

end Sys2Proof.Proofs
end

section
/-! STORE and the end of its copy (R108 to R112). -/

namespace Sys2Proof.Proofs

open Sys2Proof.Machine

section
variable {now k : Nat} {b : Block}

theorem storeCmd_role (h : ¬hasRoles b k 4 = true) : storeCmd now k b = (4, b) := if_pos (by simp [roleConfigure, h])

theorem storeCmd_eq (h : hasRoles b k 4 = true) : storeCmd now k b = (0, storeOp now b) := if_neg (by simp [roleConfigure, h])

/-! ### Copies of the settings -/

theorem copyAt_put_same {c : SetCopy} {i : Nat} {n : Nvm} (h : b.nv = putCopy i c n) : copyAt b i = c := by
  unfold copyAt
  rw [h]
  unfold putCopy
  split <;> rfl

/-- A copy written leaves the other alone. -/
theorem copyAt_put_other {y : Block} {c : SetCopy} {i : Nat} (h : y.nv = putCopy i c b.nv) (hi : i = 0 ∨ i = 1) : copyAt y (1 - i) = copyAt b (1 - i) := by
  unfold copyAt
  rw [h]
  rcases hi with rfl | rfl <;> rfl

theorem copyAt_wear {y : Block} (h : OnlyWear b y) (i : Nat) : copyAt y i = copyAt b i := by
  unfold copyAt; rw [h]

theorem copyAt_sessUpd (b : Block) (k : Nat) (f : Sess → Sess) (i : Nat) : copyAt (b.sessUpd k f) i = copyAt b i := rfl

/-- What a STORE or its end may change of the module, before the write to the NVM. -/
def OnlyCopies (b y : Block) : Prop := y = { b with storeSt := y.storeSt, storeOp := y.storeOp, nv := { b.nv with setA := y.nv.setA, setB := y.nv.setB } }

theorem onlyCopies_put {c : SetCopy} {i : Nat} {st : Nat} {o : Option StoreOp} : OnlyCopies b { b with storeSt := st, storeOp := o, nv := putCopy i c b.nv } := by
  unfold OnlyCopies putCopy
  split <;> rfl

/-- The frame of a STORE: the copies, its progress, the sessions and the wear of the NVM. -/
def StoreWorn (b u : Block) : Prop :=
  OnlyWear { b with sess := u.sess, storeSt := u.storeSt, storeOp := u.storeOp, nv := { b.nv with setA := u.nv.setA, setB := u.nv.setB } } u

theorem storeWorn_of_wear {y u : Block} (hy : OnlyCopies b y) (hu : OnlyWear y u) : StoreWorn b u := by
  unfold StoreWorn OnlyWear at *
  rw [hu, hy]

theorem StoreWorn.sessUpd {u : Block} (h : StoreWorn b u) (f : Sess → Sess) : StoreWorn b (u.sessUpd k f) := by
  unfold StoreWorn OnlyWear at *
  rw [h]
  rfl

/-! ### STORE -/

variable (b) in
/-- The copy that STORE writes: the one that is not the newest (R108). -/
def storeTarget : Nat :=
  match newestCopy b with
  | some 0 => 1
  | _ => 0

theorem storeTarget_eq : storeTarget b = if newestCopy b = some 0 then 1 else 0 := by
  unfold storeTarget
  split
  · next h => rw [if_pos h]
  · next h => rw [if_neg h]

theorem storeTarget_cases (b : Block) : storeTarget b = 0 ∨ storeTarget b = 1 := by
  rw [storeTarget_eq]; split <;> simp

variable (b) in
/-- The snapshot that STORE takes. -/
def storeSnap : SetCopy :=
  let c : SetCopy := { done := true, seq := ((copyAt b (1 - storeTarget b)).seq + 1) % 2 ^ 32, id := b.run.id, cfg := paramWords b.cfg, mem := persistBytes b }
  { c with tag := copyTag b c }

variable (now b) in
/-- The module of a STORE that is accepted, before its write to the NVM. -/
def storing : Block :=
  { b with storeSt := 1, nv := putCopy (storeTarget b) { copyAt b (storeTarget b) with done := false } b.nv
           storeOp := some { copy := storeTarget b, snap := storeSnap b, at_ := now, hadDone := (copyAt b (storeTarget b)).done } }

theorem storeOp_accepted (h : b.storeOp = none) (hp : b.pw.pfWarn = false) : storeOp now b = nvWrite now (storing now b) := by
  unfold storeOp
  rw [h, hp, if_neg (by decide), if_neg (by decide)]
  rfl

theorem storing_wear (now : Nat) (b : Block) : OnlyWear (storing now b) (nvWrite now (storing now b)) := nvWrite_wear now _

theorem storing_sess (now : Nat) (b : Block) : (nvWrite now (storing now b)).sess = b.sess := by rw [storing_wear]; rfl

/-! ### The end of a STORE -/

variable (b) in
/-- The module with the snapshot in place, before its write to the NVM. -/
def stored (o : StoreOp) : Block := { b with storeOp := none, storeSt := 0, nv := putCopy o.copy o.snap b.nv }

theorem storeDone_none (h : b.storeOp = none) : storeDone now b = b := by unfold storeDone; rw [h]

theorem storeDone_some {o : StoreOp} (h : b.storeOp = some o) : storeDone now b = nvWrite now (stored b o) := by unfold storeDone; rw [h]; rfl

theorem stored_wear (now : Nat) (b : Block) (o : StoreOp) : OnlyWear (stored b o) (nvWrite now (stored b o)) := nvWrite_wear now _

theorem stored_sess (now : Nat) (b : Block) (o : StoreOp) : (nvWrite now (stored b o)).sess = b.sess := by rw [stored_wear]; rfl

end

/-! ### Sessions that wait for nothing (R621) -/

theorem lastServe_idle {k : Nat} {b : Block} (h : (b.sessAt k).lastWait = .none) : lastServe k b = b := if_pos h

/-- What waits in session `k` is served: its last command row, then its requests. -/
def sessionServed (s : State) (k : Nat) : State :=
  let z := s.mapB (lastServe k)
  if (z.b.sessAt k).reqs.head?.any fun q => decide (q.wait ≠ .none) then reqServe k 9 z else z

theorem reqServeAll_fold (s : State) : reqServeAll s = (List.range 8).foldl sessionServed s := rfl

theorem sessionServed_idle {s : State} {k : Nat} (hreqs : (s.b.sessAt k).reqs = []) (hlast : (s.b.sessAt k).lastWait = .none) : sessionServed s k = s := by
  have hmap : s.mapB (lastServe k) = s := congrArg (fun b => { s with b := b }) (lastServe_idle hlast)
  unfold sessionServed
  dsimp only
  rw [hmap, hreqs]
  rfl

/-- Where nothing waits, serving what waits changes nothing. -/
theorem reqServeAll_idle {s : State} (h : NoneWaits s.b) : reqServeAll s = s := by
  have hall : ∀ l : List Nat, (∀ k ∈ l, k < 8) → l.foldl sessionServed s = s := by
    intro l hl
    induction l with
    | nil => rfl
    | cons k r ih =>
      obtain ⟨hreqs, hlast⟩ := h ⟨k, hl k (List.mem_cons_self ..)⟩
      rw [List.foldl_cons, sessionServed_idle hreqs hlast]
      exact ih fun j hj => hl j (List.mem_cons_of_mem _ hj)
  rw [reqServeAll_fold]
  exact hall _ fun k hk => List.mem_range.1 hk

theorem noneWaits_of_sess {b c : Block} (h : NoneWaits b) (hs : c.sess = b.sess) : NoneWaits c := by
  have hat : ∀ k, c.sessAt k = b.sessAt k := fun k => by unfold Block.sessAt; rw [hs]
  intro k
  rw [hat]
  exact h k

theorem turns_storeDone {s : State} {y : Block} (hr : s.b.run.on = true) (hy : storeDone s.clk.lattice s.b = y) (hw : NoneWaits y) : Turns .storeDone s y := by
  unfold Turns
  rw [exec_storeDone, execStoreDone, if_pos hr]
  have hmap : s.mapB (storeDone s.clk.lattice) = { s with b := y } := congrArg (fun b => { s with b := b }) hy
  rw [hmap, reqServeAll_idle hw]

/-- Settles O50: a staging write by the status of its address and of its word, DISCARD and ABORT by their refusals, STORE and its end by the copy they write. -/
theorem staging : Obligations.Staging := by
  intro k s m hr hm
  subst hm
  have row : ∀ {a v e cm}, stageOp k a v s.b = (e, { s.b with cm := cm }) → Answers (.stagingWrite k a v) s k 3 e cm := fun {a v _ _} h =>
    answers_row (f := fun _ b => stageOp k a v b) (exec_stagingWrite k a v s) hr h
  have discards : ∀ {e cm}, discardCmd k s.b = (e, { s.b with cm := cm }) → Answers (.discard k) s k 2 e cm := fun h =>
    answers_row (f := fun _ b => discardCmd k b) (exec_discard k s) hr h
  have aborts : ∀ {e}, abortCmd s.clk.lattice k s.b = (e, s.b) → Answers (.abort k) s k 2 e s.b.cm := fun h =>
    answers_kept (f := fun now b => abortCmd now k b) (exec_abort k s) hr h
  have stores : ∀ {e y}, storeCmd s.clk.lattice k s.b = (e, y) → Turns (.store k) s (withResult k 5 e [] .none y) := fun h =>
    turns_onRun (exec_store k s) hr (by rw [h]; rfl)
  refine ⟨fun a v ha => row ?_, fun a v ha h => row ?_, fun a v r ix ha hreg hu => ?_, fun hm => ⟨discards (discardCmd_role hm), aborts (abortCmd_role hm), stores (storeCmd_role hm)⟩,
    fun hm ho => discards (discardCmd_refused hm ho), fun hm ho => discards (discardCmd_owner hm ho), fun hm hp => aborts ?_, fun hm hp ha => aborts (abortCmd_late hm hp ha),
    fun hm hp => ?_, fun hm ho => ?_, fun hm ho hp => ?_, fun hm ho hp => ?_, fun hw ho => ?_, fun o hw ho hc => ?_⟩
  · have he : addrStatus s.b a = 2 := addrStatus_unaligned ha
    rw [stageOp_addr (by rw [he]; decide), he]
  · have he : addrStatus s.b a = 3 := h.elim (addrStatus_unknown ha) (addrStatus_unpowered ha)
    rw [stageOp_addr (by rw [he]; decide), he]
  · have refused : Tested s.b a ∨ sgMask r = 0 → stageOp k a v s.b = (5, s.b) := fun h => by
      by_cases ht : Tested s.b a
      · have he := addrStatus_tested hr ha hreg hu ht
        rw [stageOp_addr (by rw [he]; decide), he]
      · exact stageOp_unstaged (addrStatus_ok hr ha hreg hu ht) hreg (h.resolve_left ht)
    have word : ¬Tested s.b a → sgMask r ≠ 0 → stageOp k a v s.b = stageWord k a v s.b := fun ht hm => stageOp_word (addrStatus_ok hr ha hreg hu ht) hreg hm
    have free := not_commitBusy_iff k s.b.cm
    refine ⟨fun ht => row (refused (.inl ht)), fun hm => row (refused (.inr hm)), fun ht hm hrole => row ?_, fun ht hm hrole hmine => row ?_, fun ht hm hrole hmine hl hf => row ?_,
      fun ht hm hrole hmine hl hf => row ?_, fun ht hm hrole hmine hl => row ?_⟩
    · rw [word ht hm, stageWord_role hrole]
    · rw [word ht hm, stageWord_busy hrole (by_contra fun hb => hmine (free.1 hb))]
    · rw [word ht hm, stageWord_full hrole (free.2 hmine) hl hf]
    · rw [word ht hm, stageWord_placed hrole (free.2 hmine) (.inr hf), stagedList_new hl]
    · rw [word ht hm, stageWord_placed hrole (free.2 hmine) (.inl hl), stagedList_listed hl]
  · rw [abortCmd_early hm (hp.imp .inl And.right), abortOp_none (hp.imp_right And.left)]
  · have hop : abortCmd s.clk.lattice k s.b = (0, _) :=
      (abortCmd_early hm (hp.imp .inr And.right)).trans (congrArg (Prod.mk 0) ((abortOp_rejects hp).trans (cmReject_session s.clk.lattice s.b)))
    refine ⟨_, turns_onRun (exec_abort k s) hr (congrArg (withStatus k 2) hop), ⟨rfl, rfl⟩, ⟨rfl, rfl, rfl, rfl⟩, rfl, rfl, fun hrise => ?_⟩
    exact (congrArg (s.b.paceChanging || ·) hrise).trans (Bool.or_false _)
  · exact stores ((storeCmd_eq hm).trans (congrArg (Prod.mk 0) (storeOp_running ho)))
  · exact stores ((storeCmd_eq hm).trans (congrArg (Prod.mk 0) (storeOp_powerFail ho hp)))
  · refine ⟨_, stores ((storeCmd_eq hm).trans (congrArg (Prod.mk 0) (storeOp_accepted ho hp))), ⟨rfl, ?_⟩, (storeWorn_of_wear onlyCopies_put (storing_wear _ _)).sessUpd _, ?_⟩
    · exact congrArg (fun t => tabUpd ({} : Sess) t k fun x => { x with last := { op := 5, status := 0, data := [] }, lastWait := .none }) (storing_sess s.clk.lattice s.b)
    · have hwear := storing_wear s.clk.lattice s.b
      dsimp only
      rw [← storeTarget_eq]
      refine ⟨congrArg Block.storeSt hwear, ?_, ?_, _, congrArg Block.storeOp hwear, rfl, rfl, rfl, rfl, rfl, rfl, rfl, rfl, rfl⟩
      · exact (copyAt_sessUpd _ _ _ _).trans ((copyAt_wear hwear _).trans (copyAt_put_same rfl))
      · exact (copyAt_sessUpd _ _ _ _).trans ((copyAt_wear hwear _).trans (copyAt_put_other rfl (storeTarget_cases _)))
  · exact turns_storeDone hr (storeDone_none ho) hw
  · have hwear := stored_wear s.clk.lattice s.b o
    have hsess := stored_sess s.clk.lattice s.b o
    refine ⟨_, turns_storeDone hr (storeDone_some ho) (noneWaits_of_sess hw hsess), rfl, storeWorn_of_wear onlyCopies_put hwear, hsess, congrArg Block.storeOp hwear,
      congrArg Block.storeSt hwear, ?_, ?_⟩
    · exact (copyAt_wear hwear _).trans (copyAt_put_same rfl)
    · exact (copyAt_wear hwear _).trans (copyAt_put_other rfl hc)

end Sys2Proof.Proofs
end

section
/-! Events, dispatch and control of a tile sequencer (R347 to R350, R362). -/

namespace Sys2Proof.Proofs

open Sys2Proof.Machine

theorem seqUpd_value (b : Block) (t : Nat) (f : Seq → Seq) : b.seqUpd t f = b.seqUpd t fun _ => f (b.seqAt t) := seqUpd_congr _ _ _ _ rfl

section
variable {x : Seq} {k now : Nat}

/-- The boundary between two instructions: a HALT that waits takes place (R362). -/
def atBoundary (x : Seq) : Seq := if x.haltReq = true ∧ x.rep = 0 ∧ x.st = .running then { x with st := .halted, haltReq := false, faultPc := x.r.pc } else x

theorem sqBoundary_eq (x : Seq) : sqBoundary x = atBoundary x := if_congr (by simp [and_assoc]) rfl rfl

/-- An event sets its flag, or EVT_LOST when it is set (R348). -/
def flagged (k now : Nat) (x : Seq) : Seq := if (tabFind x.ev k).isSome = true then { x with evtLost := true } else { x with ev := tabInsert x.ev k now }

/-- An event is flagged, and ends a WAIT for it (R349). -/
def eventRaised (k now : Nat) (x : Seq) : Seq := if x.st = .waiting ∧ x.waitMask.getLsbD k = true then atBoundary { flagged k now x with st := .running } else flagged k now x

theorem sqEvent_eq (k now : Nat) (x : Seq) : sqEvent k now x = eventRaised k now x := by
  have hst : (flagged k now x).st = x.st := by unfold flagged; split <;> rfl
  have hmask : (flagged k now x).waitMask = x.waitMask := by unfold flagged; split <;> rfl
  have hdef : sqEvent k now x = if (flagged k now x).st = .waiting && (flagged k now x).waitMask.getLsbD k then sqBoundary { flagged k now x with st := .running }
    else flagged k now x := rfl
  rw [hdef, hst, hmask, sqBoundary_eq]
  exact if_congr (by simp) rfl rfl

/-! ### Dispatch (R350) -/

theorem sqDispatch_due {e : Nat} (hd : sqDispatchDue x = true) (he : x.ev.find? (fun p => x.r.even.getLsbD p.1) = some (k, e)) :
    sqDispatch now x = sqBoundary { x with
      st := .running, ev := tabErase x.ev k, depth := x.depth + 1, dispMax := max x.dispMax ((now - e) / 10)
      r := { x.r with epc := x.r.pc, ie := false, pc := (sqRead x k).setWidth 16 } } := by
  have hdue : sqDue x = some (k, e) := he
  unfold sqDispatch
  rw [if_pos hd, hdue]

theorem sqDispatch_early (hd : sqDispatchDue x = false) : sqDispatch now x = x := if_neg (Bool.eq_false_iff.1 hd)

/-! ### Control (R362) -/

theorem sqHalt_running (hst : x.st = .running) (hr : x.rep = 0) : sqHalt x = { x with st := .halted, haltReq := false, faultPc := x.r.pc } := by
  unfold sqHalt
  rw [if_pos (by simp [hst]), sqBoundary_eq]; exact if_pos ⟨rfl, hr, hst⟩

theorem sqHalt_repeating (hst : x.st = .running) (hr : x.rep ≠ 0) : sqHalt x = { x with haltReq := true } := by
  unfold sqHalt
  rw [if_pos (by simp [hst]), sqBoundary_eq]
  exact if_neg fun ⟨_, h, _⟩ => hr h

theorem sqHalt_waiting (hst : x.st = .waiting) : sqHalt x = { x with haltReq := true } := by
  unfold sqHalt
  rw [if_pos (by simp [hst]), sqBoundary_eq]; exact if_neg (by simp [hst])

theorem sqHalt_stopped (hst : x.st = .halted ∨ x.st = .fault) : sqHalt x = x := by
  unfold sqHalt
  rcases hst with hst | hst <;> exact if_neg (by simp [hst])

theorem sqNoProgram_iff (e : SqEnv) : sqNoProgram e = true ↔ e.codeLen = 0 ∧ e.entry = 0 := by simp [sqNoProgram]

theorem sqGo_starts {e : SqEnv} (he : ¬(e.codeLen = 0 ∧ e.entry = 0)) (hst : x.st = .halted) : sqGo e x = { x with st := .running } :=
  (if_neg (mt (sqNoProgram_iff e).1 he)).trans (if_pos hst)

theorem sqGo_stands {e : SqEnv} (h : (e.codeLen = 0 ∧ e.entry = 0) ∨ x.st ≠ .halted) : sqGo e x = x := by
  unfold sqGo
  by_cases he : e.codeLen = 0 ∧ e.entry = 0
  · exact if_pos ((sqNoProgram_iff e).2 he)
  · exact (if_neg (mt (sqNoProgram_iff e).1 he)).trans (if_neg (h.resolve_left he))

theorem sqReset_starts {e : SqEnv} (he : ¬(e.codeLen = 0 ∧ e.entry = 0)) : sqReset e x = sqStart e.entry x := if_neg (mt (sqNoProgram_iff e).1 he)

theorem sqReset_stands {e : SqEnv} (he : e.codeLen = 0 ∧ e.entry = 0) : sqReset e x = x := if_pos ((sqNoProgram_iff e).2 he)

/-- A command that does not bring the sequencer into FAULT writes no event. -/
theorem seqDo_calm {t : Nat} {f : SqEnv → Seq → Seq} {b : Block} {y : Seq} (hy : f (sqEnv b now t) (b.seqAt t) = y) (hst : y.st = .fault → (b.seqAt t).st = .fault) :
    seqDo now t f b = b.seqUpd t fun _ => y := by
  unfold seqDo
  dsimp only
  rw [hy]
  exact if_neg (by simpa using hst)

end

end Sys2Proof.Proofs
end

section
/-! Transfers, mailboxes and local memory of a tile sequencer (R25, R352, R356, R358, R361, R592). -/

namespace Sys2Proof.Proofs

open Sys2Proof.Machine

/-! ### Words and bytes -/

theorem getD_leBytes {n v i : Nat} (h : i < n) : (leBytes n v).getD i 0 = BitVec.ofNat 8 (v / 256 ^ i) := by
  induction n generalizing v i with
  | zero => omega
  | succ n ih =>
    cases i with
    | zero => simp [leBytes]
    | succ i => rw [leBytes, List.getD_cons_succ, ih (by omega), Nat.pow_succ', Nat.div_div_eq_div_mul]

theorem length_wordBytes (ws : List Word) : (wordBytes ws).length = 4 * ws.length := by
  induction ws with
  | nil => rfl
  | cons w r ih =>
    have hcons : wordBytes (w :: r) = leBytes 4 w.toNat ++ wordBytes r := rfl
    rw [hcons, List.length_append, ih, List.length_cons, show (leBytes 4 w.toNat).length = 4 from rfl]
    omega

/-- Byte `i` of the bytes of words is byte `i % 4` of word `i / 4`. -/
theorem getD_wordBytes {ws : List Word} {i : Nat} (h : i < 4 * ws.length) :
    (wordBytes ws).getD i 0 = BitVec.ofNat 8 ((ws.getD (i / 4) 0).toNat / 256 ^ (i % 4)) := by
  induction ws generalizing i with
  | nil => simp at h
  | cons w r ih =>
    have hcons : wordBytes (w :: r) = leBytes 4 w.toNat ++ wordBytes r := rfl
    have hlen : (leBytes 4 w.toNat).length = 4 := rfl
    rw [hcons]
    by_cases hi : i < 4
    · rw [List.getD_append _ _ _ _ (by rw [hlen]; exact hi), getD_leBytes hi, Nat.div_eq_of_lt hi, Nat.mod_eq_of_lt hi]
      rfl
    · have hlt : i - 4 < 4 * r.length := by rw [List.length_cons] at h; omega
      rw [List.getD_append_right _ _ _ _ (by rw [hlen]; omega), hlen, ih hlt, show i / 4 = (i - 4) / 4 + 1 from by omega, List.getD_cons_succ,
        show i % 4 = (i - 4) % 4 from by omega]

/-- The words before the first that fails. -/
theorem length_takeWhile_range {p : Nat → Bool} {n m : Nat} (hn : n ≤ m) (hp : ∀ k < n, p k = true) (hf : n < m → p n = false) :
    ((List.range m).takeWhile p).length = n := by
  obtain ⟨d, rfl⟩ := Nat.exists_eq_add_of_le hn
  rw [List.range_add, List.takeWhile_append_of_pos (by simpa using hp), List.length_append, List.length_range]
  cases d with
  | zero => rfl
  | succ d => rw [List.range_succ_eq_map, List.map_cons, List.takeWhile_cons_of_neg (by simp [hf])]; rfl

/-! ### Transfers -/

/-- Only sequencers may differ. -/
def OnlySeq (b c : Block) : Prop := c = { b with seq := c.seq }

theorem onlySeq_seqUpd (b : Block) (t : Nat) (f : Seq → Seq) : OnlySeq b (b.seqUpd t f) := rfl

theorem seqUpd_mem (b : Block) (t : Nat) (f : Seq → Seq) : (b.seqUpd t f).mem = b.mem := rfl

theorem OnlySeq.trans {b c d : Block} (h : OnlySeq b c) (h' : OnlySeq c d) : OnlySeq b d := by unfold OnlySeq at *; rw [h', h]

/-- Only sequencers, the bytes of the stack and its marks of uncorrectable errors may differ. -/
def OnlyStack (b c : Block) : Prop := c = { b with seq := c.seq, mem := c.mem, badMem := c.badMem }

theorem onlyStack_memWrite (a : Nat) (bs : List Byte) (b : Block) : OnlyStack b (memWrite a bs b) := rfl

theorem OnlyStack.seqUpd {b c : Block} (h : OnlyStack b c) (t : Nat) (f : Seq → Seq) : OnlyStack b (c.seqUpd t f) := by
  have hseq := onlySeq_seqUpd c t f
  unfold OnlyStack OnlySeq at *
  rw [hseq, h]

/-- The words of a transfer, from the local memory of its tile. -/
def localWords (x : Seq) (q : Xfer) : List Word := (List.range q.len).map fun i => sqRead x (q.loc + i)

theorem length_localWords (x : Seq) (q : Xfer) : (localWords x q).length = q.len := by simp [localWords]

theorem getD_localWords {x : Seq} {q : Xfer} {i : Nat} (h : i < q.len) : (localWords x q).getD i 0 = sqRead x (q.loc + i) := by
  simp [localWords, List.getD_eq_getElem?_getD, h]

/-- Local memory with the words of a transfer from `ws` at `a`. -/
theorem sqRead_fill (x : Seq) (ws : List Word) (a i : Nat) :
    tabGet 0 (tabFill 0 x.mem a ws) i = if a ≤ i ∧ i < a + ws.length then ws.getD (i - a) 0 else sqRead x i := tabGet_fill 0 ws x.mem a i

/-- The channel of a completed transfer is idle, with its error code, and its event is raised (R359). -/
def channelEnds (now : Nat) (c : Fin 4) (q : Xfer) (err : Nat) (x : Seq) : Seq :=
  sqEvent (8 + c.val) now { x with ch := vset x.ch c { q with busy := false, err := err } }

section
variable {now t : Nat} {c : Fin 4} {b : Block} {q : Xfer}

variable (now t c b) in
/-- The module of a transfer that the spine serves, before the turn of its source. -/
def xferServed : Block :=
  (xferMove now t ((b.seqAt t).ch.get c) b).seqUpd t (channelEnds now c ((b.seqAt t).ch.get c) (xferEccErr b ((b.seqAt t).ch.get c)))

theorem xferServed_same : (xferServed now t c b).seqAt t =
    channelEnds now c ((b.seqAt t).ch.get c) (xferEccErr b ((b.seqAt t).ch.get c)) ((xferMove now t ((b.seqAt t).ch.get c) b).seqAt t) := seqAt_seqUpd _ _ _

theorem xferServed_other {i : Nat} (h : i ≠ t) : (xferServed now t c b).seqAt i = (xferMove now t ((b.seqAt t).ch.get c) b).seqAt i := seqAt_seqUpd_ne _ _ _ _ h

theorem OnlyStack.turns {x y : Block} (h : OnlyStack b y) (hx : x = { y with turns := x.turns }) :
    x = { b with seq := x.seq, mem := x.mem, badMem := x.badMem, turns := x.turns } := by
  unfold OnlyStack at h
  rw [hx, h]

theorem OnlySeq.turns {x y : Block} (h : OnlySeq b y) (hx : x = { y with turns := x.turns }) : x = { b with seq := x.seq, turns := x.turns } := by
  unfold OnlySeq at h
  rw [hx, h]

theorem xferDone_idle (h : ((b.seqAt t).ch.get c).busy = false) : xferDone now t c b = b := if_neg (Bool.eq_false_iff.1 h)

theorem xferDone_waits (hs : spineServes b (pktXfer t ((b.seqAt t).ch.get c)) = false) : xferDone now t c b = b := by
  unfold xferDone
  dsimp only
  rw [spineServe_waits hs, ite_self]

theorem xferDone_served (h : ((b.seqAt t).ch.get c).busy = true) (hs : spineServes b (pktXfer t ((b.seqAt t).ch.get c)) = true) :
    xferDone now t c b = { xferServed now t c b with turns := spineServed (xferServed now t c b) (pktXfer t ((b.seqAt t).ch.get c)) } :=
  (if_pos h).trans (spineServe_goes hs)

theorem seqAt_of_seq {y : Block} (h : y.seq = b.seq) (i : Nat) : y.seqAt i = b.seqAt i := by unfold Block.seqAt; rw [h]

/-- What a block with other turns keeps of the one before. -/
theorem keeps_of_turnsSet {x y : Block} {ts : List (Nat × Nat × Nat)} (h : x = { y with turns := ts }) : x.seq = y.seq ∧ x.mem = y.mem ∧ x = { y with turns := x.turns } := by
  rw [h]; exact ⟨rfl, rfl, rfl⟩

/-- Sequencers and stack after a transfer are those of its service. -/
theorem xferDone_keeps (h : ((b.seqAt t).ch.get c).busy = true) (hs : spineServes b (pktXfer t ((b.seqAt t).ch.get c)) = true) :
    (xferDone now t c b).seq = (xferServed now t c b).seq ∧ (xferDone now t c b).mem = (xferServed now t c b).mem ∧
      xferDone now t c b = { xferServed now t c b with turns := (xferDone now t c b).turns } := keeps_of_turnsSet (xferDone_served h hs)

theorem partId_some {p : Part} (hp : b.run.parts.find? (fun p => decide (p.id = q.part)) = some p) : xferBase b q = p.base * 65536 + q.ofs := by
  unfold xferBase partId
  rw [hp]

/-! Into the memory stack -/

theorem xferMove_out (hd : q.dir = 1) : xferMove now t q b = memWrite (xferBase b q) (wordBytes (localWords (b.seqAt t) q)) b := by
  unfold xferMove
  rw [hd]
  rfl

theorem xferEccErr_other (hd : q.dir ≠ 0) : xferEccErr b q = 0 := if_neg (by simp [hd])

theorem xferServed_out (hd : ((b.seqAt t).ch.get c).dir = 1) :
    (xferServed now t c b).seqAt t = channelEnds now c ((b.seqAt t).ch.get c) 0 (b.seqAt t) ∧
      OnlyStack b (xferServed now t c b) ∧
      (xferServed now t c b).mem = (memWrite (xferBase b ((b.seqAt t).ch.get c)) (wordBytes (localWords (b.seqAt t) ((b.seqAt t).ch.get c))) b).mem := by
  refine ⟨?_, ?_, ?_⟩
  · rw [xferServed_same, xferMove_out hd, xferEccErr_other (by rw [hd]; decide)]; rfl
  · unfold xferServed; rw [xferMove_out hd]; exact (onlyStack_memWrite _ _ _).seqUpd _ _
  · unfold xferServed; rw [xferMove_out hd]; exact seqUpd_mem _ _ _

/-- The bytes of the stack after a transfer into it. -/
theorem stack_after_out (a base : Nat) (x : Seq) (q : Xfer) : tabGet 0 (memWrite base (wordBytes (localWords x q)) b).mem a =
    if base ≤ a ∧ a < base + 4 * q.len then BitVec.ofNat 8 ((sqRead x (q.loc + (a - base) / 4)).toNat / 256 ^ ((a - base) % 4)) else tabGet 0 b.mem a := by
  rw [memWrite_read, length_wordBytes, length_localWords]
  by_cases h : base ≤ a ∧ a < base + 4 * q.len
  · rw [if_pos h, if_pos h, getD_wordBytes (by rw [length_localWords]; omega), getD_localWords (by omega)]
  · rw [if_neg h, if_neg h]

/-! Out of the memory stack -/

theorem goodWords_eq {a n m : Nat} (hn : n ≤ m) (hok : ∀ k < n, badIn b (a + 4 * k) 4 = false) (hbad : n < m → badIn b (a + 4 * n) 4 = true) : goodWords b a m = n :=
  length_takeWhile_range hn (fun k hk => by simp [hok k hk]) fun h => by simp [hbad h]

theorem xferMove_in (hd : q.dir = 0) : xferMove now t q b =
    b.seqUpd t fun s => { s with mem := tabFill 0 s.mem q.loc (stackWords b (xferBase b q) (goodWords b (xferBase b q) q.len)) } := by
  unfold xferMove
  rw [hd]
  rfl

theorem xferEccErr_in {n : Nat} (hd : q.dir = 0) (hg : goodWords b (xferBase b q) q.len = n) : xferEccErr b q = if n < q.len then 7 else 0 := by
  unfold xferEccErr
  rw [hd, hg]
  exact if_congr (by simp) rfl rfl

theorem xferServed_in {n : Nat} (hd : ((b.seqAt t).ch.get c).dir = 0) (hg : goodWords b (xferBase b ((b.seqAt t).ch.get c)) ((b.seqAt t).ch.get c).len = n) :
    (xferServed now t c b).seqAt t = channelEnds now c ((b.seqAt t).ch.get c) (if n < ((b.seqAt t).ch.get c).len then 7 else 0)
        { b.seqAt t with mem := tabFill 0 (b.seqAt t).mem ((b.seqAt t).ch.get c).loc (stackWords b (xferBase b ((b.seqAt t).ch.get c)) n) } ∧
      OnlySeq b (xferServed now t c b) := by
  refine ⟨?_, ?_⟩
  · rw [xferServed_same, xferMove_in hd, xferEccErr_in hd hg, hg, seqAt_seqUpd]
  · unfold xferServed; rw [xferMove_in hd]; exact (onlySeq_seqUpd _ _ _).trans (onlySeq_seqUpd _ _ _)

theorem getD_stackWords {a n i : Nat} (h : i < n) : (stackWords b a n).getD i 0 = BitVec.ofNat 32 (leNat (tabBytes 0 b.mem (a + 4 * i) 4)) := by
  simp [stackWords, List.getD_eq_getElem?_getD, h]

/-- Local memory after a transfer out of the stack. -/
theorem local_after_in (x : Seq) (loc base n a : Nat) : tabGet 0 (tabFill 0 x.mem loc (stackWords b base n)) a =
    if loc ≤ a ∧ a < loc + n then BitVec.ofNat 32 (leNat (tabBytes 0 b.mem (base + 4 * (a - loc)) 4)) else sqRead x a := by
  rw [sqRead_fill, show (stackWords b base n).length = n from by simp [stackWords]]
  by_cases h : loc ≤ a ∧ a < loc + n
  · rw [if_pos h, if_pos h, getD_stackWords (by omega)]
  · rw [if_neg h, if_neg h]

/-! To another tile -/

/-- The local memory of the receiving tile after a transfer. -/
def inboxFilled (b : Block) (t : Nat) (q : Xfer) : Tab Word :=
  tabFill 0 (b.seqAt q.tile).mem (Fld.SQ_INBOX_BASE b.cfg q.tile + q.ofs) (localWords (b.seqAt t) q)

theorem xferMove_tile (hd : q.dir = 2) (ht : q.tile ≠ t) : xferMove now t q b = b.seqUpd q.tile fun s => sqEvent 13 now { s with mem := inboxFilled b t q } := by
  unfold xferMove
  rw [hd]
  dsimp only
  rw [if_neg ht]
  exact seqUpd_congr _ _ _ _ rfl

theorem xferServed_tile (hd : ((b.seqAt t).ch.get c).dir = 2) (ht : ((b.seqAt t).ch.get c).tile ≠ t) :
    (xferServed now t c b).seqAt t = channelEnds now c ((b.seqAt t).ch.get c) 0 (b.seqAt t) ∧ OnlySeq b (xferServed now t c b) ∧
      (xferServed now t c b).seqAt ((b.seqAt t).ch.get c).tile =
        sqEvent 13 now { b.seqAt ((b.seqAt t).ch.get c).tile with mem := inboxFilled b t ((b.seqAt t).ch.get c) } := by
  refine ⟨?_, ?_, ?_⟩
  · rw [xferServed_same, xferMove_tile hd ht, xferEccErr_other (by rw [hd]; decide), seqAt_seqUpd_ne _ _ _ _ ht.symm]
  · unfold xferServed; rw [xferMove_tile hd ht]; exact (onlySeq_seqUpd _ _ _).trans (onlySeq_seqUpd _ _ _)
  · rw [xferServed_other ht, xferMove_tile hd ht, seqAt_seqUpd]

theorem inbox_after (b : Block) (t : Nat) (q : Xfer) (a : Nat) : tabGet 0 (inboxFilled b t q) a =
    if Fld.SQ_INBOX_BASE b.cfg q.tile + q.ofs ≤ a ∧ a < Fld.SQ_INBOX_BASE b.cfg q.tile + q.ofs + q.len then
      sqRead (b.seqAt t) (q.loc + (a - (Fld.SQ_INBOX_BASE b.cfg q.tile + q.ofs)))
    else sqRead (b.seqAt q.tile) a := by
  unfold inboxFilled
  rw [sqRead_fill, length_localWords]
  by_cases h : Fld.SQ_INBOX_BASE b.cfg q.tile + q.ofs ≤ a ∧ a < Fld.SQ_INBOX_BASE b.cfg q.tile + q.ofs + q.len
  · rw [if_pos h, if_pos h, getD_localWords (by omega)]
  · rw [if_neg h, if_neg h]

/-! ### Mailboxes (R356) -/

/-- The sequencer with mailbox `m` stale and its event raised. -/
def staled (now m : Nat) (x : Seq) : Seq := sqEvent 14 now { x with mb := { x.mb with stale := x.mb.stale ||| BitVec.ofNat 16 (2 ^ m) } }

theorem mbStale_due {m p : Nat} (hp : tabFind (b.seqAt t).mb.posted m = some p) (h0 : Fld.SQ_MBTO_TO b.cfg t m ≠ 0) (hto : p + 1000 * Fld.SQ_MBTO_TO b.cfg t m ≤ now)
    (hs : (b.seqAt t).mb.stale.getLsbD m = false) : mbStale now t m b = axFaults now 1 (mbReaders b t m) (b.seqUpd t (staled now m)) := by
  unfold mbStale
  dsimp only
  rw [hp]
  exact if_pos (by simp [h0, hto, hs])

theorem mbStale_early {m : Nat} (h : tabFind (b.seqAt t).mb.posted m = none ∨ Fld.SQ_MBTO_TO b.cfg t m = 0 ∨ (b.seqAt t).mb.stale.getLsbD m = true ∨
    ∃ p, tabFind (b.seqAt t).mb.posted m = some p ∧ now < p + 1000 * Fld.SQ_MBTO_TO b.cfg t m) : mbStale now t m b = b := by
  unfold mbStale
  dsimp only
  split
  · next p hp =>
    refine if_neg fun hdue => ?_
    simp only [Bool.and_eq_true, decide_eq_true_eq, Bool.not_eq_true'] at hdue
    obtain ⟨⟨h0, hto⟩, hs⟩ := hdue
    rcases h with h | h | h | ⟨p', hp', hlt⟩
    · rw [hp] at h; cases h
    · exact h0 h
    · rw [hs] at h; cases h
    · rw [hp] at hp'; cases hp'; omega
  · rfl

theorem axFaults_seq (now cause : Nat) (l : List (Nat × Nat)) (b : Block) : (axFaults now cause l b).seq = b.seq := by
  rw [(axFaults_only now cause l b).1]

/-- A stale mailbox: its flag and event, and the faults of the axes that read it. -/
theorem mbStale_leaves {m p : Nat} (hp : tabFind (b.seqAt t).mb.posted m = some p) (h0 : Fld.SQ_MBTO_TO b.cfg t m ≠ 0) (hto : p + 1000 * Fld.SQ_MBTO_TO b.cfg t m ≤ now)
    (hs : (b.seqAt t).mb.stale.getLsbD m = false) :
    (mbStale now t m b).seqAt t = staled now m (b.seqAt t) ∧ OnlyFaults (b.seqUpd t fun _ => (mbStale now t m b).seqAt t) (mbStale now t m b) := by
  have hseq : (mbStale now t m b).seqAt t = staled now m (b.seqAt t) := by
    rw [mbStale_due hp h0 hto hs, seqAt_of_seq (axFaults_seq _ _ _ _), seqAt_seqUpd]
  refine ⟨hseq, ?_⟩
  rw [hseq, ← seqUpd_value, mbStale_due hp h0 hto hs]
  exact axFaults_only _ _ _ _

/-! ### Local memory (R361) -/

theorem localWrite_data {a : Nat} {v : Word} (h : Fld.SQ_CFG_CODE_LEN b.cfg t ≤ a) : localWrite t a v b = b.seqUpd t fun _ => { b.seqAt t with mem := tabSet 0 (b.seqAt t).mem a v } :=
  (if_neg (Nat.not_lt.2 h)).trans (seqUpd_value _ _ _)

theorem localWrite_code {a : Nat} {v : Word} (h : a < Fld.SQ_CFG_CODE_LEN b.cfg t) : localWrite t a v b = b := if_pos h

/-- A read of local memory after a write. -/
theorem sqRead_set (x : Seq) (a i : Nat) (v : Word) : tabGet 0 (tabSet 0 x.mem a v) i = if i = a then v else sqRead x i := by
  by_cases h : i = a
  · rw [if_pos h, h, tabGet_set_same]
  · rw [if_neg h, tabGet_set_ne _ _ _ _ _ h]; rfl

end

/-! ### The repeat in progress (R347) -/

theorem sqAdvance_last {n : Nat} {x : Seq} (h : x.rep ≤ 1) :
    sqAdvance n x = sqBoundary { x with rep := 0, repRan := false, r := { x.r with pc := x.r.pc + BitVec.ofNat 16 n } } := if_pos h

theorem sqAdvance_repeats {n : Nat} {x : Seq} (h : 1 < x.rep) : sqAdvance n x = { x with rep := x.rep - 1, repRan := true } := if_neg (Nat.not_le.2 h)

/-- Settles O32: each command is its operation on the sequencer; a transfer is split by its direction. -/
theorem sequencerControl : Obligations.SequencerControl := by
  intro t s x hl hx
  subst hx
  have on : ∀ {c : Instr} {f : Nat → Seq → Seq} {y : Seq}, exec c s = onTile t (fun now b => b.seqUpd t (f now)) s → f s.clk.lattice (s.b.seqAt t) = y →
      Turns c s (s.b.seqUpd t fun _ => y) := fun hc hy => turns_onTile hc hl (seqUpd_congr _ _ _ _ hy)
  have dispatch : ∀ {y}, sqDispatch s.clk.lattice (s.b.seqAt t) = y → Turns (.sqDispatch t) s (s.b.seqUpd t fun _ => y) := on (f := sqDispatch) (exec_sqDispatch t s)
  have halt : ∀ {y}, sqHalt (s.b.seqAt t) = y → Turns (.sqHalt t) s (s.b.seqUpd t fun _ => y) := on (f := fun _ => sqHalt) (exec_sqHalt t s)
  have runs : ∀ {y : Seq}, sqGo (sqEnv s.b s.clk.lattice t) (s.b.seqAt t) = y → (y.st = .fault → (s.b.seqAt t).st = .fault) → Turns (.sqRun t) s (s.b.seqUpd t fun _ => y) :=
    fun hy hst => turns_onTile (exec_sqRun t s) hl (seqDo_calm hy hst)
  have resets : ∀ {y : Seq}, sqReset (sqEnv s.b s.clk.lattice t) (s.b.seqAt t) = y → (y.st = .fault → (s.b.seqAt t).st = .fault) → Turns (.sqReset t) s (s.b.seqUpd t fun _ => y) :=
    fun hy hst => turns_onTile (exec_sqReset t s) hl (seqDo_calm hy hst)
  refine ⟨fun k e hd he => dispatch ((sqDispatch_due hd he).trans (sqBoundary_eq _)), fun hd => dispatch (sqDispatch_early hd), fun c => ?_, fun m p hp h0 hto hs => ?_,
    fun m h => turns_onTile (exec_mailboxStale t m s) hl (mbStale_early h), fun hst hr => halt (sqHalt_running hst hr), fun hst hr => halt (sqHalt_repeating hst hr),
    fun hst => halt (sqHalt_waiting hst), fun hst => halt (sqHalt_stopped hst), fun he hst => runs (sqGo_starts he hst) (by simp), fun h => runs (sqGo_stands h) id,
    fun he => resets (sqReset_starts he) (by simp), fun he => resets (sqReset_stands he) id, on (f := fun _ x => { x with dispMax := 0 }) (exec_sqClrStats t s) rfl,
    fun v => on (f := fun now x => sqEvent 12 now { x with dbell := v }) (exec_sqDoorbell t v s) (sqEvent_eq _ _ _),
    fun a v ha => ⟨_, turns_onTile (exec_localMemoryWrite t a v s) hl (localWrite_data ha), _, rfl, fun i => sqRead_set _ _ _ _⟩,
    fun a v ha => turns_onTile (exec_localMemoryWrite t a v s) hl (localWrite_code ha), fun n h => (sqAdvance_last h).trans (sqBoundary_eq _), fun n h => sqAdvance_repeats h⟩
  · have acts : ∀ {P : State → Prop}, P { s with b := xferDone s.clk.lattice t c s.b } → Gives (.sqXferDone t c) s P := gives_onTile (exec_sqXferDone t c s) hl
    refine ⟨fun hb => turns_onTile (exec_sqXferDone t c s) hl (xferDone_idle hb), fun hb hs => turns_onTile (exec_sqXferDone t c s) hl (xferDone_waits (Bool.eq_false_iff.2 hs)),
      fun p hb hs hd hp => ?_, fun p n hb hs hd hp hn hok hbad => ?_, fun hb hs hd ht => ?_⟩
    · obtain ⟨hseq, hmem, hturns⟩ := xferDone_keeps (now := s.clk.lattice) hb hs
      obtain ⟨hat, honly, hstack⟩ := xferServed_out (now := s.clk.lattice) hd
      refine acts ⟨(seqAt_of_seq hseq t).trans (hat.trans (sqEvent_eq _ _ _)), honly.turns hturns, fun a => ?_⟩
      dsimp only
      rw [hmem, hstack, partId_some hp]
      exact stack_after_out _ _ _ _
    · obtain ⟨hseq, -, hturns⟩ := xferDone_keeps (now := s.clk.lattice) hb hs
      have hgood := (congrArg (goodWords s.b · ((s.b.seqAt t).ch.get c).len) (partId_some hp)).trans (goodWords_eq hn hok hbad)
      obtain ⟨hat, honly⟩ := xferServed_in (now := s.clk.lattice) hd hgood
      refine acts ⟨_, (seqAt_of_seq hseq t).trans (hat.trans (sqEvent_eq _ _ _)), honly.turns hturns, fun a => ?_⟩
      rw [partId_some hp]
      exact local_after_in _ _ _ _ _
    · obtain ⟨hseq, -, hturns⟩ := xferDone_keeps (now := s.clk.lattice) hb hs
      obtain ⟨hat, honly, htile⟩ := xferServed_tile (now := s.clk.lattice) hd ht
      exact acts ⟨(seqAt_of_seq hseq t).trans (hat.trans (sqEvent_eq _ _ _)), honly.turns hturns, _, (seqAt_of_seq hseq _).trans (htile.trans (sqEvent_eq _ _ _)),
        fun a => inbox_after _ _ _ _⟩
  · obtain ⟨hseq, honly⟩ := mbStale_leaves hp h0 hto hs
    exact gives_onTile (exec_mailboxStale t m s) hl ⟨hseq.trans (sqEvent_eq _ _ _), honly⟩

end Sys2Proof.Proofs
end

section
/-! What a command answers, and what moves the lattice (R49, R117, R559, R657). -/

namespace Sys2Proof.Proofs

open Sys2Proof.Machine

/-- No command faults or is refused: each arm of `exec` gives a next state. -/
theorem exec_answers (c : Instr) (s : State) : exec c s = .next (afterRow (exec c s) s) := by
  cases c with | _ => rfl

theorem afterRow_of_next {c : Instr} {s u : State} (h : exec c s = .next u) : afterRow (exec c s) s = u := by rw [h]; rfl

theorem gives_of_afterRow {c : Instr} {s : State} {P : State → Prop} (h : P (afterRow (exec c s) s)) : Gives c s P := ⟨_, exec_answers c s, h⟩

theorem latticeStep_pending (pins : List Pin) (s : State) : (latticeStep pins s).pending = s.pending := by
  unfold latticeStep
  split
  · exact (reqServeAll_same _).2
  · rfl

/-- A transition of the life cycle leaves the clock, or restarts the module and leaves the hub in reset. -/
theorem lifeDone_clk (s : State) : (lifeDone s).clk = s.clk ∨ (lifeDone s).clk = {} := by
  cases hj : s.b.tr.journal with
  | none => rw [lifeDone_none hj]; exact .inl rfl
  | some j =>
    rw [lifeDone_some hj]
    split
    · exact .inr rfl
    · exact .inl rfl

theorem lifeDone_pending (s : State) : (lifeDone s).pending = s.pending := by
  cases hj : s.b.tr.journal with
  | none => rw [lifeDone_none hj]
  | some j => rw [lifeDone_some hj]; split <;> rfl

/-- No command touches the queue: those that leave the lattice by `exec_keeps_clk`, the four that may move it one by one. -/
theorem exec_keeps_pending (c : Instr) (s : State) : (afterRow (exec c s) s).pending = s.pending := by
  by_cases h : movesLattice c = false
  · exact (exec_keeps_clk c s h).2
  · cases c with
    | latticeTick pins => exact latticeStep_pending pins s
    | boot =>
      show (if s.clk.up then s else _).pending = s.pending
      split <;> rfl
    | railReset => rfl
    | lifecycleTransition =>
      show (if s.clk.up then lifeDone s else s).pending = s.pending
      split
      · exact lifeDone_pending s
      · rfl
    | _ => exact absurd rfl h

/-- Settles O1: the step takes the command at the front of the queue. -/
theorem stepRunsFront : Obligations.StepRunsFront := ⟨fun _ _ _ => rfl, fun _ => rfl⟩

/-- Settles O2: every arm of `exec` gives a next state, and none touches the queue. -/
theorem commandsAnswer : Obligations.CommandsAnswer := fun c s => ⟨_, exec_answers c s, exec_keeps_pending c s⟩

/-- Settles O3: the tick, the boot, the rail reset and the restarting transition by their clocks, every other command by `exec_keeps_clk`. -/
theorem latticeMoves : Obligations.LatticeMoves := by
  refine ⟨fun pins s hup => ?_, fun pins s hup => ?_, fun s hup => ?_, fun s => gives_of_afterRow ⟨rfl, rfl⟩, fun c s u hu => ?_⟩
  · refine gives_of_afterRow ⟨(latticeStep_clk pins s).trans ?_, latticeStep_pending pins s⟩
    rw [hup]; rfl
  · refine gives_of_afterRow ⟨(latticeStep_clk pins s).trans ?_, latticeStep_pending pins s⟩
    rw [hup]; rfl
  · have booted : afterRow (exec .boot s) s = { s with clk := { lattice := 0, up := true }, b := bootOp s.b } := if_neg (by simp [hup])
    exact gives_of_afterRow (by rw [booted]; exact ⟨rfl, rfl⟩)
  · obtain rfl := afterRow_of_next hu
    refine ⟨fun h => (exec_keeps_clk c s h).1, fun h hup => ?_, fun h => ?_⟩
    · subst h; exact if_pos hup
    · subst h
      have hx : afterRow (exec .lifecycleTransition s) s = if s.clk.up then lifeDone s else s := rfl
      rw [hx]
      split
      · exact (lifeDone_clk s).imp_right fun hr => by rw [hr]; exact ⟨rfl, rfl⟩
      · exact .inl rfl

end Sys2Proof.Proofs
end

section
/-! Set-points that take effect, extrapolation and the late-set-point fault (R75, R78 to R82). -/

namespace Sys2Proof.Proofs

open Sys2Proof.Machine

/-- An input with its late-set-point fault signalled (R82). -/
def spSignalled (x : SpIn) : SpIn := { x with lateFault := true, signalled := true }

/-- An input with `e` in force and `r` the rest of its queue, no late set-point waiting (R78). -/
def spInForce (e : SpEntry) (r : List SpEntry) (x : SpIn) : SpIn := { spForce e x with queue := r, late := [] }

/-- Record `y` is `x` but for the two bits of the fault (R82). -/
def SameButFault (x y : SpIn) : Prop := y = { x with lateFault := y.lateFault, signalled := y.signalled }

theorem SameButFault.trans {x y z : SpIn} (h : SameButFault x y) (h' : SameButFault y z) : SameButFault x z := by
  unfold SameButFault at *; rw [h', h]

theorem SameButFault.inForce {x y : SpIn} (h : SameButFault x y) (e : SpEntry) (r : List SpEntry) : SameButFault (spInForce e r x) (spInForce e r y) := by
  unfold SameButFault at *; rw [h]; rfl

theorem spSignalled_ne (x : SpIn) : spSignalled x ≠ {} := fun h => Bool.noConfusion (congrArg SpIn.lateFault h)

/-- An input that holds a set-point is not an input as after reset. -/
theorem spInForce_ne (e : SpEntry) (r : List SpEntry) (x : SpIn) : spInForce e r x ≠ {} := by
  intro h
  have hc : min 2 (x.cnt + 1) = 0 := congrArg SpIn.cnt h
  omega

theorem spQueueDue_head {now : Nat} {e : SpEntry} {r : List SpEntry} {x : SpIn} (he : e.at_ ≤ now) (hr : ∀ q ∈ r, now < q.at_) :
    spQueueDue now (e :: r) x = { spForce e x with queue := r } := by
  rw [spQueueDue, if_pos he]
  cases r with
  | nil => rfl
  | cons q r => rw [spQueueDue, if_neg (Nat.not_le.2 (hr q (List.mem_cons_self ..)))]

section
variable {t n : Nat} {b c : Block}

theorem sp_of_faults (h : OnlyFaults b c) : c.sp = b.sp := by rw [h.1]

theorem spAt_of_faults (h : OnlyFaults b c) (t n : Nat) : c.spAt t n = b.spAt t n := by unfold Block.spAt; rw [sp_of_faults h]

/-- An update of an input commutes with a fault of axes. -/
theorem spUpd_faults (h : OnlyFaults b c) (t n : Nat) (f : SpIn → SpIn) : OnlyFaults (b.spUpd t n f) (c.spUpd t n f) := by
  refine ⟨?_, h.2⟩
  rw [h.1]; rfl

/-- Of two records written to one input, neither as after reset, the second stands. -/
theorem spUpd_write {x y : SpIn} (hx : x ≠ {}) (hy : y ≠ {}) : ((b.spUpd t n fun _ => x).spUpd t n fun _ => y) = b.spUpd t n fun _ => y := by
  unfold Block.spUpd
  exact congrArg (fun l => { b with sp := l }) (tabUpd_upd {} b.sp _ (fun _ => x) (fun _ => y) hx hy)

variable {now : Nat}

theorem spFault_early (h : spFaultDue b now t n (b.spAt t n) = false) : spFault now t n b = b := if_neg (Bool.eq_false_iff.1 h)

theorem spFault_only (h : spFaultDue b now t n (b.spAt t n) = true) :
    OnlyFaults (b.spUpd t n fun _ => spSignalled (b.spAt t n)) (spFault now t n b) := by
  have hw : (b.spUpd t n fun x => { x with lateFault := true, signalled := true }) = b.spUpd t n fun _ => spSignalled (b.spAt t n) := spUpd_congr _ _ _ _ _ rfl
  rw [spFault, if_pos h, hw]
  exact OnlyFaults.trans (acqEvent_only now t 12 _) (axFaults_only now 1 _ _)

theorem spFault_spAt (h : spFaultDue b now t n (b.spAt t n) = true) : (spFault now t n b).spAt t n = spSignalled (b.spAt t n) :=
  (spAt_of_faults (spFault_only h) t n).trans (spAt_spUpd _ _ _ _)

theorem spFault_input (now t n : Nat) (b : Block) : SameButFault (b.spAt t n) ((spFault now t n b).spAt t n) := by
  cases h : spFaultDue b now t n (b.spAt t n) with
  | true => rw [spFault_spAt h]; rfl
  | false => rw [spFault_early h]; rfl

/-- The record written to an input after its fault has been signalled, or not, leaves what a fault leaves of the block with that record. -/
theorem spFault_write {y : SpIn} (hy : y ≠ {}) : OnlyFaults (b.spUpd t n fun _ => y) ((spFault now t n b).spUpd t n fun _ => y) := by
  cases h : spFaultDue b now t n (b.spAt t n) with
  | true =>
    have hw := spUpd_faults (spFault_only h) t n fun _ => y
    rwa [spUpd_write (spSignalled_ne _) hy] at hw
  | false => rw [spFault_early h]; exact OnlyFaults.refl _

/-- The fault of an input in which `y` has been written: only its record and what a fault of axes may change differ from the block before. -/
theorem spFault_after {y : SpIn} (hc : OnlyFaults (b.spUpd t n fun _ => y) c) (hy : y ≠ {}) :
    OnlyFaults (b.spUpd t n fun _ => (spFault now t n c).spAt t n) (spFault now t n c) := by
  have hat : c.spAt t n = y := (spAt_of_faults hc t n).trans (spAt_spUpd _ _ _ _)
  cases h : spFaultDue c now t n (c.spAt t n) with
  | true =>
    have hw := spUpd_faults hc t n fun _ => spSignalled (c.spAt t n)
    rw [spUpd_write hy (spSignalled_ne _)] at hw
    rw [spFault_spAt h]
    exact OnlyFaults.trans hw (spFault_only h)
  | false => rw [spFault_early h, hat]; exact hc

/-- With no set-point due at its tick, queued or late, an input keeps the one in force. -/
theorem spEffect_waits (hq : ∀ e ∈ (b.spAt t n).queue, now < e.at_) (hl : ∀ e ∈ (b.spAt t n).late, now < e.tick) : spEffect now t n b = b :=
  if_neg (by simpa using ⟨hq, hl⟩)

section
variable {e : SpEntry} {r : List SpEntry} (hq : (b.spAt t n).queue = e :: r) (he : e.at_ ≤ now) (hr : ∀ q ∈ r, now < q.at_) (hl : (b.spAt t n).late = [])
include hq he hr hl

/-- A due set-point takes effect between a fault that was due before it and one that it is itself too late for. -/
theorem spEffect_takes :
    spEffect now t n b = spFault now t n ((spFault now t n b).spUpd t n fun _ => spInForce e r ((spFault now t n b).spAt t n)) := by
  have hdue : ((b.spAt t n).queue.any (fun e => decide (e.at_ ≤ now)) || (b.spAt t n).late.any (fun e => decide (e.tick ≤ now))) = true := by simp [hq, he]
  refine (if_pos hdue).trans (congrArg _ (spUpd_congr _ _ _ _ _ ?_))
  have hin := spFault_input now t n b
  have hqueue : ((spFault now t n b).spAt t n).queue = e :: r := by rw [hin]; exact hq
  have hlate : ((spFault now t n b).spAt t n).late = [] := by rw [hin]; exact hl
  dsimp only
  rw [hqueue, spQueueDue_head he hr]
  dsimp only [spForce]
  rw [hlate]; rfl

/-- The due set-point comes into force, and the rest of the queue stands. -/
theorem spEffect_input : SameButFault (spInForce e r (b.spAt t n)) ((spEffect now t n b).spAt t n) := by
  have h := spFault_input now t n ((spFault now t n b).spUpd t n fun _ => spInForce e r ((spFault now t n b).spAt t n))
  rw [spAt_spUpd] at h
  rw [spEffect_takes hq he hr hl]
  exact ((spFault_input now t n b).inForce e r).trans h

theorem spEffect_only : OnlyFaults (b.spUpd t n fun _ => (spEffect now t n b).spAt t n) (spEffect now t n b) := by
  rw [spEffect_takes hq he hr hl]
  exact spFault_after (spFault_write (spInForce_ne _ _ _)) (spInForce_ne _ _ _)

end

theorem spFaultDue_iff {x : SpIn} : spFaultDue b now t n x = true ↔ x.cnt ≠ 0 ∧ spI b t n ≠ 0 ∧ x.signalled = false ∧ spExpiry b t n x ≤ now := by
  simp [spFaultDue, and_assoc]

theorem spExtrapolate_late (hc : (b.spAt t n).cnt ≠ 0) (hi : spI b t n ≠ 0) (h : (b.spAt t n).cur.at_ + spI b t n + 10 ≤ now) :
    spExtrapolate now t n b = b.spUpd t n fun _ => { b.spAt t n with extrapolating := true } := by
  refine spUpd_congr _ _ _ _ _ ?_
  simp [hc, hi, h]

theorem spExtrapolate_early (h : (b.spAt t n).cnt = 0 ∨ spI b t n = 0 ∨ now < (b.spAt t n).cur.at_ + spI b t n + 10) :
    spExtrapolate now t n b = b.spUpd t n fun _ => { b.spAt t n with extrapolating := false } := by
  have hno : ¬((b.spAt t n).cnt ≠ 0 ∧ spI b t n ≠ 0 ∧ (b.spAt t n).cur.at_ + spI b t n + 10 ≤ now) := fun ⟨hc, hi, hle⟩ => by
    rcases h with h | h | h <;> omega
  refine spUpd_congr _ _ _ _ _ ?_
  simpa [and_assoc] using hno

end

/-- Settles O8: a due set-point comes into force between two chances of the fault (`spEffect_takes`); the rest is one branch each of `spEffect`, `spExtrapolate` and `spFault`. -/
theorem setPointTakesEffect : Obligations.SetPointTakesEffect := by
  intro t n s x hl hx
  subst hx
  refine ⟨fun e r hq he hr hlate => ?_, fun hc hi h => turns_onTile (exec_extrapolationStart t n s) hl (spExtrapolate_late hc hi h),
    fun h => turns_onTile (exec_extrapolationStart t n s) hl (spExtrapolate_early h),
    fun hq hlate => turns_onTile (exec_setpointTakesEffect t n s) hl (spEffect_waits hq hlate), fun hc hi hs h => ?_, fun h => ?_⟩
  · have hin := spEffect_input hq he hr hlate
    refine gives_onTile (exec_setpointTakesEffect t n s) hl ⟨?_, ?_, ?_, ?_, ?_, spEffect_only hq he hr hlate⟩
    all_goals rw [hin]; rfl
  · have hdue := spFaultDue_iff.2 ⟨hc, hi, hs, h⟩
    refine gives_onTile (exec_lateSetpointFault t n s) hl ⟨spFault_spAt hdue, ?_⟩
    rw [spFault_spAt hdue]
    exact spFault_only hdue
  · refine turns_onTile (exec_lateSetpointFault t n s) hl (spFault_early (Bool.eq_false_iff.2 fun hdue => ?_))
    obtain ⟨hc, -, -, hle⟩ := spFaultDue_iff.1 hdue
    rcases h with h | h <;> omega

end Sys2Proof.Proofs
end

section
/-! The serial port and the Ethernet ports (R119, R610 to R614). -/

namespace Sys2Proof.Proofs

open Sys2Proof.Machine

/-- While the hub is in reset a command of it has no effect. -/
theorem turns_hubDown {c : Instr} {f : Nat → Block → Block} {s : State} (hc : exec c s = onHub f s) (hu : s.clk.up = false) : Turns c s s.b := by
  unfold Turns; rw [hc, onHub_down f s hu]

/-! ### The serial port (R613, R614) -/

section
variable {b : Block} {bs : List Byte} {whole : Bool}

theorem putOp_discards (h : whole = false ∨ 2 ≤ (b.hpAt 2).rx.length) : putOp bs whole b = b.hpUpd 2 fun _ => { b.hpAt 2 with rxOvf := true } :=
  (if_pos (by simpa using h)).trans (hpUpd_congr _ _ _ _ rfl)

theorem putOp_takes (h : (b.hpAt 2).rx.length < 2) : putOp bs true b = msgPut 2 0 bs b := if_neg (by simpa using h)

theorem msgPut_formed {p src : Nat} (h : msgOk bs = true) : msgPut p src bs b = b.hpUpd p fun y => { y with rx := y.rx ++ [(src, bs)] } := if_pos h

theorem msgPut_malformed {p src : Nat} (h : msgOk bs = false) : msgPut p src bs b = b := if_neg (Bool.eq_false_iff.1 h)

end

/-- The byte that STATUS answers: a message waits to be read, no more can be taken. -/
theorem status_byte (tx rx : List (Nat × List Byte)) :
    flag (!tx.isEmpty) 0 + flag (decide (2 ≤ rx.length)) 1 = (if tx = [] then 0 else 1) + (if 2 ≤ rx.length then 2 else 0) := by
  cases tx <;> simp [flag]

/-! ### The Ethernet ports (R610 to R612) -/

/-- MAC `m` is in use: enabled by the running image, or no image runs (R119). -/
def MacUsed (b : Block) (m : Nat) : Prop := b.nv.life ≠ .blank ∧ (b.run.on = false ∨ Fld.HP_MAC_CFG_EN b.cfg m = true)

theorem macUsed_iff (b : Block) (m : Nat) : macUsed b m = true ↔ MacUsed b m := by simp [macUsed, MacUsed]

/-- A MAC counts a frame that it discards. -/
def frameCut (m : Nat) (b : Block) : Block := b.hpUpd m fun y => { y with discard := min 65535 (y.discard + 1) }

/-- A MAC sends an answer. -/
def macAnswers (m dst : Nat) (bs : List Byte) (b : Block) : Block := b.hpUpd m fun y => { y with tx := y.tx ++ [(dst, bs)] }

/-- An ARP frame asks for the IPv4 address of the MAC. -/
abbrev ArpAsks (b : Block) (m : Nat) (f : List Byte) : Prop := beAt f (etherAt f + 2 + 6) 2 = 1 ∧ beAt f (etherAt f + 2 + 24) 4 = ownIp b m

/-- A frame that the time engine takes: PTP on a MAC where PTP is enabled. -/
def PtpTaken (b : Block) (m : Nat) (f : List Byte) : Prop := (ptpAt f).isSome = true ∧ Fld.NT_PTP_CFG_EN b.cfg m = true

section
variable {b : Block} {m : Nat} {f : List Byte}

theorem frameTake_unused (h : ¬MacUsed b m) : frameTake m f b = b := if_pos (by simpa [← macUsed_iff] using h)

/-- A frame on a MAC in use: too long, taken by the time engine, or judged by its destination. -/
theorem frameTake_used (h : MacUsed b m) : frameTake m f b =
    if 1518 < f.length then frameCut m b else if (ptpAt f).isSome && Fld.NT_PTP_CFG_EN b.cfg m then b
    else if slice f 0 6 = macBytes b m then
      (if beAt f (etherAt f) 2 = 0x0800 then ipTake m f b
       else if beAt f (etherAt f) 2 = 0x0806 ∧ ArpAsks b m f then macAnswers m (beAt f (etherAt f + 16) 4) (arpReply b m f) b else b)
    else if decide (slice f 0 6 = List.replicate 6 0xFF) && decide (beAt f (etherAt f) 2 = 0x0806) then
      (if ArpAsks b m f then macAnswers m (beAt f (etherAt f + 16) 4) (arpReply b m f) b else b)
    else frameCut m b := by
  unfold frameTake
  rw [(macUsed_iff b m).2 h]
  rfl

theorem frameTake_long (h : MacUsed b m) (hl : 1518 < f.length) : frameTake m f b = frameCut m b := (frameTake_used h).trans (if_pos hl)

theorem frameTake_ptp (h : MacUsed b m) (hl : f.length ≤ 1518) (hp : PtpTaken b m f) : frameTake m f b = b := by
  rw [frameTake_used h, if_neg (Nat.not_lt.2 hl)]
  exact if_pos (by simpa [PtpTaken] using hp)

section
variable (h : MacUsed b m) (hl : f.length ≤ 1518) (hp : ¬PtpTaken b m f)
include h hl hp

theorem frameTake_mine (hm : slice f 0 6 = macBytes b m) : frameTake m f b =
    if beAt f (etherAt f) 2 = 0x0800 then ipTake m f b
    else if beAt f (etherAt f) 2 = 0x0806 ∧ ArpAsks b m f then macAnswers m (beAt f (etherAt f + 16) 4) (arpReply b m f) b else b := by
  rw [frameTake_used h, if_neg (Nat.not_lt.2 hl), if_neg (by simpa [PtpTaken] using hp), if_pos hm]

theorem frameTake_broadcast (hm : slice f 0 6 ≠ macBytes b m) (ha : slice f 0 6 = List.replicate 6 0xFF) (he : beAt f (etherAt f) 2 = 0x0806) :
    frameTake m f b = if ArpAsks b m f then macAnswers m (beAt f (etherAt f + 16) 4) (arpReply b m f) b else b := by
  rw [frameTake_used h, if_neg (Nat.not_lt.2 hl), if_neg (by simpa [PtpTaken] using hp), if_neg hm, if_pos (by simp [ha, he])]

theorem frameTake_foreign (hm : slice f 0 6 ≠ macBytes b m) (ha : slice f 0 6 = List.replicate 6 0xFF → beAt f (etherAt f) 2 ≠ 0x0806) :
    frameTake m f b = frameCut m b := by
  rw [frameTake_used h, if_neg (Nat.not_lt.2 hl), if_neg (by simpa [PtpTaken] using hp), if_neg hm, if_neg (by simpa using ha)]

theorem frameTake_arp (hd : slice f 0 6 = macBytes b m ∨ slice f 0 6 = List.replicate 6 0xFF) (he : beAt f (etherAt f) 2 = 0x0806) :
    frameTake m f b = if ArpAsks b m f then macAnswers m (beAt f (etherAt f + 16) 4) (arpReply b m f) b else b := by
  by_cases hm : slice f 0 6 = macBytes b m
  · rw [frameTake_mine h hl hp hm, he, if_neg (by decide)]
    exact if_congr (by simp) rfl rfl
  · exact frameTake_broadcast h hl hp hm (hd.resolve_left hm) he

theorem frameTake_ip (hm : slice f 0 6 = macBytes b m) (he : beAt f (etherAt f) 2 = 0x0800) : frameTake m f b = ipTake m f b :=
  (frameTake_mine h hl hp hm).trans (if_pos he)

theorem frameTake_dropped (hm : slice f 0 6 = macBytes b m) (h8 : beAt f (etherAt f) 2 ≠ 0x0800) (h6 : beAt f (etherAt f) 2 ≠ 0x0806) : frameTake m f b = b := by
  rw [frameTake_mine h hl hp hm, if_neg h8, if_neg fun hn => h6 hn.1]

end

/-! ### IPv4 frames (R612) -/

variable (b m f) in
/-- The frame is for the IPv4 address of the MAC. -/
def IpMine : Prop := beAt f (etherAt f + 2 + 16) 4 = ownIp b m

variable (f) in
/-- The protocol of an IPv4 frame. -/
def ipProto : Nat := beAt f (etherAt f + 2 + 9) 1

variable (f) in
/-- The offset behind the IPv4 header. -/
def ipData : Nat := etherAt f + 2 + 4 * (beAt f (etherAt f + 2) 1 % 16)

theorem ipTake_foreign (h : ¬IpMine b m f) : ipTake m f b = b := if_pos h

theorem ipTake_session (h : IpMine b m f) (hu : ipProto f = 17) (hp : beAt f (ipData f + 2) 2 = 4960) : ipTake m f b =
    msgPut m (beAt f (etherAt f + 2 + 12) 4 * 65536 + beAt f (ipData f) 2) (slice f (ipData f + 8) (beAt f (ipData f + 4) 2 - 8)) b :=
  (if_neg (not_not.2 h)).trans ((if_pos hu).trans (if_pos hp))

theorem ipTake_udp (h : IpMine b m f) (hu : ipProto f = 17) (hp : beAt f (ipData f + 2) 2 ≠ 4960) : ipTake m f b = b :=
  (if_neg (not_not.2 h)).trans ((if_pos hu).trans (if_neg hp))

theorem ipTake_echo (h : IpMine b m f) (hi : ipProto f = 1) (he : beAt f (ipData f) 1 = 8) : ipTake m f b =
    let sum := beAt f (ipData f + 2) 2 + 0x0800
    macAnswers m (beAt f (etherAt f + 2 + 12) 4) ([0] ++ slice f (ipData f + 1) 1 ++ (leBytes 2 (sum % 65536 + sum / 65536)).reverse ++
      slice f (ipData f + 4) (beAt f (etherAt f + 2 + 2) 2 - (ipData f - (etherAt f + 2)) - 4)) b := by
  have hu : ¬ipProto f = 17 := by omega
  exact (if_neg (not_not.2 h)).trans ((if_neg hu).trans (if_pos ⟨hi, he⟩))

theorem ipTake_other (h : IpMine b m f) (hu : ipProto f ≠ 17) (hi : ¬(ipProto f = 1 ∧ beAt f (ipData f) 1 = 8)) : ipTake m f b = b :=
  (if_neg (not_not.2 h)).trans ((if_neg hu).trans (if_neg hi))

end

/-! ### The obligation -/

section
variable {s : State} {m : Fin 2}

theorem phyPoll_turns {l f d : Bool} (hu : s.clk.up = true) : (MacUsed s.b m → Turns (.phyPoll m l f d) s (s.b.hpUpd m fun y => { y with link := l, fast := f, full := d })) ∧
    (¬MacUsed s.b m → Turns (.phyPoll m l f d) s s.b) :=
  ⟨fun h => turns_onHub (exec_phyPoll m l f d s) hu (if_pos ((macUsed_iff s.b m).2 h)),
    fun h => turns_onHub (exec_phyPoll m l f d s) hu (if_neg (mt (macUsed_iff s.b m).1 h))⟩

theorem ethFrameRx_turns {f : List Byte} {y : Block} (hu : s.clk.up = true) (h : frameTake m f s.b = y) : Turns (.ethFrameRx m f) s y :=
  turns_onHub (exec_ethFrameRx m f s) hu h

end

/-- Settles O60: PUT, GET and STATUS by the record of the serial port, a frame by its length, its destination and its protocol. -/
theorem hostPorts : Obligations.HostPorts := by
  intro s x m hx
  subst hx
  refine ⟨fun hu bs w l f d => ⟨turns_hubDown (exec_put bs w s) hu, turns_hubDown (exec_get s) hu, turns_hubDown (exec_status s) hu, turns_hubDown (exec_phyPoll m l f d s) hu,
    turns_hubDown (exec_ethFrameRx m bs s) hu⟩, fun hu => ?_⟩
  have gets := fun {y} => turns_onHub (y := y) (exec_get s) hu
  have puts := fun bs w {y} => turns_onHub (y := y) (exec_put bs w s) hu
  refine ⟨fun bs => puts bs _ (putOp_discards (.inl rfl)), fun bs h => puts bs _ (putOp_discards (.inr h)),
    fun bs h hok => puts bs _ (((putOp_takes h).trans (msgPut_formed hok)).trans (hpUpd_congr _ _ _ _ rfl)),
    fun bs h hok => puts bs _ ((putOp_takes h).trans (msgPut_malformed hok)),
    fun d bs r h => gets (hpUpd_congr _ _ _ _ (by rw [h])), fun h => gets (hpUpd_congr _ _ _ _ (by rw [h])),
    turns_onHub (exec_status s) hu (hpUpd_congr _ _ _ _ (by rw [status_byte])), fun l f d => phyPoll_turns hu, fun f => ?_⟩
  have rx : ∀ {y}, frameTake m f s.b = y → Turns (.ethFrameRx m f) s y := ethFrameRx_turns hu
  refine ⟨fun h => rx (frameTake_unused h), fun h hl => rx (frameTake_long h hl), fun h hl hp => rx (frameTake_ptp h hl hp), fun h hl hp => ?_⟩
  refine ⟨fun hm ha => rx (frameTake_foreign h hl hp hm fun hn => absurd hn ha), fun hm _ he => rx (frameTake_foreign h hl hp hm fun _ => he),
    fun hd he ha => rx ((frameTake_arp h hl hp hd he).trans (if_neg ha)), fun hm h8 h6 => rx (frameTake_dropped h hl hp hm h8 h6),
    fun hd he ha => rx ((frameTake_arp h hl hp hd he).trans (if_pos ha)), fun hm he hip => rx ((frameTake_ip h hl hp hm he).trans (ipTake_foreign hip)), fun hm he hip => ?_⟩
  have ip : ∀ {y}, ipTake m f s.b = y → Turns (.ethFrameRx m f) s y := fun hy => rx ((frameTake_ip h hl hp hm he).trans hy)
  refine ⟨fun hu hp hok => ip ((ipTake_session hip hu hp).trans (msgPut_formed hok)), fun hu hbad => ip ?_, fun hi h8 => ip (ipTake_echo hip hi h8), fun hu hi => ip (ipTake_other hip hu hi)⟩
  by_cases hp : beAt f (ipData f + 2) 2 = 4960
  · exact (ipTake_session hip hu hp).trans (msgPut_malformed (hbad.resolve_left (not_not.2 hp)))
  · exact ipTake_udp hip hu hp

end Sys2Proof.Proofs
end

section
/-! Commits up to their acceptance (R91, R99, R101): COMMIT, and the rejections of its checks. -/

namespace Sys2Proof.Proofs

open Sys2Proof.Machine

/-! ### Rejections -/

section
variable {now : Nat} {x : Bad} {b : Block}

/-- The commit engine after a rejection: staging is empty, CM_RESULT says why. -/
def rejectedCm (x : Bad) (b : Block) : Commit := { (stagingEmpty (setResult x b)).cm with rise := false }

theorem cmReject_eq (now : Nat) (x : Bad) (b : Block) : cmReject now x b =
    { b with cm := rejectedCm x b, net := { b.net with next := none }, draws := b.draws + 1
             paceChanging := b.paceChanging || b.cm.rise, paceEnd := if b.cm.rise then now + 2000000 else b.paceEnd } := by
  cases hr : b.cm.rise <;> simp [cmReject, riseBack, stagingEmpty, setResult, rejectedCm, hr]

/-- `u` is `s` after a rejection: staging is empty, and but for CM_RESULT and the supplies of a rise that had begun nothing changes. -/
def Rejected (s u : State) : Prop :=
  u.clk = s.clk ∧ Unstaged u.b.cm ∧ (s.b.cm.rise = false → u.b.paceChanging = s.b.paceChanging) ∧
    u.b = { s.b with cm := u.b.cm, net := { s.b.net with next := none }, draws := s.b.draws + 1, paceChanging := u.b.paceChanging, paceEnd := u.b.paceEnd }

theorem rejected_cmReject (now : Nat) (x : Bad) (s : State) :
    Rejected s { s with b := cmReject now x s.b } ∧ (cmReject now x s.b).cm.code = x.code := by
  rw [cmReject_eq]
  refine ⟨⟨rfl, ⟨rfl, rfl, rfl, rfl⟩, fun hrise => ?_, rfl⟩, rfl⟩
  exact (congrArg (s.b.paceChanging || ·) hrise).trans (Bool.or_false _)

theorem cmReject_sess (now : Nat) (x : Bad) (b : Block) : (cmReject now x b).sess = b.sess := by rw [cmReject_eq]

end

/-! ### COMMIT (R91, R101) -/

/-- The tick that CM_APPLY names. -/
def applyNamed (cfg : Tab Word) : Nat := (tabGet 0 cfg (regAddr .CM_APPLY_LO [])).toNat + 2 ^ 32 * (tabGet 0 cfg (regAddr .CM_APPLY_HI [])).toNat

section
variable {now k : Nat} {asap : Bool} {b : Block}

theorem commitOp_role (h : ¬CommitBusy k b.cm) (hr : hasRoles b k 4 = false) : commitOp now k asap b = cmReject now { code := 6, item := some 0 } b := by
  have hr' : hasRoles b k roleConfigure = false := hr
  unfold commitOp
  dsimp only
  rw [if_neg (fun hb => h ((commitBusy_iff k b.cm).1 hb)), hr']
  rfl

theorem commitOp_checks (h : ¬CommitBusy k b.cm) (hr : hasRoles b k 4 = true) : commitOp now k asap b =
    { b with cm := { b.cm with owner := some k, ph := .checking, asap := asap, named := applyNamed b.cfg, regAt := now } } := by
  have hr' : hasRoles b k roleConfigure = true := hr
  unfold commitOp
  dsimp only
  rw [if_neg (fun hb => h ((commitBusy_iff k b.cm).1 hb)), hr']
  rfl

end

/-! ### The checks (R99) -/

/-- The first check that a commit fails. -/
def commitFails (b : Block) : Option Bad :=
  let c := candidate b
  checkImage b <|> checkRights b c <|> checkItems b c <|> checkBootOnly b
    <|> structChecks (match stagedImg b with | some i => imgShapes i | none => true) (match stagedImg b with | some i => i.safetyOk | none => true) (checkPace b) c
    <|> checkAxes b (listedAxes b c (codeTiles b)) <|> checkIdle b c

/-- The module with the result of an accepted commit and its apply tick, before announcements and supplies. -/
def accepting (now t : Nat) (b : Block) : Block :=
  { setResult { code := 0, item := some 0 } b with
    cfg := namedCfg b.cfg t
    cm := { (setResult { code := 0, item := some 0 } b).cm with
      ph := .accepted, apply := t, acceptAt := now, dies := diesOf b, prepared := 0
      listed := listedAxes b (candidate b) (codeTiles b), rings := ringTiles b (candidate b), rise := false } }

/-- The announcement of a mode change: its tick, and no partner has acknowledged it (R442). -/
def announced (t : Nat) (b y : Block) : Block :=
  forN 12 (fun p x => x.blUpd p fun pt => { pt with mack := false }) { y with net := { y.net with next := some (Fld.BL_MODE_MODE (candidate b).cfg, t) } }

/-- The announcement of a mode change is made only for one (R442). -/
def modeAnnounced (now t : Nat) (b : Block) : Block := if modeChanges b (candidate b) then announced t b (accepting now t b) else accepting now t b

/-- The module after the acceptance of a commit for tick `t`. -/
def commitAccepted (now t : Nat) (b : Block) : Block := paceRise now (modeAnnounced now t b)

section
variable {now : Nat} {b : Block}

/-- What the checks come to, given the first that fails. -/
def checksEnd (now : Nat) (b : Block) (fail : Option Bad) : Block :=
  match fail with
  | some x => cmReject now x b
  | none =>
    match applyTick now b (candidate b) with
    | .error code => cmReject now { code := code } b
    | .ok t => commitAccepted now t b

theorem checksDone_eq (now : Nat) (b : Block) : checksDone now b = checksEnd now b (commitFails b) := rfl

theorem checksDone_fails {x : Bad} (h : commitFails b = some x) : checksDone now b = cmReject now x b := by rw [checksDone_eq, h]; rfl

theorem checksDone_noTick {code : Nat} (h : commitFails b = none) (ht : applyTick now b (candidate b) = .error code) : checksDone now b = cmReject now { code := code } b := by
  rw [checksDone_eq, h]
  unfold checksEnd
  dsimp only
  rw [ht]

theorem checksDone_accepts {t : Nat} (h : commitFails b = none) (ht : applyTick now b (candidate b) = .ok t) : checksDone now b = commitAccepted now t b := by
  rw [checksDone_eq, h]
  unfold checksEnd
  dsimp only
  rw [ht]

/-- The checks end in a rejection, or in an acceptance for a tick that every check allows. -/
theorem checksDone_cases (now : Nat) (b : Block) : (∃ x, checksDone now b = cmReject now x b) ∨
    ∃ t, commitFails b = none ∧ applyTick now b (candidate b) = .ok t ∧ checksDone now b = commitAccepted now t b := by
  cases hf : commitFails b with
  | some x => exact .inl ⟨x, checksDone_fails hf⟩
  | none =>
    cases ht : applyTick now b (candidate b) with
    | error code => exact .inl ⟨_, checksDone_noTick hf ht⟩
    | ok t => exact .inr ⟨t, rfl, rfl, checksDone_accepts hf ht⟩

/-! ### Life cycle and roles (R99) -/

/-- A commit is served in OWNED and in FIELD_SERVICE. -/
def commitServed (b : Block) : Bool := decide (b.nv.life = .owned) || decide (b.nv.life = .fieldService)

/-- The roles that a commit needs include CONFIGURE. -/
theorem roleAnd_configure (r : Nat) (safety owner : Bool) :
    let need := roleConfigure + (if safety then roleSafety else 0) + (if owner then roleOwner else 0)
    roleAnd r need = need → roleAnd r 4 = 4 := by
  unfold roleAnd
  generalize BitVec.ofNat 5 r = v
  revert v safety owner
  decide

theorem checkRights_unserved {c : Block} (h : commitServed b = false) : checkRights b c = some { code := 5 } := by
  unfold commitServed at h
  unfold checkRights
  simp only [h]
  rfl

theorem checkRights_served {c : Block} (h : checkRights b c = none) : commitServed b = true := by
  cases hs : commitServed b with
  | true => rfl
  | false => rw [checkRights_unserved hs] at h; cases h

theorem checkRights_roles (b c : Block) (h : hasRoles b (b.cm.owner.getD 0) 4 = false) (hs : commitServed b = true) : checkRights b c = some { code := 6 } := by
  unfold commitServed at hs
  unfold checkRights
  dsimp only
  have hno : ∀ safety owner : Bool, hasRoles b (b.cm.owner.getD 0) (roleConfigure + (if safety then roleSafety else 0) + (if owner then roleOwner else 0)) = false := by
    intro safety owner
    refine Bool.eq_false_iff.2 fun hn => Bool.eq_false_iff.1 h ?_
    exact decide_eq_true (roleAnd_configure _ safety owner (of_decide_eq_true hn))
  rw [hs, hno]
  rfl

theorem checkRights_owner {c : Block} (h : checkRights b c = none) : hasRoles b (b.cm.owner.getD 0) 4 = true := by
  cases hr : hasRoles b (b.cm.owner.getD 0) 4 with
  | true => rfl
  | false => rw [checkRights_roles b c hr (checkRights_served h)] at h; cases h

theorem checkImage_none (h : b.cm.image = none) : checkImage b = none := by unfold checkImage; rw [h]

/-- Without a staged image the rights are the first check. -/
theorem commitFails_rights {x : Bad} (hi : b.cm.image = none) (h : checkRights b (candidate b) = some x) : commitFails b = some x := by
  unfold commitFails
  dsimp only
  rw [checkImage_none hi, h]
  rfl

/-- What the checks have found right in a commit that fails none of them. -/
theorem commitFails_none (h : commitFails b = none) : checkRights b (candidate b) = none ∧
    checkAxes b (listedAxes b (candidate b) (codeTiles b)) = none ∧ checkIdle b (candidate b) = none := by
  unfold commitFails at h
  simp only [Option.orElse_eq_orElse, Option.orElse_eq_or, Option.or_eq_none_iff] at h
  obtain ⟨-, hrights, -, -, -, haxes, hidle⟩ := h
  exact ⟨hrights, haxes, hidle⟩

theorem checkAxes_idle {l : List Nat} (h : checkAxes b l = none) : ∀ n ∈ l, axIdle b (n / 16) (n % 16) = true := by
  simpa [checkAxes] using h

theorem checkIdle_idle {c : Block} (h : checkIdle b c = none) : ∀ t ∈ ringTiles b c, aqIdle b t = true := by
  simpa [checkIdle] using h

end

end Sys2Proof.Proofs
end

section
/-! The acceptance of a commit (R66, R101, R102, R442): its tick, and what it changes. -/

namespace Sys2Proof.Proofs

open Sys2Proof.Machine

/-! ### The apply tick -/

/-- The earliest lead of a commit: 100 ms with an image, else 20 µs (R101). -/
def commitLead (image : Option (List Byte)) : Nat := if image = none then 20000 else 100000000

theorem leadNs_eq (b : Block) : leadNs b = commitLead b.cm.image := by
  unfold leadNs commitLead
  cases b.cm.image <;> rfl

/-- The least multiple of `m` from an anchor on that is not before `t` is not before it. -/
theorem le_anchor_ceilDiv {t anchor m : Nat} (hm : m ≠ 0) : t ≤ anchor + ceilDiv (t - anchor) m * m := by
  have hround := Nat.lt_div_mul_add (a := t - anchor + m - 1) (Nat.pos_of_ne_zero hm)
  unfold ceilDiv
  omega

section
variable {now t : Nat} {b c : Block}

/-- An accepted commit as soon as possible keeps its lead and that of a rise; without a mode change it takes the earliest tick. -/
theorem applyTick_asap (h : applyTick now b c = .ok t) (ha : b.cm.asap = true) :
    let t0 := now + max (leadNs b) (if targetPace b < b.paceNow then 2000000 else 0)
    t0 ≤ t ∧ (modeChanges b c = false → t = t0) := by
  unfold applyTick at h
  simp only [ha, if_true, decide_eq_true_eq] at h
  split at h
  · cases h
    exact ⟨le_rfl, fun _ => rfl⟩
  · next hmode =>
    split at h
    · next hrun =>
      obtain ⟨-, hm⟩ : b.net.st = .run ∧ blMatNs (blNow b.net) ≠ 0 := by simpa using hrun
      cases h
      exact ⟨(le_max_left _ _).trans (le_anchor_ceilDiv hm), fun hn => absurd hn (by simpa using hmode)⟩
    · cases h

/-- An accepted commit for a named tick has that tick, with its lead kept. -/
theorem applyTick_named (h : applyTick now b c = .ok t) (ha : b.cm.asap = false) :
    t = truncTick b.cm.named ∧ now + leadNs b ≤ t ∧ (targetPace b < b.paceNow → now + 2000000 ≤ t) := by
  unfold applyTick at h
  simp only [ha, Bool.false_eq_true, if_false] at h
  split at h
  · cases h
  · next hfast =>
    split at h
    · cases h
    · split at h
      · cases h
      · next hlead =>
        cases h
        refine ⟨rfl, Nat.not_lt.1 hlead, fun hf => ?_⟩
        simpa [hf] using hfast

theorem truncTick_eq (t : Nat) : truncTick t = t / 10 * 10 := by unfold truncTick; omega

/-- Lead of a commit and of a rise, whatever was asked. -/
theorem applyTick_lead (h : applyTick now b c = .ok t) : now + leadNs b ≤ t ∧ (targetPace b < b.paceNow → now + 2000000 ≤ t) := by
  cases ha : b.cm.asap with
  | false => exact (applyTick_named h ha).2
  | true =>
    obtain ⟨hle, -⟩ := applyTick_asap h ha
    refine ⟨(Nat.add_le_add_left (le_max_left _ _) _).trans hle, fun hf => ?_⟩
    rw [if_pos hf] at hle
    exact (Nat.add_le_add_left (le_max_right _ _) _).trans hle

end

/-! ### What the acceptance changes -/

/-- The supplies of a rise move from the acceptance on: the target is faster and at most 2 ms away (R66). -/
def riseAtOnce (now t : Nat) (b : Block) : Bool := decide (targetPace b < b.paceNow) && decide (t ≤ now + 2000000)

/-- The supplies of an accepted commit move at once, or not yet. -/
theorem paceRise_accepted {now : Nat} {y : Block} (hph : y.cm.ph = .accepted) (hrise : y.cm.rise = false) : paceRise now y =
    { y with paceChanging := y.paceChanging || riseAtOnce now y.cm.apply y, cm := { y.cm with rise := riseAtOnce now y.cm.apply y } } := by
  have heq : paceRise now y = if riseAtOnce now y.cm.apply y then { y with paceChanging := true, cm := { y.cm with rise := true } } else y :=
    if_congr (by simp [hph, hrise, riseAtOnce]) rfl rfl
  have hcm : { y.cm with rise := false } = y.cm := by rw [← hrise]
  rw [heq]
  cases riseAtOnce now y.cm.apply y
  · rw [if_neg (by decide), Bool.or_false, hcm]
  · rw [if_pos rfl, Bool.or_true]

section
variable (now t : Nat) (b : Block)

/-- What an announcement may change: the announced mode, and the ports. -/
theorem modeAnnounced_frame : modeAnnounced now t b =
    { accepting now t b with net := { b.net with next := (modeAnnounced now t b).net.next }, bl := (modeAnnounced now t b).bl } := by
  unfold modeAnnounced
  split
  · unfold announced
    exact forN_keeps (fun c => c = { accepting now t b with net := { b.net with next := c.net.next }, bl := c.bl }) 12 _ _
      (fun _ c h => by conv_lhs => rw [h]
                       rfl) rfl
  · rfl

theorem modeAnnounced_next (h : modeChanges b (candidate b) = true) :
    (modeAnnounced now t b).net.next = some (Fld.BL_MODE_MODE (candidate b).cfg, t) ∧ ∀ p : Fin 12, ((modeAnnounced now t b).blAt p).mack = false := by
  unfold modeAnnounced
  rw [if_pos h]
  unfold announced
  refine ⟨forN_keeps (fun c => c.net.next = some (Fld.BL_MODE_MODE (candidate b).cfg, t)) 12 _ _ (fun _ _ h => h) rfl, fun p => ?_⟩
  exact forN_each (P := fun p c => (c.blAt p).mack = false) (fun p c => by rw [blAt_blUpd]) (fun p i c hi h => by rw [blAt_blUpd_ne _ _ _ _ (Ne.symm hi)]; exact h)
    12 _ p p.isLt

theorem modeAnnounced_none (h : modeChanges b (candidate b) = false) : modeAnnounced now t b = accepting now t b := if_neg (Bool.eq_false_iff.1 h)

/-- An accepted commit: its result and its tick, an announcement if the mode changes, and the supplies of a rise. -/
theorem commitAccepted_eq : commitAccepted now t b =
    { accepting now t b with net := { b.net with next := (modeAnnounced now t b).net.next }, bl := (modeAnnounced now t b).bl
                             paceChanging := b.paceChanging || riseAtOnce now t b, cm := { (accepting now t b).cm with rise := riseAtOnce now t b } } := by
  have hframe := modeAnnounced_frame now t b
  have hcm : (modeAnnounced now t b).cm = (accepting now t b).cm := by rw [hframe]
  have hrise : riseAtOnce now (modeAnnounced now t b).cm.apply (modeAnnounced now t b) = riseAtOnce now t b := by
    unfold riseAtOnce targetPace paceStaged
    rw [hframe]
    rfl
  refine (paceRise_accepted (by rw [hcm]; rfl) (by rw [hcm]; rfl)).trans ?_
  rw [hrise, hcm]
  conv_lhs => rw [hframe]
  rfl

end

end Sys2Proof.Proofs
end

section
/-! The commands of a commit before its apply tick (R99, R101, R104, R443). -/

namespace Sys2Proof.Proofs

open Sys2Proof.Machine

/-! ### COMMIT_CHECKS_DONE -/

section
variable {s : State} {y : Block}

/-- The checks end without a session that waits for them. -/
theorem turns_checksDone (hr : s.b.run.on = true) (hw : NoneWaits s.b) (hy : checksDoneOp s.clk.lattice s.b = y) (hsess : y.sess = s.b.sess) : Turns .commitChecksDone s y := by
  unfold Turns
  rw [exec_commitChecksDone, execCommitChecksDone, if_pos hr]
  have hmap : s.mapB (checksDoneOp s.clk.lattice) = { s with b := y } := congrArg (fun b => { s with b := b }) hy
  rw [hmap, reqServeAll_idle (noneWaits_of_sess hw hsess)]

theorem checksDoneOp_checking {now : Nat} {b : Block} (h : b.cm.ph = .checking) : checksDoneOp now b = checksDone now b := if_pos h

theorem checksDoneOp_other {now : Nat} {b : Block} (h : b.cm.ph ≠ .checking) : checksDoneOp now b = b := if_neg h

theorem gives_checksDone_rejected (hr : s.b.run.on = true) (hw : NoneWaits s.b) (hp : s.b.cm.ph = .checking) {x : Bad}
    (h : checksDone s.clk.lattice s.b = cmReject s.clk.lattice x s.b) : Gives .commitChecksDone s fun u => Rejected s u ∧ u.b.cm.code = x.code :=
  ⟨_, turns_checksDone hr hw ((checksDoneOp_checking hp).trans h) (cmReject_sess _ _ _), rejected_cmReject _ _ _⟩

end

/-- A commit that is slower or as fast moves no supplies. -/
theorem riseAtOnce_slower {now t : Nat} {b : Block} (h : b.paceNow ≤ targetPace b) : riseAtOnce now t b = false := by
  unfold riseAtOnce; rw [decide_eq_false (Nat.not_lt.2 h), Bool.false_and]

theorem riseAtOnce_due {now t : Nat} {b : Block} (h : targetPace b < b.paceNow) (ht : t ≤ now + 2000000) : riseAtOnce now t b = true := by
  unfold riseAtOnce; rw [decide_eq_true h, decide_eq_true ht]; rfl

/-! ### DIE_PREPARED and COMMIT_DECISION (R104, R443) -/

/-- Die `d` may register PREPARED: the commit addresses it and waits for it, and nothing holds it back. -/
def DieReady (now : Nat) (b : Block) (d : Nat) : Prop :=
  b.cm.ph = .accepted ∧ now + 10000 < b.cm.apply ∧ bit b.cm.dies d = true ∧ bit b.cm.prepared d = false ∧ ¬(d = 8 ∧ macksMissing b = true) ∧
    b.hl.st.tile ≠ some d ∧ b.hl.st.resume ≠ some d

section
variable {now d : Nat} {b : Block}

theorem dieReady_iff (now d : Nat) (b : Block) :
    (decide (b.cm.ph = .accepted) && decide (now + 10000 < b.cm.apply) && bit b.cm.dies d && !bit b.cm.prepared d
      && !(decide (d = 8) && macksMissing b) && decide (b.hl.st.tile ≠ some d) && decide (b.hl.st.resume ≠ some d)) = true ↔ DieReady now b d := by
  simp [DieReady, and_assoc, imp_iff_not_or]

theorem diePrepared_ready (h : DieReady now b d) : diePrepared now d b = { b with cm := { b.cm with prepared := b.cm.prepared + 2 ^ d } } :=
  if_pos ((dieReady_iff now d b).2 h)

theorem diePrepared_stands (h : ¬DieReady now b d) : diePrepared now d b = b := if_neg (mt (dieReady_iff now d b).1 h)

theorem commitDecision_early (h : ¬(b.cm.ph = .accepted ∧ b.cm.apply ≤ now + 10000)) : commitDecision now b = b := if_neg (by simpa using h)

theorem commitDecision_due (hp : b.cm.ph = .accepted) (ht : b.cm.apply ≤ now + 10000) : commitDecision now b =
    if b.cm.prepared = b.cm.dies then { b with cm := { b.cm with ph := .go } } else cmReject now { code := 0x1D, item := some 0 } b := if_pos (by simp [hp, ht])

end

end Sys2Proof.Proofs
end

section
/-! What the application of a commit keeps of registers, memory, image and sessions (R105, R162, R277, R356, R445). -/

namespace Sys2Proof.Proofs

open Sys2Proof.Machine

/-- Registers, memory, image, sessions and pace mode stand. -/
def Stands (b c : Block) : Prop := c.cfg = b.cfg ∧ c.mem = b.mem ∧ c.run = b.run ∧ c.sess = b.sess ∧ c.paceNow = b.paceNow

theorem Stands.refl (b : Block) : Stands b b := ⟨rfl, rfl, rfl, rfl, rfl⟩

theorem Stands.trans {b c d : Block} (h : Stands b c) (h' : Stands c d) : Stands b d := by
  obtain ⟨hcfg, hmem, hrun, hsess, hpace⟩ := h
  obtain ⟨hcfg', hmem', hrun', hsess', hpace'⟩ := h'
  exact ⟨hcfg'.trans hcfg, hmem'.trans hmem, hrun'.trans hrun, hsess'.trans hsess, hpace'.trans hpace⟩

theorem stands_of_faults {b c : Block} (h : OnlyFaults b c) : Stands b c := by
  obtain ⟨h, -⟩ := h
  rw [h]
  exact ⟨rfl, rfl, rfl, rfl, rfl⟩

theorem stands_of_ports {b c : Block} (h : OnlyPorts b c) : Stands b c := by
  rw [h]
  exact ⟨rfl, rfl, rfl, rfl, rfl⟩

theorem stands_of_log {b c : Block} (h : OnlyLog b c) : Stands b c := by
  rw [h]
  exact ⟨rfl, rfl, rfl, rfl, rfl⟩

theorem forL_stands {α : Type} {l : List α} {f : α → Block → Block} {b : Block} (h : ∀ x c, Stands c (f x c)) : Stands b (forL l f b) :=
  forL_keeps (Stands b) l f b (fun x c hc => hc.trans (h x c)) (.refl b)

theorem forN_stands {n : Nat} {f : Nat → Block → Block} {b : Block} (h : ∀ x c, Stands c (f x c)) : Stands b (forN n f b) := forL_stands h

theorem Stands.ite {p : Prop} [Decidable p] {b c d : Block} (h : Stands b c) (h' : Stands b d) : Stands b (if p then c else d) := by
  split
  · exact h
  · exact h'

/-! ### Tiles -/

section
variable (now t : Nat) (b : Block)

theorem seqUpd_stands (f : Seq → Seq) : Stands b (b.seqUpd t f) := ⟨rfl, rfl, rfl, rfl, rfl⟩

theorem mbStale_stands (m : Nat) : Stands b (mbStale now t m b) := by
  unfold mbStale
  dsimp only
  split
  · exact .ite ((seqUpd_stands t b _).trans (stands_of_faults (axFaults_only _ _ _ _))) (.refl b)
  · exact .refl b

theorem boxesTake_stands (old : Block) : Stands b (boxesTake now t old b) :=
  forN_stands fun m c => .ite (.refl c) (.ite (seqUpd_stands t c _) (.ite (seqUpd_stands t c _) (mbStale_stands now t c m)))

theorem modesTake_stands (j : Nat) (old : Block) : Stands b (modesTake t j old b) := .ite (.refl b) ⟨rfl, rfl, rfl, rfl, rfl⟩

theorem axesTake_stands (old : Block) : Stands b (axesTake now t old b) := by
  have hnat : Stands b (forN 4 (fun j x => x.natUpd t j fun a =>
      { a with qref := if writes x t (0x10 + j) then a.qref else 0, dref := if writes x t (0x14 + j) then a.dref else 0 }) b) := forN_stands fun _ _ => ⟨rfl, rfl, rfl, rfl, rfl⟩
  refine (hnat.trans (forN_stands fun k c => ?_)).trans (forN_stands fun k c => ?_)
  · exact .ite (.refl c) ⟨rfl, rfl, rfl, rfl, rfl⟩
  · exact .ite (.refl c) ⟨rfl, rfl, rfl, rfl, rfl⟩

theorem uncertainTake_stands (changed : Nat → Bool) : Stands b (uncertainTake t changed b) :=
  forN_stands fun _ c => .ite ⟨rfl, rfl, rfl, rfl, rfl⟩ (.refl c)

end

/-! ### The network -/

theorem portTake_stands (now p : Nat) (b : Block) : Stands b (portTake now p b) := by
  have hset : ∀ (f : BlPort → BlPort) c, Stands c (blSet now p f c) := fun f c => stands_of_ports (blSet_ports now p f c).1
  have hint : ∀ c, Stands c (blIntegrate now p c) := fun c => stands_of_ports (blIntegrate_ports now p c)
  unfold portTake
  dsimp only
  refine Stands.trans (c := b.blUpd p fun x => { x with upA := x.upA && blChan b.cfg p false, upB := x.upB && blChan b.cfg p true }) ⟨rfl, rfl, rfl, rfl, rfl⟩ (.ite (hset _ _) ?_)
  split
  · exact (hset _ _).trans (.ite (hint _) (.refl _))
  · exact .ite (hint _) (.refl _)
  · exact .ite (hint _) (.refl _)
  · exact .ite (hint _) (.refl _)
  · exact .refl _

theorem starStart_stands (now : Nat) (b : Block) : Stands b (starStart now b) := ⟨rfl, rfl, rfl, rfl, rfl⟩

theorem netTake_stands (now : Nat) (old b : Block) : Stands b (netTake now old b) := by
  have hports : ∀ (changed : Nat → Bool) (c : Block), Stands c (forN 12 (fun p x => if changed p then portTake now p x else x) c) := fun changed c =>
    forN_stands fun p c => .ite (portTake_stands now p c) (.refl c)
  unfold netTake
  extract_lets t mode ctr _net b1 cfgChanged winsChanged b2 _net' b3
  have h1 : Stands b b1 := .ite ⟨rfl, rfl, rfl, rfl, rfl⟩ (.refl b)
  have h2 : Stands b b2 := h1.trans (hports _ b1)
  have h3 : Stands b2 b3 := ⟨rfl, rfl, rfl, rfl, rfl⟩
  exact h2.trans (.ite (.ite (h3.trans (starStart_stands now b3)) h3) (.refl b2))

/-! ### The application (R105) -/

/-- The module with the staged structure in force: registers, and with an image its bytes and its memory. -/
def structured (b : Block) : Block :=
  match stagedImg b with
  | some i =>
    { candidate b with
      run := { (candidate b).run with bytes := b.cm.image.getD [], slot := none }
      mem := (i.parts.filter fun p => !partKept b.run.parts p).foldl (fun m p => partTake i p m) (candidate b).mem }
  | none => candidate b

/-- What sequencers, axes, mailboxes and acquisition units of the tiles take from a new structure. -/
def tilesTake (now : Nat) (b x : Block) : Block :=
  let code := (tilesOf b).filter fun t => (codeTiles b).contains t ||
    [RegId.SQ_CFG, RegId.SQ_INBOX].any fun r => let a := regAddr r [t]; decide (tabGet 0 b.cfg a ≠ tabGet 0 (candidate b).cfg a)
  let x := forL code (fun t => seqTake now t (stagedImg b <|> parseImg b.run.bytes)) x
  let x := forL (tilesOf b) (fun t y => uncertainTake t (fun j => decide (slotTy b t j ≠ slotTy y t j))
    (boxesTake now t b (axesTake now t b (forN 16 (fun j z => modesTake t j b z) y)))) x
  forL (ringTiles b (candidate b)) (fun t y => y.aqUpd t fun u => { u with full := 0, fullFlag := false }) x

/-- The module with the staged structure taken by tiles, network and safety engine. -/
def structureTaken (now : Nat) (b : Block) : Block := verifyPars (netTake now b (tilesTake now b (paceTake now (targetPace b) (structured b))))

theorem applyCommit_eq (now : Nat) (b : Block) : applyCommit now b = 
    let x := stagingEmpty (structureTaken now b)
    { x with cm := { x.cm with appliedAt := now, code := 0 } } := rfl

theorem tilesTake_stands (now : Nat) (b x : Block) : Stands x (tilesTake now b x) := by
  have htile : ∀ t c, Stands c (uncertainTake t (fun j => decide (slotTy b t j ≠ slotTy c t j)) (boxesTake now t b (axesTake now t b (forN 16 (fun j z => modesTake t j b z) c)))) :=
    fun t c => (((forN_stands fun j z => modesTake_stands t z j b).trans (axesTake_stands now t _ b)).trans (boxesTake_stands now t _ b)).trans (uncertainTake_stands t _ _)
  exact ((forL_stands fun t c => seqUpd_stands t c _).trans (forL_stands htile)).trans (forL_stands fun t c => ⟨rfl, rfl, rfl, rfl, rfl⟩)

theorem paceTake_keeps (now p : Nat) (b : Block) : Stands { b with paceNow := p } (paceTake now p b) := by
  unfold paceTake
  split
  · exact ⟨rfl, rfl, rfl, rfl, rfl⟩
  · split
    · exact ⟨rfl, rfl, rfl, rfl, rfl⟩
    · exact ⟨rfl, rfl, rfl, rfl, show b.paceNow = p by omega⟩

theorem unverified_set (c : Block) (v : Bool) : let y := { c with sf := { c.sf with unverified := v } }
    Stands c y ∧ y.nv = c.nv ∧ y.sf.unverified = v := ⟨⟨rfl, rfl, rfl, rfl, rfl⟩, rfl, rfl⟩

theorem verifyPars_set (c : Block) : Stands c (verifyPars c) ∧ (verifyPars c).nv = c.nv ∧ (verifyPars c).sf.unverified = decide (parCrc c.cfg ≠ c.nv.keys.verified) :=
  unverified_set c _

theorem structureTaken_stands (now : Nat) (b : Block) : Stands { structured b with paceNow := targetPace b } (structureTaken now b) :=
  (((paceTake_keeps now _ _).trans (tilesTake_stands now b _)).trans (netTake_stands now b _)).trans (verifyPars_set _).1

theorem finished_stands (now : Nat) (c : Block) : Stands c { stagingEmpty c with cm := { (stagingEmpty c).cm with appliedAt := now, code := 0 } } :=
  ⟨rfl, rfl, rfl, rfl, rfl⟩

/-- Registers, memory, image and sessions are those of the staged structure, the pace mode is the target (R66). -/
theorem applyCommit_stands (now : Nat) (b : Block) : Stands { structured b with paceNow := targetPace b } (applyCommit now b) := by
  rw [applyCommit_eq]
  exact (structureTaken_stands now b).trans (finished_stands now _)

/-- Staging is empty, CM_RESULT has no failure and names the tick (R105). -/
theorem applyCommit_cm (now : Nat) (b : Block) : Unstaged (applyCommit now b).cm ∧ (applyCommit now b).cm.code = 0 ∧ (applyCommit now b).cm.appliedAt = now := by
  rw [applyCommit_eq]
  exact ⟨⟨rfl, rfl, rfl, rfl⟩, rfl, rfl⟩

/-- The parameters of safety are unverified unless their CRC is the one of SF_VERIFY (R546). -/
def SafetyJudged (c : Block) : Prop := c.sf.unverified = decide (parCrc c.cfg ≠ c.nv.keys.verified)

theorem verifyPars_judged (c : Block) : SafetyJudged (verifyPars c) := by
  obtain ⟨⟨hcfg, -⟩, hnv, hset⟩ := verifyPars_set c
  unfold SafetyJudged
  rw [hset, hcfg, hnv]

theorem SafetyJudged.finished {c : Block} (h : SafetyJudged c) (now : Nat) :
    SafetyJudged { stagingEmpty c with cm := { (stagingEmpty c).cm with appliedAt := now, code := 0 } } := h

theorem applyCommit_judged (now : Nat) (b : Block) : SafetyJudged (applyCommit now b) := by
  have htaken : SafetyJudged (structureTaken now b) := verifyPars_judged _
  rw [applyCommit_eq]
  exact htaken.finished now

end Sys2Proof.Proofs
end

section
/-! COMMIT_APPLY (R105, R106): the registers and the image of a staged structure, the sessions on a MAC that it changes, and a commit without GO. -/

namespace Sys2Proof.Proofs

open Sys2Proof.Machine

/-! ### Staged registers -/

section
variable {mask : RegId → Nat} {cf : Tab Word} {a : Nat}

theorem putBits_known {v : Word} {r : RegId} {ix : List Nat} (hr : regAt a = some (r, ix)) :
    putBits mask cf a v = tabSet (regDef r).reset cf a (mergeBits (mask r) (tabGet (regDef r).reset cf a) v) := by unfold putBits; rw [hr]

theorem putBits_unknown {v : Word} (hr : regAt a = none) : putBits mask cf a v = cf := by unfold putBits; rw [hr]

theorem putBits_other {a' : Nat} {v d : Word} (h : a' ≠ a) : tabGet d (putBits mask cf a v) a' = tabGet d cf a' := by
  cases hr : regAt a with
  | none => rw [putBits_unknown hr]
  | some p =>
    obtain ⟨r, ix⟩ := p
    rw [putBits_known hr]
    exact tabGet_set_other _ _ _ _ _ _ h

/-- Words written one after another. -/
def putAll (mask : RegId → Nat) (l : List (Nat × Word)) (cf : Tab Word) : Tab Word := l.foldl (fun cf e => putBits mask cf e.1 e.2) cf

theorem putAll_other {l : List (Nat × Word)} (h : a ∉ l.map Prod.fst) (cf : Tab Word) (d : Word) : tabGet d (putAll mask l cf) a = tabGet d cf a := by
  induction l generalizing cf with
  | nil => rfl
  | cons e r ih =>
    obtain ⟨hne, hr⟩ := not_or.1 (mt List.mem_cons.2 h)
    exact (ih hr _).trans (putBits_other hne)

/-- A word that is written once reads as it was merged into what stood. -/
theorem putAll_written {l : List (Nat × Word)} {w : Word} {r : RegId} {ix : List Nat} (hn : (l.map Prod.fst).Nodup) (hm : (a, w) ∈ l) (hr : regAt a = some (r, ix))
    (cf : Tab Word) : tabGet (regDef r).reset (putAll mask l cf) a = mergeBits (mask r) (tabGet (regDef r).reset cf a) w := by
  induction l generalizing cf with
  | nil => cases hm
  | cons e l ih =>
    obtain ⟨hnew, hn⟩ := List.nodup_cons.1 hn
    rcases List.mem_cons.1 hm with rfl | hm
    · refine (putAll_other hnew _ _).trans ?_
      dsimp only
      rw [putBits_known hr, tabGet_set_same]
    · have hne : a ≠ e.1 := fun he => hnew (he ▸ List.mem_map_of_mem (f := Prod.fst) hm)
      exact (ih hn hm _).trans (congrArg (mergeBits (mask r) · w) (putBits_other hne))

end

/-! ### The staged structure -/

section
variable {b : Block}

theorem stagedImg_none (h : b.cm.image = none) : stagedImg b = none := by unfold stagedImg; rw [h]; rfl

theorem stagedImg_some {bytes : List Byte} {i : Img} (h : b.cm.image = some bytes) (hi : parseImg bytes = some i) : stagedImg b = some i := by
  unfold stagedImg; rw [h]; exact hi

theorem candidate_plain (h : stagedImg b = none) : candidate b = { b with cfg := putAll sgMask b.cm.staged b.cfg } := by unfold candidate; rw [h]; rfl

theorem candidate_image {i : Img} (h : stagedImg b = some i) : candidate b = { withImg i b with cfg := putAll sgMask b.cm.staged (withImg i b).cfg } := by
  unfold candidate; rw [h]; rfl

theorem structured_plain (h : stagedImg b = none) : structured b = { b with cfg := putAll sgMask b.cm.staged b.cfg } := by
  unfold structured; rw [h]; exact candidate_plain h

theorem structured_image {i : Img} (h : stagedImg b = some i) : (structured b).sess = b.sess ∧
    (structured b).run = { b.run with parts := i.parts, spRate := i.spRate, id := i.id, version := i.version, bytes := b.cm.image.getD [], slot := none } := by
  unfold structured
  rw [h]
  dsimp only
  rw [candidate_image h]
  exact ⟨rfl, rfl⟩

/-- Whatever is staged, the tiles stay powered and the sessions stand. -/
theorem structured_keeps (b : Block) : (structured b).sess = b.sess ∧ (structured b).run.on = b.run.on ∧ (structured b).run.tileSet = b.run.tileSet := by
  cases h : stagedImg b with
  | none => rw [structured_plain h]; exact ⟨rfl, rfl, rfl⟩
  | some i =>
    obtain ⟨hsess, hrun⟩ := structured_image h
    exact ⟨hsess, by rw [hrun], by rw [hrun]⟩

end

/-! ### Sessions on a MAC that changes -/

/-- The words of a session's MAC differ between two modules. -/
def MacMoved (b c : Block) (p : Nat) : Prop := p < 2 ∧ macWords b p ≠ macWords c p

/-- Session `k` ends if its MAC has changed. -/
def macSessEnd (now : Nat) (b c : Block) (k : Nat) (x : Block) : Block :=
  if decide ((x.sessAt k).port < 2) && decide (macWords b (x.sessAt k).port ≠ macWords c (x.sessAt k).port) then sessEnd now k x else x

theorem commitApplyOp_eq (now : Nat) (b : Block) : commitApplyOp now b = forN 8 (macSessEnd now b (commitApply now b)) (commitApply now b) := rfl

section
variable {now : Nat} {b c : Block}

theorem macSessEnd_moved {k : Nat} {x : Block} (h : MacMoved b c (x.sessAt k).port) : macSessEnd now b c k x = sessEnd now k x := if_pos (by simpa [MacMoved] using h)

theorem macSessEnd_stands {k : Nat} {x : Block} (h : ¬MacMoved b c (x.sessAt k).port) : macSessEnd now b c k x = x := if_neg (by simpa [MacMoved] using h)

/-- Where the registers stand no session ends. -/
theorem macSessEnds_none (h : c.cfg = b.cfg) : forN 8 (macSessEnd now b c) c = c := by
  have hno : ∀ p, ¬MacMoved b c p := fun p ⟨_, hne⟩ => hne (by unfold macWords; rw [h])
  exact forN_keeps (fun x => x = c) 8 _ c (fun k x hx => (macSessEnd_stands (hno _)).trans hx) rfl

/-- With staging unowned, ends of sessions change sessions, banks and the action under way, and nothing else. -/
def OnlyGone (b c : Block) : Prop := c = { b with sess := c.sess, tr := c.tr }

theorem OnlyGone.trans {b c d : Block} (h : OnlyGone b c) (h' : OnlyGone c d) : OnlyGone b d := by unfold OnlyGone at *; rw [h', h]

theorem macSessEnd_gone {k : Nat} {x : Block} (ho : x.cm.owner = none) : OnlyGone x (macSessEnd now b c k x) := by
  unfold macSessEnd
  split
  · by_cases hclosed : (x.sessAt k).st = .closed
    · rw [sessEnd_closed hclosed]; rfl
    · rw [sessEnd_survives hclosed (.inl (by rw [ho]; exact (Option.some_ne_none k).symm))]; rfl
  · rfl

theorem macSessEnds_gone (ho : c.cm.owner = none) (n : Nat) : OnlyGone c (forN n (macSessEnd now b c) c) :=
  forN_keeps (OnlyGone c) n _ c (fun k x hx => hx.trans (macSessEnd_gone (by rw [hx]; exact ho))) rfl

theorem macSessEnd_other {k q : Nat} {x : Block} (h : q ≠ k) : (macSessEnd now b c k x).sessAt q = x.sessAt q := by
  unfold macSessEnd
  split
  · exact sessAt_sessEnd_ne h
  · rfl

/-- What becomes of session `k`: closed if its MAC has changed, else as it was. -/
def MacJudged (b c : Block) (k : Nat) (x : Block) : Prop :=
  (MacMoved b c (c.sessAt k).port → (x.sessAt k).st = .closed) ∧ (¬MacMoved b c (c.sessAt k).port → x.sessAt k = c.sessAt k)

theorem macSessEnd_judged {k : Nat} {x : Block} (h : x.sessAt k = c.sessAt k) : MacJudged b c k (macSessEnd now b c k x) := by
  unfold MacJudged
  rw [← h]
  refine ⟨fun hm => ?_, fun hm => ?_⟩
  · rw [macSessEnd_moved hm]; exact sessAt_sessEnd now k x
  · rw [macSessEnd_stands hm]

/-- Every session is judged once, before which it stands. -/
theorem macSessEnds_judged (n : Nat) : (∀ k < n, MacJudged b c k (forN n (macSessEnd now b c) c)) ∧ ∀ k, n ≤ k → (forN n (macSessEnd now b c) c).sessAt k = c.sessAt k := by
  induction n with
  | zero => exact ⟨fun k hk => absurd hk (Nat.not_lt_zero k), fun k _ => rfl⟩
  | succ n ih =>
    obtain ⟨hjudged, hrest⟩ := ih
    have hlast : forN (n + 1) (macSessEnd now b c) c = macSessEnd now b c n (forN n (macSessEnd now b c) c) := by simp [forN, List.range_succ]
    rw [hlast]
    refine ⟨fun k hk => ?_, fun k hk => (macSessEnd_other (by omega)).trans (hrest k (by omega))⟩
    by_cases hn : k = n
    · rw [hn]; exact macSessEnd_judged (hrest n le_rfl)
    · unfold MacJudged
      rw [macSessEnd_other hn]
      exact hjudged k (by omega)

end

/-! ### The three ends of a commit -/

section
variable {now : Nat} {b : Block}

theorem commitApply_early (h : now < b.cm.apply ∨ b.cm.ph = .idle ∨ b.cm.ph = .checking) : commitApply now b = b := by
  unfold commitApply
  split
  · rcases h with h | h | h
    · omega
    · rw [h]
    · rw [h]
  · rfl

theorem commitApply_noGo (ht : b.cm.apply ≤ now) (hp : b.cm.ph = .accepted) : commitApply now b = commitFault now b := by
  unfold commitApply; rw [if_pos ht, hp]

theorem commitApply_go (ht : b.cm.apply ≤ now) (hp : b.cm.ph = .go) : commitApply now b = applyCommit now b := by
  unfold commitApply; rw [if_pos ht, hp]

/-- Nothing that was staged comes into force without GO; the fault is recorded and staging is emptied (R106). -/
theorem commitFault_spec (now : Nat) (b : Block) : Stands b (commitFault now b) ∧ (commitFault now b).hl.commitFault = true ∧
    Unstaged (commitFault now b).cm ∧ (commitFault now b).cm.code = 0x1D := by
  unfold commitFault
  extract_lets tiles _ b1
  have hlog : Stands b b1 ∧ b1.hl.commitFault = true := by
    have h : OnlyLog { b with hl := { b.hl with commitFault := true } } b1 := logEvent_log _ _ _ _ _
    have hset : Stands b { b with hl := { b.hl with commitFault := true } } := ⟨rfl, rfl, rfl, rfl, rfl⟩
    exact ⟨hset.trans (stands_of_log h), by rw [h]⟩
  obtain ⟨hstands, hfault⟩ := hlog
  have hax := axFaults_only now 1 (tiles.flatMap tileAxes) b1
  generalize axFaults now 1 (tiles.flatMap tileAxes) b1 = c at hax ⊢
  have hkeeps : c.hl.commitFault = true := by rw [hax.1]; exact hfault
  rw [cmReject_eq]
  exact ⟨(hstands.trans (stands_of_faults hax)).trans ⟨rfl, rfl, rfl, rfl, rfl⟩, hkeeps, ⟨rfl, rfl, rfl, rfl⟩, rfl⟩

theorem commitApplyOp_cfg {y : Block} (h : commitApply now b = y) (hcfg : y.cfg = b.cfg) : commitApplyOp now b = y := by
  rw [commitApplyOp_eq, h, macSessEnds_none hcfg]

theorem macMoved_congr {c u : Block} (h : u.cfg = c.cfg) (p : Nat) : MacMoved b u p ↔ MacMoved b c p := by unfold MacMoved macWords; rw [h]

theorem SafetyJudged.gone {c u : Block} (h : SafetyJudged c) (hu : OnlyGone c u) : SafetyJudged u := by
  have hsf : u.sf = c.sf := by rw [hu]
  have hcfg : u.cfg = c.cfg := by rw [hu]
  have hnv : u.nv = c.nv := by rw [hu]
  unfold SafetyJudged at h ⊢
  rw [hsf, hcfg, hnv]
  exact h

/-- With GO the staged structure comes into force, and the sessions on a MAC that it changes end (R105). -/
theorem commitApplyOp_go (ht : b.cm.apply ≤ now) (hp : b.cm.ph = .go) : let u := commitApplyOp now b
    (u.cfg = (structured b).cfg ∧ u.mem = (structured b).mem ∧ u.run = (structured b).run ∧ u.paceNow = targetPace b) ∧
    Unstaged u.cm ∧ u.cm.code = 0 ∧ u.cm.appliedAt = now ∧ SafetyJudged u ∧
    ∀ k < 8, (MacMoved b u (b.sessAt k).port → (u.sessAt k).st = .closed) ∧ (¬MacMoved b u (b.sessAt k).port → u.sessAt k = b.sessAt k) := by
  obtain ⟨hcfg, hmem, hrun, hsess, hpace⟩ := applyCommit_stands now b
  obtain ⟨hstaged, hcode, hat⟩ := applyCommit_cm now b
  have hjudged := applyCommit_judged now b
  have howner : (applyCommit now b).cm.owner = none := by obtain ⟨-, ho, -, -⟩ := hstaged; exact ho
  have hold : ∀ k, (applyCommit now b).sessAt k = b.sessAt k := fun k => congrArg (fun t => tabGet ({} : Sess) t k) (hsess.trans (structured_keeps b).1)
  rw [commitApplyOp_eq, commitApply_go ht hp]
  generalize applyCommit now b = y at *
  have hgone := macSessEnds_gone (now := now) (b := b) howner 8
  obtain ⟨hsessions, -⟩ := macSessEnds_judged (now := now) (b := b) (c := y) 8
  generalize forN 8 (macSessEnd now b y) y = u at *
  have hucfg : u.cfg = y.cfg := by rw [hgone]
  have hucm : u.cm = y.cm := by rw [hgone]
  refine ⟨⟨hucfg.trans hcfg, ?_, ?_, ?_⟩, by rw [hucm]; exact hstaged, by rw [hucm]; exact hcode, by rw [hucm]; exact hat, hjudged.gone hgone, fun k hk => ?_⟩
  · rw [hgone]; exact hmem
  · rw [hgone]; exact hrun
  · rw [hgone]; exact hpace
  · have h := hsessions k hk
    unfold MacJudged at h
    rw [hold k] at h
    rw [macMoved_congr hucfg]
    exact h

end

end Sys2Proof.Proofs
end

section
/-! Settling O51: each command of a commit by the lemma about its operation. -/

namespace Sys2Proof.Proofs

open Sys2Proof.Machine

/-- Settles O51: the checks end in a rejection or for a tick that keeps the lead (`checksDone_cases`), and the apply tick brings the staged structure into force (`applyCommit_stands`). -/
theorem commitPath : Obligations.CommitPath := by
  intro s m hr hm
  subst hm
  have row : ∀ {c f P}, exec c s = onRun f s → P { s with b := f s.clk.lattice s.b } → Gives c s P := fun hc h => gives_onRun hc hr h
  have rejects : ∀ {c f x}, exec c s = onRun f s → f s.clk.lattice s.b = cmReject s.clk.lattice x s.b → Gives c s fun u => Rejected s u ∧ u.b.cm.code = x.code :=
    fun hc h => row hc (by rw [h]; exact rejected_cmReject _ _ _)
  have checks : ∀ {x}, NoneWaits s.b → s.b.cm.ph = .checking → commitFails s.b = some x → Gives .commitChecksDone s fun u => Rejected s u ∧ u.b.cm.code = x.code :=
    fun hw hp hx => gives_checksDone_rejected hr hw hp (checksDone_fails hx)
  refine ⟨fun k asap hb hrole => rejects (exec_commit k asap s) (commitOp_role hb hrole), fun k asap hb => row (exec_commit k asap s) ?_,
    fun k asap hb hrole => turns_onRun (exec_commit k asap s) hr (commitOp_checks hb hrole), fun hw hp => turns_checksDone hr hw (checksDoneOp_other hp) rfl,
    fun hw hp hi hs => checks hw hp (commitFails_rights hi (checkRights_unserved hs)), fun hw hp hi hs hrole => checks hw hp (commitFails_rights hi (checkRights_roles _ _ hrole hs)),
    fun hw hp => ?_, fun d => ⟨fun h => turns_onRun (exec_diePrepared d s) hr (diePrepared_ready h), fun h => turns_onRun (exec_diePrepared d s) hr (diePrepared_stands h)⟩,
    fun h => turns_onRun (exec_commitDecision s) hr (commitDecision_early h), fun hp ht hall => turns_onRun (exec_commitDecision s) hr ((commitDecision_due hp ht).trans (if_pos hall)),
    fun hp ht hall => rejects (exec_commitDecision s) ((commitDecision_due hp ht).trans (if_neg hall)), fun h => turns_onRun (exec_commitApply s) hr (commitApplyOp_cfg (commitApply_early h) rfl),
    fun ht hp => row (exec_commitApply s) ?_, fun ht hp => row (exec_commitApply s) ?_⟩
  · rw [commitOp_busy hb]
    exact ⟨rfl, rfl⟩
  · rcases checksDone_cases s.clk.lattice s.b with ⟨x, hx⟩ | ⟨t, hfails, htick, hx⟩
    · exact ⟨_, turns_checksDone hr hw ((checksDoneOp_checking hp).trans hx) (cmReject_sess _ _ _), .inl (rejected_cmReject _ _ _).1⟩
    · obtain ⟨hrights, haxes, hidle⟩ := commitFails_none hfails
      obtain ⟨hlead, hrise⟩ := applyTick_lead htick
      rw [leadNs_eq] at hlead
      refine ⟨_, turns_checksDone hr hw (((checksDoneOp_checking hp).trans hx).trans (commitAccepted_eq _ _ _)) rfl, .inr ?_⟩
      refine ⟨rfl, rfl, rfl, rfl, rfl, rfl, rfl, rfl, rfl, rfl, (Nat.add_comm _ _).trans_le hlead, fun ha => (applyTick_named htick ha).1.trans (truncTick_eq _), fun ha hmode hpace => ?_,
        fun hmode => modeAnnounced_next _ t _ hmode, fun hmode => ?_, fun hf => ⟨hrise hf, fun ht => ?_⟩, fun hpace => ?_, checkAxes_idle haxes, rfl, checkIdle_idle hidle,
        checkRights_served hrights, checkRights_owner hrights, namedCfg_lo _ _, namedCfg_hi _ _, fun a hlo hhi d => namedCfg_other _ _ _ _ hlo hhi⟩
      · refine ((applyTick_asap htick ha).2 hmode).trans ?_
        rw [if_neg (Nat.not_lt.2 hpace), Nat.max_zero, leadNs_eq]
        rfl
      · dsimp only
        rw [modeAnnounced_none _ _ _ hmode]
        exact ⟨rfl, rfl⟩
      · dsimp only
        rw [riseAtOnce_due (t := t) hf (Nat.le_of_eq ht), Bool.or_true]
      · dsimp only
        rw [riseAtOnce_slower hpace, Bool.or_false]
  · obtain ⟨⟨hcfg, hmem, hrun, hsess, -⟩, hfault, hstaged, hcode⟩ := commitFault_spec s.clk.lattice s.b
    rw [commitApplyOp_cfg (commitApply_noGo ht hp) hcfg]
    exact ⟨rfl, hfault, hstaged, hcode, hcfg, hmem, hrun, hsess⟩
  · obtain ⟨⟨hcfg, hmem, hrun, hpace⟩, hstaged, hcode, hat, hjudged, hsessions⟩ := commitApplyOp_go ht hp
    obtain ⟨-, hon, htiles⟩ := structured_keeps s.b
    have plain : s.b.cm.image = none → structured s.b = { s.b with cfg := putAll sgMask s.b.cm.staged s.b.cfg } := fun hi => structured_plain (stagedImg_none hi)
    generalize commitApplyOp s.clk.lattice s.b = u at *
    refine ⟨rfl, hstaged, hcode, hat, by rw [hrun, hon]; exact hr, by rw [hrun, htiles], hpace, hjudged, fun hi => by rw [hrun, plain hi], fun bytes i hi hparse => ?_,
      fun k => hsessions k k.isLt, fun hi => by rw [hmem, plain hi], fun hi hnodup => ⟨fun a w r ix hin hreg => ?_, fun a d hout => ?_⟩⟩
    · dsimp only
      rw [hrun, (structured_image (stagedImg_some hi hparse)).2, hi]
      exact ⟨rfl, rfl, rfl, rfl, rfl⟩
    · dsimp only
      rw [hcfg, plain hi]
      exact putAll_written hnodup hin hreg _
    · dsimp only
      rw [hcfg, plain hi]
      exact putAll_other hout _ _

end Sys2Proof.Proofs
end

section
/-! Image slots (R94, R113 to R115, R572): STAGE_SLOT, INSTALL, NEXT, CONFIRM and the end of a verification. -/

namespace Sys2Proof.Proofs

open Sys2Proof.Machine

/-! ### Slots of the NVM -/

theorem slotAt_slotUpd (i : Nat) (f : Slot → Slot) (n : Nvm) : slotAt (slotUpd i f n) i = f (slotAt n i) := by
  by_cases hi : i = 0 <;> simp [slotUpd, putSlot, slotAt, hi]

/-- The other slot of a write stands. -/
theorem slotAt_slotUpd_other {i j : Nat} (h : (i = 0 ∧ j ≠ 0) ∨ (i ≠ 0 ∧ j = 0)) (f : Slot → Slot) (n : Nvm) : slotAt (slotUpd i f n) j = slotAt n j := by
  rcases h with ⟨hi, hj⟩ | ⟨hi, hj⟩ <;> simp [slotUpd, putSlot, slotAt, hi, hj]

theorem other_slot (i : Nat) : (i = 0 ∧ 1 - i ≠ 0) ∨ (i ≠ 0 ∧ 1 - i = 0) := by omega

/-- A write to a slot changes the slots alone. -/
theorem slotUpd_frame (i : Nat) (f : Slot → Slot) (n : Nvm) : slotUpd i f n = { n with slotA := (slotUpd i f n).slotA, slotB := (slotUpd i f n).slotB } := by
  unfold slotUpd putSlot
  split <;> rfl

theorem slotAt_wear {b u : Block} (h : OnlyWear b u) (i : Nat) : slotAt u.nv i = slotAt b.nv i := by unfold slotAt; rw [h]

/-! ### The frame of image commands -/

section
variable {b y u : Block}

/-- What an image command may change, before its write to the NVM: slots, selection, rollback counter, commit engine and the results of sessions. -/
def OnlyImage (b y : Block) : Prop :=
  y = { b with cm := y.cm, sess := y.sess, nv := { b.nv with slotA := y.nv.slotA, slotB := y.nv.slotB, next := y.nv.next, rollback := y.nv.rollback }
               bk := { b.bk with rollback := y.bk.rollback } }

/-- The same with the wear of the NVM. -/
def ImageWorn (b u : Block) : Prop :=
  OnlyWear { b with cm := u.cm, sess := u.sess, nv := { b.nv with slotA := u.nv.slotA, slotB := u.nv.slotB, next := u.nv.next, rollback := u.nv.rollback }
                    bk := { b.bk with rollback := u.bk.rollback } } u

theorem imageWorn_of_wear (hy : OnlyImage b y) (hu : OnlyWear y u) : ImageWorn b u := by
  unfold ImageWorn OnlyWear OnlyImage at *
  rw [hu, hy]

theorem ImageWorn.sessUpd (h : ImageWorn b u) (k : Nat) (f : Sess → Sess) : ImageWorn b (u.sessUpd k f) := by
  unfold ImageWorn OnlyWear at *
  rw [h]
  rfl

end

section
variable {now k i : Nat} {b : Block}

/-! ### STAGE_SLOT and INSTALL (R94, R113) -/

theorem stageSlotOp_role (h : hasRoles b k 4 = false) : stageSlotOp k i b = (4, b) := if_pos (by simp [roleConfigure, h])

theorem stageSlotOp_busy (h : hasRoles b k 4 = true) (hb : CommitBusy k b.cm) : stageSlotOp k i b = (0x87, b) :=
  (if_neg (by simp [roleConfigure, h])).trans (if_pos ((commitBusy_iff k b.cm).2 hb))

theorem stageSlotOp_begins (h : hasRoles b k 4 = true) (hb : ¬CommitBusy k b.cm) :
    stageSlotOp k i b = (0, stageImage k (slotAt b.nv i).bytes (slotAt b.nv i).damaged b) :=
  (if_neg (by simp [roleConfigure, h])).trans (if_neg fun hn => hb ((commitBusy_iff k b.cm).1 hn))

theorem installOp_role (h : hasRoles b k 4 = false) : installOp now k i b = (4, b) := if_pos (by simp [roleConfigure, h])

theorem installOp_none (h : hasRoles b k 4 = true) (hi : b.cm.image = none) : installOp now k i b = (5, b) := by
  unfold installOp
  rw [if_neg (by simp [roleConfigure, h]), hi]

variable (i b) in
/-- The module with a copy of the staged image in a slot, before its write to the NVM: not valid until it is verified. -/
def installing (bytes : List Byte) : Block :=
  { b with nv := slotUpd i (fun x => { x with bytes := bytes, valid := false, damaged := false }) b.nv
           cm := { b.cm with imgBusy := 2, imgBytes := bytes, imgSlot := i, imgDone := false, imgBad := false } }

theorem installOp_copies {bytes : List Byte} (h : hasRoles b k 4 = true) (hi : b.cm.image = some bytes) :
    installOp now k i b = (0, nvWrite now (installing i b bytes)) := by
  unfold installOp
  rw [if_neg (by simp [roleConfigure, h]), hi]
  rfl

theorem installing_image (i : Nat) (b : Block) (bytes : List Byte) : OnlyImage b (installing i b bytes) := by
  unfold OnlyImage installing
  rw [slotUpd_frame]

/-! ### NEXT and CONFIRM (R113 to R115, R572) -/

variable (i b) in
/-- The module with a slot selected and marked TRIAL, before its write to the NVM. -/
def selecting : Block :=
  { b with nv := { slotUpd i (fun x => { x with trial := true, trialBooted := false }) b.nv with next := some i }, cm := { b.cm with imgDone := true } }

theorem nextSlotOp_eq : nextSlotOp now i b = nvWrite now (selecting i b) := rfl

theorem selecting_image (i : Nat) (b : Block) : OnlyImage b (selecting i b) := by
  unfold OnlyImage selecting
  rw [slotUpd_frame]

/-- The slots with the trial of the running image's slot ended. -/
def trialEnded (b : Block) (n : Nvm) : Nvm :=
  match b.run.slot with
  | some s => slotUpd s (fun x => { x with trial := false, trialBooted := false }) n
  | none => n

/-- The module with the running image confirmed, before its write to the NVM. -/
def confirming (b : Block) : Block :=
  { b with nv := trialEnded b { b.nv with rollback := max b.nv.rollback b.run.version }, bk := { b.bk with rollback := max b.nv.rollback b.run.version }
           cm := { b.cm with imgDone := true } }

theorem confirmOp_off (h : b.run.on = false) : confirmOp now b = b := if_neg (Bool.eq_false_iff.1 h)

theorem confirmOp_on (h : b.run.on = true) : confirmOp now b = nvWrite now (confirming b) := (if_pos h).trans rfl

theorem trialEnded_frame (b : Block) (n : Nvm) : trialEnded b n = { n with slotA := (trialEnded b n).slotA, slotB := (trialEnded b n).slotB } := by
  unfold trialEnded
  split
  · exact slotUpd_frame _ _ n
  · rfl

theorem confirming_image (b : Block) : OnlyImage b (confirming b) := by
  unfold OnlyImage confirming
  rw [trialEnded_frame]

theorem trialEnded_slot (b : Block) (n : Nvm) (i : Fin 2) :
    (b.run.slot = some i.val → slotAt (trialEnded b n) i = { slotAt n i with trial := false, trialBooted := false }) ∧
    (b.run.slot = none ∨ b.run.slot = some (1 - i.val) → slotAt (trialEnded b n) i = slotAt n i) := by
  unfold trialEnded
  refine ⟨fun h => ?_, fun h => ?_⟩
  · rw [h]; exact slotAt_slotUpd _ _ _
  · rcases h with h | h <;> rw [h]
    exact slotAt_slotUpd_other (by omega) _ _

/-! ### The end of a verification (R94, R113) -/

/-- The code of a verification. -/
def verifyCode (b : Block) : Nat := if b.cm.imgBad = true then 2 else (verifyImg b b.cm.imgBytes).1

theorem verifyDone_none (h : b.cm.imgBusy = 0) : verifyDone b = b := by unfold verifyDone; simp [h]

theorem verifyDone_stages (h : b.cm.imgBusy = 1) (hp : b.cm.ph = .idle) : verifyDone b =
    { b with cm := { b.cm with imgBusy := 0, imgDone := true, imgCode := verifyCode b, image := if verifyCode b = 0 then some b.cm.imgBytes else b.cm.image } } :=
  (if_pos h).trans (if_pos hp)

theorem verifyDone_frozen (h : b.cm.imgBusy = 1) (hp : b.cm.ph ≠ .idle) : verifyDone b = { b with cm := { b.cm with imgBusy := 0, imgDone := true, imgCode := 7 } } :=
  (if_pos h).trans (if_neg hp)

theorem verifyDone_installs (h : b.cm.imgBusy = 2) : verifyDone b =
    { b with cm := { b.cm with imgBusy := 0, imgDone := true, imgCode := verifyCode b }
             nv := slotUpd b.cm.imgSlot (fun x => { x with valid := decide (verifyCode b = 0) }) b.nv } :=
  (if_neg (by omega)).trans (if_pos h)

theorem turns_verifyDone {s : State} {y : Block} (hu : s.clk.up = true) (hw : NoneWaits s.b) (hy : verifyDone s.b = y) (hsess : y.sess = s.b.sess) : Turns .imageVerifyDone s y := by
  unfold Turns
  rw [exec_imageVerifyDone, execImageVerifyDone, if_pos hu]
  have hmap : s.mapB verifyDone = { s with b := y } := congrArg (fun b => { s with b := b }) hy
  rw [hmap, reqServeAll_idle (noneWaits_of_sess hw hsess)]

end

end Sys2Proof.Proofs
end

section
/-! Step 2 of the boot (R117, R572, R584): what it keeps of the module in reset, its counters, and the slots of a module that stays OWNED. -/

namespace Sys2Proof.Proofs

open Sys2Proof.Machine

/-! ### What the boot keeps -/

/-- Commit engine, sessions, safety records of axes and native axes stand. -/
def Idles (b c : Block) : Prop := c.cm = b.cm ∧ c.sess = b.sess ∧ c.sf.axes = b.sf.axes ∧ c.nat = b.nat

/-- Boot counters, rollback counter and life-cycle state stand. -/
def Counts (b c : Block) : Prop := c.nv.bootCount = b.nv.bootCount ∧ c.bk.bootCount = b.bk.bootCount ∧ c.nv.rollback = b.nv.rollback ∧ c.nv.life = b.nv.life

/-- The image slots stand. -/
def SlotsStand (b c : Block) : Prop := c.nv.slotA = b.nv.slotA ∧ c.nv.slotB = b.nv.slotB

theorem Idles.refl (b : Block) : Idles b b := ⟨rfl, rfl, rfl, rfl⟩

theorem Idles.trans {b c d : Block} (h : Idles b c) (h' : Idles c d) : Idles b d := by
  obtain ⟨hcm, hsess, hax, hnat⟩ := h
  obtain ⟨hcm', hsess', hax', hnat'⟩ := h'
  exact ⟨hcm'.trans hcm, hsess'.trans hsess, hax'.trans hax, hnat'.trans hnat⟩

theorem Counts.refl (b : Block) : Counts b b := ⟨rfl, rfl, rfl, rfl⟩

theorem Counts.trans {b c d : Block} (h : Counts b c) (h' : Counts c d) : Counts b d := by
  obtain ⟨hn, hk, hr, hl⟩ := h
  obtain ⟨hn', hk', hr', hl'⟩ := h'
  exact ⟨hn'.trans hn, hk'.trans hk, hr'.trans hr, hl'.trans hl⟩

theorem SlotsStand.trans {b c d : Block} (h : SlotsStand b c) (h' : SlotsStand c d) : SlotsStand b d := ⟨h'.1.trans h.1, h'.2.trans h.2⟩

theorem slotAt_of_slots {b c : Block} (h : SlotsStand b c) (i : Nat) : slotAt c.nv i = slotAt b.nv i := by
  obtain ⟨ha, hb⟩ := h
  unfold slotAt
  rw [ha, hb]

/-- A step of the boot that leaves all of these, and the image that runs. -/
def Quiet (b c : Block) : Prop := Idles b c ∧ c.run = b.run ∧ Counts b c ∧ SlotsStand b c

theorem Quiet.refl (b : Block) : Quiet b b := ⟨.refl b, rfl, .refl b, rfl, rfl⟩

theorem Quiet.trans {b c d : Block} (h : Quiet b c) (h' : Quiet c d) : Quiet b d := by
  obtain ⟨hidle, hrun, hcount, hslots⟩ := h
  obtain ⟨hidle', hrun', hcount', hslots'⟩ := h'
  exact ⟨hidle.trans hidle', hrun'.trans hrun, hcount.trans hcount', hslots.trans hslots'⟩

theorem quiet_of_wear {b c : Block} (h : OnlyWear b c) : Quiet b c := by
  rw [h]
  exact ⟨⟨rfl, rfl, rfl, rfl⟩, rfl, ⟨rfl, rfl, rfl, rfl⟩, rfl, rfl⟩

theorem quiet_of_log {b c : Block} (h : OnlyLog b c) : Quiet b c := quiet_of_wear h.wear

theorem Quiet.ite {p : Prop} [Decidable p] {b c d : Block} (h : Quiet b c) (h' : Quiet b d) : Quiet b (if p then c else d) := by
  split
  · exact h
  · exact h'

/-! ### Counters and log tail -/

section
variable (b : Block)

theorem bootCounters_spec : Idles b (bootCounters b) ∧ (bootCounters b).run = b.run ∧ SlotsStand b (bootCounters b) ∧
    (bootCounters b).nv.bootCount = max b.nv.bootCount b.bk.bootCount + 1 ∧ (bootCounters b).bk.bootCount = (bootCounters b).nv.bootCount ∧
    (bootCounters b).nv.rollback = max b.nv.rollback b.bk.rollback ∧ (bootCounters b).nv.life = b.nv.life :=
  ⟨⟨rfl, rfl, rfl, rfl⟩, rfl, ⟨rfl, rfl⟩, rfl, rfl, rfl, rfl⟩

/-- Entries written to the NVM change its log alone. -/
theorem logsToNvm_frame (l : List LogEntry) (n : Nvm) : ∃ log, l.foldl (fun n e => logToNvm e n) n = { n with log := log } := by
  induction l generalizing n with
  | nil => exact ⟨n.log, rfl⟩
  | cons e r ih =>
    obtain ⟨kept, hone⟩ : ∃ kept, logToNvm e n = { n with log := kept } := ⟨_, rfl⟩
    rw [List.foldl_cons, hone]
    exact ih { n with log := kept }

theorem bootTail_quiet : Quiet b (bootTail b) := by
  obtain ⟨log, h⟩ := logsToNvm_frame (b.bk.tail.drop b.bk.tailSaved) b.nv
  unfold bootTail
  rw [h]
  exact ⟨⟨rfl, rfl, rfl, rfl⟩, rfl, ⟨rfl, rfl, rfl, rfl⟩, rfl, rfl⟩

/-! ### Life cycle (R584) -/

/-- ZEROISE, where it is due, leaves RETURNED; else nothing changes. -/
theorem bootZeroise_cases : bootZeroise b = b ∨ (Idles b (bootZeroise b) ∧ (bootZeroise b).run = b.run ∧ (bootZeroise b).nv.life = .returned ∧
    (bootZeroise b).nv.bootCount = b.nv.bootCount ∧ (bootZeroise b).bk.bootCount = b.bk.bootCount ∧ (bootZeroise b).nv.rollback = b.nv.rollback) := by
  unfold bootZeroise
  split
  · exact .inr ⟨⟨rfl, rfl, rfl, rfl⟩, rfl, rfl, rfl, rfl, rfl⟩
  · exact .inl rfl

/-- FIELD_SERVICE ends with a reset. -/
def serviceOver (b : Block) : Block := if b.nv.life = .fieldService then { b with nv := { b.nv with life := .owned } } else b

/-- A step that keeps the counters, and the slots of a module that is OWNED after it. -/
def Booting (b c : Block) : Prop := Idles b c ∧ c.run = b.run ∧ c.nv.bootCount = b.nv.bootCount ∧ c.bk.bootCount = b.bk.bootCount ∧ c.nv.rollback = b.nv.rollback ∧
  (c.nv.life = .owned → SlotsStand b c)

theorem lifeBooted : Booting b (serviceOver (bootZeroise b)) := by
  rcases bootZeroise_cases b with h | ⟨hidle, hrun, hlife, hn, hk, hr⟩
  · rw [h]
    unfold serviceOver
    split
    · exact ⟨⟨rfl, rfl, rfl, rfl⟩, rfl, rfl, rfl, rfl, fun _ => ⟨rfl, rfl⟩⟩
    · exact ⟨.refl b, rfl, rfl, rfl, rfl, fun _ => ⟨rfl, rfl⟩⟩
  · have hsame : serviceOver (bootZeroise b) = bootZeroise b := if_neg (by rw [hlife]; decide)
    rw [hsame]
    exact ⟨hidle, hrun, hn, hk, hr, fun h => by rw [hlife] at h; cases h⟩

end

theorem Booting.quiet {b c d : Block} (h : Booting b c) (h' : Quiet c d) : Booting b d := by
  obtain ⟨hidle, hrun, hn, hk, hr, hslots⟩ := h
  obtain ⟨hidle', hrun', ⟨hn', hk', hr', hlife⟩, hslots'⟩ := h'
  exact ⟨hidle.trans hidle', hrun'.trans hrun, hn'.trans hn, hk'.trans hk, hr'.trans hr, fun ho => (hslots (hlife.symm.trans ho)).trans hslots'⟩

theorem Quiet.booting {b c d : Block} (h : Quiet b c) (h' : Booting c d) : Booting b d := by
  obtain ⟨hidle, hrun, ⟨hn, hk, hr, -⟩, hslots⟩ := h
  obtain ⟨hidle', hrun', hn', hk', hr', hslots'⟩ := h'
  exact ⟨hidle.trans hidle', hrun'.trans hrun, hn'.trans hn, hk'.trans hk, hr'.trans hr, fun ho => hslots.trans (hslots' ho)⟩

/-- Step 2 after the counters: the log tail, VBAT, the life cycle and the key store. -/
theorem bootStep2_booting (b : Block) : Booting (bootCounters b) (bootStep2 b) := by
  unfold bootStep2
  extract_lets b1 _bk _tr b2 old b3 _nv b4 b5 b6 _tr'
  have hlost : Quiet b1 { b1 with tr := { b1.tr with vbatLost := true }, bk := { b1.bk with lost := false, rtcValid := false } } :=
    ⟨⟨rfl, rfl, rfl, rfl⟩, rfl, ⟨rfl, rfl, rfl, rfl⟩, rfl, rfl⟩
  have h2 : Quiet (bootCounters b) b2 := (bootTail_quiet _).trans (.ite (hlost.trans (quiet_of_log (logEvent_log _ _ _ _ _))) (.refl b1))
  have h4 : Booting (bootCounters b) b4 := h2.booting (lifeBooted b2)
  have h6 : Quiet b4 b6 := (Quiet.ite (.refl b4) (quiet_of_log (logEvent_log _ _ _ _ b4))).trans (.ite (quiet_of_log (logEvent_log _ _ _ _ b5)) (.refl b5))
  have hkeys : Quiet b6 { b6 with tr := { b6.tr with keystoreErr := b6.bk.seedGone } } := ⟨⟨rfl, rfl, rfl, rfl⟩, rfl, ⟨rfl, rfl, rfl, rfl⟩, rfl, rfl⟩
  exact h4.quiet ((h6.trans hkeys).trans (quiet_of_wear (nvWrite_wear 0 _)))

end Sys2Proof.Proofs
end

section
/-! Steps 3 to 8 of the boot (R114, R115, R117): the slot that is chosen, and the image that runs from it. -/

namespace Sys2Proof.Proofs

open Sys2Proof.Machine

/-! ### The choice of a slot -/

/-- An image that passes its verification is the one that the bytes hold, and not older than the rollback counter. -/
theorem verifyImg_passes {b : Block} {raw : List Byte} {i : Img} (h : (verifyImg b raw).2 = some i) : parseImg raw = some i ∧ b.nv.rollback ≤ i.version := by
  unfold verifyImg at h
  cases hp : parseImg raw with
  | none => rw [hp] at h; cases h
  | some j =>
    rw [hp] at h
    dsimp only at h
    split at h
    · cases h
    · split at h
      · cases h
      · split at h
        · cases h
        · next hroll =>
          split at h
          · cases h
          · cases h
            exact ⟨rfl, Nat.not_lt.1 hroll⟩

theorem slotPasses_valid {b : Block} {n : Nat} {i : Img} (h : slotPasses b n = some i) :
    (slotAt b.nv n).valid = true ∧ parseImg (slotAt b.nv n).bytes = some i ∧ b.nv.rollback ≤ i.version := by
  unfold slotPasses at h
  dsimp only at h
  split at h
  · next hv =>
    obtain ⟨hvalid, -⟩ := Bool.and_eq_true_iff.1 hv
    exact ⟨hvalid, verifyImg_passes h⟩
  · cases h

/-- Marks of trials change neither counters nor life cycle nor the bytes of a slot. -/
def TrialMarks (n n' : Nvm) : Prop := n'.bootCount = n.bootCount ∧ n'.rollback = n.rollback ∧ n'.life = n.life ∧ ∀ i, (slotAt n' i).bytes = (slotAt n i).bytes

theorem TrialMarks.refl (n : Nvm) : TrialMarks n n := ⟨rfl, rfl, rfl, fun _ => rfl⟩

theorem TrialMarks.trans {n n' n'' : Nvm} (h : TrialMarks n n') (h' : TrialMarks n' n'') : TrialMarks n n'' := by
  obtain ⟨hcount, hroll, hlife, hbytes⟩ := h
  obtain ⟨hcount', hroll', hlife', hbytes'⟩ := h'
  exact ⟨hcount'.trans hcount, hroll'.trans hroll, hlife'.trans hlife, fun i => (hbytes' i).trans (hbytes i)⟩

theorem trialMarks_slotUpd (s : Nat) (f : Slot → Slot) (n : Nvm) (hf : ∀ x, (f x).bytes = x.bytes) : TrialMarks n (slotUpd s f n) := by
  have hbytes : ∀ i, (slotAt (slotUpd s f n) i).bytes = (slotAt n i).bytes := fun i => by
    by_cases hs : s = 0 <;> by_cases hi : i = 0 <;> simp [slotUpd, putSlot, slotAt, hs, hi, hf]
  refine ⟨?_, ?_, ?_, hbytes⟩ <;> rw [slotUpd_frame]

/-- A slot on trial is marked as booted (R115). -/
theorem trialMarks_booted (s : Nat) (n : Nvm) : TrialMarks n (slotUpd s (fun x => if x.trial then { x with trialBooted := true } else x) n) :=
  trialMarks_slotUpd s _ n fun x => by split <;> rfl

theorem trialMarks_ended (s o : Nat) (n : Nvm) : TrialMarks n { slotUpd s (fun y => { y with trial := false, trialBooted := false }) n with next := some o } := by
  have h := trialMarks_slotUpd s (fun y => { y with trial := false, trialBooted := false }) n fun _ => rfl
  exact h.trans ⟨rfl, rfl, rfl, fun _ => rfl⟩

/-- The slot that is booted passes step 3, and only marks of trials change with the choice. -/
theorem chooseSlot_passes {b : Block} {n : Nat} {i : Img} {nv : Nvm} (h : chooseSlot b = some (n, i, nv)) : slotPasses b n = some i ∧ TrialMarks b.nv nv := by
  unfold chooseSlot at h
  dsimp only at h
  split at h
  · split at h
    · next hp =>
      cases h
      exact ⟨hp, (trialMarks_ended _ _ _).trans (trialMarks_booted _ _)⟩
    · next hp =>
      cases h
      exact ⟨hp, .refl _⟩
    · cases h
  · split at h
    · next hp =>
      cases h
      exact ⟨hp, trialMarks_booted _ _⟩
    · next hp =>
      cases h
      exact ⟨hp, trialMarks_booted _ _⟩
    · cases h

/-! ### What starting an image keeps -/

/-- The image that runs stands but for the source of its settings, as do pace, NVM and what the boot leaves idle. -/
def Starts (b c : Block) : Prop :=
  Idles b c ∧ c.nv = b.nv ∧ c.bk = b.bk ∧ c.paceNow = b.paceNow ∧ c.run = { b.run with settingsSrc := c.run.settingsSrc, settingsSeq := c.run.settingsSeq }

theorem Starts.refl (b : Block) : Starts b b := ⟨.refl b, rfl, rfl, rfl, rfl⟩

theorem Starts.trans {b c d : Block} (h : Starts b c) (h' : Starts c d) : Starts b d := by
  obtain ⟨hidle, hnv, hbk, hpace, hrun⟩ := h
  obtain ⟨hidle', hnv', hbk', hpace', hrun'⟩ := h'
  exact ⟨hidle.trans hidle', hnv'.trans hnv, hbk'.trans hbk, hpace'.trans hpace, by rw [hrun', hrun]⟩

theorem forL_starts {α : Type} {l : List α} {f : α → Block → Block} {b : Block} (h : ∀ x c, Starts c (f x c)) : Starts b (forL l f b) :=
  forL_keeps (Starts b) l f b (fun x c hc => hc.trans (h x c)) (.refl b)

theorem forN_starts {n : Nat} {f : Nat → Block → Block} {b : Block} (h : ∀ x c, Starts c (f x c)) : Starts b (forN n f b) := forL_starts h

section
variable (b : Block)

theorem seqUpd_starts (t : Nat) (f : Seq → Seq) : Starts b (b.seqUpd t f) := ⟨⟨rfl, rfl, rfl, rfl⟩, rfl, rfl, rfl, rfl⟩

theorem bootLoad_starts (i : Img) : Starts b (bootLoad i b) := by
  have hmem : Starts b { b with mem := i.parts.foldl (fun m p => partTake i p m) b.mem } := ⟨⟨rfl, rfl, rfl, rfl⟩, rfl, rfl, rfl, rfl⟩
  exact hmem.trans (forL_starts fun t c => seqUpd_starts c t _)

theorem bootSettings_starts : Starts b (bootSettings b) := by
  unfold bootSettings
  split
  · exact ⟨⟨rfl, rfl, rfl, rfl⟩, rfl, rfl, rfl, rfl⟩
  · exact ⟨⟨rfl, rfl, rfl, rfl⟩, rfl, rfl, rfl, rfl⟩

theorem bootBoxes_starts : Starts b (bootBoxes b) := forL_starts fun t c => seqUpd_starts c t _

theorem bootScheds_starts (t : Nat) : Starts b (bootScheds t b) := by
  refine forN_starts fun k c => ?_
  split
  · exact ⟨⟨rfl, rfl, rfl, rfl⟩, rfl, rfl, rfl, rfl⟩
  · exact .refl c

theorem bootModes_starts (t : Nat) : Starts b (bootModes t b) := forN_starts fun _ _ => ⟨⟨rfl, rfl, rfl, rfl⟩, rfl, rfl, rfl, rfl⟩

theorem uncertainTake_starts (t : Nat) (changed : Nat → Bool) : Starts b (uncertainTake t changed b) := by
  refine forN_starts fun k c => ?_
  split
  · exact ⟨⟨rfl, rfl, rfl, rfl⟩, rfl, rfl, rfl, rfl⟩
  · exact .refl c

theorem unverified_starts (v : Bool) : Starts b { b with sf := { b.sf with unverified := v } } := ⟨⟨rfl, rfl, rfl, rfl⟩, rfl, rfl, rfl, rfl⟩

theorem verifyPars_starts : Starts b (verifyPars b) := unverified_starts b _

theorem blBoot_starts (now : Nat) : Starts b (blBoot now b) := by
  have hset : ∀ (c : Block) (net : BlNet), Starts c { c with net := net } := fun _ _ => ⟨⟨rfl, rfl, rfl, rfl⟩, rfl, rfl, rfl, rfl⟩
  have hports : ∀ c, Starts c (forN 12 (fun p x => x.blUpd p fun pt => { pt with st := if Fld.BL_PORT_CFG_EN x.cfg p then .listen else .off }) c) := fun c =>
    forN_starts fun _ _ => ⟨⟨rfl, rfl, rfl, rfl⟩, rfl, rfl, rfl, rfl⟩
  unfold blBoot
  extract_lets any _net b1 b2
  have h2 : Starts b b2 := (hset b _).trans (hports b1)
  split
  · exact h2.trans (hset b2 _)
  · exact h2

end

/-! ### The image that runs -/

/-- The module with the structure, the LOAD data and the settings of an image (steps 4 to 7). -/
def imageLoaded (i : Img) (b : Block) : Block := bootBoxes (bootSettings (bootLoad i (nextDraw (bootStruct i b))))

/-- The module as the image of a slot starts in it (step 8). -/
def imageStarted (n : Nat) (i : Img) (b : Block) : Block :=
  bootStart { imageLoaded i b with run := { (imageLoaded i b).run with slot := some n, bytes := (slotAt b.nv n).bytes } }

/-- The boot into an image, with its entry in the event log. -/
def imageBooted (n : Nat) (i : Img) (b : Block) : Block := logEvent 0 0x0001 0 (2 ^ 30 * (imageStarted n i b).run.settingsSrc + (n + 1)) (imageStarted n i b)

section
variable {n : Nat} {i : Img} {b : Block}

/-- Structure and pace are the image's. -/
theorem bootStruct_image (i : Img) (b : Block) : Idles b (bootStruct i b) ∧ (bootStruct i b).nv = b.nv ∧ (bootStruct i b).bk = b.bk ∧
    (bootStruct i b).paceNow = i.pace ∧ (bootStruct i b).run.tileSet = i.tileSet ∧ (bootStruct i b).run.version = i.version := by
  unfold bootStruct withImg
  exact ⟨⟨rfl, rfl, rfl, rfl⟩, rfl, rfl, rfl, rfl, rfl⟩

theorem imageLoaded_starts (i : Img) (b : Block) : Starts (bootStruct i b) (imageLoaded i b) := by
  have hdraw : ∀ c, Starts c (nextDraw c) := fun c => ⟨⟨rfl, rfl, rfl, rfl⟩, rfl, rfl, rfl, rfl⟩
  exact (((hdraw _).trans (bootLoad_starts _ i)).trans (bootSettings_starts _)).trans (bootBoxes_starts _)

theorem bootStart_starts (b : Block) : Starts { b with run := { b.run with on := true } } (bootStart b) :=
  ((forL_starts fun t c => ((bootScheds_starts c t).trans (bootModes_starts _ t)).trans (uncertainTake_starts _ t _)).trans (verifyPars_starts _)).trans (blBoot_starts _ 0)

/-- The image that runs: its slot, its bytes, and what its header says. -/
def Runs (n : Nat) (bytes : List Byte) (i : Img) (c : Block) : Prop :=
  c.run.on = true ∧ c.run.slot = some n ∧ c.run.bytes = bytes ∧ c.run.tileSet = i.tileSet ∧ c.run.version = i.version ∧ c.paceNow = i.pace

theorem imageStarted_runs (n : Nat) (i : Img) (b : Block) : Idles b (imageStarted n i b) ∧ (imageStarted n i b).nv = b.nv ∧ (imageStarted n i b).bk = b.bk ∧
    Runs n (slotAt b.nv n).bytes i (imageStarted n i b) := by
  obtain ⟨hidle, hnv, hbk, hpace, htiles, hversion⟩ := bootStruct_image i b
  obtain ⟨hidle', hnv', hbk', hpace', hrun'⟩ := imageLoaded_starts i b
  obtain ⟨hidle'', hnv'', hbk'', hpace'', hrun''⟩ := bootStart_starts { imageLoaded i b with run := { (imageLoaded i b).run with slot := some n, bytes := (slotAt b.nv n).bytes } }
  refine ⟨(hidle.trans hidle').trans hidle'', hnv''.trans (hnv'.trans hnv), hbk''.trans (hbk'.trans hbk), ?_⟩
  unfold Runs imageStarted
  rw [hrun'']
  exact ⟨rfl, rfl, rfl, (congrArg Running.tileSet hrun').trans htiles, (congrArg Running.version hrun').trans hversion, hpace''.trans (hpace'.trans hpace)⟩

/-- The boot ends without an image, or with the image of the slot that was chosen. -/
theorem bootImage_cases (b : Block) :
    (∃ nv draws, TrialMarks b.nv nv ∧ bootImage b = { b with nv := nv, draws := draws }) ∨
    ∃ n i nv, b.nv.life = .owned ∧ chooseSlot b = some (n, i, nv) ∧ bootImage b = imageBooted n i { b with nv := nv } := by
  unfold bootImage
  split
  · exact .inl ⟨b.nv, b.draws, .refl _, rfl⟩
  · next howned =>
    have hlife : b.nv.life = .owned := by
      by_contra hn
      exact howned (by simp [hn])
    split
    · exact .inl ⟨b.nv, b.draws, .refl _, rfl⟩
    · next n i nv hc =>
      dsimp only
      split
      · exact .inl ⟨nv, b.draws + 1, (chooseSlot_passes hc).2, rfl⟩
      · exact .inr ⟨n, i, nv, hlife, hc, rfl⟩

end

end Sys2Proof.Proofs
end

section
/-! The boot of a module in reset (R117, R118, R572). -/

namespace Sys2Proof.Proofs

open Sys2Proof.Machine

/-! ### The module in reset -/

/-- What holds of the default and of every value of `f` holds of every reading of a table mapped with `f`. -/
theorem tabMap_get {α : Type} [DecidableEq α] (P : α → Prop) {d : α} {f : α → α} (hd : P d) (hf : ∀ x, P (f x)) (t : Tab α) (i : Nat) : P (tabGet d (tabMap d f t) i) := by
  have hfold : ∀ (l m : Tab α), P (tabGet d m i) → P (tabGet d (l.foldl (fun m e => tabSet d m e.1 (f e.2)) m) i) := by
    intro l
    induction l with
    | nil => exact fun m hm => hm
    | cons e r ih =>
      intro m hm
      refine ih _ ?_
      by_cases hi : i = e.1
      · rw [hi, tabGet_set_same]; exact hf e.2
      · rw [tabGet_set_ne _ _ _ _ _ hi]; exact hm
  exact hfold t [] hd

/-- No staging, no session, no axis granted and no gate-enable asserted. -/
def AtRest (b : Block) : Prop :=
  Unstaged b.cm ∧ (∀ k, (b.sessAt k).st = .closed) ∧ (∀ a, (b.sfAxAt a).permit = false) ∧ ∀ t j, (b.natAt t j).gate = false

theorem volatileReset_atRest (b : Block) : AtRest (volatileReset b) :=
  ⟨⟨rfl, rfl, rfl, rfl⟩, fun _ => rfl, fun _ => rfl, fun t j => tabMap_get (fun a => a.gate = false) rfl (fun _ => rfl) b.nat (t * 16 + j)⟩

theorem AtRest.idles {b c : Block} (h : AtRest b) (hi : Idles b c) : AtRest c := by
  obtain ⟨hcm, hsess, haxes, hnat⟩ := hi
  unfold AtRest Block.sessAt Block.sfAxAt Block.natAt at *
  rw [hcm, hsess, haxes, hnat]
  exact h

/-! ### The boot -/

/-- Boot counters and rollback counter of `c` after a boot of `b`: the larger of the two copies, and the boot counted (R118, R572). -/
def BootCounted (b c : Block) : Prop :=
  c.nv.bootCount = max b.nv.bootCount b.bk.bootCount + 1 ∧ c.bk.bootCount = c.nv.bootCount ∧ c.nv.rollback = max b.nv.rollback b.bk.rollback

/-- `c` runs the image of a slot that was valid in `b` and is not older than the rollback counter. -/
def RunsSlot (b c : Block) : Prop :=
  c.nv.life = .owned ∧ ∃ n i, (slotAt b.nv n).valid = true ∧ parseImg (slotAt b.nv n).bytes = some i ∧ c.nv.rollback ≤ i.version ∧ Runs n (slotAt b.nv n).bytes i c

section
variable (b : Block)

/-- The module before an image is chosen. -/
theorem bootStep2_spec : Idles (volatileReset b) (bootStep2 (volatileReset b)) ∧ (bootStep2 (volatileReset b)).run = {} ∧ BootCounted b (bootStep2 (volatileReset b)) ∧
    ((bootStep2 (volatileReset b)).nv.life = .owned → ∀ n, slotAt (bootStep2 (volatileReset b)).nv n = slotAt b.nv n) := by
  obtain ⟨hidle, hrun, hslots, hn, hk, hroll, -⟩ := bootCounters_spec (volatileReset b)
  obtain ⟨hidle', hrun', hn', hk', hroll', hslots'⟩ := bootStep2_booting (volatileReset b)
  refine ⟨hidle.trans hidle', hrun'.trans hrun, ⟨hn'.trans hn, ?_, hroll'.trans hroll⟩, fun ho n => ?_⟩
  · rw [hk', hk, hn']
  · exact slotAt_of_slots (hslots.trans (hslots' ho)) n

end

theorem BootCounted.of_marks {b c d : Block} (h : BootCounted b c) (hm : TrialMarks c.nv d.nv) (hbk : d.bk = c.bk) : BootCounted b d := by
  obtain ⟨hn, hk, hroll⟩ := h
  obtain ⟨hn', hroll', -, -⟩ := hm
  refine ⟨hn'.trans hn, ?_, hroll'.trans hroll⟩
  rw [hbk, hk, hn']

/-- The image that is booted: what the boot kept so far stands, and the image of the chosen slot runs. -/
theorem imageBooted_runs (n : Nat) (i : Img) (b : Block) : Idles b (imageBooted n i b) ∧ Counts b (imageBooted n i b) ∧ Runs n (slotAt b.nv n).bytes i (imageBooted n i b) := by
  obtain ⟨hidle, hnv, hbk, hon, hslot, hbytes, htiles, hversion, hpace⟩ := imageStarted_runs n i b
  have hlog : OnlyLog (imageStarted n i b) (imageBooted n i b) := logEvent_log _ _ _ _ _
  obtain ⟨hidle', hrun', ⟨hn, hk, hroll, hlife⟩, -⟩ := quiet_of_log hlog
  have hpace' : (imageBooted n i b).paceNow = (imageStarted n i b).paceNow := by rw [hlog]
  refine ⟨hidle.trans hidle', ⟨by rw [hn, hnv], by rw [hk, hbk], by rw [hroll, hnv], by rw [hlife, hnv]⟩, ?_⟩
  unfold Runs
  rw [hrun', hpace']
  exact ⟨hon, hslot, hbytes, htiles, hversion, hpace⟩

/-- The boot (R117): the module stays at rest, the boot is counted, and no image runs or that of a valid slot. -/
theorem bootOp_spec (b : Block) : AtRest (bootOp b) ∧ BootCounted b (bootOp b) ∧ ((bootOp b).run = {} ∨ RunsSlot b (bootOp b)) := by
  obtain ⟨hidle, hrun, hcount, hslots⟩ := bootStep2_spec b
  unfold bootOp
  generalize bootStep2 (volatileReset b) = c at *
  have hrest : AtRest c := (volatileReset_atRest b).idles hidle
  rcases bootImage_cases c with ⟨nv, draws, hmarks, h⟩ | ⟨n, i, nv, howned, hc, h⟩
  · rw [h]
    exact ⟨hrest.idles ⟨rfl, rfl, rfl, rfl⟩, hcount.of_marks hmarks rfl, .inl hrun⟩
  · rw [h]
    obtain ⟨hpass, hmarks⟩ := chooseSlot_passes hc
    obtain ⟨hvalid, hparse, hver⟩ := slotPasses_valid hpass
    obtain ⟨hidle', ⟨hn, hk, hroll, hlife⟩, hruns⟩ := imageBooted_runs n i { c with nv := nv }
    obtain ⟨hn0, hk0, hroll0⟩ : BootCounted b { c with nv := nv } := hcount.of_marks hmarks rfl
    obtain ⟨-, hroll', hlife', hbytes⟩ := hmarks
    generalize imageBooted n i { c with nv := nv } = d at *
    refine ⟨hrest.idles hidle', ⟨hn.trans hn0, ?_, hroll.trans hroll0⟩, .inr ⟨hlife.trans (hlife'.trans howned), n, i, ?_⟩⟩
    · rw [hk, hk0, hn]
    · rw [hslots howned] at hvalid hparse
      refine ⟨hvalid, hparse, ?_, ?_⟩
      · rw [hroll]; exact hroll'.trans_le hver
      · rw [← hslots howned, ← hbytes]; exact hruns

/-! ### The row BOOT -/

theorem exec_boot_up {s : State} (h : s.clk.up = true) : exec .boot s = .next s := by
  rw [exec_boot, execBoot, if_pos h]

theorem gives_boot {s : State} {P : State → Prop} (h : s.clk.up = false) (hP : P { s with clk := { lattice := 0, up := true }, b := bootOp s.b }) : Gives .boot s P :=
  ⟨_, by rw [exec_boot, execBoot, if_neg (Bool.eq_false_iff.1 h)], hP⟩

end Sys2Proof.Proofs
end

section
/-! Image slots and the boot: the obligation, row by row. -/

namespace Sys2Proof.Proofs

open Sys2Proof.Machine

section
variable {s : State}

/-! ### STAGE_SLOT and INSTALL -/

section
variable {k : Fin 8} {c : Instr} {op e : Nat}

/-- A row of the hub whose operation leaves status `e` and changes the commit engine alone. -/
theorem answers_hub {f : Nat → Block → Nat × Block} {cm : Commit} (hc : exec c s = onHub (fun now b => withStatus k op (f now b)) s) (hu : s.clk.up = true)
    (hf : f s.clk.lattice s.b = (e, { s.b with cm := cm })) : Answers c s k op e cm := by
  refine turns_onHub hc hu ?_
  rw [hf]
  rfl

end

section
variable {k : Fin 8} {n : Fin 2}

theorem answers_imgStageSlot {e : Nat} {cm : Commit} (hu : s.clk.up = true) (h : stageSlotOp k n s.b = (e, { s.b with cm := cm })) : Answers (.imgStageSlot k n) s k 2 e cm :=
  answers_hub (exec_imgStageSlot k n s) hu h

theorem answers_imgInstall {e : Nat} {cm : Commit} (hu : s.clk.up = true) (h : installOp s.clk.lattice k n s.b = (e, { s.b with cm := cm })) :
    Answers (.imgInstall k n) s k 2 e cm :=
  answers_hub (exec_imgInstall k n s) hu h

/-- A copy of the staged image begins: the module with it in the slot, worn, and with the result of the session. -/
theorem gives_installs {bytes : List Byte} {P : State → Prop} (hu : s.clk.up = true) (hr : hasRoles s.b k 4 = true) (hi : s.b.cm.image = some bytes)
    (hP : P { s with b := (nvWrite s.clk.lattice (installing n s.b bytes)).sessUpd k fun x => { x with last := { op := 2, status := 0, data := [] }, lastWait := .none } }) :
    Gives (.imgInstall k n) s P := by
  refine gives_onHub (exec_imgInstall k n s) hu ?_
  rw [installOp_copies hr hi]
  exact hP

/-! ### What wear leaves -/

theorem installed_slots (k : Nat) (f : Sess → Sess) (n : Fin 2) (b : Block) (bytes : List Byte) {y : Block} (h : OnlyWear (installing n b bytes) y) :
    slotAt (y.sessUpd k f).nv n = { slotAt b.nv n with bytes := bytes, valid := false, damaged := false } ∧ slotAt (y.sessUpd k f).nv (1 - n.val) = slotAt b.nv (1 - n.val) ∧
    (y.sessUpd k f).cm = { b.cm with imgBusy := 2, imgBytes := bytes, imgSlot := n, imgDone := false, imgBad := false } := by
  refine ⟨(slotAt_wear h n).trans (slotAt_slotUpd _ _ _), (slotAt_wear h (1 - n.val)).trans (slotAt_slotUpd_other (other_slot n) _ _), ?_⟩
  have hcm : y.cm = (installing n b bytes).cm := by rw [h]
  exact hcm

theorem selected_slots {n : Fin 2} {b y : Block} (h : OnlyWear (selecting n b) y) :
    y.nv.next = some n.val ∧ slotAt y.nv n = { slotAt b.nv n with trial := true, trialBooted := false } ∧ slotAt y.nv (1 - n.val) = slotAt b.nv (1 - n.val) ∧
    y.nv.rollback = b.nv.rollback ∧ y.bk.rollback = b.bk.rollback ∧ y.cm = { b.cm with imgDone := true } ∧ y.sess = b.sess := by
  have hslot : ∀ i, slotAt y.nv i = slotAt (slotUpd n (fun x => { x with trial := true, trialBooted := false }) b.nv) i := slotAt_wear h
  refine ⟨by rw [h]; rfl, (hslot n).trans (slotAt_slotUpd _ _ _), (hslot _).trans (slotAt_slotUpd_other (other_slot n) _ _), ?_, by rw [h]; rfl, by rw [h]; rfl, by rw [h]; rfl⟩
  have hroll : y.nv.rollback = (slotUpd n (fun x => { x with trial := true, trialBooted := false }) b.nv).rollback := by rw [h]; rfl
  rw [hroll, slotUpd_frame]

theorem trialEnded_rollback (b : Block) (n : Nvm) : (trialEnded b n).rollback = n.rollback := by rw [trialEnded_frame]

theorem trialEnded_next (b : Block) (n : Nvm) : (trialEnded b n).next = n.next := by rw [trialEnded_frame]

theorem confirmed_slots {b y : Block} (h : OnlyWear (confirming b) y) :
    y.nv.rollback = max b.nv.rollback b.run.version ∧ y.bk.rollback = y.nv.rollback ∧ y.nv.next = b.nv.next ∧ y.cm = { b.cm with imgDone := true } ∧ y.sess = b.sess ∧
    ∀ n : Fin 2, (b.run.slot = some n.val → slotAt y.nv n = { slotAt b.nv n with trial := false, trialBooted := false }) ∧
      (b.run.slot = none ∨ b.run.slot = some (1 - n.val) → slotAt y.nv n = slotAt b.nv n) := by
  have hroll : y.nv.rollback = max b.nv.rollback b.run.version := by
    rw [h]; exact trialEnded_rollback b _
  have hnext : y.nv.next = b.nv.next := by
    rw [h]; exact trialEnded_next b _
  refine ⟨hroll, ?_, hnext, by rw [h]; rfl, by rw [h]; rfl, fun n => ?_⟩
  · rw [hroll, h]; rfl
  · rw [slotAt_wear h n]
    exact trialEnded_slot b { b.nv with rollback := max b.nv.rollback b.run.version } n

end

end

/-- Settles O52: each command leaves what its operation writes before the NVM wears, the end of a verification splits on what was verified,
and the boot keeps the module at rest through every step (`bootOp_spec`). -/
theorem images : Obligations.Images := by
  intro s m hm
  subst hm
  refine ⟨fun hu k n => ⟨fun hr => ⟨?_, ?_⟩, fun hr hmine => ?_, fun hr hmine => ?_, fun hr hi => ?_, fun bytes hr hi => ?_, ?_⟩, fun hu hoff => ?_, fun hu hon => ?_,
    fun hu hw => ⟨fun h => ?_, fun h hp => ?_, fun h hp => ?_, fun h hs => ?_⟩, exec_boot_up, fun hu => ?_⟩
  -- STAGE_SLOT and INSTALL without CONFIGURE, and where staging is another's or frozen
  · exact answers_imgStageSlot hu (stageSlotOp_role hr)
  · exact answers_imgInstall hu (installOp_role hr)
  · exact answers_imgStageSlot hu (stageSlotOp_busy hr (by_contra fun hb => hmine ((not_commitBusy_iff _ _).1 hb)))
  -- STAGE_SLOT begins a verification
  · exact answers_imgStageSlot hu (stageSlotOp_begins hr ((not_commitBusy_iff _ _).2 hmine))
  -- INSTALL, without and with a staged image
  · exact answers_imgInstall hu (installOp_none hr hi)
  · have hwear := nvWrite_wear s.clk.lattice (installing n s.b bytes)
    obtain ⟨hslot, hother, hcm⟩ := installed_slots k (fun x => { x with last := { op := 2, status := 0, data := [] }, lastWait := .none }) n s.b bytes hwear
    exact gives_installs hu hr hi ⟨⟨rfl, (imageWorn_of_wear (installing_image n s.b bytes) hwear).sessUpd _ _⟩, by rw [sessAt_sessUpd], hslot, hother, hcm⟩
  -- NEXT
  · have hwear := nvWrite_wear s.clk.lattice (selecting n s.b)
    exact gives_onHub (exec_imgNext n s) hu ⟨⟨rfl, imageWorn_of_wear (selecting_image n s.b) hwear⟩, selected_slots hwear⟩
  -- CONFIRM, without and with a running image
  · exact turns_onHub (exec_imgConfirm s) hu (confirmOp_off hoff)
  · refine gives_onHub (exec_imgConfirm s) hu ?_
    rw [confirmOp_on hon]
    have hwear := nvWrite_wear s.clk.lattice (confirming s.b)
    exact ⟨⟨rfl, imageWorn_of_wear (confirming_image s.b) hwear⟩, confirmed_slots hwear⟩
  -- the end of a verification: none runs, one to stage (open, frozen), one of a slot
  · exact turns_verifyDone hu hw (verifyDone_none h) rfl
  · exact turns_verifyDone hu hw (verifyDone_stages h hp) rfl
  · exact turns_verifyDone hu hw (verifyDone_frozen h hp) rfl
  · refine ⟨_, turns_verifyDone hu hw (verifyDone_installs h) rfl, rfl, ?_, slotAt_slotUpd _ _ _, slotAt_slotUpd_other (by omega) _ _⟩
    exact congrArg (fun nv => { s.b with cm := { s.b.cm with imgBusy := 0, imgDone := true, imgCode := verifyCode s.b }, nv := nv }) (slotUpd_frame _ _ _)
  -- BOOT
  · obtain ⟨⟨hcm, hsess, haxes, hnat⟩, ⟨hcount, hbk, hroll⟩, hruns⟩ := bootOp_spec s.b
    refine gives_boot hu ⟨rfl, rfl, hcm, hcount, hbk, rfl, hroll, hsess, haxes, hnat, fun hoff => ?_, fun hon => ?_⟩
    · rcases hruns with hrun | ⟨-, n, i, -, -, -, hon, -⟩
      · exact congrArg Running.tileSet hrun
      · exact absurd (hon.symm.trans hoff) (by decide)
    · rcases hruns with hrun | ⟨hlife, n, i, hvalid, hparse, hver, -, hslot, hbytes, htiles, hversion, hpace⟩
      · exact absurd ((congrArg Running.on hrun).symm.trans hon) (by decide)
      · exact ⟨hlife, n, i, hslot, hvalid, hparse, hbytes, htiles, hversion, hver, hpace⟩

end Sys2Proof.Proofs
end

section
/-! The shadow bank of a gain schedule and the requests for control modes (R157 to R168). -/

namespace Sys2Proof.Proofs

open Sys2Proof.Machine

/-! ### The shadow bank -/

section
variable {now : Nat} {r : SchedBank} {x : Sched}

theorem schedSealDone_invalid (h : x.shadow = .fetching) : schedSealDone now none x = { x with shadow := .empty, sealErr := true } := if_pos h

theorem schedSealDone_first (h : x.shadow = .fetching) (ha : x.active = none) :
    schedSealDone now (some r) x = { x with active := some 0, bank := r, shadow := .empty, regionKnown := false } := by
  simp only [schedSealDone, h, ha, if_true]

theorem schedSealDone_sealed {a : Nat} (h : x.shadow = .fetching) (ha : x.active = some a) :
    schedSealDone now (some r) x = { x with shadow := .sealed, shadowBank := r, sealedAt := now } := by
  simp only [schedSealDone, h, ha, if_true]

end

/-- A command that updates one schedule of a tile that runs. -/
theorem turns_schedUpd {c : Instr} {t k : Nat} {f : Nat → Block → Sched → Sched} {s : State} {y : Sched}
    (hc : exec c s = onTile t (fun now b => b.schedUpd t k (f now b)) s) (hl : tileLive s.b t = true) (hf : f s.clk.lattice s.b (s.b.schedAt t k) = y) :
    Turns c s (s.b.schedUpd t k fun _ => y) := turns_onTile hc hl (schedUpd_congr _ _ _ _ _ hf)

/-! ### A write of CE_MODE -/

/-- The mode record of a slot after a request; `alt` says whether the mode has an alternative (R164). -/
def modeAsked (now mode from_ : Nat) (armed alt : Bool) (x : ModeS) : ModeS :=
  if alt then
    if x.active = mode then { x with req := none }
    else if armed && decide (now < from_) then { x with req := some { mode := mode, from_ := from_, armed := true } }
    else { x with req := some { mode := mode, from_ := now + 1, armed := false } }
  else { x with modeErr := true }

/-- The mode record of a slot after a cancellation: an armed request goes (R164). -/
def modeCancelled (x : ModeS) : ModeS :=
  match x.req with
  | some r => if r.armed then { x with req := none } else x
  | none => x

/-- The write sets the mode field, then asks for the mode or cancels. -/
def modeWritten (t j mode : Nat) (f : ModeS → ModeS) (b : Block) : Block := (b.modeUpd t j fun x => { x with modeField := mode }).modeUpd t j f

section
variable {now t j mode from_ : Nat} {armed alt : Bool} {b : Block} {x : ModeS}

theorem modeRequest_eq : modeRequest now t j mode from_ armed b = b.modeUpd t j (modeAsked now mode from_ armed (altOf b t j mode).isSome) := by
  unfold modeRequest modeAsked
  cases altOf b t j mode <;> rfl

theorem modeNowOp_eq : modeNowOp now t j mode b = modeWritten t j mode (modeAsked now mode 0 false (altOf b t j mode).isSome) b := modeRequest_eq

theorem modeArmOp_armed : modeArmOp now t j mode true b =
    modeWritten t j mode (modeAsked now mode (truncTick (Fld.CE_MODE_AT_HI_TICK b.cfg t j * 2 ^ 32 + Fld.CE_MODE_AT_LO_TICK b.cfg t j)) true (altOf b t j mode).isSome) b :=
  modeRequest_eq

theorem modeArmOp_cancels : modeArmOp now t j mode false b = modeWritten t j mode modeCancelled b := rfl

theorem modeAsked_none : modeAsked now mode from_ armed false x = { x with modeErr := true } := rfl

theorem modeAsked_active (h : x.active = mode) : modeAsked now mode from_ armed true x = { x with req := none } := if_pos h

theorem modeAsked_arms (h : x.active ≠ mode) (hf : now < from_) :
    modeAsked now mode from_ true true x = { x with req := some { mode := mode, from_ := from_, armed := true } } := by
  simp [modeAsked, h, hf]

/-- A request that is not armed, or armed for a tick that has come, holds from the next frame. -/
theorem modeAsked_now (h : x.active ≠ mode) (hf : armed = true → from_ ≤ now) :
    modeAsked now mode from_ armed true x = { x with req := some { mode := mode, from_ := now + 1, armed := false } } := by
  have hno : (armed && decide (now < from_)) = false := by cases armed <;> simp_all
  simp [modeAsked, h, hno]

theorem modeCancelled_armed {r : ModeReq} (hr : x.req = some r) (ha : r.armed = true) : modeCancelled x = { x with req := none } := by
  simp only [modeCancelled, hr, ha, if_true]

theorem modeCancelled_waits {r : ModeReq} (hr : x.req = some r) (ha : r.armed = false) : modeCancelled x = x := by
  simp only [modeCancelled, hr, ha, Bool.false_eq_true, if_false]

theorem modeCancelled_none (hr : x.req = none) : modeCancelled x = x := by simp only [modeCancelled, hr]

theorem modeWritten_modeAt (f : ModeS → ModeS) : (modeWritten t j mode f b).modeAt t j = f { b.modeAt t j with modeField := mode } := by
  unfold modeWritten; rw [modeAt_modeUpd, modeAt_modeUpd]

theorem modeWritten_other {t' j' : Nat} (f : ModeS → ModeS) (hj : j < 16) (hj' : j' < 16) (h : ¬(t' = t ∧ j' = j)) :
    (modeWritten t j mode f b).modeAt t' j' = b.modeAt t' j' := by
  unfold modeWritten; rw [modeAt_modeUpd_ne _ _ _ _ _ _ hj hj' h, modeAt_modeUpd_ne _ _ _ _ _ _ hj hj' h]

end

/-- Settles O10: each schedule command is one update of its schedule; each write of CE_MODE is `modeWritten` with `modeAsked` or `modeCancelled`. -/
theorem schedulesAndModes : Obligations.SchedulesAndModes := by
  refine ⟨fun t k s x hl hx => ?_, fun t j m s x hl hx => ?_⟩
  · subst hx
    have seals : ∀ {y}, schedSeal (s.b.schedAt t k) = y → _ := turns_schedUpd (f := fun _ _ => schedSeal) (exec_schedSeal t k s) hl
    have ends : ∀ {y}, schedSealDone s.clk.lattice (readSched s.b t k (shadowNo (s.b.schedAt t k).active)) (s.b.schedAt t k) = y → _ :=
      turns_schedUpd (f := fun now b => schedSealDone now (readSched b t k (shadowNo (b.schedAt t k).active))) (exec_schedSealDone t k s) hl
    have unseals : ∀ {y}, schedUnseal (s.b.schedAt t k) = y → _ := turns_schedUpd (f := fun _ _ => schedUnseal) (exec_schedUnseal t k s) hl
    have reselects : ∀ {y}, schedReselect s.clk.lattice (s.b.schedAt t k) = y → _ := turns_schedUpd (f := fun now _ => schedReselect now) (exec_schedReselect t k s) hl
    refine ⟨fun h => seals (if_pos h), fun h => seals (if_neg h), fun h hr => ends ?_, fun r h ha hr => ends ?_, fun r a h ha hr => ends ?_,
      fun h => unseals (if_pos h), fun h => unseals (if_neg h), fun h => reselects (if_pos h), fun h => reselects (if_neg h)⟩
    · rw [hr]; exact schedSealDone_invalid h
    · rw [hr]; exact schedSealDone_first h ha
    · rw [hr]; exact schedSealDone_sealed h ha
  · subst hx
    intro at_ y to_
    have writes : ∀ {c : Instr} {op : Nat → Block → Block} {f : ModeS → ModeS} {z : ModeS}, exec c s = onTile t op s →
        op s.clk.lattice s.b = modeWritten t j m.toNat f s.b → f y = z → to_ c z := by
      intro c op f z hc hop hz
      refine gives_onTile hc hl ?_
      rw [hop]
      exact ⟨rfl, (modeWritten_modeAt f).trans hz, fun t' j' h => modeWritten_other f j.isLt j'.isLt (by simpa [Fin.ext_iff] using h)⟩
    have asks : ∀ {z}, modeAsked s.clk.lattice m.toNat 0 false (altOf s.b t j m.toNat).isSome y = z → to_ (.modeNow t j m) z := writes (exec_modeNow t j m s) modeNowOp_eq
    have arms : ∀ {z}, modeAsked s.clk.lattice m.toNat (at_ - at_ % 10) true (altOf s.b t j m.toNat).isSome y = z → to_ (.modeArm t j true m) z :=
      writes (exec_modeArm t j true m s) modeArmOp_armed
    have cancels : ∀ {z}, modeCancelled y = z → to_ (.modeArm t j false m) z := writes (exec_modeArm t j false m s) modeArmOp_cancels
    refine ⟨fun h => ?_, fun h ha => ?_, fun h ha => ?_, fun r hr ha => cancels (modeCancelled_armed (x := y) hr ha),
      fun r hr ha => cancels (modeCancelled_waits (x := y) hr ha), fun hr => cancels (modeCancelled_none (x := y) hr)⟩
    · rw [h] at asks arms
      exact ⟨asks modeAsked_none, arms modeAsked_none⟩
    · rw [Option.isSome_iff_ne_none.2 h] at asks arms
      exact ⟨asks (modeAsked_active ha), arms (modeAsked_active ha)⟩
    · rw [Option.isSome_iff_ne_none.2 h] at asks arms
      exact ⟨asks (modeAsked_now ha nofun), fun hlt => arms (modeAsked_arms ha hlt), fun hle => arms (modeAsked_now ha fun _ => hle)⟩

end Sys2Proof.Proofs
end

section
/-! From an accepted enable of a native axis to switching, and the end of its disable (R141, R183, R187, R200 to R202). -/

namespace Sys2Proof.Proofs

open Sys2Proof.Machine

/-! ### What reads registers alone -/

section
variable {b c : Block}

theorem updatePointAt_of_cfg (h : c.cfg = b.cfg) (now t j : Nat) : updatePointAt c now t j = updatePointAt b now t j := by
  unfold updatePointAt grpPeriod curGroup curCtx ctxsOf; rw [h]

theorem isValley_of_cfg (h : c.cfg = b.cfg) (t j : Nat) (s : Int) : isValley c t j s = isValley b t j s := by
  unfold isValley grpPeriod curGroup curCtx ctxsOf; rw [h]

end

/-! ### The end of precharge -/

/-- A native axis that starts switching (R200 step 3). -/
def switchingOn (x : NatAx) : NatAx :=
  { x with pwm := .switching, st := if x.st = .precharge then .enabled else x.st, meas := { x.meas with hPrev := [0, 0, 0] } }

/-- The tick `now` holds an update point at a valley of the carrier at which a precharge that began at `te` has lasted PRE_T (R200 step 3). -/
def OpensAt (b : Block) (now t j te : Nat) : Prop :=
  ∃ p, updatePointAt b now t j = some p ∧ isValley b t j p.2 = true ∧ 4 * ((te : Int) + 1000 * Fld.AX_PWM_MIN_PRE_T b.cfg t j) ≤ p.1

/-- The module with a precharging or aligning axis switching; one that precharged requests the release of its brake. -/
def switched (t j : Nat) (b : Block) : Block :=
  if (b.natAt t j).st = .precharge then (b.natUpd t j switchingOn).sfAxUpd (axNo t j) fun x => { x with relReq := true } else b.natUpd t j switchingOn

section
variable {now t j : Nat} {b : Block}

theorem opensAt_of_cfg {c : Block} (h : c.cfg = b.cfg) (te : Nat) : OpensAt c now t j te ↔ OpensAt b now t j te := by
  unfold OpensAt; rw [updatePointAt_of_cfg h, h]; simp only [isValley_of_cfg h]

theorem atUpdatePoint_none {f : Int → Int → Block → Block} (h : updatePointAt b now t j = none) : atUpdatePoint now t j f b = b := by
  simp only [atUpdatePoint, h]

theorem atUpdatePoint_some {f : Int → Int → Block → Block} {p : Int × Int} (h : updatePointAt b now t j = some p) : atUpdatePoint now t j f b = f p.1 p.2 b := by
  simp only [atUpdatePoint, h]

theorem natPrecharge_waits {u s : Int} (h : (b.natAt t j).pwm ≠ .lowOn ∨ ((b.natAt t j).st ≠ .precharge ∧ (b.natAt t j).st ≠ .aligning)) :
    natPrecharge t j u s b = b := if_neg (by rcases h with h | ⟨h, h'⟩ <;> simp [*])

/-- At an update point that opens it, a precharge or an alignment starts switching. -/
theorem precharge_opens (hpwm : (b.natAt t j).pwm = .lowOn) (hst : (b.natAt t j).st = .precharge ∨ (b.natAt t j).st = .aligning)
    (ho : OpensAt b now t j (b.natAt t j).te) : atUpdatePoint now t j (natPrecharge t j) b = switched t j b := by
  obtain ⟨p, hp, hv, hu⟩ := ho
  rw [atUpdatePoint_some hp]
  exact if_pos (by simp [hpwm, hst, hv, hu])

theorem precharge_waits (h : (b.natAt t j).pwm ≠ .lowOn ∨ ((b.natAt t j).st ≠ .precharge ∧ (b.natAt t j).st ≠ .aligning) ∨ ¬OpensAt b now t j (b.natAt t j).te) :
    atUpdatePoint now t j (natPrecharge t j) b = b := by
  cases hp : updatePointAt b now t j with
  | none => exact atUpdatePoint_none hp
  | some p =>
    rw [atUpdatePoint_some hp]
    rcases h with h | h | h
    · exact natPrecharge_waits (.inl h)
    · exact natPrecharge_waits (.inr h)
    · refine if_neg fun hc => h ⟨p, hp, ?_⟩
      simp only [Bool.and_eq_true, decide_eq_true_eq] at hc
      exact ⟨hc.1.2, hc.2⟩

/-! ### Gate-enable -/

/-- A context at frame 0 of its ramp (R141). -/
def rampStarts (x : Ctx) : Ctx := { x with rampArmed := true, ramping := false }

/-- Arming the ramps changes contexts alone. -/
theorem rampsArm_frame (t j : Nat) (b : Block) : rampsArm t j b = { b with ctx := (rampsArm t j b).ctx } :=
  forL_keeps (fun c => c = { b with ctx := c.ctx }) _ _ b (fun _ c hc => by rw [hc]; rfl) rfl

/-- Contexts of a list updated by one function that does nothing the second time. -/
theorem ctxAt_forL_ctxUpd (l : List Nat) (t k : Nat) (f : Ctx → Ctx) (hf : ∀ x, f (f x) = f x) (b : Block) :
    (forL l (fun c x => x.ctxUpd t c f) b).ctxAt t k = if k ∈ l then f (b.ctxAt t k) else b.ctxAt t k := by
  induction l generalizing b with
  | nil => rfl
  | cons c l ih =>
    refine (ih (b.ctxUpd t c f)).trans ?_
    by_cases h : k = c
    · subst h; simp [hf]
    · rw [show (b.ctxUpd t c f).ctxAt t k = b.ctxAt t k from tabGet_upd_ne _ _ _ _ _ (by omega)]
      simp [h]

theorem rampsArm_ctxAt (t j k : Nat) (b : Block) : (rampsArm t j b).ctxAt t k = if k ∈ ctxsOf b t j then rampStarts (b.ctxAt t k) else b.ctxAt t k :=
  ctxAt_forL_ctxUpd _ _ _ rampStarts (fun _ => rfl) _

/-- A native axis at the sample instant t_e of its enable or alignment (R200 steps 1 and 2, R202). -/
def gateOn (now : Nat) (al : Bool) (x : NatAx) : NatAx :=
  { x with wait := none, te := now, gate := true, pwm := .lowOn, st := if al then .aligning else .precharge, hold := none, fromAlign := false
           aligned := x.aligned && !al }

/-- The module with gate-enable asserted and the ramps of the axis armed. -/
def gated (now t j : Nat) (al : Bool) (b : Block) : Block := rampsArm t j (b.natUpd t j (gateOn now al))

theorem natGate_due {r : Nat} {al : Bool} (hw : (b.natAt t j).wait = some (r, al)) (hr : r < now) (hs : isSample b now t (curGroup b t j) = true) :
    natGate now t j b = atUpdatePoint now t j (natPrecharge t j) (gated now t j al b) := by
  simp only [natGate, hw, hr, hs, decide_true, Bool.and_self, if_true]; rfl

theorem natGate_waits (h : (b.natAt t j).wait = none ∨ (∃ r al, (b.natAt t j).wait = some (r, al) ∧ now ≤ r) ∨ isSample b now t (curGroup b t j) = false) :
    natGate now t j b = b := by
  cases hw : (b.natAt t j).wait with
  | none => simp only [natGate, hw]
  | some w =>
    obtain ⟨r, al⟩ := w
    simp only [natGate, hw]
    refine if_neg fun hc => ?_
    simp only [Bool.and_eq_true, decide_eq_true_eq] at hc
    rcases h with h | ⟨r', al', h, hle⟩ | h
    · simp [hw] at h
    · simp only [hw, Option.some.injEq, Prod.mk.injEq] at h; omega
    · simp [h] at hc

theorem gated_frame (now t j : Nat) (al : Bool) (b : Block) :
    gated now t j al b = { b with nat := (b.natUpd t j (gateOn now al)).nat, ctx := (gated now t j al b).ctx } := by
  unfold gated; rw [rampsArm_frame]; rfl

theorem gated_cfg (now t j : Nat) (al : Bool) (b : Block) : (gated now t j al b).cfg = b.cfg := by rw [gated_frame]

theorem gated_nat (now t j : Nat) (al : Bool) (b : Block) : (gated now t j al b).nat = (b.natUpd t j (gateOn now al)).nat := by rw [gated_frame]

theorem gated_sf (now t j : Nat) (al : Bool) (b : Block) : (gated now t j al b).sf = b.sf := by rw [gated_frame]

theorem gated_natAt (now t j : Nat) (al : Bool) (b : Block) : (gated now t j al b).natAt t j = gateOn now al (b.natAt t j) := by
  unfold Block.natAt; rw [gated_nat]; exact natAt_natUpd _ _ _ _

theorem gated_nat_other (now t j : Nat) (al : Bool) (b : Block) {t' j' : Nat} (h : axNo t' j' ≠ axNo t j) : (gated now t j al b).natAt t' j' = b.natAt t' j' := by
  unfold Block.natAt; rw [gated_nat]; exact natAt_natUpd_other b _ h

theorem gated_ctxAt (now t j k : Nat) (al : Bool) (b : Block) : (gated now t j al b).ctxAt t k =
    if k ∈ ctxsOf b t j then rampStarts (b.ctxAt t k) else b.ctxAt t k := rampsArm_ctxAt _ _ _ _

/-- What switching changes: the axis and its request for release. -/
theorem switched_frame (t j : Nat) (b : Block) :
    switched t j b = { b with nat := (b.natUpd t j switchingOn).nat, sf := { b.sf with axes := (switched t j b).sf.axes } } := by
  unfold switched; split <;> rfl

theorem switched_natAt (t j : Nat) (b : Block) : (switched t j b).natAt t j = switchingOn (b.natAt t j) := by
  rw [switched_frame]; exact natAt_natUpd b t j switchingOn

theorem switched_nat_other {t' j' : Nat} (h : axNo t' j' ≠ axNo t j) : (switched t j b).natAt t' j' = b.natAt t' j' := by
  rw [switched_frame]; exact natAt_natUpd_other b switchingOn h

theorem switched_ctxAt (t j k : Nat) (b : Block) : (switched t j b).ctxAt t k = b.ctxAt t k := by rw [switched_frame]; rfl

theorem switched_precharge (h : (b.natAt t j).st = .precharge) : switched t j b =
    (b.natUpd t j fun _ => { b.natAt t j with pwm := .switching, st := .enabled, meas := { (b.natAt t j).meas with hPrev := [0, 0, 0] } }).sfAxUpd (axNo t j)
      fun x => { x with relReq := true } := by
  unfold switched; rw [if_pos h, natUpd_value]; simp only [switchingOn, h, if_true]

theorem switched_aligning (h : (b.natAt t j).st = .aligning) :
    switched t j b = b.natUpd t j fun _ => { b.natAt t j with pwm := .switching, meas := { (b.natAt t j).meas with hPrev := [0, 0, 0] } } := by
  have hne : (b.natAt t j).st ≠ .precharge := by simp [h]
  unfold switched; rw [if_neg hne, natUpd_value]; simp only [switchingOn, hne, if_false]

theorem switched_gated_sf (now t j : Nat) (al : Bool) (b : Block) : (switched t j (gated now t j al b)).sfAxAt (axNo t j) =
    if al then b.sfAxAt (axNo t j) else { b.sfAxAt (axNo t j) with relReq := true } := by
  have hat := gated_natAt now t j al b
  have hsf : (gated now t j al b).sfAxAt (axNo t j) = b.sfAxAt (axNo t j) := by unfold Block.sfAxAt; rw [gated_sf]
  cases al with
  | true => rw [switched_aligning (by rw [hat]; rfl)]; exact hsf
  | false => rw [switched_precharge (by rw [hat]; rfl), sfAxAt_sfAxUpd, sfAxAt_natUpd, hsf]; rfl

section
variable {r : Nat} {al : Bool} (hw : (b.natAt t j).wait = some (r, al)) (hr : r < now) (hs : isSample b now t (curGroup b t j) = true)
include hw hr hs

/-- With PRE_T 0, a valley at t_e itself starts switching at once. -/
theorem natGate_opens (ho : OpensAt b now t j now) : natGate now t j b = switched t j (gated now t j al b) := by
  have hat := gated_natAt now t j al b
  rw [natGate_due hw hr hs]
  refine precharge_opens (by rw [hat]; rfl) (by rw [hat]; cases al <;> simp [gateOn]) ?_
  rw [hat]; exact (opensAt_of_cfg (gated_cfg _ _ _ _ _) _).2 ho

theorem natGate_shut (ho : ¬OpensAt b now t j now) : natGate now t j b = gated now t j al b := by
  rw [natGate_due hw hr hs]
  refine precharge_waits (.inr (.inr fun h => ho ?_))
  rw [gated_natAt] at h; exact (opensAt_of_cfg (gated_cfg _ _ _ _ _) _).1 h

end

/-! ### The end of a disable -/

/-- A native axis at the end of its disable (R201). -/
def natOff (x : NatAx) : NatAx := { x with st := .disabled, gate := false, pwm := .off, hold := none, fromAlign := false, enPending := false }

/-- The module at the end of a disable, before an enable that was held acts. -/
def natEnded (now t j : Nat) (b : Block) : Block := axisDone now t j (b.natUpd t j natOff)

/-- The module at the end of a disable, when an enable that was held has acted (R14). -/
def disableEnded (now t j : Nat) (b : Block) : Block :=
  if (b.natAt t j).enPending then natEnable now t j (b.natAt t j).pendAlign (natEnded now t j b) else natEnded now t j b

/-- The frame of the end of a native disable (R201, R245, R534): native axes, channels, the safety records of axes and the event log. -/
def OnlyDisableEnd (b c : Block) : Prop :=
  c = { b with nat := c.nat, qd := c.qd, sf := { b.sf with axes := c.sf.axes }, hl := c.hl, nv := c.nv, bk := c.bk }

theorem OnlyDisableEnd.trans {b c d : Block} (h : OnlyDisableEnd b c) (h' : OnlyDisableEnd c d) : OnlyDisableEnd b d := by
  unfold OnlyDisableEnd at *; rw [h', h]

theorem OnlyDisableEnd.of_log {b c : Block} (h : OnlyLog b c) : OnlyDisableEnd b c := by
  unfold OnlyLog at h; unfold OnlyDisableEnd; rw [h]

theorem axisDone_onlyDisableEnd (now t j : Nat) (b : Block) : OnlyDisableEnd b (axisDone now t j b) := by
  have hq := forL_keeps (OnlyDisableEnd b) (chansOf b t j) (fun k => fun x =>
    x.qdUpd t k fun q => { q with fb := { q.fb with on := false, due := none }, posSrc := q.posL, spdSrc := q.spdL }) b (fun _ _ hc => hc.trans rfl) rfl
  have hs : ∀ (f : SfAx → SfAx) (c : Block), OnlyDisableEnd c (c.sfAxUpd (axNo t j) f) := fun _ _ => rfl
  unfold axisDone; dsimp only; split
  · exact ((hq.trans (hs _ _)).trans (hs _ _)).trans (.of_log (logEvent_log _ _ _ _ _))
  · exact hq.trans (hs _ _)

theorem natEnded_onlyDisableEnd (now t j : Nat) (b : Block) : OnlyDisableEnd b (natEnded now t j b) :=
  OnlyDisableEnd.trans (c := b.natUpd t j natOff) rfl (axisDone_onlyDisableEnd _ _ _ _)

theorem natDisabled_due {u : Int} (hst : (b.natAt t j).st = .disabling) (hw : (b.natAt t j).brakeWait = false) (he : (b.natAt t j).brakeEnd = none)
    (hu : 4 * ((b.natAt t j).disAt : Int) < u) :
    natDisabled now t j u b = disableEnded now t j b := if_pos (by simp [hst, hw, he, hu])

theorem natDisabled_waits {u : Int}
    (h : (b.natAt t j).st ≠ .disabling ∨ (b.natAt t j).brakeWait = true ∨ (b.natAt t j).brakeEnd ≠ none ∨ u ≤ 4 * ((b.natAt t j).disAt : Int)) :
    natDisabled now t j u b = b := by
  refine if_neg fun hc => ?_
  simp only [Bool.and_eq_true, decide_eq_true_eq, Bool.not_eq_true', Option.isNone_iff_eq_none] at hc
  obtain ⟨⟨⟨hst, hw⟩, he⟩, hu⟩ := hc
  rcases h with h | h | h | h
  · exact h hst
  · simp [hw] at h
  · exact h he
  · omega

/-- A disable that is not in progress, or waits for its brake, does not end at an update point. -/
theorem disableEnd_waits (h : (b.natAt t j).st ≠ .disabling ∨ (b.natAt t j).brakeWait = true ∨ (b.natAt t j).brakeEnd ≠ none) :
    atUpdatePoint now t j (fun u _ => natDisabled now t j u) b = b := by
  cases hp : updatePointAt b now t j with
  | none => exact atUpdatePoint_none hp
  | some p => rw [atUpdatePoint_some hp]; exact natDisabled_waits (by tauto)

theorem natEnded_natAt (now t j : Nat) (b : Block) : (natEnded now t j b).natAt t j = natOff (b.natAt t j) := by
  unfold natEnded Block.natAt; rw [(axisDone_sf now t j _).1]; exact natAt_natUpd _ _ _ _

theorem natEnded_disabled (now t j : Nat) (b : Block) : ((natEnded now t j b).natAt t j).st = .disabled := by rw [natEnded_natAt]; rfl

theorem natEnded_nat_other (now : Nat) {t' j' : Nat} (h : axNo t' j' ≠ axNo t j) : (natEnded now t j b).natAt t' j' = b.natAt t' j' := by
  unfold natEnded Block.natAt; rw [(axisDone_sf now t j _).1]; exact natAt_natUpd_other b natOff h

theorem natEnded_sf (now t j : Nat) (b : Block) : ((natEnded now t j b).sfAxAt (axNo t j)).stop = none ∧
    ((natEnded now t j b).sfAxAt (axNo t j)).react = none ∧ ((natEnded now t j b).sfAxAt (axNo t j)).grace = none := by
  obtain ⟨-, h⟩ := axisDone_sf now t j (b.natUpd t j natOff)
  unfold natEnded; rw [h]; exact ⟨rfl, rfl, rfl⟩

/-- What refuses an enable reads of the native axis its trips alone (R200). -/
theorem natRefused_natUpd (f : NatAx → NatAx) (h : ∀ x, (f x).trips = x.trips) : natRefused (b.natUpd t j f) t j = natRefused b t j := by
  have htrips : tripped ((b.natUpd t j f).natAt t j) = tripped (b.natAt t j) := by unfold tripped; rw [natAt_natUpd, h]
  unfold natRefused; dsimp only; rw [htrips]; rfl

/-- An ENABLE or ALIGN of a disabled axis is an update of that axis which leaves its trips. -/
theorem natEnable_upd {al : Bool} (hst : (b.natAt t j).st = .disabled) :
    natEnable now t j al b = b ∨ ∃ f : NatAx → NatAx, natEnable now t j al b = b.natUpd t j f ∧ ∀ x, (f x).trips = x.trips := by
  rw [natEnable_disabled hst]; split
  · exact .inl rfl
  · split
    · exact .inr ⟨_, rfl, fun _ => rfl⟩
    · exact .inr ⟨_, rfl, fun _ => rfl⟩

theorem natRefused_natEnable {al : Bool} (hst : (b.natAt t j).st = .disabled) : natRefused (natEnable now t j al b) t j = natRefused b t j := by
  obtain h | ⟨f, h, hf⟩ := natEnable_upd (now := now) (al := al) hst
  · rw [h]
  · rw [h, natRefused_natUpd f hf]

/-- An enable that was held is refused or waits for its sample instant (R14, R200). -/
theorem natEnable_held {al : Bool} (hst : (b.natAt t j).st = .disabled) (hw : (b.natAt t j).wait = none) :
    (natEnable now t j al b).natAt t j =
      if natRefused (natEnable now t j al b) t j then { b.natAt t j with enRefused := true } else { b.natAt t j with wait := some (now, al) } := by
  rw [natRefused_natEnable hst, natEnable_disabled hst, if_neg (by simp [hw])]
  split
  · exact natAt_natUpd _ _ _ _
  · exact natAt_natUpd _ _ _ _

/-- Whether or not an enable was held, the end of a disable is an update of the axis after `natEnded`. -/
theorem disableEnded_upd (now t j : Nat) (b : Block) : disableEnded now t j b = natEnded now t j b ∨ ∃ f, disableEnded now t j b = (natEnded now t j b).natUpd t j f := by
  unfold disableEnded; split
  · exact (natEnable_upd (natEnded_disabled now t j b)).imp_right fun ⟨f, h, _⟩ => ⟨f, h⟩
  · exact .inl rfl

theorem disableEnded_only (now t j : Nat) (b : Block) : OnlyDisableEnd b (disableEnded now t j b) := by
  obtain h | ⟨f, h⟩ := disableEnded_upd now t j b
  · rw [h]; exact natEnded_onlyDisableEnd _ _ _ _
  · rw [h]; exact (natEnded_onlyDisableEnd now t j b).trans rfl

theorem disableEnded_sfAxAt (now t j a : Nat) (b : Block) : (disableEnded now t j b).sfAxAt a = (natEnded now t j b).sfAxAt a := by
  obtain h | ⟨f, h⟩ := disableEnded_upd now t j b <;> rw [h]
  exact sfAxAt_natUpd _ _ _ _ _

theorem disableEnded_nat_other (now : Nat) {t' j' : Nat} (h : axNo t' j' ≠ axNo t j) : (disableEnded now t j b).natAt t' j' = b.natAt t' j' := by
  refine Eq.trans ?_ (natEnded_nat_other now h)
  obtain h' | ⟨f, h'⟩ := disableEnded_upd now t j b <;> rw [h']
  exact natAt_natUpd_other _ f h

theorem disableEnded_free (h : (b.natAt t j).enPending = false) : disableEnded now t j b = natEnded now t j b := if_neg (by simp [h])

theorem disableEnded_held (h : (b.natAt t j).enPending = true) (hw : (b.natAt t j).wait = none) : (disableEnded now t j b).natAt t j =
    if natRefused (disableEnded now t j b) t j then { natOff (b.natAt t j) with enRefused := true }
    else { natOff (b.natAt t j) with wait := some (now, (b.natAt t j).pendAlign) } := by
  have hat := natEnded_natAt now t j b
  rw [show disableEnded now t j b = natEnable now t j (b.natAt t j).pendAlign (natEnded now t j b) from if_pos h,
    natEnable_held (natEnded_disabled now t j b) (by rw [hat]; exact hw), hat]

/-! ### The end of an alignment -/

/-- The raw electrical angle at the end of an alignment (R202 step 3). -/
def alignAngle (t j : Nat) (b : Block) : Word :=
  BitVec.ofInt 32 (elecAngle (b.qdAt t (Fld.AX_COMM_QCH b.cfg t j)).rawL.toInt (Fld.AX_COMM_POLE_PAIRS b.cfg t j) (Fld.AX_COMM_CPR_CPR b.cfg t j))

/-- The module at the end of ALIGN_T, with the offset found (R202 step 3). -/
def alignFound (t j : Nat) (b : Block) : Block := b.natUpd t j fun x => { x with alignRes := -alignAngle t j b, aligned := true }

theorem natAlignEnd_due (hst : (b.natAt t j).st = .aligning) (hd : (b.natAt t j).te + Fld.AX_ALIGN_T_ALIGN_T b.cfg t j * 1000000 ≤ now) :
    natAlignEnd now t j b = natDown now t j false (alignFound t j b) := if_pos (by simp [hst, hd])

theorem natAlignEnd_waits (h : (b.natAt t j).st ≠ .aligning ∨ now < (b.natAt t j).te + Fld.AX_ALIGN_T_ALIGN_T b.cfg t j * 1000000) :
    natAlignEnd now t j b = b := if_neg (by rcases h with h | h <;> simp [h])

theorem alignFound_natAt (t j : Nat) (b : Block) : (alignFound t j b).natAt t j = { b.natAt t j with alignRes := -alignAngle t j b, aligned := true } := natAt_natUpd _ _ _ _

theorem alignFound_only (t j : Nat) (b : Block) : OnlyFaults b (alignFound t j b) := ⟨rfl, fun _ _ => rfl⟩

/-! ### The update point -/

theorem natUpdatePoint_none (h : updatePointAt b now t j = none) : natUpdatePoint now t j b = b := by simp only [natUpdatePoint, h]

theorem natUpdatePoint_some {p : Int × Int} (h : updatePointAt b now t j = some p) :
    natUpdatePoint now t j b = natDisabled now t j p.1 (natPrecharge t j p.1 p.2 (natTake now t j p.1 b)) := by simp only [natUpdatePoint, h]

/-- The end of precharge leaves registers, and the tile as live as it was. -/
theorem natPrecharge_kept (u v : Int) (b : Block) : (natPrecharge t j u v b).cfg = b.cfg ∧ tileLive (natPrecharge t j u v b) t = tileLive b t := by
  unfold natPrecharge; dsimp only; split
  · split <;> exact ⟨rfl, rfl⟩
  · exact ⟨rfl, rfl⟩

end

/-- Settles O13: gate-enable is `gated`, then `switched` where the same tick opens; a disable ends in `natEnded`, an alignment goes down as `natDown`,
and the update point is `natTake` before the commands of its tick. -/
theorem nativeSequence : Obligations.NativeSequence := by
  intro t j s x hl hx
  subst hx
  intro now a others opens zero
  have gate : ∀ {y}, natGate now t j s.b = y → Turns (.gateEnableAssert t j) s y := turns_onTile (exec_gateEnableAssert t j s) hl
  have pre : ∀ {y}, atUpdatePoint now t j (natPrecharge t j) s.b = y → Turns (.prechargeEnd t j) s y := turns_onTile (exec_prechargeEnd t j s) hl
  have ends : ∀ {y}, atUpdatePoint now t j (fun u _ => natDisabled now t j u) s.b = y → Turns (.axDisableComplete t j) s y :=
    turns_onTile (exec_axDisableComplete t j s) hl
  have apart : ∀ {t' : Fin 8} {j' : Fin 4}, ¬(t' = t ∧ j' = j) → axNo t' j' ≠ axNo t j := by unfold axNo; omega
  refine ⟨fun r al hw hr hs => ?_, fun h => gate (natGate_waits h), fun hp hst ho => pre ?_, fun hp hst ho => pre ?_, fun h => pre (precharge_waits h),
    fun p hp hst hbw hbe hlt => ?_, fun h => ends ?_, fun hst hd => ?_, fun h => turns_onTile (exec_alignComplete t j s) hl (natAlignEnd_waits h),
    fun h => turns_onTile (exec_updatePoint t j s) hl (natUpdatePoint_none h), fun p hp => ?_⟩
  -- gate-enable, without and with a valley that opens at t_e
  · by_cases ho : opens now
    · refine ⟨_, gate (natGate_opens hw hr hs ho), ?_, fun t' j' h => ?_, fun hno => absurd ho hno, fun _ => ?_, fun _ => ?_, fun c => ?_⟩
      · rw [switched_frame, gated_frame]
      · rw [switched_nat_other (apart h), gated_nat_other _ _ _ _ _ (apart h)]
      · rw [switched_natAt, gated_natAt]; cases al <;> rfl
      · exact switched_gated_sf _ _ _ _ _
      · rw [switched_ctxAt]; exact gated_ctxAt _ _ _ _ _ _
    · refine ⟨_, gate (natGate_shut hw hr hs ho), ?_, fun t' j' h => gated_nat_other _ _ _ _ _ (apart h), fun _ => ⟨gated_natAt _ _ _ _ _, gated_sf _ _ _ _ _⟩,
        fun h => absurd h ho, fun h => absurd h ho, fun c => gated_ctxAt _ _ _ _ _ _⟩
      rw [gated_frame]
  -- the end of a precharge, and switching of an alignment
  · exact (precharge_opens hp (.inl hst) ho).trans (switched_precharge hst)
  · exact (precharge_opens hp (.inr hst) ho).trans (switched_aligning hst)
  -- the end of a disable
  · obtain ⟨hstop, hreact, hgrace⟩ := natEnded_sf now t j s.b
    have hsf := disableEnded_sfAxAt now t j a s.b
    refine ⟨_, ends ((atUpdatePoint_some hp).trans (natDisabled_due hst hbw hbe hlt)), fun hfree => ?_, disableEnded_held,
      fun t' j' h => disableEnded_nat_other _ (apart h), hsf ▸ hstop, hsf ▸ hreact, hsf ▸ hgrace, disableEnded_only _ _ _ _⟩
    exact (congrArg (fun b => b.natAt t j) (disableEnded_free hfree)).trans (natEnded_natAt now t j s.b)
  · rcases h with h | h | h | h | ⟨p, hp, hle⟩
    · exact atUpdatePoint_none h
    · exact disableEnd_waits (.inl h)
    · exact disableEnd_waits (.inr (.inl h))
    · exact disableEnd_waits (.inr (.inr h))
    · rw [atUpdatePoint_some hp]; exact natDisabled_waits (.inr (.inr (.inr hle)))
  -- the end of an alignment
  · obtain ⟨-, hsf⟩ := natDown_sf_self now t j false (alignFound t j s.b)
    refine ⟨_, turns_onTile (exec_alignComplete t j s) hl (natAlignEnd_due hst hd), OnlyFaults.trans (alignFound_only t j s.b) (natDown_only _ _ _ _ _), fun t' j' h => ?_, ?_,
      by rw [hsf]; rfl⟩
    · exact (natDown_nat_other _ _ _ _ _ (apart h)).trans (natAt_natUpd_other _ _ (apart h))
    · refine (natDown_nat_self _ _ _ _ _).trans ?_
      simp only [alignFound_natAt, goingDown, hst, decide_true, Bool.or_true]; rfl
  -- the update point: what it takes, then what else is due at it
  · intro taken
    have htake : natUpdatePoint now t j s.b = natDisabled now t j p.1 (natPrecharge t j p.1 p.2 taken.b) := by
      rw [natUpdatePoint_some hp]; exact congrArg _ (congrArg _ (natUpd_value _ _ _ _))
    refine ⟨fun h1 h2 h3 => turns_onTile (exec_updatePoint t j s) hl ?_, _, turns_onTile (exec_prechargeEnd t j taken) hl (atUpdatePoint_some hp), ?_⟩
    · have hst : (taken.b.natAt t j).st = (s.b.natAt t j).st := by simp only [taken, natAt_natUpd]
      rw [htake, natPrecharge_waits (.inr (by rw [hst]; exact ⟨h1, h2⟩)), natDisabled_waits (.inl (by rw [hst]; exact h3))]
    · obtain ⟨hcfg, hlive⟩ := natPrecharge_kept (t := t) (j := j) p.1 p.2 taken.b
      refine (turns_onTile (exec_updatePoint t j s) hl htake).trans (Eq.symm ?_)
      refine turns_onTile (exec_axDisableComplete t j _) (hlive.trans hl) ?_
      exact atUpdatePoint_some ((updatePointAt_of_cfg hcfg now t j).trans hp)

end Sys2Proof.Proofs
end

section
/-! Power-stage trips of native axes (R16, R179 to R181, R199, R203 to R206, R673). -/

namespace Sys2Proof.Proofs

open Sys2Proof.Machine

/-! ### A trip of the power stage -/

/-- A native axis whose power stage is off with its trips on record (R199, R203). -/
def stageTripped (g : Trips → Trips) (x : NatAx) : NatAx := { x with trips := g x.trips, pwm := .off, gate := false }

section
variable (now t j : Nat) (g : Trips → Trips) (b : Block)

theorem stageTrip_only : OnlyFaults b (stageTrip now t j g b) :=
  have hstage : OnlyFaults b (b.natUpd t j (stageTripped g)) := ⟨rfl, fun _ _ => rfl⟩
  OnlyFaults.trans (OnlyFaults.trans hstage (axFault_only _ _ _ _ _)) (acqEvent_only _ _ _ _)

/-- After a trip the axis is as its stage went off; only an enable that waits may be gone besides (R16). -/
theorem stageTrip_natAt : (stageTrip now t j g b).natAt t j =
    { stageTripped g (b.natAt t j) with wait := ((stageTrip now t j g b).natAt t j).wait, enPending := ((stageTrip now t j g b).natAt t j).enPending
                                        enRefused := ((stageTrip now t j g b).natAt t j).enRefused } := by
  have hkept := axFault_nat now 1 t j (b.natUpd t j (stageTripped g)) t j
  rwa [natAt_natUpd] at hkept

end

section
variable {now t j : Nat} {b : Block}

/-- The fault of a tripped axis is recorded for the next evaluation (R206). -/
theorem stageTrip_fault (g : Trips → Trips) (hn : isNative b t j = true) (hd : axDisabled b t j = false) (hr : faultRuns b t j = false) :
    ((stageTrip now t j g b).sfAxAt (axNo t j)).fault = some (1, now) := by
  have hu := (slotTy_ne_of_native (b := b.natUpd t j (stageTripped g)) hn).1
  have hd' : axDisabled (b.natUpd t j (stageTripped g)) t j = false := (axDisabled_congr (c := b.natUpd t j (stageTripped g)) hn rfl (by rw [natAt_natUpd]; rfl)).trans hd
  exact axFault_cause now 1 t j _ hu hd' hr

/-- While gate-enable is inactive every PWM land of a native axis is at its off level (R199). -/
theorem pwmLand_gate_off (hon : tileOn b t = true) (hn : isNative b t j = true) (hg : (b.natAt t j).gate = false) (k : Nat) (hs : Bool) (x : Int) :
    pwmLand b now t j k hs x = landOf (!if hs = true then Fld.AX_PWM_CFG_POL_H b.cfg t j else Fld.AX_PWM_CFG_POL_L b.cfg t j) := by
  simp [pwmLand, tileLand, landAct, hon, hn, hg]

/-- What a trip at `now` that leaves the trips `y` makes of a module. -/
def TripLeaves (now t j : Nat) (b c : Block) (y : Trips) : Prop :=
  OnlyFaults b c ∧
  c.natAt t j = { b.natAt t j with trips := y, pwm := .off, gate := false, wait := (c.natAt t j).wait, enPending := (c.natAt t j).enPending, enRefused := (c.natAt t j).enRefused } ∧
  (axDisabled b t j = false → faultRuns b t j = false → (c.sfAxAt (axNo t j)).fault = some (1, now)) ∧
  ∀ now k hs x, pwmLand c now t j k hs x = landOf (!if hs = true then Fld.AX_PWM_CFG_POL_H b.cfg t j else Fld.AX_PWM_CFG_POL_L b.cfg t j)

theorem stageTrip_leaves (g : Trips → Trips) (hl : tileLive b t = true) (hn : isNative b t j = true) :
    TripLeaves now t j b (stageTrip now t j g b) (g (b.natAt t j).trips) := by
  have honly := stageTrip_only now t j g b
  have hnat := stageTrip_natAt now t j g b
  refine ⟨honly, hnat, stageTrip_fault g hn, fun now' k hs x => ?_⟩
  have hcfg : (stageTrip now t j g b).cfg = b.cfg := by rw [honly.1]
  have hon : tileOn (stageTrip now t j g b) t = true := by rw [honly.1]; exact tileLive_on b t hl
  rw [pwmLand_gate_off hon ((isNative_of_cfg hcfg t j).trans hn) (by rw [hnat]; rfl), hcfg]

/-! ### When each trip happens -/

theorem dfTrip_trips (hn : isNative b t j = true) (h : (b.natAt t j).trips.df = false) :
    dfTrip now t j b = stageTrip now t j (fun r => { r with df := true, dfLevel := true }) b := by simp [dfTrip, hn, h]

theorem dfTrip_stands (h : ¬isNative b t j = true ∨ (b.natAt t j).trips.df = true) : dfTrip now t j b = b :=
  if_neg (by rcases h with h | h <;> simp [h])

theorem ocTrip_trips (hn : isNative b t j = true) (h : (b.natAt t j).trips.oc = false) (hg : (b.natAt t j).gate = true) :
    ocTrip now t j b = stageTrip now t j (fun r => { r with oc := true }) b := by simp [ocTrip, hn, h, hg]

theorem ocTrip_stands (h : ¬isNative b t j = true ∨ (b.natAt t j).trips.oc = true ∨ (b.natAt t j).gate = false) : ocTrip now t j b = b :=
  if_neg (by rcases h with h | h | h <;> simp [h])

theorem stuckTrip_trips (hn : isNative b t j = true) (h : (b.natAt t j).trips.sdStuck = false) :
    stuckTrip now t j b = stageTrip now t j (fun r => { r with sdStuck := true }) b := by simp [stuckTrip, hn, h]

theorem stuckTrip_stands (h : ¬isNative b t j = true ∨ (b.natAt t j).trips.sdStuck = true) : stuckTrip now t j b = b :=
  if_neg (by rcases h with h | h <;> simp [h])

/-- The sum of the phase currents is watched, and has stood above SUM_LIM for SUM_N frames (R179). -/
def SumOver (b : Block) (t j : Nat) : Prop :=
  Fld.AX_SD_CFG_IN2_VBUS b.cfg t j = false ∧ Fld.AX_SUM_LIMIT b.cfg t j ≠ 0 ∧ max 1 (Fld.AX_SD_CFG_SUM_N b.cfg t j) ≤ (b.natAt t j).trips.sumRun

theorem sumCheck_trips (hn : isNative b t j = true) (h : (b.natAt t j).trips.sum = false) (ho : SumOver b t j) :
    sumCheck now t j b = stageTrip now t j (fun r => { r with sum := true }) b := by
  obtain ⟨hin, hlim, hrun⟩ := ho
  exact if_pos (by simp only [hn, hin, hlim, hrun, h, ne_eq, not_false_eq_true, decide_true, Bool.not_false, Bool.and_self])

theorem sumCheck_stands (h : ¬isNative b t j = true ∨ (b.natAt t j).trips.sum = true ∨ ¬SumOver b t j) : sumCheck now t j b = b := by
  refine if_neg fun hc => ?_
  simp only [Bool.and_eq_true, Bool.not_eq_true', decide_eq_true_eq] at hc
  obtain ⟨⟨⟨⟨hn, hin⟩, hlim⟩, hrun⟩, hs⟩ := hc
  rcases h with h | h | h
  · exact h hn
  · simp [hs] at h
  · exact h ⟨hin, hlim, hrun⟩

end

/-- Settles O14: each command is its trip under its enabling state, and every trip is one `stageTrip`. -/
theorem stageTrips : Obligations.StageTrips := by
  intro t j s x hl hx
  subst hx
  intro native trip sumOver
  have trips : ∀ {c : Instr} {f : Nat → Block → Block} (g : Trips → Trips), exec c s = onTile t f s → native →
      f s.clk.lattice s.b = stageTrip s.clk.lattice t j g s.b → trip c (g (s.b.natAt t j).trips) := fun g hc hn hf =>
    gives_onTile hc hl (by dsimp only; rw [hf]; exact stageTrip_leaves g hl hn)
  refine ⟨fun hn h => trips _ (exec_dfTrip t j s) hn (dfTrip_trips hn h), fun hn h hg => trips _ (exec_ocTrip t j s) hn (ocTrip_trips hn h hg),
    fun hn h => trips _ (exec_sdStuck t j s) hn (stuckTrip_trips hn h), fun hn h ho => trips _ (exec_sumTrip t j s) hn (sumCheck_trips hn h ho),
    fun h => turns_onTile (exec_dfTrip t j s) hl (dfTrip_stands h), fun h => turns_onTile (exec_ocTrip t j s) hl (ocTrip_stands h),
    fun h => turns_onTile (exec_sdStuck t j s) hl (stuckTrip_stands h), fun h => turns_onTile (exec_sumTrip t j s) hl (sumCheck_stands h)⟩

end Sys2Proof.Proofs
end

section
/-! Edge calibration, clearing of trips and the hold current of steppers (R189, R190, R205, R211, R586). -/

namespace Sys2Proof.Proofs

open Sys2Proof.Machine

/-! ### The edge timer -/

/-- The wear of edge timers is bit 7 of HL_REPLACE: what is newly set of it (R586). -/
theorem newCause_edges (r : Nat) : (BitVec.ofNat 32 128 &&& ~~~BitVec.ofNat 32 r).toNat = if r.testBit 7 then 0 else 2 ^ 7 := by
  have hbit : (~~~BitVec.ofNat 32 r).getLsbD 7 = !r.testBit 7 := by
    rw [BitVec.getLsbD_not, BitVec.getLsbD_ofNat]; rfl
  rw [show BitVec.ofNat 32 128 = BitVec.twoPow 32 7 from rfl, BitVec.and_comm, BitVec.and_twoPow, hbit]
  cases r.testBit 7 <;> rfl

/-- With what is newly set of it the bit is set. -/
theorem testBit_newCause (r : Nat) : (r + (BitVec.ofNat 32 128 &&& ~~~BitVec.ofNat 32 r).toNat).testBit 7 = true := by
  rw [newCause_edges]
  cases h : r.testBit 7 with
  | true => exact h
  | false => rw [if_neg (by simp), Nat.add_comm, Nat.testBit_two_pow_add_eq, h]; rfl

section
variable (now t j : Nat) (b : Block)

/-- The module with EDGE_COARSE set and counted for the tile, before the log and the causes of replacement hear of it (R190). -/
def coarsened : Block := { b.natUpd t j (fun a => { a with edgeCoarse := true }) with hl := { b.hl with edges := tabSet 0 b.hl.edges t (tabGet 0 b.hl.edges t + 1) } }

/-- The module with that event logged. -/
def coarseLogged : Block := logEvent now 0x0036 (dieTile t) (t * 256 + j) (coarsened t j b)

/-- What a cause of replacement changes of the module. -/
theorem setReplace_frame (m : Nat) : ∃ hl nv bk, setReplace now m b = { b with hl := hl, nv := nv, bk := bk } ∧ hl.edges = b.hl.edges ∧
    nv.replace = b.nv.replace + (BitVec.ofNat 32 m &&& ~~~BitVec.ofNat 32 b.nv.replace).toNat := by
  unfold setReplace; dsimp only; split
  · next h => exact ⟨b.hl, b.nv, b.bk, rfl, rfl, by rw [h]; rfl⟩
  · generalize hc : { b with nv := { b.nv with replace := b.nv.replace + (BitVec.ofNat 32 m &&& ~~~BitVec.ofNat 32 b.nv.replace).toNat } } = c
    obtain ⟨hl, nv, bk, h, -, hedges, hreplace⟩ := logEvent_frame now 0x0037 0 (BitVec.ofNat 32 m &&& ~~~BitVec.ofNat 32 b.nv.replace).toNat c
    refine ⟨hl, nv, bk, ?_, ?_, ?_⟩
    · rw [h, ← hc]
    · rw [hedges, ← hc]
    · rw [hreplace, ← hc]

variable {now t j b}

theorem natCoarse_due (hn : isNative b t j = true) (hc : (b.natAt t j).edgeCoarse = false) (hd : (b.natAt t j).lastCal + 1000000 ≤ now) :
    natCoarse now t j b = if 3 ≤ tabGet 0 b.hl.edges t + 1 then setReplace now 128 (coarseLogged now t j b) else coarseLogged now t j b := by
  unfold natCoarse; dsimp only
  rw [if_pos (by simp [hn, hc, hd])]; rfl

theorem natCoarse_waits (h : isNative b t j = false ∨ (b.natAt t j).edgeCoarse = true ∨ now < (b.natAt t j).lastCal + 1000000) : natCoarse now t j b = b :=
  if_neg (by rcases h with h | h | h <;> simp [h])

variable (now t j b)

theorem coarseLogged_frame : ∃ hl nv bk, coarseLogged now t j b = { b.natUpd t j (fun a => { a with edgeCoarse := true }) with hl := hl, nv := nv, bk := bk } ∧
    tabGet 0 hl.edges t = tabGet 0 b.hl.edges t + 1 ∧ nv.replace = b.nv.replace := by
  obtain ⟨hl, nv, bk, h, -, hedges, hreplace⟩ := logEvent_frame now 0x0036 (dieTile t) (t * 256 + j) (coarsened t j b)
  exact ⟨hl, nv, bk, h, by rw [hedges]; exact tabGet_set_same 0 b.hl.edges t (tabGet 0 b.hl.edges t + 1), hreplace⟩

end

/-- One more coarse edge of a tile: the axis, the count, and from the third on the cause of replacement (R190, R586). -/
theorem natCoarse_counts {now t j : Nat} {b : Block} (hn : isNative b t j = true) (hc : (b.natAt t j).edgeCoarse = false) (hd : (b.natAt t j).lastCal + 1000000 ≤ now) :
    let c := natCoarse now t j b
    c = { b.natUpd t j (fun _ => { b.natAt t j with edgeCoarse := true }) with hl := c.hl, nv := c.nv, bk := c.bk } ∧
      tabGet 0 c.hl.edges t = tabGet 0 b.hl.edges t + 1 ∧ (2 ≤ tabGet 0 b.hl.edges t → c.nv.replace.testBit 7 = true) ∧
      (tabGet 0 b.hl.edges t < 2 → c.nv.replace = b.nv.replace) := by
  obtain ⟨hl, nv, bk, hlog, hedges, hreplace⟩ := coarseLogged_frame now t j b
  rw [natUpd_value] at hlog
  dsimp only
  rw [natCoarse_due hn hc hd]
  split
  · next hthird =>
    obtain ⟨hl', nv', bk', hset, hedges', hreplace'⟩ := setReplace_frame now (coarseLogged now t j b) 128
    rw [hset, hedges', hreplace', hlog]
    exact ⟨rfl, hedges, fun _ => testBit_newCause _, fun h => absurd h (by omega)⟩
  · next hfew =>
    rw [hlog]
    exact ⟨rfl, hedges, fun h => absurd h (by omega), fun _ => hreplace⟩

/-! ### The bits of AX_TRIP -/

/-- The mask of the causes that are present, bit by bit (R205). -/
theorem bit_tripCauses (t j : Nat) (b : Block) : let x := b.natAt t j
    let c := tripCauses b t j
    bit c 1 = x.trips.dfLevel ∧ bit c 2 = decide (Fld.AX_OC_LIMIT b.cfg t j ≤ x.trips.ocMag) ∧
      bit c 3 = (decide (Fld.AX_SUM_LIMIT b.cfg t j ≠ 0) && decide (Fld.AX_SUM_LIMIT b.cfg t j < x.trips.sum_.natAbs)) ∧ bit c 4 = sdIsStuck x := by
  have hflags : ∀ p q r s : Bool, bit (flag p 1 + flag q 2 + flag r 3 + flag s 4) 1 = p ∧ bit (flag p 1 + flag q 2 + flag r 3 + flag s 4) 2 = q ∧
      bit (flag p 1 + flag q 2 + flag r 3 + flag s 4) 3 = r ∧ bit (flag p 1 + flag q 2 + flag r 3 + flag s 4) 4 = s := by decide
  exact hflags _ _ _ _

/-- Each written bit whose cause is absent is cleared (R205). -/
theorem tripClear_eq (t j : Nat) (m : Word) (b : Block) : tripClear t j m.toNat b = b.natUpd t j fun _ =>
    let x := b.natAt t j
    let lim := Fld.AX_SUM_LIMIT b.cfg t j
    { x with trips := { x.trips with
        df := x.trips.df && !(m.getLsbD 1 && !x.trips.dfLevel)
        oc := x.trips.oc && !(m.getLsbD 2 && decide (x.trips.ocMag < Fld.AX_OC_LIMIT b.cfg t j))
        sum := x.trips.sum && !(m.getLsbD 3 && (decide (lim = 0) || decide (x.trips.sum_.natAbs ≤ lim)))
        sdStuck := x.trips.sdStuck && !(m.getLsbD 4 && !sdIsStuck x) } } := by
  obtain ⟨hdf, hoc, hsum, hsd⟩ := bit_tripCauses t j b
  refine (natUpd_value _ _ _ _).trans (natUpd_congr _ _ _ _ _ ?_)
  have hlow : (!decide (Fld.AX_OC_LIMIT b.cfg t j ≤ (b.natAt t j).trips.ocMag)) = decide ((b.natAt t j).trips.ocMag < Fld.AX_OC_LIMIT b.cfg t j) := by
    rw [← decide_not]; exact decide_eq_decide.2 Nat.not_le
  have hin : (!(decide (Fld.AX_SUM_LIMIT b.cfg t j ≠ 0) && decide (Fld.AX_SUM_LIMIT b.cfg t j < (b.natAt t j).trips.sum_.natAbs))) =
      (decide (Fld.AX_SUM_LIMIT b.cfg t j = 0) || decide ((b.natAt t j).trips.sum_.natAbs ≤ Fld.AX_SUM_LIMIT b.cfg t j)) := by
    rw [Bool.not_and, ← decide_not, ← decide_not]; simp only [ne_eq, not_not, Nat.not_lt]
  simp only [hdf, hoc, hsum, hsd, hlow, hin, bit_toNat]

/-! ### The hold current -/

section
variable {now t j : Nat} {b : Block}

theorem stepperHold_nstep (hj : j < 4) (h : slotTy b t j = .nstep) : stepperHold now t j b = b.natUpd t j fun _ =>
    { b.natAt t j with step := { (b.natAt t j).step with
        holding := decide ((b.natAt t j).step.lastMove + Fld.AX_STEP_HOLD_HOLD_T b.cfg t j * 1000000 ≤ now) } } :=
  (if_pos (by simp [hj, h])).trans (natUpd_value _ _ _ _)

theorem stepperHold_other (h : slotTy b t j ≠ .nstep) : stepperHold now t j b = b := if_neg (by simp [h])

end

/-- Settles O15: the edge timer by `natCoarse` and what its log entries leave, AX_TRIP by the bits of `tripCauses`. -/
theorem edgeAndTripClear : Obligations.EdgeAndTripClear := by
  intro t j s x hl hx
  subst hx
  refine ⟨turns_onTile (exec_edgeCalibration t j s) hl (natUpd_value _ _ _ _), fun hn hc hd => gives_onTile (exec_edgeCoarse t j s) hl ?_,
    fun h => turns_onTile (exec_edgeCoarse t j s) hl (natCoarse_waits h), fun m => turns_onTile (exec_axTripClear t j m s) hl (tripClear_eq _ _ _ _),
    fun h => turns_onTile (exec_stepperHold t j s) hl (stepperHold_nstep j.isLt h), fun h => turns_onTile (exec_stepperHold t j s) hl (stepperHold_other h)⟩
  exact natCoarse_counts hn hc hd

end Sys2Proof.Proofs
end

section
/-! What the end of a fault reaction and the removal of a permissive leave besides (R207, R512, R521, R534). -/

namespace Sys2Proof.Proofs

open Sys2Proof.Machine

@[simp] theorem natAt_sfAxUpd (b : Block) (a t j : Nat) (f : SfAx → SfAx) : (b.sfAxUpd a f).natAt t j = b.natAt t j := rfl

/-! ### The two bits that assert nFAULT until restart -/

theorem nfault_of_faults {b c : Block} (h : OnlyFaults b c) : c.sf.stuck = b.sf.stuck ∧ c.sf.btFailed = b.sf.btFailed := by rw [h.1]; exact ⟨rfl, rfl⟩

theorem nfault_of_log {b c : Block} (h : OnlyLog b c) : c.sf.stuck = b.sf.stuck ∧ c.sf.btFailed = b.sf.btFailed := by rw [h]; exact ⟨rfl, rfl⟩

theorem nfault_axisDone (now t j : Nat) (b : Block) : (axisDone now t j b).sf.stuck = b.sf.stuck ∧ (axisDone now t j b).sf.btFailed = b.sf.btFailed := by
  rw [axisDone_onlyDisableEnd now t j b]; exact ⟨rfl, rfl⟩

theorem mastersLost_only (now t j : Nat) (b : Block) : OnlyFaults b (mastersLost now t j b) :=
  forL_keeps (OnlyFaults b) _ _ b (fun _ c hc => OnlyFaults.trans (OnlyFaults.trans hc (show OnlyFaults c (c.followUpd _ _ _) from ⟨rfl, fun _ _ => rfl⟩)) (axFault_only _ _ _ _ _))
    (OnlyFaults.refl b)

/-! ### The removal of a permissive -/

section
variable {now a : Nat} {b : Block}

variable (now a b) in
theorem permitOff_btFailed : (permitOff now a b).sf.btFailed = b.sf.btFailed := by
  rw [permitOff_eq]; dsimp only; split
  · split
    · exact (nfault_of_faults (axFault_only _ _ _ _ _)).2
    · split <;> rfl
  · rfl

/-- A land that reads active although gate-enable has gone is found stuck (R512). -/
theorem permitOff_stuck (hn : isNative b (a / 16) (a % 16) = true) (h : b.genStuck.contains (4 * (a / 16) + a % 16) = true) : (permitOff now a b).sf.stuck = true := by
  have hreads : genReads ((b.sfAxUpd a permitGone).natUpd (a / 16) (a % 16) stageOff) (a / 16) (a % 16) = true := by
    unfold genReads; rw [natAt_natUpd]; exact (Bool.and_true _).trans h
  rw [permitOff_eq, if_pos hn]; dsimp only
  rw [if_pos hreads]
  exact (nfault_of_faults (axFault_only _ _ _ _ _)).1

/-- Any other land, of an axis that had the permissive, passes the STO test (R521). -/
theorem permitOff_passes (hn : isNative b (a / 16) (a % 16) = true) (h : b.genStuck.contains (4 * (a / 16) + a % 16) = false) (hp : (b.sfAxAt a).permit = true) :
    ((permitOff now a b).sfAxAt a).stoPass = some now ∧ ((permitOff now a b).sfAxAt a).stoDue = false := by
  have hreads : genReads ((b.sfAxUpd a permitGone).natUpd (a / 16) (a % 16) stageOff) (a / 16) (a % 16) = false := by
    unfold genReads; rw [show ∀ c : Block, ((c.sfAxUpd a permitGone).natUpd (a / 16) (a % 16) stageOff).genStuck = c.genStuck from fun _ => rfl, h]; rfl
  rw [permitOff_eq, if_pos hn]; dsimp only
  rw [hreads, if_neg (by simp), if_pos hp, sfAxAt_sfAxUpd]
  exact ⟨rfl, rfl⟩

/-! ### The end of a fault reaction -/

/-- An axis with FLT keeps its cause when a reaction ends, in grace mode too (R534). -/
theorem axisDone_cause {t j : Nat} {c : Block} (h : (c.sfAxAt (axNo t j)).flt = true) : ((axisDone now t j c).sfAxAt (axNo t j)).cause = (c.sfAxAt (axNo t j)).cause := by
  have hsf := forL_keeps (fun d => d.sf = c.sf) (chansOf c t j) (fun k => fun x =>
    x.qdUpd t k fun q => { q with fb := { q.fb with on := false, due := none }, posSrc := q.posL, spdSrc := q.spdL }) c (fun _ _ h => h) rfl
  unfold axisDone; dsimp only
  generalize forL (chansOf c t j) _ c = d at hsf ⊢
  have hd : d.sfAxAt (axNo t j) = c.sfAxAt (axNo t j) := by unfold Block.sfAxAt; rw [hsf]
  have hlog : ∀ n e, ((logEvent now 0x0014 0 n e).sfAxAt (axNo t j)) = e.sfAxAt (axNo t j) := fun n e => by
    unfold Block.sfAxAt; rw [logEvent_log now 0x0014 0 n e]
  split
  · simp only [hlog, sfAxAt_sfAxUpd, hd, h, if_true]
  · simp only [sfAxAt_sfAxUpd, hd]

/-- A native axis as its fault reaction ends. -/
def holdOver (n : NatAx) : NatAx := { n with st := .sto, hold := none, fromAlign := false, brakeWait := false, brakeEnd := none }

variable (now a b) in
theorem faultEnd_eq : faultEnd now a b = axisDone now (a / 16) (a % 16) (permitOff now a (b.natUpd (a / 16) (a % 16) holdOver)) := rfl

theorem faultEnd_cause (h : (b.sfAxAt a).flt = true) : ((faultEnd now a b).sfAxAt a).cause = (b.sfAxAt a).cause := by
  have hx := permitOff_sf now a (b.natUpd (a / 16) (a % 16) holdOver)
  rw [sfAxAt_natUpd] at hx
  have hflt : ((permitOff now a (b.natUpd (a / 16) (a % 16) holdOver)).sfAxAt (axNo (a / 16) (a % 16))).flt = true := by rw [axNo_split, hx]; exact h
  have hdone := axisDone_cause (now := now) hflt
  rw [axNo_split] at hdone
  rw [faultEnd_eq, hdone, hx]; rfl

variable (now) in
theorem faultEnd_hold (hn : isNative b (a / 16) (a % 16) = true) : (natOf (faultEnd now a b) a).hold = none := by
  have hnat : natOf (faultEnd now a b) a = natOf (permitOff now a (b.natUpd (a / 16) (a % 16) holdOver)) a := by
    unfold natOf Block.natAt; rw [faultEnd_eq, (axisDone_sf now (a / 16) (a % 16) _).1]
  rw [hnat, permitOff_nat now a (b.natUpd (a / 16) (a % 16) holdOver) hn, natOf_natUpd]
  rfl

theorem faultEnd_stuck (hn : isNative b (a / 16) (a % 16) = true) (h : b.genStuck.contains (4 * (a / 16) + a % 16) = true) : (faultEnd now a b).sf.stuck = true := by
  rw [faultEnd_eq, (nfault_axisDone _ _ _ _).1]
  exact permitOff_stuck (b := b.natUpd (a / 16) (a % 16) holdOver) hn h

variable (now a b) in
theorem faultEnd_btFailed : (faultEnd now a b).sf.btFailed = b.sf.btFailed := by
  rw [faultEnd_eq, (nfault_axisDone _ _ _ _).2, permitOff_btFailed]; rfl

theorem faultEnd_passes (hn : isNative b (a / 16) (a % 16) = true) (h : b.genStuck.contains (4 * (a / 16) + a % 16) = false) (hp : (b.sfAxAt a).permit = true) :
    ((faultEnd now a b).sfAxAt a).stoPass = some now ∧ ((faultEnd now a b).sfAxAt a).stoDue = false := by
  have hpass := permitOff_passes (now := now) (b := b.natUpd (a / 16) (a % 16) holdOver) hn h hp
  have hdone := (axisDone_sf now (a / 16) (a % 16) (permitOff now a (b.natUpd (a / 16) (a % 16) holdOver))).2
  rw [axNo_split] at hdone
  rw [faultEnd_eq, hdone]
  exact hpass

end

/-! ### FAULT_HOLD_END -/

section
variable {now a : Nat} {b : Block}

theorem permitDue_waits (h : ∀ e, (b.sfAxAt a).rmAt = some e → now < e) : permitDue now a b = b := by
  unfold permitDue; split
  · next e he => exact if_neg (Nat.not_le.2 (h e he))
  · rfl

theorem permitDue_holding {e : Nat} (he : (b.sfAxAt a).rmAt = some e) (hle : e ≤ now) (hn : isNative b (a / 16) (a % 16) = true) (hst : (natOf b a).st = .faultHold) :
    permitDue now a b = faultEnd now a b := by
  change (b.natAt (a / 16) (a % 16)).st = .faultHold at hst
  simp [permitDue, he, hle, hn, hst]

theorem permitDue_other {e : Nat} (he : (b.sfAxAt a).rmAt = some e) (hle : e ≤ now) (hst : (natOf b a).st ≠ .faultHold) : permitDue now a b = permitOff now a b := by
  change (b.natAt (a / 16) (a % 16)).st ≠ .faultHold at hst
  simp [permitDue, he, hle, hst]

/-- What the removal of a permissive that is due leaves of a native axis (R207, R512, R521, R524). -/
structure Removed (now a : Nat) (b c : Block) : Prop where
  permit : (c.sfAxAt a).permit = false
  rmAt : (c.sfAxAt a).rmAt = none
  gate : (natOf c a).gate = false
  pwm : (natOf c a).pwm = .off
  stuck : b.genStuck.contains (4 * (a / 16) + a % 16) = true → c.sf.stuck = true
  passes : b.genStuck.contains (4 * (a / 16) + a % 16) = false → (b.sfAxAt a).permit = true → (c.sfAxAt a).stoPass = some now ∧ (c.sfAxAt a).stoDue = false
  held : (natOf b a).st = .faultHold → (natOf c a).st = .sto ∧ (natOf c a).hold = none ∧ (c.sfAxAt a).react = none
  other : (natOf b a).st ≠ .faultHold → (natOf c a).st = (natOf b a).st ∧ (c.sfAxAt a).react = (b.sfAxAt a).react

theorem permitDue_removes {e : Nat} (he : (b.sfAxAt a).rmAt = some e) (hle : e ≤ now) (hn : isNative b (a / 16) (a % 16) = true) : Removed now a b (permitDue now a b) := by
  by_cases hst : (natOf b a).st = .faultHold
  · have hsf := faultEnd_sf now a b
    obtain ⟨hsto, hgate, hpwm⟩ := faultEnd_nat now a b hn
    rw [permitDue_holding he hle hn hst]
    exact ⟨by rw [hsf]; rfl, by rw [hsf]; rfl, hgate, hpwm, faultEnd_stuck hn, faultEnd_passes hn, fun _ => ⟨hsto, faultEnd_hold now hn, by rw [hsf]⟩, fun h => absurd hst h⟩
  · have hsf := permitOff_sf now a b
    have hnat := permitOff_nat now a b hn
    rw [permitDue_other he hle hst]
    exact ⟨by rw [hsf]; rfl, by rw [hsf]; rfl, by rw [hnat]; rfl, by rw [hnat]; rfl, permitOff_stuck hn, permitOff_passes hn, fun h => absurd h hst, fun _ =>
      ⟨by rw [hnat]; rfl, by rw [hsf]; rfl⟩⟩

end

end Sys2Proof.Proofs
end

section
/-! The fault reaction of an axis in use, for any cause (R207, R517, R520, R529). -/

namespace Sys2Proof.Proofs

open Sys2Proof.Machine

/-- The axis is in use, not disabled, and no fault reaction of it runs. -/
structure Live (b : Block) (a : Nat) : Prop where
  used : slotTy b (a / 16) (a % 16) ≠ .unused
  enabled : axDisabled b (a / 16) (a % 16) = false
  react : (b.sfAxAt a).react = none

/-! ### A reaction begins -/

/-- The safety record of an axis as its fault reaction for `cause` begins; for a zone, cause 0, it is `reactBegins`. -/
def reactionBegins (now cause : Nat) (x : SfAx) : SfAx :=
  { x with react := some now, fault := none, stop := none, relReq := false, brkReq := none, stoTest := none
           flt := x.flt || decide (cause ≠ 0), cause := if cause = 0 then x.cause else if x.flt then x.cause else cause }

section
variable (now cause a : Nat) (b : Block)

/-- The module as a fault reaction begins: it is logged, a brake test has ended, the tile and the followers react unless they did before. -/
def reactionReady : Block :=
  let c := logEvent now 0x0013 0 (a * 256 + cause) (btEnd (a / 16) (a % 16) 4 b)
  discardEnable (a / 16) (a % 16) (if (b.sfAxAt a).fault.isNone then mastersLost now (a / 16) (a % 16) (tileFault now (a / 16) (a % 16) c) else c)

/-- The module with the reaction on record. -/
def reactionOnRecord : Block := (reactionReady now cause a b).sfAxUpd a (reactionBegins now cause)

theorem reactionReady_same : AllSame (btEnd (a / 16) (a % 16) 4 b) (reactionReady now cause a b) := by
  have hc := logEvent_same now 0x0013 0 (a * 256 + cause) (btEnd (a / 16) (a % 16) 4 b)
  unfold reactionReady; dsimp only; split
  · exact ((hc.trans (tileFault_same _ _ _ _)).trans (mastersLost_same _ _ _ _)).trans (discardEnable_same _ _ _)
  · exact hc.trans (discardEnable_same _ _ _)

theorem reactionOnRecord_cfg : (reactionOnRecord now cause a b).cfg = b.cfg :=
  (cfg_of_engine (reactionReady_same now cause a b).1 :).trans (cfg_of_engine (btEnd_beside' a 4 b).1)

theorem reactionOnRecord_btFailed : (reactionOnRecord now cause a b).sf.btFailed = b.sf.btFailed := by
  have hlog : (logEvent now 0x0013 0 (a * 256 + cause) (btEnd (a / 16) (a % 16) 4 b)).sf.btFailed = b.sf.btFailed :=
    (nfault_of_log (logEvent_log _ _ _ _ _)).2.trans (nfault_of_faults (btEnd_only _ _ _ _)).2
  show (reactionReady now cause a b).sf.btFailed = _
  unfold reactionReady; dsimp only
  rw [(nfault_of_faults (discardEnable_only _ _ _)).2]
  split
  · rw [(nfault_of_faults (mastersLost_only _ _ _ _)).2, (nfault_of_faults (tileFault_only _ _ _ _)).2, hlog]
  · exact hlog

/-- The record holds the reaction and its cause; a brake test has ended. -/
theorem reactionOnRecord_sf : ((reactionOnRecord now cause a b).sfAxAt a).bt.st = .idle ∧
    (reactionOnRecord now cause a b).sfAxAt a = { reactionBegins now cause (b.sfAxAt a) with bt := ((reactionOnRecord now cause a b).sfAxAt a).bt } := by
  obtain ⟨hbt, hidle, -⟩ := btEnd_axis (a / 16) (a % 16) 4 b
  rw [axNo_split] at hbt hidle
  have hready := sf_of_same (reactionReady_same now cause a b) a
  unfold reactionOnRecord
  rw [sfAxAt_sfAxUpd, hready]
  exact ⟨hidle, by rw [hbt]; rfl⟩

end

section
variable {now cause a : Nat} {b : Block}

/-- By the type of its axis a reaction goes on as that of a native or of a networked axis, or is the tile's alone. -/
theorem beginReact_live (h : Live b a) : beginReact now cause a b =
    match slotTy b (a / 16) (a % 16) with
    | .n3ph | .nstep => natReact now a (brakeTook a b) (reactionOnRecord now cause a b)
    | .networked => nxReact now a (reactionOnRecord now cause a b)
    | _ => reactionOnRecord now cause a b := by
  rw [← slotTy_of_cfg (reactionOnRecord_cfg now cause a b)]
  simp only [beginReact, h.used, h.enabled, h.react, if_false, Bool.false_eq_true, Option.isSome_none]
  rfl

theorem beginReact_native (h : Live b a) (hn : isNative b (a / 16) (a % 16) = true) :
    beginReact now cause a b = natReact now a (brakeTook a b) (reactionOnRecord now cause a b) := by
  rw [beginReact_live h]
  obtain hty | hty := slotTy_of_native hn <;> simp only [hty]

/-! ### What the rest of a reaction keeps -/

/-- What a reaction that runs keeps of a safety record: FLT with its cause, no stop, the brake test, STOP_TIMEOUT. -/
structure ReactionKeeps (x y : SfAx) : Prop where
  flt : x.flt = true → y.flt = true
  cause : x.flt = true → y.cause = x.cause
  stop : x.stop = none → y.stop = none
  bt : y.bt = x.bt
  stopTimeout : y.stopTimeout = x.stopTimeout

theorem ReactionKeeps.trans {x y z : SfAx} (h : ReactionKeeps x y) (h' : ReactionKeeps y z) : ReactionKeeps x z :=
  ⟨fun k => h'.flt (h.flt k), fun k => (h'.cause (h.flt k)).trans (h.cause k), fun k => h'.stop (h.stop k), h'.bt.trans h.bt, h'.stopTimeout.trans h.stopTimeout⟩

theorem ReactionKeeps.of_eq {x y : SfAx} (h : y.flt = x.flt ∧ y.cause = x.cause ∧ y.stop = x.stop ∧ y.bt = x.bt ∧ y.stopTimeout = x.stopTimeout) : ReactionKeeps x y := by
  obtain ⟨hflt, hcause, hstop, hbt, htimeout⟩ := h
  exact ⟨hflt.trans, fun _ => hcause, hstop.trans, hbt, htimeout⟩

theorem permitOff_keeps : ReactionKeeps (b.sfAxAt a) ((permitOff now a b).sfAxAt a) := by
  rw [permitOff_sf]; exact .of_eq ⟨rfl, rfl, rfl, rfl, rfl⟩

theorem faultEnd_keeps : ReactionKeeps (b.sfAxAt a) ((faultEnd now a b).sfAxAt a) := by
  have hsf := faultEnd_sf now a b
  exact ⟨fun h => by rw [hsf]; simp [h], faultEnd_cause, fun _ => by rw [hsf], by rw [hsf]; rfl, by rw [hsf]; rfl⟩

theorem brakeEngage_sf : (brakeEngage now a b).sfAxAt a = { b.sfAxAt a with brkCmd := false, brkOpen := false, relAt := none, engAt := some now } := sfAxAt_sfAxUpd _ _ _

theorem brakeEngage_keeps : ReactionKeeps (b.sfAxAt a) ((brakeEngage now a b).sfAxAt a) := by
  rw [brakeEngage_sf]; exact .of_eq ⟨rfl, rfl, rfl, rfl, rfl⟩

theorem removalSet_keeps (e : Nat) : ReactionKeeps (b.sfAxAt a) ((b.sfAxUpd a fun x => { x with rmAt := some e }).sfAxAt a) := by
  rw [sfAxAt_sfAxUpd]; exact .of_eq ⟨rfl, rfl, rfl, rfl, rfl⟩

theorem nxReact_unbraked (hb : brakeOf b a = none) : nxReact now a b = permitOff now a b := by simp only [nxReact, hb]

theorem nxReact_engaged (hb : brakeOf b a ≠ none) : nxReact now a b =
    if engNs (brakeEngage now a b) a = 0 then permitOff now a (brakeEngage now a b)
    else (brakeEngage now a b).sfAxUpd a fun x => { x with rmAt := some (now + engNs (brakeEngage now a b) a) } := by
  obtain ⟨p, hp⟩ := Option.ne_none_iff_exists'.1 hb
  simp only [nxReact, hp]

theorem nxReact_keeps : ReactionKeeps (b.sfAxAt a) ((nxReact now a b).sfAxAt a) := by
  by_cases hb : brakeOf b a = none
  · rw [nxReact_unbraked hb]; exact permitOff_keeps
  · rw [nxReact_engaged hb]; split
    · exact brakeEngage_keeps.trans permitOff_keeps
    · exact brakeEngage_keeps.trans (removalSet_keeps _)

/-! ### Native axes -/

variable (now a b) in
/-- A native axis in FAULT_HOLD with its brake commanded engaged: by the reaction, or before it by a lower cause (R529). -/
def braking (took : Bool) : Block := if took then heldFault now a b else brakedFault now a b

theorem heldFault_cfg : (heldFault now a b).cfg = b.cfg := by simp only [heldFault, natHold, acqEvent, natUpd_cfg, aqUpd_cfg]

theorem braking_cfg (took : Bool) : (braking now a b took).cfg = b.cfg := by
  cases took
  · exact brakedFault_cfg
  · exact heldFault_cfg

theorem braking_native (took : Bool) (hn : isNative b (a / 16) (a % 16) = true) : isNative (braking now a b took) (a / 16) (a % 16) = true :=
  (isNative_of_cfg (braking_cfg took) _ _).trans hn

theorem braking_true : braking now a b true = heldFault now a b := rfl

theorem braking_false : braking now a b false = brakedFault now a b := rfl

theorem braking_nat (took : Bool) : natOf (braking now a b took) a = natOf (heldFault now a b) a := by
  cases took
  · exact natOf_sfAxUpd (heldFault now a b) a a _
  · rfl

theorem braking_keeps (took : Bool) : ReactionKeeps (b.sfAxAt a) ((braking now a b took).sfAxAt a) := by
  cases took
  · rw [braking_false, brakedFault_sf]; exact .of_eq ⟨rfl, rfl, rfl, rfl, rfl⟩
  · rw [braking_true, heldFault_sf]; exact .of_eq ⟨rfl, rfl, rfl, rfl, rfl⟩

variable (now) in
/-- The tick from which the brake time counts: this one, or that at which a lower cause commanded the brake engaged (R529). -/
def brakeSince (took : Bool) (x : SfAx) : Nat := if took then x.engAt.getD now else now

theorem braking_engAt (took : Bool) : ((braking now a b took).sfAxAt a).engAt.getD now = brakeSince now took (b.sfAxAt a) := by
  cases took
  · rw [braking_false, brakedFault_sf]; rfl
  · rw [braking_true, heldFault_sf]; rfl

/-- With a brake a native axis is held until the engage time has passed, and goes to STO at once if it has (R207). -/
theorem natReact_engaged {took : Bool} (hb : brakeOf b a ≠ none) : natReact now a took b =
    if brakeSince now took (b.sfAxAt a) + engNs b a ≤ now then faultEnd now a (braking now a b took)
    else (braking now a b took).sfAxUpd a fun x => { x with rmAt := some (brakeSince now took (b.sfAxAt a) + engNs b a) } := by
  obtain ⟨p, hp⟩ := Option.ne_none_iff_exists'.1 hb
  have hheld : brakeOf (heldFault now a b) a = some p := (brakeOf_of_cfg heldFault_cfg a).trans hp
  have heq : natReact now a took b = match brakeOf (heldFault now a b) a with
      | none => faultEnd now a (heldFault now a b)
      | some _ =>
        if ((braking now a b took).sfAxAt a).engAt.getD now + engNs (braking now a b took) a ≤ now then faultEnd now a (braking now a b took)
        else (braking now a b took).sfAxUpd a fun x => { x with rmAt := some (((braking now a b took).sfAxAt a).engAt.getD now + engNs (braking now a b took) a) } := rfl
  rw [heq, hheld, braking_engAt, engNs_of_cfg (braking_cfg took)]

theorem natReact_keeps {took : Bool} : ReactionKeeps (b.sfAxAt a) ((natReact now a took b).sfAxAt a) := by
  by_cases hb : brakeOf b a = none
  · rw [natReact_unbraked hb, ← heldFault_sf (now := now)]; exact faultEnd_keeps
  · rw [natReact_engaged hb]; split
    · exact (braking_keeps took).trans faultEnd_keeps
    · exact (braking_keeps took).trans (removalSet_keeps _)

theorem sfAxUpd_btFailed (b : Block) (a : Nat) (f : SfAx → SfAx) : (b.sfAxUpd a f).sf.btFailed = b.sf.btFailed := rfl

theorem natReact_btFailed {took : Bool} : (natReact now a took b).sf.btFailed = b.sf.btFailed := by
  have hbraking : (braking now a b took).sf.btFailed = b.sf.btFailed := by cases took <;> rfl
  by_cases hb : brakeOf b a = none
  · rw [natReact_unbraked hb]; exact faultEnd_btFailed now a (heldFault now a b)
  · rw [natReact_engaged hb]; split
    · exact (faultEnd_btFailed _ _ _).trans hbraking
    · exact hbraking

theorem nxReact_btFailed : (nxReact now a b).sf.btFailed = b.sf.btFailed := by
  have hbrake : (brakeEngage now a b).sf.btFailed = b.sf.btFailed := sfAxUpd_btFailed _ _ _
  by_cases hb : brakeOf b a = none
  · rw [nxReact_unbraked hb]; exact permitOff_btFailed _ _ _
  · rw [nxReact_engaged hb]; split
    · exact (permitOff_btFailed _ _ _).trans hbrake
    · exact (sfAxUpd_btFailed _ _ _).trans hbrake

/-- A native axis whose reaction has ended: STO, no gate-enable, no references held, no permissive (R207). -/
def Stopped (b : Block) (a : Nat) : Prop :=
  (natOf b a).st = .sto ∧ (natOf b a).gate = false ∧ (natOf b a).hold = none ∧ (b.sfAxAt a).permit = false ∧ (b.sfAxAt a).react = none

theorem faultEnd_stopped (hn : isNative b (a / 16) (a % 16) = true) : Stopped (faultEnd now a b) a ∧ ((faultEnd now a b).sfAxAt a).brkCmd = (b.sfAxAt a).brkCmd := by
  obtain ⟨hsto, hgate, -⟩ := faultEnd_nat now a b hn
  have hsf := faultEnd_sf now a b
  exact ⟨⟨hsto, hgate, faultEnd_hold now hn, by rw [hsf]; rfl, by rw [hsf]⟩, by rw [hsf]; rfl⟩

/-! ### The whole reaction -/

theorem beginReact_keeps (h : Live b a) : ReactionKeeps ((reactionOnRecord now cause a b).sfAxAt a) ((beginReact now cause a b).sfAxAt a) := by
  rw [beginReact_live h]; split
  · exact natReact_keeps
  · exact natReact_keeps
  · exact nxReact_keeps
  · exact .of_eq ⟨rfl, rfl, rfl, rfl, rfl⟩

/-- No reaction touches BT_FAILED. -/
theorem beginReact_btFailed : (beginReact now cause a b).sf.btFailed = b.sf.btFailed := by
  by_cases h : Live b a
  · rw [beginReact_live h, ← reactionOnRecord_btFailed now cause a b]; split
    · exact natReact_btFailed
    · exact natReact_btFailed
    · exact nxReact_btFailed
    · rfl
  · unfold beginReact; dsimp only; split
    · rfl
    · next hu =>
      split
      · exact (nfault_of_faults (discardEnable_only (a / 16) (a % 16) (b.sfAxUpd a fun x => { x with fault := none, stop := none }))).2
      · next hd =>
        split
        · rfl
        · next hr => exact absurd ⟨hu, by simpa using hd, by simpa using hr⟩ h

/-- Every reaction ends a commanded stop and a brake test, and leaves STOP_TIMEOUT. -/
theorem beginReact_ends (h : Live b a) : ((beginReact now cause a b).sfAxAt a).stop = none ∧ ((beginReact now cause a b).sfAxAt a).bt.st = .idle ∧
    ((beginReact now cause a b).sfAxAt a).stopTimeout = (b.sfAxAt a).stopTimeout := by
  have hkeeps := beginReact_keeps (now := now) (cause := cause) h
  obtain ⟨hidle, hsf⟩ := reactionOnRecord_sf now cause a b
  exact ⟨hkeeps.stop (by rw [hsf]; rfl), by rw [hkeeps.bt]; exact hidle, hkeeps.stopTimeout.trans (by rw [hsf]; rfl)⟩

/-- A reaction that no zone caused sets FLT; a cause that stood before stands (R520). -/
theorem beginReact_latches (h : Live b a) (hc : cause ≠ 0) : ((beginReact now cause a b).sfAxAt a).flt = true ∧
    ((beginReact now cause a b).sfAxAt a).cause = if (b.sfAxAt a).flt = true then (b.sfAxAt a).cause else cause := by
  have hkeeps := beginReact_keeps (now := now) (cause := cause) h
  obtain ⟨-, hsf⟩ := reactionOnRecord_sf now cause a b
  have hflt : ((reactionOnRecord now cause a b).sfAxAt a).flt = true := by rw [hsf]; simp [reactionBegins, hc]
  exact ⟨hkeeps.flt hflt, (hkeeps.cause hflt).trans (by rw [hsf]; simp [reactionBegins, hc])⟩

section
variable (h : Live b a) (hn : isNative b (a / 16) (a % 16) = true)
include h hn

/-- Without a brake a native axis is in STO at once. -/
theorem beginReact_no_brake (hb : brakeOf b a = none) : Stopped (beginReact now cause a b) a := by
  have hcfg := reactionOnRecord_cfg now cause a b
  have hheld := (isNative_of_cfg (heldFault_cfg (now := now) (a := a) (b := reactionOnRecord now cause a b)) (a / 16) (a % 16)).trans ((isNative_of_cfg hcfg _ _).trans hn)
  rw [beginReact_native h hn, natReact_unbraked ((brakeOf_of_cfg hcfg a).trans hb)]
  exact (faultEnd_stopped hheld).1

/-- With a brake the time of the engage command decides: STO at once, or held until it has passed (R524). -/
theorem beginReact_brake (hb : brakeOf b a ≠ none) {e : Nat} (he : brakeSince now (brakeTook a b) (b.sfAxAt a) = e) :
    (e + engNs b a ≤ now → Stopped (beginReact now cause a b) a ∧ (brakeTook a b = false → ((beginReact now cause a b).sfAxAt a).brkCmd = false)) ∧
    (now < e + engNs b a → (natOf (beginReact now cause a b) a).st = .faultHold ∧ (natOf (beginReact now cause a b) a).hold ≠ none ∧
      ((beginReact now cause a b).sfAxAt a).rmAt = some (e + engNs b a) ∧ ((beginReact now cause a b).sfAxAt a).react = some now ∧
      ((beginReact now cause a b).sfAxAt a).permit = (b.sfAxAt a).permit ∧
      (brakeTook a b = false → ((beginReact now cause a b).sfAxAt a).brkCmd = false ∧ ((beginReact now cause a b).sfAxAt a).engAt = some now)) := by
  have hcfg := reactionOnRecord_cfg now cause a b
  obtain ⟨-, hsf⟩ := reactionOnRecord_sf now cause a b
  have hbc : brakeOf (reactionOnRecord now cause a b) a ≠ none := by rw [brakeOf_of_cfg hcfg]; exact hb
  have hnc := (isNative_of_cfg hcfg (a / 16) (a % 16)).trans hn
  have hec : brakeSince now (brakeTook a b) ((reactionOnRecord now cause a b).sfAxAt a) = e := by rw [hsf]; exact he
  rw [beginReact_native h hn, natReact_engaged hbc, hec, engNs_of_cfg hcfg]
  generalize reactionOnRecord now cause a b = c at hsf hnc
  generalize brakeTook a b = took
  constructor
  · intro hle
    rw [if_pos hle]
    obtain ⟨hstop, hcmd⟩ := faultEnd_stopped (now := now) (braking_native (now := now) took hnc)
    exact ⟨hstop, fun ht => hcmd.trans (by subst ht; exact congrArg SfAx.brkCmd brakedFault_sf)⟩
  · intro hlt
    rw [if_neg (Nat.not_le.2 hlt), natOf_sfAxUpd, sfAxAt_sfAxUpd, braking_nat]
    obtain ⟨hst, hhold⟩ := heldFault_nat (now := now) (a := a) (b := c)
    cases took with
    | true =>
      rw [braking_true, heldFault_sf, hsf]
      exact ⟨hst, hhold, rfl, rfl, rfl, fun h => nomatch h⟩
    | false =>
      rw [braking_false, brakedFault_sf, hsf]
      exact ⟨hst, hhold, rfl, rfl, rfl, fun _ => ⟨rfl, rfl⟩⟩

end

end

end Sys2Proof.Proofs
end

section
/-! Commanded stops and grace mode at an evaluation (R517, R519, R534, R535). -/

namespace Sys2Proof.Proofs

open Sys2Proof.Machine

/-! ### An axis by its tile and slot -/

section
variable {now cause t j : Nat} {b : Block}

theorem live_iff (hj : j < 16) : Live b (axNo t j) ↔ slotTy b t j ≠ .unused ∧ axDisabled b t j = false ∧ (b.sfAxAt (axNo t j)).react = none := by
  constructor
  · rintro ⟨hu, hd, hr⟩
    rw [axNo_div hj, axNo_mod hj] at hu hd
    exact ⟨hu, hd, hr⟩
  · rintro ⟨hu, hd, hr⟩
    exact ⟨by rwa [axNo_div hj, axNo_mod hj], by rwa [axNo_div hj, axNo_mod hj], hr⟩

theorem Live.sfAxUpd {a : Nat} (h : Live b a) (f : SfAx → SfAx) (hf : (f (b.sfAxAt a)).react = (b.sfAxAt a).react) : Live (b.sfAxUpd a f) a :=
  ⟨h.used, h.enabled, by rw [sfAxAt_sfAxUpd, hf]; exact h.react⟩

/-- What a fault reaction with a cause of its own leaves of its axis (R207, R520, R529). -/
theorem beginReact_reacts (hj : j < 16) (h : Live b (axNo t j)) (hc : cause ≠ 0) : Safety.reacts now cause b (beginReact now cause (axNo t j) b) t j := by
  obtain ⟨hflt, hcause⟩ := beginReact_latches (now := now) h hc
  obtain ⟨hstop, hbt, -⟩ := beginReact_ends (now := now) (cause := cause) h
  refine ⟨hflt, hcause, hstop, hbt, fun hn => ?_⟩
  have hn' : isNative b (axNo t j / 16) (axNo t j % 16) = true := by rwa [axNo_div hj, axNo_mod hj]
  have htook : (b.sfAxAt (axNo t j)).brkCmd = true → brakeTook (axNo t j) b = false := fun hcmd => by simp [brakeTook, hcmd]
  have hsince : (b.sfAxAt (axNo t j)).brkCmd = true → brakeSince now (brakeTook (axNo t j) b) (b.sfAxAt (axNo t j)) = now := fun hcmd => by rw [htook hcmd]; rfl
  rw [← natOf_axNo _ hj]
  refine ⟨fun hb => beginReact_no_brake h hn' hb, fun hb hcmd he => ?_, fun hb hcmd he => ?_⟩
  · obtain ⟨hstopped, hbrk⟩ := (beginReact_brake (now := now) (cause := cause) h hn' hb (hsince hcmd)).1 (Nat.le_of_eq (by rw [show engNs b (axNo t j) = 0 from he]; rfl))
    exact ⟨hstopped, hbrk (htook hcmd)⟩
  · obtain ⟨hst, hhold, hrm, hreact, hpermit, hbrk⟩ := (beginReact_brake (now := now) (cause := cause) h hn' hb (hsince hcmd)).2 (Nat.lt_add_of_pos_right he)
    exact ⟨hst, hhold, (hbrk (htook hcmd)).1, (hbrk (htook hcmd)).2, hrm, hreact, hpermit⟩

/-- A reaction reads registers, and of the safety record FLT with its cause, the brake command and the permissive. -/
theorem reacts_congr {b' c : Block} (hcfg : b'.cfg = b.cfg)
    (hx : let x := b.sfAxAt (axNo t j)
      let x' := b'.sfAxAt (axNo t j)
      x'.flt = x.flt ∧ x'.cause = x.cause ∧ x'.brkCmd = x.brkCmd ∧ x'.permit = x.permit)
    (h : Safety.reacts now cause b' c t j) : Safety.reacts now cause b c t j := by
  obtain ⟨hflt, hcause, hcmd, hpermit⟩ := hx
  unfold Safety.reacts at h ⊢
  dsimp only at h ⊢
  rw [isNative_of_cfg hcfg, brakeOf_of_cfg hcfg, hcfg, hflt, hcause, hcmd, hpermit] at h
  exact h

end

/-! ### A commanded stop (R517) -/

section
variable {now a : Nat} {b : Block}

/-- The tick at which a stop commanded at `t0` times out. -/
def stopEnds (b : Block) (a t0 : Nat) : Nat := t0 + Fld.SF_AX_TIME_STOP_T b.cfg a * 1000000

theorem stopEval_none (h : (b.sfAxAt a).stop = none) : stopEval now a b = b := by simp only [stopEval, h]

section
variable {t0 : Nat} {g : Bool} (h : (b.sfAxAt a).stop = some (t0, g))
include h

theorem stopEval_runs (hlt : now < stopEnds b a t0) (hg : (b.genAt (a / 16) (a % 16)).st ≠ .idle ∨ now ≤ t0) : stopEval now a b = b := by
  unfold stopEnds at hlt
  simp only [stopEval, h]
  rw [if_neg (Nat.not_le.2 hlt), if_neg]
  rcases hg with hg | hg <;> simp [hg]

/-- A stop whose generator has come to rest ends in the fault reaction. -/
theorem stopEval_rests (hlt : now < stopEnds b a t0) (h0 : t0 < now) (hg : (b.genAt (a / 16) (a % 16)).st = .idle) :
    stopEval now a b = beginReact now (if g then 4 else 0) a b := by
  unfold stopEnds at hlt
  simp only [stopEval, h]
  rw [if_neg (Nat.not_le.2 hlt), if_pos (by simp [h0, hg])]

theorem stopEval_late (hle : stopEnds b a t0 ≤ now) :
    stopEval now a b = beginReact now (if g then 4 else 2) a (b.sfAxUpd a fun x => { x with stopTimeout := true }) := by
  simp only [stopEval, h]
  exact if_pos hle

end

/-- An axis that is not in use, disabled, or has its reaction performs none: its FLT and STOP_TIMEOUT stand. -/
theorem beginReact_not_live {cause : Nat} (h : ¬Live b a) : ((beginReact now cause a b).sfAxAt a).stopTimeout = (b.sfAxAt a).stopTimeout ∧
    ((beginReact now cause a b).sfAxAt a).flt = (b.sfAxAt a).flt := by
  unfold beginReact; dsimp only; split
  · exact ⟨rfl, rfl⟩
  · next hu =>
    split
    · rw [sf_of_same (discardEnable_same (a / 16) (a % 16) _) a, sfAxAt_sfAxUpd]; exact ⟨rfl, rfl⟩
    · next hd =>
      split
      · rw [sfAxAt_sfAxUpd]; exact ⟨rfl, rfl⟩
      · next hr => exact absurd ⟨hu, by simpa using hd, by simpa using hr⟩ h

/-! ### Grace mode (R534, R535) -/

/-- The earlier of a time and one that may exist. -/
def earlier (m : Nat) : Option Nat → Nat
  | some t => min m t
  | none => m

theorem earlier_le (m : Nat) (o : Option Nat) : earlier m o ≤ m := by cases o <;> simp [earlier]

theorem earlier_le_some (m d : Nat) : earlier m (some d) ≤ d := Nat.min_le_right _ _

variable (now a b) in
/-- The expiry of grace mode entered now: after GRACE_T, or as a periodic test falls due, and not before now. -/
def graceEnds : Nat := max now (earlier (earlier (now + Fld.SF_AX_GRACE_GRACE_T b.cfg a * 1000000000) (stoDueAt b a)) (btDueAt b a))

theorem graceEnds_bounds : now ≤ graceEnds now a b ∧ graceEnds now a b ≤ now + Fld.SF_AX_GRACE_GRACE_T b.cfg a * 1000000000 ∧
    (∀ d, stoDueAt b a = some d → graceEnds now a b ≤ max now d) ∧ ∀ d, btDueAt b a = some d → graceEnds now a b ≤ max now d := by
  have hbt := earlier_le (earlier (now + Fld.SF_AX_GRACE_GRACE_T b.cfg a * 1000000000) (stoDueAt b a)) (btDueAt b a)
  have hsto := earlier_le (now + Fld.SF_AX_GRACE_GRACE_T b.cfg a * 1000000000) (stoDueAt b a)
  refine ⟨Nat.le_max_left _ _, Nat.max_le.2 ⟨Nat.le_add_right _ _, hbt.trans hsto⟩, fun d hd => ?_, fun d hd => ?_⟩
  · exact max_le_max le_rfl (hbt.trans (by rw [hd]; exact earlier_le_some _ _))
  · exact max_le_max le_rfl (by rw [hd]; exact earlier_le_some _ _)

variable (now a b) in
/-- The safety record of an axis as grace mode is entered for `cause`. -/
def graceRecord (cause : Nat) (x : SfAx) : SfAx := { x with grace := some (now, cause), graceReg := none, graceExp := some (graceEnds now a b) }

theorem graceEnter_log (cause : Nat) : OnlyLog (b.sfAxUpd a (graceRecord now a b cause)) (graceEnter now cause a b) := logEvent_log now 0x0014 0 (a * 256 + 1) _

theorem graceEnter_sf (cause : Nat) : (graceEnter now cause a b).sfAxAt a = graceRecord now a b cause (b.sfAxAt a) := by
  refine Eq.trans ?_ (sfAxAt_sfAxUpd b a (graceRecord now a b cause))
  unfold Block.sfAxAt; rw [graceEnter_log]

theorem graceEnter_nat (cause : Nat) : (graceEnter now cause a b).nat = b.nat := by rw [graceEnter_log]; rfl

theorem graceEnter_btFailed (cause : Nat) : (graceEnter now cause a b).sf.btFailed = b.sf.btFailed := by rw [graceEnter_log]; rfl

theorem axSpeed_congr {c : Block} (hcfg : c.cfg = b.cfg) (hqd : c.qd = b.qd) (t j : Nat) : axSpeed c t j = axSpeed b t j := by
  unfold axSpeed isNative slotTy chansOf Block.qdAt; rw [hcfg, hqd]

/-- The axis moves faster than grace mode allows. -/
def Fast (b : Block) (a : Nat) : Prop := (Fld.SF_AX_GRACE_V_GRACE_V b.cfg a : Int) * 2 ^ 32 < (axSpeed b (a / 16) (a % 16)).natAbs

theorem graceTake_none (h : ∀ r c, (b.sfAxAt a).graceReg = some (r, c) → now ≤ r) : graceTake now a b = b := by
  unfold graceTake; dsimp only; split
  · next r c hreg => exact if_neg (by simp [Nat.not_lt.2 (h r c hreg)])
  · rfl

theorem graceTake_entered {g : Nat × Nat} (h : (b.sfAxAt a).grace = some g) : graceTake now a b = b := by
  unfold graceTake; dsimp only; split
  · exact if_neg (by simp [h])
  · rfl

theorem graceTake_enters {r c : Nat} (hg : (b.sfAxAt a).grace = none) (hreg : (b.sfAxAt a).graceReg = some (r, c)) (hr : r < now) (hlive : Live b a) :
    graceTake now a b = graceEnter now c a b := by
  simp only [graceTake, hreg]
  exact if_pos (by simp [hr, hg, hlive.react, hlive.enabled])

theorem graceCheck_none (h : (b.sfAxAt a).grace = none) : graceCheck now a b = b := if_pos (by simp [h])

theorem graceCheck_fast {g : Nat × Nat} (h : (b.sfAxAt a).grace = some g) (hr : (b.sfAxAt a).react = none) (hf : Fast b a) : graceCheck now a b = beginReact now 3 a b := by
  unfold Fast at hf
  unfold graceCheck; dsimp only
  rw [if_neg (by simp [h, hr]), if_pos hf]

theorem graceCheck_lasts (hf : ¬Fast b a) (he : ∀ e, (b.sfAxAt a).graceExp = some e → now ≤ e) : graceCheck now a b = b := by
  unfold Fast at hf
  unfold graceCheck; dsimp only; split
  · rfl
  · split
    · next e hexp => exact if_neg (Nat.not_lt.2 (he e hexp))
    · rfl

theorem graceCheck_expires {g : Nat × Nat} {e : Nat} (h : (b.sfAxAt a).grace = some g) (hr : (b.sfAxAt a).react = none) (hf : ¬Fast b a)
    (he : (b.sfAxAt a).graceExp = some e) (hlt : e < now) : graceCheck now a b = beginStop now true a b := by
  unfold Fast at hf
  unfold graceCheck; dsimp only
  rw [if_neg (by simp [h, hr]), if_neg hf, he]
  exact if_pos hlt

theorem graceEval_idle (hg : (b.sfAxAt a).grace = none) (hreg : ∀ r c, (b.sfAxAt a).graceReg = some (r, c) → now ≤ r) : graceEval now a b = b := by
  unfold graceEval; rw [graceTake_none hreg, graceCheck_none hg]

/-- Grace mode that was registered before is entered, and its checks find nothing yet. -/
theorem graceEval_enters {r c : Nat} (hg : (b.sfAxAt a).grace = none) (hreg : (b.sfAxAt a).graceReg = some (r, c)) (hr : r < now) (hlive : Live b a) (hf : ¬Fast b a) :
    graceEval now a b = graceEnter now c a b := by
  have hlog := graceEnter_log (now := now) (a := a) (b := b) c
  have hcfg : (graceEnter now c a b).cfg = b.cfg := by rw [hlog]; rfl
  have hqd : (graceEnter now c a b).qd = b.qd := by rw [hlog]; rfl
  unfold graceEval
  rw [graceTake_enters hg hreg hr hlive]
  refine graceCheck_lasts (fun hfast => hf ?_) fun e he => ?_
  · unfold Fast at hfast; rwa [axSpeed_congr hcfg hqd, hcfg] at hfast
  · rw [graceEnter_sf] at he
    cases he
    exact graceEnds_bounds.1

theorem graceEval_check {g : Nat × Nat} (h : (b.sfAxAt a).grace = some g) : graceEval now a b = graceCheck now a b := by unfold graceEval; rw [graceTake_entered h]

/-! ### The stop of an expired grace mode -/

theorem beginStop_pulse (h : Live b a) (hty : slotTy b (a / 16) (a % 16) = .pulse) : beginStop now true a b = beginReact now 4 a b := by
  simp only [beginStop, h.enabled, hty, reduceCtorEq, if_false, if_true, Bool.false_eq_true]

/-- Any other axis is commanded stopped; permissive, grace mode and FLT stand until it ends. -/
theorem beginStop_graceful (h : Live b a) (hty : slotTy b (a / 16) (a % 16) ≠ .pulse) (hs : (b.sfAxAt a).stop = none) : let y := (beginStop now true a b).sfAxAt a
    y.stop = some (now, true) ∧ y.permit = (b.sfAxAt a).permit ∧ y.grace = (b.sfAxAt a).grace ∧ y.flt = (b.sfAxAt a).flt := by
  have heq : beginStop now true a b =
      genEnd (a / 16) (a % 16) (pgSafeStop now (Fld.PG_FB_DECEL_DEC (causeBegins a b).cfg (a / 16) (a % 16))) ((causeBegins a b).sfAxUpd a fun x => { x with stop := some (now, true) }) := by
    simp only [beginStop, h.used, h.enabled, h.react, hs, hty, if_false, Bool.false_eq_true, Option.isSome_none]
    rfl
  have hsame := genEnd_same (a / 16) (a % 16) (pgSafeStop now (Fld.PG_FB_DECEL_DEC (causeBegins a b).cfg (a / 16) (a % 16))) ((causeBegins a b).sfAxUpd a fun x => { x with stop := some (now, true) })
  dsimp only
  rw [heq, sf_of_same hsame a, sfAxAt_sfAxUpd, causeBegins_sf]
  exact ⟨rfl, rfl, rfl, rfl⟩

end

end Sys2Proof.Proofs
end

section
/-! The steps of a brake test (R526 to R529). -/

namespace Sys2Proof.Proofs

open Sys2Proof.Machine

/-! ### The references of a native axis, and the end of a test -/

section
variable {now t j : Nat} {b : Block}

theorem natHold_natAt : (natHold t j b).natAt t j = { b.natAt t j with hold := some (natRefs b t j) } := natAt_natUpd _ _ _ _

/-- References that are held stand. -/
theorem natRefs_held {h : Word × Word} (hh : (b.natAt t j).hold = some h) : natRefs b t j = h := by simp only [natRefs, hh]

/-- A brake test that is over with result `r`. -/
def testOver (r : Nat) (x : SfAx) : SfAx := { x with bt := { x.bt with st := .idle, result := r } }

theorem btEnd_requested {r : Nat} (h : (b.sfAxAt (axNo t j)).bt.st = .requested) : btEnd t j r b = b.sfAxUpd (axNo t j) (testOver r) := by
  simp only [btEnd, h]; rfl

/-- A test that had engaged the brake gives the q reference back. -/
theorem btEnd_engaged {r : Nat} (h : (b.sfAxAt (axNo t j)).bt.st = .pos ∨ (b.sfAxAt (axNo t j)).bt.st = .neg) : btEnd t j r b =
    (b.sfAxUpd (axNo t j) (testOver r)).natUpd t j fun n => { n with hold := n.hold.map fun h => (h.1, (b.sfAxAt (axNo t j)).bt.qh) } := by
  obtain h | h := h <;> simp only [btEnd, h] <;> rfl

end

/-! ### The step that is due -/

/-- The axis has moved too far under the test current (R527). -/
def Moved (b : Block) (t j : Nat) : Prop := (Fld.SF_AX_BT_LIM_BT_TOL b.cfg (axNo t j) : Int) * 65536 < (btPos b t j - (b.sfAxAt (axNo t j)).bt.p0).natAbs

/-- The time of one step of a test, in ns. -/
def btStep (b : Block) (a : Nat) : Nat := Fld.SF_AX_BT_BT_T b.cfg a * 1000000

/-- The module with the q reference of a test set, its current added with a sign (R526). -/
def testCurrent (t j : Nat) (sign : Int) (b c : Block) : Block :=
  c.natUpd t j fun n => { n with hold := n.hold.map fun h => (h.1, word32 ((b.sfAxAt (axNo t j)).bt.qh.toInt + sign * (Fld.SF_AX_BT_BT_I b.cfg (axNo t j) * (2 : Int) ^ 15))) }

/-- A safety record at a step of the test. -/
def atStep (st : BtSt) (x : SfAx) : SfAx := { x with bt := { x.bt with st := st } }

section
variable {now t j : Nat} {b : Block} (hj : j < 16)
include hj

theorem btRef_axNo (sign : Int) (c : Block) : btRef b (axNo t j) sign c = testCurrent t j sign b c := by
  simp only [btRef, axNo_div hj, axNo_mod hj]; rfl

theorem btFail_grace (hg : Fld.SF_AX_CFG_GRACE_BT b.cfg (axNo t j) = true) : btFail now (axNo t j) b =
    graceEnter now 8 (axNo t j) (natUnhold t j (btEnd t j 2 { b with sf := { b.sf with btFailed := true } })) := by
  simp only [btFail, axNo_div hj, axNo_mod hj, hg, if_true]

omit hj in
theorem btFail_reacts (hg : Fld.SF_AX_CFG_GRACE_BT b.cfg (axNo t j) = false) : btFail now (axNo t j) b =
    (beginReact now 8 (axNo t j) { b with sf := { b.sf with btFailed := true } }).sfAxUpd (axNo t j) (testOver 2) := by
  simp only [btFail, hg, Bool.false_eq_true, if_false]; rfl

omit hj in
theorem btEval_idle (hst : (b.sfAxAt (axNo t j)).bt.st = .idle) : btEval now (axNo t j) b = b := by simp only [btEval, hst]

section
variable (hst : (b.sfAxAt (axNo t j)).bt.st = .requested)
include hst

omit hj in
theorem btEval_requested_early (hr : now ≤ (b.sfAxAt (axNo t j)).bt.reg) : btEval now (axNo t j) b = b := by
  simp only [btEval, hst]; exact if_neg (Nat.not_lt.2 hr)

theorem btEval_requested_stopped (hr : (b.sfAxAt (axNo t j)).bt.reg < now) (hs : (b.sfAxAt (axNo t j)).stop ≠ none) :
    btEval now (axNo t j) b = b.sfAxUpd (axNo t j) (testOver 4) := by
  simp only [btEval, hst, axNo_div hj, axNo_mod hj, hr, if_true, Option.isSome_iff_ne_none.2 hs]
  exact btEnd_requested hst

/-- The test begins: the references are held, and the brake is commanded engaged. -/
theorem btEval_requested_begins (hr : (b.sfAxAt (axNo t j)).bt.reg < now) (hs : (b.sfAxAt (axNo t j)).stop = none) : btEval now (axNo t j) b =
    brakeEngage now (axNo t j) ((natHold t j b).sfAxUpd (axNo t j) fun x => { x with bt := { x.bt with st := .engage, e1 := now, result := 5, qh := (natRefs b t j).2 } }) := by
  have hq : (natHold t j b).natAt t j = { b.natAt t j with hold := some (natRefs b t j) } := natHold_natAt
  simp only [btEval, hst, axNo_div hj, axNo_mod hj, hr, if_true, hs, Option.isSome_none, Bool.false_eq_true, if_false, hq, Option.getD_some]

end

section
variable (hst : (b.sfAxAt (axNo t j)).bt.st = .engage)
include hst

omit hj in
theorem btEval_engage_waits (h : now < (b.sfAxAt (axNo t j)).bt.e1 + engNs b (axNo t j)) : btEval now (axNo t j) b = b := by
  simp only [btEval, hst]; exact if_neg (Nat.not_le.2 h)

theorem btEval_engage_done (h : (b.sfAxAt (axNo t j)).bt.e1 + engNs b (axNo t j) ≤ now) : btEval now (axNo t j) b =
    testCurrent t j 1 b (b.sfAxUpd (axNo t j) fun x => { x with bt := { x.bt with st := .pos, p0 := btPos b t j } }) := by
  simp only [btEval, hst, axNo_div hj, axNo_mod hj, if_pos h, btRef_axNo hj]

end

section
variable (hst : (b.sfAxAt (axNo t j)).bt.st = .pos)
include hst

theorem btEval_pos_moved (hm : Moved b t j) : btEval now (axNo t j) b = btFail now (axNo t j) b := by
  unfold Moved at hm
  simp only [btEval, hst, axNo_div hj, axNo_mod hj, hm, decide_true, if_true]

theorem btEval_pos_waits (hm : ¬Moved b t j) (h : now < (b.sfAxAt (axNo t j)).bt.e1 + engNs b (axNo t j) + btStep b (axNo t j)) : btEval now (axNo t j) b = b := by
  unfold Moved at hm
  simp only [btEval, hst, axNo_div hj, axNo_mod hj, hm, decide_false, Bool.false_eq_true, if_false]
  exact if_neg (Nat.not_le.2 h)

theorem btEval_pos_done (hm : ¬Moved b t j) (h : (b.sfAxAt (axNo t j)).bt.e1 + engNs b (axNo t j) + btStep b (axNo t j) ≤ now) : btEval now (axNo t j) b =
    testCurrent t j (-1) b (b.sfAxUpd (axNo t j) (atStep .neg)) := by
  unfold Moved at hm
  simp only [btEval, hst, axNo_div hj, axNo_mod hj, hm, decide_false, Bool.false_eq_true, if_false, btRef_axNo hj]
  exact if_pos h

end

section
variable (hst : (b.sfAxAt (axNo t j)).bt.st = .neg)
include hst

theorem btEval_neg_waits (hm : ¬Moved b t j) (h : now < (b.sfAxAt (axNo t j)).bt.e1 + engNs b (axNo t j) + btStep b (axNo t j) + btStep b (axNo t j)) :
    btEval now (axNo t j) b = b := by
  unfold Moved at hm
  unfold btStep at h
  simp only [btEval, hst, axNo_div hj, axNo_mod hj, hm, decide_false, Bool.false_eq_true, if_false, if_neg (Nat.not_le.2 h)]

theorem btEval_neg_moved (hm : Moved b t j) (h : now < (b.sfAxAt (axNo t j)).bt.e1 + engNs b (axNo t j) + btStep b (axNo t j) + btStep b (axNo t j)) :
    btEval now (axNo t j) b = btFail now (axNo t j) b := by
  unfold Moved at hm
  unfold btStep at h
  simp only [btEval, hst, axNo_div hj, axNo_mod hj, hm, decide_true, if_true, if_neg (Nat.not_le.2 h)]

/-- The test has passed: the references follow the contexts again. -/
theorem btEval_neg_passes (h : (b.sfAxAt (axNo t j)).bt.e1 + engNs b (axNo t j) + btStep b (axNo t j) + btStep b (axNo t j) ≤ now) : btEval now (axNo t j) b =
    natUnhold t j ((btEnd t j 1 b).sfAxUpd (axNo t j) fun x => { x with bt := { x.bt with pass := some now }, btDue := false }) := by
  unfold btStep at h
  simp only [btEval, hst, axNo_div hj, axNo_mod hj, if_pos h]

end

end

/-! ### What each step leaves of the axis -/

section
variable {now t j : Nat} {b : Block}

theorem testCurrent_sf (sign : Int) (c : Block) (a : Nat) : (testCurrent t j sign b c).sfAxAt a = c.sfAxAt a := rfl

theorem testCurrent_natAt (sign : Int) (c : Block) {q : Int} (hq : (b.sfAxAt (axNo t j)).bt.qh.toInt + sign * (Fld.SF_AX_BT_BT_I b.cfg (axNo t j) * (2 : Int) ^ 15) = q) :
    (testCurrent t j sign b c).natAt t j = { c.natAt t j with hold := (c.natAt t j).hold.map fun h => (h.1, word32 q) } := by
  subst hq; exact natAt_natUpd _ _ _ _

section
variable (hj : j < 16)
include hj

/-- A test that has been requested gives way to a stop (R529). -/
theorem btEval_gives_way (hst : (b.sfAxAt (axNo t j)).bt.st = .requested) (hr : (b.sfAxAt (axNo t j)).bt.reg < now) (hs : (b.sfAxAt (axNo t j)).stop ≠ none) :
    let x := b.sfAxAt (axNo t j)
    let c := btEval now (axNo t j) b
    c.natAt t j = b.natAt t j ∧ c.sfAxAt (axNo t j) = { x with bt := { x.bt with st := .idle, result := 4 } } := by
  dsimp only
  rw [btEval_requested_stopped hj hst hr hs, sfAxAt_sfAxUpd]
  exact ⟨rfl, rfl⟩

/-- The test begins: references held first stay held, the brake is commanded engaged (R526). -/
theorem btEval_begins (hst : (b.sfAxAt (axNo t j)).bt.st = .requested) (hr : (b.sfAxAt (axNo t j)).bt.reg < now) (hs : (b.sfAxAt (axNo t j)).stop = none) :
    let x := b.sfAxAt (axNo t j)
    let c := btEval now (axNo t j) b
    ∃ h, c.natAt t j = { b.natAt t j with hold := some h } ∧ (∀ h0, (b.natAt t j).hold = some h0 → h = h0) ∧
      c.sfAxAt (axNo t j) = { x with brkCmd := false, brkOpen := false, relAt := none, engAt := some now, bt := { x.bt with st := .engage, e1 := now, result := 5, qh := h.2 } } := by
  dsimp only
  rw [btEval_requested_begins hj hst hr hs]
  refine ⟨natRefs b t j, ?_, fun h0 hh => natRefs_held hh, ?_⟩
  · exact natHold_natAt
  · rw [brakeEngage_sf, sfAxAt_sfAxUpd]; rfl

/-- The brake is engaged: the current is applied one way (R526). -/
theorem btEval_pushes (hst : (b.sfAxAt (axNo t j)).bt.st = .engage) (h : (b.sfAxAt (axNo t j)).bt.e1 + engNs b (axNo t j) ≤ now) :
    let x := b.sfAxAt (axNo t j)
    let c := btEval now (axNo t j) b
    c.sfAxAt (axNo t j) = { x with bt := { x.bt with st := .pos, p0 := btPos b t j } } ∧
      c.natAt t j = { b.natAt t j with hold := (b.natAt t j).hold.map fun h => (h.1, word32 (x.bt.qh.toInt + (Fld.SF_AX_BT_BT_I b.cfg (axNo t j) : Int) * 32768)) } := by
  dsimp only
  rw [btEval_engage_done hj hst h, testCurrent_sf, sfAxAt_sfAxUpd, testCurrent_natAt _ _ rfl]
  exact ⟨rfl, by rw [one_mul]; rfl⟩

/-- Half of the test is over: the current is applied the other way (R526). -/
theorem btEval_pulls (hst : (b.sfAxAt (axNo t j)).bt.st = .pos) (hm : ¬Moved b t j) (h : (b.sfAxAt (axNo t j)).bt.e1 + engNs b (axNo t j) + btStep b (axNo t j) ≤ now) :
    let x := b.sfAxAt (axNo t j)
    let c := btEval now (axNo t j) b
    c.sfAxAt (axNo t j) = { x with bt := { x.bt with st := .neg } } ∧
      c.natAt t j = { b.natAt t j with hold := (b.natAt t j).hold.map fun h => (h.1, word32 (x.bt.qh.toInt - (Fld.SF_AX_BT_BT_I b.cfg (axNo t j) : Int) * 32768)) } := by
  dsimp only
  rw [btEval_pos_done hj hst hm h, testCurrent_sf, sfAxAt_sfAxUpd, testCurrent_natAt _ _ rfl]
  exact ⟨rfl, by rw [neg_one_mul, ← Int.sub_eq_add_neg]; rfl⟩

/-- The brake has held: the test has passed (R527). -/
theorem btEval_passes (hst : (b.sfAxAt (axNo t j)).bt.st = .neg)
    (h : (b.sfAxAt (axNo t j)).bt.e1 + engNs b (axNo t j) + btStep b (axNo t j) + btStep b (axNo t j) ≤ now) :
    let x := b.sfAxAt (axNo t j)
    let c := btEval now (axNo t j) b
    c.sfAxAt (axNo t j) = { x with bt := { x.bt with st := .idle, result := 1, pass := some now }, btDue := false } ∧ c.natAt t j = { b.natAt t j with hold := none } := by
  dsimp only
  rw [btEval_neg_passes hj hst h, btEnd_engaged (.inr hst)]
  unfold natUnhold
  rw [natAt_natUpd, sfAxAt_natUpd, sfAxAt_sfAxUpd, natAt_sfAxUpd, natAt_natUpd, sfAxAt_natUpd, sfAxAt_sfAxUpd]
  exact ⟨rfl, rfl⟩

end

/-! ### A failed test -/

/-- The module with BT_FAILED set (R527). -/
def btFailedSet (b : Block) : Block := { b with sf := { b.sf with btFailed := true } }

/-- The end of a brake test besides a fault reaction. -/
theorem reacts_testOver {cause r : Nat} {c c' : Block} (hsf : c'.sfAxAt (axNo t j) = testOver r (c.sfAxAt (axNo t j))) (hnat : c'.natAt t j = c.natAt t j)
    (h : Safety.reacts now cause b c t j) : Safety.reacts now cause b c' t j := by
  obtain ⟨hflt, hcause, hstop, -, hnative⟩ := h
  unfold Safety.reacts
  dsimp only
  rw [hsf, hnat]
  exact ⟨hflt, hcause, hstop, rfl, hnative⟩

section
variable (hj : j < 16) (hst : (b.sfAxAt (axNo t j)).bt.st = .pos ∨ (b.sfAxAt (axNo t j)).bt.st = .neg)
include hj hst

/-- With GRACE_BT a failed test ends in grace mode; permissive and FLT stand. -/
theorem btFail_enters_grace (hg : Fld.SF_AX_CFG_GRACE_BT b.cfg (axNo t j) = true) : let c := btFail now (axNo t j) b
    c.sf.btFailed = true ∧ c.sfAxAt (axNo t j) = graceRecord now (axNo t j) (natUnhold t j (btEnd t j 2 (btFailedSet b))) 8 (testOver 2 (b.sfAxAt (axNo t j))) ∧
      c.natAt t j = { b.natAt t j with hold := none } := by
  have hend := btEnd_engaged (b := btFailedSet b) (r := 2) hst
  have hsf : (natUnhold t j (btEnd t j 2 (btFailedSet b))).sfAxAt (axNo t j) = testOver 2 (b.sfAxAt (axNo t j)) := by
    rw [hend]; unfold natUnhold; rw [sfAxAt_natUpd, sfAxAt_natUpd, sfAxAt_sfAxUpd]; rfl
  have hnat : (natUnhold t j (btEnd t j 2 (btFailedSet b))).natAt t j = { b.natAt t j with hold := none } := by
    rw [hend]; unfold natUnhold; rw [natAt_natUpd, natAt_natUpd, natAt_sfAxUpd]; rfl
  dsimp only
  rw [btFail_grace hj hg]
  refine ⟨?_, (graceEnter_sf 8).trans (congrArg _ hsf), ?_⟩
  · rw [graceEnter_btFailed]; exact (nfault_of_faults (btEnd_only _ _ _ _)).2
  · unfold Block.natAt; rw [graceEnter_nat]; exact hnat

omit hj hst in
/-- Without it the reaction of the axis begins, and BT_FAILED is set (R527). -/
theorem btFail_fails (hg : Fld.SF_AX_CFG_GRACE_BT b.cfg (axNo t j) = false) : let c := btFail now (axNo t j) b
    c.sf.btFailed = true ∧ c.sfAxAt (axNo t j) = testOver 2 ((beginReact now 8 (axNo t j) (btFailedSet b)).sfAxAt (axNo t j)) ∧
      c.natAt t j = (beginReact now 8 (axNo t j) (btFailedSet b)).natAt t j := by
  dsimp only
  rw [btFail_reacts hg, sfAxAt_sfAxUpd]
  exact ⟨beginReact_btFailed, rfl, rfl⟩

/-- The fault reaction of a failed test counts from the engage command of the test (R529). -/
theorem btFail_since (hlive : Live b (axNo t j)) (hn : isNative b t j = true) (hg : Fld.SF_AX_CFG_GRACE_BT b.cfg (axNo t j) = false) {e : Nat}
    (hcmd : (b.sfAxAt (axNo t j)).brkCmd = false) (he : (b.sfAxAt (axNo t j)).engAt = some e) (hb : brakeOf b (axNo t j) ≠ none) : let c := btFail now (axNo t j) b
    (e + engNs b (axNo t j) ≤ now → (c.natAt t j).st = .sto ∧ (c.natAt t j).gate = false ∧ (c.sfAxAt (axNo t j)).permit = false) ∧
      (now < e + engNs b (axNo t j) → (c.natAt t j).st = .faultHold ∧ (c.sfAxAt (axNo t j)).rmAt = some (e + engNs b (axNo t j))) := by
  have hlive' : Live (btFailedSet b) (axNo t j) := ⟨hlive.used, hlive.enabled, hlive.react⟩
  have hn' : isNative (btFailedSet b) (axNo t j / 16) (axNo t j % 16) = true := by rw [axNo_div hj, axNo_mod hj]; exact hn
  have hx : (btFailedSet b).sfAxAt (axNo t j) = b.sfAxAt (axNo t j) := rfl
  have htest : (b.sfAxAt (axNo t j)).bt.st ≠ .idle := by rcases hst with h | h <;> simp [h]
  have htook : brakeTook (axNo t j) (btFailedSet b) = true := by simp [brakeTook, hx, hcmd, he, htest]
  have hsince : brakeSince now (brakeTook (axNo t j) (btFailedSet b)) ((btFailedSet b).sfAxAt (axNo t j)) = e := by rw [htook, hx]; simp [brakeSince, he]
  obtain ⟨hover, hheld⟩ := beginReact_brake (now := now) (cause := 8) hlive' hn' hb hsince
  obtain ⟨-, hsf, hnat⟩ := btFail_fails (now := now) hg
  dsimp only
  rw [hsf, hnat, ← natOf_axNo _ hj]
  refine ⟨fun hle => ?_, fun hlt => ?_⟩
  · obtain ⟨⟨hsto, hgate, -, hpermit, -⟩, -⟩ := hover hle
    exact ⟨hsto, hgate, hpermit⟩
  · obtain ⟨hhold, -, hrm, -⟩ := hheld hlt
    exact ⟨hhold, hrm⟩

omit hst in
theorem btFail_reacted (hlive : Live b (axNo t j)) (hg : Fld.SF_AX_CFG_GRACE_BT b.cfg (axNo t j) = false) : Safety.reacts now 8 b (btFail now (axNo t j) b) t j := by
  have hreacts := beginReact_reacts (now := now) (cause := 8) (b := btFailedSet b) hj ⟨hlive.used, hlive.enabled, hlive.react⟩ (by decide)
  obtain ⟨-, hsf, hnat⟩ := btFail_fails (now := now) hg
  exact reacts_testOver hsf hnat (reacts_congr (b' := btFailedSet b) rfl ⟨rfl, rfl, rfl, rfl⟩ hreacts)

/-- What a failed brake test leaves of its axis (R527, R529, R535). -/
theorem btFail_leaves {live : Prop} (hn : isNative b t j = true) (hlive : live → Live b (axNo t j)) : let a := axNo t j
    let x := b.sfAxAt a
    let c := btFail now a b
    let y := c.sfAxAt a
    c.sf.btFailed = true ∧ y.bt.st = .idle ∧ y.bt.result = 2 ∧
      (Fld.SF_AX_CFG_GRACE_BT b.cfg a = true → y.grace = some (now, 8) ∧ c.natAt t j = { b.natAt t j with hold := none } ∧ y.permit = x.permit ∧ y.flt = x.flt) ∧
      (Fld.SF_AX_CFG_GRACE_BT b.cfg a = false → live → Safety.reacts now 8 b c t j ∧ ∀ e, x.brkCmd = false → x.engAt = some e → brakeOf b a ≠ none →
        (e + engNs b a ≤ now → (c.natAt t j).st = .sto ∧ (c.natAt t j).gate = false ∧ y.permit = false) ∧
          (now < e + engNs b a → (c.natAt t j).st = .faultHold ∧ y.rmAt = some (e + engNs b a))) := by
  dsimp only
  cases hg : Fld.SF_AX_CFG_GRACE_BT b.cfg (axNo t j) with
  | true =>
    obtain ⟨hfailed, hsf, hnat⟩ := btFail_enters_grace (now := now) hj hst hg
    rw [hsf]
    exact ⟨hfailed, rfl, rfl, fun _ => ⟨rfl, hnat, rfl, rfl⟩, fun h => nomatch h⟩
  | false =>
    obtain ⟨hfailed, hsf, -⟩ := btFail_fails (now := now) hg
    refine ⟨hfailed, by rw [hsf]; rfl, by rw [hsf]; rfl, (fun h => nomatch h), fun _ hl => ?_⟩
    exact ⟨btFail_reacted hj (hlive hl) hg, fun e hcmd he hb => btFail_since hj hst (hlive hl) hn hg hcmd he hb⟩

end

end

end Sys2Proof.Proofs
end

section
/-! The timed actions of the safety engine as commands (R207, R503, R511, R517, R524, R526, R527, R535). -/

namespace Sys2Proof.Proofs

open Sys2Proof.Machine

/-! ### Actions of the evaluations -/

section
variable {c : Instr} {f : Nat → Block → Block} {s : State} (hc : exec c s = onRun (atEval f) s) (hrun : s.b.run.on = true)
include hc hrun

/-- Between evaluations, and after ENGINE_FAULT, an action of the evaluations does nothing (R503, R511). -/
theorem turns_atEval_off (h : s.clk.lattice % 125000 ≠ 0 ∨ s.b.sf.fault = true) : Turns c s s.b :=
  turns_onRun hc hrun (if_neg (by rcases h with h | h <;> simp [evalNs, h]))

variable (h0 : s.clk.lattice % 125000 = 0) (hf : s.b.sf.fault = false)
include h0 hf

theorem turns_atEval {y : Block} (h : f s.clk.lattice s.b = y) : Turns c s y :=
  turns_onRun hc hrun ((if_pos (by simp [evalNs, h0, hf])).trans h)

theorem gives_atEval {a : Nat} {P : State → Prop} (hb : Beside a s.b (f s.clk.lattice s.b)) (hP : P { s with b := f s.clk.lattice s.b }) :
    Gives c s fun u => u.clk = s.clk ∧ Beside a s.b u.b ∧ P u :=
  ⟨_, turns_atEval hc hrun h0 hf rfl, rfl, hb, hP⟩

end

/-! ### The stop and grace mode of one axis -/

section
variable {now t j : Nat} {b : Block} (hj : j < 16)
include hj

theorem fast_iff : Fast b (axNo t j) ↔ (Fld.SF_AX_GRACE_V_GRACE_V b.cfg (axNo t j) : Int) * 2 ^ 32 < (axSpeed b t j).natAbs := by
  unfold Fast; rw [axNo_div hj, axNo_mod hj]

section
variable {t0 : Nat} {g : Bool} (h : (b.sfAxAt (axNo t j)).stop = some (t0, g))
include h

theorem stopEval_stands (hlt : now < stopEnds b (axNo t j) t0) (hg : (b.genAt t j).st ≠ .idle ∨ now ≤ t0) : stopEval now (axNo t j) b = b :=
  stopEval_runs h hlt (by rwa [axNo_div hj, axNo_mod hj])

/-- A stop that ends at rest leaves STOP_TIMEOUT; one of grace mode ends in a reaction of its own cause (R517, R535). -/
theorem stopEval_ends (hlt : now < stopEnds b (axNo t j) t0) (h0 : t0 < now) (hg : (b.genAt t j).st = .idle) (hlive : Live b (axNo t j)) :
    let c := stopEval now (axNo t j) b
    (c.sfAxAt (axNo t j)).stopTimeout = (b.sfAxAt (axNo t j)).stopTimeout ∧ (c.sfAxAt (axNo t j)).stop = none ∧ (g = true → Safety.reacts now 4 b c t j) := by
  dsimp only
  rw [stopEval_rests h hlt h0 (by rwa [axNo_div hj, axNo_mod hj])]
  obtain ⟨hstop, -, htimeout⟩ := beginReact_ends (now := now) (cause := if g then 4 else 0) hlive
  exact ⟨htimeout, hstop, fun hgr => by subst hgr; exact beginReact_reacts hj hlive (by decide)⟩

/-- A stop that reaches STOP_T sets STOP_TIMEOUT and ends in the fault reaction (R517). -/
theorem stopEval_times_out (hle : stopEnds b (axNo t j) t0 ≤ now) (hlive : Live b (axNo t j)) : let c := stopEval now (axNo t j) b
    (c.sfAxAt (axNo t j)).stopTimeout = true ∧ Safety.reacts now (if g = true then 4 else 2) b c t j := by
  have hlive' : Live (b.sfAxUpd (axNo t j) fun x => { x with stopTimeout := true }) (axNo t j) := hlive.sfAxUpd _ rfl
  dsimp only
  rw [stopEval_late h hle]
  refine ⟨?_, reacts_congr (sfAxUpd_cfg _ _ _) ?_ (beginReact_reacts hj hlive' (by cases g <;> decide))⟩
  · rw [(beginReact_ends hlive').2.2, sfAxAt_sfAxUpd]
  · rw [sfAxAt_sfAxUpd]; exact ⟨rfl, rfl, rfl, rfl⟩

omit hj in
theorem stopEval_late_idle (hle : stopEnds b (axNo t j) t0 ≤ now) (hlive : ¬Live b (axNo t j)) : let c := stopEval now (axNo t j) b
    (c.sfAxAt (axNo t j)).stopTimeout = true ∧ (c.sfAxAt (axNo t j)).flt = (b.sfAxAt (axNo t j)).flt := by
  have hlive' : ¬Live (b.sfAxUpd (axNo t j) fun x => { x with stopTimeout := true }) (axNo t j) := fun h' =>
    hlive ⟨h'.used, h'.enabled, by have hr := h'.react; rwa [sfAxAt_sfAxUpd] at hr⟩
  dsimp only
  rw [stopEval_late h hle]
  obtain ⟨htimeout, hflt⟩ := beginReact_not_live (now := now) (cause := if g then 4 else 2) hlive'
  rw [htimeout, hflt, sfAxAt_sfAxUpd]
  exact ⟨rfl, rfl⟩

end

/-- Grace mode whose speed is exceeded ends in the fault reaction (R534). -/
theorem graceEval_fast {g : Nat × Nat} (h : (b.sfAxAt (axNo t j)).grace = some g) (hf : Fast b (axNo t j)) (hlive : Live b (axNo t j)) :
    Safety.reacts now 3 b (graceEval now (axNo t j) b) t j := by
  rw [graceEval_check h, graceCheck_fast h hlive.react hf]
  exact beginReact_reacts hj hlive (by decide)

/-- Grace mode that expires ends in the reaction of a pulse-train axis, and in a commanded stop of any other (R535). -/
theorem graceEval_expires {g : Nat × Nat} {e : Nat} (h : (b.sfAxAt (axNo t j)).grace = some g) (hf : ¬Fast b (axNo t j)) (he : (b.sfAxAt (axNo t j)).graceExp = some e)
    (hlt : e < now) (hlive : Live b (axNo t j)) (hs : (b.sfAxAt (axNo t j)).stop = none) : let x := b.sfAxAt (axNo t j)
    let c := graceEval now (axNo t j) b
    let y := c.sfAxAt (axNo t j)
    (slotTy b t j = .pulse → Safety.reacts now 4 b c t j) ∧
      (slotTy b t j ≠ .pulse → y.stop = some (now, true) ∧ y.permit = x.permit ∧ y.grace = x.grace ∧ y.flt = x.flt) := by
  dsimp only
  rw [graceEval_check h, graceCheck_expires h hlive.react hf he hlt]
  refine ⟨fun hty => ?_, fun hty => beginStop_graceful hlive (by rwa [axNo_div hj, axNo_mod hj]) hs⟩
  rw [beginStop_pulse hlive (by rwa [axNo_div hj, axNo_mod hj])]
  exact beginReact_reacts hj hlive (by decide)

end

/-- Settles O48: each command is one action of the evaluations or `permitDue`, and a fault reaction of whatever cause leaves what `beginReact_reacts` says. -/
theorem safetyTimers : Obligations.SafetyTimers := by
  intro t i s x hrun hx
  subst hx
  intro now a live idle acts fast stopEnd
  have hi := i.isLt
  have hstop : exec (.stopTimeout t i) s = onRun (atEval fun now => stopEval now a) s := rfl
  have hgrace : exec (.graceExpiry t i) s = onRun (atEval fun now => graceEval now a) s := rfl
  have hlive : live → Live s.b a := (live_iff hi).2
  refine ⟨fun h => ⟨turns_atEval_off hstop hrun h, turns_atEval_off hgrace hrun h, fun j => turns_atEval_off (exec_brakeTestStep t j s) hrun h⟩, fun h0 hf => ?_, ?_⟩
  -- stops and grace mode
  · have stops : ∀ {P : State → Prop}, P { s with b := stopEval now a s.b } → acts (.stopTimeout t i) P := gives_atEval hstop hrun h0 hf (stopEval_beside now a s.b)
    have graces : ∀ {P : State → Prop}, P { s with b := graceEval now a s.b } → acts (.graceExpiry t i) P := gives_atEval hgrace hrun h0 hf (graceEval_beside now a s.b)
    have slow : ¬fast → ¬Fast s.b a := mt (fast_iff hi).1
    refine ⟨fun h => turns_atEval hstop hrun h0 hf (stopEval_none h), fun t0 g h hlt hg => turns_atEval hstop hrun h0 hf (stopEval_stands hi h hlt hg),
      fun t0 g h hlt h0 hg hl => stops (stopEval_ends hi h hlt h0 hg (hlive hl)), fun t0 g h hle hl => stops (stopEval_times_out hi h hle (hlive hl)),
      fun t0 g h hle hl => stops (stopEval_late_idle h hle (mt (live_iff hi).1 hl)), fun hg hreg => turns_atEval hgrace hrun h0 hf (graceEval_idle hg hreg),
      fun r c hg hreg hr hl hslow => graces ?_, fun g h hfast hl => graces (graceEval_fast hi h ((fast_iff hi).2 hfast) (hlive hl)),
      fun g h hslow he => turns_atEval hgrace hrun h0 hf ((graceEval_check h).trans (graceCheck_lasts (slow hslow) he)),
      fun g e h hslow he hlt hl hs => graces (graceEval_expires hi h (slow hslow) he hlt (hlive hl) hs)⟩
    dsimp only
    rw [graceEval_enters hg hreg hr (hlive hl) (slow hslow), graceEnter_sf]
    exact ⟨rfl, rfl, ⟨_, rfl, graceEnds_bounds⟩, fun k => by unfold Block.natAt; rw [graceEnter_nat], rfl⟩
  -- the brake test and FAULT_HOLD_END, on native axes
  · intro j hij hn
    have hstep : exec (.brakeTestStep t j) s = onRun (atEval fun now => btEval now a) s := by rw [exec_brakeTestStep]; unfold execBrakeTestStep; rw [← hij]
    have hhold : exec (.faultHoldEnd t j) s = onTile t (fun now => permitDue now a) s := by rw [exec_faultHoldEnd]; unfold execFaultHoldEnd; rw [← hij]
    rw [← hij]
    intro eng btT amps moved
    refine ⟨fun h0 hf => ?_, fun h => hhold.trans (onTile_dead _ _ _ h), fun hl h => turns_onTile hhold hl (permitDue_waits h), fun e hl he hle => ?_⟩
    · have tests : ∀ {P : State → Prop}, P { s with b := btEval now a s.b } → acts (.brakeTestStep t j) P := gives_atEval hstep hrun h0 hf (btEval_beside now a s.b)
      have waits : btEval now a s.b = s.b → idle (.brakeTestStep t j) := turns_atEval hstep hrun h0 hf
      refine ⟨fun h => waits (btEval_idle h), fun h hr => waits (btEval_requested_early h hr), fun h hr hs => tests (btEval_gives_way hi h hr hs),
        fun h hr hs => tests (btEval_begins hi h hr hs), fun h hlt => waits (btEval_engage_waits h hlt), fun h hle => tests (btEval_pushes hi h hle),
        fun h hm hlt => waits (btEval_pos_waits hi h hm hlt), fun h hm hle => tests (btEval_pulls hi h hm hle), fun h hm hlt => waits (btEval_neg_waits hi h hm hlt),
        fun h hle => tests (btEval_passes hi h hle), fun h hm => tests ?_⟩
      have hst : (s.b.sfAxAt a).bt.st = .pos ∨ (s.b.sfAxAt a).bt.st = .neg := h.imp_right And.left
      dsimp only
      rw [show btEval now a s.b = btFail now a s.b from h.elim (btEval_pos_moved hi · hm) fun h => btEval_neg_moved hi h.1 hm h.2]
      exact btFail_leaves hi hst hn hlive
    · obtain ⟨hpermit, hrm, hgate, hpwm, hstuck, hpass, hheld, hother⟩ := permitDue_removes he hle (show isNative s.b (a / 16) (a % 16) = true by rwa [axNo_div hi, axNo_mod hi])
      simp only [axNo_div hi, axNo_mod hi, natOf_axNo _ hi] at hgate hpwm hstuck hpass hheld hother
      exact ⟨_, turns_onTile hhold hl rfl, rfl, permitDue_beside now a s.b, hpermit, hrm, hgate, hpwm, hstuck, hpass, hheld, hother⟩

end Sys2Proof.Proofs
end

section
/-! Index events, SET_POS and the arming of the index reference (R217, R222 to R227, R289). -/

namespace Sys2Proof.Proofs

open Sys2Proof.Machine

theorem qdUpd_value (b : Block) (t q : Nat) (f : Qd → Qd) : b.qdUpd t q f = b.qdUpd t q fun _ => f (b.qdAt t q) := qdUpd_congr _ _ _ _ _ rfl

/-! ### An accepted change of Z, in the record of the channel -/

/-- A change of Z to `z` is an index event (R225): the active level, and the gate on A and B passed. -/
def IndexPasses (g : QdCfg) (z : Bool) (x : Qd) : Prop := z = g.zPol ∧ (g.idxGate = false ∨ (x.a = g.idxA ∧ x.b = g.idxB))

/-- A channel that has taken an index event with timestamp `ts` (R225). -/
def indexSees (ts : Nat) (z : Bool) (x : Qd) : Qd :=
  { x with z := z, idxSeen := true, idxTs := ts, idxPos := qdPos x (qdAtTs x ts).2, idxH := (qdAtTs x ts).2 }

section
variable {g : QdCfg} {now ts : Nat} {z : Bool} {x : Qd}

theorem qdIndex_other (h : ¬IndexPasses g z x) : qdIndex g now ts z x = ({ x with z := z }, false) :=
  if_neg fun hc => h (by simpa [IndexPasses] using hc)

theorem qdIndex_passes (h : IndexPasses g z x) : qdIndex g now ts z x =
    match x.armed with
    | some (r, v) => if r < now then ({ indexSees ts z x with armed := none, pend := some (.index now ts (qdAtTs x ts).2 v) }, true) else (indexSees ts z x, true)
    | none => (indexSees ts z x, true) :=
  (if_pos (by simpa [IndexPasses] using h)).trans rfl

theorem qdIndex_unarmed (h : IndexPasses g z x) (ha : x.armed = none) : qdIndex g now ts z x = (indexSees ts z x, true) := by
  rw [qdIndex_passes h, ha]

/-- The index reference acts on events after the tick at which it was armed (R227). -/
theorem qdIndex_early {r : Nat} {v : DWord} (h : IndexPasses g z x) (ha : x.armed = some (r, v)) (hle : now ≤ r) : qdIndex g now ts z x = (indexSees ts z x, true) := by
  rw [qdIndex_passes h, ha]; exact if_neg (Nat.not_lt.2 hle)

theorem qdIndex_armed {r : Nat} {v : DWord} (h : IndexPasses g z x) (ha : x.armed = some (r, v)) (hlt : r < now) : qdIndex g now ts z x =
    ({ indexSees ts z x with armed := none, pend := some (.index now ts (qdAtTs x ts).2 v) }, true) := by
  rw [qdIndex_passes h, ha]; exact if_pos hlt

end

/-! ### The change in the module -/

section
variable {now t q ts : Nat} {z : Bool} {b : Block} {y : Qd}

/-- A channel whose last accepted change of Z has timestamp `ts`. -/
def zStamped (ts : Nat) (y : Qd) : Qd := { y with inZ := { y.inZ with acc := some ts } }

theorem qdIndexOp_admitted (h : zAdmits b now t q ts z = true) : qdIndexOp now t q ts z b = qdIndexAccept now t q ts z b := if_pos h

theorem qdIndexOp_ignored (h : zAdmits b now t q ts z = false) : qdIndexOp now t q ts z b = b := if_neg (by simp [h])

theorem qdIndexAccept_eq {ev : Bool} (h : qdIndex (qdCfg b t q) now ts z (b.qdAt t q) = (y, ev)) :
    qdIndexAccept now t q ts z b = if ev && (b.qdAt t q).armed.isSome && y.armed.isNone then
        forL (indexSlots b t q) (fun j w => w.genUpd t j (homeRef now (homePos w t j) y.idxPos true)) (b.qdUpd t q fun _ => zStamped ts y)
      else b.qdUpd t q fun _ => zStamped ts y := by
  unfold qdIndexAccept; dsimp only; rw [h]; rfl

/-- An event that takes no armed reference concerns the channel alone. -/
theorem qdIndexAccept_quiet {ev : Bool} (h : qdIndex (qdCfg b t q) now ts z (b.qdAt t q) = (y, ev)) (hq : ev = false ∨ y.armed = (b.qdAt t q).armed) :
    qdIndexAccept now t q ts z b = b.qdUpd t q fun _ => zStamped ts y := by
  rw [qdIndexAccept_eq h, if_neg]
  rcases hq with hq | hq
  · simp [hq]
  · cases ha : (b.qdAt t q).armed <;> simp [hq, ha]

/-- An event that takes the armed reference is the reference of the homings that wait for it (R289). -/
theorem qdIndexAccept_takes (h : qdIndex (qdCfg b t q) now ts z (b.qdAt t q) = (y, true)) (ha : (b.qdAt t q).armed.isSome = true) (hy : y.armed = none) :
    qdIndexAccept now t q ts z b =
      forL (indexSlots b t q) (fun j w => w.genUpd t j (homeRef now (homePos w t j) y.idxPos true)) (b.qdUpd t q fun _ => zStamped ts y) := by
  rw [qdIndexAccept_eq h, if_pos (by simp [ha, hy])]

/-! ### The homings that take their reference -/

/-- References taken change generators alone. -/
theorem homeRefs_frame (l : List Nat) (x : DWord) (b : Block) :
    let c := forL l (fun j w => w.genUpd t j (homeRef now (homePos w t j) x true)) b
    c = { b with gen := c.gen } :=
  forL_keeps (fun c => c = { b with gen := c.gen }) l _ b (fun _ c hc => by rw [hc]; rfl) rfl

theorem homeRefs_qdAt (l : List Nat) (x : DWord) (b : Block) :
    (forL l (fun j w => w.genUpd t j (homeRef now (homePos w t j) x true)) b).qdAt t q = b.qdAt t q :=
  forL_keeps (fun c => c.qdAt t q = b.qdAt t q) l _ b (fun _ _ hc => hc) rfl

/-- Each slot of the list takes its reference once. -/
theorem genAt_homeRefs {l : List Nat} (hn : l.Nodup) (x : DWord) (b : Block) (k : Nat) :
    (forL l (fun j w => w.genUpd t j (homeRef now (homePos w t j) x true)) b).genAt t k =
      if k ∈ l then homeRef now (homePos b t k) x true (b.genAt t k) else b.genAt t k := by
  induction l generalizing b with
  | nil => rfl
  | cons j l ih =>
    obtain ⟨hj, hl⟩ := List.nodup_cons.1 hn
    refine (ih hl (b.genUpd t j (homeRef now (homePos b t j) x true))).trans ?_
    by_cases h : k = j
    · subst h; simp [hj]
    · rw [show (b.genUpd t j (homeRef now (homePos b t j) x true)).genAt t k = b.genAt t k from tabGet_upd_ne _ _ _ _ _ (by omega)]
      simp [h]; rfl

theorem indexSlots_nodup (b : Block) (t q : Nat) : (indexSlots b t q).Nodup := List.nodup_range.filter _

end

/-! ### Commands of QD_CTRL -/

section
variable {now t q : Nat} {b : Block}

theorem setPosOp_used (h : chanUsed b t q = true) : setPosOp now t q b = b.qdUpd t q fun _ => qdSetPos now (refVal b t q) (b.qdAt t q) :=
  (if_pos h).trans (qdUpd_value _ _ _ _)

theorem setPosOp_unused (h : ¬chanUsed b t q = true) : setPosOp now t q b = b := if_neg h

theorem idxArmOp_used (h : chanUsed b t q = true) : idxArmOp now t q b = b.qdUpd t q fun _ => qdIdxArm now (refVal b t q) (b.qdAt t q) :=
  (if_pos h).trans (qdUpd_value _ _ _ _)

theorem idxArmOp_unused (h : ¬chanUsed b t q = true) : idxArmOp now t q b = b := if_neg h

end

/-- Settles O17: an admitted change of Z is an index event or not, and an event meets no armed reference, one armed too late, or one that it takes. -/
theorem indexAndReference : Obligations.IndexAndReference := by
  intro t q s x hl hx
  subst hx
  intro now used to_ gate ref
  have acts : ∀ {ts z y}, qdIndexOp now t q ts z s.b = y → Turns (.indexEvent t q ts z) s y := fun h => turns_onTile (exec_indexEvent t q _ _ s) hl h
  refine ⟨fun ts z hadm => ?_, fun ts z h => acts (qdIndexOp_ignored h), fun h => turns_onTile (exec_setPos t q s) hl (setPosOp_used h),
    fun h => turns_onTile (exec_idxArm t q s) hl (idxArmOp_used h),
    fun h => ⟨turns_onTile (exec_setPos t q s) hl (setPosOp_unused h), turns_onTile (exec_idxArm t q s) hl (idxArmOp_unused h)⟩,
    turns_onTile (exec_idxDisarm t q s) hl (qdUpd_value _ _ _ _)⟩
  intro h x' y
  have quiet : ∀ {e y}, qdIndex (qdCfg s.b t q) now ts z (s.b.qdAt t q) = (y, e) → e = false ∨ y.armed = (s.b.qdAt t q).armed →
      to_ (.indexEvent t q ts z) (zStamped ts y) := fun h hq => acts ((qdIndexOp_admitted hadm).trans (qdIndexAccept_quiet h hq))
  refine ⟨fun hz hg ha => quiet (qdIndex_unarmed ⟨hz, hg⟩ ha) (.inr rfl), fun r v hz hg ha hle => quiet (qdIndex_early ⟨hz, hg⟩ ha hle) (.inr rfl),
    fun r v hz hg ha hlt => gives_onTile (exec_indexEvent t q ts z s) hl ?_,
    fun hz => quiet (qdIndex_other fun h => hz h.1) (.inl rfl), fun hg => quiet (qdIndex_other fun h => hg h.2) (.inl rfl)⟩
  dsimp only
  rw [qdIndexOp_admitted hadm, qdIndexAccept_takes (qdIndex_armed ⟨hz, hg⟩ ha hlt) (by simp [ha]) rfl]
  exact ⟨(homeRefs_qdAt _ _ _).trans (qdAt_qdUpd _ _ _ _), homeRefs_frame _ _ _, fun j => genAt_homeRefs (indexSlots_nodup _ _ _) _ _ _⟩

end Sys2Proof.Proofs
end

section
/-! What a fault of a quadrature channel leaves (R238, R240, R242, R244). -/

namespace Sys2Proof.Proofs

open Sys2Proof.Machine

/-! ### Updates of a channel in the frame of a fault -/

/-- Channels are told apart by their number in the table. -/
theorem qdAt_qdUpd_if (b : Block) (t k t' k' : Nat) (f : Qd → Qd) :
    (b.qdUpd t k f).qdAt t' k' = if t' * 8 + k' = t * 8 + k then f (b.qdAt t k) else b.qdAt t' k' := by
  split
  · next h => exact (congrArg (tabGet ({} : Qd) (b.qdUpd t k f).qd) h).trans (qdAt_qdUpd _ _ _ _)
  · next h => exact tabGet_upd_ne _ _ _ _ _ h

theorem qdAt_same (b : Block) {t k t' k' : Nat} (h : t' * 8 + k' = t * 8 + k) : b.qdAt t' k' = b.qdAt t k := congrArg (tabGet ({} : Qd) b.qd) h

/-- Updates that differ in the armed reference at most keep the frame of a fault. -/
theorem onlyFaults_qdUpd {b c : Block} {t k : Nat} {f g : Qd → Qd} (h : OnlyFaults b c)
    (hk : g (c.qdAt t k) = { f (b.qdAt t k) with armed := (g (c.qdAt t k)).armed }) : OnlyFaults (b.qdUpd t k f) (c.qdUpd t k g) := by
  obtain ⟨hframe, hchan⟩ := h
  refine ⟨(congrArg (fun d => d.qdUpd t k g) hframe).trans rfl, fun t' k' => ?_⟩
  rw [qdAt_qdUpd_if, qdAt_qdUpd_if]
  split
  · exact hk
  · exact hchan t' k'

/-- An update that changes nothing of a channel leaves every channel as it is. -/
theorem qdUpd_idle_only (b : Block) (t k : Nat) : OnlyFaults (b.qdUpd t k fun x => x) b := by
  refine ⟨rfl, fun t' k' => ?_⟩
  rw [qdAt_qdUpd_if]
  split
  · next h => rw [qdAt_same b h]
  · rfl

/-- Two updates of a channel leave what one leaves that does both. -/
theorem qdUpd_twice_only (b : Block) (t k : Nat) (f g : Qd → Qd) : OnlyFaults (b.qdUpd t k fun x => g (f x)) ((b.qdUpd t k f).qdUpd t k g) := by
  refine ⟨rfl, fun t' k' => ?_⟩
  rw [qdAt_qdUpd_if (b.qdUpd t k f), qdAt_qdUpd, qdAt_qdUpd_if b, qdAt_qdUpd_if b]
  split <;> rfl

/-! ### The fault of a channel -/

/-- A channel with fallback record `y`. -/
def withFallback (y : QdFallback) (x : Qd) : Qd := { x with fb := y }

/-- A channel with a request for fallback registered at `now`, unless one waits (R240). -/
def fallbackAsked (now : Nat) (x : Qd) : Qd := { x with fb := { x.fb with due := firstOf x.fb.due now } }

section
variable (now t k src : Nat) (b : Block)

/-- The loss of a fallback source changes no more than the faults of the axes on fallback (R244). -/
theorem fallbackLost_only : OnlyFaults b (fallbackLost now t src b) := by
  refine forL_keeps (OnlyFaults b) _ _ b (fun q c hc => ?_) (OnlyFaults.refl b)
  split
  · exact OnlyFaults.trans hc (axFault_only _ _ _ _ _)
  · exact hc

/-- A fault of a channel is a fault of axes, or the channel is to go on fallback (R240, R242). -/
theorem chanFault_cases : OnlyFaults b (chanFault now t k b) ∨
    chanFault now t k b = (fallbackLost now t (0x30 + k) b).qdUpd t k (fallbackAsked now) := by
  have hlost := fallbackLost_only now t (0x30 + k) b
  unfold chanFault; dsimp only
  split
  · exact .inl hlost
  · split
    · split
      · exact .inl hlost
      · exact .inr rfl
    · exact .inl (OnlyFaults.trans hlost (axFault_only _ _ _ _ _))

/-- A fault of a channel changes its fallback, and no more than a fault of axes besides. -/
theorem chanFault_only : OnlyFaults (b.qdUpd t k (withFallback ((chanFault now t k b).qdAt t k).fb)) (chanFault now t k b) := by
  rcases chanFault_cases now t k b with h | h
  · exact OnlyFaults.trans (onlyFaults_qdUpd (g := fun x => x) h (congrArg (withFallback ((chanFault now t k b).qdAt t k).fb) (h.2 t k))) (qdUpd_idle_only _ _ _)
  · rw [h]
    have hlost := fallbackLost_only now t (0x30 + k) b
    rw [qdAt_qdUpd]
    exact onlyFaults_qdUpd hlost (congrArg (withFallback (fallbackAsked now ((fallbackLost now t (0x30 + k) b).qdAt t k)).fb) (hlost.2 t k))

/-- The same for a fault that comes with an update of the channel. -/
theorem chanFault_qdUpd (f : Qd → Qd) : let c := chanFault now t k (b.qdUpd t k f)
    c.qdAt t k = { withFallback (c.qdAt t k).fb (f (b.qdAt t k)) with armed := (c.qdAt t k).armed } ∧
      OnlyFaults (b.qdUpd t k fun _ => withFallback (c.qdAt t k).fb (f (b.qdAt t k))) c := by
  dsimp only
  have honly := OnlyFaults.trans (qdUpd_twice_only b t k f _) (chanFault_only now t k (b.qdUpd t k f))
  rw [qdUpd_value] at honly
  have hchan := honly.2 t k
  rw [qdAt_qdUpd] at hchan
  exact ⟨hchan, honly⟩

variable {now t k b}

/-- Fallback users depend on the fallback of the channels alone. -/
theorem fallbackUsers_qdUpd {f : Qd → Qd} (h : (f (b.qdAt t k)).fb = (b.qdAt t k).fb) (t' : Nat) : fallbackUsers (b.qdUpd t k f) t' src = fallbackUsers b t' src := by
  have hfb : ∀ q, ((b.qdUpd t k f).qdAt t' q).fb = (b.qdAt t' q).fb := fun q => by
    rw [qdAt_qdUpd_if]
    split
    · next e => rw [h, qdAt_same b e]
    · rfl
  simp only [fallbackUsers, hfb, qdUpd_cfg]; rfl

theorem fallbackLost_unused (h : fallbackUsers b t src = []) : fallbackLost now t src b = b := by unfold fallbackLost; rw [h]; rfl

/-- The channel commutates the axis it is assigned to. -/
def Commutates (b : Block) (t k : Nat) : Prop :=
  slotTy b t (Fld.QD_ASSIGN_SLOT b.cfg t k) = .n3ph ∧ Fld.AX_COMM_QCH b.cfg t (Fld.QD_ASSIGN_SLOT b.cfg t k) = k

theorem chanFault_assigned (hu : fallbackUsers b t (0x30 + k) = []) (hused : chanUsed b t k = true) : let j := Fld.QD_ASSIGN_SLOT b.cfg t k
    chanFault now t k b =
      if !axDisabled b t j && Fld.QD_FB_CFG_FB_EN b.cfg t k && !(decide (slotTy b t j = .n3ph) && decide (Fld.AX_COMM_QCH b.cfg t j = k)) then
        if (b.qdAt t k).fb.on then b else b.qdUpd t k (fallbackAsked now)
      else axFault now 1 t j b := by
  have hslot : chanSlot b t k = some (Fld.QD_ASSIGN_SLOT b.cfg t k) := if_pos hused
  unfold chanFault; dsimp only
  rw [fallbackLost_unused _ hu, hslot]; rfl

/-- A channel that is not the commutation channel goes on fallback where FB_EN is set (R240). -/
theorem chanFault_falls_back (hu : fallbackUsers b t (0x30 + k) = []) (hused : chanUsed b t k = true) (hd : axDisabled b t (Fld.QD_ASSIGN_SLOT b.cfg t k) = false)
    (hen : Fld.QD_FB_CFG_FB_EN b.cfg t k = true) (hc : ¬Commutates b t k) : ((chanFault now t k b).qdAt t k).fb =
      if (b.qdAt t k).fb.on then (b.qdAt t k).fb else { (b.qdAt t k).fb with due := some ((b.qdAt t k).fb.due.getD now) } := by
  rw [chanFault_assigned hu hused, if_pos]
  · split
    · rfl
    · rw [qdAt_qdUpd, ← firstOf_eq]; rfl
  · simpa [hd, hen, Commutates, imp_iff_not_or] using hc

/-- Any other channel faults its axis (R242). -/
theorem chanFault_faults (hu : fallbackUsers b t (0x30 + k) = []) (hused : chanUsed b t k = true) (h : Fld.QD_FB_CFG_FB_EN b.cfg t k = false ∨ Commutates b t k) :
    chanFault now t k b = axFault now 1 t (Fld.QD_ASSIGN_SLOT b.cfg t k) b := by
  rw [chanFault_assigned hu hused, if_neg]
  rcases h with h | ⟨hty, hch⟩
  · simp [h]
  · simp [hty, hch]

end

end Sys2Proof.Proofs
end

section
/-! The leaky count, standstill, the receiver fault of a channel, and the clearing of its faults (R230, R234, R235, R238 to R242). -/

namespace Sys2Proof.Proofs

open Sys2Proof.Machine

section
variable {now t q : Nat} {b : Block}

/-! ### The leaky count -/

/-- `now` is a multiple of ILL_LEAK of a channel in use (R234). -/
def Leaks (b : Block) (now t q : Nat) : Prop :=
  chanUsed b t q = true ∧ Fld.QD_ILL_ILL_LEAK b.cfg t q ≠ 0 ∧ now % (Fld.QD_ILL_ILL_LEAK b.cfg t q * 1000) = 0

theorem leakOp_leaks (h : Leaks b now t q) : leakOp now t q b = b.qdUpd t q fun _ => qdLeak now (b.qdAt t q) := by
  obtain ⟨hused, hleak, hmul⟩ := h
  exact (if_pos (by simp [hused, hleak, hmul])).trans (qdUpd_value _ _ _ _)

theorem leakOp_waits (h : ¬Leaks b now t q) : leakOp now t q b = b :=
  if_neg fun hc => h (by simpa [Leaks, and_assoc] using hc)

/-! ### Standstill -/

theorem qdStandstill_due {g : QdCfg} {x : Qd} (hs : x.standstill = false) (h : x.lastReg + g.stillT ≤ now) :
    qdStandstill g now x = { x with standstill := true, run := [], runDir := 0 } := if_pos (by simp [hs, h])

theorem qdStandstill_not_due {g : QdCfg} {x : Qd} (h : x.standstill = true ∨ now < x.lastReg + g.stillT) : qdStandstill g now x = x :=
  if_neg (by rcases h with h | h <;> simp [h])

theorem stillOp_value : stillOp now t q b = b.qdUpd t q fun _ => qdStandstill (qdCfg b t q) now (b.qdAt t q) := qdUpd_value _ _ _ _

/-! ### The receiver -/

/-- The receiver of a channel in use is monitored and has no fault yet (R235). -/
def Receives (b : Block) (t q : Nat) : Prop := chanUsed b t q = true ∧ Fld.QD_CFG_RX_EN b.cfg t q = true ∧ (b.qdAt t q).flt.rx = false

/-- A channel with its receiver fault. -/
def rxFails (x : Qd) : Qd := { x with flt := { x.flt with rx := true, rxLevel := true } }

theorem rxTrip_receives (h : Receives b t q) : rxTrip now t q b = chanFault now t q (b.qdUpd t q rxFails) := by
  obtain ⟨hused, hen, hrx⟩ := h
  exact if_pos (by simp [hused, hen, hrx])

theorem rxTrip_stands (h : ¬Receives b t q) : rxTrip now t q b = b :=
  if_neg fun hc => h (by simpa [Receives, and_assoc] using hc)

/-! ### QD_FAULT -/

/-- Bits written as 1 clear, ILLEGAL below its threshold and RX_FAULT with its level inactive (R239). -/
theorem qdFaultClear_word (g : QdCfg) (m : Word) (x : Qd) : qdFaultClear g m.toNat x = { x with flt := { x.flt with
    illegal := x.flt.illegal && !(m.getLsbD 1 && decide (x.flt.illLeaky < g.illThr))
    rx := x.flt.rx && !(m.getLsbD 2 && !x.flt.rxLevel)
    freeze := x.flt.freeze && !m.getLsbD 3 } } := by simp only [qdFaultClear, bit_toNat]

end

/-- Settles O18: the receiver fault by what `chanFault` leaves, every other row by its function of the channel's record. -/
theorem feedbackFaults : Obligations.FeedbackFaults := by
  intro t q s x hl hx
  subst hx
  intro now j commutates to_ leaks receives
  have leak : ∀ {y}, leaks → qdLeak now (s.b.qdAt t q) = y → to_ (.illLeak t q) y := fun h hy =>
    turns_onTile (exec_illLeak t q s) hl ((leakOp_leaks h).trans (by rw [← hy]))
  have still : ∀ {y}, qdStandstill (qdCfg s.b t q) now (s.b.qdAt t q) = y → to_ (.standstill t q) y := fun hy =>
    turns_onTile (exec_standstill t q s) hl (stillOp_value.trans (by rw [← hy]))
  refine ⟨fun h hn => leak h (if_neg hn), fun h hn => leak h (if_pos hn), fun h => turns_onTile (exec_illLeak t q s) hl (leakOp_waits h),
    fun hs h => still (qdStandstill_due hs h), fun h => still (qdStandstill_not_due h), fun h => gives_onTile (exec_rxFault t q s) hl ?_,
    fun h => turns_onTile (exec_rxFault t q s) hl (rxTrip_stands h), fun m => turns_onTile (exec_qdFaultClear t q m s) hl ?_⟩
  · dsimp only
    rw [rxTrip_receives h]
    obtain ⟨hchan, honly⟩ := chanFault_qdUpd now t q s.b rxFails
    obtain ⟨hused, -, -⟩ := h
    refine ⟨hchan, honly, fun hu hd hty => ?_⟩
    have hu' : fallbackUsers (s.b.qdUpd t q rxFails) t (0x30 + q) = [] := (fallbackUsers_qdUpd _ rfl _).trans hu
    refine ⟨fun ⟨hen, hcomm⟩ => ?_, fun hfb hr => ?_⟩
    · rw [chanFault_falls_back hu' hused hd hen hcomm, qdAt_qdUpd]; rfl
    · rw [chanFault_faults hu' hused hfb]
      exact axFault_cause now 1 t j _ hty hd hr
  · exact (qdUpd_value _ _ _ _).trans (congrArg (fun y => s.b.qdUpd t q fun _ => y) (qdFaultClear_word _ _ _))

end Sys2Proof.Proofs
end

section
/-! Counts and illegal transitions of a quadrature channel, in its record (R215, R217 to R221, R228, R230, R234). -/

namespace Sys2Proof.Proofs

open Sys2Proof.Machine

/-! ### One count -/

/-- A change of one of A and B counts by the Gray sequence 00, 10, 11, 01, the other way with DIR_INV (R215). -/
theorem countSign_of_one {a b a' b' : Bool} (inv : Bool) (h : (a = a' ∧ b ≠ b') ∨ (a ≠ a' ∧ b = b')) :
    countSign inv a b a' b' =
      if ((a = false ∧ b = false ∧ a' = true) ∨ (a = true ∧ b = false ∧ b' = true) ∨ (a = true ∧ b = true ∧ a' = false) ∨ (a = false ∧ b = true ∧ b' = false)) ↔ inv = false
      then 1 else -1 := by
  revert a b a' b' inv; decide

theorem countSign_ne_zero (inv a b a' b' : Bool) : countSign inv a b a' b' ≠ 0 := by
  unfold countSign; dsimp only; split <;> decide

/-- A count of sign `c` moves the position: hysteresis does not absorb it (R220, R221). -/
abbrev MovesPosition (g : QdCfg) (c : Int) (x : Qd) : Prop := g.hyst = false ∨ x.d = 0 ∨ c = x.d

/-- h after a count of sign `c`. -/
def countedH (g : QdCfg) (c : Int) (x : Qd) : Int := if MovesPosition g c x then x.h + c else x.h

section
variable (g : QdCfg) (now ts : Nat) (c : Int) (x : Qd)

theorem moves_eq : (!g.hyst || x.d == 0 || c == x.d) = decide (MovesPosition g c x) :=
  Bool.eq_iff_iff.2 (by simp [MovesPosition, or_assoc])

/-- What one count leaves of a channel; its run, its recent counts, what waits and its index position have lemmas of their own. -/
theorem qdCount_record : let y := qdCount g now ts c x
    y = { x with raw := x.raw + c, h := countedH g c x, d := c, lastReg := now, standstill := false, runDir := if MovesPosition g c x then c else 0
                 hPre := if x.lastReg = now then x.hPre else x.h, run := y.run, recent := y.recent, pend := y.pend, idxPos := y.idxPos, idxH := y.idxH } := by
  dsimp only
  unfold qdCount countedH
  simp only [moves_eq, decide_eq_true_eq]
  split <;> rfl

theorem qdCount_recent : (qdCount g now ts c x).recent =
    { ts := ts, raw := x.raw + c, h := countedH g c x, raw0 := x.raw, h0 := x.h } :: qdRecent ts x.recent := by
  unfold qdCount countedH
  simp only [moves_eq, decide_eq_true_eq]
  split <;> rfl

/-- The run ends with a count that hysteresis absorbs, begins anew with a new direction, and goes on otherwise (R228, R230). -/
theorem qdCount_run : (qdCount g now ts c x).run =
    if MovesPosition g c x then if x.runDir ≠ c ∨ x.run = [] then [ts] else ts :: qdRunKeep ts x.run else [] := by
  have hrun : (qdCount g now ts c x).run =
      if !decide (MovesPosition g c x) then [] else if decide (x.runDir ≠ c) || x.run.isEmpty then [ts] else ts :: qdRunKeep ts x.run := by
    unfold qdCount
    simp only [moves_eq]
    split <;> rfl
  rw [hrun]
  by_cases hm : MovesPosition g c x <;> simp [hm]

theorem qdCount_run_absorbed (h : ¬MovesPosition g c x) : (qdCount g now ts c x).run = [] := by rw [qdCount_run, if_neg h]

theorem qdCount_run_new (h : MovesPosition g c x) (hn : x.runDir ≠ c ∨ x.run = []) : (qdCount g now ts c x).run = [ts] := by
  rw [qdCount_run, if_pos h, if_pos hn]

theorem qdCount_run_on (h : MovesPosition g c x) (hd : x.runDir = c) (hr : x.run ≠ []) : (qdCount g now ts c x).run = ts :: qdRunKeep ts x.run := by
  rw [qdCount_run, if_pos h, if_neg (by simp [hd, hr])]

theorem qdCount_run_head (h : MovesPosition g c x) : (qdCount g now ts c x).run.head? = some ts := by
  rw [qdCount_run, if_pos h]; split <;> rfl

/-- A count moves an index position whose timestamp it does not follow (R225). -/
theorem qdCount_index : let y := qdCount g now ts c x
    (x.idxSeen = true ∧ ts ≤ x.idxTs → y.idxPos = x.idxPos + wrap64 ((countedH g c x - x.h) * 2 ^ 16) ∧ y.idxH = x.idxH + (countedH g c x - x.h)) ∧
      (¬(x.idxSeen = true ∧ ts ≤ x.idxTs) → y.idxPos = x.idxPos ∧ y.idxH = x.idxH) := by
  have hlate : (decide (ts ≤ x.idxTs) && x.idxSeen) = true ↔ x.idxSeen = true ∧ ts ≤ x.idxTs := by simp [and_comm]
  dsimp only
  unfold qdCount countedH
  simp only [moves_eq, decide_eq_true_eq, hlate]
  exact ⟨fun h => by rw [if_pos h]; exact ⟨rfl, rfl⟩, fun h => by rw [if_neg h]; exact ⟨rfl, rfl⟩⟩

end

/-! ### A change of A, of B or of both -/

/-- ILLEGAL is newly set at the threshold and not below it (R234). -/
theorem qdIllegal_quiet {g : QdCfg} {x : Qd} (h : x.flt.illegal = true ∨ min 255 (x.flt.illLeaky + 1) < g.illThr) :
    (qdIllegal g x).flt.illegal = false ∨ x.flt.illegal = true := by
  have hset : (qdIllegal g x).flt.illegal = (x.flt.illegal || decide (g.illThr ≤ min 255 (x.flt.illLeaky + 1))) := rfl
  rcases h with h | h
  · exact .inr h
  · rw [hset, decide_eq_false (Nat.not_le.2 h), Bool.or_false]
    cases x.flt.illegal <;> simp

section
variable (g : QdCfg) (now ts : Nat) {a b : Bool} {x : Qd}

theorem qdChange_one (h : (x.a = a ∧ x.b ≠ b) ∨ (x.a ≠ a ∧ x.b = b)) :
    qdChange g now ts a b x = { qdCount g now ts (countSign g.dirInv x.a x.b a b) x with a := a, b := b } := by
  unfold qdChange
  rcases h with ⟨ha, hb⟩ | ⟨ha, hb⟩ <;> simp [ha, hb]

theorem qdChange_both (ha : x.a ≠ a) (hb : x.b ≠ b) : qdChange g now ts a b x = { qdIllegal g x with a := a, b := b } := by
  unfold qdChange; simp [ha, hb]

theorem qdTake_none : qdTake g now ts x.a x.b x = x := by
  unfold qdTake qdChange; simp

/-- A land whose last accepted change has timestamp `ts`. -/
def landStamped (ts : Nat) (l : HoldIn) : HoldIn := { l with acc := some ts }

theorem qdTake_one (h : (x.a = a ∧ x.b ≠ b) ∨ (x.a ≠ a ∧ x.b = b)) : qdTake g now ts a b x =
    { qdCount g now ts (countSign g.dirInv x.a x.b a b) x with
      a := a, b := b, inA := if a = x.a then x.inA else landStamped ts x.inA, inB := if b = x.b then x.inB else landStamped ts x.inB } := by
  have hrec := qdCount_record g now ts (countSign g.dirInv x.a x.b a b) x
  unfold qdTake
  rw [qdChange_one g now ts h, hrec]; rfl

/-- What a change of one land leaves of its channel. -/
theorem qdTake_counts {c : Int} (h : (x.a = a ∧ x.b ≠ b) ∨ (x.a ≠ a ∧ x.b = b)) (hc : countSign g.dirInv x.a x.b a b = c) : let y := qdTake g now ts a b x
    y = { x with a := a, b := b, raw := x.raw + c, h := countedH g c x, d := c, lastReg := now, standstill := false, runDir := if MovesPosition g c x then c else 0
                 hPre := if x.lastReg = now then x.hPre else x.h
                 inA := if a = x.a then x.inA else landStamped ts x.inA, inB := if b = x.b then x.inB else landStamped ts x.inB
                 run := y.run, recent := y.recent, pend := y.pend, idxPos := y.idxPos, idxH := y.idxH } ∧
      (¬MovesPosition g c x → y.run = []) ∧
      (MovesPosition g c x → y.run.head? = some ts ∧ (x.runDir ≠ c ∨ x.run = [] → y.run = [ts]) ∧ (x.runDir = c → x.run ≠ [] → y.run = ts :: qdRunKeep ts x.run)) ∧
      y.recent = { ts := ts, raw := x.raw + c, h := countedH g c x, raw0 := x.raw, h0 := x.h } :: qdRecent ts x.recent ∧
      (x.idxSeen = true ∧ ts ≤ x.idxTs → y.idxPos = x.idxPos + wrap64 ((countedH g c x - x.h) * 2 ^ 16) ∧ y.idxH = x.idxH + (countedH g c x - x.h)) ∧
      (¬(x.idxSeen = true ∧ ts ≤ x.idxTs) → y.idxPos = x.idxPos ∧ y.idxH = x.idxH) := by
  dsimp only
  rw [qdTake_one g now ts h, hc]
  obtain ⟨hidx, hidx'⟩ := qdCount_index g now ts c x
  refine ⟨?_, qdCount_run_absorbed g now ts c x, fun hp => ⟨qdCount_run_head g now ts c x hp, qdCount_run_new g now ts c x hp, qdCount_run_on g now ts c x hp⟩,
    qdCount_recent g now ts c x, hidx, hidx'⟩
  exact congrArg (fun z : Qd => { z with
    a := a, b := b, inA := if a = x.a then x.inA else landStamped ts x.inA, inB := if b = x.b then x.inB else landStamped ts x.inB }) (qdCount_record g now ts c x)

theorem qdTake_both (ha : x.a ≠ a) (hb : x.b ≠ b) :
    qdTake g now ts a b x = { qdIllegal g x with a := a, b := b, inA := landStamped ts x.inA, inB := landStamped ts x.inB } := by
  unfold qdTake
  rw [qdChange_both g now ts ha hb]
  simp only [if_neg (Ne.symm ha), if_neg (Ne.symm hb)]; rfl

end

end Sys2Proof.Proofs
end

section
/-! An accepted change of A or B in the module (R217 to R221, R232, R234, R319). -/

namespace Sys2Proof.Proofs

open Sys2Proof.Machine

/-! ### Probes and compares that see a count -/

/-- The frame of a count beside its channel: probe entries, compares, trigger sequencers and captures on their way. -/
def OnlySeen (b c : Block) : Prop := c = { b with prb := c.prb, cmp := c.cmp, aq := c.aq, nt := { b.nt with fly := c.nt.fly } }

theorem OnlySeen.qdAt {b c : Block} (h : OnlySeen b c) (t q : Nat) : c.qdAt t q = b.qdAt t q := by
  unfold OnlySeen at h; rw [h]; rfl

theorem OnlySeen.of_qdUpd {b c : Block} {t q : Nat} {f : Qd → Qd} (h : OnlySeen (b.qdUpd t q f) c) :
    c = { b with qd := c.qd, prb := c.prb, cmp := c.cmp, aq := c.aq, nt := { b.nt with fly := c.nt.fly } } :=
  congrArg (fun d : Block => { d with qd := c.qd }) h

theorem OnlySeen.refl (b : Block) : OnlySeen b b := rfl

theorem OnlySeen.trans {b c d : Block} (h : OnlySeen b c) (h' : OnlySeen c d) : OnlySeen b d := by
  unfold OnlySeen at *; rw [h', h]

section
variable (now t q ts : Nat)

theorem probesCount_seen (dRaw dh : Int) (b : Block) : OnlySeen b (probesCount t q ts dRaw dh b) := by
  unfold probesCount
  refine forN_keeps (OnlySeen b) 4 _ _ (fun p c hc => ?_) (forL_keeps (OnlySeen b) _ _ b (fun p c hc => hc.trans rfl) (.refl b))
  split
  · exact hc.trans rfl
  · exact hc

theorem cmpCount_seen (k : Nat) (x : Int) (b : Block) : OnlySeen b (cmpCount now t k x ts b) := by
  unfold cmpCount; dsimp only
  split <;> rfl

theorem cmpChannel_seen (b : Block) : OnlySeen b (cmpChannel now t q ts b) := by
  refine forN_keeps (OnlySeen b) 4 _ b (fun k c hc => ?_) (.refl b)
  split
  · exact hc.trans (cmpCount_seen _ _ _ _ _ _)
  · exact hc

end

/-! ### The change in the module -/

section
variable {now t q ts : Nat} {lvA lvB : Bool} {b : Block}

theorem qdChangeOp_admitted (h : qdAdmits b now t q ts lvA lvB = true) : qdChangeOp now t q ts lvA lvB b = qdAccept now t q ts lvA lvB b := if_pos h

theorem qdChangeOp_ignored (h : ¬qdAdmits b now t q ts lvA lvB = true) : qdChangeOp now t q ts lvA lvB b = b := if_neg h

variable {y : Qd} (hy : qdTake (qdCfg b t q) now ts lvA lvB (b.qdAt t q) = y)
include hy

theorem qdAccept_eq : qdAccept now t q ts lvA lvB b =
    let c := if y.flt.illegal && !(b.qdAt t q).flt.illegal then chanFault now t q (b.qdUpd t q fun _ => y) else b.qdUpd t q fun _ => y
    if y.raw = (b.qdAt t q).raw then c else cmpChannel now t q ts (probesCount t q ts (y.raw - (b.qdAt t q).raw) (y.h - (b.qdAt t q).h) c) := by
  unfold qdAccept; dsimp only; rw [hy]

/-- A change that counts is seen by probes and compares. -/
theorem qdAccept_counts (hflt : y.flt = (b.qdAt t q).flt) (hraw : y.raw ≠ (b.qdAt t q).raw) : OnlySeen (b.qdUpd t q fun _ => y) (qdAccept now t q ts lvA lvB b) := by
  rw [qdAccept_eq hy]
  dsimp only
  rw [if_neg hraw, if_neg (by simp [hflt])]
  exact (probesCount_seen _ _ _ _ _ _).trans (cmpChannel_seen _ _ _ _ _)

/-- A change that does not count concerns the channel, unless ILLEGAL is newly set. -/
theorem qdAccept_quiet (hraw : y.raw = (b.qdAt t q).raw) (h : y.flt.illegal = false ∨ (b.qdAt t q).flt.illegal = true) :
    qdAccept now t q ts lvA lvB b = b.qdUpd t q fun _ => y := by
  rw [qdAccept_eq hy]
  dsimp only
  rw [if_pos hraw, if_neg (by rcases h with h | h <;> simp [h])]

theorem qdAccept_faults (hraw : y.raw = (b.qdAt t q).raw) (h : y.flt.illegal = true) (h' : (b.qdAt t q).flt.illegal = false) :
    qdAccept now t q ts lvA lvB b = chanFault now t q (b.qdUpd t q fun _ => y) := by
  rw [qdAccept_eq hy]
  dsimp only
  rw [if_pos hraw, if_pos (by simp [h, h'])]

/-- A change that does not count changes the channel, and no more than a fault of it besides. -/
theorem qdAccept_only (hraw : y.raw = (b.qdAt t q).raw) : let c := qdAccept now t q ts lvA lvB b
    c.qdAt t q = { withFallback (c.qdAt t q).fb y with armed := (c.qdAt t q).armed } ∧ OnlyFaults (b.qdUpd t q fun _ => withFallback (c.qdAt t q).fb y) c := by
  dsimp only
  by_cases h : y.flt.illegal = false ∨ (b.qdAt t q).flt.illegal = true
  · rw [qdAccept_quiet hy hraw h, qdAt_qdUpd]
    exact ⟨rfl, OnlyFaults.refl _⟩
  · rw [not_or, Bool.not_eq_false, Bool.not_eq_true] at h
    rw [qdAccept_faults hy hraw h.1 h.2]
    exact chanFault_qdUpd now t q b fun _ => y

end

/-- Settles O16: a change of one land counts, one of both is illegal, and one of none leaves the record as it is. -/
theorem quadratureCount : Obligations.QuadratureCount := by
  intro t q ts a b s x hl hx
  subst hx
  intro now admitted up c pos h others edge
  refine ⟨fun hadm hone => gives_onTile (exec_qdCount t q ts a b s) hl ?_, fun hadm ha hb => gives_onTile (exec_qdCount t q ts a b s) hl ?_,
    fun hadm ha hb => turns_onTile (exec_qdCount t q ts a b s) hl ?_, fun hadm => turns_onTile (exec_qdCount t q ts a b s) hl (qdChangeOp_ignored hadm)⟩
  · dsimp only
    rw [qdChangeOp_admitted hadm]
    have hsign : countSign (qdCfg s.b t q).dirInv (s.b.qdAt t q).a (s.b.qdAt t q).b a b = c := countSign_of_one _ hone
    have hne : c ≠ 0 := hsign ▸ countSign_ne_zero _ _ _ _ _
    obtain ⟨hrec, hrest⟩ := qdTake_counts (qdCfg s.b t q) now ts hone hsign
    have hseen := qdAccept_counts (y := qdTake (qdCfg s.b t q) now ts a b (s.b.qdAt t q)) rfl (by rw [hrec]) (by rw [hrec]; dsimp only; omega)
    have hothers : others { s with b := qdAccept now t q ts a b s.b } := fun t' q' hne' => by
      rw [hseen.qdAt, qdAt_qdUpd_ne _ _ _ _ _ _ q.isLt q'.isLt (by rwa [Fin.val_inj, Fin.val_inj])]
    have hqd : (qdAccept now t q ts a b s.b).qdAt t q = qdTake (qdCfg s.b t q) now ts a b (s.b.qdAt t q) := (hseen.qdAt t q).trans (qdAt_qdUpd _ _ _ _)
    rw [hqd]
    obtain ⟨habsorbed, hmoves, hrecent, hidx, hidx'⟩ := hrest
    exact ⟨hrec, habsorbed, hmoves, hrecent, hidx, hidx', hothers, hseen.of_qdUpd⟩
  · dsimp only
    rw [qdChangeOp_admitted hadm]
    have hy := qdTake_both (qdCfg s.b t q) now ts ha hb
    obtain ⟨hchan, honly⟩ := qdAccept_only hy rfl
    exact ⟨hchan, honly, fun hquiet => qdAccept_quiet hy rfl (qdIllegal_quiet (g := qdCfg s.b t q) (x := s.b.qdAt t q) hquiet)⟩
  · subst ha hb
    rw [qdChangeOp_admitted hadm]
    exact qdAccept_quiet (qdTake_none _ _ _) rfl (by simp)

end Sys2Proof.Proofs
end

section
/-! The probe FIFO (R216, R217, R231 to R233, R375). -/

namespace Sys2Proof.Proofs

open Sys2Proof.Machine

/-! ### The record of a probe -/

theorem prbUpd_value (b : Block) (t p : Nat) (f : Prb → Prb) : b.prbUpd t p f = b.prbUpd t p fun _ => f (b.prbAt t p) := prbUpd_congr _ _ _ _ _ rfl

/-- Two updates of a probe are one, when neither leaves the record that an unlisted probe reads as. -/
theorem prbUpd_prbUpd (b : Block) (t p : Nat) (f g : Prb → Prb) (hf : f (b.prbAt t p) ≠ {}) (hg : g (f (b.prbAt t p)) ≠ {}) :
    (b.prbUpd t p f).prbUpd t p g = b.prbUpd t p fun _ => g (f (b.prbAt t p)) :=
  congrArg (fun l => { b with prb := l }) ((tabUpd_upd {} b.prb (t * 4 + p) f g hf hg).trans (tabUpd_congr _ _ _ _ _ rfl))

/-- A probe that has taken a change registered with timestamp `ts`, with the positions at that timestamp (R232, R289). -/
def probeTakes (ts : Nat) (up : Bool) (at_ : Vector DWord 12) (x : Prb) : Prb :=
  { x with level := up, lastTs := ts, at_ := at_, inp := { x.inp with acc := some ts } }

/-- A probe whose last change has a timestamp is listed. -/
theorem prb_listed {x : Prb} {ts : Nat} (h : x.inp.acc = some ts) : x ≠ {} := by
  rintro rfl; cases h

theorem prbEdge_room (q : Qd) (ts : Nat) (up : Bool) {x : Prb} (h : x.fifo.length < 16) :
    prbEdge q ts up x = { x with fifo := x.fifo ++ [{ ts := ts, pos := qdPos q (qdAtTs q ts).2, raw := (qdAtTs q ts).1, rising := up }] } := if_pos h

theorem prbEdge_full (q : Qd) (ts : Nat) (up : Bool) {x : Prb} (h : 16 ≤ x.fifo.length) :
    prbEdge q ts up x = { x with lost := min 255 (x.lost + 1), ovf := true } := if_neg (Nat.not_lt.2 h)

/-- An edge that the FIFO takes or discards leaves the timestamp of the last change. -/
theorem prbEdge_inp (q : Qd) (ts : Nat) (up : Bool) (x : Prb) : (prbEdge q ts up x).inp = x.inp := by
  unfold prbEdge; split <;> rfl

/-! ### A change of its level -/

section
variable {now t p ts : Nat} {up : Bool} {b : Block}

/-- The filter of a probe in use accepts a change to `up` with timestamp `ts` and registers it at `now` (R216, R217). -/
def ProbeAdmits (b : Block) (now t p ts : Nat) (up : Bool) : Prop :=
  Fld.QD_PRB_CFG_EN b.cfg t p = true ∧ firstTick (Fld.QD_PRB_CFG_FILT b.cfg t p) ts now = true ∧ up ≠ (b.prbAt t p).level ∧
    heldFor (Fld.QD_PRB_CFG_FILT b.cfg t p) ts (b.prbAt t p).inp = true

theorem prbEdgeOp_admitted (h : ProbeAdmits b now t p ts up) : prbEdgeOp now t p ts up b = prbAccept now t p ts up b := by
  obtain ⟨hen, htick, hlevel, hheld⟩ := h
  exact if_pos (by simp [hen, htick, hlevel, hheld])

theorem prbEdgeOp_ignored (h : ¬ProbeAdmits b now t p ts up) : prbEdgeOp now t p ts up b = b :=
  if_neg fun hc => h (by simpa [ProbeAdmits, and_assoc] using hc)

/-- EDGE of the probe's configuration selects a change to `up` (R231). -/
def probeSelects (b : Block) (t p : Nat) (up : Bool) : Bool := bit (Fld.QD_PRB_CFG_EDGE b.cfg t p) (if up then 0 else 1)

/-- A change that EDGE does not select is the probe's level, and no more. -/
theorem prbAccept_unselected (h : ¬probeSelects b t p up = true) :
    prbAccept now t p ts up b = b.prbUpd t p fun _ => probeTakes ts up (positionsAt b t ts) (b.prbAt t p) :=
  (if_neg h).trans (prbUpd_value _ _ _ _)

/-- An edge that EDGE selects goes to the FIFO, and is an event unless the FIFO is full (R232, R233, R375). -/
theorem prbAccept_selected (h : probeSelects b t p up = true) :
    let c := b.prbUpd t p fun _ => prbEdge (b.qdAt t (Fld.QD_PRB_CFG_QCH b.cfg t p)) ts up (probeTakes ts up (positionsAt b t ts) (b.prbAt t p))
    prbAccept now t p ts up b = if 16 ≤ (b.prbAt t p).fifo.length then c else acqEvent now t (4 + p) c := by
  have htwo := prbUpd_prbUpd b t p (probeTakes ts up (positionsAt b t ts)) (prbEdge (b.qdAt t (Fld.QD_PRB_CFG_QCH b.cfg t p)) ts up)
    (prb_listed (ts := ts) rfl) (prb_listed (ts := ts) (by rw [prbEdge_inp]; rfl))
  rw [← htwo]
  refine (if_pos h).trans ?_
  simp only [decide_eq_true_eq]
  rfl

end

/-- Settles O19: a change is admitted or not, and an admitted one is selected into the FIFO or not. -/
theorem probes : Obligations.Probes := by
  intro t p s x hl hx
  subst hx
  have acts : ∀ {ts up y}, prbEdgeOp s.clk.lattice t p ts up s.b = y → Turns (.probeEdge t p ts up) s y := fun h =>
    turns_onTile (exec_probeEdge t p _ _ s) hl h
  refine ⟨fun ts up => ⟨fun ha hs hroom => acts ?_, fun ha hs hfull => acts ?_, fun ha hs => acts ?_, fun ha => acts (prbEdgeOp_ignored ha)⟩,
    turns_onTile (exec_prbPop t p s) hl ?_, turns_onTile (exec_prbFlush t p s) hl (prbUpd_value _ _ _ _)⟩
  · rw [prbEdgeOp_admitted ha, prbAccept_selected hs, if_neg (Nat.not_le.2 hroom), prbEdge_room _ _ _ (x := probeTakes ts up _ _) hroom]; rfl
  · rw [prbEdgeOp_admitted ha, prbAccept_selected hs, if_pos hfull, prbEdge_full _ _ _ (x := probeTakes ts up _ _) hfull]; rfl
  · rw [prbEdgeOp_admitted ha]; exact prbAccept_unselected hs
  · rw [prbUpd_value]; simp only [prbPop, List.drop_one]

end Sys2Proof.Proofs
end

section
/-! START, STOP and HOME of a profile generator (R265, R267, R269, R287, R293, R300). -/

namespace Sys2Proof.Proofs

open Sys2Proof.Machine

/-! ### The commands on the record of a generator -/

/-- A START that the generator turns away (R265). -/
def startRefused (g : Gen) : Gen := { g with fl := { g.fl with startRefused := true } }

/-- STOP withdraws the START and HOME that wait (R267). -/
def withdrawn (g : Gen) : Gen := { g with req := { g.req with startPending := false, start := none, home := none } }

/-- What STOP leaves of a generator beside its ramp: nothing waits, the host's stop is flagged, and a homing is aborted (R267, R269, R293). -/
def hostStopped (g : Gen) : Gen := { withdrawn g with fl := { g.fl with hostStop := true }, hm := homeEnd .aborted g.hm }

/-- The shadow allows a START: it is being fetched, or it is sealed and, while the position is uncertain, relative (R265). -/
def ShadowStarts (g : Gen) : Prop := g.shadow = .fetching ∨ (g.shadow = .sealed ∧ (g.uncertain = false ∨ g.shadowBank.rel = true))

section
variable {now dec : Nat} {ok : Bool} {g : Gen}

theorem shadowStarts_iff :
    (decide (g.shadow = .fetching) || decide (g.shadow = .sealed) && !(g.uncertain && !g.shadowBank.rel)) = true ↔ ShadowStarts g := by
  simp [ShadowStarts]

theorem not_shadowStarts (h : g.shadow = .empty ∨ (g.shadow = .sealed ∧ g.uncertain = true ∧ g.shadowBank.rel = false)) : ¬ShadowStarts g := by
  rcases h with h | ⟨h, hu, hr⟩
  · simp [ShadowStarts, h]
  · simp [ShadowStarts, h, hu, hr]

theorem pgStart_stopping (hok : ok = true) (h : g.st = .stopping) : pgStart now ok g = { g with req := { g.req with startPending := true } } :=
  if_pos (by simp [h, hok])

theorem pgStart_idle (hok : ok = true) (h : g.st = .idle) (hs : ShadowStarts g) :
    pgStart now ok g = { g with req := { g.req with start := some (g.req.start.getD now) } } := by
  unfold pgStart
  rw [if_neg (by simp [h]), if_pos (by rw [shadowStarts_iff.2 hs]; simp [h, hok])]

/-- START is refused unless the axis may move and stops, or idles with a shadow that allows it. -/
theorem pgStart_refused (h : ok = false ∨ g.st ≠ .stopping ∧ (g.st ≠ .idle ∨ ¬ShadowStarts g)) : pgStart now ok g = startRefused g := by
  unfold pgStart
  rcases h with hok | ⟨hst, hno⟩
  · rw [if_neg (by simp [hok]), if_neg (by simp [hok])]; rfl
  · rw [if_neg (by simp [hst]), if_neg]
    · rfl
    · rw [Bool.and_eq_true, shadowStarts_iff, Bool.and_eq_true, decide_eq_true_eq]
      exact fun ⟨⟨hidle, _⟩, hs⟩ => hno.elim (absurd hidle) (absurd hs)

theorem pgStop_idle (h : g.st = .idle) : pgStop now dec g = withdrawn g := if_pos h

/-- STOP in any other state begins a ramped stop. -/
theorem pgStop_moving (h : g.st ≠ .idle) : pgStop now dec g = { hostStopped g with req := stopReq now dec (withdrawn g).req } := if_neg h

theorem pgHome_idle (hok : ok = true) (h : g.st = .idle) :
    pgHome now ok g = { g with req := { g.req with startPending := false, home := some (g.req.home.getD now) }, hm := { g.hm with homed := false } } :=
  if_pos (by simp [h, hok])

theorem pgHome_refused (h : ok = false ∨ g.st ≠ .idle) :
    pgHome now ok g = { g with req := { g.req with startPending := false }, hm := { g.hm with res := .refused } } :=
  if_neg (by rcases h with h | h <;> simp [h])

end

/-! ### The commands on a slot -/

section
variable {now t j : Nat} {b : Block}

theorem genStart_alone (h : plgOf b t j = none) : genStart now t j b = b.genUpd t j fun _ => pgStart now (moveOk b t j) (b.genAt t j) :=
  genUpd_congr _ _ _ _ _ (by simp [h])

theorem genStart_member {m : Nat} (h : plgOf b t j = some m) : genStart now t j b = b.genUpd t j fun _ => startRefused (b.genAt t j) :=
  genUpd_congr _ _ _ _ _ (by simp [h, startRefused])

theorem genEnd_value (f : Gen → Gen) : genEnd t j f b = genEnd t j (fun _ => f (b.genAt t j)) b := by
  unfold genEnd; rw [genUpd_value]

/-- A homing aborted before its index disarms its channel, and no other one does (R289, R293). -/
theorem genEnd_aborted {g : Gen} (h : g.hm = homeEnd .aborted (b.genAt t j).hm) : genEnd t j (fun _ => g) b =
    if (b.genAt t j).hm.st = .index ∧ (b.genAt t j).hm.ref = none then indexDisarmed t j (b.genUpd t j fun _ => g) else b.genUpd t j fun _ => g := by
  unfold genEnd
  simp only [genAt_genUpd, h, homeEnd_st_ne_index, homeEnd_ref, ne_eq, not_false_eq_true, decide_true, Bool.and_true, Bool.and_eq_true, decide_eq_true_eq,
    Option.isNone_iff_eq_none]
  rfl

theorem genStopCmd_member {m : Nat} (h : plgOf b t j = some m) : genStopCmd now t j b = plgCommand now m .stop b := by
  simp only [genStopCmd, h]

theorem genStopCmd_servo (h : plgOf b t j = none) (hty : slotTy b t j ≠ .pulse) :
    genStopCmd now t j b = genEnd t j (fun _ => pgStop now (Fld.PG_DECEL_DEC b.cfg t j) (b.genAt t j)) b := by
  rw [← genEnd_value (pgStop now _)]
  simp only [genStopCmd, h, if_neg hty]

theorem genStopCmd_pulse (h : plgOf b t j = none) (hty : slotTy b t j = .pulse) :
    genStopCmd now t j b = immStop now t j (genEnd t j (fun _ => hostStopped (b.genAt t j)) b) := by
  rw [← genEnd_value hostStopped]
  simp only [genStopCmd, h, if_pos hty]
  rfl

/-- The group of a slot idles, or the slot is in none (R300). -/
def groupIdles (b : Block) (t j : Nat) : Bool :=
  match plgOf b t j with
  | some m => decide ((b.plgAt m).st = .idle)
  | none => true

theorem groupIdles_iff : groupIdles b t j = true ↔ ∀ m, plgOf b t j = some m → (b.plgAt m).st = .idle := by
  unfold groupIdles
  cases plgOf b t j <;> simp

theorem genHome_eq : genHome now t j b = b.genUpd t j fun _ => pgHome now (moveOk b t j && groupIdles b t j) (b.genAt t j) := genUpd_value _ _ _ _

end

/-- Settles O20: a command outside a group is its operation on the generator, and the end of a homing at its index disarms the channel. -/
theorem profileCommands : Obligations.ProfileCommands := by
  intro t j s g hl hg
  subst hg
  have starts : ∀ {y}, genStart s.clk.lattice t j s.b = y → Turns (.pgStart t j) s y := turns_onTile (exec_pgStart t j s) hl
  have stops : ∀ {y}, genStopCmd s.clk.lattice t j s.b = y → Turns (.pgStop t j) s y := turns_onTile (exec_pgStop t j s) hl
  have homes : ∀ {y}, genHome s.clk.lattice t j s.b = y → Turns (.pgHome t j) s y := turns_onTile (exec_pgHome t j s) hl
  refine ⟨fun hp => ⟨fun hm hst => starts ?_, fun hm hst hs => starts ?_, fun hm => starts ?_, fun hst => starts ?_, fun hst hs => starts ?_,
      fun hty hst => stops ?_, fun hty hst => stops ?_, fun hty => stops ?_⟩,
    fun m hp => starts (genStart_member hp), fun m hp hen => stops ?_, fun m hp hen => stops ?_, fun hm hst hi => homes ?_, fun h => homes ?_⟩
  · rw [genStart_alone hp, pgStart_stopping hm hst]
  · rw [genStart_alone hp, pgStart_idle hm hst hs]
  · rw [genStart_alone hp, pgStart_refused (.inl hm)]; rfl
  · rw [genStart_alone hp, pgStart_refused (.inr (by rcases hst with hst | hst <;> simp [hst]))]; rfl
  · rw [genStart_alone hp, pgStart_refused (.inr ⟨by simp [hst], .inr (not_shadowStarts hs)⟩)]; rfl
  · rw [genStopCmd_servo hp hty, pgStop_idle hst]; exact genEnd_same_homing rfl
  · rw [genStopCmd_servo hp hty, pgStop_moving hst, genEnd_aborted rfl, stopReq_eq]; rfl
  · rw [genStopCmd_pulse hp hty, immStop_alone (plgOf_genEnd.trans hp), genEnd_aborted rfl]
    simp only [firstOf_eq]
    rfl
  · rw [genStopCmd_member hp]; exact if_pos hen
  · rw [genStopCmd_member hp]; exact if_neg (Bool.eq_false_iff.1 hen)
  · rw [genHome_eq, pgHome_idle (by rw [hm, groupIdles_iff.2 hi]; rfl) hst]
  · rw [genHome_eq, pgHome_refused]
    rcases h with hm | hst | hi
    · exact .inl (by rw [hm]; rfl)
    · exact .inr hst
    · exact .inl (by rw [Bool.eq_false_iff.2 (mt groupIdles_iff.1 hi), Bool.and_false])

end Sys2Proof.Proofs
end

section
/-! The record of a step generator (R273, R274, R277, R278, R280). -/

namespace Sys2Proof.Proofs

open Sys2Proof.Machine

/-! ### Pulses that become due -/

section
variable {now : Nat} {k : Int} {r : Option Nat} {x : Pulse}

theorem resCarry_none : resCarry now none x = x := rfl

/-- A level that takes over is driven after the newest held pulse, or after the active one, or at once (R280). -/
theorem resCarry_held {l : List PulseEnt} {f : PulseEnt} {n : Nat} (h : x.held = l ++ [f]) :
    resCarry now (some n) x = { x with held := l ++ [{ f with res := some n }] } := by
  simp only [resCarry, h, List.getLast?_concat, List.dropLast_concat]

theorem resCarry_active {n : Nat} (h : x.held = []) (hs : x.step = true) : resCarry now (some n) x = { x with resNext := some n } := by
  simp only [resCarry, h, List.getLast?_nil, hs, if_true]

theorem resCarry_still {n : Nat} (h : x.held = []) (hs : x.step = false) : resCarry now (some n) x = { x with res := n, resSince := now } := by
  simp only [resCarry, h, List.getLast?_nil, hs, Bool.false_eq_true, if_false]

theorem pulseDue_alone (h : x.held = []) : pulseDue now k r x = { x with held := [{ q := k, res := r }] } := by
  simp only [pulseDue, h, List.getLast?_nil]

section
variable {l : List PulseEnt} {e : PulseEnt} (h : x.held = l ++ [e])
include h

theorem pulseDue_joins (hq : 0 ≤ e.q * k) : pulseDue now k r x = { x with held := l ++ [e, { q := k, res := r }] } := by
  simp only [pulseDue, h, List.getLast?_concat, if_neg (not_lt.2 hq), List.append_assoc, List.cons_append, List.nil_append]

/-- A due pulse of the other sign and the newest held one cancel; a level that was to follow either follows what is left (R277, log 60). -/
theorem pulseDue_cancels (hq : e.q * k < 0) : pulseDue now k r x = resCarry now (r.orElse fun _ => e.res) { x with held := l } := by
  simp only [pulseDue, h, List.getLast?_concat, if_pos hq, List.dropLast_concat]
  cases r <;> rfl

end

end

/-! ### One tick of the accumulator -/

/-- The accumulator crosses a multiple of `m` in the tick (R273). -/
abbrev Crosses (x : Pulse) (m : Int) : Prop := (x.a.toNat : Int) / m ≠ (x.a.toNat + x.w) / m

/-- A waiting level takes over: the tick crosses a full-step boundary (R280). -/
abbrev TakesLevel (x : Pulse) : Prop := x.target ≠ x.level ∧ Crosses x (2 ^ 48)

/-- The level that RES is to show after the pulse due in the tick. -/
def levelTaken (x : Pulse) : Option Nat := if TakesLevel x then some x.target else none

/-- The counts of a pulse due in the tick, with the sign of the velocity word. -/
def dueCounts (g : PulseCfg) (x : Pulse) : Int := if 0 < x.w then pulseQ g x.level else -(pulseQ g x.level : Int)

/-- The accumulator after the tick. -/
def advanced (now : Nat) (x : Pulse) : Pulse := { x with a := x.a + wrap64 x.w, advAt := now }

section
variable {g : PulseCfg} {now : Nat} {x : Pulse}

theorem pulseAdvance_again (h : x.advAt = now) : pulseAdvance g now x = x := if_pos h

theorem crosses_iff (m : Int) : crosses x.a.toNat x.w m = true ↔ Crosses x m := decide_eq_true_iff

theorem takesLevel_eq : (decide (x.target ≠ x.level) && crosses x.a.toNat x.w (2 ^ 48)) = decide (TakesLevel x) :=
  Bool.eq_iff_iff.2 (by rw [Bool.and_eq_true, crosses_iff, decide_eq_true_iff, decide_eq_true_iff])

theorem pulseAdvance_between (h : x.advAt ≠ now) (hd : ¬Crosses x (pulseQ g x.level * 2 ^ 40)) : pulseAdvance g now x = advanced now x :=
  (if_neg h).trans (if_neg (mt (crosses_iff _).1 hd))

theorem withLevel_same {n : Nat} (h : x.level = n) : { x with level := n } = x := by subst h; rfl

/-- A tick that crosses a boundary makes a pulse due, and then a waiting level takes over if the boundary is a full step. -/
theorem pulseAdvance_due {y : Pulse} (h : x.advAt ≠ now) (hd : Crosses x (pulseQ g x.level * 2 ^ 40))
    (hy : pulseDue now (dueCounts g x) (levelTaken x) (advanced now x) = y) (hl : y.level = x.level) :
    pulseAdvance g now x = { y with level := if TakesLevel x then x.target else x.level } := by
  subst hy
  refine (if_neg h).trans ((if_pos ((crosses_iff _).2 hd)).trans ?_)
  dsimp only
  rw [takesLevel_eq]
  by_cases hf : TakesLevel x
  · rw [decide_eq_true hf, levelTaken, if_pos hf, if_pos hf]; rfl
  · rw [levelTaken, if_neg hf] at hl
    rw [decide_eq_false hf, levelTaken, if_neg hf, if_neg hf]
    exact (withLevel_same hl).symm

/-- The due pulse cancels the newest held one, and a level that was to follow either goes on. -/
theorem pulseAdvance_cancels {l : List PulseEnt} {e : PulseEnt} {y : Pulse} {o : Option Nat} (h : x.advAt ≠ now) (hd : Crosses x (pulseQ g x.level * 2 ^ 40))
    (hh : x.held = l ++ [e]) (hq : e.q * dueCounts g x < 0) (ho : (levelTaken x).orElse (fun _ => e.res) = o)
    (hy : resCarry now o { advanced now x with held := l } = y) (hl : y.level = x.level) :
    pulseAdvance g now x = { y with level := if TakesLevel x then x.target else x.level } := by
  subst ho
  exact pulseAdvance_due h hd ((pulseDue_cancels (x := advanced now x) hh hq).trans hy) hl

end

/-! ### The issue of a pulse -/

/-- DIR turns for the oldest held pulse unless a pulse is active (R278). -/
def turnedFor (now : Nat) (e : PulseEnt) (x : Pulse) : Pulse :=
  if x.step = false ∧ x.dirNeg ≠ decide (e.q < 0) then { x with dirNeg := decide (e.q < 0), dirSince := now } else x

/-- STEP, DIR and RES have stood long enough (R277). -/
def Stood (g : PulseCfg) (now : Nat) (x : Pulse) : Prop :=
  x.step = false ∧ x.stepSince + 10 * g.stepW ≤ now ∧ x.dirSince + 10 * g.dirSetup ≤ now ∧ x.resSince + 10 * g.resSetup ≤ now

/-- The pulse `e` on STEP, with the pulses `l` held behind it (R274, R277). -/
def issued (now : Nat) (e : PulseEnt) (l : List PulseEnt) (x : Pulse) : Pulse :=
  { x with held := l, step := true, stepSince := now, x := x.x + wrap64 e.q, resNext := e.res,
           recent := (now, x.x, x.x + wrap64 e.q) :: x.recent.filter fun r => decide (now ≤ r.1 + 8192) }

section
variable {g : PulseCfg} {now : Nat} {e : PulseEnt} {l : List PulseEnt} {x : Pulse}

@[simp] theorem turnedFor_held : (turnedFor now e x).held = x.held := by unfold turnedFor; split <;> rfl

@[simp] theorem turnedFor_heldMax : (turnedFor now e x).heldMax = x.heldMax := by unfold turnedFor; split <;> rfl

@[simp] theorem turnedFor_x : (turnedFor now e x).x = x.x := by unfold turnedFor; split <;> rfl

@[simp] theorem turnedFor_recent : (turnedFor now e x).recent = x.recent := by unfold turnedFor; split <;> rfl

theorem pulseReady_iff : pulseReady g now x = true ↔ Stood g now x := by
  simp [pulseReady, Stood, and_assoc]

theorem pulseDir_held (h : x.held = e :: l) : pulseDir now x = turnedFor now e x := by
  simp only [pulseDir, h, turnedFor, Bool.and_eq_true, Bool.not_eq_true', decide_eq_true_eq]

theorem heldCount_empty (h : x.held = []) : heldCount x = x := by
  have hmax : max x.heldMax (min 255 x.held.length) = x.heldMax := by simp [h]
  unfold heldCount
  rw [hmax]

theorem pulseIssue_empty (h : x.held = []) : pulseIssue g now x = x := by
  have hdir : pulseDir now x = x := by simp only [pulseDir, h]
  unfold pulseIssue
  dsimp only
  rw [hdir]
  split
  · exact heldCount_empty h
  · next hc => cases h.symm.trans hc

theorem pulseIssue_held (h : x.held = e :: l) : pulseIssue g now x =
    heldCount (if decide ((turnedFor now e x).dirNeg = decide (e.q < 0)) && pulseReady g now (turnedFor now e x) then issued now e l (turnedFor now e x) else turnedFor now e x) := by
  unfold pulseIssue
  dsimp only
  rw [pulseDir_held h]
  split
  · next hc => cases h.symm.trans (turnedFor_held.symm.trans hc)
  · next hc => cases h.symm.trans (turnedFor_held.symm.trans hc); rfl

theorem pulseIssue_goes (h : x.held = e :: l) (hd : (turnedFor now e x).dirNeg = decide (e.q < 0)) (hs : Stood g now (turnedFor now e x)) :
    pulseIssue g now x = heldCount (issued now e l (turnedFor now e x)) := by
  rw [pulseIssue_held h, if_pos (by rw [pulseReady_iff.2 hs, decide_eq_true hd]; rfl)]

theorem pulseIssue_waits (h : x.held = e :: l) (hw : ¬((turnedFor now e x).dirNeg = decide (e.q < 0) ∧ Stood g now (turnedFor now e x))) :
    pulseIssue g now x = heldCount (turnedFor now e x) := by
  rw [pulseIssue_held h, if_neg (by rwa [Bool.and_eq_true, decide_eq_true_eq, pulseReady_iff])]

theorem heldCount_turned (h : x.held = e :: l) : heldCount (turnedFor now e x) = { turnedFor now e x with heldMax := max x.heldMax (min 255 (l.length + 1)) } := by
  have hmax : max (turnedFor now e x).heldMax (min 255 (turnedFor now e x).held.length) = max x.heldMax (min 255 (l.length + 1)) := by
    rw [turnedFor_heldMax, turnedFor_held, h, List.length_cons]
  unfold heldCount
  rw [hmax]

theorem heldCount_issued : heldCount (issued now e l (turnedFor now e x)) =
    { turnedFor now e x with
      held := l, step := true, stepSince := now, x := x.x + wrap64 e.q, resNext := e.res, heldMax := max x.heldMax (min 255 l.length)
      recent := (now, x.x, x.x + wrap64 e.q) :: x.recent.filter fun r => decide (now ≤ r.1 + 8192) } := by
  simp only [heldCount, issued, turnedFor_x, turnedFor_recent, turnedFor_heldMax]

/-! ### The end of a pulse -/

/-- STEP returns to its inactive level STEP_W after the edge, and a waiting RES code is driven (R277, R280). -/
theorem pulseFall_ends (h : x.step = true) (hw : x.stepSince + 10 * g.stepW ≤ now) : pulseFall g now x =
    { x with step := false, stepSince := now, res := x.resNext.getD x.res, resSince := if x.resNext = none then x.resSince else now, resNext := none } := by
  unfold pulseFall
  rw [if_pos (by simp [h, hw])]
  cases x.resNext <;> simp

theorem pulseFall_lasts (h : x.step = false ∨ now < x.stepSince + 10 * g.stepW) : pulseFall g now x = x :=
  if_neg (by rcases h with h | h <;> simp [h])

end

end Sys2Proof.Proofs
end

section
/-! The step generator of a pulse-train slot in the module (R273, R277, R319). -/

namespace Sys2Proof.Proofs

open Sys2Proof.Machine

section
variable {now t i j : Nat} {b : Block}

/-! ### Compares that see a pulse -/

theorem cmpCount_prb (c : Nat) (p : Int) (ts : Nat) : (cmpCount now t c p ts b).prb = b.prb := by
  unfold cmpCount; dsimp only
  split <;> rfl

theorem cmpPulse_seen : OnlySeen b (cmpPulse now t j b) := by
  refine forN_keeps (OnlySeen b) 4 _ b (fun c x hx => ?_) (.refl b)
  split
  · exact hx.trans (cmpCount_seen _ _ _ _ _ _)
  · exact hx

theorem cmpPulse_prb : (cmpPulse now t j b).prb = b.prb := by
  refine forN_keeps (fun x => x.prb = b.prb) 4 _ b (fun c x hx => ?_) rfl
  split
  · exact (cmpCount_prb _ _ _).trans hx
  · exact hx

theorem OnlySeen.of_pulseUpd {c : Block} {f : Pulse → Pulse} (h : OnlySeen (b.pulseUpd t i f) c) (hprb : c.prb = b.prb) :
    c = { b with pulse := c.pulse, cmp := c.cmp, aq := c.aq, nt := { b.nt with fly := c.nt.fly } } ∧ c.pulse = (b.pulseUpd t i f).pulse := by
  unfold OnlySeen at h
  exact ⟨(congrArg (fun d : Block => { d with pulse := c.pulse }) h).trans
    (congrArg (fun l => { b with pulse := c.pulse, prb := l, cmp := c.cmp, aq := c.aq, nt := { b.nt with fly := c.nt.fly } }) hprb), (congrArg Block.pulse h :)⟩

/-- The compares that see the pulse of a pulse-train axis concern themselves, the trigger sequencers and captures on their way (R319, R375, R460). -/
theorem cmpPulse_pulseUpd (f : Pulse → Pulse) : let c := cmpPulse now t j (b.pulseUpd t i f)
    c = { b with pulse := c.pulse, cmp := c.cmp, aq := c.aq, nt := { b.nt with fly := c.nt.fly } } ∧ c.pulse = (b.pulseUpd t i f).pulse :=
  cmpPulse_seen.of_pulseUpd cmpPulse_prb

/-! ### The actions of a slot -/

theorem pulseAdvanceAt_pulse (h : slotTy b t (4 + i) = .pulse) :
    pulseAdvanceAt now t i b = b.pulseUpd t i fun _ => pulseAdvance (pulseCfg b t (4 + i)) now (b.pulseAt t i) := (if_pos h).trans (pulseUpd_value _ _ _ _)

theorem pulseFallAt_pulse (h : slotTy b t (4 + i) = .pulse) :
    pulseFallAt now t i b = b.pulseUpd t i fun _ => pulseFall (pulseCfg b t (4 + i)) now (b.pulseAt t i) := (if_pos h).trans (pulseUpd_value _ _ _ _)

section
variable (h : slotTy b t (4 + i) = .pulse) {y : Pulse} (hy : pulseIssue (pulseCfg b t (4 + i)) now (b.pulseAt t i) = y)
include h hy

/-- An issue is seen by the compares of the slot. -/
theorem pulseIssueAt_goes (hlen : y.held.length < (b.pulseAt t i).held.length) : pulseIssueAt now t i b = cmpPulse now t (4 + i) (b.pulseUpd t i fun _ => y) := by
  subst hy; exact (if_pos h).trans (if_pos hlen)

theorem pulseIssueAt_waits (hlen : (b.pulseAt t i).held.length ≤ y.held.length) : pulseIssueAt now t i b = b.pulseUpd t i fun _ => y := by
  subst hy; exact (if_pos h).trans (if_neg (Nat.not_lt.2 hlen))

end

end

/-- Settles O23: a tick of the accumulator, the issue of the oldest held pulse and the end of a pulse, case by case on the record. -/
theorem stepPulses : Obligations.StepPulses := by
  intro t i s x hl hx
  subst hx
  have advances : ∀ {y}, pulseAdvanceAt s.clk.lattice t i s.b = y → Turns (.pulseDue t i) s y := turns_onTile (exec_pulseDue t i s) hl
  have issues : ∀ {y}, pulseIssueAt s.clk.lattice t i s.b = y → Turns (.pulseIssue t i) s y := turns_onTile (exec_pulseIssue t i s) hl
  have falls : ∀ {y}, pulseFallAt s.clk.lattice t i s.b = y → Turns (.stepPulseEnd t i) s y := turns_onTile (exec_stepPulseEnd t i s) hl
  refine ⟨fun hty => ⟨advances (if_neg hty), issues (if_neg hty), falls (if_neg hty)⟩, fun hty => ?_⟩
  have adv : ∀ {y}, pulseAdvance (pulseCfg s.b t (4 + i)) s.clk.lattice (s.b.pulseAt t i) = y → Turns (.pulseDue t i) s (s.b.pulseUpd t i fun _ => y) :=
    fun h => advances (by rw [pulseAdvanceAt_pulse hty, h])
  have fall : ∀ {y}, pulseFall (pulseCfg s.b t (4 + i)) s.clk.lattice (s.b.pulseAt t i) = y → Turns (.stepPulseEnd t i) s (s.b.pulseUpd t i fun _ => y) :=
    fun h => falls (by rw [pulseFallAt_pulse hty, h])
  refine ⟨fun h => adv (pulseAdvance_again h), fun h hd => adv (pulseAdvance_between h hd), fun h hd hh => adv ?_, fun l e h hd hh hq => adv ?_,
    fun l e h hd hh hq hr he => adv ?_, fun l f e n h hd hh hq hn => adv ?_, fun e n h hd hh hq hn hs => adv ?_, fun e n h hd hh hq hn hs => adv ?_,
    fun hh => issues ?_, fun e l hh hdir hs => gives_onTile (exec_pulseIssue t i s) hl ?_, fun e l hh hw => issues ?_,
    fun hs hw => fall (pulseFall_ends hs hw), fun h => fall (pulseFall_lasts h)⟩
  · exact pulseAdvance_due h hd (pulseDue_alone hh) rfl
  · exact pulseAdvance_due h hd (pulseDue_joins hh hq) rfl
  · have ho : (levelTaken (s.b.pulseAt t i)).orElse (fun _ => e.res) = none := by rw [show levelTaken _ = none from hr, he]; rfl
    exact pulseAdvance_cancels h hd hh hq ho resCarry_none rfl
  · exact pulseAdvance_cancels (l := l ++ [f]) h hd (by rw [List.append_assoc]; exact hh) hq hn (resCarry_held rfl) rfl
  · exact pulseAdvance_cancels (l := []) h hd hh hq hn (resCarry_active rfl hs) rfl
  · exact pulseAdvance_cancels (l := []) h hd hh hq hn (resCarry_still rfl hs) rfl
  · exact pulseIssueAt_waits hty (pulseIssue_empty hh) le_rfl
  · dsimp only
    rw [pulseIssueAt_goes hty (pulseIssue_goes hh hdir hs) (by simp [heldCount, issued, hh])]
    obtain ⟨hframe, hpulse⟩ := cmpPulse_pulseUpd (now := s.clk.lattice) (t := t) (i := i) (j := 4 + i) (b := s.b)
      fun _ => heldCount (issued s.clk.lattice e l (turnedFor s.clk.lattice e (s.b.pulseAt t i)))
    exact ⟨hframe, hpulse.trans (congrArg (fun y => (s.b.pulseUpd t i fun _ => y).pulse) heldCount_issued)⟩
  · rw [pulseIssueAt_waits hty (pulseIssue_waits hh hw) (by simp [heldCount]), heldCount_turned hh]
    rfl

end Sys2Proof.Proofs
end

section
/-! ENGAGE, DISENGAGE and ZERO of a clutch (R311, R312). -/

namespace Sys2Proof.Proofs

open Sys2Proof.Machine

/-- A command that acts on the clutch of a follower leaves its cam and its source values. -/
theorem turns_clutch {c : Instr} {t j : Nat} {f : Nat → Block → Clutch → Clutch} {s : State} {y : Clutch}
    (hc : exec c s = onTile t (fun now b => b.followUpd t j fun x => { x with cl := f now b x.cl }) s) (hl : tileLive s.b t = true)
    (hf : f s.clk.lattice s.b (s.b.followAt t j).cl = y) : Turns c s (s.b.followUpd t j fun _ => { s.b.followAt t j with cl := y }) :=
  turns_onTile hc hl (followUpd_congr _ _ _ _ _ (congrArg (fun y => { s.b.followAt t j with cl := y }) hf))

/-- A follower has a curve to follow: its gear, or the active bank of its cam (R311). -/
theorem noBank_eq_false {b : Block} {t j : Nat} (h : Fld.GR_FOLLOW_MODE b.cfg t j ≠ 2 ∨ (b.followAt t j).cam.active ≠ none) :
    (decide (Fld.GR_FOLLOW_MODE b.cfg t j = 2) && (b.followAt t j).cam.active.isNone) = false := by
  rw [Bool.and_eq_false_iff, decide_eq_false_iff_not, Option.isNone_eq_false_iff, Option.isSome_iff_ne_none]
  exact h

theorem noBank_eq_true {b : Block} {t j : Nat} (h : ¬(Fld.GR_FOLLOW_MODE b.cfg t j ≠ 2 ∨ (b.followAt t j).cam.active ≠ none)) :
    (decide (Fld.GR_FOLLOW_MODE b.cfg t j = 2) && (b.followAt t j).cam.active.isNone) = true := by
  rw [not_or, ne_eq, ne_eq, not_not, not_not] at h
  rw [decide_eq_true h.1, h.2]; rfl

section
variable {now : Nat} {k : Clutch}

theorem clEngage_free (h : k.st = .disengaged) (hr : k.req = none) : clEngage now false k = { k with req := some (now, true) } := by simp [clEngage, h, hr]

theorem clEngage_waiting (h : k.st = .disengaged) (hr : k.req ≠ none) : clEngage now false k = k := by
  simp [clEngage, h, Option.isSome_iff_ne_none.2 hr]

theorem clEngage_held (h : k.st = .disengaging ∨ k.st = .armedOff) : clEngage now false k = { k with pending := true } := by
  rcases h with h | h <;> simp [clEngage, h]

theorem clEngage_refused (h : k.st = .engaged ∨ k.st = .engaging ∨ k.st = .armed) : clEngage now false k = { k with refused := true } := by
  rcases h with h | h | h <;> simp [clEngage, h]

theorem clEngage_noBank : clEngage now true k = { k with refused := true } := rfl

theorem clDisengage_free (h : k.st = .disengaged) : clDisengage now k = { k with req := none } := by simp only [clDisengage, h]

theorem clDisengage_held (h : k.st = .disengaging ∨ k.st = .armedOff) : clDisengage now k = { k with pending := false } := by
  rcases h with h | h <;> simp only [clDisengage, h]

theorem clDisengage_waits (h : k.st = .engaged ∨ k.st = .engaging ∨ k.st = .armed) : clDisengage now k = { k with req := some (now, false) } := by
  rcases h with h | h | h <;> simp only [clDisengage, h]

theorem clZero_waits (h : k.st = .disengaged) : clZero now true k = { k with zero := some now } := if_pos (by simp [h])

theorem clZero_refused {dis : Bool} (h : k.st ≠ .disengaged ∨ dis = false) : clZero now dis k = { k with refused := true } :=
  if_neg (by rcases h with h | h <;> simp [h])

end

/-- Settles O25: each command is its operation on the clutch, state by state. -/
theorem clutches : Obligations.Clutches := by
  intro t j s f hl hf
  subst hf
  have engages : ∀ {y}, clEngage s.clk.lattice (decide (Fld.GR_FOLLOW_MODE s.b.cfg t j = 2) && (s.b.followAt t j).cam.active.isNone) (s.b.followAt t j).cl = y → _ :=
    turns_clutch (f := fun now b => clEngage now (decide (Fld.GR_FOLLOW_MODE b.cfg t j = 2) && (b.followAt t j).cam.active.isNone)) (exec_clutchEngage t j s) hl
  have disengages : ∀ {y}, clDisengage s.clk.lattice (s.b.followAt t j).cl = y → _ := turns_clutch (f := fun now _ => clDisengage now) (exec_clutchDisengage t j s) hl
  have zeroes : ∀ {y}, clZero s.clk.lattice (axDisabled s.b t j) (s.b.followAt t j).cl = y → _ :=
    turns_clutch (f := fun now b => clZero now (axDisabled b t j)) (exec_clutchZero t j s) hl
  refine ⟨fun hr h hq => engages ?_, fun hr h hq => engages ?_, fun hr h => engages ?_, fun hr h => engages ?_, fun hr => engages ?_,
    fun h => disengages (clDisengage_free h), fun h => disengages (clDisengage_held h), fun h => disengages (clDisengage_waits h),
    fun h hd => zeroes ?_, fun h => zeroes (clZero_refused h)⟩
  · rw [noBank_eq_false hr]; exact clEngage_free h hq
  · rw [noBank_eq_false hr]; exact clEngage_waiting h hq
  · rw [noBank_eq_false hr]; exact clEngage_held h
  · rw [noBank_eq_false hr]; exact clEngage_refused h
  · rw [noBank_eq_true hr]; exact clEngage_noBank
  · rw [hd]; exact clZero_waits h

end Sys2Proof.Proofs
end

section
/-! The cam unit of a slot (R315, R317, R318), and a remote master's value (R308). -/

namespace Sys2Proof.Proofs

open Sys2Proof.Machine

/-- A command that acts on the cam of a follower leaves its clutch and its source values. -/
theorem turns_cam {c : Instr} {t j : Nat} {f : Nat → Block → Cam → Cam} {s : State} {y : Cam}
    (hc : exec c s = onTile t (fun now b => b.followUpd t j fun x => { x with cam := f now b x.cam }) s) (hl : tileLive s.b t = true)
    (hf : f s.clk.lattice s.b (s.b.followAt t j).cam = y) : Turns c s (s.b.followUpd t j fun _ => { s.b.followAt t j with cam := y }) :=
  turns_onTile hc hl (followUpd_congr _ _ _ _ _ (congrArg (fun y => { s.b.followAt t j with cam := y }) hf))

/-! ### The shadow bank (R315) -/

/-- The bank that stands in for the shadow is valid (R315). -/
def camShadowOk (b : Block) (t j : Nat) : Bool :=
  camValid (bankBytes b.mem (camBank b t j (shadowNo (b.followAt t j).cam.active))) (Fld.GR_CAM_CFG_BANK_SIZE b.cfg t j) (Fld.GR_CAM_MIN_DX_VALUE b.cfg t j)

/-- With no bank active, a sealed one becomes active at once (R160). -/
def camFirst (k : Cam) : Cam := if k.shadow = .sealed && k.active.isNone then { k with active := some 0, shadow := .empty, lo := 0 } else k

theorem camSealDoneOp_eq (now t j : Nat) (b : Block) :
    camSealDoneOp now t j b = b.followUpd t j fun x => { x with cam := camFirst (camSealDone now (camShadowOk b t j) x.cam) } := rfl

section
variable {now : Nat} {k : Cam}

theorem camSealDone_valid (h : k.shadow = .fetching) : camSealDone now true k = { k with shadow := .sealed, sealedAt := now } := if_pos h

theorem camSealDone_invalid (h : k.shadow = .fetching) : camSealDone now false k = { k with shadow := .empty, sealErr := true } := if_pos h

theorem camFirst_taken (h : k.shadow = .sealed) (ha : k.active = none) : camFirst k = { k with active := some 0, shadow := .empty, lo := 0 } :=
  if_pos (by rw [h, ha]; rfl)

theorem camFirst_stands (h : k.shadow ≠ .sealed ∨ k.active ≠ none) : camFirst k = k :=
  if_neg (by rcases h with h | h <;> simp [h])

end

/-! ### The window of the buffer (R318) -/

/-- The interval found lies before the last point. -/
theorem camFind_lt {l : List CamPt} {i0 i : Nat} {x : Int} {lo hi : CamPt} (h : camFind l i0 x = some (i, lo, hi)) : i + 1 < i0 + l.length := by
  induction l generalizing i0 with
  | nil => simp [camFind] at h
  | cons p r ih =>
    cases r with
    | nil => simp [camFind] at h
    | cons q r =>
      rw [camFind] at h
      split at h
      · simp only [Option.some.injEq, Prod.mk.injEq] at h
        simp only [List.length_cons]; omega
      · have := ih h
        simp only [List.length_cons] at this ⊢; omega

/-- From the start `lo` of a window, point `i` is `d` points ahead, round the end of the cam. -/
theorem ahead_mod {n lo i d : Nat} (hd : d < n) (hlo : lo < n) (h : i = lo + d ∨ i + n = lo + d) : (i + n - lo % n) % n = d := by
  rw [Nat.mod_eq_of_lt hlo]
  rcases h with h | h
  · rw [show i + n - lo = d + n by omega, Nat.add_mod_right, Nat.mod_eq_of_lt hd]
  · rw [show i + n - lo = d by omega, Nat.mod_eq_of_lt hd]

/-- A window of more than 32 points that starts `d` points before interval `i` holds it while `d` is at most 30. -/
theorem camBuffered_of_ahead {k : Cam} {n i d : Nat} (hn : 32 < n) (hd : d ≤ 30) (hlo : k.lo < n) (h : i = k.lo + d ∨ i + n = k.lo + d) : camBuffered k n i = true := by
  unfold camBuffered
  rw [ahead_mod (by omega) hlo h, Bool.or_eq_true, decide_eq_true_eq, decide_eq_true_eq]
  omega

/-- The window that a fetch takes holds the interval in use and the point after it. -/
theorem camWindow_buffered {n i : Nat} (hi : i + 1 < n) (back periodic : Bool) (k : Cam) : camBuffered (camWindow n i back periodic k) n i = true := by
  by_cases hn : n ≤ 32
  · simp [camBuffered, hn]
  replace hn : 32 < n := by omega
  have h32 : 32 % n = 32 := Nat.mod_eq_of_lt hn
  cases back <;> cases periodic
  case false.true => exact camBuffered_of_ahead (d := 0) hn (by omega) (by show i < n; omega) (.inl rfl)
  case false.false =>
    have hlo : (camWindow n i false false k).lo = min i (n - 32) := rfl
    exact camBuffered_of_ahead (d := i - min i (n - 32)) hn (by omega) (by omega) (.inl (by omega))
  case true.false =>
    have hlo : (camWindow n i true false k).lo = min (i - 30) (n - 32) := rfl
    exact camBuffered_of_ahead (d := i - min (i - 30) (n - 32)) hn (by omega) (by omega) (.inl (by omega))
  case true.true =>
    have hlo : (camWindow n i true true k).lo = if 30 ≤ i then i - 30 else i + n - 30 := by
      show (i + 2 + n - 32 % n) % n = _
      rw [h32]
      split
      · rw [show i + 2 + n - 32 = i - 30 + n by omega, Nat.add_mod_right, Nat.mod_eq_of_lt (by omega)]
      · rw [Nat.mod_eq_of_lt (by omega)]; omega
    refine camBuffered_of_ahead (d := 30) hn le_rfl ?_ ?_ <;> rw [hlo] <;> split <;> omega

section
variable {t j i : Nat} {lo hi : CamPt} {b : Block}

theorem camFetch_found (h : camFind (camOf b t j).pts 0 (b.followAt t j).cam.xPrev = some (i, lo, hi)) :
    camFetch t j b = b.followUpd t j fun x =>
      { x with cam := camWindow (camOf b t j).pts.length i (decide (x.velP.toInt < 0)) (camOf b t j).periodic x.cam } := by
  unfold camFetch; dsimp only; rw [h]

theorem camFetch_none (h : camFind (camOf b t j).pts 0 (b.followAt t j).cam.xPrev = none) : camFetch t j b = b := by
  unfold camFetch; dsimp only; rw [h]

end

/-! ### Remote masters (R308) -/

section
variable {x t : Nat} {b : Block}

/-- A value sent to a remote master in use is the latest one of its slot, and replaces an older one. -/
theorem xmDeliver_used (h : Fld.GR_XM_EN b.cfg t x = true) :
    xmDeliver x t none b = b.xmUpd t x fun m =>
      let w := b.followAt (Fld.GR_XM_TILE b.cfg t x) (Fld.GR_XM_SLOT b.cfg t x)
      if m.at_ < w.at_ then { pos := w.pos, vel := w.vel, at_ := w.at_, posP := m.pos, velP := m.vel, atP := m.at_ } else m := if_pos h

theorem xmDeliver_unused (h : Fld.GR_XM_EN b.cfg t x = false) : xmDeliver x t none b = b := if_neg (Bool.eq_false_iff.1 h)

end

/-- Settles O26: the commands of the shadow bank by its state, a fetch by the window it takes, a remote master's value by its instant. -/
theorem cams : Obligations.Cams := by
  intro t j s f hl hf
  subst hf
  have seals : slotTy s.b t j ≠ .unused → ∀ {y}, camSeal (s.b.followAt t j).cam = y → Turns (.camSeal t j) s (s.b.followUpd t j fun _ => { s.b.followAt t j with cam := y }) :=
    fun hu _ h => turns_onTile (exec_camSeal t j s) hl ((if_neg hu).trans (followUpd_congr _ _ _ _ _ (congrArg (fun y => { s.b.followAt t j with cam := y }) h)))
  have checked : (s.b.followAt t j).cam.shadow = .fetching → ∀ {y}, camFirst (camSealDone s.clk.lattice (camShadowOk s.b t j) (s.b.followAt t j).cam) = y →
      Turns (.camSealDone t j) s (s.b.followUpd t j fun _ => { s.b.followAt t j with cam := y }) :=
    fun hs _ h => turns_onTile (exec_camSealDone t j s) hl
      ((if_pos hs).trans ((camSealDoneOp_eq _ _ _ _).trans (followUpd_congr _ _ _ _ _ (congrArg (fun y => { s.b.followAt t j with cam := y }) h))))
  have unseals : ∀ {y}, camUnseal (s.b.followAt t j).cam = y → _ := turns_cam (f := fun _ _ => camUnseal) (exec_camUnseal t j s) hl
  have reselects : ∀ {y}, camReselect s.clk.lattice (s.b.followAt t j).cam = y → _ := turns_cam (f := fun now _ => camReselect now) (exec_camReselect t j s) hl
  refine ⟨fun hu h => seals hu (if_pos h), fun hu h => seals hu (if_neg h), fun hu => turns_onTile (exec_camSeal t j s) hl (if_pos hu),
    fun h hok ha => checked h ?_, fun h hok ha => checked h ?_, fun h hok => checked h ?_,
    fun h => turns_onTile (exec_camSealDone t j s) hl (if_neg h), fun h => unseals (if_pos h), fun h => unseals (if_neg h), fun h => reselects (if_pos h),
    fun h => reselects (if_neg h), fun i lo hi h => gives_onTile (exec_camFetchArrival t j s) hl ?_, fun h => turns_onTile (exec_camFetchArrival t j s) hl (camFetch_none h),
    fun x m hm => ?_⟩
  · rw [show camShadowOk s.b t j = true from hok, camSealDone_valid h]; exact camFirst_stands (.inr ha)
  · rw [show camShadowOk s.b t j = true from hok, camSealDone_valid h]; exact camFirst_taken rfl ha
  · rw [show camShadowOk s.b t j = false from hok, camSealDone_invalid h]; exact camFirst_stands (.inl nofun)
  · refine ⟨_, congrArg (fun b => { s with b := b }) ((camFetch_found h).trans (followUpd_congr _ _ _ _ _ rfl)), ?_⟩
    exact camWindow_buffered (by simpa using camFind_lt h) _ _ _
  · subst hm
    have delivers : ∀ {y}, xmDeliver x t none s.b = y → Turns (.remoteMasterValue t x) s y := turns_onTile (exec_remoteMasterValue t x s) hl
    exact ⟨fun he hn => delivers ((xmDeliver_used he).trans (xmUpd_congr _ _ _ _ _ (if_pos hn))),
      fun he ho => delivers ((xmDeliver_used he).trans (xmUpd_congr _ _ _ _ _ (if_neg (Nat.not_lt.2 ho)))), fun he => delivers (xmDeliver_unused he)⟩

end Sys2Proof.Proofs
end

section
/-! Where a compare stands at an ARM, and what it sees of the ARM's own tick (R319 to R321). -/

namespace Sys2Proof.Proofs

open Sys2Proof.Machine

/-! ### The position of a pulse-train axis before a tick -/

section
variable {now : Nat} {p : Pulse} {e : Nat × DWord × DWord} {l : List (Nat × DWord × DWord)}

/-- X after the newest pulse, where every pulse kept is older than the tick. -/
theorem pulseXAt_still (hold : ∀ e ∈ p.recent, e.1 < now) (hx : ∀ e l, p.recent = e :: l → e.2.2 = p.x) : pulseXAt (now - 1) p = p.x := by
  unfold pulseXAt
  cases hr : p.recent with
  | nil => rfl
  | cons e l =>
    rw [hr] at hold
    have he : e.1 ≤ now - 1 := Nat.le_sub_one_of_lt (hold e List.mem_cons_self)
    rw [List.find?_cons_of_pos (by simpa using he)]
    exact hx e l hr

/-- X before the pulse of the tick itself, where every other pulse kept is older. -/
theorem pulseXAt_moved (h0 : 0 < now) (hr : p.recent = e :: l) (he : e.1 = now) (hold : ∀ e' ∈ l, e'.1 < now) (hx : ∀ e' l', l = e' :: l' → e'.2.2 = e.2.1) :
    pulseXAt (now - 1) p = e.2.1 := by
  have hskip : ¬e.1 ≤ now - 1 := by omega
  unfold pulseXAt
  rw [hr, List.find?_cons_of_neg (by simpa using hskip)]
  cases l with
  | nil => rfl
  | cons e' l' =>
    have he' : e'.1 ≤ now - 1 := Nat.le_sub_one_of_lt (hold e' List.mem_cons_self)
    rw [List.find?_cons_of_pos (by simpa using he')]
    exact hx e' l' rfl

end

/-! ### The source of a compare -/

section
variable {now t c : Nat} {b : Block}

theorem cmpPresent_chan (hs : 0x30 ≤ Fld.GR_CMP_CFG_SRC b.cfg t c) :
    cmpPresent b now t c = (qdPos (b.qdAt t (Fld.GR_CMP_CFG_SRC b.cfg t c - 0x30))
      (if (b.qdAt t (Fld.GR_CMP_CFG_SRC b.cfg t c - 0x30)).lastReg = now then (b.qdAt t (Fld.GR_CMP_CFG_SRC b.cfg t c - 0x30)).hPre
       else (b.qdAt t (Fld.GR_CMP_CFG_SRC b.cfg t c - 0x30)).h)).toInt := if_pos hs

theorem cmpPresent_pulse (hs : ¬0x30 ≤ Fld.GR_CMP_CFG_SRC b.cfg t c) (hty : slotTy b t (Fld.GR_CMP_CFG_SLOT b.cfg t c) = .pulse) :
    cmpPresent b now t c = (pulseXAt (now - 1) (b.pulseAt t (Fld.GR_CMP_CFG_SLOT b.cfg t c - 4))).toInt * 65536 := (if_neg hs).trans (if_pos hty)

theorem cmpPresent_slot (hs : ¬0x30 ≤ Fld.GR_CMP_CFG_SRC b.cfg t c) (hty : slotTy b t (Fld.GR_CMP_CFG_SLOT b.cfg t c) ≠ .pulse) :
    cmpPresent b now t c = (b.followAt t (Fld.GR_CMP_CFG_SLOT b.cfg t c)).pos.toInt := (if_neg hs).trans (if_neg hty)

theorem cmpSince_chan (hs : 0x30 ≤ Fld.GR_CMP_CFG_SRC b.cfg t c) (hreg : (b.qdAt t (Fld.GR_CMP_CFG_SRC b.cfg t c - 0x30)).lastReg = now) :
    cmpSince b now t c = (b.qdAt t (Fld.GR_CMP_CFG_SRC b.cfg t c - 0x30)).recent.head?.map fun r =>
      ((qdPos (b.qdAt t (Fld.GR_CMP_CFG_SRC b.cfg t c - 0x30)) (b.qdAt t (Fld.GR_CMP_CFG_SRC b.cfg t c - 0x30)).h).toInt, r.ts) := (if_pos hs).trans (if_pos hreg)

theorem cmpSince_chan_still (hs : 0x30 ≤ Fld.GR_CMP_CFG_SRC b.cfg t c) (hreg : (b.qdAt t (Fld.GR_CMP_CFG_SRC b.cfg t c - 0x30)).lastReg ≠ now) :
    cmpSince b now t c = none := (if_pos hs).trans (if_neg hreg)

theorem cmpSince_pulse {e : Nat × DWord × DWord} {l : List (Nat × DWord × DWord)} (hs : ¬0x30 ≤ Fld.GR_CMP_CFG_SRC b.cfg t c)
    (hty : slotTy b t (Fld.GR_CMP_CFG_SLOT b.cfg t c) = .pulse) (hr : (b.pulseAt t (Fld.GR_CMP_CFG_SLOT b.cfg t c - 4)).recent = e :: l) (he : e.1 = now) :
    cmpSince b now t c = some ((b.pulseAt t (Fld.GR_CMP_CFG_SLOT b.cfg t c - 4)).x.toInt * 65536, now) := by
  unfold cmpSince
  simp only [if_neg hs, if_pos hty, hr, List.head?_cons, if_pos he]

theorem cmpSince_pulse_still (hs : ¬0x30 ≤ Fld.GR_CMP_CFG_SRC b.cfg t c) (hty : slotTy b t (Fld.GR_CMP_CFG_SLOT b.cfg t c) = .pulse)
    (hold : ∀ e ∈ (b.pulseAt t (Fld.GR_CMP_CFG_SLOT b.cfg t c - 4)).recent, e.1 < now) : cmpSince b now t c = none := by
  unfold cmpSince
  simp only [if_neg hs, if_pos hty]
  cases hr : (b.pulseAt t (Fld.GR_CMP_CFG_SLOT b.cfg t c - 4)).recent with
  | nil => rfl
  | cons e l => exact if_neg (Nat.ne_of_lt (hold e (hr ▸ List.mem_cons_self)))

theorem cmpSince_slot (hs : ¬0x30 ≤ Fld.GR_CMP_CFG_SRC b.cfg t c) (hty : slotTy b t (Fld.GR_CMP_CFG_SLOT b.cfg t c) ≠ .pulse) :
    cmpSince b now t c = none := (if_neg hs).trans (if_neg hty)

end

end Sys2Proof.Proofs
end

section
/-! ARM, DISARM and CLEAR of a compare, and the end of its pulse (R319, R321, R322). -/

namespace Sys2Proof.Proofs

open Sys2Proof.Machine

/-- A command that acts on one compare of a tile that runs. -/
theorem turns_cmpUpd {i : Instr} {t c : Nat} {f : Nat → Cmp → Cmp} {s : State} {y : Cmp} (hi : exec i s = onTile t (fun now b => b.cmpUpd t c (f now)) s)
    (hl : tileLive s.b t = true) (hf : f s.clk.lattice (s.b.cmpAt t c) = y) : Turns i s (s.b.cmpUpd t c fun _ => y) :=
  turns_onTile hi hl (cmpUpd_congr _ _ _ _ _ hf)

/-! ### ARM -/

/-- The record of a compare armed at position `x` (R321). -/
def cmpArmed (b : Block) (now t c : Nat) (x : Int) : Cmp :=
  cmpArm now (cmpDirOf b t c) (Fld.GR_CMP_CFG_FIRE_IF_PASSED b.cfg t c) x (dwOf (Fld.GR_CMP_POS_HI_VALUE b.cfg t c) (Fld.GR_CMP_POS_LO_VALUE b.cfg t c)).toInt
    (dwOf (Fld.GR_CMP_PITCH_HI_VALUE b.cfg t c) (Fld.GR_CMP_PITCH_LO_VALUE b.cfg t c)).toInt (Fld.GR_CMP_COUNT_COUNT b.cfg t c) (b.cmpAt t c)

section
variable {now t c : Nat} {b : Block} {x : Int}

/-- Whether the position is passed, by the code of the direction (R320, R321). -/
theorem cmpBehind_dirOf (pos : Int) : cmpBehind (cmpDirOf b t c) x pos =
    if Fld.GR_CMP_CFG_DIR b.cfg t c = 2 then decide (x ≤ pos) else if Fld.GR_CMP_CFG_DIR b.cfg t c = 3 then decide (x = pos) else decide (pos ≤ x) := by
  by_cases h2 : Fld.GR_CMP_CFG_DIR b.cfg t c = 2
  · simp [cmpDirOf, cmpBehind, h2]
  by_cases h3 : Fld.GR_CMP_CFG_DIR b.cfg t c = 3
  · simp [cmpDirOf, cmpBehind, h3]
  · simp [cmpDirOf, cmpBehind, h2, h3]

/-- ARM with nothing on its own tick. -/
theorem cmpArmOp_alone (hen : Fld.GR_CMP_CFG_EN b.cfg t c = true) (hx : cmpPresent b now t c = x) (hs : cmpSince b now t c = none) :
    cmpArmOp now t c b = b.cmpUpd t c fun _ => cmpArmed b now t c x := by
  subst hx
  refine (if_pos hen).trans ?_
  rw [hs]
  exact cmpUpd_congr _ _ _ _ _ rfl

/-- A count or pulse of the ARM's own tick is seen after it. -/
theorem cmpArmOp_seen {y : Int} {ts : Nat} (hen : Fld.GR_CMP_CFG_EN b.cfg t c = true) (hx : cmpPresent b now t c = x) (hs : cmpSince b now t c = some (y, ts)) :
    cmpArmOp now t c b = cmpCount now t c y ts (b.cmpUpd t c fun _ => cmpArmed b now t c x) := by
  subst hx
  refine (if_pos hen).trans ?_
  rw [hs]
  exact congrArg (cmpCount now t c y ts) (cmpUpd_congr _ _ _ _ _ rfl)

theorem cmpArmOp_unused (hen : Fld.GR_CMP_CFG_EN b.cfg t c = false) : cmpArmOp now t c b = b := if_neg (Bool.eq_false_iff.1 hen)

theorem cmpReport_cmpAt (t' c' : Nat) : (cmpReport now t c b).cmpAt t' c' = b.cmpAt t' c' := rfl

/-- What a count leaves of its compare; a firing changes the land at the next tick (R319). -/
theorem cmpCount_cmpAt (y : Int) (ts : Nat) : let r := cmpSee (cmpDirOf b t c) y ts (b.cmpAt t c)
    (cmpCount now t c y ts b).cmpAt t c = if r.2 = true then { r.1 with act := some (now + 10) } else r.1 := by
  unfold cmpCount; dsimp only
  split
  · rw [cmpReport_cmpAt, cmpAt_cmpUpd]
  · rw [cmpAt_cmpUpd]

theorem cmpCount_others {t' c' : Nat} (y : Int) (ts : Nat) (hc : c < 4) (hc' : c' < 4) (h : ¬(t' = t ∧ c' = c)) :
    (cmpCount now t c y ts b).cmpAt t' c' = b.cmpAt t' c' := by
  unfold cmpCount; dsimp only
  split
  · rw [cmpReport_cmpAt, cmpAt_cmpUpd_ne _ _ _ _ _ _ hc hc' h]
  · rw [cmpAt_cmpUpd_ne _ _ _ _ _ _ hc hc' h]

/-- A count that a changed compare sees concerns compares, trigger sequencers and captures on their way (R319, R375, R460). -/
theorem cmpCount_cmpUpd (y : Int) (ts : Nat) (f : Cmp → Cmp) : let u := cmpCount now t c y ts (b.cmpUpd t c f)
    u = { b with cmp := u.cmp, aq := u.aq, nt := { b.nt with fly := u.nt.fly } } := by
  dsimp only
  have h := cmpCount_seen now t ts c y (b.cmpUpd t c f)
  have hprb : (cmpCount now t c y ts (b.cmpUpd t c f)).prb = b.prb := cmpCount_prb c y ts
  generalize cmpCount now t c y ts (b.cmpUpd t c f) = u at h hprb
  unfold OnlySeen at h
  rw [hprb] at h
  exact h

end

/-! ### The end of a pulse -/

section
variable {now e : Nat} {k : Cmp}

theorem cmpPulseEnd_ends (hk : k.pulseEnd = some e) (h : e ≤ now) : cmpPulseEnd now k = { k with land := false, pulseEnd := none } := by
  simp only [cmpPulseEnd, hk, if_pos h]

theorem cmpPulseEnd_lasts (hk : k.pulseEnd = some e) (h : now < e) : cmpPulseEnd now k = k := by
  simp only [cmpPulseEnd, hk, if_neg (Nat.not_le.2 h)]

theorem cmpPulseEnd_none (hk : k.pulseEnd = none) : cmpPulseEnd now k = k := by simp only [cmpPulseEnd, hk]

end

/-- Settles O27: ARM by the position of its source before the tick and by what the source does at it, the rest by the compare's record. -/
theorem compares : Obligations.Compares := by
  intro t c s k hl hk
  subst hk
  intro now to_ src j q p chan pulse place pos pitch behind armed sees
  have hplace : ∀ h, (qdPos q h).toInt = place h := fun _ => rfl
  have harmed : ∀ x, cmpArmed s.b now t c x = armed x := fun x => by
    simp only [cmpArmed, cmpArm, cmpBehind_dirOf, Bool.and_eq_true]
    rfl
  have arms : Fld.GR_CMP_CFG_EN s.b.cfg t c = true → ∀ {x}, cmpPresent s.b now t c = x → cmpSince s.b now t c = none → to_ (.cmpArm t c) (armed x) :=
    fun hen x hx hs => turns_onTile (exec_cmpArm t c s) hl ((cmpArmOp_alone hen hx hs).trans (by rw [harmed]))
  have meets : Fld.GR_CMP_CFG_EN s.b.cfg t c = true → ∀ {x y ts}, cmpPresent s.b now t c = x → cmpSince s.b now t c = some (y, ts) → sees x y ts := by
    intro hen x y ts hx hs
    refine gives_onTile (exec_cmpArm t c s) hl ?_
    dsimp only
    rw [cmpArmOp_seen hen hx hs, harmed]
    refine ⟨?_, cmpCount_cmpUpd _ _ _, fun t' c' h => ?_⟩
    · rw [cmpCount_cmpAt, cmpAt_cmpUpd]; rfl
    · have hne : ¬(t'.val = t.val ∧ c'.val = c.val) := by simpa [Fin.ext_iff] using h
      rw [cmpCount_others _ _ c.isLt c'.isLt hne, cmpAt_cmpUpd_ne _ _ _ _ _ _ c.isLt c'.isLt hne]
  have ends : ∀ {y}, cmpPulseEnd now (s.b.cmpAt t c) = y → to_ (.comparePulseEnd t c) y := turns_cmpUpd (exec_comparePulseEnd t c s) hl
  refine ⟨fun hen => ⟨fun hc hr => arms hen ?_ (cmpSince_chan_still hc hr), fun r l hc hr hl => meets hen ?_ ?_, fun hc hr hl => arms hen ?_ ?_,
      fun hp hold hx _ => arms hen ?_ (cmpSince_pulse_still hp.1 hp.2 hold), fun e l hp hr he h0 hold hx => meets hen ?_ (cmpSince_pulse hp.1 hp.2 hr he),
      fun hc hp => ?_⟩,
    fun hen => turns_onTile (exec_cmpArm t c s) hl (cmpArmOp_unused hen), turns_cmpUpd (exec_cmpDisarm t c s) hl rfl, turns_cmpUpd (exec_cmpClear t c s) hl rfl,
    fun e he h => ends (cmpPulseEnd_ends he h), fun e he h => ends (cmpPulseEnd_lasts he h), fun he => ends (cmpPulseEnd_none he)⟩
  · rw [cmpPresent_chan hc, if_neg hr]; exact hplace _
  · rw [cmpPresent_chan hc, if_pos hr]; exact hplace _
  · rw [cmpSince_chan hc hr, show (s.b.qdAt t (Fld.GR_CMP_CFG_SRC s.b.cfg t c - 0x30)).recent = r :: l from hl]; rfl
  · rw [cmpPresent_chan hc, if_pos hr]; exact hplace _
  · rw [cmpSince_chan hc hr, show (s.b.qdAt t (Fld.GR_CMP_CFG_SRC s.b.cfg t c - 0x30)).recent = [] from hl]; rfl
  · rw [cmpPresent_pulse hp.1 hp.2, pulseXAt_still hold hx]
  · rw [cmpPresent_pulse hp.1 hp.2, pulseXAt_moved h0 hr he hold hx]
  · have hty : slotTy s.b t j ≠ .pulse := fun h => hp ⟨hc, h⟩
    exact arms hen (cmpPresent_slot hc hty) (cmpSince_slot hc hty)

end Sys2Proof.Proofs
end

section
/-! Commands and events of a pleached group (R295, R298, R299, R304). -/

namespace Sys2Proof.Proofs

open Sys2Proof.Machine

/-- A registration strictly before a tick. -/
theorem before_iff {now : Nat} {o : Option Nat} : before now o = true ↔ ∃ e, o = some e ∧ e < now := by
  cases o <;> simp [before]

theorem isFeed_iff {b : Block} {now g : Nat} : isFeed b now g = true ↔ Fld.GR_PLG_CFG_EN b.cfg g = true ∧ Fld.GR_PLG_CFG_FEED_P b.cfg g ≠ 0 ∧
    ((now : Int) - 10 * Fld.GR_PLG_PHASE_PHASE b.cfg g) % (10 * Fld.GR_PLG_CFG_FEED_P b.cfg g) = 0 := by
  simp [isFeed, and_assoc]

section
variable {now g v : Nat} {cmd : PlgCmd} {b : Block}

theorem plgCommand_used (h : Fld.GR_PLG_CFG_EN b.cfg g = true) :
    plgCommand now g cmd b = b.plgUpd g fun _ => { b.plgAt g with cmds := (b.plgAt g).cmds ++ [(cmd, now)] } := (if_pos h).trans (plgUpd_congr _ _ _ _ rfl)

theorem plgCommand_unused (h : Fld.GR_PLG_CFG_EN b.cfg g = false) : plgCommand now g cmd b = b := if_neg (Bool.eq_false_iff.1 h)

theorem plgFeedOp_refused (h : 0x80000000 < v) : plgFeedOp now g v b = b.plgUpd g fun _ => { b.plgAt g with refused := true } :=
  (if_pos h).trans (plgUpd_congr _ _ _ _ rfl)

/-- A write of GR_PLG_FEED leaves GR_PLG_CFG. -/
theorem plgEnabled_setReg {w d : Word} : Fld.GR_PLG_CFG_EN (setReg (0x30014 + 0x40 * g) d w b).cfg g = Fld.GR_PLG_CFG_EN b.cfg g := by
  unfold Fld.GR_PLG_CFG_EN regWord setReg
  rw [tabGet_set_other _ _ _ _ _ _ (by omega)]

theorem plgFeedOp_waits (h : v ≤ 0x80000000) (hen : Fld.GR_PLG_CFG_EN b.cfg g = true) : plgFeedOp now g v b =
    (setReg (0x30014 + 0x40 * g) 0x40000000 (BitVec.ofNat 32 v) b).plgUpd g fun _ => { b.plgAt g with cmds := (b.plgAt g).cmds ++ [(.feed v, now)] } :=
  (if_neg (Nat.not_lt.2 h)).trans (plgCommand_used (plgEnabled_setReg.trans hen))

end

end Sys2Proof.Proofs
end

section
/-! What one feed instant makes of the record of a pleached group (R296, R298, R303 to R305). -/

namespace Sys2Proof.Proofs

open Sys2Proof.Machine

/-! ### Changes of one group -/

/-- From `b` to `c` only group `g` changes, and its record becomes `q`. -/
def OnlyGroup (g : Nat) (q : Plg) (b c : Block) : Prop := c.plgAt g = q ∧ (∀ g', g' ≠ g → c.plgAt g' = b.plgAt g') ∧ c = { b with plg := c.plg }

theorem OnlyGroup.refl (g : Nat) (b : Block) : OnlyGroup g (b.plgAt g) b b := ⟨rfl, fun _ _ => rfl, rfl⟩

theorem OnlyGroup.upd {g : Nat} {q : Plg} {b c : Block} (h : OnlyGroup g q b c) (f : Plg → Plg) : OnlyGroup g (f q) b (c.plgUpd g f) := by
  obtain ⟨hat, hothers, hframe⟩ := h
  refine ⟨by rw [plgAt_plgUpd, hat], fun g' hne => by rw [plgAt_plgUpd_ne _ _ _ _ hne, hothers g' hne], ?_⟩
  exact congrArg (fun d : Block => { d with plg := (c.plgUpd g f).plg }) hframe

/-! ### The conditions of R305, in their order -/

/-- The group runs, holds or is held. -/
def PlgOn (p : Plg) : Prop := p.st = .running ∨ p.st = .holding ∨ p.st = .held

/-- An event of a member, registered before the feed instant, stops the group (R304). -/
def PlgEvent (now : Nat) (p : Plg) : Prop := p.st ≠ .idle ∧ ∃ e, p.ev = some e ∧ e < now

/-- A STOP is due in a group that runs, holds or is held (R298). -/
def PlgStops (now : Nat) (p : Plg) : Prop := plgDue now p.cmds = some .stop ∧ PlgOn p

/-- A limit of a member, registered before the feed instant, holds the group (R303). -/
def PlgLimit (now : Nat) (p : Plg) : Prop := PlgOn p ∧ ∃ l, p.lim = some l ∧ l < now

/-- None of the three: the command that is due governs. -/
def PlgQuiet (now : Nat) (p : Plg) : Prop := ¬PlgEvent now p ∧ ¬PlgStops now p ∧ ¬PlgLimit now p

section
variable {now : Nat} {p : Plg}

theorem plgOn_iff : (decide (p.st = .running) || decide (p.st = .holding) || decide (p.st = .held)) = true ↔ PlgOn p := by
  simp [PlgOn, or_assoc]

theorem plgEvent_iff : (decide (p.st ≠ .idle) && before now p.ev) = true ↔ PlgEvent now p := by
  rw [Bool.and_eq_true, decide_eq_true_eq, before_iff, PlgEvent]

theorem plgStops_iff : (decide (plgDue now p.cmds = some .stop) && (decide (p.st = .running) || decide (p.st = .holding) || decide (p.st = .held))) = true ↔ PlgStops now p := by
  rw [Bool.and_eq_true, decide_eq_true_eq, plgOn_iff, PlgStops]

theorem plgLimit_iff : ((decide (p.st = .running) || decide (p.st = .holding) || decide (p.st = .held)) && before now p.lim) = true ↔ PlgLimit now p := by
  rw [Bool.and_eq_true, plgOn_iff, before_iff, PlgLimit]

end

/-! ### The transition -/

/-- The record at the beginning of a feed instant. -/
def plgOpened (now : Nat) (p : Plg) : Plg := { p with fedAt := now, fOld := p.f }

/-- The record once the commands that are due have been taken. -/
def plgTaken (now : Nat) (p : Plg) : Plg := { p with cmds := p.cmds.filter fun c => decide (now < c.2 + 10000) }

section
variable {now g : Nat} {b : Block}

theorem plgTransit_event (h : PlgEvent now (b.plgAt g)) : plgTransit now g b =
    ((b.plgUpd g (plgTaken now)).plgUpd g fun p =>
      { p with st := .stopping, df := Fld.GR_PLG_DF_FAULT_DF b.cfg g, memberFault := true, ev := none, lim := none, govAt := some now }, false) := if_pos (plgEvent_iff.2 h)

theorem plgTransit_stops (he : ¬PlgEvent now (b.plgAt g)) (h : PlgStops now (b.plgAt g)) : plgTransit now g b =
    ((b.plgUpd g (plgTaken now)).plgUpd g fun p => { p with st := .stopping, df := Fld.GR_PLG_DF_STOP_DF b.cfg g, lim := none, govAt := some now }, false) :=
  (if_neg (mt plgEvent_iff.1 he)).trans (if_pos (plgStops_iff.2 h))

theorem plgTransit_limit (he : ¬PlgEvent now (b.plgAt g)) (hs : ¬PlgStops now (b.plgAt g)) (h : PlgLimit now (b.plgAt g)) : plgTransit now g b =
    ((b.plgUpd g (plgTaken now)).plgUpd g fun p =>
      { p with st := .holding, df := Fld.GR_PLG_DF_FAULT_DF b.cfg g, limitHold := true, lim := none, govAt := some now }, false) :=
  (if_neg (mt plgEvent_iff.1 he)).trans ((if_neg (mt plgStops_iff.1 hs)).trans (if_pos (plgLimit_iff.2 h)))

/-- What the command that is due does where nothing of R305 ranks above it. -/
def plgObeys (now g : Nat) (p : Plg) (b : Block) : Option PlgCmd → Block × Bool
  | some .hold => (if p.st = .running then b.plgUpd g fun q => { q with st := .holding, df := Fld.GR_PLG_DF_STOP_DF b.cfg g, govAt := some now } else b, false)
  | some .resume =>
    if decide (p.st = .holding) || decide (p.st = .held) then
      if plgLimited b g then (b.plgUpd g fun q => { q with refused := true }, false)
      else (b.plgUpd g fun q => { q with st := .running, goal := Fld.GR_PLG_FEED_TARGET b.cfg g, lim := none, govAt := some now }, false)
    else (b, false)
  | some (.feed f) =>
    (b.plgUpd g fun q => { q with goal := f, govAt := if decide (p.st = .running) || decide (p.st = .holding) || decide (p.st = .held) then some now else q.govAt }, false)
  | some .start => if plgStartOk b now g then (plgBegin now g b, true) else (b.plgUpd g fun q => { q with refused := true }, false)
  | _ => (b, false)

theorem plgTransit_quiet (h : PlgQuiet now (b.plgAt g)) :
    plgTransit now g b = plgObeys now g (b.plgAt g) (b.plgUpd g (plgTaken now)) (plgDue now (b.plgAt g).cmds) := by
  obtain ⟨he, hs, hl⟩ := h
  exact (if_neg (mt plgEvent_iff.1 he)).trans ((if_neg (mt plgStops_iff.1 hs)).trans ((if_neg (mt plgLimit_iff.1 hl)).trans rfl))

end

/-! ### F after the transition -/

/-- F moves towards the target of the group's state, and a group that holds is HELD once F is 0 (R296, R298). -/
def plgDrifts (dfRun : Int) (q : Plg) : Plg :=
  match q.st with
  | .running => { q with f := feedStep q.f q.goal dfRun }
  | .holding => { q with f := feedStep q.f 0 q.df, st := if feedStep q.f 0 q.df = 0 then .held else .holding }
  | .held => { q with f := 0 }
  | .stopping => { q with f := feedStep q.f 0 q.df }
  | .idle => q

section
variable {dfRun : Int} {q : Plg}

theorem plgDrifts_running (h : q.st = .running) : plgDrifts dfRun q = { q with f := feedStep q.f q.goal dfRun } := by simp only [plgDrifts, h]

theorem plgDrifts_holding (h : q.st = .holding) :
    plgDrifts dfRun q = { q with f := feedStep q.f 0 q.df, st := if feedStep q.f 0 q.df = 0 then .held else q.st } := by simp only [plgDrifts, h]

theorem plgDrifts_held (h : q.st = .held) : plgDrifts dfRun q = { q with f := 0 } := by simp only [plgDrifts, h]

theorem plgDrifts_stopping (h : q.st = .stopping) : plgDrifts dfRun q = { q with f := feedStep q.f 0 q.df } := by simp only [plgDrifts, h]

theorem plgDrifts_idle (h : q.st = .idle) : plgDrifts dfRun q = q := by simp only [plgDrifts, h]

end

section
variable {now g : Nat} {q : Plg} {b c : Block}

/-- A feed instant is its transition, and unless START sets F the drift of F after it. -/
theorem plgFeed_drifts (ht : plgTransit now g (b.plgUpd g (plgOpened now)) = (c, false)) (h : OnlyGroup g q b c) :
    OnlyGroup g (plgDrifts (Fld.GR_PLG_DF_RUN_DF b.cfg g) q) b (plgFeed now g b) := by
  have hat : c.plgAt g = q := h.1
  have hcfg : c.cfg = b.cfg := (congrArg Block.cfg h.2.2 :)
  have ht' : plgTransit now g (b.plgUpd g fun p => { p with fedAt := now, fOld := p.f }) = (c, false) := ht
  cases hst : q.st <;> simp only [plgFeed, ht', hat, hst, plgAt_plgUpd, hcfg, Bool.false_eq_true, if_false, ite_self]
  case idle => rw [plgDrifts_idle hst]; exact h
  case running => rw [plgDrifts_running hst]; exact h.upd _
  case held => rw [plgDrifts_held hst]; exact h.upd _
  case stopping => rw [plgDrifts_stopping hst]; exact h.upd _
  case holding =>
    rw [plgDrifts_holding hst]
    split
    · exact (h.upd _).upd _
    · exact h.upd _

/-- START sets F, and the group runs. -/
theorem plgFeed_starts (ht : plgTransit now g (b.plgUpd g (plgOpened now)) = (c, true)) (hst : (c.plgAt g).st = .running) : plgFeed now g b = c := by
  have ht' : plgTransit now g (b.plgUpd g fun p => { p with fedAt := now, fOld := p.f }) = (c, true) := ht
  simp only [plgFeed, ht', hst, if_true, ite_self]

end

end Sys2Proof.Proofs
end

section
/-! START of a pleached group, and the commands of its feed instants (R296, R298, R299, R304, R305). -/

namespace Sys2Proof.Proofs

open Sys2Proof.Machine

/-! ### START (R299) -/

/-- A member that is to swap at the tick after `at_`, at clock `tau`. -/
def genToStart (at_ tau : Nat) (y : Gen) : Gen := { y with req := { y.req with start := some at_ }, run := { y.run with tau := tau } }

/-- A group that runs at the feed target. -/
def plgStarted (f : Int) (p : Plg) : Plg := { p with st := .running, goal := f, f := f, ev := none, evSent := false, lim := none, starving := false }

/-- The segment clock of the first member. -/
def plgClock (b : Block) (g : Nat) : Nat :=
  match plgMembers b g with
  | m :: _ => (b.genAt m.1 m.2).run.tau
  | [] => 0

/-- Generators of a list updated by one function that does nothing the second time. -/
theorem genAt_forL_genUpd {t j : Nat} {l : List (Nat × Nat)} {f : Gen → Gen} (hf : ∀ y, f (f y) = f y) (hl : ∀ m ∈ l, m.2 < 16) (hj : j < 16) (b : Block) :
    (forL l (fun m x => x.genUpd m.1 m.2 f) b).genAt t j = if (t, j) ∈ l then f (b.genAt t j) else b.genAt t j := by
  induction l generalizing b with
  | nil => rfl
  | cons m l ih =>
    refine (ih (fun n hn => hl n (List.mem_cons_of_mem _ hn)) (b.genUpd m.1 m.2 f)).trans ?_
    by_cases h : (t, j) = m
    · subst h; simp [hf]
    · rw [genAt_genUpd_ne _ _ _ _ _ _ (hl m List.mem_cons_self) hj fun hm => h (Prod.ext hm.1 hm.2)]
      simp [h]

theorem plgMembers_slot {b : Block} {g : Nat} {m : Nat × Nat} (h : m ∈ plgMembers b g) : m.2 < 16 := by
  obtain ⟨a, -, rfl⟩ := List.mem_map.1 (List.mem_filter.1 h).1
  exact Nat.mod_lt _ (by decide)

theorem plgOf_member {b : Block} {g t j : Nat} (h : (t, j) ∈ plgMembers b g) : plgOf b t j = some g :=
  of_decide_eq_true (List.mem_filter.1 h).2

section
variable {now g t j : Nat} {b : Block}

theorem plgBegin_eq : plgBegin now g b =
    (forL (plgMembers b g) (fun m x => x.genUpd m.1 m.2 (genToStart (now - 10) (plgClock b g))) b).plgUpd g (plgStarted (Fld.GR_PLG_FEED_TARGET b.cfg g)) := rfl

/-- START changes the group and generators. -/
theorem plgBegin_frame : plgBegin now g b = { b with plg := (plgBegin now g b).plg, gen := (plgBegin now g b).gen } := by
  have h := forL_keeps (fun c => c = { b with gen := c.gen }) (plgMembers b g) (fun m x => x.genUpd m.1 m.2 (genToStart (now - 10) (plgClock b g))) b
    (fun _ c hc => by rw [hc]; rfl) rfl
  exact congrArg (fun c : Block => { c with plg := (plgBegin now g b).plg }) h

theorem plgBegin_only {c : Block} {q : Plg} (h : OnlyGroup g q b c) : plgBegin now g c = { b with plg := (plgBegin now g c).plg, gen := (plgBegin now g c).gen } :=
  plgBegin_frame.trans (congrArg (fun d : Block => { d with plg := (plgBegin now g c).plg, gen := (plgBegin now g c).gen }) h.2.2)

theorem plgBegin_plgAt : (plgBegin now g b).plgAt g = plgStarted (Fld.GR_PLG_FEED_TARGET b.cfg g) (b.plgAt g) := by
  rw [plgBegin_eq, plgAt_plgUpd]
  exact congrArg (plgStarted _) (forL_keeps (fun c => c.plgAt g = b.plgAt g) (plgMembers b g) _ b (fun _ _ hc => hc) rfl)

/-- Every member gets one clock and is to swap at this feed instant; no other generator changes. -/
theorem plgBegin_genAt (hj : j < 16) : (plgBegin now g b).genAt t j =
    if (t, j) ∈ plgMembers b g then genToStart (now - 10) (plgClock b g) (b.genAt t j) else b.genAt t j :=
  genAt_forL_genUpd (f := genToStart (now - 10) (plgClock b g)) (fun _ => rfl) (fun _ hm => plgMembers_slot hm) hj b

/-- START asks of its group's record its state and its sealed shadow alone. -/
theorem plgStartOk_plgUpd {f : Nat} {h : Plg → Plg} (hst : (h (b.plgAt g)).st = (b.plgAt g).st) (hsealed : (h (b.plgAt g)).sealed = (b.plgAt g).sealed)
    (hat : (h (b.plgAt g)).at_ = (b.plgAt g).at_) : plgStartOk (b.plgUpd g h) f g = plgStartOk b f g := by
  unfold plgStartOk
  dsimp only
  rw [plgAt_plgUpd, hst, hsealed, hat]
  rfl

end

/-! ### Feed instants -/

theorem plgHolds_iff {st : PlgSt} : (decide (st = .holding) || decide (st = .held)) = true ↔ st = .holding ∨ st = .held := by simp

/-- The module at a feed instant of a group, with the commands that are due taken. -/
def plgBegun (now g : Nat) (b : Block) : Block := (b.plgUpd g (plgOpened now)).plgUpd g (plgTaken now)

section
variable {now g : Nat} {b c : Block} {q : Plg}

theorem plgBegun_only : OnlyGroup g (plgTaken now (plgOpened now (b.plgAt g))) b (plgBegun now g b) := ((OnlyGroup.refl g b).upd _).upd _

theorem plgBegun_members : plgMembers (plgBegun now g b) g = plgMembers b g := rfl

theorem plgBegun_genAt (t j : Nat) : (plgBegun now g b).genAt t j = b.genAt t j := rfl

theorem plgBegun_clock : plgClock (plgBegun now g b) g = plgClock b g := rfl

theorem plgBegun_startOk : plgStartOk (plgBegun now g b) now g = plgStartOk b now g := (plgStartOk_plgUpd rfl rfl rfl).trans (plgStartOk_plgUpd rfl rfl rfl)

/-- A feed instant with an event, a STOP or a limit. -/
theorem plgFeed_event (h : PlgEvent now (b.plgAt g)) : OnlyGroup g
    { plgTaken now (plgOpened now (b.plgAt g)) with
      f := feedStep (b.plgAt g).f 0 (Fld.GR_PLG_DF_FAULT_DF b.cfg g), st := .stopping, df := Fld.GR_PLG_DF_FAULT_DF b.cfg g, memberFault := true, ev := none, lim := none
      govAt := some now } b (plgFeed now g b) :=
  plgFeed_drifts (plgTransit_event (by rw [plgAt_plgUpd]; exact h)) (plgBegun_only.upd _)

theorem plgFeed_stops (he : ¬PlgEvent now (b.plgAt g)) (h : PlgStops now (b.plgAt g)) : OnlyGroup g
    { plgTaken now (plgOpened now (b.plgAt g)) with
      f := feedStep (b.plgAt g).f 0 (Fld.GR_PLG_DF_STOP_DF b.cfg g), st := .stopping, df := Fld.GR_PLG_DF_STOP_DF b.cfg g, lim := none, govAt := some now }
    b (plgFeed now g b) :=
  plgFeed_drifts (plgTransit_stops (by rw [plgAt_plgUpd]; exact he) (by rw [plgAt_plgUpd]; exact h)) (plgBegun_only.upd _)

theorem plgFeed_limit (he : ¬PlgEvent now (b.plgAt g)) (hs : ¬PlgStops now (b.plgAt g)) (h : PlgLimit now (b.plgAt g)) : OnlyGroup g
    { plgTaken now (plgOpened now (b.plgAt g)) with
      f := feedStep (b.plgAt g).f 0 (Fld.GR_PLG_DF_FAULT_DF b.cfg g), st := if feedStep (b.plgAt g).f 0 (Fld.GR_PLG_DF_FAULT_DF b.cfg g) = 0 then .held else .holding
      df := Fld.GR_PLG_DF_FAULT_DF b.cfg g, limitHold := true, lim := none, govAt := some now } b (plgFeed now g b) :=
  plgFeed_drifts (plgTransit_limit (by rw [plgAt_plgUpd]; exact he) (by rw [plgAt_plgUpd]; exact hs) (by rw [plgAt_plgUpd]; exact h)) (plgBegun_only.upd _)

section
variable {cmd : Option PlgCmd} (hq : PlgQuiet now (b.plgAt g)) (hc : plgDue now (b.plgAt g).cmds = cmd)
include hq hc

theorem plgTransit_obeys : plgTransit now g (b.plgUpd g (plgOpened now)) = plgObeys now g (b.plgAt g) (plgBegun now g b) cmd := by
  rw [plgTransit_quiet (by rw [plgAt_plgUpd]; exact hq), plgAt_plgUpd, ← hc]
  rfl

/-- A feed instant with a command that is due, but for a START that takes effect. -/
theorem plgFeed_obeys (ho : plgObeys now g (b.plgAt g) (plgBegun now g b) cmd = (c, false)) (h : OnlyGroup g q b c) :
    OnlyGroup g (plgDrifts (Fld.GR_PLG_DF_RUN_DF b.cfg g) q) b (plgFeed now g b) :=
  plgFeed_drifts ((plgTransit_obeys hq hc).trans ho) h

end

/-- A feed instant at which START takes effect. -/
theorem plgFeed_start (hq : PlgQuiet now (b.plgAt g)) (hc : plgDue now (b.plgAt g).cmds = some .start) (hok : plgStartOk b now g = true) :
    plgFeed now g b = plgBegin now g (plgBegun now g b) :=
  plgFeed_starts ((plgTransit_obeys hq hc).trans (if_pos (plgBegun_startOk.trans hok))) (by rw [plgBegin_plgAt]; rfl)

/-- What START leaves of the module. -/
theorem plgBegun_begins : let c := plgBegin now g (plgBegun now g b)
    c.plgAt g = plgStarted (Fld.GR_PLG_FEED_TARGET b.cfg g) (plgTaken now (plgOpened now (b.plgAt g))) ∧ c = { b with plg := c.plg, gen := c.gen } ∧
      (∀ t j, j < 16 → plgOf b t j ≠ some g → c.genAt t j = b.genAt t j) ∧
      ∃ tau, ∀ m ∈ plgMembers b g, (c.genAt m.1 m.2).run.tau = tau ∧ (c.genAt m.1 m.2).req.start = some (now - 10) := by
  have hgen : ∀ t j, j < 16 → (plgBegin now g (plgBegun now g b)).genAt t j =
      if (t, j) ∈ plgMembers b g then genToStart (now - 10) (plgClock b g) (b.genAt t j) else b.genAt t j := fun t j hj => by
    rw [plgBegin_genAt hj, plgBegun_members, plgBegun_clock, plgBegun_genAt]
  have hat : (plgBegin now g (plgBegun now g b)).plgAt g = plgStarted (Fld.GR_PLG_FEED_TARGET b.cfg g) (plgTaken now (plgOpened now (b.plgAt g))) := by
    rw [plgBegin_plgAt, plgBegun_only.1]; rfl
  refine ⟨hat, plgBegin_only plgBegun_only, fun t j hj h => ?_, plgClock b g, fun m hm => ?_⟩
  · exact (hgen t j hj).trans (if_neg (mt plgOf_member h))
  · rw [hgen m.1 m.2 (plgMembers_slot hm), if_pos hm]; exact ⟨rfl, rfl⟩

end

/-- Settles O24: the commands by `plgCommand`, a feed instant by its transition in the order of R305 and the drift of F after it. -/
theorem pleachedGroups : Obligations.PleachedGroups := by
  intro g s p hrun hp
  subst hp
  intro now to_ en per feed near dfRun dfStop dfFault target p1 on cmd
  have waits : en = true → ∀ {c k}, exec c s = onRun (fun now => plgCommand now g k) s → to_ c { s.b.plgAt g with cmds := (s.b.plgAt g).cmds ++ [(k, now)] } :=
    fun hen _ _ hc => turns_onRun hc hrun (plgCommand_used hen)
  have stands : en = false → ∀ {c k}, exec c s = onRun (fun now => plgCommand now g k) s → Turns c s s.b := fun hen _ _ hc => turns_onRun hc hrun (plgCommand_unused hen)
  have registers : ∀ {y}, _ = y → Turns (.plgMemberEvent g) s y := turns_onRun (exec_plgMemberEvent g s) hrun
  have instant : ∀ {y}, _ = y → Turns (.feedInstant g) s y := turns_onRun (exec_feedInstant g s) hrun
  refine ⟨fun hen => ⟨waits hen (exec_plgStart g s), waits hen (exec_plgHold g s), waits hen (exec_plgResume g s), waits hen (exec_plgStop g s), fun v hv => ?_⟩,
    fun hen => ⟨stands hen (exec_plgStart g s), stands hen (exec_plgHold g s), stands hen (exec_plgResume g s), stands hen (exec_plgStop g s)⟩,
    fun v hv => turns_onRun (exec_plgFeedWrite g v s) hrun (plgFeedOp_refused hv), fun he => registers ?_, fun he => registers (if_neg (Bool.eq_false_iff.1 he)),
    fun hf => instant (if_neg (mt isFeed_iff.1 hf)), fun hm => instant ?_, fun hfeed hmark => ?_⟩
  · refine gives_onRun (exec_plgFeedWrite g v s) hrun ?_
    dsimp only
    rw [plgFeedOp_waits hv hen, BitVec.ofNat_toNat, BitVec.setWidth_eq]
    exact ⟨plgAt_plgUpd _ _ _, tabGet_set_same _ _ _ _, rfl⟩
  · exact (if_pos he).trans (plgUpd_congr _ _ _ _ (by rw [firstOf_eq]))
  · split
    · exact once_done _ _ _ hm
    · rfl
  intro does drift event stop limit
  let b0 : Block := { s.b with marks := (100 + g) :: s.b.marks }
  have acts : ∀ {P : State → Prop}, P { s with b := plgFeed now g b0 } → Gives (.feedInstant g) s P := fun h =>
    gives_onRun (exec_feedInstant g s) hrun (by rw [if_pos (isFeed_iff.2 hfeed), once_first _ _ _ hmark]; exact h)
  have feeds : ∀ {q}, OnlyGroup g q b0 (plgFeed now g b0) → does q := fun ⟨hat, hothers, hframe⟩ =>
    acts ⟨hat, fun g' hne => hothers g' (Fin.val_ne_of_ne hne), hframe⟩
  have hdrift : ∀ q : Plg, q.st = (s.b.plgAt g).st → q.f = (s.b.plgAt g).f → q.df = (s.b.plgAt g).df → plgDrifts dfRun q = drift q := by
    intro q hst hf hdf
    cases h : (s.b.plgAt g).st <;> simp only [drift, h]
    case idle => exact plgDrifts_idle (hst.trans h)
    case running => rw [plgDrifts_running (hst.trans h), hf]; rfl
    case holding => rw [plgDrifts_holding (hst.trans h), hf, hdf, hst, h]; rfl
    case held => exact plgDrifts_held (hst.trans h)
    case stopping => rw [plgDrifts_stopping (hst.trans h), hf, hdf]; rfl
  refine ⟨fun he => feeds (plgFeed_event he), fun he hs => feeds (plgFeed_stops he hs), fun he hs hl => feeds (plgFeed_limit he hs hl), fun he hs hl => ?_⟩
  have hq : PlgQuiet now (b0.plgAt g) := ⟨he, hs, hl⟩
  have passes : ∀ {r}, cmd = r → plgObeys now g (b0.plgAt g) (plgBegun now g b0) r = (plgBegun now g b0, false) → does (drift p1) :=
    fun hc h => hdrift p1 rfl rfl rfl ▸ feeds (plgFeed_obeys hq hc h plgBegun_only)
  have refuses : ∀ {r}, cmd = r → plgObeys now g (b0.plgAt g) (plgBegun now g b0) r = ((plgBegun now g b0).plgUpd g fun q => { q with refused := true }, false) →
      does (drift { p1 with refused := true }) :=
    fun hc h => hdrift { p1 with refused := true } rfl rfl rfl ▸ feeds (plgFeed_obeys hq hc h (plgBegun_only.upd _))
  refine ⟨fun hc => hc.elim (passes · rfl) (passes · rfl), fun hc hst => feeds (plgFeed_obeys hq hc (congrArg (·, false) (if_pos hst)) (plgBegun_only.upd _)),
    fun hc hst => passes hc (congrArg (·, false) (if_neg hst)),
    fun hc hst hlim => feeds (plgFeed_obeys hq hc ((if_pos (plgHolds_iff.2 hst)).trans (if_neg (Bool.eq_false_iff.1 hlim))) (plgBegun_only.upd _)),
    fun hc hst hlim => refuses hc ((if_pos (plgHolds_iff.2 hst)).trans (if_pos hlim)), fun hc hst => passes hc (if_neg fun h => (plgHolds_iff.1 h).elim hst.1 hst.2), fun v hc => ?_,
    fun hc hno => refuses hc (if_neg (Bool.eq_false_iff.1 (plgBegun_startOk.trans hno))), fun hc hok => ?_⟩
  · have hgov : (if (decide ((s.b.plgAt g).st = .running) || decide ((s.b.plgAt g).st = .holding) || decide ((s.b.plgAt g).st = .held)) = true then some now
        else (s.b.plgAt g).govAt) = if on then some now else (s.b.plgAt g).govAt := if_congr plgOn_iff rfl rfl
    rw [← hdrift { p1 with goal := v, govAt := if on then some now else (s.b.plgAt g).govAt } rfl rfl rfl, ← hgov]
    exact feeds (plgFeed_obeys hq hc rfl (plgBegun_only.upd _))
  · obtain ⟨hat, hframe, hothers, hmembers⟩ := plgBegun_begins (now := now) (g := g) (b := b0)
    refine acts ?_
    rw [plgFeed_start hq hc hok]
    exact ⟨hat, hframe, fun t j => hothers t j j.isLt, hmembers⟩

end Sys2Proof.Proofs
end

section
/-! An instruction at the program counter of a tile sequencer (R338, R347, R363): it runs, or it faults before it takes effect. -/

namespace Sys2Proof.Proofs

open Sys2Proof.Machine

/-- A command leaves sequencer `t` in FAULT with cause `k`, and besides it changes the event log alone (R363). -/
def FaultsWith (c : Instr) (t : Fin 8) (s : State) (k : SqFault) : Prop :=
  Gives c s fun u => u.b.seqAt t = sqFaultAt k (s.b.seqAt t) ∧ OnlyLog (s.b.seqUpd t fun _ => u.b.seqAt t) u.b

/-- What an instruction makes of sequencer `x`: `g` ends it when it has an effect, and a fault leaves none. -/
def instrEnds (g : Seq → Seq) (x : Seq) : Except SqFault Seq → Seq
  | .ok y => g y
  | .error k => sqFaultAt k x

/-! ### What enters FAULT -/

theorem sqBoundary_fault {y : Seq} (h : (sqBoundary y).st = .fault) : y.st = .fault := by
  unfold sqBoundary at h
  split at h
  · cases h
  · exact h

theorem sqAdvance_fault {n : Nat} {y : Seq} (h : (sqAdvance n y).st = .fault) : y.st = .fault := by
  unfold sqAdvance at h
  split at h
  · exact (sqBoundary_fault h :)
  · exact h

theorem sqEvent_fault {k now : Nat} {y : Seq} (h : (sqEvent k now y).st = .fault) : y.st = .fault := by
  have hst : (flagged k now y).st = y.st := by unfold flagged; split <;> rfl
  rw [sqEvent_eq] at h
  unfold eventRaised at h
  split at h
  · rw [← sqBoundary_eq] at h
    cases sqBoundary_fault h
  · exact hst.symm.trans h

/-- A sequencer that enters FAULT is logged, and nothing else changes (R363). -/
theorem seqDo_fault {now t : Nat} {f : SqEnv → Seq → Seq} {b : Block} {k : SqFault} (hf : f (sqEnv b now t) (b.seqAt t) = sqFaultAt k (b.seqAt t)) (hst : (b.seqAt t).st = .running) :
    (seqDo now t f b).seqAt t = sqFaultAt k (b.seqAt t) ∧ OnlyLog (b.seqUpd t fun _ => (seqDo now t f b).seqAt t) (seqDo now t f b) := by
  have hlog : OnlyLog (b.seqUpd t fun _ => sqFaultAt k (b.seqAt t)) (seqDo now t f b) := by
    have hdef : seqDo now t f b = logEvent now 0x0040 (dieTile t) (t * 256 + sqCauseNo (some k)) (b.seqUpd t fun _ => sqFaultAt k (b.seqAt t)) := by
      unfold seqDo
      dsimp only
      rw [hf, if_pos (by rw [hst]; rfl)]
      rfl
    rw [hdef]
    exact logEvent_log _ _ _ _ _
  have hat : (seqDo now t f b).seqAt t = sqFaultAt k (b.seqAt t) := by
    have hseq : (seqDo now t f b).seq = (b.seqUpd t fun _ => sqFaultAt k (b.seqAt t)).seq := by rw [hlog]
    rw [seqAt_of_seq hseq, seqAt_seqUpd]
  rw [hat]
  exact ⟨rfl, hlog⟩

/-! ### The instruction at the program counter -/

section
variable {c : Instr} {t : Fin 8} {s : State} {op len w now : Nat} {f : SqEnv → Nat → Seq → Except SqFault Seq} {y : Seq} {k : SqFault}

/-- The guard of an instruction holds at its word. -/
theorem guard_atWord (h : AtWord s.b t op w) :
    ((s.b.seqAt t).st = .running && !sqDispatchDue (s.b.seqAt t) && decide ((s.b.seqAt t).r.pc.toNat < Fld.SQ_CFG_CODE_LEN s.b.cfg t)) = true := by
  obtain ⟨hst, hdue, hpc, -, -⟩ := h
  simpa [hst, hdue] using hpc

theorem opcode_atWord (h : AtWord s.b t op w) : sqOpcode (sqRead (s.b.seqAt t) (s.b.seqAt t).r.pc.toNat) = op := by
  obtain ⟨-, -, -, hw, hop⟩ := h
  unfold sqOpcode
  rw [hw, hop]

theorem sqRun_atWord (h : AtWord s.b t op w) :
    sqRun (sqEnv s.b now t) op len f (s.b.seqAt t) = instrEnds (sqAdvance len) (s.b.seqAt t) (f (sqEnv s.b now t) w (s.b.seqAt t)) := by
  obtain ⟨-, -, -, hw, -⟩ := id h
  rw [← hw]
  exact (if_pos (guard_atWord h)).trans (if_pos (opcode_atWord h))

theorem sqRunPc_atWord (h : AtWord s.b t op w) :
    sqRunPc (sqEnv s.b now t) op f (s.b.seqAt t) = instrEnds sqBoundary (s.b.seqAt t) (f (sqEnv s.b now t) w (s.b.seqAt t)) := by
  obtain ⟨-, -, -, hw, -⟩ := id h
  rw [← hw]
  exact (if_pos (guard_atWord h)).trans (if_pos (opcode_atWord h))

/-- An instruction with an effect: the sequencer that it leaves advances by its length. -/
theorem turns_run (hc : exec c s = onTile t (fun now => seqDo now t fun e => sqRun e op len f) s) (hl : tileLive s.b t = true)
    (hf : f (sqEnv s.b s.clk.lattice t) w (s.b.seqAt t) = .ok y) (hst : y.st = .fault → (s.b.seqAt t).st = .fault) (hw : AtWord s.b t op w) :
    Turns c s (s.b.seqUpd t fun _ => sqAdvance len y) :=
  turns_onTile hc hl (seqDo_calm ((sqRun_atWord hw).trans (by rw [hf]; rfl)) fun h => hst (sqAdvance_fault h))

theorem faults_run (hc : exec c s = onTile t (fun now => seqDo now t fun e => sqRun e op len f) s) (hl : tileLive s.b t = true)
    (hf : f (sqEnv s.b s.clk.lattice t) w (s.b.seqAt t) = .error k) (hw : AtWord s.b t op w) : FaultsWith c t s k :=
  gives_onTile hc hl (seqDo_fault ((sqRun_atWord hw).trans (by rw [hf]; rfl)) hw.1)

/-- An instruction that sets the program counter itself. -/
theorem turns_runPc (hc : exec c s = onTile t (fun now => seqDo now t fun e => sqRunPc e op f) s) (hl : tileLive s.b t = true)
    (hf : f (sqEnv s.b s.clk.lattice t) w (s.b.seqAt t) = .ok y) (hst : y.st = .fault → (s.b.seqAt t).st = .fault) (hw : AtWord s.b t op w) :
    Turns c s (s.b.seqUpd t fun _ => atBoundary y) := by
  rw [← sqBoundary_eq]
  exact turns_onTile hc hl (seqDo_calm ((sqRunPc_atWord hw).trans (by rw [hf]; rfl)) fun h => hst (sqBoundary_fault h))

theorem faults_runPc (hc : exec c s = onTile t (fun now => seqDo now t fun e => sqRunPc e op f) s) (hl : tileLive s.b t = true)
    (hf : f (sqEnv s.b s.clk.lattice t) w (s.b.seqAt t) = .error k) (hw : AtWord s.b t op w) : FaultsWith c t s k :=
  gives_onTile hc hl (seqDo_fault ((sqRunPc_atWord hw).trans (by rw [hf]; rfl)) hw.1)

/-- A command that gives a block gives whatever holds of it. -/
theorem gives_of_turns {b : Block} {P : State → Prop} (h : Turns c s b) (hP : P { s with b := b }) : Gives c s P := ⟨_, h, hP⟩

end

end Sys2Proof.Proofs
end

section
/-! Control flow of a tile sequencer (R339, R347, R350, R351, R362, R363). -/

namespace Sys2Proof.Proofs

open Sys2Proof.Machine

/-! ### Steps of an instruction that may fault -/

@[simp] theorem except_ok_bind {ε α β : Type} (a : α) (g : α → Except ε β) : (Except.ok a >>= g) = g a := rfl

@[simp] theorem except_error_bind {ε α β : Type} (k : ε) (g : α → Except ε β) : (Except.error k >>= g) = .error k := rfl

@[simp] theorem except_pure {ε α : Type} (a : α) : (pure a : Except ε α) = .ok a := rfl

section
variable {e : SqEnv} {w : Nat} {x : Seq}

/-! Fields named 0 (R338) -/

theorem sqZeroB_ok (h : bits w 16 6 = 0) : sqZeroB w = .ok () := if_pos h

theorem sqZeroB_error (h : bits w 16 6 ≠ 0) : sqZeroB w = .error .illegal := if_neg h

theorem sqZeroK_ok (h : bits w 16 5 = 0) : sqZeroK w = .ok () := if_pos h

theorem sqZeroK_error (h : bits w 16 5 ≠ 0) : sqZeroK w = .error .illegal := if_neg h

/-! ### Branches and calls -/

/-- Condition `c` of BR holds of the flags (R339). -/
def CondHolds (c : Nat) (r : SqRegs) : Prop :=
  c = 0 ∨ (c = 1 ∧ r.z = true) ∨ (c = 2 ∧ r.z = false) ∨ (c = 3 ∧ r.n = true) ∨ (c = 4 ∧ r.n = false) ∨
    (c = 5 ∧ r.n = false ∧ r.z = false) ∨ (c = 6 ∧ (r.n = true ∨ r.z = true)) ∨ (c = 7 ∧ r.v = true)

theorem sqCond_holds {c : Nat} {r : SqRegs} (h : CondHolds c r) : sqCond c r = .ok true := by
  rcases h with rfl | ⟨rfl, h⟩ | ⟨rfl, h⟩ | ⟨rfl, h⟩ | ⟨rfl, h⟩ | ⟨rfl, hn, hz⟩ | ⟨rfl, h | h⟩ | ⟨rfl, h⟩ <;> simp [sqCond, *]

theorem sqCond_fails {c : Nat} {r : SqRegs} (hc : c < 8) (h : ¬CondHolds c r) : sqCond c r = .ok false := by
  unfold CondHolds at h
  interval_cases c <;> simp_all [sqCond]

theorem sqCond_reserved {c : Nat} {r : SqRegs} (hc : 8 ≤ c) : sqCond c r = .error .illegal := by
  obtain ⟨k, rfl⟩ := Nat.exists_eq_add_of_le' hc
  rfl

theorem sqBr_taken (h : bits w 16 6 = 0) (hc : CondHolds (bits w 22 4) x.r) : sqBr e w x = .ok (sqTo x (sqTarget w)) := by
  simp [sqBr, sqZeroB_ok h, sqCond_holds hc]

theorem sqBr_passed (h : bits w 16 6 = 0) (hlt : bits w 22 4 < 8) (hc : ¬CondHolds (bits w 22 4) x.r) : sqBr e w x = .ok (sqTo x (x.r.pc + 1)) := by
  simp [sqBr, sqZeroB_ok h, sqCond_fails hlt hc]

theorem sqBr_reserved (h : bits w 16 6 = 0) (hge : 8 ≤ bits w 22 4) : sqBr e w x = .error .illegal := by
  simp [sqBr, sqZeroB_ok h, sqCond_reserved hge]

/-- A sequencer with data register `d` counted down. -/
def counted (d : Fin 16) (x : Seq) : Seq := { x with r := { x.r with d := x.r.d.set d (x.r.d.get d - 1) } }

theorem sqDbnz_branches (h : bits w 16 6 = 0) (hd : x.r.d.get (sqFld w 22) ≠ 1) : sqDbnz e w x = .ok (sqTo (counted (sqFld w 22) x) (sqTarget w)) := by
  have h0 : ¬x.r.d.get (sqFld w 22) - 1 = 0 := fun h0 => hd (by bv_omega)
  simp only [sqDbnz, sqZeroB_ok h, except_ok_bind, if_neg h0]; rfl

theorem sqDbnz_ends (h : bits w 16 6 = 0) (hd : x.r.d.get (sqFld w 22) = 1) : sqDbnz e w x = .ok (sqTo (counted (sqFld w 22) x) (x.r.pc + 1)) := by
  have h0 : x.r.d.get (sqFld w 22) - 1 = 0 := by rw [hd]; rfl
  simp only [sqDbnz, sqZeroB_ok h, except_ok_bind, if_pos h0]; rfl

theorem sqCall_pushes (h : bits w 16 6 = 0) (hs : x.r.stack.length < 8) :
    sqCall e w x = .ok { x with r := { x.r with stack := (x.r.pc + 1) :: x.r.stack, pc := sqTarget w } } := by
  simp only [sqCall, sqZeroB_ok h, except_ok_bind, if_neg (Nat.not_le.2 hs)]; rfl

theorem sqCall_full (h : bits w 16 6 = 0) (hs : 8 ≤ x.r.stack.length) : sqCall e w x = .error .stack := by
  simp [sqCall, sqZeroB_ok h, hs]

theorem sqRet_pops {p : BitVec 16} {r : List (BitVec 16)} (h : bits w 16 5 = 0) (hs : x.r.stack = p :: r) :
    sqRet e w x = .ok { x with r := { x.r with stack := r, pc := p } } := by
  simp [sqRet, sqZeroK_ok h, hs, sqTo]

theorem sqRet_empty (h : bits w 16 5 = 0) (hs : x.r.stack = []) : sqRet e w x = .error .stack := by
  simp [sqRet, sqZeroK_ok h, hs]

theorem sqReti_returns (h : bits w 16 5 = 0) (hd : x.depth ≠ 0) :
    sqReti e w x = .ok { x with depth := x.depth - 1, r := { x.r with ie := true, pc := x.r.epc } } := by
  simp [sqReti, sqZeroK_ok h, hd, sqTo]

theorem sqReti_outside (h : bits w 16 5 = 0) (hd : x.depth = 0) : sqReti e w x = .error .illegal := by
  simp [sqReti, sqZeroK_ok h, hd]

/-! ### REP, WAIT, HALT -/

/-- The opcode at the address behind the instruction. -/
def nextOpcode (x : Seq) : Nat := sqOpcode (sqRead x ((x.r.pc.toNat + 1) % 65536))

theorem sqRepeats_iff {op : Nat} : sqRepeats op = true ↔ (op ≤ 0x15 ∧ op ≠ 4) ∨ op = 0x18 ∨ op = 0x1A := by simp [sqRepeats, or_assoc]

theorem sqRep_begins (h : bits w 16 5 = 0) (hr : sqRepeats (nextOpcode x) = true) (hn : sqCount x w ≠ 0) :
    sqRep e w x = .ok { x with rep := sqCount x w, repRan := false, r := { x.r with pc := x.r.pc + 1 } } := by
  unfold nextOpcode at hr
  simp [sqRep, sqZeroK_ok h, hr, hn, sqTo]

theorem sqRep_skips (h : bits w 16 5 = 0) (hr : sqRepeats (nextOpcode x) = true) (hn : sqCount x w = 0) : sqRep e w x = .ok (sqTo x (x.r.pc + 2)) := by
  unfold nextOpcode at hr
  simp [sqRep, sqZeroK_ok h, hr, hn]

theorem sqRep_body (h : bits w 16 5 = 0) (hr : ¬sqRepeats (nextOpcode x) = true) : sqRep e w x = .error .repBody := by
  unfold nextOpcode at hr
  simp [sqRep, sqZeroK_ok h, hr]

theorem getLsbD_mask (m i : Nat) : (BitVec.ofNat 16 m).getLsbD i = (decide (i < 16) && bit m i) := by
  rw [BitVec.getLsbD_ofNat, Nat.testBit_eq_decide_div_mod_eq]; rfl

theorem sqWait_passes (h : bits w 16 5 = 0) (he : ∃ p ∈ x.ev, bit (sqCount x w) p.1 = true ∧ p.1 < 16) : sqWait e w x = .ok (sqTo x (x.r.pc + 1)) := by
  obtain ⟨p, hp, hbit, hlt⟩ := he
  have hany : x.ev.any (fun p => (BitVec.ofNat 16 (sqCount x w)).getLsbD p.1) = true := List.any_eq_true.2 ⟨p, hp, by simp [getLsbD_mask, hbit, hlt]⟩
  simp only [sqWait, sqZeroK_ok h, except_ok_bind]
  exact congrArg Except.ok (if_pos hany)

theorem sqWait_waits (h : bits w 16 5 = 0) (he : ∀ p ∈ x.ev, bit (sqCount x w) p.1 = false) :
    sqWait e w x = .ok { x with st := .waiting, waitMask := BitVec.ofNat 16 (sqCount x w), r := { x.r with pc := x.r.pc + 1 } } := by
  have hany : ¬x.ev.any (fun p => (BitVec.ofNat 16 (sqCount x w)).getLsbD p.1) = true := fun h => by
    obtain ⟨p, hp, hbit⟩ := List.any_eq_true.1 h
    simp [getLsbD_mask, he p hp] at hbit
  simp only [sqWait, sqZeroK_ok h, except_ok_bind]
  exact congrArg Except.ok (if_neg hany)

/-- A sequencer halted at its instruction. -/
def haltedHere (x : Seq) : Seq := { x with st := .halted, faultPc := x.r.pc, haltReq := false }

theorem sqHaltI_halts (h : bits w 16 5 = 0) : sqHaltI e w x = .ok (haltedHere x) := by simp [sqHaltI, sqZeroK_ok h, haltedHere]

/-- A sequencer that halts meets no boundary. -/
theorem sqAdvance_halted {n : Nat} (hr : x.rep ≤ 1) :
    sqAdvance n (haltedHere x) = { haltedHere x with rep := 0, repRan := false, r := { x.r with pc := x.r.pc + BitVec.ofNat 16 n } } := by
  rw [sqAdvance_last (x := haltedHere x) hr, sqBoundary_eq]
  exact if_neg fun ⟨h, _, _⟩ => by cases h

/-! ### No instruction at the program counter -/

theorem sqKnown_iff {op : Nat} : sqKnown op = true ↔
    op ≤ 0x15 ∨ op = 0x18 ∨ op = 0x19 ∨ op = 0x1A ∨ (0x20 ≤ op ∧ op ≤ 0x22) ∨ (0x28 ≤ op ∧ op ≤ 0x31) ∨ op = 0x3F := by simp [sqKnown, or_assoc]

section
variable {t : Fin 8} {s : State} {op now : Nat}

theorem sqIllegal_unknown (hw : AtWord s.b t op w) (h : ¬sqKnown op = true) : sqIllegal (sqEnv s.b now t) (s.b.seqAt t) = sqFaultAt .illegal (s.b.seqAt t) := by
  refine if_pos (Bool.and_eq_true_iff.2 ⟨guard_atWord hw, ?_⟩)
  rw [opcode_atWord hw, Bool.eq_false_iff.2 h]; rfl

theorem sqIllegal_known (hw : AtWord s.b t op w) (h : sqKnown op = true) : sqIllegal (sqEnv s.b now t) (s.b.seqAt t) = s.b.seqAt t := by
  refine if_neg fun hg => ?_
  have hno := (Bool.and_eq_true_iff.1 hg).2
  rw [opcode_atWord hw, h] at hno
  cases hno

theorem sqFetchFault_outside (hst : x.st = .running) (hd : sqDispatchDue x = false) (hpc : e.codeLen ≤ x.r.pc.toNat) : sqFetchFault e x = sqFaultAt .fetch x :=
  if_pos (by simp [hst, hd, hpc])

theorem sqFetchFault_stands (h : x.st ≠ .running ∨ sqDispatchDue x = true ∨ x.r.pc.toNat < e.codeLen) : sqFetchFault e x = x := by
  refine if_neg fun hg => ?_
  simp only [Bool.and_eq_true, decide_eq_true_eq, Bool.not_eq_true'] at hg
  obtain ⟨⟨hst, hd⟩, hpc⟩ := hg
  rcases h with h | h | h
  · exact h hst
  · rw [hd] at h; cases h
  · omega

end

end

/-- Settles O31: each instruction by the effect of its word, an opcode outside the table and a program counter outside the code by the guard of their rows. -/
theorem sequencerFlow : Obligations.SequencerFlow := by
  intro t s x w hl hx
  subst hx
  refine ⟨fun hz => ⟨fun hc => turns_runPc (exec_br t s) hl (sqBr_taken hz hc) id, fun hlt hc => turns_runPc (exec_br t s) hl (sqBr_passed hz hlt hc) id,
      fun hge => faults_runPc (exec_br t s) hl (sqBr_reserved hz hge), fun hd => turns_runPc (exec_dbnz t s) hl (sqDbnz_branches hz hd) id,
      fun hd => turns_runPc (exec_dbnz t s) hl (sqDbnz_ends hz hd) id, fun hs => turns_runPc (exec_call t s) hl (sqCall_pushes hz hs) id,
      fun hs => faults_runPc (exec_call t s) hl (sqCall_full hz hs)⟩, fun hz => ?_, fun hz => ?_, fun hz => ?_, ⟨fun op hk hw => ?_, fun op hk hw => ?_⟩, fun hst hd hpc => ?_, fun h => ?_⟩
  · exact ⟨faults_runPc (exec_br t s) hl (by simp [sqBr, sqZeroB_error hz]), faults_runPc (exec_dbnz t s) hl (by simp [sqDbnz, sqZeroB_error hz]),
      faults_runPc (exec_call t s) hl (by simp [sqCall, sqZeroB_error hz])⟩
  · simp only [List.forall_mem_cons]
    exact ⟨faults_runPc (exec_ret t s) hl (by simp [sqRet, sqZeroK_error hz]), faults_runPc (exec_reti t s) hl (by simp [sqReti, sqZeroK_error hz]),
      faults_runPc (exec_rep t s) hl (by simp [sqRep, sqZeroK_error hz]), faults_runPc (exec_wait t s) hl (by simp [sqWait, sqZeroK_error hz]),
      faults_run (exec_halt t s) hl (by simp [sqHaltI, sqZeroK_error hz]), fun _ h => absurd h List.not_mem_nil⟩
  · refine ⟨fun p r hs => turns_runPc (exec_ret t s) hl (sqRet_pops hz hs) id, fun hs => faults_runPc (exec_ret t s) hl (sqRet_empty hz hs),
      fun hd => turns_runPc (exec_reti t s) hl (sqReti_returns hz hd) id, fun hd => faults_runPc (exec_reti t s) hl (sqReti_outside hz hd),
      ⟨fun hr hn => turns_runPc (exec_rep t s) hl (sqRep_begins hz (sqRepeats_iff.2 hr) hn) id, fun hr hn => turns_runPc (exec_rep t s) hl (sqRep_skips hz (sqRepeats_iff.2 hr) hn) id,
        fun hr => faults_runPc (exec_rep t s) hl (sqRep_body hz (mt sqRepeats_iff.1 hr))⟩,
      fun he => turns_runPc (exec_wait t s) hl (sqWait_passes hz he) id, fun he => turns_runPc (exec_wait t s) hl (sqWait_waits hz he) (by simp), fun hr hw => ?_⟩
    have hend := turns_run (exec_halt t s) hl (sqHaltI_halts hz) (by simp [haltedHere]) hw
    rw [sqAdvance_halted hr] at hend
    exact hend
  · exact gives_onTile (exec_illegalInstruction t s) hl (seqDo_fault (sqIllegal_unknown hw (mt sqKnown_iff.1 hk)) hw.1)
  · exact turns_onTile (exec_illegalInstruction t s) hl (seqDo_calm (sqIllegal_known hw (sqKnown_iff.2 hk)) id)
  · exact gives_onTile (exec_fetchFault t s) hl (seqDo_fault (sqFetchFault_outside hst hd hpc) hst)
  · exact turns_onTile (exec_fetchFault t s) hl (seqDo_calm (sqFetchFault_stands h) id)

end Sys2Proof.Proofs
end

section
/-! Addresses, stores and headroom of a tile sequencer (R335, R336, R340, R343, R363). -/

namespace Sys2Proof.Proofs

open Sys2Proof.Machine

/-! ### Post-modification (R336) -/

/-- Registers that address local memory alike. -/
def AddressAlike (r r' : SqRegs) : Prop := r'.a = r.a ∧ r'.o = r.o ∧ r'.rb = r.rb ∧ r'.rl = r.rl ∧ r'.bnd = r.bnd

section
variable {r r' q : SqRegs} {i o : Fin 16} {am : Nat}

/-- Post-modification reads what addresses, and changes the address registers alone. -/
theorem sqPost_alike (h : AddressAlike r r') (hq : sqPost r i o am = .ok q) : sqPost r' i o am = .ok { r' with a := q.a } := by
  obtain ⟨ha, ho, hrb, hrl, hbnd⟩ := h
  have hring : sqRing r' i = sqRing r i := by unfold sqRing; rw [hbnd, hrb, hrl]
  unfold sqPost at hq ⊢
  dsimp only at hq ⊢
  rw [hring, ha, ho]
  split at hq
  · cases hq; rw [← ha, ← ho]
  · split at hq
    · next hz => cases hq; exact if_pos hz
    · next hz => cases hq; exact if_neg hz
  · split at hq
    · cases hq
    · cases hq; rfl
  · cases hq

theorem sqPost_only (hq : sqPost r i o am = .ok q) : q = { r with a := q.a } :=
  Except.ok.inj (hq.symm.trans (sqPost_alike ⟨rfl, rfl, rfl, rfl, rfl⟩ hq))

/-- Registers that address alike still do after the same post-modification. -/
theorem addressAlike_post (h : AddressAlike r r') (hq : sqPost r i o am = .ok q) : AddressAlike q { r' with a := q.a } := by
  obtain ⟨-, ho, hrb, hrl, hbnd⟩ := h
  rw [sqPost_only hq]
  exact ⟨rfl, ho, hrb, hrl, hbnd⟩

theorem sqPost_bdet (hq : sqPost r i o am = .ok q) : q.bdet = r.bdet := by rw [sqPost_only hq]

/-- Post-modification by an offset meets no fault. -/
theorem sqPost_offset (r : SqRegs) (i o : Fin 16) : ∃ q, sqPost r i o 1 = .ok q := by
  by_cases h : ((sqRing r i).2 : Int) = 0
  · exact ⟨_, if_pos h⟩
  · exact ⟨_, if_neg h⟩

end

/-! ### Stores (R363) -/

/-- Local memory with `n` words stored at the addresses `ea`, in this order. -/
def memStored (m : Tab Word) (ea : Nat → Nat) (v : Nat → Word) (n : Nat) : Tab Word := (List.range n).foldl (fun m k => tabSet 0 m (ea k) (v k)) m

section
variable {m : Tab Word} {ea : Nat → Nat} {v : Nat → Word} {n : Nat}

theorem memStored_succ : memStored m ea v (n + 1) = tabSet 0 (memStored m ea v n) (ea n) (v n) := by simp [memStored, List.range_succ]

/-- A word that no store reaches stands. -/
theorem memStored_other {a : Nat} (h : ∀ k < n, ea k ≠ a) : tabGet 0 (memStored m ea v n) a = tabGet 0 m a := by
  induction n with
  | zero => rfl
  | succ n ih => rw [memStored_succ, tabGet_set_ne _ _ _ _ _ (h n n.lt_succ_self).symm, ih fun k hk => h k (hk.trans n.lt_succ_self)]

/-- An address holds the last word stored there. -/
theorem memStored_last {k : Nat} (hk : k < n) (h : ∀ l, k < l → l < n → ea l ≠ ea k) : tabGet 0 (memStored m ea v n) (ea k) = v k := by
  induction n with
  | zero => omega
  | succ n ih =>
    rw [memStored_succ]
    rcases Nat.lt_succ_iff_lt_or_eq.1 hk with hlt | rfl
    · rw [tabGet_set_ne _ _ _ _ _ (h n hlt n.lt_succ_self).symm, ih hlt fun l hkl hln => h l hkl (hln.trans n.lt_succ_self)]
    · exact tabGet_set_same _ _ _ _

end

/-- A sequencer with `n` words stored through address register `i`. -/
def storedVia (x : Seq) (i : Fin 16) (v : Nat → Word) (n : Nat) : Seq := { x with mem := memStored x.mem (sqEa x.r i) v n }

section
variable {e : SqEnv} {x : Seq} {i : Fin 16} {v : Nat → Word} {n : Nat}

theorem length_words : ((List.range n).map v).length = n := by simp

/-- A store outside the code area. -/
theorem sqStore_data (h : ∀ k < n, e.codeLen ≤ sqEa x.r i k) : sqStore e x i ((List.range n).map v) = .ok (storedVia x i v n) := by
  have hcode : ¬((List.range n).map (sqEa x.r i)).any (fun a => decide (a < e.codeLen)) = true := fun hany => by
    simp only [List.any_map, List.any_eq_true, List.mem_range, Function.comp, decide_eq_true_eq] at hany
    obtain ⟨k, hk, hlt⟩ := hany
    exact absurd (h k hk) (Nat.not_le.2 hlt)
  unfold sqStore
  rw [length_words]
  refine (if_neg hcode).trans ?_
  rw [List.zip_map', List.foldl_map]
  rfl

theorem sqStore_code (h : ∃ k < n, sqEa x.r i k < e.codeLen) : sqStore e x i ((List.range n).map v) = .error .codeWrite := by
  obtain ⟨k, hk, hlt⟩ := h
  unfold sqStore
  rw [length_words]
  exact if_pos (List.any_eq_true.2 ⟨sqEa x.r i k, List.mem_map_of_mem (List.mem_range.2 hk), decide_eq_true hlt⟩)

/-- What a store leaves in local memory. -/
theorem sqRead_storedVia : (∀ k < n, (∀ l, k < l → l < n → sqEa x.r i l ≠ sqEa x.r i k) → sqRead (storedVia x i v n) (sqEa x.r i k) = v k) ∧
    ∀ a, (∀ k < n, sqEa x.r i k ≠ a) → sqRead (storedVia x i v n) a = sqRead x a :=
  ⟨fun _ hk h => memStored_last hk h, fun _ h => memStored_other h⟩

end

/-! ### Headroom (R343) -/

/-- A word has `h` bits of headroom. -/
abbrev Fits (h : Nat) (v : Word) : Prop := -(2 : Int) ^ (31 - h) ≤ v.toInt ∧ v.toInt < (2 : Int) ^ (31 - h)

theorem Fits.mono {h k : Nat} {v : Word} (hv : Fits h v) (hk : k ≤ h) : Fits k v := by
  have hpow : (2 : Int) ^ (31 - h) ≤ (2 : Int) ^ (31 - k) := pow_le_pow_right₀ (by decide) (by omega)
  exact ⟨(neg_le_neg hpow).trans hv.1, hv.2.trans_le hpow⟩

theorem fits_zero (v : Word) : Fits 0 v := ⟨by have := v.le_toInt; simpa using this, by have := v.toInt_lt; simpa using this⟩

/-- The last of a range with a property is the greatest. -/
theorem getLast_filter_range (p : Nat → Bool) (n : Nat) : ((List.range (n + 1)).filter p).getLast?.getD 0 = Nat.findGreatest (fun k => p k = true) n := by
  induction n with
  | zero => cases h : p 0 <;> simp [h]
  | succ n ih =>
    rw [List.range_succ, List.filter_append, Nat.findGreatest_succ]
    cases h : p (n + 1)
    · simpa [h] using ih
    · simp [h]

theorem sqHead_eq (v : Word) : sqHead v = Nat.findGreatest (fun k => decide (Fits k v) = true) 31 := getLast_filter_range _ 31

theorem le_sqHead {h : Nat} (hh : h ≤ 31) (v : Word) : h ≤ sqHead v ↔ Fits h v := by
  rw [sqHead_eq]
  constructor
  · intro hle
    exact Fits.mono (of_decide_eq_true (Nat.findGreatest_spec (P := fun k => decide (Fits k v) = true) (Nat.zero_le 31) (decide_eq_true (fits_zero v)))) hle
  · exact fun hv => Nat.le_findGreatest hh (decide_eq_true hv)

theorem le_foldl_min {h : Nat} (hh : h ≤ 31) (vs : List Word) (m : Nat) : h ≤ vs.foldl (fun m v => min m (sqHead v)) m ↔ h ≤ m ∧ ∀ v ∈ vs, Fits h v := by
  induction vs generalizing m with
  | nil => simp
  | cons v vs ih => rw [List.foldl_cons, ih, Nat.le_min, le_sqHead hh, List.forall_mem_cons, and_assoc]

theorem foldl_min_le (vs : List Word) (m : Nat) : vs.foldl (fun m v => min m (sqHead v)) m ≤ m := by
  induction vs generalizing m with
  | nil => exact le_rfl
  | cons v vs ih => exact (ih _).trans (Nat.min_le_left _ _)

/-- BDET of `y` after words `vs` are written under `bd`, with BDET of `x` before. -/
def DetIs (bd : Bool) (vs : List Word) (x y : SqRegs) : Prop :=
  if bd then ∀ h ≤ 31, (h ≤ y.bdet.toNat ↔ h ≤ x.bdet.toNat ∧ ∀ v ∈ vs, -(2 : Int) ^ (31 - h) ≤ v.toInt ∧ v.toInt < (2 : Int) ^ (31 - h)) else y.bdet = x.bdet

theorem sqDet_is (bd : Bool) (vs : List Word) {r x : SqRegs} (h : r.bdet = x.bdet) : DetIs bd vs x (sqDet bd vs r) := by
  cases bd with
  | false => exact h
  | true =>
    intro k hk
    have hm : vs.foldl (fun m v => min m (sqHead v)) r.bdet.toNat < 2 ^ 5 := (foldl_min_le vs _).trans_lt r.bdet.isLt
    show k ≤ (BitVec.ofNat 5 _).toNat ↔ _
    rw [BitVec.toNat_ofNat, Nat.mod_eq_of_lt hm, le_foldl_min hk, h]

end Sys2Proof.Proofs
end

section
/-! Loads, stores, address arithmetic, search, snapshot and transfers of a tile sequencer (R339, R340, R346, R354, R358, R359). -/

namespace Sys2Proof.Proofs

open Sys2Proof.Machine

theorem bits_lt (v lo n : Nat) : bits v lo n < 2 ^ n := Nat.mod_lt _ (Nat.two_pow_pos n)

/-- The number of words of a size field that is not reserved (R340). -/
def fieldWords (sz : Nat) : Nat := if sz = 0 then 1 else if sz = 1 then 2 else 4

theorem sqSize_ok {w lo : Nat} (h : bits w lo 2 ≠ 3) : sqSize (bits w lo 2) = .ok (fieldWords (bits w lo 2)) := by
  have hlt := bits_lt w lo 2
  have hsz : bits w lo 2 = 0 ∨ bits w lo 2 = 1 ∨ bits w lo 2 = 2 := by omega
  rcases hsz with hsz | hsz | hsz <;> rw [hsz] <;> rfl

/-- The fields of an M-format word are legal (R338, R340). -/
def LegalM (w : Nat) : Prop := bits w 0 9 = 0 ∧ bits w 12 2 ≠ 3 ∧ bits w 10 2 ≠ 3

theorem sqChkM_legal {w : Nat} (h : LegalM w) : sqChkM w = .ok (fieldWords (bits w 10 2)) := by
  obtain ⟨h0, ham, hsz⟩ := h
  simp [sqChkM, sqZeroM, h0, ham, sqSize_ok hsz]

theorem sqChkM_illegal {w : Nat} (h : ¬LegalM w) : sqChkM w = .error .illegal := by
  by_cases h0 : bits w 0 9 = 0
  · by_cases ham : bits w 12 2 = 3
    · simp [sqChkM, sqZeroM, h0, ham]
    · have hsz : bits w 10 2 = 3 := not_not.1 fun hsz => h ⟨h0, ham, hsz⟩
      simp [sqChkM, sqZeroM, h0, ham, hsz, sqSize]
  · simp [sqChkM, sqZeroM, h0]

theorem sqGroup_ok {d : Fin 16} {n : Nat} (h : d.val + n ≤ 16) : sqGroup d n = .ok () := if_pos h

theorem sqGroup_error {d : Fin 16} {n : Nat} (h : 16 < d.val + n) : sqGroup d n = .error .illegal := if_neg (Nat.not_le.2 h)

/-- Data registers with `n` words loaded from register `i` on. -/
def loadedInto (u : Vector Word 16) (i : Fin 16) (v : Nat → Word) (n : Nat) : Vector Word 16 := (List.range n).foldl (fun u k => vset u (i + Fin.ofNat 16 k) (v k)) u

theorem val_add_ofNat {i : Fin 16} {k : Nat} (h : i.val + k < 16) : (i + Fin.ofNat 16 k).val = i.val + k := by
  simp [Fin.val_add, Nat.mod_eq_of_lt h]

theorem loadedInto_get {u : Vector Word 16} {i : Fin 16} {v : Nat → Word} {n : Nat} (h : i.val + n ≤ 16) (j : Fin 16) :
    (loadedInto u i v n).get j = if i.val ≤ j.val ∧ j.val < i.val + n then v (j.val - i.val) else u.get j := by
  induction n with
  | zero => exact (if_neg (by omega)).symm
  | succ n ih =>
    have hsucc : loadedInto u i v (n + 1) = vset (loadedInto u i v n) (i + Fin.ofNat 16 n) (v n) := by simp [loadedInto, List.range_succ]
    have hval := val_add_ofNat (i := i) (k := n) (by omega)
    rw [hsucc]
    by_cases hj : j = i + Fin.ofNat 16 n
    · rw [hj, vset_get_same, hval, if_pos (by omega), Nat.add_sub_cancel_left]
    · have hne : j.val ≠ i.val + n := fun he => hj (Fin.ext (he.trans hval.symm))
      rw [vset_get_other _ _ _ _ hj, ih (by omega)]
      exact if_congr (by omega) rfl rfl

section
variable {e : SqEnv} {w : Nat} {x : Seq} {r : SqRegs}

theorem zip_range {α : Type} (v : Nat → α) (n : Nat) : ((List.range n).map v).zip (List.range n) = (List.range n).map fun k => (v k, k) := by
  simpa using List.zip_map' (f := v) (g := id) (l := List.range n)

theorem sqLd_loads (hm : LegalM w) (hd : (sqFld w 22).val + fieldWords (bits w 10 2) ≤ 16) (hr : sqPost x.r (sqFld w 18) (sqFld w 14) (bits w 12 2) = .ok r) :
    let ws := fun k => sqRead x (sqEa x.r (sqFld w 18) k)
    let n := fieldWords (bits w 10 2)
    sqLd e w x = .ok { x with r := sqDet (bit w 9) ((List.range n).map ws) { r with d := loadedInto x.r.d (sqFld w 22) ws n } } := by
  have hkeep : r.d = x.r.d := by rw [sqPost_only hr]
  simp only [sqLd, sqChkM_legal hm, except_ok_bind, sqGroup_ok hd, hr, hkeep, sqLoad, zip_range, List.foldl_map]
  rfl

theorem sqSt_stores (hm : LegalM w) (hd : (sqFld w 22).val + fieldWords (bits w 10 2) ≤ 16) (hr : sqPost x.r (sqFld w 18) (sqFld w 14) (bits w 12 2) = .ok r)
    (hcode : ∀ k < fieldWords (bits w 10 2), e.codeLen ≤ sqEa x.r (sqFld w 18) k) :
    let ws := fun k => x.r.d.get (sqFld w 22 + Fin.ofNat 16 k)
    let n := fieldWords (bits w 10 2)
    sqSt e w x = .ok { storedVia x (sqFld w 18) ws n with r := sqDet (bit w 9) ((List.range n).map ws) r } := by
  simp only [sqSt, sqChkM_legal hm, except_ok_bind, sqGroup_ok hd, sqStore_data hcode]
  rw [show sqPost (storedVia x _ _ _).r _ _ _ = .ok r from hr]
  rfl

theorem sqSt_code (hm : LegalM w) (hd : (sqFld w 22).val + fieldWords (bits w 10 2) ≤ 16) (hcode : ∃ k < fieldWords (bits w 10 2), sqEa x.r (sqFld w 18) k < e.codeLen) :
    sqSt e w x = .error .codeWrite := by
  simp [sqSt, sqChkM_legal hm, sqGroup_ok hd, sqStore_code hcode]

theorem sqLd_group (hm : LegalM w) (hd : 16 < (sqFld w 22).val + fieldWords (bits w 10 2)) : sqLd e w x = .error .illegal := by
  simp [sqLd, sqChkM_legal hm, sqGroup_error hd]

theorem sqSt_group (hm : LegalM w) (hd : 16 < (sqFld w 22).val + fieldWords (bits w 10 2)) : sqSt e w x = .error .illegal := by
  simp [sqSt, sqChkM_legal hm, sqGroup_error hd]

theorem sqAadd_adds (hm : LegalM w) (hr : sqPost x.r (sqFld w 18) (sqFld w 14) (bits w 12 2) = .ok r) : sqAadd e w x = .ok { x with r := r } := by
  simp [sqAadd, sqChkM_legal hm, hr]

/-! ### SRCH (R346) -/

theorem sat32_of_fits {v : Int} (h : -2147483648 ≤ v) (h' : v < 2147483648) : sat32 v = v := by
  unfold sat32 satS
  norm_num
  omega

/-- The magnitude of a word, which saturates (R341). -/
def absWord (v : Word) : Word := if v.toInt = -2 ^ 31 then 0x7FFFFFFF else BitVec.ofInt 32 v.toInt.natAbs

theorem absWord_toInt (v : Word) : (absWord v).toInt = sat32 |v.toInt| := by
  have hlo := v.le_toInt
  have hhi := v.toInt_lt
  unfold absWord
  split
  · next h => rw [h]; rfl
  · next h =>
    norm_num at hlo hhi h
    have habs : -2147483648 ≤ |v.toInt| ∧ |v.toInt| < 2147483648 := by rw [Int.abs_eq_natAbs]; omega
    rw [sat32_of_fits habs.1 habs.2, ← Int.abs_eq_natAbs, BitVec.toInt_ofInt_eq_self (by decide) (by norm_num; exact habs.1) (by norm_num; exact habs.2)]

/-- The word that comparison `c` of SRCH offers for `v`, and whether it wins against MX. -/
def searchPick (c : Nat) (v mx : Word) : Except SqFault (Int × Bool) :=
  match c with
  | 0 => .ok (v.toInt, decide (mx.toInt < v.toInt))
  | 1 => .ok (v.toInt, decide (v.toInt < mx.toInt))
  | 2 => .ok (sat32 |v.toInt|, decide (mx.toInt < sat32 |v.toInt|))
  | _ => .error .illegal

/-- Comparison `c` offers word `m` for `v`, which wins exactly if `p` holds. -/
def Offers (c : Nat) (v mx m : Word) (p : Prop) : Prop := ∃ q, searchPick c v mx = .ok (m.toInt, q) ∧ (q = true ↔ p)

theorem offers_max (v mx : Word) : Offers 0 v mx v (mx.toInt < v.toInt) := ⟨_, rfl, decide_eq_true_iff⟩

theorem offers_min (v mx : Word) : Offers 1 v mx v (v.toInt < mx.toInt) := ⟨_, rfl, decide_eq_true_iff⟩

theorem offers_abs (v mx : Word) : Offers 2 v mx (absWord v) (mx.toInt < (absWord v).toInt) := by
  rw [Offers, absWord_toInt]
  exact ⟨_, rfl, decide_eq_true_iff⟩

/-- The registers after a search step that takes `m`, or none. -/
def searched (took : Bool) (m : Word) (a : Nat) (r : SqRegs) : SqRegs := if took then { r with mx := m, mxi := BitVec.ofNat 16 a } else r

theorem sqPost_searched {i o : Fin 16} {am a : Nat} {took : Bool} {m : Word} (hr : sqPost x.r i o am = .ok r) :
    sqPost (searched took m a x.r) i o am = .ok (searched took m a r) := by
  cases took with
  | false => exact hr
  | true =>
    refine (sqPost_alike (r := x.r) (r' := searched true m a x.r) ⟨rfl, rfl, rfl, rfl, rfl⟩ hr).trans (congrArg Except.ok ?_)
    rw [sqPost_only hr]; rfl

/-- SRCH: its comparison, its registers, its post-modification. -/
theorem sqSrch_eq : sqSrch e w x = sqChkM w >>= fun _ => searchPick (bits w 22 2) (sqRead x (sqEa x.r (sqFld w 18) 0)) x.r.mx >>= fun ct =>
    sqPost (searched (ct.2 || (bit w 24 && !x.repRan)) (BitVec.ofInt 32 ct.1) (sqEa x.r (sqFld w 18) 0) x.r) (sqFld w 18) (sqFld w 14) (bits w 12 2) >>= fun r =>
      pure { x with r := r } := by
  unfold sqSrch
  generalize bits w 22 2 = c
  match c with
  | 0 | 1 | 2 | _ + 3 => rfl

section
variable {c : Nat} {m : Word} {p : Prop} (hm : LegalM w) (hr : sqPost x.r (sqFld w 18) (sqFld w 14) (bits w 12 2) = .ok r) (hc : bits w 22 2 = c)
  (ho : Offers c (sqRead x (sqEa x.r (sqFld w 18) 0)) x.r.mx m p)
include hm hr hc ho

theorem sqSrch_takes (h : p ∨ (bit w 24 = true ∧ x.repRan = false)) :
    sqSrch e w x = .ok { x with r := { r with mx := m, mxi := BitVec.ofNat 16 (sqEa x.r (sqFld w 18) 0) } } := by
  obtain ⟨q, hq, hwins⟩ := ho
  have htake : (q || (bit w 24 && !x.repRan)) = true := by simpa [hwins] using h
  rw [sqSrch_eq, sqChkM_legal hm, hc, hq]
  simp only [except_ok_bind, htake, BitVec.ofInt_toInt, sqPost_searched hr]
  rfl

theorem sqSrch_keeps (hp : ¬p) (hi : ¬(bit w 24 = true ∧ x.repRan = false)) : sqSrch e w x = .ok { x with r := r } := by
  obtain ⟨q, hq, hwins⟩ := ho
  have htake : (q || (bit w 24 && !x.repRan)) = false := Bool.eq_false_iff.2 fun h => (not_or.2 ⟨hp, hi⟩) (by simpa [hwins] using h)
  rw [sqSrch_eq, sqChkM_legal hm, hc, hq]
  simp only [except_ok_bind, htake, BitVec.ofInt_toInt, sqPost_searched hr]
  rfl

end

theorem sqSrch_reserved (hm : LegalM w) (hc : bits w 22 2 = 3) : sqSrch e w x = .error .illegal := by
  simp [sqSrch, sqChkM_legal hm, hc]

/-! ### MBSNAP (R354) -/

theorem toList_inW (m : Mbx) : m.inW.toList = (List.range 16).map fun k => m.inW.get (Fin.ofNat 16 k) := by
  refine List.ext_getElem (by simp) fun k hk _ => ?_
  have hlt : k < 16 := by simpa using hk
  simp [Vector.get_eq_getElem, Nat.mod_eq_of_lt hlt]

theorem sqMbsnap_stores (hm : LegalM w) (hr : sqPost x.r (sqFld w 18) (sqFld w 14) (bits w 12 2) = .ok r) (hcode : ∀ k < 16, e.codeLen ≤ sqEa x.r (sqFld w 18) k) :
    sqMbsnap e w x = .ok { storedVia x (sqFld w 18) (fun k => x.mb.inW.get (Fin.ofNat 16 k)) 16 with r := sqDet (bit w 9) x.mb.inW.toList r } := by
  simp only [sqMbsnap, sqChkM_legal hm, except_ok_bind]
  rw [toList_inW, sqStore_data hcode, except_ok_bind, show sqPost (storedVia x _ _ _).r _ _ _ = .ok r from hr]
  rfl

theorem sqMbsnap_code (hm : LegalM w) (hcode : ∃ k < 16, sqEa x.r (sqFld w 18) k < e.codeLen) : sqMbsnap e w x = .error .codeWrite := by
  simp only [sqMbsnap, sqChkM_legal hm, except_ok_bind]
  rw [toList_inW, sqStore_code hcode, except_error_bind]

/-! ### XFER (R358, R359) -/

/-- The transfer that a descriptor asks for. -/
def xferAsked (e : SqEnv) (w : Nat) (x : Seq) : Xfer := { sqDesc (sqLoad x (sqFld w 18) 4) with at_ := e.now }

/-- The channel of an XFER. -/
def xferChan (w : Nat) : Fin 4 := Fin.ofNat 4 (bits w 22 2)

section
variable (hm : LegalM w) (hr : sqPost x.r (sqFld w 18) (sqFld w 14) (bits w 12 2) = .ok r)
include hm hr

theorem sqXfer_eq : sqXfer e w x = .ok (
    if (x.ch.get (xferChan w)).busy = true then sqEvent (8 + (xferChan w).val) e.now { x with r := r, ch := vset x.ch (xferChan w) { x.ch.get (xferChan w) with err := 1 } }
    else if e.xferErr (xferAsked e w x) = 0 then { x with r := r, ch := vset x.ch (xferChan w) (xferAsked e w x) }
    else sqEvent (8 + (xferChan w).val) e.now { x with r := r, ch := vset x.ch (xferChan w) { x.ch.get (xferChan w) with err := e.xferErr (xferAsked e w x) } }) := by
  simp only [sqXfer, sqChkM_legal hm, except_ok_bind, hr]
  rfl

theorem sqXfer_starts (hb : (x.ch.get (xferChan w)).busy = false) (he : e.xferErr (xferAsked e w x) = 0) :
    sqXfer e w x = .ok { x with r := r, ch := vset x.ch (xferChan w) (xferAsked e w x) } := by
  rw [sqXfer_eq hm hr, if_neg (Bool.eq_false_iff.1 hb), if_pos he]

theorem sqXfer_fails (hb : (x.ch.get (xferChan w)).busy = false) (he : e.xferErr (xferAsked e w x) ≠ 0) : sqXfer e w x = .ok
    (sqEvent (8 + (xferChan w).val) e.now { x with r := r, ch := vset x.ch (xferChan w) { x.ch.get (xferChan w) with err := e.xferErr (xferAsked e w x) } }) := by
  rw [sqXfer_eq hm hr, if_neg (Bool.eq_false_iff.1 hb), if_neg he]

theorem sqXfer_busy (hb : (x.ch.get (xferChan w)).busy = true) : sqXfer e w x = .ok
    (sqEvent (8 + (xferChan w).val) e.now { x with r := r, ch := vset x.ch (xferChan w) { x.ch.get (xferChan w) with err := 1 } }) := by
  rw [sqXfer_eq hm hr, if_pos hb]

end

/-! ### MVM (R339) -/

/-- The fields of an MVM word are legal (R338, R340). -/
def LegalMM (w : Nat) : Prop := bits w 0 3 = 0 ∧ bits w 4 2 ≠ 3 ∧ bits w 6 2 ≠ 3 ∧ bits w 16 2 ≠ 3

theorem sqMvm_illegal (h : bits w 0 3 ≠ 0 ∨ bits w 4 2 = 3 ∨ bits w 6 2 = 3 ∨ bits w 16 2 = 3) : sqMvm e w x = .error .illegal := by
  by_cases h0 : bits w 0 3 = 0
  · by_cases hsz : bits w 4 2 = 3
    · simp [sqMvm, sqZeroMM, h0, hsz, sqSize]
    · have ham : bits w 6 2 = 3 ∨ bits w 16 2 = 3 := (h.resolve_left (not_not.2 h0)).resolve_left hsz
      simp [sqMvm, sqZeroMM, h0, sqSize_ok hsz, ham]
  · simp [sqMvm, sqZeroMM, h0]

theorem sqMvm_moves {q : SqRegs} (hm : LegalMM w) (hcode : ∀ k < fieldWords (bits w 4 2), e.codeLen ≤ sqEa x.r (sqFld w 22) k)
    (hr : sqPost x.r (sqFld w 12) (sqFld w 8) (bits w 6 2) = .ok r) (hq : sqPost r (sqFld w 22) (sqFld w 18) (bits w 16 2) = .ok q) :
    let ws := fun k => sqRead x (sqEa x.r (sqFld w 12) k)
    let n := fieldWords (bits w 4 2)
    sqMvm e w x = .ok { storedVia x (sqFld w 22) ws n with r := sqDet (bit w 3) ((List.range n).map ws) q } := by
  obtain ⟨h0, hsz, ham, ham'⟩ := hm
  simp only [sqMvm, sqZeroMM, h0, if_true, sqSize_ok hsz, ham, ham', sqLoad, sqStore_data hcode, except_ok_bind, decide_false, Bool.or_self, Bool.false_eq_true, if_false, except_pure]
  rw [show sqPost (storedVia x _ _ _).r _ _ _ = .ok r from hr, except_ok_bind, hq]
  rfl

theorem sqMvm_code (hm : LegalMM w) (hcode : ∃ k < fieldWords (bits w 4 2), sqEa x.r (sqFld w 22) k < e.codeLen) : sqMvm e w x = .error .codeWrite := by
  obtain ⟨h0, hsz, ham, ham'⟩ := hm
  simp [sqMvm, sqZeroMM, h0, sqSize_ok hsz, ham, ham', sqLoad, sqStore_code hcode]

end

end Sys2Proof.Proofs
end

section
/-! Class moves, vector steps and butterflies of a tile sequencer (R339, R340, R342, R344). -/

namespace Sys2Proof.Proofs

open Sys2Proof.Machine

section
variable {e : SqEnv} {w : Nat} {x : Seq}

/-! ### MOVA (R339, R340) -/

/-- Register `i` of class `cls` holds `v`: the sources of MOVA but the flags and the bindings. -/
def ClassHolds (x : Seq) (cls : Nat) (i : Fin 16) (v : Word) : Prop :=
  (cls = 0 ∧ v = x.r.d.get i) ∨ (cls = 1 ∧ v = (x.r.a.get i).setWidth 32) ∨ (cls = 2 ∧ v = (x.r.o.get i).signExtend 32) ∨
    (cls = 3 ∧ i.val < 8 ∧ v = (x.r.rb.get (Fin.ofNat 8 i.val)).setWidth 32) ∨ (cls = 4 ∧ i.val < 8 ∧ v = (x.r.rl.get (Fin.ofNat 8 i.val)).setWidth 32) ∨
    (cls = 5 ∧ ((i.val = 0 ∧ v = x.r.bexp.signExtend 32) ∨ (i.val = 1 ∧ v = x.r.bdet.setWidth 32) ∨ (i.val = 2 ∧ v = x.r.bsh.setWidth 32) ∨ (i.val = 3 ∧ v = x.r.mx) ∨
      (i.val = 4 ∧ v = x.r.mxi.setWidth 32) ∨ (i.val = 6 ∧ v = x.r.even.setWidth 32) ∨ (i.val = 7 ∧ v = x.dbell)))

theorem sqClassRead_holds {cls : Nat} {i : Fin 16} {v : Word} (h : ClassHolds x cls i v) : sqClassRead x cls i = .ok v := by
  rcases h with ⟨rfl, rfl⟩ | ⟨rfl, rfl⟩ | ⟨rfl, rfl⟩ | ⟨rfl, hi, rfl⟩ | ⟨rfl, hi, rfl⟩ | ⟨rfl, h⟩
  · rfl
  · rfl
  · rfl
  · exact if_pos hi
  · exact if_pos hi
  · rcases h with ⟨hi, rfl⟩ | ⟨hi, rfl⟩ | ⟨hi, rfl⟩ | ⟨hi, rfl⟩ | ⟨hi, rfl⟩ | ⟨hi, rfl⟩ | ⟨hi, rfl⟩ <;> simp [sqClassRead, hi]

/-- The destinations of MOVA that no register has. -/
theorem sqClassWrite_illegal {cls : Nat} {i : Fin 16} {v : Word}
    (h : 6 ≤ cls ∨ (3 ≤ cls ∧ cls ≤ 4 ∧ 8 ≤ i.val) ∨ (cls = 5 ∧ (i.val = 4 ∨ i.val = 7 ∨ 10 ≤ i.val ∨ (i.val = 2 ∧ bits v.toNat 0 2 = 3)))) :
    sqClassWrite x cls i v = .error .illegal := by
  rcases h with h | ⟨hlo, hhi, hi⟩ | ⟨rfl, hi | hi | hi | ⟨hi, hv⟩⟩
  · obtain ⟨k, rfl⟩ := Nat.exists_eq_add_of_le' h
    rfl
  · have hcls : cls = 3 ∨ cls = 4 := by omega
    rcases hcls with rfl | rfl <;> exact if_neg (Nat.not_lt.2 hi)
  · simp [sqClassWrite, hi]
  · simp [sqClassWrite, hi]
  · obtain ⟨k, hk⟩ := Nat.exists_eq_add_of_le' hi
    simp [sqClassWrite, hk]
  · simp [sqClassWrite, hi, hv]

theorem sqMova_moves {v : Word} (h0 : bits w 0 8 = 0) (hv : ClassHolds x (bits w 8 3) (sqFld w 18) v) : sqMova e w x = sqClassWrite x (bits w 11 3) (sqFld w 22) v := by
  simp [sqMova, sqZeroR, h0, sqClassRead_holds hv]

/-! ### VMAC (R342) -/

/-- The limits of an accumulator. -/
def sat80 (v : Int) : Int := max (-2 ^ 79) (min (2 ^ 79 - 1) v)

theorem satS_80 (v : Int) : satS 80 v = sat80 v := by
  unfold satS sat80
  norm_num
  omega

theorem sat80_toInt (v : Int) : (BitVec.ofInt 80 (sat80 v)).toInt = sat80 v := by
  have hrange : -2 ^ 79 ≤ sat80 v ∧ sat80 v < 2 ^ 79 := by
    unfold sat80
    omega
  exact BitVec.toInt_ofInt_eq_self (by decide) hrange.1 hrange.2

theorem sat80_of_toInt (a : BitVec 80) : sat80 a.toInt = a.toInt := by
  have hlo := a.le_toInt
  have hhi := a.toInt_lt
  unfold sat80
  norm_num at hlo hhi ⊢
  omega

/-- An accumulator is limited, and V tells so. -/
theorem sqAcc_eq (k : Fin 4) (v : Int) : sqAcc x k v = { x with
    r := { x.r with acc := vset x.r.acc k (BitVec.ofInt 80 (sat80 v)), v := x.r.v || decide (sat80 v ≠ v) }, sat := x.sat || decide (sat80 v ≠ v) } := by
  unfold sqAcc sqV
  rw [satS_80]
  dsimp only
  split
  · next h => rw [h, Bool.or_true, Bool.or_true]
  · next h => rw [Bool.eq_false_iff.2 h, Bool.or_false, Bool.or_false]

/-- The sum `f` added to each accumulator of `ks` in turn. -/
def accumulated (f : Fin 4 → Int) (ks : List (Fin 4)) (x : Seq) : Seq := ks.foldl (fun s k => sqAcc s k ((s.r.acc.get k).toInt + f k)) x

section
variable {f : Fin 4 → Int} {ks : List (Fin 4)}

theorem accumulated_cons (k : Fin 4) : accumulated f (k :: ks) x = accumulated f ks (sqAcc x k ((x.r.acc.get k).toInt + f k)) := rfl

theorem accumulated_only : accumulated f ks x = { x with r := { x.r with acc := (accumulated f ks x).r.acc, v := (accumulated f ks x).r.v }, sat := (accumulated f ks x).sat } := by
  induction ks generalizing x with
  | nil => rfl
  | cons k ks ih =>
    rw [accumulated_cons, ih, sqAcc_eq]

/-- Each accumulator of `ks` holds its sum, every other stands. -/
theorem accumulated_acc (hk : ks.Nodup) (i : Fin 4) :
    (accumulated f ks x).r.acc.get i = if i ∈ ks then BitVec.ofInt 80 (sat80 ((x.r.acc.get i).toInt + f i)) else x.r.acc.get i := by
  induction ks generalizing x with
  | nil => rfl
  | cons k ks ih =>
    obtain ⟨hnot, hk⟩ := List.nodup_cons.1 hk
    rw [accumulated_cons, ih hk, sqAcc_eq]
    by_cases hi : i = k
    · subst hi
      simp [hnot, vset_get_same]
    · simp [hi, vset_get_other]

theorem accumulated_v (hk : ks.Nodup) : (accumulated f ks x).r.v = true ↔ x.r.v = true ∨ ∃ i ∈ ks, sat80 ((x.r.acc.get i).toInt + f i) ≠ (x.r.acc.get i).toInt + f i := by
  induction ks generalizing x with
  | nil => simp [accumulated]
  | cons k ks ih =>
    obtain ⟨hnot, hk⟩ := List.nodup_cons.1 hk
    have hrest : ∀ i ∈ ks, (sqAcc x k ((x.r.acc.get k).toInt + f k)).r.acc.get i = x.r.acc.get i := fun i hi => by
      rw [sqAcc_eq]; exact vset_get_other _ _ _ _ fun h => hnot (h ▸ hi)
    have hv : (sqAcc x k ((x.r.acc.get k).toInt + f k)).r.v = true ↔ x.r.v = true ∨ sat80 ((x.r.acc.get k).toInt + f k) ≠ (x.r.acc.get k).toInt + f k := by
      rw [sqAcc_eq]; simp
    rw [accumulated_cons, ih hk, hv, or_assoc]
    simp only [List.mem_cons, exists_eq_or_imp]
    exact or_congr_right (or_congr_right (exists_congr fun i => and_congr_right fun hi => by rw [hrest i hi]))

/-- All four accumulators, where `f` is 0 outside `ks`. -/
theorem accumulated_adds (hk : ks.Nodup) (hf : ∀ i, i ∉ ks → f i = 0) :
    (∀ i, ((accumulated f ks x).r.acc.get i).toInt = sat80 ((x.r.acc.get i).toInt + f i)) ∧
      ((accumulated f ks x).r.v = true ↔ x.r.v = true ∨ ∃ i, sat80 ((x.r.acc.get i).toInt + f i) ≠ (x.r.acc.get i).toInt + f i) := by
  have hstands : ∀ i, i ∉ ks → sat80 ((x.r.acc.get i).toInt + f i) = (x.r.acc.get i).toInt + f i := fun i hi => by rw [hf i hi, add_zero]; exact sat80_of_toInt _
  refine ⟨fun i => ?_, ?_⟩
  · rw [accumulated_acc hk]
    split
    · exact sat80_toInt _
    · next hi => rw [hstands i hi, hf i hi, add_zero]
  · rw [accumulated_v hk]
    refine or_congr_right ⟨fun ⟨i, _, h⟩ => ⟨i, h⟩, fun ⟨i, h⟩ => ⟨i, not_not.1 fun hi => h (hstands i hi), h⟩⟩

end

/-- A word that a vector step reads. -/
def laneOf (x : Seq) (i : Fin 16) (k : Nat) : Int := (sqRead x (sqEa x.r i k)).toInt

/-- The end of a vector step: both address registers are post-modified. -/
def vmacPost (w : Nat) (x : Seq) : Except SqFault Seq := do
  let r ← sqPost x.r (sqFld w 22) (sqFld w 10) 1
  let r ← sqPost r (sqFld w 18) (sqFld w 6) 1
  return { x with r := r }

theorem sqAt_sqLoad {i : Fin 16} {n k : Nat} (h : k < n) : sqAt (sqLoad x i n) k = laneOf x i k := by
  simp [sqAt, sqLoad, laneOf, List.getD_eq_getElem?_getD, h]

/-- The lanes of a vector step are the four accumulators. -/
theorem lanes_accumulated (f : Nat → Int) : [0, 1, 2, 3].foldl (fun s k => sqAcc s (Fin.ofNat 4 k) ((s.r.acc.get (Fin.ofNat 4 k)).toInt + f k)) x =
    accumulated (fun i => f i) [0, 1, 2, 3] x := by
  have hks : [0, 1, 2, 3] = ([0, 1, 2, 3] : List (Fin 4)).map Fin.val := rfl
  rw [hks, List.foldl_map]
  simp only [Fin.ofNat_val_eq_self]
  rfl

theorem sqVmac_lanes (h0 : bits w 0 1 = 0) (hm : bits w 14 4 = 0) :
    sqVmac e w x = vmacPost w (accumulated (fun i => laneOf x (sqFld w 22) i * laneOf x (sqFld w 18) i) [0, 1, 2, 3] x) := by
  simp only [sqVmac, sqZeroX, h0, hm, if_true, except_ok_bind, lanes_accumulated, sqAt_sqLoad, Fin.is_lt]
  rfl

theorem sqVmac_scaled (h0 : bits w 0 1 = 0) (hm : bits w 14 4 = 1) :
    sqVmac e w x = vmacPost w (accumulated (fun i => laneOf x (sqFld w 22) i * laneOf x (sqFld w 18) 0) [0, 1, 2, 3] x) := by
  simp only [sqVmac, sqZeroX, h0, hm, if_true, except_ok_bind, lanes_accumulated, sqAt_sqLoad, Fin.is_lt, Nat.ofNat_pos]
  rfl

/-- The sum of the four products of a vector step. -/
def dotOf (x : Seq) (i j : Fin 16) : Int := laneOf x i 0 * laneOf x j 0 + laneOf x i 1 * laneOf x j 1 + laneOf x i 2 * laneOf x j 2 + laneOf x i 3 * laneOf x j 3

theorem sum_products (x : Seq) (i j : Fin 16) : ([0, 1, 2, 3].map fun k => sqAt (sqLoad x i 4) k * sqAt (sqLoad x j 4) k).sum = dotOf x i j := by
  have hsum : ([0, 1, 2, 3].map fun k => sqAt (sqLoad x i 4) k * sqAt (sqLoad x j 4) k).sum =
    laneOf x i 0 * laneOf x j 0 + (laneOf x i 1 * laneOf x j 1 + (laneOf x i 2 * laneOf x j 2 + (laneOf x i 3 * laneOf x j 3 + 0))) := rfl
  rw [hsum, dotOf]
  ring

theorem sqVmac_dot (h0 : bits w 0 1 = 0) (hm : bits w 14 4 = 2) :
    sqVmac e w x = vmacPost w (accumulated (fun i => if i = 0 then dotOf x (sqFld w 22) (sqFld w 18) else 0) [0] x) := by
  simp only [sqVmac, sqZeroX, h0, hm, if_true, except_ok_bind, sum_products]
  rfl

theorem sqVmac_reserved (h0 : bits w 0 1 = 0) (hne : bits w 14 4 ≠ 0) (hne1 : bits w 14 4 ≠ 1) (hne2 : bits w 14 4 ≠ 2) : sqVmac e w x = .error .illegal := by
  obtain ⟨k, hk⟩ := Nat.exists_eq_add_of_le' (show 3 ≤ bits w 14 4 by omega)
  simp [sqVmac, sqZeroX, h0, hk]

/-- The address registers do not enter into the sums. -/
theorem vmacPost_accumulated {r q : SqRegs} {f : Fin 4 → Int} {ks : List (Fin 4)} (hr : sqPost x.r (sqFld w 22) (sqFld w 10) 1 = .ok r) (hq : sqPost r (sqFld w 18) (sqFld w 6) 1 = .ok q) :
    vmacPost w (accumulated f ks x) = .ok { accumulated f ks x with r := { (accumulated f ks x).r with a := q.a } } := by
  have halike : AddressAlike x.r (accumulated f ks x).r := by rw [accumulated_only]; exact ⟨rfl, rfl, rfl, rfl, rfl⟩
  simp only [vmacPost, sqPost_alike halike hr, except_ok_bind, sqPost_alike (addressAlike_post halike hr) hq]
  rfl

/-! ### BFLY (R344) -/

/-- The two words of a complex number, by their number. -/
def pairOf (a b : Word) (k : Nat) : Word := if k = 0 then a else b

/-- A butterfly's sum as a word: scaled by the block shift, and saturated. -/
def bflyOut (x : Seq) (z : Int) : Word := word32 (shiftI z (-(31 + x.r.bsh.toNat)))

theorem bflyOut_eq (x : Seq) (z : Int) : bflyOut x z = BitVec.ofInt 32 (max (-2 ^ 31) (min (2 ^ 31 - 1) (z / 2 ^ (31 + x.r.bsh.toNat)))) := by
  have hshift : shiftI z (-(31 + x.r.bsh.toNat)) = z / 2 ^ (31 + x.r.bsh.toNat) := by
    unfold shiftI
    rw [if_neg (by omega), show (-(-(31 + (x.r.bsh.toNat : Int)))).toNat = 31 + x.r.bsh.toNat by omega]
  have hsat : ∀ v : Int, sat32 v = max (-2 ^ 31) (min (2 ^ 31 - 1) v) := fun v => by
    unfold sat32 satS
    norm_num
    omega
  unfold bflyOut word32
  rw [hshift, hsat]

/-- Real and imaginary part of the product of the twiddle factor and the second operand. -/
def bflyRe (x : Seq) (w : Nat) : Int := laneOf x (sqFld w 18) 0 * laneOf x (sqFld w 14) 0 - laneOf x (sqFld w 18) 1 * laneOf x (sqFld w 14) 1
def bflyIm (x : Seq) (w : Nat) : Int := laneOf x (sqFld w 18) 0 * laneOf x (sqFld w 14) 1 + laneOf x (sqFld w 18) 1 * laneOf x (sqFld w 14) 0

/-- The words that BFLY writes to its first and to its second operand. -/
def bflySum (x : Seq) (w : Nat) : Nat → Word :=
  pairOf (bflyOut x (laneOf x (sqFld w 22) 0 * 2 ^ 31 + bflyRe x w)) (bflyOut x (laneOf x (sqFld w 22) 1 * 2 ^ 31 + bflyIm x w))
def bflyDiff (x : Seq) (w : Nat) : Nat → Word :=
  pairOf (bflyOut x (laneOf x (sqFld w 22) 0 * 2 ^ 31 - bflyRe x w)) (bflyOut x (laneOf x (sqFld w 22) 1 * 2 ^ 31 - bflyIm x w))

/-- Local memory after a butterfly. -/
def bflyStored (x : Seq) (w : Nat) : Seq := storedVia (storedVia x (sqFld w 22) (bflySum x w) 2) (sqFld w 18) (bflyDiff x w) 2

/-- The end of a butterfly: its address registers are post-modified, BDET follows its words. -/
def bflyPost (w : Nat) (ws : List Word) (x : Seq) : Except SqFault Seq := do
  let r ← sqPost x.r (sqFld w 22) (sqFld w 10) 1
  let r ← sqPost r (sqFld w 18) (sqFld w 6) 1
  let r ← sqPost r (sqFld w 14) (sqFld w 2) 1
  return { x with r := sqDet (bit w 1) ws r }

/-- BFLY: its two stores and its end. -/
theorem sqBfly_eq (h0 : bits w 0 1 = 0) : sqBfly e w x =
    sqStore e x (sqFld w 22) ((List.range 2).map (bflySum x w)) >>= fun y => sqStore e y (sqFld w 18) ((List.range 2).map (bflyDiff x w)) >>=
      bflyPost w [bflySum x w 0, bflySum x w 1, bflyDiff x w 0, bflyDiff x w 1] := by
  simp only [sqBfly, sqZeroX, h0, if_true, except_ok_bind]
  rfl

/-- A butterfly outside the code area. -/
theorem sqBfly_stores {r1 r2 r3 : SqRegs} (h0 : bits w 0 1 = 0) (hd : ∀ k < 2, e.codeLen ≤ sqEa x.r (sqFld w 22) k) (ha : ∀ k < 2, e.codeLen ≤ sqEa x.r (sqFld w 18) k)
    (h1 : sqPost x.r (sqFld w 22) (sqFld w 10) 1 = .ok r1) (h2 : sqPost r1 (sqFld w 18) (sqFld w 6) 1 = .ok r2) (h3 : sqPost r2 (sqFld w 14) (sqFld w 2) 1 = .ok r3) :
    sqBfly e w x = .ok { x with r := sqDet (bit w 1) [bflySum x w 0, bflySum x w 1, bflyDiff x w 0, bflyDiff x w 1] r3, mem := (bflyStored x w).mem } := by
  have h1' : sqPost (bflyStored x w).r (sqFld w 22) (sqFld w 10) 1 = .ok r1 := h1
  rw [sqBfly_eq h0, sqStore_data hd, except_ok_bind, sqStore_data (x := storedVia x (sqFld w 22) (bflySum x w) 2) ha, except_ok_bind]
  show bflyPost w _ (bflyStored x w) = _
  simp only [bflyPost, h1', except_ok_bind, h2, h3]
  rfl

theorem sqBfly_code (h0 : bits w 0 1 = 0) (h : (∃ k < 2, sqEa x.r (sqFld w 22) k < e.codeLen) ∨ ∃ k < 2, sqEa x.r (sqFld w 18) k < e.codeLen) : sqBfly e w x = .error .codeWrite := by
  rw [sqBfly_eq h0]
  by_cases hd : ∃ k < 2, sqEa x.r (sqFld w 22) k < e.codeLen
  · rw [sqStore_code hd, except_error_bind]
  · have hd' : ∀ k < 2, e.codeLen ≤ sqEa x.r (sqFld w 22) k := fun k hk => Nat.not_lt.1 fun hlt => hd ⟨k, hk, hlt⟩
    rw [sqStore_data hd', except_ok_bind, sqStore_code (x := storedVia x (sqFld w 22) (bflySum x w) 2) (h.resolve_left hd), except_error_bind]

/-- The words at the four addresses of a butterfly, which differ, and every other word. -/
theorem bflyStored_read (hd : sqEa x.r (sqFld w 22) 0 ≠ sqEa x.r (sqFld w 22) 1) (ha : sqEa x.r (sqFld w 18) 0 ≠ sqEa x.r (sqFld w 18) 1)
    (hda : ∀ i j, i < 2 → j < 2 → sqEa x.r (sqFld w 22) i ≠ sqEa x.r (sqFld w 18) j) :
    (∀ k < 2, sqRead (bflyStored x w) (sqEa x.r (sqFld w 22) k) = bflySum x w k) ∧ (∀ k < 2, sqRead (bflyStored x w) (sqEa x.r (sqFld w 18) k) = bflyDiff x w k) ∧
      ∀ b, (∀ k < 2, sqEa x.r (sqFld w 22) k ≠ b) → (∀ k < 2, sqEa x.r (sqFld w 18) k ≠ b) → sqRead (bflyStored x w) b = sqRead x b := by
  obtain ⟨hsum, hsumOther⟩ := sqRead_storedVia (x := x) (i := sqFld w 22) (v := bflySum x w) (n := 2)
  obtain ⟨hdiff, hdiffOther⟩ := sqRead_storedVia (x := storedVia x (sqFld w 22) (bflySum x w) 2) (i := sqFld w 18) (v := bflyDiff x w) (n := 2)
  refine ⟨fun k hk => ?_, fun k hk => hdiff k hk fun l hkl hl => ?_, fun b hb hb' => (hdiffOther b hb').trans (hsumOther b hb)⟩
  · refine (hdiffOther _ fun j hj => (hda k j hk hj).symm).trans (hsum k hk fun l hkl hl => ?_)
    obtain ⟨rfl, rfl⟩ : k = 0 ∧ l = 1 := by omega
    exact hd.symm
  · obtain ⟨rfl, rfl⟩ : k = 0 ∧ l = 1 := by omega
    exact ha.symm

end

end Sys2Proof.Proofs
end

section
/-! The memory instructions of a tile sequencer at its program counter (R339, R363). -/

namespace Sys2Proof.Proofs

open Sys2Proof.Machine

section
variable {bd : Bool} {vs : List Word} {r : SqRegs} {x y : Seq} {d : Vector Word 16}

theorem sqDet_d : (sqDet bd vs r).d = r.d := by cases bd <;> rfl

/-- Registers that a load changes. -/
theorem sqDet_loaded (x : Seq) : { x with r := sqDet bd vs { r with d := d } } =
    { x with r := { r with d := (sqDet bd vs { r with d := d }).d, bdet := (sqDet bd vs { r with d := d }).bdet } } := by cases bd <;> rfl

/-- What a store changes. -/
theorem sqDet_stored (x : Seq) (m : Tab Word) : { x with r := sqDet bd vs r, mem := m } = { x with r := { r with bdet := (sqDet bd vs r).bdet }, mem := m } := by
  cases bd <;> rfl

end

/-- With a word `w` of opcode `op`, command `c` leaves on tile `t` a sequencer that advances by a word, and of which `P` holds. -/
def RunsTo (c : Instr) (t : Fin 8) (s : State) (op w : Nat) (P : Seq → Prop) : Prop :=
  AtWord s.b t op w → Gives c s fun u => ∃ y, u.b = (s.b.seqUpd t fun _ => sqAdvance 1 y) ∧ P y

/-! ### What vector steps and butterflies leave -/

section
variable {x : Seq} {w : Nat}

/-- The sums `f` of a vector step, V, and its address registers (R342). -/
def VmacLeaves (w : Nat) (f : Fin 4 → Int) (x y : Seq) : Prop :=
  (∀ i, (y.r.acc.get i).toInt = sat80 ((x.r.acc.get i).toInt + f i)) ∧ (y.r.v = true ↔ x.r.v = true ∨ ∃ i, sat80 ((x.r.acc.get i).toInt + f i) ≠ (x.r.acc.get i).toInt + f i) ∧
    ∀ r q, sqPost x.r (sqFld w 22) (sqFld w 10) 1 = .ok r → sqPost r (sqFld w 18) (sqFld w 6) 1 = .ok q →
      y = { x with r := { x.r with acc := y.r.acc, v := y.r.v, a := q.a }, sat := y.sat }

theorem vmacPost_leaves {f : Fin 4 → Int} {ks : List (Fin 4)} (hk : ks.Nodup) (hf : ∀ i, i ∉ ks → f i = 0) :
    ∃ y, vmacPost w (accumulated f ks x) = .ok y ∧ y.st = x.st ∧ VmacLeaves w f x y := by
  obtain ⟨r, hr⟩ := sqPost_offset x.r (sqFld w 22) (sqFld w 10)
  obtain ⟨q, hq⟩ := sqPost_offset r (sqFld w 18) (sqFld w 6)
  obtain ⟨hacc, hv⟩ := accumulated_adds (x := x) hk hf
  refine ⟨_, vmacPost_accumulated hr hq, ?_, hacc, hv, fun r' q' hr' hq' => ?_⟩
  · rw [accumulated_only]
  · obtain rfl : r = r' := Except.ok.inj (hr.symm.trans hr')
    obtain rfl : q = q' := Except.ok.inj (hq.symm.trans hq')
    rw [accumulated_only]

theorem forall_lt_two {P : Nat → Prop} (h0 : P 0) (h1 : P 1) : ∀ k < 2, P k
  | 0, _ => h0
  | 1, _ => h1

/-- The words of a butterfly at its four addresses, BDET, and its address registers (R344). -/
def BflyLeaves (w : Nat) (x y : Seq) : Prop :=
  sqRead y (sqEa x.r (sqFld w 22) 0) = bflySum x w 0 ∧ sqRead y (sqEa x.r (sqFld w 22) 1) = bflySum x w 1 ∧
    sqRead y (sqEa x.r (sqFld w 18) 0) = bflyDiff x w 0 ∧ sqRead y (sqEa x.r (sqFld w 18) 1) = bflyDiff x w 1 ∧
    (∀ b, b ≠ sqEa x.r (sqFld w 22) 0 → b ≠ sqEa x.r (sqFld w 22) 1 → b ≠ sqEa x.r (sqFld w 18) 0 → b ≠ sqEa x.r (sqFld w 18) 1 → sqRead y b = sqRead x b) ∧
    DetIs (bit w 1) [bflySum x w 0, bflySum x w 1, bflyDiff x w 0, bflyDiff x w 1] x.r y.r ∧
    ∀ r1 r2 r3, sqPost x.r (sqFld w 22) (sqFld w 10) 1 = .ok r1 → sqPost r1 (sqFld w 18) (sqFld w 6) 1 = .ok r2 → sqPost r2 (sqFld w 14) (sqFld w 2) 1 = .ok r3 →
      y = { x with r := { r3 with bdet := y.r.bdet }, mem := y.mem }

theorem sqBfly_leaves {e : SqEnv} (h0 : bits w 0 1 = 0) (hcd : ∀ k < 2, e.codeLen ≤ sqEa x.r (sqFld w 22) k) (hca : ∀ k < 2, e.codeLen ≤ sqEa x.r (sqFld w 18) k)
    (hd : sqEa x.r (sqFld w 22) 0 ≠ sqEa x.r (sqFld w 22) 1) (ha : sqEa x.r (sqFld w 18) 0 ≠ sqEa x.r (sqFld w 18) 1)
    (hda : ∀ i j, i < 2 → j < 2 → sqEa x.r (sqFld w 22) i ≠ sqEa x.r (sqFld w 18) j) : ∃ y, sqBfly e w x = .ok y ∧ y.st = x.st ∧ BflyLeaves w x y := by
  obtain ⟨r1, h1⟩ := sqPost_offset x.r (sqFld w 22) (sqFld w 10)
  obtain ⟨r2, h2⟩ := sqPost_offset r1 (sqFld w 18) (sqFld w 6)
  obtain ⟨r3, h3⟩ := sqPost_offset r2 (sqFld w 14) (sqFld w 2)
  obtain ⟨hsum, hdiff, hother⟩ := bflyStored_read hd ha hda
  have hbdet : r3.bdet = x.r.bdet := (sqPost_bdet h3).trans ((sqPost_bdet h2).trans (sqPost_bdet h1))
  refine ⟨_, sqBfly_stores h0 hcd hca h1 h2 h3, rfl, hsum 0 (by decide), hsum 1 (by decide), hdiff 0 (by decide), hdiff 1 (by decide),
    fun b hb0 hb1 hb2 hb3 => hother b (forall_lt_two hb0.symm hb1.symm) (forall_lt_two hb2.symm hb3.symm), sqDet_is _ _ hbdet, fun r1' r2' r3' h1' h2' h3' => ?_⟩
  obtain rfl : r1 = r1' := Except.ok.inj (h1.symm.trans h1')
  obtain rfl : r2 = r2' := Except.ok.inj (h2.symm.trans h2')
  obtain rfl : r3 = r3' := Except.ok.inj (h3.symm.trans h3')
  exact sqDet_stored _ _

end

/-! ### The instructions at the program counter -/

section
variable {c : Instr} {t : Fin 8} {s : State} {op w : Nat} {f : SqEnv → Nat → Seq → Except SqFault Seq} {y : Seq} {P : Seq → Prop}

theorem gives_run (hc : exec c s = onTile t (fun now => seqDo now t fun e => sqRun e op 1 f) s) (hl : tileLive s.b t = true)
    (hf : f (sqEnv s.b s.clk.lattice t) w (s.b.seqAt t) = .ok y) (hst : y.st = .fault → (s.b.seqAt t).st = .fault) (hP : P y) : RunsTo c t s op w P :=
  fun hw => gives_of_turns (turns_run hc hl hf hst hw) ⟨y, rfl, hP⟩

end

section
variable {t : Fin 8} {s : State} {w : Nat} {y : Seq} (hl : tileLive s.b t = true)
include hl

theorem mova_runs {v : Word} (h0 : bits w 0 8 = 0) (hv : ClassHolds (s.b.seqAt t) (bits w 8 3) (sqFld w 18) v)
    (h : sqClassWrite (s.b.seqAt t) (bits w 11 3) (sqFld w 22) v = .ok y) (hst : y.st = (s.b.seqAt t).st) : RunsTo (.mova t) t s 0x06 w fun y' => y' = y :=
  gives_run (exec_mova t s) hl ((sqMova_moves h0 hv).trans h) (fun hf => hst.symm.trans hf) rfl

theorem vmac_runs {f : Fin 4 → Int} {ks : List (Fin 4)} (hk : ks.Nodup) (hf : ∀ i, i ∉ ks → f i = 0)
    (h : sqVmac (sqEnv s.b s.clk.lattice t) w (s.b.seqAt t) = vmacPost w (accumulated f ks (s.b.seqAt t))) : RunsTo (.vmac t) t s 0x13 w (VmacLeaves w f (s.b.seqAt t)) := by
  obtain ⟨y, hy, hst, hleaves⟩ := vmacPost_leaves hk hf
  exact gives_run (exec_vmac t s) hl (h.trans hy) (fun hf => hst.symm.trans hf) hleaves

end

/-- Settles O30: each instruction by the effect of its word and by its faults. -/
theorem sequencerMemory : Obligations.SequencerMemory := by
  intro t s x w hl hx
  subst hx
  refine ⟨?_, fun r hm hr => ⟨fun hd => ?_, fun hd hcode => ?_, fun hd hcode => faults_run (exec_st t s) hl (sqSt_code hm hd hcode),
    fun hd => ⟨faults_run (exec_ld t s) hl (sqLd_group hm hd), faults_run (exec_st t s) hl (sqSt_group hm hd)⟩,
    gives_run (exec_aadd t s) hl (sqAadd_adds hm hr) id rfl, ?_, fun hcode => ?_, fun hcode => faults_run (exec_mbsnap t s) hl (sqMbsnap_code hm hcode), ?_⟩,
    fun h0 hsz ham ham' => ⟨fun hcode r q hr hq => ?_, fun hcode => faults_run (exec_mvm t s) hl (sqMvm_code ⟨h0, hsz, ham, ham'⟩ hcode)⟩,
    fun h => faults_run (exec_mvm t s) hl (sqMvm_illegal h), fun h0 => faults_run (exec_mova t s) hl (by simp [sqMova, sqZeroR, h0]), fun h0 => ?_,
    fun h0 => ⟨faults_run (exec_vmac t s) hl (by simp [sqVmac, sqZeroX, h0]), faults_run (exec_bfly t s) hl (by simp [sqBfly, sqZeroX, h0])⟩, fun h0 => ?_, fun h0 => ?_⟩
  · simp only [List.forall_mem_cons]
    have hno : ∀ {m}, ¬LegalM w → sqChkM w >>= m = (.error .illegal : Except SqFault Seq) := fun hm => by rw [sqChkM_illegal hm, except_error_bind]
    exact ⟨fun hm => faults_run (exec_ld t s) hl (hno hm), fun hm => faults_run (exec_st t s) hl (hno hm), fun hm => faults_run (exec_aadd t s) hl (hno hm),
      fun hm => faults_run (exec_srch t s) hl (hno hm), fun hm => faults_run (exec_mbsnap t s) hl (hno hm), fun hm => faults_run (exec_xfer t s) hl (hno hm),
      fun _ h => absurd h List.not_mem_nil⟩
  · refine gives_run (exec_ld t s) hl (sqLd_loads hm hd hr) id ⟨fun i => ?_, sqDet_is _ _ (show r.bdet = _ from sqPost_bdet hr), sqDet_loaded _⟩
    rw [sqDet_d]
    exact loadedInto_get hd i
  · exact gives_run (exec_st t s) hl (sqSt_stores hm hd hr hcode) id ⟨sqRead_storedVia, sqDet_is _ _ (sqPost_bdet hr), sqDet_stored _ _⟩
  · exact ⟨fun hc h => gives_run (exec_srch t s) hl (sqSrch_takes hm hr hc (offers_max _ _) h) id rfl,
      fun hc h => gives_run (exec_srch t s) hl (sqSrch_takes hm hr hc (offers_min _ _) h) id rfl,
      fun hc h => gives_run (exec_srch t s) hl (sqSrch_takes hm hr hc (offers_abs _ _) h) id rfl,
      fun hc h hi => gives_run (exec_srch t s) hl (sqSrch_keeps hm hr hc (offers_max _ _) (Int.not_lt.2 h) hi) id rfl,
      fun hc h hi => gives_run (exec_srch t s) hl (sqSrch_keeps hm hr hc (offers_min _ _) (Int.not_lt.2 h) hi) id rfl,
      fun hc h hi => gives_run (exec_srch t s) hl (sqSrch_keeps hm hr hc (offers_abs _ _) (Int.not_lt.2 h) hi) id rfl,
      fun hc => faults_run (exec_srch t s) hl (sqSrch_reserved hm hc)⟩
  · exact gives_run (exec_mbsnap t s) hl (sqMbsnap_stores hm hr hcode) id
      ⟨sqRead_storedVia (v := fun k => (s.b.seqAt t).mb.inW.get (Fin.ofNat 16 k)) (n := 16), sqDet_is _ _ (sqPost_bdet hr), sqDet_stored _ _⟩
  · exact ⟨fun hb he => gives_run (exec_xfer t s) hl (sqXfer_starts hm hr hb he) id rfl, fun hb he => gives_run (exec_xfer t s) hl (sqXfer_fails hm hr hb he) sqEvent_fault rfl,
      fun hb => gives_run (exec_xfer t s) hl (sqXfer_busy hm hr hb) sqEvent_fault rfl⟩
  · have hbdet : q.bdet = (s.b.seqAt t).r.bdet := (sqPost_bdet hq).trans (sqPost_bdet hr)
    exact gives_run (exec_mvm t s) hl (sqMvm_moves ⟨h0, hsz, ham, ham'⟩ hcode hr hq) id ⟨sqRead_storedVia, sqDet_is _ _ hbdet, sqDet_stored _ _⟩
  · intro i8 from_ lo v hv
    exact ⟨fun hc => mova_runs hl h0 hv (by rw [hc]; rfl) rfl, fun hc => mova_runs hl h0 hv (by rw [hc]; rfl) rfl, fun hc => mova_runs hl h0 hv (by rw [hc]; rfl) rfl,
      fun hc hd => mova_runs hl h0 hv (by rw [hc]; exact if_pos hd) rfl, fun hc hd => mova_runs hl h0 hv (by rw [hc]; exact if_pos hd) rfl,
      fun hc hd => mova_runs hl h0 hv (by simp [sqClassWrite, hc, hd, lo]) rfl, fun hc hd => mova_runs hl h0 hv (by simp [sqClassWrite, hc, hd]) rfl,
      fun hc hd hsh => mova_runs hl h0 hv (by simp [sqClassWrite, hc, hd, hsh]) rfl, fun hc hd => mova_runs hl h0 hv (by simp [sqClassWrite, hc, hd]) rfl,
      fun hc hd => mova_runs hl h0 hv (by simp [sqClassWrite, hc, hd, lo]) rfl, fun h => faults_run (exec_mova t s) hl ((sqMova_moves h0 hv).trans (sqClassWrite_illegal h))⟩
  · have hall : ∀ (f : Fin 4 → Int) (i : Fin 4), i ∉ [0, 1, 2, 3] → f i = 0 := fun f i hi => absurd (by fin_cases i <;> simp) hi
    exact ⟨fun hm => vmac_runs hl (by decide) (hall _) (sqVmac_lanes h0 hm), fun hm => vmac_runs hl (by decide) (hall _) (sqVmac_scaled h0 hm),
      fun hm => vmac_runs hl (by decide) (fun i hi => if_neg (by simpa using hi)) (sqVmac_dot h0 hm), fun hne hne1 hne2 => faults_run (exec_vmac t s) hl (sqVmac_reserved h0 hne hne1 hne2)⟩
  · intro p q v out pr pi
    refine ⟨fun hd0 hd1 ha0 ha1 hd ha hda => ?_, fun hcode => faults_run (exec_bfly t s) hl (sqBfly_code h0 ?_)⟩
    · obtain ⟨y, hy, hst, hleaves⟩ := sqBfly_leaves (e := sqEnv s.b s.clk.lattice t) h0 (forall_lt_two hd0 hd1) (forall_lt_two ha0 ha1) hd ha hda
      have hout : ∀ z, out z = bflyOut (s.b.seqAt t) z := fun z => (bflyOut_eq _ z).symm
      rw [hout, hout, hout, hout]
      exact gives_run (exec_bfly t s) hl hy (fun hf => hst.symm.trans hf) hleaves
    · rcases hcode with h | h | h | h
      · exact .inl ⟨0, by decide, h⟩
      · exact .inl ⟨1, by decide, h⟩
      · exact .inr ⟨0, by decide, h⟩
      · exact .inr ⟨1, by decide, h⟩

end Sys2Proof.Proofs
end

section
/-! Acquisition units: updates of one unit, the ends of a block and of a record (R371, R381 to R383, R385), the row due at a sample instant (R365). -/

namespace Sys2Proof.Proofs

open Sys2Proof.Machine

/-! ### Updates of one unit -/

theorem aqUpd_value (b : Block) (t : Nat) (f : Aq → Aq) : b.aqUpd t f = b.aqUpd t fun _ => f (b.aqAt t) := aqUpd_congr _ _ _ _ rfl

theorem aqAt_of_aq {b c : Block} (h : c.aq = b.aq) (i : Nat) : c.aqAt i = b.aqAt i := by unfold Block.aqAt; rw [h]

theorem tabSet_again {α : Type} [DecidableEq α] (d : α) (l : Tab α) (i : Nat) (v : α) : tabSet d (tabSet d l i v) i v = tabSet d l i v := by
  by_cases hv : v = d
  · simp [tabSet, hv, tabErase]
  · exact tabSet_set d l i v v hv hv

theorem aqUpd_again (b : Block) (t : Nat) (y : Aq) : ((b.aqUpd t fun _ => y).aqUpd t fun _ => y) = b.aqUpd t fun _ => y :=
  congrArg (fun a => { b with aq := a }) (tabSet_again {} b.aq t y)

/-! ### The end of a block, of a record and of an acquisition -/

section
variable {s now : Nat} {u : Aq} {b : AqBlk}

theorem aqClose_fill {part final : Bool} (h : u.fill = some b) :
    aqClose part final u = { u with fill := none, q := u.q ++ [.block { b with part := part, final := final }] } := by simp only [aqClose, h]

theorem aqMark_some {i : Nat} {tr : AqTrig} (h : u.trig = some tr) :
    aqMark s i u = { u with trig := some { tr with row := some (s, i), pre := min i (aqPre u) }, shortPre := decide (i < aqPre u) } := by
  simp only [aqMark, h]

theorem aqComplete_fill (h : u.fill = some b) : aqComplete s u =
    { u with st := .rearming, hist := ((s, AqSt.rearming) :: u.hist).take 8, sc := s, fill := none
             q := u.q ++ [.block { b with part := decide (b.rows.length < aqRowsPer u), final := true }, .desc 2] } := by
  simp [aqComplete, h, aqClose_fill h, aqGo]

/-- A complete record changes the state, the block in fill, the queue and the completion tick, and nothing else (R383). -/
theorem aqComplete_frame (s : Nat) (u : Aq) : ∃ st hist sc fill q, aqComplete s u = { u with st := st, hist := hist, sc := sc, fill := fill, q := q } := by
  cases h : u.fill with
  | some b => exact ⟨_, _, _, _, _, aqComplete_fill h⟩
  | none => exact ⟨_, _, _, _, _, by simp only [aqComplete, aqGo, h]; rfl⟩

end

end Sys2Proof.Proofs
end

section
/-! Firings at the hub and set triggers (R380, R381). -/

namespace Sys2Proof.Proofs

open Sys2Proof.Machine

/-! ### Firings at the hub -/

section
variable {h : AqHub} {f g : Nat × Nat}

/-- A firing at tick `n` belongs to the event of the last set trigger (R380). -/
def SameEvent (h : AqHub) (n : Nat) : Prop := ∃ l, h.last = some l ∧ n < l + 1000

/-- Of two firings the one that is held: the earlier tick, then the lower source (R380). -/
def FiresFirst (f g : Nat × Nat) : Prop := f.1 < g.1 ∨ (f.1 = g.1 ∧ f.2 < g.2)

theorem aqFire_same (hs : SameEvent h f.1) : aqFire f h = h := by
  obtain ⟨l, hl, hlt⟩ := hs
  simp [aqFire, hl, hlt]

theorem aqFire_other (hs : ¬SameEvent h f.1) :
    aqFire f h = match h.held with
      | none => { h with held := some f }
      | some g => if f.1 < g.1 ∨ (f.1 = g.1 ∧ f.2 < g.2) then { h with held := some f } else h := by
  refine if_neg fun hc => hs ?_
  cases hl : h.last with
  | none => simp [hl] at hc
  | some l => exact ⟨l, hl, by simpa [hl] using hc⟩

theorem aqFire_alone (hs : ¬SameEvent h f.1) (hh : h.held = none) : aqFire f h = { h with held := some f } := by rw [aqFire_other hs, hh]

theorem aqFire_first (hs : ¬SameEvent h f.1) (hh : h.held = some g) (hf : FiresFirst f g) : aqFire f h = { h with held := some f } := by
  rw [aqFire_other hs, hh]; exact if_pos hf

theorem aqFire_later (hs : ¬SameEvent h f.1) (hh : h.held = some g) (hf : ¬FiresFirst f g) : aqFire f h = h := by
  rw [aqFire_other hs, hh]; exact if_neg hf

/-! ### Sending the set trigger -/

variable {now a n : Nat}

theorem aqSend_due (hh : h.held = some (a, n)) (hd : a + 1000 ≤ now) :
    aqSend now h = { h with held := none, last := some a, src := n, count := min 65535 (h.count + 1)
                            trigs := h.trigs ++ ((List.range 8).filter fun k => bit h.set k).map fun k => (k, a, n) } := by
  simp only [aqSend, hh, if_pos hd, satAdd]

theorem aqSend_waits (hh : h.held = none ∨ ∃ a n, h.held = some (a, n) ∧ now < a + 1000) : aqSend now h = h := by
  obtain hh | ⟨a, n, hh, hd⟩ := hh
  · simp only [aqSend, hh]
  · simp only [aqSend, hh, if_neg (Nat.not_le.2 hd)]

end

/-! ### A set trigger at a tile -/

section
variable {now t src : Nat} {u : Aq}

theorem aqTrigger_missed (hst : aqStAt u t = .rearming) : aqTrigger now t src u = { u with missed := min 65535 (u.missed + 1) } := by
  simp only [aqTrigger, hst, if_true, satAdd, ite_self]

theorem aqTrigger_idle (hst : aqStAt u t = .idle ∨ aqStAt u t = .stopping ∨ aqStAt u t = .triggered ∨ t < u.armAt ∧ aqStAt u t ≠ .rearming) :
    aqTrigger now t src u = u := by
  by_cases ht : t < u.armAt
  · have hne : aqStAt u t ≠ .rearming := by rcases hst with h | h | h | ⟨-, h⟩ <;> simp [h]
    simp only [aqTrigger, if_pos ht, if_neg hne]
  · rcases hst with h | h | h | ⟨h, -⟩
    · simp only [aqTrigger, if_neg ht, h]
    · simp only [aqTrigger, if_neg ht, h]
    · simp only [aqTrigger, if_neg ht, h]
    · exact absurd h ht

theorem aqTrigger_again (ha : u.armAt ≤ t) (hst : aqStAt u t = .armed) (ht : u.trig ≠ none) : aqTrigger now t src u = u := by
  simp only [aqTrigger, if_neg (Nat.not_lt.2 ha), hst, if_pos (Option.isSome_iff_ne_none.2 ht)]

/-- The unit with its trigger started, before any stored row is looked at (R381). -/
def aqStarted (t src : Nat) (u : Aq) : Aq :=
  let v := { u with trig := some { t := t, src := src }, trigTick := t }
  if u.st = .armed then { v with st := .triggered, hist := ((t, AqSt.triggered) :: u.hist).take 8 } else v

/-- The local blocks: the one in fill, then those that are queued (R371). -/
def aqBlocks (u : Aq) : List AqBlk :=
  u.fill.toList ++ u.q.filterMap fun w => match w with
    | .block b => some b
    | .desc _ => none

/-- The rows of the local blocks at or after a tick. -/
def aqSince (t : Nat) (u : Aq) : Nat := ((aqBlocks u).map fun b => (b.rows.filter fun r => decide (t ≤ r.1)).length).sum

theorem mem_aqBlocks {b : AqBlk} : b ∈ aqBlocks u ↔ u.fill = some b ∨ AqWrite.block b ∈ u.q := by
  simp only [aqBlocks, List.mem_append, Option.mem_toList, List.mem_filterMap]
  refine or_congr Iff.rfl ⟨?_, fun h => ⟨_, h, rfl⟩⟩
  rintro ⟨w, hw, hb⟩
  cases w with
  | block c => exact Option.some.inj hb ▸ hw
  | desc n => cases hb

theorem aqSince_none (h : ∀ b ∈ aqBlocks u, ∀ w ∈ b.rows, w.1 < t) : aqSince t u = 0 := by
  refine List.sum_eq_zero fun n hn => ?_
  obtain ⟨b, hb, rfl⟩ := List.mem_map.1 hn
  rw [List.length_eq_zero_iff, List.filter_eq_nil_iff]
  exact fun w hw => by simpa using h b hb w hw

/-- What the trigger of a record leaves: the trigger with its tick and source, and the stored rows. -/
def Started (t src stored : Nat) (y : Aq) : Prop := y.trigTick = t ∧ y.trig.map (fun g => (g.t, g.src)) = some (t, src) ∧ y.stored = stored

theorem started_aqStarted (t src : Nat) (u : Aq) : Started t src u.stored (aqStarted t src u) := by
  unfold aqStarted; dsimp only; split <;> exact ⟨rfl, rfl, rfl⟩

theorem started_aqMark {stored s i : Nat} (h : Started t src stored u) : Started t src stored (aqMark s i u) := by
  obtain ⟨htick, htrig, hstored⟩ := h
  obtain ⟨tr, htr, hval⟩ := Option.map_eq_some_iff.1 htrig
  rw [aqMark_some htr]
  exact ⟨htick, congrArg some hval, hstored⟩

theorem started_aqComplete {stored s : Nat} (h : Started t src stored u) : Started t src stored (aqComplete s u) := by
  obtain ⟨st, hist, sc, fill, q, hc⟩ := aqComplete_frame s u
  rw [hc]; exact h

theorem aqSince_started (t src : Nat) (u : Aq) : aqSince t (aqStarted t src u) = aqSince t u := by unfold aqStarted; dsimp only; split <;> rfl

theorem aqTrigger_quiet (ha : u.armAt ≤ t) (hst : aqStAt u t = .armed) (ht : u.trig = none) (h0 : aqSince t u = 0) :
    aqTrigger now t src u = aqStarted t src u := by
  simp only [aqTrigger, if_neg (Nat.not_lt.2 ha), hst, ht, Option.isSome_none, Bool.false_eq_true, if_false]
  exact if_pos ((aqSince_started t src u).trans h0)

/-- With rows stored at or after the tick, one of them is marked, and the record may be complete with it. -/
theorem aqTrigger_marks (ha : u.armAt ≤ t) (hst : aqStAt u t = .armed) (ht : u.trig = none) (h0 : aqSince t u ≠ 0) :
    ∃ s i fill q, let v := aqMark s i { aqStarted t src u with fill := fill, q := q }
      aqTrigger now t src u = if v.st = .triggered && decide (aqPost v ≤ aqPostNow v) then aqComplete s v else v := by
  simp only [aqTrigger, if_neg (Nat.not_lt.2 ha), hst, ht, Option.isSome_none, Bool.false_eq_true, if_false]
  exact ⟨_, _, _, _, if_neg ((aqSince_started t src u).trans_ne h0)⟩

theorem started_aqTrigger (ha : u.armAt ≤ t) (hst : aqStAt u t = .armed) (ht : u.trig = none) : Started t src u.stored (aqTrigger now t src u) := by
  by_cases h0 : aqSince t u = 0
  · rw [aqTrigger_quiet ha hst ht h0]; exact started_aqStarted t src u
  · obtain ⟨s, i, fill, q, h⟩ := aqTrigger_marks (now := now) ha hst ht h0
    have hmark : Started t src u.stored (aqMark s i { aqStarted t src u with fill := fill, q := q }) := started_aqMark (started_aqStarted t src u)
    rw [h]; split
    · exact started_aqComplete hmark
    · exact hmark

theorem aqTrigAt_some {a n : Nat} {b : Block} (h : b.aqHub.trigs.find? (fun f => decide (f.1 = t)) = some (t, a, n)) :
    aqTrigAt now t b = { b with aqHub := { b.aqHub with trigs := b.aqHub.trigs.erase (t, a, n) } }.aqUpd t fun _ => aqTrigger now a n (b.aqAt t) := by
  simp only [aqTrigAt, h]
  exact aqUpd_value _ _ _

theorem aqTrigAt_none {b : Block} (h : b.aqHub.trigs.find? (fun f => decide (f.1 = t)) = none) : aqTrigAt now t b = b := by simp only [aqTrigAt, h]

theorem aqFireAtHub_some {f : Nat × Nat} {b : Block} (h : b.aqHub.fires.find? (fun f => decide (f.2 = t)) = some f) :
    aqFireAtHub t b = { b with aqHub := aqFire f { b.aqHub with fires := b.aqHub.fires.erase f } } := by simp only [aqFireAtHub, h]

theorem aqFireAtHub_none {b : Block} (h : b.aqHub.fires.find? (fun f => decide (f.2 = t)) = none) : aqFireAtHub t b = b := by simp only [aqFireAtHub, h]

end

/-- Settles O35: a firing by its event and by the one held, a set trigger at a tile by the state of the unit at its tick. -/
theorem setTriggers : Obligations.SetTriggers := by
  intro s h hon hh
  subst hh
  have force : ∀ {g}, aqFire (s.clk.lattice, 8) s.b.aqHub = g → Turns .aqForce s { s.b with aqHub := g } :=
    fun hg => turns_onRun (exec_aqForce s) hon (congrArg (fun g => { s.b with aqHub := g }) hg)
  have send : ∀ {g}, aqSend s.clk.lattice s.b.aqHub = g → Turns .setTriggerSend s { s.b with aqHub := g } :=
    fun hg => turns_onRun (exec_setTriggerSend s) hon (congrArg (fun g => { s.b with aqHub := g }) hg)
  refine ⟨fun hs => force (aqFire_same hs), fun hs hn => force (aqFire_alone hs hn), fun g hs hg hf => force (aqFire_first hs hg hf),
    fun g hs hg hf => force (aqFire_later hs hg hf), fun t f hf => ?_, fun t hf => turns_onRun (exec_firingAtHub t s) hon (aqFireAtHub_none hf),
    fun a n ha hd => send (aqSend_due ha hd), fun hw => send (aqSend_waits hw), fun t x a n hl hx hf => ?_,
    fun t hl hf => turns_onTile (exec_setTriggerReceived t s) hl (aqTrigAt_none hf)⟩
  · have fires : ∀ {g}, aqFire f { s.b.aqHub with fires := s.b.aqHub.fires.erase f } = g → Turns (.firingAtHub t) s { s.b with aqHub := g } :=
      fun hg => turns_onRun (exec_firingAtHub t s) hon ((aqFireAtHub_some hf).trans (congrArg (fun g => { s.b with aqHub := g }) hg))
    exact ⟨fun hs => fires (aqFire_same hs), fun hs hn => fires (aqFire_alone hs hn), fun g hs hg hb => fires (aqFire_first hs hg hb),
      fun g hs hg hb => fires (aqFire_later hs hg hb)⟩
  · subst hx
    have unit : ∀ {y}, aqTrigger s.clk.lattice a n (s.b.aqAt t) = y →
        Turns (.setTriggerReceived t) s ({ s.b with aqHub := { s.b.aqHub with trigs := s.b.aqHub.trigs.erase (t.val, a, n) } }.aqUpd t fun _ => y) :=
      fun hy => turns_onTile (exec_setTriggerReceived t s) hl ((aqTrigAt_some hf).trans (by rw [hy]))
    refine ⟨fun ha hst ht => ?_, fun ha hst ht harm hfill hq => unit ?_, fun ha hst ht => unit (aqTrigger_again ha hst ht), fun hst => unit (aqTrigger_missed hst),
      fun hst => unit (aqTrigger_idle hst)⟩
    · obtain ⟨htick, htrig, hstored⟩ : Started a n (s.b.aqAt t).stored (aqTrigger s.clk.lattice a n (s.b.aqAt t)) := started_aqTrigger ha hst ht
      refine gives_onTile (exec_setTriggerReceived t s) hl ?_
      dsimp only
      rw [aqTrigAt_some hf]
      refine ⟨rfl, ?_, ?_, ?_, fun i hi => aqAt_aqUpd_ne _ _ _ _ hi, rfl⟩
      · rw [aqAt_aqUpd]; exact htick
      · rw [aqAt_aqUpd]; exact htrig
      · rw [aqAt_aqUpd]; exact hstored
    · have hrows : ∀ b ∈ aqBlocks (s.b.aqAt t), ∀ w ∈ b.rows, w.1 < a := fun b hb => (mem_aqBlocks.1 hb).elim (hfill b) (hq b)
      rw [aqTrigger_quiet ha hst ht (aqSince_none hrows)]
      exact if_pos harm

end Sys2Proof.Proofs
end

section
/-! The row due at a sample instant: which instants a unit takes, what a row changes of the module (R365, R380). -/

namespace Sys2Proof.Proofs

open Sys2Proof.Machine

section
variable {now s t : Nat} {row : List Word} {u y : Aq} {b : Block}

/-! ### One unit at an instant of its group -/

/-- The unit with an instant of its group counted. -/
def aqCounted (s : Nat) (u : Aq) : Aq := { u with smp := u.smp + 1, lastAt := some s }

theorem aqSampleAt_ignores (h : u.st = .idle ∨ u.st = .stopping ∨ ¬(u.armAt ≤ s ∧ u.lastAt ≠ some s)) : aqSampleAt s row u = (u, none) := by
  refine if_pos ?_
  simp only [Bool.or_eq_true, decide_eq_true_eq, or_assoc]
  refine h.imp_right (Or.imp_right fun hin => ?_)
  rcases not_and_or.1 hin with h | h
  · exact .inl (Nat.not_le.1 h)
  · exact .inr (not_ne_iff.1 h)

theorem aqSampleAt_counts (hst : u.st ≠ .idle ∧ u.st ≠ .stopping) (hin : u.armAt ≤ s ∧ u.lastAt ≠ some s) :
    aqSampleAt s row u =
      if u.smp % max 1 (aqDiv u) = 0 ∧ (u.st = .armed ∨ u.st = .triggered) then aqRow s row (aqCounted s u) else (aqCounted s u, none) := by
  refine (if_neg (by simp [hst, hin])).trans ?_
  simp only [Bool.and_eq_true, Bool.or_eq_true, decide_eq_true_eq]
  rfl

/-! ### The module -/

theorem aqRowAt_other (h : isSample b now t (aqGrp (b.aqAt t)) = false) : aqRowAt now t b = b := if_neg (by simp [h])

theorem aqRowAt_quiet (h : isSample b now t (aqGrp (b.aqAt t)) = true) (hy : aqSampleAt now (aqRowOf b now t) (b.aqAt t) = (y, none)) :
    aqRowAt now t b = b.aqUpd t fun _ => y := by
  simp only [aqRowAt, h, hy, if_true]

theorem aqRowAt_fires {f : Nat} (h : isSample b now t (aqGrp (b.aqAt t)) = true) (hy : aqSampleAt now (aqRowOf b now t) (b.aqAt t) = (y, some f)) :
    aqRowAt now t b = { b.aqUpd t fun _ => y with
      aqHub := { b.aqHub with fires := if bit b.aqHub.set t then b.aqHub.fires ++ [(f, t)] else b.aqHub.fires } } := by
  simp only [aqRowAt, h, hy, if_true, Block.aqUpd]
  split <;> rfl

theorem aqAt_aqRowAt (h : isSample b now t (aqGrp (b.aqAt t)) = true) {f : Option Nat} (hy : aqSampleAt now (aqRowOf b now t) (b.aqAt t) = (y, f)) :
    (aqRowAt now t b).aqAt t = y := by
  cases f with
  | none => rw [aqRowAt_quiet h hy]; exact aqAt_aqUpd b t fun _ => y
  | some f => rw [aqRowAt_fires h hy]; exact (aqAt_of_aq rfl t).trans (aqAt_aqUpd b t fun _ => y)

/-- A row changes its own unit and the firings on their way to the hub (R365, R380). -/
theorem aqRowAt_frame (now t : Nat) (b : Block) :
    (∃ aq fires, aqRowAt now t b = { b with aq := aq, aqHub := { b.aqHub with fires := fires } }) ∧ ∀ i, i ≠ t → (aqRowAt now t b).aqAt i = b.aqAt i := by
  cases hs : isSample b now t (aqGrp (b.aqAt t)) with
  | false => rw [aqRowAt_other hs]; exact ⟨⟨_, _, rfl⟩, fun _ _ => rfl⟩
  | true =>
    rcases hy : aqSampleAt now (aqRowOf b now t) (b.aqAt t) with ⟨y, _ | f⟩
    · rw [aqRowAt_quiet hs hy]; exact ⟨⟨_, _, rfl⟩, fun i hi => aqAt_aqUpd_ne _ _ _ _ hi⟩
    · rw [aqRowAt_fires hs hy]; exact ⟨⟨_, _, rfl⟩, fun i hi => aqAt_aqUpd_ne b t i (fun _ => y) hi⟩

/-- A unit that stands idle takes no row (R365). -/
theorem aqRowAt_idle (h : y.st = .idle) : aqRowAt now t (b.aqUpd t fun _ => y) = b.aqUpd t fun _ => y := by
  have hu : (b.aqUpd t fun _ => y).aqAt t = y := aqAt_aqUpd _ _ _
  cases hs : isSample (b.aqUpd t fun _ => y) now t (aqGrp ((b.aqUpd t fun _ => y).aqAt t)) with
  | false => exact aqRowAt_other hs
  | true => exact (aqRowAt_quiet hs (aqSampleAt_ignores (.inl (by rw [hu]; exact h)))).trans (by rw [hu]; exact aqUpd_again b t y)

end

end Sys2Proof.Proofs
end

section
/-! Arming, stopping, re-arming and releasing of acquisition units (R378 to R386). -/

namespace Sys2Proof.Proofs

open Sys2Proof.Machine

/-! ### One unit -/

section
variable {now slots k : Nat} {blocked : Bool} {regs : Tab Word} {x y : Aq}

/-- What the begin of a record in slot `k` leaves, the latched registers and the sample count aside (R376, R379, R384). -/
def AqBegun (now : Nat) (x y : Aq) (k : Nat) : Prop :=
  y.st = .armed ∧ y.slot = k ∧ y.armAt = now ∧ y.stored = 0 ∧ y.row = 0 ∧ y.lost = 0 ∧ y.seq = 0 ∧ y.fill = none ∧ y.full = x.full ∧ y.trig = none ∧
    y.prevOk = false ∧ y.ts = { tmr := now } ∧ y.q = x.q ++ [.desc 1] ∧ y.missed = x.missed ∧ y.gaps = x.gaps ∧ y.gapRows = x.gapRows

theorem begun_aqBegin (now k : Nat) (relatch : Option (Tab Word)) (x : Aq) : AqBegun now x (aqBegin now k relatch x) k :=
  ⟨rfl, rfl, rfl, rfl, rfl, rfl, rfl, rfl, rfl, rfl, rfl, rfl, rfl, rfl, rfl, rfl⟩

/-- What the arm of a unit leaves of it, `blocked` while a commit of its ring is open (R373, R379). -/
def AqArms (now slots : Nat) (blocked : Bool) (regs : Tab Word) (x y : Aq) : Prop :=
  (blocked = false →
    (∀ k, x.st = .idle → aqFree slots x.full = some k → AqBegun now x y k ∧ y.lat = regs ∧ y.smp = 0 ∧ y.lastAt = none) ∧
    (x.st = .idle → aqFree slots x.full = none → y = { x with armRefused := true, fullFlag := true }) ∧
    (x.st = .stopping → y = { x with pendArm := true }) ∧
    ((x.st = .armed ∨ x.st = .triggered ∨ x.st = .rearming) → y = { x with armRefused := true })) ∧
  (blocked = true → y = { x with armRefused := true })

theorem arms_aqArm (now slots : Nat) (blocked : Bool) (regs : Tab Word) (x : Aq) : AqArms now slots blocked regs x (aqArm now slots blocked regs x) := by
  refine ⟨?_, ?_⟩ <;> rintro rfl
  · refine ⟨fun k hst hk => ?_, fun hst hk => ?_, fun hst => ?_, fun hst => ?_⟩
    · have : aqArm now slots false regs x = aqBegin now k (some regs) x := by simp [aqArm, hst, hk]
      rw [this]; exact ⟨begun_aqBegin now k (some regs) x, rfl, rfl, rfl⟩
    · simp [aqArm, hst, hk]
    · simp [aqArm, hst]
    · rcases hst with hst | hst | hst <;> simp [aqArm, hst]
  · rfl

/-- What a stop leaves of the unit (R385). -/
def AqStops (x y : Aq) : Prop :=
  ((x.st = .armed ∨ x.st = .triggered) → y.st = .stopping ∧ y.fill = none ∧ y.full = x.full ∧ y.slot = x.slot ∧ y.stored = x.stored ∧ y.pendArm = x.pendArm ∧
    (x.fill = none → y.q = x.q ++ [.desc 3]) ∧ (∀ b, x.fill = some b → y.q = x.q ++ [.block { b with part := decide (b.rows.length < aqRowsPer x), final := true }, .desc 3])) ∧
  (x.st = .stopping → y = { x with pendArm := false }) ∧ ((x.st = .idle ∨ x.st = .rearming) → y = x)

theorem aqStop_empty (hst : x.st = .armed ∨ x.st = .triggered) (hf : x.fill = none) : aqStop now x = aqGo .stopping now { x with q := x.q ++ [.desc 3] } := by
  rcases hst with hst | hst <;> simp only [aqStop, hst, hf]

theorem aqStop_fill {b : AqBlk} (hst : x.st = .armed ∨ x.st = .triggered) (hf : x.fill = some b) :
    aqStop now x = aqGo .stopping now
      { x with fill := none, q := x.q ++ [.block { b with part := decide (b.rows.length < aqRowsPer x), final := true }, .desc 3] } := by
  rcases hst with hst | hst <;> simp [aqStop, hst, hf, aqClose_fill hf]

theorem stops_aqStop (now : Nat) (x : Aq) : AqStops x (aqStop now x) := by
  refine ⟨fun hst => ?_, fun hst => by simp only [aqStop, hst], fun hst => by rcases hst with hst | hst <;> simp only [aqStop, hst]⟩
  cases hf : x.fill with
  | none => rw [aqStop_empty hst hf]; simp [aqGo, hf]
  | some b => rw [aqStop_fill hst hf]; simp [aqGo]

theorem aqStopDone_done (hst : x.st = .stopping) (hq : x.q = []) (hp : x.pendArm = false) :
    aqStopDone now slots blocked regs x = aqGo .idle now x := by simp [aqStopDone, hst, hq, aqGo, hp]

theorem aqStopDone_arms (hst : x.st = .stopping) (hq : x.q = []) (hp : x.pendArm = true) :
    aqStopDone now slots blocked regs x = aqArm now slots blocked regs { aqGo .idle now x with pendArm := false } := by simp [aqStopDone, hst, hq, aqGo, hp]

theorem aqStopDone_waits (h : x.st ≠ .stopping ∨ x.q ≠ []) : aqStopDone now slots blocked regs x = x := by
  refine if_neg ?_
  rcases h with h | h <;> simp [h]

theorem aqRearmDue_iff : aqRearmDue now x = true ↔ x.st = .rearming ∧ x.sc + 2000 ≤ now ∧ x.q = [] := by
  simp [aqRearmDue, and_assoc]

/-- The slot after the present one, the first after the last (R384). -/
def aqNext (slots : Nat) (x : Aq) : Nat := if x.slot + 1 < slots then x.slot + 1 else 0

/-- What a re-arm in slot `k` leaves: the registers latched at the arm stand, and an instant counted at this tick counts for the new record (R384). -/
def AqRearmed (now : Nat) (x y : Aq) (k : Nat) : Prop :=
  AqBegun now x y k ∧ y.lat = x.lat ∧ (x.lastAt = some now → y.lastAt = none ∧ y.smp = x.smp - 1) ∧ (x.lastAt ≠ some now → y.lastAt = x.lastAt ∧ y.smp = x.smp)

theorem rearmed_aqBegin (now k : Nat) (x : Aq) : AqRearmed now x (aqBegin now k none x) k :=
  ⟨begun_aqBegin now k none x, rfl, fun h => by simp [aqBegin, aqGo, h], fun h => by simp [aqBegin, aqGo, h]⟩

theorem aqRearm_due (hd : aqRearmDue now x = true) (hr : aqRepeat x = true) :
    aqRearm now slots x =
      if bit x.full (aqNext slots x) then aqGo .idle now { x with fullFlag := true } else aqBegin now (aqNext slots x) none x := by
  simp only [aqRearm, hd, hr, if_true]; rfl

theorem aqRearm_once (hd : aqRearmDue now x = true) (hr : aqRepeat x = false) : aqRearm now slots x = aqGo .idle now x := by simp [aqRearm, hd, hr]

theorem aqRearm_waits (hd : ¬aqRearmDue now x = true) : aqRearm now slots x = x := if_neg hd

end

/-! ### Units of several tiles -/

theorem mem_liveTiles {b : Block} {t : Nat} : t ∈ liveTiles b ↔ t < 8 ∧ tileLive b t = true := by simp [liveTiles]

theorem nodup_liveTiles (b : Block) : (liveTiles b).Nodup := List.nodup_range.filter _

section
variable {l : List Nat} {f : Nat → Block → Block} {i : Nat}

/-- A loop over tiles leaves the unit of a tile that it does not visit. -/
theorem aqAt_forL_other (hf : ∀ t c j, j ≠ t → (f t c).aqAt j = c.aqAt j) (hi : i ∉ l) (b : Block) : (forL l f b).aqAt i = b.aqAt i := by
  induction l generalizing b with
  | nil => rfl
  | cons t r ih =>
    obtain ⟨hne, hr⟩ := not_or.1 (List.mem_cons.not.1 hi)
    exact (ih hr (f t b)).trans (hf t b i hne)

/-- A loop over tiles acts on the unit of a tile once, on a module that has what every step keeps. -/
theorem aqAt_forL_mem {P : Block → Prop} (hf : ∀ t c j, j ≠ t → (f t c).aqAt j = c.aqAt j) (hP : ∀ t c, P c → P (f t c)) (hn : l.Nodup) (hi : i ∈ l) {b : Block} (hb : P b) :
    ∃ m, P m ∧ m.aqAt i = b.aqAt i ∧ (forL l f b).aqAt i = (f i m).aqAt i := by
  induction l generalizing b with
  | nil => exact absurd hi List.not_mem_nil
  | cons t r ih =>
    obtain ⟨hnt, hnr⟩ := List.nodup_cons.1 hn
    rcases List.mem_cons.1 hi with rfl | hr
    · exact ⟨b, hb, rfl, aqAt_forL_other hf hnt (f i b)⟩
    · obtain ⟨m, hm, hunit, hlast⟩ := ih hnr hr (hP t b hb)
      exact ⟨m, hm, hunit.trans (hf t b i fun h => hnt (h ▸ hr)), hlast⟩

end

/-- The modules that differ from `b` in their acquisition units alone. -/
def OnlyUnits (b c : Block) : Prop := ∃ aq, c = { b with aq := aq }

theorem onlyUnits_aqUpd {b c : Block} (h : OnlyUnits b c) (t : Nat) (f : Aq → Aq) : OnlyUnits b (c.aqUpd t f) := by
  obtain ⟨aq, rfl⟩ := h; exact ⟨_, rfl⟩

theorem OnlyUnits.eq {b c : Block} (h : OnlyUnits b c) : c = { b with aq := c.aq } := by obtain ⟨aq, rfl⟩ := h; rfl

/-- The modules that differ from `b` in their acquisition units and in the firings on their way to the hub. -/
def OnlyRows (b c : Block) : Prop := ∃ aq fires, c = { b with aq := aq, aqHub := { b.aqHub with fires := fires } }

theorem onlyRows_aqRowAt {b c : Block} (h : OnlyRows b c) (now t : Nat) : OnlyRows b (aqRowAt now t c) := by
  obtain ⟨aq, fires, rfl⟩ := h
  obtain ⟨⟨aq', fires', h'⟩, -⟩ := aqRowAt_frame now t { b with aq := aq, aqHub := { b.aqHub with fires := fires } }
  exact ⟨aq', fires', h'⟩

theorem OnlyRows.eq {b c : Block} (h : OnlyRows b c) : c = { b with aqHub := { b.aqHub with fires := c.aqHub.fires }, aq := c.aq } := by
  obtain ⟨aq, fires, rfl⟩ := h; rfl

/-! ### ARM and the arm tick -/

section
variable {now : Nat} {b : Block}

variable (b) in
/-- The arm tick that the registers name (R378). -/
def aqNamedTick : Nat := (Fld.AQ_HUB_ARM_HI_TICK b.cfg * 2 ^ 32 + Fld.AQ_HUB_ARM_LO_TICK b.cfg) / 10 * 10

variable (b) in
/-- The armed set of an ARM of `tiles` (R378). -/
def aqArmSet (tiles : Nat) : Nat := bitsOf 8 fun t => bit tiles t && tileOn b t && Fld.AQ_RING_EN b.cfg t

theorem bit_aqArmSet (tiles : Nat) (t : Fin 8) : bit (aqArmSet b tiles) t = (bit tiles t && tileOn b t && Fld.AQ_RING_EN b.cfg t) := bit_bitsOf _ t.isLt

theorem aqArmOp_late {tiles : Nat} (h : aqNamedTick b < now + 10000) : aqArmOp now tiles false b = { b with aqHub := { b.aqHub with refused := tiles } } := by
  unfold aqArmOp
  rw [truncTick_eq]
  exact if_pos (by rw [Bool.not_false, Bool.true_and, decide_eq_true_eq]; exact h)

theorem aqArmOp_taken {tiles : Nat} {asap : Bool} (h : asap = true ∨ now + 10000 ≤ aqNamedTick b) :
    aqArmOp now tiles asap b =
      { b with aqHub := { b.aqHub with set := aqArmSet b tiles, refused := tiles - aqArmSet b tiles
                                       due := some (if asap then now + 10000 else aqNamedTick b, aqArmSet b tiles) } } := by
  unfold aqArmOp
  rw [truncTick_eq]
  refine (if_neg ?_).trans rfl
  rcases h with rfl | h
  · simp
  · rw [Bool.and_eq_true, decide_eq_true_eq]; exact fun hc => Nat.not_lt.2 h hc.2

variable (now b) in
/-- The module at the arm tick of the tiles `ts`, before the rows of the tick (R379). -/
def aqArmed (ts : Nat) : Block :=
  forL ((liveTiles b).filter fun t => bit ts t) (fun t x => x.aqUpd t (aqArm now (aqSlots x t) (aqBlocked x t) (aqRegs x t)))
    { b with aqHub := { b.aqHub with due := none } }

theorem aqArmTick_due {a ts : Nat} (h : b.aqHub.due = some (a, ts)) (hd : a ≤ now) : aqArmTick now b = aqArmed now b ts := by
  simp only [aqArmTick, h, if_pos hd]; rfl

theorem aqArmTick_waits (h : b.aqHub.due = none ∨ ∃ a ts, b.aqHub.due = some (a, ts) ∧ now < a) : aqArmTick now b = b := by
  obtain h | ⟨a, ts, h, hd⟩ := h
  · simp only [aqArmTick, h]
  · simp only [aqArmTick, h, if_neg (Nat.not_le.2 hd)]

theorem aqArmed_only (ts : Nat) : OnlyUnits { b with aqHub := { b.aqHub with due := none } } (aqArmed now b ts) :=
  forL_keeps _ _ _ _ (fun t _ hc => onlyUnits_aqUpd hc t _) ⟨_, rfl⟩

theorem aqArmed_other {ts t : Nat} (h : bit ts t = false ∨ tileLive b t = false) : (aqArmed now b ts).aqAt t = b.aqAt t := by
  refine aqAt_forL_other (fun _ _ _ hj => aqAt_aqUpd_ne _ _ _ _ hj) (fun hm => ?_) _
  obtain ⟨hlive, hbit⟩ := List.mem_filter.1 hm
  rcases h with h | h
  · exact Bool.false_ne_true (h.symm.trans hbit)
  · exact Bool.false_ne_true (h.symm.trans (mem_liveTiles.1 hlive).2)

theorem aqArmed_arms {ts : Nat} {t : Fin 8} (hbit : bit ts t = true) (hl : tileLive b t = true) :
    AqArms now (aqSlots b t) (aqBlocked b t) (aqRegs b t) (b.aqAt t) ((aqArmed now b ts).aqAt t) := by
  obtain ⟨m, ⟨aq, rfl⟩, hunit, hlast⟩ := aqAt_forL_mem (P := OnlyUnits { b with aqHub := { b.aqHub with due := none } })
    (f := fun t x => x.aqUpd t (aqArm now (aqSlots x t) (aqBlocked x t) (aqRegs x t))) (fun _ _ _ hj => aqAt_aqUpd_ne _ _ _ _ hj) (fun t _ hc => onlyUnits_aqUpd hc t _)
    ((nodup_liveTiles b).filter fun t => bit ts t) (List.mem_filter.2 ⟨mem_liveTiles.2 ⟨t.isLt, hl⟩, hbit⟩) ⟨_, rfl⟩
  unfold aqArmed
  rw [hlast, aqAt_aqUpd, hunit]
  exact arms_aqArm now _ _ _ _

/-! ### The rows of every tile -/

theorem aqRows_only (now : Nat) (l : List Nat) (b : Block) : OnlyRows b (forL l (aqRowAt now) b) :=
  forL_keeps _ _ _ _ (fun t _ hc => onlyRows_aqRowAt hc now t) ⟨_, _, rfl⟩

theorem aqRows_other {l : List Nat} (hn : l.Nodup) {t : Nat} (h : t ∉ l ∨ isSample b now t (aqGrp (b.aqAt t)) = false) : (forL l (aqRowAt now) b).aqAt t = b.aqAt t := by
  have hrow : ∀ t c j, j ≠ t → (aqRowAt now t c).aqAt j = c.aqAt j := fun t c => (aqRowAt_frame now t c).2
  by_cases ht : t ∈ l
  · obtain ⟨m, ⟨aq, fires, rfl⟩, hunit, hlast⟩ := aqAt_forL_mem (P := OnlyRows b) hrow (fun t _ hc => onlyRows_aqRowAt hc now t) hn ht ⟨_, _, rfl⟩
    rw [hlast, aqRowAt_other, hunit]
    rw [hunit]; exact h.resolve_left (not_not.2 ht)
  · exact aqAt_forL_other hrow ht b

/-! ### Stops of several tiles -/

theorem aqDisarm_stops {p : Nat → Bool} {t : Fin 8} :
    (tileLive b t = true → p t = true → AqStops (b.aqAt t) ((forL ((liveTiles b).filter p) (fun t x => x.aqUpd t (aqStop now)) b).aqAt t)) ∧
    ((tileLive b t = false ∨ p t = false) → (forL ((liveTiles b).filter p) (fun t x => x.aqUpd t (aqStop now)) b).aqAt t = b.aqAt t) := by
  have hother : ∀ t (c : Block) j, j ≠ t → (c.aqUpd t (aqStop now)).aqAt j = c.aqAt j := fun _ _ _ hj => aqAt_aqUpd_ne _ _ _ _ hj
  refine ⟨fun hl hp => ?_, fun h => aqAt_forL_other hother (fun hm => ?_) b⟩
  · obtain ⟨m, -, hunit, hlast⟩ := aqAt_forL_mem (P := fun _ => True) hother (fun _ _ _ => trivial) ((nodup_liveTiles b).filter p)
      (List.mem_filter.2 ⟨mem_liveTiles.2 ⟨t.isLt, hl⟩, hp⟩) trivial
    rw [hlast, aqAt_aqUpd, hunit]; exact stops_aqStop now _
  · obtain ⟨hlive, hpt⟩ := List.mem_filter.1 hm
    rcases h with h | h
    · exact Bool.false_ne_true (h.symm.trans (mem_liveTiles.1 hlive).2)
    · exact Bool.false_ne_true (h.symm.trans hpt)

end

/-- A command after which the tile's unit is `y` and the row of the tick is taken with it. -/
theorem gives_then_row {c : Instr} {t : Nat} {f : Nat → Block → Block} {s : State} {y : Aq} {P : Aq → Prop} (hc : exec c s = onTile t f s) (hl : tileLive s.b t = true)
    (hf : f s.clk.lattice s.b = aqRowAt s.clk.lattice t (s.b.aqUpd t fun _ => y)) (hP : P y) :
    Gives c s fun u => ∃ m : Block, u.b = aqRowAt s.clk.lattice t m ∧ m = { s.b with aq := m.aq } ∧ (∀ i, i ≠ t → m.aqAt i = s.b.aqAt i) ∧ P (m.aqAt t) := by
  refine gives_onTile hc hl ⟨s.b.aqUpd t fun _ => y, hf, rfl, fun i hi => aqAt_aqUpd_ne _ _ _ _ hi, ?_⟩
  rw [aqAt_aqUpd]; exact hP

/-- Settles O34: an arm by `AqArms`, a stop by `AqStops`, the begin of a record by `AqBegun`, each for one unit and then for the tiles of a loop. -/
theorem acquisitionArms : Obligations.AcquisitionArms := by
  intro s hon
  refine ⟨fun ts ht => turns_onRun (exec_aqArm ts false s) hon (aqArmOp_late ht), fun ts asap ht => ?_, fun a ts hd ha => ?_,
    fun hw => turns_onRun (exec_armTick s) hon (congrArg (forL (liveTiles s.b) (aqRowAt s.clk.lattice)) (aqArmTick_waits hw)), fun ts => ?_, fun t x hl hx => ?_⟩
  · refine gives_onRun (exec_aqArm ts asap s) hon ?_
    dsimp only
    rw [aqArmOp_taken ht]
    refine ⟨fun t => (bit_aqArmSet _ t).trans ?_, rfl⟩
    rw [bit_toNat, tileOn, hon, Bool.true_and]
  · refine gives_onRun (exec_armTick s) hon ?_
    dsimp only
    rw [aqArmTick_due hd ha]
    have hm := aqArmed_only (now := s.clk.lattice) (b := s.b) ts
    refine ⟨_, rfl, hm.eq, ?_, fun t => ⟨aqArmed_other, fun hbit hl => aqArmed_arms hbit hl, fun h => ?_⟩⟩
    · obtain ⟨aq, hm⟩ := hm
      obtain ⟨aq', fires, hrows⟩ := aqRows_only s.clk.lattice (liveTiles s.b) (aqArmed s.clk.lattice s.b ts)
      rw [hrows, hm]
    · obtain ⟨aq, hm⟩ := hm
      refine aqRows_other (nodup_liveTiles s.b) (h.imp (fun hl hin => ?_) fun hs => ?_)
      · exact Bool.false_ne_true (hl.symm.trans (mem_liveTiles.1 hin).2)
      · rw [hm] at hs ⊢; exact hs
  · refine gives_onRun (exec_aqDisarm ts s) hon ⟨OnlyUnits.eq ?_, fun t => aqDisarm_stops⟩
    exact forL_keeps _ _ _ _ (fun t _ hc => onlyUnits_aqUpd hc t _) ⟨_, rfl⟩
  · subst hx
    have stopDone : ∀ {y}, aqStopDone s.clk.lattice (aqSlots s.b t) (aqBlocked s.b t) (aqRegs s.b t) (s.b.aqAt t) = y →
        aqRowAt s.clk.lattice t (aqStopAt s.clk.lattice t s.b) = aqRowAt s.clk.lattice t (s.b.aqUpd t fun _ => y) := fun hy => by rw [aqStopAt, aqUpd_value, hy]
    have rearm : ∀ {y}, aqRearm s.clk.lattice (aqSlots s.b t) (s.b.aqAt t) = y →
        aqRowAt s.clk.lattice t (aqRearmAt s.clk.lattice t s.b) = aqRowAt s.clk.lattice t (s.b.aqUpd t fun _ => y) := fun hy => by rw [aqRearmAt, aqUpd_value, hy]
    refine ⟨?_, fun hst hq hp => ?_, fun hst hq hp => ?_, fun hw => ?_, ⟨fun hd => ?_, fun hd hr => ?_, fun hd hr hf => ?_, fun hd hr hf => ?_⟩, fun k hb hf => ?_, fun k hk => ?_, ?_⟩
    · refine gives_onTile (exec_aqStop t s) hl ⟨rfl, fun i hi => aqAt_aqUpd_ne _ _ _ _ hi, ?_⟩
      dsimp only
      rw [aqAt_aqUpd]; exact stops_aqStop _ _
    · exact turns_onTile (exec_acqStopComplete t s) hl ((stopDone (aqStopDone_done hst hq hp)).trans (aqRowAt_idle rfl))
    · exact gives_then_row (exec_acqStopComplete t s) hl (stopDone (aqStopDone_arms hst hq hp)) (arms_aqArm _ _ _ _ _)
    · exact turns_onTile (exec_acqStopComplete t s) hl (stopDone (aqStopDone_waits hw))
    · exact turns_onTile (exec_rearm t s) hl (rearm (aqRearm_waits (aqRearmDue_iff.not.2 hd)))
    · exact turns_onTile (exec_rearm t s) hl ((rearm (aqRearm_once (aqRearmDue_iff.2 hd) hr)).trans (aqRowAt_idle rfl))
    · exact turns_onTile (exec_rearm t s) hl ((rearm ((aqRearm_due (aqRearmDue_iff.2 hd) hr).trans (if_pos hf))).trans (aqRowAt_idle rfl))
    · exact gives_then_row (P := fun y => AqRearmed s.clk.lattice (s.b.aqAt t) y (aqNext (aqSlots s.b t) (s.b.aqAt t))) (exec_rearm t s) hl
        (rearm ((aqRearm_due (aqRearmDue_iff.2 hd) hr).trans (if_neg (Bool.eq_false_iff.1 hf)))) (rearmed_aqBegin _ _ _)
    · exact turns_onTile (exec_aqRelease t k s) hl ((aqUpd_value _ _ _).trans (by rw [if_neg (by simpa [hb, or_iff_not_imp_left] using hf)]))
    · exact turns_onTile (exec_aqRelease t k s) hl ((aqUpd_value _ _ _).trans (by rw [if_pos (by simpa [or_comm] using hk)]))
    · exact turns_onTile (exec_aqClrStats t s) hl (aqUpd_value _ _ _)

end Sys2Proof.Proofs
end

section
/-! Rows of a record (R365, R368, R371, R376, R380 to R383): what one row leaves of its unit. -/

namespace Sys2Proof.Proofs

open Sys2Proof.Machine

/-! ### A row, step by step -/

/-- No local block takes the row (R371). -/
def aqLoses (u : Aq) : Bool := u.fill.isNone && decide (16 ≤ aqQueued u)

/-- The trigger sequencer on a row, with its firing (R375, R376). -/
def aqScan (s : Nat) (row : List Word) (u : Aq) : Aq × Option Nat :=
  let u := { u with prevOk := u.prevOk && (aqLoses u || decide (u.lost = 0)) }
  if aqTrigEn u then aqTrigRow u row s else (u, none)

/-- The unit without the events that a row at `s` has evaluated (R375). -/
def aqSpent (s : Nat) (u : Aq) : Aq := { u with ts := { u.ts with ev := u.ts.ev.filter fun e => decide (s ≤ e.2) } }

/-- The unit after a lost row (R371). -/
def aqLost (s : Nat) (row : List Word) (u : Aq) : Aq :=
  { u with lost := u.lost + 1, row := u.row + 1, prev := row, prevOk := true, prevAt := s
           gapRows := satAdd 0xFFFFFFFF u.gapRows 1
           gaps := if u.lost = 0 then satAdd 0xFFFFFFFF u.gaps 1 else u.gaps }

/-- The block that a row at `s` joins: the one in fill, or a new one (R370, R371). -/
def aqBlockFor (s : Nat) (u : Aq) : AqBlk := u.fill.getD { seq := u.seq, row0 := u.row, tick0 := s, gap := u.lost }

/-- A stored row at `s` is the trigger row: a trigger at or before it has none yet (R381). -/
def aqTrigDue (s : Nat) (u : Aq) : Bool :=
  match u.trig with
  | some { row := none, t := t, .. } => decide (t ≤ s)
  | _ => false

/-- The unit with a block opened for a row, unless one is in fill (R370, R371). -/
def aqOpened (u : Aq) : Aq := if u.fill.isNone then { u with seq := u.seq + 1, idx := (u.seq, u.stored, u.lost) :: u.idx } else u

/-- The block of a row with the row in it. -/
def aqRowBlock (s : Nat) (row : List Word) (u : Aq) : AqBlk :=
  let b := aqBlockFor s u
  { b with rows := (s, row) :: b.rows, lastAt := s, trig := if aqTrigDue s (aqOpened u) then some b.rows.length else b.trig }

/-- The unit with a row in its block, before the marks of the trigger (R371). -/
def aqJoined (s : Nat) (row : List Word) (u : Aq) : Aq :=
  let v := aqOpened u
  { v with fill := some (aqRowBlock s row u), stored := v.stored + 1, row := v.row + 1, lost := 0, prev := row, prevOk := true, prevAt := s }

/-- The unit with a row in its block, marked where it is the trigger row (R381, R382). -/
def aqMarked (s : Nat) (row : List Word) (u : Aq) : Aq := if aqTrigDue s (aqOpened u) then aqMark s u.stored (aqJoined s row u) else aqJoined s row u

/-- The unit after a stored row: the record complete, the block full, or neither (R371, R383). -/
def aqStored (s : Nat) (row : List Word) (u : Aq) : Aq :=
  let v := aqMarked s row u
  if v.st = .triggered && decide (aqPost v ≤ aqPostNow v) then aqComplete s v
  else if aqRowsPer v ≤ (aqRowBlock s row u).rows.length then aqClose false false v
  else v

section
variable {s : Nat} {row : List Word} {u : Aq}

theorem aqOpened_eq (u : Aq) : aqOpened u =
    { u with seq := if u.fill = none then u.seq + 1 else u.seq, idx := if u.fill = none then (u.seq, u.stored, u.lost) :: u.idx else u.idx } := by
  unfold aqOpened
  cases hf : u.fill with
  | none => rfl
  | some b => simp only [Option.isNone_some, Bool.false_eq_true, reduceCtorEq, if_false]; rw [← hf]

theorem pair_ite {α β : Type} {p q : Prop} [Decidable p] [Decidable q] (a b c : α) (f : β) :
    (if p then (a, f) else if q then (b, f) else (c, f)) = (if p then a else if q then b else c, f) := by split_ifs <;> rfl

theorem aqRow_lost (h : aqLoses u = true) (row : List Word) :
    aqRow s row u = (aqLost s row (aqSpent s (aqScan s row u).1), if u.st = .armed then (aqScan s row u).2 else none) := by
  refine (if_pos h).trans ?_
  simp only [decide_eq_true_eq]; rfl

theorem aqRow_stored (h : aqLoses u = false) (row : List Word) :
    aqRow s row u = (aqStored s row (aqSpent s (aqScan s row u).1), if u.st = .armed then (aqScan s row u).2 else none) :=
  (if_neg (Bool.eq_false_iff.1 h)).trans (pair_ite _ _ _ _)

/-! ### A stored row -/

theorem aqTrigDue_opened (s : Nat) (u : Aq) : aqTrigDue s (aqOpened u) = aqTrigDue s u := by rw [aqOpened_eq]; rfl

theorem aqJoined_eq (s : Nat) (row : List Word) (u : Aq) : aqJoined s row u =
    { u with seq := if u.fill = none then u.seq + 1 else u.seq
             idx := if u.fill = none then (u.seq, u.stored, u.lost) :: u.idx else u.idx
             fill := some (aqRowBlock s row u), stored := u.stored + 1, row := u.row + 1, lost := 0, prev := row, prevOk := true, prevAt := s } := by
  simp only [aqJoined, aqOpened_eq]

theorem aqRowBlock_eq (s : Nat) (row : List Word) (u : Aq) : aqRowBlock s row u =
    { aqBlockFor s u with rows := (s, row) :: (aqBlockFor s u).rows, lastAt := s
                          trig := if aqTrigDue s u then some (aqBlockFor s u).rows.length else (aqBlockFor s u).trig } := by
  simp only [aqRowBlock, aqTrigDue_opened]

theorem aqMarked_plain (h : aqTrigDue s u = false) (row : List Word) : aqMarked s row u = aqJoined s row u := by
  simp only [aqMarked, aqTrigDue_opened, h, Bool.false_eq_true, if_false]

theorem aqMarked_trig {tr : AqTrig} (h : aqTrigDue s u = true) (ht : u.trig = some tr) (row : List Word) :
    aqMarked s row u = { aqJoined s row u with trig := some { tr with row := some (s, u.stored), pre := min u.stored (aqPre u) }, shortPre := decide (u.stored < aqPre u) } := by
  have hpre : aqPre (aqJoined s row u) = aqPre u := by rw [aqJoined_eq]; rfl
  have hj : (aqJoined s row u).trig = some tr := by rw [aqJoined_eq]; exact ht
  rw [aqMarked, aqTrigDue_opened, if_pos h, aqMark_some hj, hpre]

/-- The mark of the trigger row changes the trigger and SHORT_PRE alone (R381, R382). -/
theorem aqMarked_frame (s : Nat) (row : List Word) (u : Aq) : ∃ trig shortPre, aqMarked s row u = { aqJoined s row u with trig := trig, shortPre := shortPre } := by
  cases hd : aqTrigDue s u with
  | false => exact ⟨_, _, aqMarked_plain hd row⟩
  | true =>
    cases ht : u.trig with
    | none => simp [aqTrigDue, ht] at hd
    | some tr => exact ⟨_, _, aqMarked_trig hd ht row⟩

theorem aqMarked_fill (s : Nat) (row : List Word) (u : Aq) : (aqMarked s row u).fill = some (aqRowBlock s row u) := by
  obtain ⟨trig, shortPre, h⟩ := aqMarked_frame s row u
  rw [h, aqJoined_eq]

/-- The end of a block or of a record changes the state, the block in fill, the queue and the completion tick alone. -/
theorem aqStored_frame (s : Nat) (row : List Word) (u : Aq) :
    ∃ st hist sc fill q, aqStored s row u = { aqMarked s row u with st := st, hist := hist, sc := sc, fill := fill, q := q } := by
  unfold aqStored; dsimp only
  split
  · exact aqComplete_frame s _
  · split
    · rw [aqClose_fill (aqMarked_fill s row u)]; exact ⟨_, _, _, _, _, rfl⟩
    · exact ⟨_, _, _, _, _, rfl⟩

/-- What every stored row leaves, the end of its block and of its record aside. -/
def Stores (s : Nat) (row : List Word) (x y : Aq) : Prop :=
  y.stored = x.stored + 1 ∧ y.row = x.row + 1 ∧ y.prev = row ∧ y.prevOk = true ∧ y.prevAt = s ∧ y.lost = 0 ∧ y.smp = x.smp ∧ y.lastAt = x.lastAt ∧
    y.gapRows = x.gapRows ∧ y.gaps = x.gaps ∧ y.seq = (if x.fill = none then x.seq + 1 else x.seq) ∧ y.full = x.full ∧ y.slot = x.slot ∧ y.missed = x.missed ∧ y.ts = x.ts

theorem stores_aqStored (s : Nat) (row : List Word) (u : Aq) : Stores s row u (aqStored s row u) := by
  obtain ⟨st, hist, sc, fill, q, hs⟩ := aqStored_frame s row u
  obtain ⟨trig, shortPre, hm⟩ := aqMarked_frame s row u
  rw [hs, hm, aqJoined_eq]
  exact ⟨rfl, rfl, rfl, rfl, rfl, rfl, rfl, rfl, rfl, rfl, rfl, rfl, rfl, rfl, rfl⟩

theorem aqStored_trig (s : Nat) (row : List Word) (u : Aq) : (aqStored s row u).trig = (aqMarked s row u).trig ∧ (aqStored s row u).shortPre = (aqMarked s row u).shortPre := by
  obtain ⟨st, hist, sc, fill, q, hs⟩ := aqStored_frame s row u
  rw [hs]; exact ⟨rfl, rfl⟩

theorem aqMarked_unit (s : Nat) (row : List Word) (u : Aq) :
    (aqMarked s row u).st = u.st ∧ (aqMarked s row u).q = u.q ∧ aqPost (aqMarked s row u) = aqPost u ∧ aqRowsPer (aqMarked s row u) = aqRowsPer u := by
  obtain ⟨trig, shortPre, hm⟩ := aqMarked_frame s row u
  rw [hm, aqJoined_eq]; exact ⟨rfl, rfl, rfl, rfl⟩

/-- Before the trigger a row fills its block, which is queued when it is full (R371). -/
theorem aqStored_armed (h : u.st = .armed) (row : List Word) :
    (aqStored s row u).st = .armed ∧
      (aqRowsPer u ≤ (aqRowBlock s row u).rows.length →
        (aqStored s row u).fill = none ∧ (aqStored s row u).q = u.q ++ [.block { aqRowBlock s row u with part := false, final := false }]) ∧
      (¬aqRowsPer u ≤ (aqRowBlock s row u).rows.length → (aqStored s row u).fill = some (aqRowBlock s row u) ∧ (aqStored s row u).q = u.q) := by
  obtain ⟨hst, hq, -, hper⟩ := aqMarked_unit s row u
  have hs : aqStored s row u = if aqRowsPer u ≤ (aqRowBlock s row u).rows.length then aqClose false false (aqMarked s row u) else aqMarked s row u := by
    unfold aqStored; dsimp only
    rw [if_neg (by simp [hst, h]), hper]
  rw [hs, aqClose_fill (aqMarked_fill s row u)]
  refine ⟨?_, fun hf => ?_, fun hf => ?_⟩
  · split <;> exact hst.trans h
  · rw [if_pos hf]; exact ⟨rfl, by rw [hq]⟩
  · rw [if_neg hf]; exact ⟨aqMarked_fill s row u, hq⟩

/-- After the trigger the last post-trigger row completes the record (R383). -/
theorem aqStored_completes (h : u.st = .triggered) (row : List Word) (hp : aqPost u ≤ aqPostNow (aqMarked s row u)) :
    (aqStored s row u).st = .rearming ∧ (aqStored s row u).sc = s ∧ (aqStored s row u).fill = none ∧
      (aqStored s row u).q = u.q ++ [.block { aqRowBlock s row u with part := decide ((aqRowBlock s row u).rows.length < aqRowsPer u), final := true }, .desc 2] := by
  obtain ⟨hst, hq, hpost, hper⟩ := aqMarked_unit s row u
  have hs : aqStored s row u = aqComplete s (aqMarked s row u) := if_pos (by simp [hst, h, hpost, hp])
  rw [hs, aqComplete_fill (aqMarked_fill s row u), hq, hper]
  exact ⟨rfl, rfl, rfl, rfl⟩

theorem aqStored_continues (h : u.st = .triggered) (row : List Word) (hp : aqPostNow (aqMarked s row u) < aqPost u) : (aqStored s row u).st = .triggered := by
  obtain ⟨hst, -, hpost, -⟩ := aqMarked_unit s row u
  unfold aqStored; dsimp only
  rw [if_neg (by simp [hpost, hp]), aqClose_fill (aqMarked_fill s row u)]
  split <;> exact hst.trans h

/-! ### The trigger of the record -/

theorem aqTrigDue_before (h : u.trig = none ∨ ∃ T n p, u.trig = some { t := T, src := n, pre := p } ∧ s < T) : aqTrigDue s u = false := by
  obtain h | ⟨T, n, p, h, hT⟩ := h
  · simp only [aqTrigDue, h]
  · simp only [aqTrigDue, h, decide_eq_false_iff_not]; exact Nat.not_le.2 hT

theorem aqTrigDue_at {T n p : Nat} (h : u.trig = some { t := T, src := n, pre := p }) (hT : T ≤ s) : aqTrigDue s u = true := by
  simp only [aqTrigDue, h, decide_eq_true hT]

theorem aqTrigDue_after {T n p w r : Nat} (h : u.trig = some { t := T, src := n, row := some (w, r), pre := p }) : aqTrigDue s u = false := by
  simp only [aqTrigDue, h]

theorem aqRowBlock_plain (h : aqTrigDue s u = false) (row : List Word) :
    aqRowBlock s row u = { aqBlockFor s u with rows := (s, row) :: (aqBlockFor s u).rows, lastAt := s } := by rw [aqRowBlock_eq, h]; rfl

theorem aqRowBlock_trig (h : aqTrigDue s u = true) (row : List Word) :
    aqRowBlock s row u = { aqBlockFor s u with rows := (s, row) :: (aqBlockFor s u).rows, lastAt := s, trig := some (aqBlockFor s u).rows.length } := by
  rw [aqRowBlock_eq, h]; rfl

theorem aqStored_trig_plain (h : aqTrigDue s u = false) (row : List Word) : (aqStored s row u).trig = u.trig ∧ (aqStored s row u).shortPre = u.shortPre := by
  obtain ⟨htrig, hshort⟩ := aqStored_trig s row u
  rw [htrig, hshort, aqMarked_plain h, aqJoined_eq]; exact ⟨rfl, rfl⟩

theorem aqStored_trig_at {T n p : Nat} (h : u.trig = some { t := T, src := n, pre := p }) (hT : T ≤ s) (row : List Word) :
    (aqStored s row u).trig = some { t := T, src := n, row := some (s, u.stored), pre := min u.stored (aqPre u) } ∧
      (aqStored s row u).shortPre = decide (u.stored < aqPre u) := by
  obtain ⟨htrig, hshort⟩ := aqStored_trig s row u
  rw [htrig, hshort, aqMarked_trig (aqTrigDue_at h hT) h]; exact ⟨rfl, rfl⟩

theorem aqPostNow_at {T n p : Nat} (h : u.trig = some { t := T, src := n, pre := p }) (hT : T ≤ s) (row : List Word) : aqPostNow (aqMarked s row u) = 1 := by
  rw [aqMarked_trig (aqTrigDue_at h hT) h, aqJoined_eq]
  exact Nat.add_sub_cancel_left ..

theorem aqPostNow_after {T n p w r : Nat} (h : u.trig = some { t := T, src := n, row := some (w, r), pre := p }) (row : List Word) :
    aqPostNow (aqMarked s row u) = u.stored + 1 - r := by
  rw [aqMarked_plain (aqTrigDue_after h), aqJoined_eq]
  simp only [aqPostNow, h]

/-! ### The trigger sequencer on a row -/

/-- The unit at a row with the instant counted and the row not yet taken, with the trigger sequencer off. -/
def aqReady (s : Nat) (u : Aq) : Aq :=
  let v := aqCounted s u
  aqSpent s { v with prevOk := v.prevOk && (aqLoses v || decide (v.lost = 0)) }

theorem aqScan_off (h : aqTrigEn u = false) (row : List Word) : aqSpent s (aqScan s row (aqCounted s u)).1 = aqReady s u ∧ (aqScan s row (aqCounted s u)).2 = none := by
  have hc : aqScan s row (aqCounted s u) = ({ aqCounted s u with prevOk := u.prevOk && (aqLoses u || decide (u.lost = 0)) }, none) := if_neg (Bool.eq_false_iff.1 h)
  rw [hc]; exact ⟨rfl, rfl⟩

/-- The word of the sequencer's state (R376). -/
def aqStateWord (u : Aq) : Nat := (tabGet 0 u.lat (0xC0 + 4 * u.ts.st)).toNat

/-- With condition A always true and no condition B the state moves to its successor of A at every row, and fires at the row's instant if it is to (R375, R376). -/
theorem aqTrigRow_always (ha : bits (aqStateWord u) 26 6 = 1) (hb : bits (aqStateWord u) 10 6 = 0) (row : List Word) :
    (aqTrigRow u row s).2 = (if bit (aqStateWord u) 22 then some s else none) ∧ (aqTrigRow u row s).1.ts.st = bits (aqStateWord u) 23 3 := by
  have hA : ∀ v : Aq, aqCond v row s 1 = some s := fun v => rfl
  have hB : ∀ v : Aq, aqCond v row s 0 = none := fun v => rfl
  unfold aqStateWord at *
  simp only [aqTrigRow, ha, hb, hA, hB, aqPick, Bool.false_eq_true, if_false, true_and]
  split
  · next h => exact h.symm
  · rfl

theorem aqScan_always (hen : aqTrigEn u = true) (ha : bits (aqStateWord u) 26 6 = 1) (hb : bits (aqStateWord u) 10 6 = 0) (hf : bit (aqStateWord u) 22 = true) (row : List Word) :
    (aqScan s row (aqCounted s u)).2 = some s ∧ (aqScan s row (aqCounted s u)).1.ts.st = bits (aqStateWord u) 23 3 := by
  have hc : aqScan s row (aqCounted s u) = aqTrigRow { aqCounted s u with prevOk := u.prevOk && (aqLoses u || decide (u.lost = 0)) } row s := if_pos hen
  obtain ⟨hfire, hst⟩ := aqTrigRow_always (s := s) (u := { aqCounted s u with prevOk := u.prevOk && (aqLoses u || decide (u.lost = 0)) }) ha hb row
  rw [hc]; exact ⟨hfire.trans (if_pos hf), hst⟩

/-! ### What a row leaves of its unit -/

theorem aqStored_before (htr : u.trig = none ∨ ∃ T n p, u.trig = some { t := T, src := n, pre := p } ∧ s < T) (harm : u.st = .armed) (row : List Word) :
    let blk : AqBlk := { aqBlockFor s u with rows := (s, row) :: (aqBlockFor s u).rows, lastAt := s }
    (aqStored s row u).st = .armed ∧ (aqStored s row u).trig = u.trig ∧ (aqStored s row u).shortPre = u.shortPre ∧
      (aqRowsPer u ≤ blk.rows.length → (aqStored s row u).fill = none ∧ (aqStored s row u).q = u.q ++ [.block { blk with part := false, final := false }]) ∧
      (¬aqRowsPer u ≤ blk.rows.length → (aqStored s row u).fill = some blk ∧ (aqStored s row u).q = u.q) := by
  have hdue := aqTrigDue_before htr
  obtain ⟨htrig, hshort⟩ := aqStored_trig_plain hdue row
  obtain ⟨hst, hfull, hopen⟩ := aqStored_armed (s := s) harm row
  rw [aqRowBlock_plain hdue] at hfull hopen
  exact ⟨hst, htrig, hshort, hfull, hopen⟩

/-- A record of `u` that is complete at `s` with block `blk` (R383). -/
def Completed (s : Nat) (u y : Aq) (blk : AqBlk) : Prop :=
  y.st = .rearming ∧ y.sc = s ∧ y.fill = none ∧ y.q = u.q ++ [.block { blk with part := decide (blk.rows.length < aqRowsPer u), final := true }, .desc 2]

theorem aqStored_at {T n p : Nat} (htr : u.trig = some { t := T, src := n, pre := p }) (hT : T ≤ s) (hst : u.st = .triggered) (row : List Word) :
    let blk : AqBlk := { aqBlockFor s u with rows := (s, row) :: (aqBlockFor s u).rows, lastAt := s, trig := some (aqBlockFor s u).rows.length }
    (aqStored s row u).trig = some { t := T, src := n, row := some (s, u.stored), pre := min u.stored (aqPre u) } ∧
      (aqStored s row u).shortPre = decide (u.stored < aqPre u) ∧
      (aqPost u ≤ 1 → Completed s u (aqStored s row u) blk) ∧ (1 < aqPost u → (aqStored s row u).st = .triggered) := by
  have hpost := aqPostNow_at htr hT row
  obtain ⟨htrig, hshort⟩ := aqStored_trig_at htr hT row
  refine ⟨htrig, hshort, fun hp => ?_, fun hp => aqStored_continues hst row (hpost.trans_lt hp)⟩
  have hend := aqStored_completes hst row (hp.trans_eq hpost.symm)
  rw [aqRowBlock_trig (aqTrigDue_at htr hT)] at hend
  exact hend

theorem aqStored_after {T n p m r : Nat} (htr : u.trig = some { t := T, src := n, row := some (m, r), pre := p }) (hst : u.st = .triggered) (row : List Word) :
    let blk : AqBlk := { aqBlockFor s u with rows := (s, row) :: (aqBlockFor s u).rows, lastAt := s }
    (aqStored s row u).trig = u.trig ∧ (aqStored s row u).shortPre = u.shortPre ∧
      (aqPost u ≤ u.stored + 1 - r → Completed s u (aqStored s row u) blk) ∧ (u.stored + 1 - r < aqPost u → (aqStored s row u).st = .triggered) := by
  have hdue := aqTrigDue_after (s := s) htr
  have hpost := aqPostNow_after (s := s) htr row
  obtain ⟨htrig, hshort⟩ := aqStored_trig_plain hdue row
  refine ⟨htrig, hshort, fun hp => ?_, fun hp => aqStored_continues hst row (hpost.trans_lt hp)⟩
  have hend := aqStored_completes hst row (hp.trans_eq hpost.symm)
  rw [aqRowBlock_plain hdue] at hend
  exact hend

/-- What a lost row leaves: the counts of lost rows, the block and the record as they were (R371). -/
def Loses (s : Nat) (row : List Word) (x y : Aq) : Prop :=
  y.stored = x.stored ∧ y.row = x.row + 1 ∧ y.lost = x.lost + 1 ∧ y.gapRows = min 0xFFFFFFFF (x.gapRows + 1) ∧
    y.gaps = (if x.lost = 0 then min 0xFFFFFFFF (x.gaps + 1) else x.gaps) ∧ y.q = x.q ∧ y.fill = x.fill ∧ y.st = x.st ∧ y.trig = x.trig ∧ y.full = x.full ∧
    y.prev = row ∧ y.smp = x.smp + 1 ∧ y.lastAt = some s

theorem loses_aqLost (s : Nat) (row : List Word) (u : Aq) : Loses s row u (aqLost s row (aqReady s u)) :=
  ⟨rfl, rfl, rfl, rfl, rfl, rfl, rfl, rfl, rfl, rfl, rfl, rfl, rfl⟩

theorem aqLoses_iff : aqLoses u = false ↔ u.fill ≠ none ∨ aqQueued u < 16 := by simp [aqLoses, imp_iff_not_or]

/-- A row, lost or stored, leaves the state of the trigger sequencer that its evaluation gave. -/
theorem aqRow_seq (s : Nat) (row : List Word) (u : Aq) : (aqRow s row u).1.ts.st = (aqScan s row u).1.ts.st ∧ (aqRow s row u).2 = if u.st = .armed then (aqScan s row u).2 else none := by
  cases h : aqLoses u with
  | true => rw [aqRow_lost h]; exact ⟨rfl, rfl⟩
  | false =>
    obtain ⟨-, -, -, -, -, -, -, -, -, -, -, -, -, -, hts⟩ := stores_aqStored s row (aqSpent s (aqScan s row u).1)
    rw [aqRow_stored h]; exact ⟨(congrArg AqTs.st hts :), rfl⟩

end

/-! ### The row of a tile -/

section
variable {now t : Nat} {b : Block} {u : Aq}

/-- A row of the unit is due at an instant of its group (R365). -/
def AqDue (now : Nat) (u : Aq) : Prop := (u.st = .armed ∨ u.st = .triggered) ∧ (u.armAt ≤ now ∧ u.lastAt ≠ some now) ∧ u.smp % max 1 (aqDiv u) = 0

theorem aqSampleAt_due (h : AqDue now u) (row : List Word) : aqSampleAt now row u = aqRow now row (aqCounted now u) := by
  obtain ⟨hst, hin, hdiv⟩ := h
  have hne : u.st ≠ .idle ∧ u.st ≠ .stopping := by rcases hst with h | h <;> simp [h]
  rw [aqSampleAt_counts hne hin, if_pos ⟨hdiv, hst⟩]

theorem aqSampleAt_fires (hd : AqDue now u) (harm : u.st = .armed) (hen : aqTrigEn u = true) (ha : bits (aqStateWord u) 26 6 = 1) (hb : bits (aqStateWord u) 10 6 = 0)
    (hf : bit (aqStateWord u) 22 = true) (row : List Word) : ∃ y, aqSampleAt now row u = (y, some now) ∧ y.ts.st = bits (aqStateWord u) 23 3 := by
  obtain ⟨hfire, hst⟩ := aqScan_always (s := now) hen ha hb hf row
  obtain ⟨hseq, hgo⟩ := aqRow_seq now row (aqCounted now u)
  refine ⟨(aqRow now row (aqCounted now u)).1, ?_, hseq.trans hst⟩
  rw [aqSampleAt_due hd, ← hgo.trans ((if_pos harm).trans hfire)]

theorem aqSampleAt_skips (hin : u.armAt ≤ now ∧ u.lastAt ≠ some now) (h : u.st = .rearming ∨ (u.st = .armed ∨ u.st = .triggered) ∧ u.smp % max 1 (aqDiv u) ≠ 0) (row : List Word) :
    aqSampleAt now row u = (aqCounted now u, none) := by
  have hne : u.st ≠ .idle ∧ u.st ≠ .stopping := by rcases h with h | ⟨h | h, -⟩ <;> simp [h]
  rw [aqSampleAt_counts hne hin, if_neg]
  rcases h with h | ⟨-, h⟩ <;> simp [h]

theorem aqRowAt_stores (hs : isSample b now t (aqGrp (b.aqAt t)) = true) (hd : AqDue now (b.aqAt t)) (hen : aqTrigEn (b.aqAt t) = false) (hl : aqLoses (b.aqAt t) = false) :
    aqRowAt now t b = b.aqUpd t fun _ => aqStored now (aqRowOf b now t) (aqReady now (b.aqAt t)) := by
  obtain ⟨hu, hf⟩ := aqScan_off (s := now) hen (aqRowOf b now t)
  refine aqRowAt_quiet hs ?_
  rw [aqSampleAt_due hd, aqRow_stored (u := aqCounted now (b.aqAt t)) hl, hu, hf, ite_self]

theorem aqRowAt_loses (hs : isSample b now t (aqGrp (b.aqAt t)) = true) (hd : AqDue now (b.aqAt t)) (hen : aqTrigEn (b.aqAt t) = false) (hl : aqLoses (b.aqAt t) = true) :
    aqRowAt now t b = b.aqUpd t fun _ => aqLost now (aqRowOf b now t) (aqReady now (b.aqAt t)) := by
  obtain ⟨hu, hf⟩ := aqScan_off (s := now) hen (aqRowOf b now t)
  refine aqRowAt_quiet hs ?_
  rw [aqSampleAt_due hd, aqRow_lost (u := aqCounted now (b.aqAt t)) hl, hu, hf, ite_self]

end

/-! ### Write-back -/

section
variable {now t : Nat} {b : Block} {k : AqBlk} {r : List AqWrite} {p : Part}

/-- The byte address of block `n` of a slot in its partition (R369, R372). -/
def aqAddr (b : Block) (t : Nat) (p : Part) (slot n : Nat) : Nat := p.base * 65536 + (slot * Fld.AQ_RING_SLOT_BLOCKS b.cfg t + n) * 512

theorem aqWrite_none (hq : (b.aqAt t).q = []) : aqWrite now t b = b := by simp only [aqWrite, hq]

theorem aqWrite_early (hq : (b.aqAt t).q = .block k :: r) (hd : now < k.lastAt + 2000) : aqWrite now t b = b := by
  simp only [aqWrite, hq, if_neg (Nat.not_le.2 hd)]

theorem aqWrite_block (hq : (b.aqAt t).q = .block k :: r) (hd : k.lastAt + 2000 ≤ now) (hp : partOf b 4 t = some p) :
    aqWrite now t b = nextDraw (memWrite (aqAddr b t p (b.aqAt t).slot (1 + k.seq % max 1 (Fld.AQ_RING_SLOT_BLOCKS b.cfg t - 1))) (aqBlockBytes (b.aqAt t) b.draws k)
      (b.aqUpd t fun _ => { b.aqAt t with q := r })) := by
  simp only [aqWrite, hq, if_pos hd, aqBlockAddr, hp, Option.map_some, aqPutMem]
  rw [aqUpd_value]; rfl

theorem aqWrite_desc {st : Nat} (hq : (b.aqAt t).q = .desc st :: r) (hp : partOf b 4 t = some p) :
    aqWrite now t b = nextDraw (memWrite (aqAddr b t p (b.aqAt t).slot 0) (aqDescBytes (b.aqAt t) b.draws (aqPeriod b t) (Fld.AQ_RING_SLOT_BLOCKS b.cfg t - 1) t st)
      (b.aqUpd t fun _ => { b.aqAt t with
        q := r, full := if st = 1 ∨ bit (b.aqAt t).full (b.aqAt t).slot = true then (b.aqAt t).full else (b.aqAt t).full + 2 ^ (b.aqAt t).slot })) := by
  simp only [aqWrite, hq, aqBlockAddr, hp, Option.map_some, aqPutMem]
  rw [aqUpd_value]
  simp only [Bool.or_eq_true, decide_eq_true_eq]; rfl

/-- What a write leaves: unit `y` in its tile, its bytes in memory, and every other byte and unit as they were (R371). -/
def Wrote (b c : Block) (t : Nat) (y : Aq) (base : Nat) (bs : List Byte) : Prop :=
  c.aqAt t = y ∧ (∀ i, i ≠ t → c.aqAt i = b.aqAt i) ∧ (∀ i, i < bs.length → tabGet 0 c.mem (base + i) = bs.getD i 0) ∧
    (∀ a, (a < base ∨ base + bs.length ≤ a) → tabGet 0 c.mem a = tabGet 0 b.mem a) ∧
    c = { b with aq := c.aq, mem := c.mem, badMem := c.badMem, draws := b.draws + 1, turns := c.turns }

theorem wrote_memWrite (b : Block) (t : Nat) (y : Aq) (base : Nat) (bs : List Byte) (l : List (Nat × Nat × Nat)) :
    Wrote b { nextDraw (memWrite base bs (b.aqUpd t fun _ => y)) with turns := l } t y base bs := by
  have hread : ∀ j, tabGet 0 (nextDraw (memWrite base bs (b.aqUpd t fun _ => y))).mem j = if base ≤ j ∧ j < base + bs.length then bs.getD (j - base) 0 else tabGet 0 b.mem j :=
    fun j => memWrite_read base j bs (b.aqUpd t fun _ => y)
  have hunit : ∀ i, Block.aqAt { nextDraw (memWrite base bs (b.aqUpd t fun _ => y)) with turns := l } i = (b.aqUpd t fun _ => y).aqAt i := aqAt_of_aq rfl
  refine ⟨?_, fun i hi => ?_, fun i hi => ?_, fun a ha => ?_, by dsimp only [nextDraw, memWrite, Block.aqUpd]⟩
  · rw [hunit, aqAt_aqUpd]
  · rw [hunit, aqAt_aqUpd_ne _ _ _ _ hi]
  · have hin : base ≤ base + i ∧ base + i < base + bs.length := by omega
    dsimp only
    rw [hread, if_pos hin, Nat.add_sub_cancel_left]
  · have hout : ¬(base ≤ a ∧ a < base + bs.length) := by omega
    dsimp only
    rw [hread, if_neg hout]

theorem Wrote.first {c : Block} {y : Aq} {base : Nat} {bs l : List Byte} {v : Byte} (h : Wrote b c t y base bs) (hbs : bs = v :: l) : tabGet 0 c.mem base = v := by
  obtain ⟨-, -, hbytes, -, -⟩ := h
  subst hbs
  exact hbytes 0 (Nat.succ_pos _)

theorem Wrote.byte {c : Block} {y : Aq} {base i : Nat} {bs : List Byte} {v : Byte} (h : Wrote b c t y base bs) (hi : bs[i]? = some v) : tabGet 0 c.mem (base + i) = v := by
  obtain ⟨-, -, hbytes, -, -⟩ := h
  rw [hbytes i (List.getElem?_eq_some_iff.1 hi).1, List.getD_eq_getElem?_getD, hi, Option.getD_some]

theorem wrote_block (hs : spineServes b (pktAq t (b.aqAt t)) = true) (hq : (b.aqAt t).q = .block k :: r) (hd : k.lastAt + 2000 ≤ now) (hp : partOf b 4 t = some p) :
    Wrote b (aqWriteback now t b) t { b.aqAt t with q := r } (aqAddr b t p (b.aqAt t).slot (1 + k.seq % max 1 (Fld.AQ_RING_SLOT_BLOCKS b.cfg t - 1)))
      (aqBlockBytes (b.aqAt t) b.draws k) := by
  rw [aqWriteback, spineServe_goes hs, aqWrite_block hq hd hp]
  exact wrote_memWrite _ _ _ _ _ _

theorem wrote_desc {st : Nat} (hs : spineServes b (pktAq t (b.aqAt t)) = true) (hq : (b.aqAt t).q = .desc st :: r) (hp : partOf b 4 t = some p) :
    Wrote b (aqWriteback now t b) t { b.aqAt t with
      q := r, full := if st = 1 ∨ bit (b.aqAt t).full (b.aqAt t).slot = true then (b.aqAt t).full else (b.aqAt t).full + 2 ^ (b.aqAt t).slot }
      (aqAddr b t p (b.aqAt t).slot 0) (aqDescBytes (b.aqAt t) b.draws (aqPeriod b t) (Fld.AQ_RING_SLOT_BLOCKS b.cfg t - 1) t st) := by
  rw [aqWriteback, spineServe_goes hs, aqWrite_desc hq hp]
  exact wrote_memWrite _ _ _ _ _ _

/-- A data block begins with its type and the number of its rows (R370). -/
theorem aqBlockBytes_head (u : Aq) (d : Nat) (k : AqBlk) : ∃ l, aqBlockBytes u d k = 1 :: BitVec.ofNat 8 k.rows.length :: l := by
  simp [aqBlockBytes, aqLe, leBytes]

/-- A descriptor carries its state in byte 4 and the source of the trigger in byte 6 (R387). -/
theorem aqDescBytes_head (u : Aq) (d period ring tile st : Nat) :
    ∃ b0 b1 b2 b3 b5 l, aqDescBytes u d period ring tile st = b0 :: b1 :: b2 :: b3 :: BitVec.ofNat 8 st :: b5 :: BitVec.ofNat 8 (u.trig.getD {}).src :: l := by
  unfold aqDescBytes
  dsimp only
  simp only [List.append_assoc]
  exact ⟨_, _, _, _, _, _, rfl⟩

end

/-- Settles O33: the row by what its instant calls for and by the room for it, the write-back by the front of the queue, a timer by its tick. -/
theorem acquisitionRows : Obligations.AcquisitionRows := by
  intro t s x hl hx
  subst hx
  have row : ∀ {y}, aqRowAt s.clk.lattice t s.b = y → Turns (.acqRow t) s y := turns_onTile (exec_acqRow t s) hl
  have write : ∀ {y}, aqWriteback s.clk.lattice t s.b = y → Turns (.blockWriteback t) s y := turns_onTile (exec_blockWriteback t s) hl
  refine ⟨fun hs => row (aqRowAt_other hs), fun hs h => row (aqRowAt_quiet hs (aqSampleAt_ignores h)), fun hs hin h => row (aqRowAt_quiet hs (aqSampleAt_skips hin h _)),
    fun hd hen hroom => ?_, fun hd hen hroom => ?_, fun hd harm hen ha hb hf => ?_, fun hq hs => ?_, fun hs => write (spineServe_waits hs),
    fun k r p hq hp hd hs => ?_, fun k r hq hd => ?_, fun st r p hq hp hs => ?_, fun i hr he hb => ?_, fun i h => ?_⟩
  · refine gives_onTile (exec_acqRow t s) hl ?_
    dsimp only
    rw [aqRowAt_stores hd.1 hd.2 hen (aqLoses_iff.2 hroom)]
    refine ⟨rfl, fun i hi => aqAt_aqUpd_ne _ _ _ _ hi, ?_⟩
    rw [aqAt_aqUpd]
    generalize aqRowOf s.b s.clk.lattice t = w
    generalize s.b.aqAt t = x, s.clk.lattice = now
    obtain ⟨hstored, hrow, hprev, hok, hat, hlost, hsmp, hlast, hgapRows, hgaps, hseq, hfull, hslot, hmissed, -⟩ := stores_aqStored now w (aqReady now x)
    exact ⟨hstored, hrow, hprev, hok, hat, hlost, hsmp, hlast, hgapRows, hgaps, hseq, hfull, hslot, hmissed,
      fun htr harm => aqStored_before (u := aqReady now x) htr harm w, fun T n p htr hT hst => aqStored_at (u := aqReady now x) htr hT hst w,
      fun T n p m r htr hst => aqStored_after (u := aqReady now x) htr hst w⟩
  · refine gives_onTile (exec_acqRow t s) hl ?_
    dsimp only
    rw [aqRowAt_loses hd.1 hd.2 hen (by_contra fun hc => hroom (aqLoses_iff.1 (Bool.eq_false_iff.2 hc)))]
    refine ⟨rfl, fun i hi => aqAt_aqUpd_ne _ _ _ _ hi, ?_⟩
    rw [aqAt_aqUpd]
    exact loses_aqLost _ _ _
  · obtain ⟨y, hsample, hst⟩ := aqSampleAt_fires hd.2 harm hen ha hb hf (aqRowOf s.b s.clk.lattice t)
    refine gives_onTile (exec_acqRow t s) hl ⟨?_, ?_⟩ <;> dsimp only
    · rw [aqRowAt_fires hd.1 hsample]; rfl
    · rw [aqAt_aqRowAt hd.1 hsample]; exact hst
  · refine gives_onTile (exec_blockWriteback t s) hl ?_
    dsimp only
    rw [aqWriteback, spineServe_goes hs, aqWrite_none hq]
  · have hw := wrote_block hs hq hd hp
    obtain ⟨l, hbs⟩ := aqBlockBytes_head (s.b.aqAt t) s.b.draws k
    have ⟨hunit, hother, hbytes, hrest, hframe⟩ := hw
    exact gives_onTile (exec_blockWriteback t s) hl ⟨hunit, hother, hw.first hbs, hw.byte (by rw [hbs]; rfl), hbytes, hrest, hframe⟩
  · refine gives_onTile (exec_blockWriteback t s) hl ?_
    dsimp only
    cases hs : spineServes s.b (pktAq t (s.b.aqAt t)) with
    | false => rw [aqWriteback, spineServe_waits hs]
    | true => rw [aqWriteback, spineServe_goes hs, aqWrite_early hq hd]
  · have hw := wrote_desc (now := s.clk.lattice) hs hq hp
    obtain ⟨b0, b1, b2, b3, b5, l, hbs⟩ := aqDescBytes_head (s.b.aqAt t) s.b.draws (aqPeriod s.b t) (Fld.AQ_RING_SLOT_BLOCKS s.b.cfg t - 1) t st
    have ⟨hunit, hother, hbytes, hrest, hframe⟩ := hw
    exact gives_onTile (exec_blockWriteback t s) hl ⟨hunit, hother, hw.byte (by rw [hbs]; rfl), hw.byte (by rw [hbs]; rfl), hbytes, hrest, hframe⟩
  · refine turns_onTile (exec_triggerTimerExpiry t i s) hl ((aqUpd_value _ _ _).trans ?_)
    rw [if_pos (by simpa [he, hb] using hr)]
  · refine turns_onTile (exec_triggerTimerExpiry t i s) hl ((aqUpd_value _ _ _).trans ?_)
    rw [if_neg]
    rcases h with h | h | h
    · simp [not_or.1 h]
    · simp [Nat.not_le.2 h]
    · simp [h]

end Sys2Proof.Proofs
end
